-- ==== Sys2Proof/Word.lean ====
section
/-! DEFINITION. The byte and word types of the LH8640 model. Byte-order helpers, bit fields and every
computed encoding stand in Sys2Proof/Machine/Bytes.lean. -/

namespace Sys2Proof

/-- One byte of a record, a register or a scratchpad (00_scope.md R8). -/
abbrev Byte := BitVec 8

/-- A record or buffer, byte 0 first (00_scope.md R8). -/
abbrev Bytes := List Byte

/-- One 32-bit register or scratchpad word (18_setup_registers.md R471, 09_fabric_memory.md R259). -/
abbrev Word := BitVec 32

end Sys2Proof
end

