-- ==== Sys2Proof/Syntax.lean ====
section
/-! DEFINITION. The commands of the LH8640 block: one constructor per row of spec/opcode_table.json.
Every row carries `t`, the timebase tick at which it happens (inside `Desc` for a queue command); log 1. -/

namespace Sys2Proof

/-- A submission descriptor as the device fetched it (11_rings_doorbells.md R293), with the argument
block it read when INLINE is clear (R294) and the tick of its dispatch. -/
structure Desc where
  t : Nat
  queue : Nat
  opcode : Nat
  flags : Nat
  tag : Nat
  argAddr : Nat
  inl : Bytes
  args : Bytes
  deriving DecidableEq, Repr, Inhabited

/-- What the two signature algorithms answered for one message (15_husk_security.md R424; log 6). -/
structure Crypto where
  ed : Bool
  ml : Bool
  deriving DecidableEq, Repr, Inhabited

/-- The result set of a calibration run (08_calibration.md R220-R225): failure code 0 none, 1 CAL_INCOMPLETE,
2 CAL_MATCH_FAIL, 3 CAL_NO_STATISTIC; steps in 10 nV and 0.01 ppm. For a cell run `trims` are its settings: 0-3 offset
trims, 4-21 fine trims, 22-39 segment codes, 40 and 41 position maps, plus 64 for the primitive's second cell; `ranks`
the (element, rank) measured, plus 48 for the second cell; `details` (element, offset in 40 nV, drift in 0.5 nV/K) of
input pairs and (element, ratio error, 0) of capacitor groups; `moved` the inactive pairs that moved beyond the limit,
each with its new health score. For a converter `coef` are (gain code, offset, gain in 2^-30) of the loop that becomes
the main loop, plus 32 for the other loop; for a DAC channel (range code, offset, gain). -/
structure CalResult where
  fail : Nat
  offStep : Int
  gainStep : Int
  ranks : List (Nat × Nat)
  details : List (Nat × Int × Int)
  moved : List (Nat × Nat)
  coef : List (Nat × Int × Nat)
  trims : List (Nat × Int)
  deriving DecidableEq, Repr, Inhabited

/-- The answer of one region in the external reference procedure (08 R226): failure 0 none, 1 ABSENT,
2 NOISY, 3 IMPLAUSIBLE, 4 TIMEOUT; the mean measured, in 10 nV. -/
structure RefRegion where
  fail : Nat
  mean : Nat
  deriving DecidableEq, Repr, Inhabited

/-- What Tiller measures on one candidate that it builds (03_tiller_placement.md R52, R71; log 5): a binary32 word for each
specification record of the graph, in order, in the record's unit and under its condition; the noise of a NOISE record is
its white-noise floor at bias code 1,023. -/
abbrev Measured := List Nat

/-- The commands of the block, in the table's order. -/
inductive Instr where
  | nop (d : Desc)
  | query (d : Desc)
  | graphPlace (d : Desc) (image : Bytes)
  | partition (t slot : Nat)
  | cellSelection (t slot : Nat)
  | buildAndMeasure (t slot : Nat) (meas : List Measured)
  | evaluate (t slot : Nat)
  | graphRemove (d : Desc)
  | graphTune (d : Desc) (image : Bytes) (meas : Measured)
  | graphPin (d : Desc) (pins : Bytes)
  | transplant (d : Desc)
  | ledgerRead (d : Desc)
  | convConfig (d : Desc)
  | seqLoad (d : Desc) (steps : Bytes)
  | trigger (d : Desc)
  | syscalZero (d : Desc)
  | syscalFull (d : Desc)
  | syscalCommit (d : Desc)
  | dacSet (d : Desc)
  | dacRange (d : Desc)
  | ddsConfig (d : Desc)
  | dacNvStore (d : Desc) (verified : Bool)
  | slewConfig (d : Desc)
  | calRun (d : Desc)
  | calPolicy (d : Desc)
  | calRefExternal (d : Desc)
  | streamOpen (d : Desc)
  | streamClose (d : Desc)
  | personaLoad (d : Desc) (header : Bytes)
  | regionLoad (d : Desc) (header : Bytes)
  | readback (d : Desc)
  | snapshot (d : Desc)
  | logDrain (d : Desc)
  | stolonPolicy (d : Desc)
  | attest (d : Desc) (sig : Bytes)
  | keyProvision (d : Desc) (blob : Bytes) (cr : Crypto)
  | alarmPolicy (d : Desc) (image : Bytes) (cr : Crypto) (verified : Bool)
  | pinMap (d : Desc) (entries : Bytes)
  | gpioWriteMasked (d : Desc)
  | memCopyIn (d : Desc) (data : Bytes) (granted : Nat)
  | memCopyOut (d : Desc) (granted : Nat) (bad : Option Nat) (fixed : List Nat)
  | memAtomic (d : Desc) (granted : Bool) (ecc : Nat)
  | abort (d : Desc)
  | halt (t : Nat) (value : BitVec 64) (width : Nat)
  | release (t : Nat) (value : BitVec 64) (width : Nat)
  | mgmtEventRingHead (t : Nat) (value : Word) (width : Nat)
  | submissionTail (t q : Nat) (value : Word) (width : Nat)
  | completionHead (t q : Nat) (value : Word) (width : Nat)
  | bufferRingTail (t ds : Nat) (value : Word) (width : Nat) (descs : List Bytes)
  | eventRingHead (t ds : Nat) (value : Word) (width : Nat)
  | spiWriteRingArea (t addr : Nat) (data : Bytes)
  | spiReadRingArea (t addr len : Nat)
  | spiWriteSetupRegister (t off : Nat) (value : Word)
  | spiReadSetupRegister (t off : Nat)
  | spiWriteDoorbell (t off : Nat) (data : Bytes)
  | spiReadClearPending (t : Nat)
  | cfgLoad (t len : Nat) (header : Bytes)
  | cfgReadback (t scope index time : Nat)
  | cfgStatus (t : Nat)
  | programFallback (t len : Nat) (header : Bytes)
  | identify (t : Nat)
  | cfgTransactionGap (t : Nat)
  | extest (t : Nat)
  | samplePreload (t : Nat) (bits : List Bool)
  | idcode (t : Nat)
  | highz (t : Nat)
  | clamp (t : Nat)
  | bypass (t code : Nat)
  | warmReset (t : Nat) (value : Word)
  | cqEnable (t q : Nat) (value : Word)
  | cqDisable (t q : Nat) (value : Word)
  | dsEnable (t ds : Nat) (value : Word)
  | dsDisable (t ds : Nat) (value : Word)
  | meEnable (t : Nat) (value : Word)
  | meDisable (t : Nat) (value : Word)
  | referenceSelect (t : Nat) (value : Word)
  | upllEnable (t n : Nat) (value : Word)
  | gckSetup (t g : Nat) (freqReg : Bool) (value : Word)
  | syncModeWrite (t : Nat) (value : Word)
  | cmpLoWrite (t u : Nat) (value : Word)
  | cmpHiWrite (t u : Nat) (value : Word)
  | cmpPeriodWrite (t u : Nat) (value : Word)
  | cmpDisarm (t reg : Nat) (value : Word)
  | ulEnable (t l : Nat) (value : Word)
  | pinBankVccio (t b : Nat) (value : Word)
  | pinDiff (t k : Nat) (value : Word)
  | pinOut (t b : Nat) (value : Word)
  | pinOutMasked (t b : Nat) (value : Word)
  | bootGo (t : Nat) (value : Word) (header : Bytes)
  | loRead (t off : Nat)
  | registerWrite (t off : Nat) (value : Word) (width : Nat)
  | por (t : Nat) (cfgPull hostSel vrefSel : Bool)
  | brownout (t : Nat) (cfgPull hostSel vrefSel : Bool)
  | resetN (t lowNs : Nat)
  | perst (t : Nat)
  | suppliesValid (t : Nat)
  | pllLock (t refKHz : Nat) (fuseOk : Bool)
  | selfTest (t fail : Nat) (vccio : List Nat) (policyOk keyLost : Bool)
  | hostWaitExpiry (t : Nat)
  | personaSlotTry (t : Nat) (header : Bytes)
  | signatureVerified (t w : Nat) (ed ml : Bool) (taken : List Nat)
  | personaEpoch (t w : Nat) (stored : Bytes)
  | frame (t w : Nat) (rec : Bytes)
  | repeatRecord (t w : Nat) (rec : Bytes)
  | regionMark (t w : Nat) (rec : Bytes)
  | endRecord (t w : Nat) (rec : Bytes)
  | personaEarlyEnd (t w : Nat)
  | personaTimeout (t w : Nat)
  | doneHigh (t : Nat)
  | doneTimeout (t : Nat)
  | resetRelease (t : Nat)
  | outputEnable (t : Nat)
  | dataAreaApply (t : Nat) (meas : List (List Measured))
  | regionIsolation (t r : Nat)
  | regionClockRelease (t r : Nat) (meas : List (List Measured))
  | outputInstant (t c : Nat) (raw companion : Int)
  | applyStrobe (t : Nat)
  | triggerAccept (t kind index : Nat) (falling : Bool)
  | loopOverload (t c : Nat)
  | loopOverloadEnd (t c : Nat)
  | syscalTimeout (t slot : Nat)
  | converterPowerGate (t c : Nat)
  | streamRecord (t c : Nat)
  | flushInterval (t ds : Nat)
  | streamFetchStall (t ds : Nat)
  | queueStalled (t q : Nat)
  | msixMessage (t v : Nat)
  | dacUpdate (t n : Nat)
  | dacBusCapture (t n data : Nat) (valid : Bool)
  | slewTick (t n : Nat)
  | ddsWrap (t n : Nat)
  | ddsMatch (t n : Nat)
  | dacPowerupRange (t n : Nat)
  | dacPowerupEnable (t n : Nat)
  | rangeSwitch (t n : Nat)
  | dacShort (t n : Nat)
  | dacTrip (t n : Nat)
  | dacSenseOpen (t n mv : Nat)
  | dacSupplyLoss (t : Nat)
  | timebaseUpdate (t : Nat)
  | timebaseCompare (t u : Nat)
  | refLost (t : Nat)
  | refRestored (t : Nat)
  | syncInEdge (t : Nat)
  | syncInMissing (t : Nat)
  | timebaseRephase (t : Nat)
  | gckLoss (t g khz : Nat)
  | gckRestored (t g khz : Nat)
  | resetTreeAssert (t g : Nat)
  | resetTreeDeassert (t g : Nat)
  | fabricContention (t k wire : Nat)
  | scratchpadFabricRequest (t b op addr be : Nat) (wdata : Word) (ecc : Nat)
  | scrubWriteback (t b : Nat)
  | dmaTimeout (t slot : Nat)
  | readbackCapture (t id : Nat) (edges : List (Nat × Nat × List (Nat × Nat)))
  | readbackBlockDone (t id b : Nat)
  | sheafToken (t u : Nat)
  | snapshotComplete (t : Nat)
  | sheafTimeout (t : Nat)
  | cellControlEdge (t kind index : Nat) (level : Bool)
  | idacCompliance (t slot prim : Nat)
  | ainOverrange (t pair leg : Nat)
  | ainOverrangeClear (t pair : Nat)
  | destinationConfigured (t slot prim : Nat)
  | destinationSettled (t slot prim : Nat)
  | matchingRound (t slot prim offIn offOut gainDiff : Nat) (trims : List (Nat × Int))
  | crossoverComplete (t slot prim : Nat) (meas : Measured)
  | sourceDisconnected (t slot prim : Nat)
  | cellFault (t cell monitor : Nat)
  | repairDestination (t r : Nat)
  | repairConfigured (t r : Nat)
  | repairNetsConnected (t r : Nat)
  | repairSettled (t r : Nat)
  | repairVerified (t r : Nat)
  | repairTakeover (t r : Nat) (meas : Measured)
  | repairCold (t r : Nat) (meas : Measured)
  | stolonTestStart (t r : Nat) (segs : List Nat)
  | stolonTestEnd (t r : Nat) (scores ranks segScores : List Nat) (arbOk : Bool)
  | stolonYielded (t r why : Nat)
  | coverageMissed (t r : Nat)
  | spareWarm (t cell : Nat)
  | cellReset (t cell : Nat) (readbackMatches : Bool)
  | arbRecovery (t b holder : Nat)
  | blockQuarantine (t b why : Nat)
  | regionWatchdog (t r : Nat)
  | regionReady (t r : Nat) (ed ml : Bool)
  | regionFailed (t r : Nat)
  | regionRestartRetry (t r : Nat)
  | mgmtWatchdog (t : Nat)
  | mgmtRestartEnd (t : Nat)
  | temperatureReading (t r : Nat) (temps : List Int)
  | calIntervalDue (t kind idx : Nat)
  | calRetry (t kind idx : Nat)
  | calibrationRunStart (t r kind idx : Nat)
  | calibrationRunEnd (t kind idx : Nat) (res : CalResult)
  | refcalMeasurement (t : Nat) (regions : List RefRegion)
  | keepStoreWrite (t kind idx : Nat)
  | supplyFault (t which : Nat) (mv : Int)
  | supplyRestored (t which : Nat) (mv : Int)
  | pinInputChange (t p : Nat) (level : Bool)
  | functionSwitch (t : Nat)
  | bankSupplyFault (t b mv : Nat)
  | bankSupplyRestored (t b mv : Nat)
  | portStatus (t k : Nat)
  | portTx (t k wdata : Nat)
  | portRx (t k : Nat)
  | portControl (t k wdata : Nat)
  | ulTxBlock (t l : Nat) (blk : BitVec 66) (ready : Bool)
  | ulRxOverflow (t l : Nat)
  | ulLock (t l : Nat)
  | ulLockLost (t l : Nat)
  | huskAlarm (t sensor detail : Nat)
  | tamperLatch (t sensor : Nat)
  | keyKillBurn (t : Nat)
  | checkpointWrite (t : Nat)
  | strawBanner (t : Nat)
  | sparesCold (t r : Nat)
  | shortLimitReleased (t n : Nat)
  | sensorInactive (t sensor : Nat)
  | ulRxBlock (t l : Nat) (blk : BitVec 66)
  | portByteReceived (t k byte : Nat) (err : Bool)
  | portByteSent (t k : Nat) (arbLost nack : Bool)
  | smbusTimeout (t k : Nat)
  | linkTrained (t speed width : Nat)
  | linkRetraining (t : Nat)
  | upllLock (t n : Nat)
  | nopDelayPassed (t slot : Nat)
  deriving DecidableEq, Repr

end Sys2Proof
end

