-- ==== Sys2Proof/Config.lean ====
section
/-! DEFINITION. What the manual leaves to an implementation, and the free values: constants without a
body, so that nothing can be proved about their values. -/

namespace Sys2Proof

/-- The SHA-384 digests of the management firmware and of the region controller firmware (15_husk_security.md R425): the manual
names them and states no value. DESIGN CHOICE (log 15): free values. -/
opaque Config.mgmtDigest : Bytes
opaque Config.regionDigest : Bytes

/-- The 32-bit check value of a key RAM slot's contents (15_husk_security.md R419): the manual names it and no function. DESIGN
CHOICE (log 15): free. -/
opaque Config.keyCheck : Bytes → Nat

/-- The public keys of the device identity and of the factory, Ed25519 and then ML-DSA-65, and the two signatures of the
endorsement (15_husk_security.md R421): the manual gives no value. DESIGN CHOICE (log 15): free values. -/
opaque Config.identityKeys : Bytes
opaque Config.factoryKeys : Bytes
opaque Config.endorsement : Bytes

/-- The fixed latency, in ticks, from an accepted SYNC_IN edge to the load of the timebase
(10_islands_sheaf.md R275): fixed, and not stated. DESIGN CHOICE (log 15): a free value. -/
opaque Config.syncLatency : Nat

/-- The external VREF in picovolts (05_precision_conversion.md R128; 19_electrical_package.md R495): the manual gives a window
and no value. DESIGN CHOICE (log 15): a free value. -/
opaque Config.externalVref : Nat

/-- The payload bytes that the PCI Express link carries in 4 us, by its speed and width codes (11_rings_doorbells.md R323): the manual
gives the share and not the bandwidth. DESIGN CHOICE (log 15): a free value. -/
opaque Config.linkBytes : Nat → Nat → Nat

/-- A free value: the n-th result that the manual leaves without a value. Every use advances the
model's own counter `freeCtr`. DESIGN CHOICE (log 15). -/
opaque Config.freeValue : Nat → Nat

/-- Does the block round the non-integer quotient of two numbers up, where the manual asks for an integer and
names no rounding rule? DESIGN CHOICE (log 15): free. -/
opaque Config.roundUp : Int → Int → Bool

/-- Does a quotient that lies half way between two integers round up, where the manual says round and names no rule
for ties? DESIGN CHOICE (log 15): free. -/
opaque Config.tieUp : Int → Int → Bool

/-- Is a standard deviation that of a sample (divisor N - 1)? The manual does not say (05_precision_conversion.md
R152). DESIGN CHOICE (log 15): free. -/
opaque Config.sampleDeviation : Bool

/-- The achieved value that a report gives for a parameter (03_tiller_placement.md R80): by the first cell, the
parameter's place and the binary32 word asked for. The manual bounds it and states no value. DESIGN CHOICE
(log 15): free. -/
opaque Config.achieved : Nat → Nat → Nat → Nat

/-- The calibration rank of a Ledger entry after start-up: by its element number and the bytes of the record that the Keep
store holds for its cell. The manual restores it from the stored coefficients (03_tiller_placement.md R94) and states no
value. DESIGN CHOICE (log 15): free. -/
opaque Config.restoredRank : Nat → Bytes → Nat

/-- What Tiller predicts for a specification record (03_tiller_placement.md R69, R76): by its code and condition, the block
temperature in whole degrees, the words of the primitive and the Ledger data of its cells; a binary32 word as `Measured`
describes it. The manual bounds it and states no value. DESIGN CHOICE (log 15): free. -/
opaque Config.predict : Nat → Nat → Int → List Nat → List Nat → Nat

/-- A measured value of an AT_PLACEMENT record (03_tiller_placement.md R64, R81) at another temperature of the block: by the
word measured, the temperature then and the temperature now, in whole degrees. The manual states no value. DESIGN CHOICE
(log 15): free. -/
opaque Config.atTemp : Nat → Int → Int → Nat

/-- The 10-bit code that Tiller sets on a resistor segment of a cell (02_analogue_cells.md R45; 03_tiller_placement.md R69): by
the function configured in the cell and the number of the working segment. The manual gives one example and no rule. DESIGN
CHOICE (log 15): free. -/
opaque Config.segCode : List Nat → Nat → Nat

/-- The segment code that a ratio correction beyond the fine trim's range sets, and the fine trim that is left (08_calibration.md
R212): by the code so far and the correction in steps of the fine trim. The manual states no value. DESIGN CHOICE (log 15):
free. -/
opaque Config.recode : Nat → Int → Nat
opaque Config.remainder : Nat → Int → Int

/-- The level of a point of the user logic that the manual gives none: by its number and the time. An undriven wire, a wire with two
drivers before the checker acts, a loop of logic, a selection that names nothing (09_fabric_memory.md R240-R253). DESIGN CHOICE
(log 22): free. -/
opaque Config.openLevel : Nat → Nat → Bool

/-- The user pin that a cell of the boundary-scan register observes, none for a cell of another ball: the manual gives the
balls it covers and no order (19_electrical_package.md R502). DESIGN CHOICE (log 15): free. -/
opaque Config.scanPin : Nat → Option Nat

end Sys2Proof
end

