-- ==== Sys2Proof/Machine/Bytes.lean ====
section
/-! DEFINITION. Byte order (00_scope.md R8), bit fields, sign extension, CRC-32C (13_personas.md R366) and
IEEE 754 binary32 words (03_tiller_placement.md R60) in exact integer arithmetic. -/

namespace Sys2Proof.Machine

/-- A little-endian number (00 R8). -/
def le : Bytes → Nat
  | [] => 0
  | b :: l => b.toNat + 256 * le l

/-- `n` bytes of `v`, byte 0 first (00 R8). -/
def toLE : Nat → Nat → Bytes
  | 0, _ => []
  | n + 1, v => BitVec.ofNat 8 v :: toLE n (v / 256)

/-- `n` zero bytes. -/
def zeros (n : Nat) : Bytes := List.replicate n 0

/-- Byte `o` of a record, 0 beyond its end. -/
def byteAt (b : Bytes) (o : Nat) : Nat := (b.getD o 0).toNat

/-- The `n`-byte field at byte offset `o`. -/
def fld (b : Bytes) (o n : Nat) : Nat := le ((b.drop o).take n)

/-- `n` bytes from offset `o`, padded with zeros. -/
def slice (b : Bytes) (o n : Nat) : Bytes := ((b.drop o).take n) ++ zeros (n - (b.length - o))

/-- Bits `lo .. lo + n - 1` of `v`. -/
def bits (v lo n : Nat) : Nat := (v / 2 ^ lo) % 2 ^ n

/-- Bit `i` of `v`. -/
def bit (v i : Nat) : Bool := v.testBit i

/-- 1 for true. -/
def b2n (b : Bool) : Nat := if b then 1 else 0

/-- A word built of fields: (value, lowest bit). -/
def pack : List (Nat × Nat) → Nat
  | [] => 0
  | (v, lo) :: l => v * 2 ^ lo + pack l

/-- The signed value of a `w`-bit field (two's complement). -/
def toI (w v : Nat) : Int := if v % 2 ^ w < 2 ^ (w - 1) then ((v % 2 ^ w : Nat) : Int) else ((v % 2 ^ w : Nat) : Int) - 2 ^ w

/-- The `w`-bit field that holds a signed value. -/
def ofI (w : Nat) (i : Int) : Nat := (i % (2 ^ w : Int)).toNat

/-- Clamp to an interval. -/
def clampI (lo hi v : Int) : Int := if v < lo then lo else if hi < v then hi else v

/-- `n / d` rounded to nearest, ties away from zero (`d > 0`). -/
def roundAway (n d : Int) : Int := if 0 ≤ n then (2 * n + d) / (2 * d) else -((2 * (-n) + d) / (2 * d))

/-- `n / d` rounded to nearest, ties to even (`d > 0`). -/
def roundEven (n d : Int) : Int :=
  let q := n / d
  let r := n % d
  if 2 * r < d then q else if d < 2 * r then q + 1 else if q % 2 = 0 then q else q + 1

/-- First byte of a record that a list of (offset, mask) reserved places finds non-zero (00 R10). -/
def firstBad (b : Bytes) : List (Nat × Nat) → Option Nat
  | [] => none
  | (o, m) :: l => if Nat.land (byteAt b o) m ≠ 0 then some o else firstBad b l

/-- Reserved places: every byte of `[o, o + n)`, all bits. -/
def rsv (o n : Nat) : List (Nat × Nat) := (List.range n).map fun i => (o + i, 255)

/-! ### CRC-32C -/

/-- One step of the reflected CRC-32C shift register, polynomial 0x1EDC6F41 (13 R366). -/
def crcStep (c : Nat) : Nat := if c % 2 = 1 then Nat.xor (c / 2) 0x82F63B78 else c / 2

/-- One byte into the register. -/
def crcByte (c : Nat) (b : Byte) : Nat :=
  crcStep (crcStep (crcStep (crcStep (crcStep (crcStep (crcStep (crcStep (Nat.xor c b.toNat))))))))

/-- CRC-32C: all ones in, all ones out (13 R366). -/
def crc32c (b : Bytes) : Nat := Nat.xor (b.foldl crcByte 0xFFFFFFFF) 0xFFFFFFFF

/-! ### binary32 -/

/-- The exact value of a finite binary32 word, in units of 2^-149. -/
def f32 (w : Nat) : Int :=
  let e := bits w 23 8
  let m := bits w 0 23
  let v : Nat := if e = 0 then m else (2 ^ 23 + m) * 2 ^ (e - 1)
  if bit w 31 then -(v : Int) else (v : Int)

/-- A binary32 word that is not a finite number (03 R60). -/
def f32Special (w : Nat) : Bool := bits w 23 8 = 255

/-- One in units of 2^-149. -/
def f32One : Int := 2 ^ 149

/-- The binary32 word nearest to `n / d` (ties to even), for `n ≥ 0`, `d > 0` (log 14). -/
def f32Nat (n d : Nat) : Nat :=
  if n = 0 then 0 else
  -- the exponent that puts the quotient into [2^23, 2^24)
  let l : Int := (Nat.log2 n : Int) - (Nat.log2 d : Int)
  let e0 : Int := l - 23
  let q (e : Int) : Int := if 0 ≤ e then (n : Int) / ((d : Int) * 2 ^ e.toNat) else ((n : Int) * 2 ^ (-e).toNat) / (d : Int)
  let e1 : Int := if q e0 < 2 ^ 23 then e0 - 1 else e0
  let e : Int := if e1 < -149 then -149 else e1
  let m : Int := if 0 ≤ e then roundEven (n : Int) ((d : Int) * 2 ^ e.toNat)
                 else roundEven ((n : Int) * 2 ^ (-e).toNat) (d : Int)
  let m2 : Int := if m = 2 ^ 24 then 2 ^ 23 else m
  let e2 : Int := if m = 2 ^ 24 then e + 1 else e
  if m2 < 2 ^ 23 then m2.toNat
  else if 104 < e2 then 0x7F800000
  else (m2 - 2 ^ 23).toNat + (e2 + 150).toNat * 2 ^ 23

/-- The binary32 word nearest to the rational `n / d`. -/
def f32Of (n : Int) (d : Nat) : Nat :=
  if n < 0 then 2 ^ 31 + f32Nat n.natAbs d else f32Nat n.natAbs d

/-- ASCII digits of `v` in base 10, `n` of them. -/
def decDigits : Nat → Nat → Bytes
  | 0, _ => []
  | n + 1, v => decDigits n (v / 10) ++ [BitVec.ofNat 8 (48 + v % 10)]

/-- ASCII upper-case hex digits of `v`, `n` of them. -/
def hexDigits : Nat → Nat → Bytes
  | 0, _ => []
  | n + 1, v => hexDigits n (v / 16) ++ [BitVec.ofNat 8 (if v % 16 < 10 then 48 + v % 16 else 55 + v % 16)]

/-- ASCII text. -/
def ascii (s : String) : Bytes := s.toList.map fun c => BitVec.ofNat 8 c.toNat

end Sys2Proof.Machine
end

