-- ==== Sys2Proof/Machine/Crypto.lean ====
section
/-! DEFINITION. The symmetric algorithms that the manual names: SHA-384, HKDF of RFC 5869 and AES-256-GCM (13_personas.md R369,
R374, R375; 15_husk_security.md R415, R418, R421). PRESUMED (log 6): each as its own standard lays it down. -/

namespace Sys2Proof.Machine

abbrev Word64 := BitVec 64

/-! ### SHA-384 -/

/-- The round constants. -/
def shaK : List Word64 :=
  [0x428A2F98D728AE22, 0x7137449123EF65CD, 0xB5C0FBCFEC4D3B2F, 0xE9B5DBA58189DBBC] ++
  [0x3956C25BF348B538, 0x59F111F1B605D019, 0x923F82A4AF194F9B, 0xAB1C5ED5DA6D8118] ++
  [0xD807AA98A3030242, 0x12835B0145706FBE, 0x243185BE4EE4B28C, 0x550C7DC3D5FFB4E2] ++
  [0x72BE5D74F27B896F, 0x80DEB1FE3B1696B1, 0x9BDC06A725C71235, 0xC19BF174CF692694] ++
  [0xE49B69C19EF14AD2, 0xEFBE4786384F25E3, 0x0FC19DC68B8CD5B5, 0x240CA1CC77AC9C65] ++
  [0x2DE92C6F592B0275, 0x4A7484AA6EA6E483, 0x5CB0A9DCBD41FBD4, 0x76F988DA831153B5] ++
  [0x983E5152EE66DFAB, 0xA831C66D2DB43210, 0xB00327C898FB213F, 0xBF597FC7BEEF0EE4] ++
  [0xC6E00BF33DA88FC2, 0xD5A79147930AA725, 0x06CA6351E003826F, 0x142929670A0E6E70] ++
  [0x27B70A8546D22FFC, 0x2E1B21385C26C926, 0x4D2C6DFC5AC42AED, 0x53380D139D95B3DF] ++
  [0x650A73548BAF63DE, 0x766A0ABB3C77B2A8, 0x81C2C92E47EDAEE6, 0x92722C851482353B] ++
  [0xA2BFE8A14CF10364, 0xA81A664BBC423001, 0xC24B8B70D0F89791, 0xC76C51A30654BE30] ++
  [0xD192E819D6EF5218, 0xD69906245565A910, 0xF40E35855771202A, 0x106AA07032BBD1B8] ++
  [0x19A4C116B8D2D0C8, 0x1E376C085141AB53, 0x2748774CDF8EEB99, 0x34B0BCB5E19B48A8] ++
  [0x391C0CB3C5C95A63, 0x4ED8AA4AE3418ACB, 0x5B9CCA4F7763E373, 0x682E6FF3D6B2B8A3] ++
  [0x748F82EE5DEFB2FC, 0x78A5636F43172F60, 0x84C87814A1F0AB72, 0x8CC702081A6439EC] ++
  [0x90BEFFFA23631E28, 0xA4506CEBDE82BDE9, 0xBEF9A3F7B2C67915, 0xC67178F2E372532B] ++
  [0xCA273ECEEA26619C, 0xD186B8C721C0C207, 0xEADA7DD6CDE0EB1E, 0xF57D4F7FEE6ED178] ++
  [0x06F067AA72176FBA, 0x0A637DC5A2C898A6, 0x113F9804BEF90DAE, 0x1B710B35131C471B] ++
  [0x28DB77F523047D84, 0x32CAAB7B40C72493, 0x3C9EBE0A15C9BEBC, 0x431D67C49C100D4C] ++
  [0x4CC5D4BECB3E42B6, 0x597F299CFC657E2A, 0x5FCB6FAB3AD6FAEC, 0x6C44198C4A475817]

/-- The initial hash value. -/
def shaInit : List Word64 :=
  [0xCBBB9D5DC1059ED8, 0x629A292A367CD507, 0x9159015A3070DD17, 0x152FECD8F70E5939] ++
  [0x67332667FFC00B31, 0x8EB44A8768581511, 0xDB0C2E0D64F98FA7, 0x47B5481DBEFA4FA4]

/-- A hash in progress: the chaining value, the bytes of an unfinished block, and how many bytes have gone in. -/
structure Sha where
  chain : List Word64 := shaInit
  rest : Bytes := []
  len : Nat := 0
  deriving DecidableEq, Repr, Inhabited

/-- A big-endian number. -/
def be (b : Bytes) : Nat := le b.reverse
def toBE (n v : Nat) : Bytes := (toLE n v).reverse

def shaCh (x y z : Word64) : Word64 := (x &&& y) ^^^ (~~~x &&& z)
def shaMaj (x y z : Word64) : Word64 := (x &&& y) ^^^ (x &&& z) ^^^ (y &&& z)
def shaSum0 (x : Word64) : Word64 := x.rotateRight 28 ^^^ x.rotateRight 34 ^^^ x.rotateRight 39
def shaSum1 (x : Word64) : Word64 := x.rotateRight 14 ^^^ x.rotateRight 18 ^^^ x.rotateRight 41
def shaMix0 (x : Word64) : Word64 := x.rotateRight 1 ^^^ x.rotateRight 8 ^^^ x >>> 7
def shaMix1 (x : Word64) : Word64 := x.rotateRight 19 ^^^ x.rotateRight 61 ^^^ x >>> 6

/-- The message schedule after its first sixteen words, newest first. -/
def shaSchedule : Nat → List Word64 → List Word64
  | 0, w => w
  | n + 1, w => shaSchedule n ((shaMix1 (w.getD 1 0) + w.getD 6 0 + shaMix0 (w.getD 14 0) + w.getD 15 0) :: w)

/-- One round on the working variables a to h, with its constant and schedule word. -/
def shaRound (v : List Word64) (k w : Word64) : List Word64 :=
  let x (i : Nat) : Word64 := v.getD i 0
  let t := x 7 + shaSum1 (x 4) + shaCh (x 4) (x 5) (x 6) + k + w
  [t + shaSum0 (x 0) + shaMaj (x 0) (x 1) (x 2), x 0, x 1, x 2, x 3 + t, x 4, x 5, x 6]

/-- One block of 128 bytes into the chaining value. -/
def shaBlock (h : List Word64) (b : Bytes) : List Word64 :=
  let w := shaSchedule 64 ((List.range 16).map fun i => BitVec.ofNat 64 (be ((b.drop (8 * (15 - i))).take 8)))
  List.zipWith (· + ·) h ((shaK.zip w.reverse).foldl (fun v e => shaRound v e.1 e.2) h)

/-- Take whole blocks off some bytes: at most `fuel`. -/
def shaBlocks : (fuel : Nat) → List Word64 → Bytes → List Word64 × Bytes
  | 0, h, b => (h, b)
  | n + 1, h, b => if b.length < 128 then (h, b) else shaBlocks n (shaBlock h (b.take 128)) (b.drop 128)

/-- More bytes go in. -/
def Sha.add (s : Sha) (b : Bytes) : Sha :=
  let r := shaBlocks ((s.rest.length + b.length) / 128) s.chain (s.rest ++ b)
  { chain := r.1, rest := r.2, len := s.len + b.length }

/-- The digest: 48 bytes. -/
def Sha.digest (s : Sha) : Bytes :=
  let pad : Bytes := 0x80 :: zeros ((239 - s.len % 128) % 128) ++ toBE 16 (8 * s.len)
  ((s.add pad).chain.take 6).flatMap fun w => toBE 8 w.toNat

def sha384 (b : Bytes) : Bytes := (({} : Sha).add b).digest

/-! ### HMAC and HKDF (13 R375) -/

/-- HMAC-SHA-384; a key is never longer than a block here. -/
def hmac384 (key msg : Bytes) : Bytes :=
  let k := slice key 0 128
  sha384 (k.map (· ^^^ 0x5C) ++ sha384 (k.map (· ^^^ 0x36) ++ msg))

/-- HKDF of RFC 5869 with SHA-384, 32 bytes of output: one block of the expansion. -/
def hkdf (ikm salt info : Bytes) : Bytes := (hmac384 (hmac384 salt ikm) (info ++ [1])).take 32

/-! ### AES-256 -/

/-- The product of two elements of GF(2^8) by x^8 + x^4 + x^3 + x + 1, from the top bit of `b` down. -/
def gfMul (a b : Byte) : Byte :=
  BitVec.ofNat 8 ((List.range 8).foldl (fun x i => ((x * 2) ^^^ (x / 128 * 0x11B)) ^^^ (b.toNat / 2 ^ (7 - i) % 2 * a.toNat)) 0)

/-- The S-box: the inverse, as the 254th power, and the affine map. -/
def sBox (a : Byte) : Byte :=
  let p (x : Byte) : Byte := gfMul x x
  let a3 := gfMul (p a) a
  let a7 := gfMul (p a3) a
  let a127 := (List.range 4).foldl (fun x _ => gfMul (p x) a) a7
  let x := p a127
  x ^^^ x.rotateLeft 1 ^^^ x.rotateLeft 2 ^^^ x.rotateLeft 3 ^^^ x.rotateLeft 4 ^^^ 0x63

def xorBytes (a b : Bytes) : Bytes := List.zipWith (· ^^^ ·) a b

/-- The 60 words of a key's schedule, newest first: `n` more, the next being word `i`. -/
def aesExpand : (n i : Nat) → Byte → List Bytes → List Bytes
  | 0, _, _, w => w
  | n + 1, i, rc, w =>
    let t := w.headD []
    let t' := if i % 8 = 0 then xorBytes ((t.drop 1 ++ t.take 1).map sBox) [rc, 0, 0, 0] else if i % 8 = 4 then t.map sBox else t
    aesExpand n (i + 1) (if i % 8 = 0 then gfMul rc 2 else rc) (xorBytes (w.getD 7 []) t' :: w)

/-- The fifteen round keys of a 32-byte key. -/
def aesKeys (key : Bytes) : List Bytes :=
  let w := (aesExpand 52 8 1 ((List.range 8).map fun i => (key.drop (4 * (7 - i))).take 4)).reverse
  (List.range 15).map fun r => ((w.drop (4 * r)).take 4).flatten

/-- SubBytes and ShiftRows on a state of columns. -/
def aesSub (s : Bytes) : Bytes := (List.range 16).map fun i => sBox (s.getD ((i + 4 * (i % 4)) % 16) 0)

/-- MixColumns. -/
def aesMix (s : Bytes) : Bytes := (List.range 16).map fun i =>
  let x (k : Nat) : Byte := s.getD (i / 4 * 4 + (i + k) % 4) 0
  gfMul 2 (x 0) ^^^ gfMul 3 (x 1) ^^^ x 2 ^^^ x 3

/-- One block of 16 bytes under some round keys. -/
def aesBlock (ks : List Bytes) (b : Bytes) : Bytes :=
  let s := (List.range 13).foldl (fun s r => xorBytes (aesMix (aesSub s)) (ks.getD (r + 1) [])) (xorBytes b (ks.headD []))
  xorBytes (aesSub s) (ks.getD 14 [])

/-! ### GCM (13 R374, R375; 15 R421) -/

/-- The product in GF(2^128), bit 0 of the standard being the most significant. -/
def ghashMul (x y : BitVec 128) : BitVec 128 :=
  ((List.range 128).foldl (fun (e : BitVec 128 × BitVec 128) i =>
    (if x.toNat.testBit (127 - i) then e.1 ^^^ e.2 else e.1,
     if e.2.toNat.testBit 0 then e.2 >>> 1 ^^^ (0xE1 : BitVec 128) <<< 120 else e.2 >>> 1)) (0, y)).1

/-- Pad with zeros to a multiple of 16 bytes. -/
def pad16 (b : Bytes) : Bytes := b ++ zeros ((16 - b.length % 16) % 16)

/-- GHASH under `h` of some additional data and a ciphertext. -/
def ghash (h : BitVec 128) (aad c : Bytes) : BitVec 128 :=
  let m := pad16 aad ++ pad16 c ++ toBE 8 (8 * aad.length) ++ toBE 8 (8 * c.length)
  (List.range (m.length / 16)).foldl (fun y i => ghashMul (y ^^^ BitVec.ofNat 128 (be ((m.drop (16 * i)).take 16))) h) 0

/-- The key stream of counter block `i` for a 12-byte IV. -/
def gcmBlock (ks : List Bytes) (iv : Bytes) (i : Nat) : Bytes := aesBlock ks (iv ++ toBE 4 i)

/-- The 16-byte tag of a ciphertext. -/
def gcmTag (key iv aad c : Bytes) : Bytes :=
  let ks := aesKeys key
  let h := BitVec.ofNat 128 (be (aesBlock ks (zeros 16)))
  xorBytes (toBE 16 (ghash h aad c).toNat) (gcmBlock ks iv 1)

/-- The plaintext of a ciphertext, or the ciphertext of a plaintext. -/
def gcmCrypt (key iv c : Bytes) : Bytes :=
  let ks := aesKeys key
  (List.range ((c.length + 15) / 16)).flatMap fun i => xorBytes ((c.drop (16 * i)).take 16) (gcmBlock ks iv (i + 2))

/-- AES-256-GCM: the plaintext of a ciphertext followed by its tag, none where the tag does not match. -/
def gcmOpen (key iv aad stored : Bytes) : Option Bytes :=
  let n := stored.length - 16
  let c := stored.take n
  if gcmTag key iv aad c = stored.drop n then some (gcmCrypt key iv c) else none

end Sys2Proof.Machine
end

