-- ==== Sys2Proof/Machine/Tbl.lean ====
section
/-! DEFINITION. Sparse tables of plain data: a list of (key, value) pairs, keys strictly rising, listing no
entry equal to the table's default value, so that equal tables are equal lists. The scratchpad RAM is such
a table of bytes (09_fabric_memory.md R259). -/

namespace Sys2Proof.Machine

/-- A sparse table over a default value that the reader names. -/
abbrev Tbl (α : Type) := List (Nat × α)

/-- The value at key `k`: the default `d` where the table lists none. -/
def Tbl.get {α : Type} (d : α) (k : Nat) : Tbl α → α
  | [] => d
  | (j, v) :: l => if j = k then v else Tbl.get d k l

/-- Write `v` at key `k`, keeping the canonical form: the default value is not listed. -/
def Tbl.set {α : Type} [DecidableEq α] (d : α) (k : Nat) (v : α) : Tbl α → Tbl α
  | [] => if v = d then [] else [(k, v)]
  | (j, w) :: l =>
    if k < j then (if v = d then (j, w) :: l else (k, v) :: (j, w) :: l)
    else if k = j then (if v = d then l else (k, v) :: l)
    else (j, w) :: Tbl.set d k v l

/-- Change the value at key `k` by `f`. -/
def Tbl.upd {α : Type} [DecidableEq α] (d : α) (k : Nat) (f : α → α) (l : Tbl α) : Tbl α :=
  Tbl.set d k (f (Tbl.get d k l)) l

/-- Put an element into a sorted list, before those that do not come before it. -/
def insertBy {α : Type} (le : α → α → Bool) (x : α) : List α → List α
  | [] => [x]
  | y :: l => if le x y then x :: y :: l else y :: insertBy le x l

/-- Sort a list; equal elements keep their order. -/
def sortBy {α : Type} (le : α → α → Bool) (l : List α) : List α := l.foldr (insertBy le) []

/-- Every key of the table is at least `n`, keys rise strictly, and no entry is the default. -/
def Tbl.wfFrom {α : Type} [DecidableEq α] (d : α) : Nat → Tbl α → Bool
  | _, [] => true
  | n, (j, v) :: l => decide (n ≤ j) && decide (v ≠ d) && Tbl.wfFrom d (j + 1) l

/-- The canonical form. -/
def Tbl.wf {α : Type} [DecidableEq α] (d : α) (l : Tbl α) : Bool := Tbl.wfFrom d 0 l

/-- Write a run of values from key `k` up. -/
def Tbl.setRun {α : Type} [DecidableEq α] (d : α) : Nat → List α → Tbl α → Tbl α
  | _, [], l => l
  | k, v :: vs, l => Tbl.setRun d (k + 1) vs (Tbl.set d k v l)

/-- Read `n` values from key `k` up. -/
def Tbl.getRun {α : Type} (d : α) (k n : Nat) (l : Tbl α) : List α :=
  (List.range n).map fun i => Tbl.get d (k + i) l

end Sys2Proof.Machine
end

