-- ==== Sys2Proof/Machine/PartsHost.lean ====
section
/-! DEFINITION. The parts of State that the host interface, the management core and the clocks own: rings,
handles, streams, interrupts, log and counters (11_rings_doorbells.md, 17_faults_log.md, 10_islands_sheaf.md,
18_setup_registers.md, 14_startup_defaults.md). -/

namespace Sys2Proof.Machine

/-- What the block has put on one of its outputs (log 7). -/
inductive OutMsg where
  /-- a posted write into host memory -/
  | mem (addr : Nat) (data : Bytes)
  /-- an MSI-X message of a vector -/
  | msix (vector addr data : Nat)
  /-- the word a setup-register read returned -/
  | reg (off : Nat) (value : Nat)
  /-- the bytes a serial host transaction returned -/
  | spi (data : Bytes)
  /-- the bytes the configuration port returned -/
  | cfg (data : Bytes)
  /-- what the test access port shifted out -/
  | tap (bits : List Bool)
  /-- bytes sent on a hard serial port -/
  | port (k : Nat) (data : Bytes)
  /-- the reply of a hard port or of a scratchpad bank to fabric logic -/
  | fabric (unit : Nat) (data : Nat) (err : Bool)
  /-- an event that reaches fabric logic or the trigger logic: (kind, index) of R59 -/
  | event (kind index : Nat)
  /-- a block on a user serial lane -/
  | lane (l : Nat) (blk : Nat)
  /-- a transaction on the flash balls: the command byte and, of a read, its first address -/
  | qspi (op addr : Nat)
  /-- a 100 ns high pulse on the pins that carry SYNC_OUT -/
  | syncOut (pins : List Nat)
  deriving DecidableEq, Repr

/-- A log entry (17 R465) before it is packed. -/
structure LogEntry where
  ts : Nat
  code : Nat
  level : Nat
  idx : Nat
  a0 : Nat
  a1 : Nat
  raised : Bool
  afterLoss : Bool
  deriving DecidableEq, Repr, Inhabited

/-- One counter (10 R286): its value, and WRAPPED (statistics) or SATURATED (error). -/
structure Ctr where
  val : Nat := 0
  flag : Bool := false
  deriving DecidableEq, Repr, Inhabited

/-- A command queue (18 R476, R477; 11 R289-R301). -/
structure Cq where
  sqBase : Nat := 0
  cqBase : Nat := 0
  sqSize : Nat := 4
  cqSize : Nat := 4
  vector : Nat := 0
  enable : Bool := false
  draining : Bool := false
  configError : Bool := false
  stalled : Bool := false
  sqTail : Nat := 0
  sqHead : Nat := 0
  cqTail : Nat := 0
  cqHead : Nat := 0
  phase : Bool := true
  owed : Nat := 0
  fence : Option Nat := none
  deriving DecidableEq, Repr, Inhabited

/-- A sample record (11 R309), with its timestamp (01 R27) and its stream. -/
structure Rec where
  val : Nat
  src : Nat
  flags : Nat
  seq : Nat
  ts : Nat
  stream : Nat
  epoch : Nat := 0
  deriving DecidableEq, Repr, Inhabited

/-- The buffer that a stream fills (11 R313): `first` the timestamp of its first record, `at_` when that was written. -/
structure Buf where
  addr : Nat
  len : Nat
  used : Nat
  first : Nat
  at_ : Nat
  idx : Nat
  deriving DecidableEq, Repr, Inhabited

/-- A fill record before its phase bit (11 R312). -/
structure Fill where
  ts : Nat
  count : Nat
  idx : Nat
  flags : Nat
  deriving DecidableEq, Repr, Inhabited

/-- A data stream (18 R476, R477; 11 R309-R315; 12 R345). `posted` holds the descriptors between the
consumer and the producer index, oldest first, with their ring indices; `closing` is the handle slot of a
STREAM_CLOSE whose fill records still wait for ring space, with the number of buffers it returns; `written` counts
records written since the stream was opened. -/
structure Ds where
  bufBase : Nat := 0
  evtBase : Nat := 0
  bufSize : Nat := 4
  evtSize : Nat := 4
  vector : Nat := 0
  enable : Bool := false
  configError : Bool := false
  opened : Bool := false
  handle : Nat := 0
  dropSettling : Bool := false
  flush : Nat := 0
  halted : Bool := false
  seq : Nat := 0
  bufTail : Nat := 0
  bufHead : Nat := 0
  evtTail : Nat := 0
  evtHead : Nat := 0
  phase : Bool := true
  cur : Option Buf := none
  posted : List (Nat × Bytes) := []
  stage : List Rec := []
  fetchStalled : Bool := false
  written : Nat := 0
  closing : Option (Nat × Nat) := none
  deriving DecidableEq, Repr, Inhabited

/-- The management event ring (18 R476, R477; 11 R316, R317). -/
structure Me where
  base : Nat := 0
  size : Nat := 4
  vector : Nat := 0
  enable : Bool := false
  configError : Bool := false
  tail : Nat := 0
  head : Nat := 0
  phase : Bool := true
  held : List LogEntry := []
  overflow : Bool := false
  deriving DecidableEq, Repr, Inhabited

/-- An MSI-X table entry (11 R321, 18 R470): its mask bit is 1 after reset (PRESUMED: PCI Express; log 10). -/
structure Msix where
  addr : Nat := 0
  data : Nat := 0
  ctrl : Nat := 1
  deriving DecidableEq, Repr, Inhabited

/-- The host interface (18 R476-R479, R492; 11 R318-R323). `sent` lists the stream writes of the last 4 us, as (tick, bytes). -/
structure HostIf where
  cqs : Tbl Cq := []
  dss : Tbl Ds := []
  me : Me := {}
  share : Nat := 12
  sent : List (Nat × Nat) := []
  speed : Nat := 0
  width : Nat := 0
  coal : Tbl Nat := []
  msix : Tbl Msix := []
  pendVec : List Nat := []
  vecNext : Tbl Nat := []
  haltConv : List Nat := []
  haltCmp : List Nat := []
  gap : List Nat := []
  areaStart : Nat := 0
  areaPages : Nat := 8
  loHold : Tbl Nat := []
  latch : Tbl Nat := []
  deferred : List (Nat × Nat × List Bytes) := []
  deferredReg : List (Nat × Nat) := []
  deriving DecidableEq, Repr, Inhabited

/-- What remains of an accepted command. `kind` names the step that ends it; `a`, `b` are its operands. -/
inductive Work where
  | none
  /-- NOP: the tick at which its delay has passed (12 R334) -/
  | delay (due : Nat)
  /-- waits for a restarting region controller (12 R329) -/
  | region (r : Nat) (cmd : Instr)
  /-- GRAPH_PLACE: the graph being placed stands under the same slot (03 R69) -/
  | place
  /-- GRAPH_TUNE: waits for a move or repair to end and then runs again (`again`, 03 R87), or has staged its
  settings and waits for the sample boundary and its transplants (03 R86) -/
  | tune (graph : Nat) (again : Bool) (cmd : Instr)
  /-- GRAPH_PIN: as GRAPH_TUNE; the primitives moved so far (03 R82) -/
  | pin (graph : Nat) (again : Bool) (moved : Nat) (cmd : Instr)
  /-- TRANSPLANT: waits for a GRAPH_TUNE or GRAPH_PIN accepted before it (03 R87) -/
  | after (graph : Nat) (cmd : Instr)
  /-- TRANSPLANT of a primitive (04 R102) -/
  | move (graph prim : Nat)
  /-- CONV_CONFIG or SEQ_LOAD waiting for the output instant (05 R143) -/
  | conv (c : Nat)
  /-- SYSCAL_ZERO or SYSCAL_FULL measuring (05 R152) -/
  | syscal (c : Nat)
  /-- DAC_SET, DAC_RANGE, DDS_CONFIG or SLEW_CONFIG waiting on a channel (07 R203-R206) -/
  | dac (n : Nat)
  /-- CAL_RUN: runs still owed, completed and failed, and whether an ABORT has come (08 R230) -/
  | cal (left done failed : Nat) (stopped : Bool)
  /-- CAL_REF_EXTERNAL measuring (08 R232) -/
  | refcal
  /-- PERSONA_LOAD or REGION_LOAD (12 R347) -/
  | load (w : Nat)
  /-- READBACK (12 R348) -/
  | readback
  /-- SNAPSHOT waiting or running (10 R281) -/
  | snapshot
  /-- PIN_MAP: entries not yet switched stand in the pin controller's queue (12 R354) -/
  | pins
  /-- MEM_COPY_IN, MEM_COPY_OUT, MEM_ATOMIC waiting for a word's grant (09 R263): the waiting word's
  address and the bytes done -/
  | mem (addr done : Nat) (cmd : Instr)
  /-- ABORT waiting for the named command's FINAL (11 R306) -/
  | abort (slot : Nat)
  /-- STREAM_CLOSE waiting for its fill records (11 R315) -/
  | close (ds : Nat)
  deriving DecidableEq, Repr

/-- A handle slot (11 R303-R306): `st` 0 free, 1 in flight, 2 object; `kind` 0 none, 1 graph, 2 stream;
`gen` the last generation issued in the slot, `acc` its place in acceptance order. -/
structure Hnd where
  st : Nat := 0
  gen : Nat := 0
  opcode : Nat := 0
  queue : Nat := 0
  tag : Nat := 0
  flags : Nat := 0
  kind : Nat := 0
  acc : Nat := 0
  lastProgress : Option Nat := none
  discard : Bool := false
  persona : Bool := false
  args : Bytes := []
  work : Work := .none
  deriving DecidableEq, Repr

/-- Management core, identity and log (18 R475; 17 R458, R464-R468; 01 R22, R23). `log` holds the entries
oldest first, of which the first `drained` have been copied by LOG_DRAIN (12 R350). -/
structure Chip where
  restarting : Bool := false
  failed : Bool := false
  restartFrom : Nat := 0
  dogs : List Nat := []
  mgmtFw : Nat := 0
  regionFw : Nat := 0
  serial : Nat := 0
  persona : Nat := 0
  sparesWarm : Bool := false
  resetCause : Nat := 1
  log : List LogEntry := []
  drained : Nat := 0
  lostUndrained : Nat := 0
  afterLoss : Bool := false
  heldLog : List LogEntry := []
  heldFinals : List (Nat × Nat × Nat × Nat) := []
  counters : Tbl Ctr := []
  handles : Tbl Hnd := []
  freeSlots : List Nat := List.range 4096
  accSeq : Nat := 0
  deriving DecidableEq, Repr

/-- Time and start-up (10 R272; 14 R395-R402; 13 R359, R360). -/
structure StartUp where
  timebase : Nat := 0
  running : Bool := false
  powerCount : Nat := 0
  step : Nat := 1
  done : Bool := false
  step4 : Nat := 0
  cfgPull : Bool := false
  localMode : Bool := false
  vrefSel : Bool := false
  selftestFail : Bool := false
  deriving DecidableEq, Repr, Inhabited

/-- A user PLL (18 R480, R482). -/
structure Upll where
  enable : Bool := false
  configError : Bool := false
  mul : Nat := 8
  prediv : Nat := 0
  postdiv : Nat := 0
  locked : Bool := false
  deriving DecidableEq, Repr, Inhabited

/-- A global user clock tree (18 R480, R483; 09 R248-R250): `lost` its source is declared lost, `asserted` a RESET tree
asserts. -/
structure Gck where
  mode : Nat := 0
  kind : Nat := 3
  index : Nat := 0
  div : Nat := 0
  loss : Nat := 0
  deassert : Nat := 0
  activeLow : Bool := false
  khz : Nat := 200000
  lost : Bool := false
  asserted : Bool := true
  deriving DecidableEq, Repr, Inhabited

/-- A timebase compare unit (10 R277, 18 R480, R484). -/
structure Cmp where
  value : Nat := 0
  period : Nat := 0
  armed : Bool := false
  deriving DecidableEq, Repr, Inhabited

/-- A user serial lane (18 R480; 16 R451, R452). -/
structure Lane where
  enable : Bool := false
  rate : Nat := 8
  txTree : Nat := 0
  rxTree : Nat := 0
  deemph : Nat := 0
  lock : Bool := false
  rxBuf : List Nat := []
  deriving DecidableEq, Repr, Inhabited

/-- The CLK block and the timebase logic (18 R480-R484; 10 R272-R277; 14 R399). `lock` holds the lock bits of the core,
timebase, converter and wideband PLL; `syncLast` the time SYNC_IN edges are counted from; `bootSync` an edge has loaded the
timebase in this start-up; `rephasing` the converter PLLs re-phase after a timebase step. -/
structure Clk where
  refSource : Nat := 0
  refFreq : Nat := 3
  refLost : Bool := false
  lock : Nat := 0
  upll : Tbl Upll := []
  syncMode : Nat := 0
  syncPeriod : Nat := 0
  syncLast : Nat := 0
  bootSync : Bool := false
  tbPreset : Nat := 0
  gck : Tbl Gck := []
  lanes : Tbl Lane := []
  cmp : Tbl Cmp := []
  rephasing : Bool := false
  deriving DecidableEq, Repr, Inhabited

/-- A Sheaf snapshot in progress (10 R278-R284). `cut` lists the units cut, `shadow` their counters as
copied, `absent` and `timedOut` the units so reported. -/
structure Snap where
  slot : Nat
  epoch : Nat
  flags : Nat
  addr : Nat
  injected : Nat
  cut : List Nat := []
  shadow : Tbl Ctr := []
  absent : List Nat := []
  timedOut : List Nat := []
  deriving DecidableEq, Repr, Inhabited

/-- The Sheaf mechanism (10 R278-R284): the last epoch used, the snapshot running, and those waiting as
(slot, epoch, flags, address). -/
structure Sheaf where
  epoch : Nat := 0
  run : Option Snap := none
  wait : List (Nat × Nat × Nat × Nat) := []
  deriving DecidableEq, Repr, Inhabited

end Sys2Proof.Machine
end

