-- ==== Sys2Proof/Machine/PartsCell.lean ====
section
/-! DEFINITION. The parts of State that Tiller, transplant and Stolon own: the Ledger, the analogue cells, the
placed graphs, moves, repairs and tests (02_analogue_cells.md, 03_tiller_placement.md,
04_transplant_and_stolon.md). -/

namespace Sys2Proof.Machine

/-- A Ledger entry (03 R91) without its type code, which follows from its number (R89, R90). `state` 0 free,
1 placed, 2 spare, 3 quarantined; `tested` is the time of Stolon's last test, none for test age 255. -/
structure Led where
  state : Nat := 0
  owner : Nat := 0
  ownerValid : Bool := false
  health : Nat := 255
  rank : Nat := 0
  tested : Option Nat := none
  detail : Nat := 0
  deriving DecidableEq, Repr, Inhabited

/-- What a cell is used for (03 R79, R91; 04 R115): a function of a graph, the destination of a move, a pool
spare, a spare reserved for a graph, or nothing. -/
inductive CellUse where
  | free
  | fn (graph prim : Nat)
  | dest (graph prim : Nat)
  | pool
  | reserved (graph : Nat)
  deriving DecidableEq, Repr, Inhabited

/-- A cell's registers that staging changes (02 R40; 08 R212), keyed: 0-3 offset trims, 4-21 fine trims,
22-39 segment codes, 40 array A map, 41 array B map, 42 active pair. -/
abbrev CellRegs := Tbl Int

/-- The part of a calibration status record (08 R229) that the object keeps for it; its last run and the DUE and FROZEN
flags stand in the object. -/
structure CalStatus where
  lastFailed : Bool := false
  lastExternal : Bool := false
  consec : Nat := 0
  runs : Nat := 0
  applied : Nat := 0
  failed : Nat := 0
  offStep : Int := 0
  gainStep : Int := 0
  deriving DecidableEq, Repr, Inhabited

/-- What a calibration result writes when it is applied, its settings apart (08 R225): ranks and details by element, the
temperature reading that made the run due, and the steps. -/
structure CalApply where
  ranks : List (Nat × Nat)
  details : List (Nat × Int × Int)
  temp : Int
  offStep : Int
  gainStep : Int
  deriving DecidableEq, Repr, Inhabited

/-- The cells and bias code of one primitive (03 R80): 0xFFFF names no cell. `aa0`, `aa1` are the cells of an inserted
anti-alias stage (03 R78). -/
structure PlaceP where
  prim : Nat := 0
  c0 : Nat := 0xFFFF
  c1 : Nat := 0xFFFF
  aa0 : Nat := 0xFFFF
  aa1 : Nat := 0xFFFF
  bias : Nat := 0
  deriving DecidableEq, Repr, Inhabited

/-- An analogue cell (02 R30-R46). `conf` is the function configured in it, as type, mode and the seven parameter words of
its primitive (04 R102); `served` that it has had a function since reset (02 R32); `tnh` that its track-and-hold holds (04
R107). `staged` is the staged set of R40, `stagedCal` that it holds a
calibration change, `stagedSettle` the analogue settle time of the change of signal path it holds, in ticks as
(numerator, denominator) (05 R148). -/
structure Cell where
  use : CellUse := .free
  bias : Nat := 0
  conf : List Nat := []
  served : Bool := false
  tnh : Bool := false
  regs : CellRegs := []
  staged : List (Nat × Int) := []
  stagedCal : Bool := false
  stagedSettle : Option (Nat × Nat) := none
  warm : Bool := false
  lastTest : Option Nat := none
  borrowed : Bool := false
  resets : List Nat := []
  ctlReset : Bool := false
  ctlHold : Bool := false
  levelHeld : Bool := false
  isolated : Bool := false
  calTime : Option Nat := none
  calTemp : Int := 0
  due : Bool := false
  frozen : Bool := false
  status : CalStatus := {}
  calRes : Option CalApply := none
  deriving DecidableEq, Repr, Inhabited

/-- A pin of a primitive (03 R67): scope 0 region, 1 block, 2 cell; strength 1 REQUIRE. -/
structure Pin where
  scope : Nat
  num : Nat
  require : Bool
  deriving DecidableEq, Repr, Inhabited

/-- A primitive of a graph (03 R58, R59) with its cells, bias code and pin; `aaSegs` are the tracks that join its anti-alias
stage to its P0 (03 R78). -/
structure Prim where
  ty : Nat
  mode : Nat
  flags : Nat
  par : List Nat
  c0 : Nat := 0xFFFF
  c1 : Nat := 0xFFFF
  aa0 : Nat := 0xFFFF
  aa1 : Nat := 0xFFFF
  aaSegs : List Nat := []
  bias : Nat := 0
  pin : Option Pin := none
  deriving DecidableEq, Repr, Inhabited

/-- A net of a graph (03 R60, R61) with its routing segments, from the driver on. -/
structure Net where
  drvKind : Nat
  drv : Nat
  loads : List Nat
  segs : List Nat := []
  deriving DecidableEq, Repr, Inhabited

/-- A specification record (03 R64) with its achieved value, a binary32 word, and the measured or predicted value `base` that
it is computed from (03 R52, R510), found at block temperature `temp` in whole degrees. -/
structure SpecRec where
  prim : Nat
  code : Nat
  kind : Nat
  cond : Nat
  target : Nat
  freq : Nat
  hard : Bool
  base : Nat := 0
  temp : Int := 0
  achieved : Nat := 0
  deriving DecidableEq, Repr, Inhabited

/-- What a GRAPH_TUNE has staged for a primitive whose boundary has not come (03 R86): its new mode and parameters, bias code,
anti-alias stage, and the tracks of the nets that the stage changes. -/
structure Next where
  prim : Nat
  mode : Nat
  par : List Nat
  bias : Nat
  aa0 : Nat := 0xFFFF
  aa1 : Nat := 0xFFFF
  nets : List (Nat × List Nat) := []
  deriving DecidableEq, Repr, Inhabited

/-- A function graph (03 R56-R88): `phase` 1-6 while placing, 7 once placed; `outcome` as R80 codes it. `held` lists the nets
held at the boundary of a region that is being loaded, as (net, region) (13 R386). `next` holds what a GRAPH_TUNE has staged
(R86). `former` keeps the primitives, records, degrade limit and outcome from before a GRAPH_TUNE or GRAPH_PIN in progress (R82,
R86, R87). -/
structure Graph where
  phase : Nat := 1
  prims : List Prim := []
  nets : List Net := []
  specs : List SpecRec := []
  spares : Nat := 0
  spareCells : List Nat := []
  degrade : Nat := 0
  reportOnly : Bool := false
  oneRegion : Bool := false
  prefRegion : Nat := 0xFF
  userTag : Nat := 0
  reportAddr : Nat := 0
  start : Nat := 0
  placeTime : Nat := 0
  temp : Int := 0
  outcome : Nat := 0
  persona : Bool := false
  zeroMean : Bytes := []
  regions : List Nat := []
  globals : List (Nat × Nat) := []
  noRoom : Bool := false
  held : List (Nat × Nat) := []
  next : List Next := []
  former : Option (List Prim × List SpecRec × Nat × Nat) := none
  deriving DecidableEq, Repr, Inhabited

/-- Why a primitive moves (04 R96). -/
inductive MoveWhy where
  | evacuate | host | pin | tune | thermal | stolon
  deriving DecidableEq, Repr, Inhabited

/-- A planned transplant (04 R102): `step` is the step of R102 it has reached, 0 while it waits to start; `round` the
matching rounds run; `handle` the slot of the command that asked for it, `pin` the destination pin of a TRANSPLANT (12 R339);
`fix` the cells that it returns to, `took` the pool cells and reserved spares whose place vacated cells will take (04 R120); `dest` its destination, chosen when it starts (R98); `src` the cells that it has
left, once the crossover is complete; `nets` the tracks of each net
it touches, as (net, segments), held since step 1; `cold` the cells of it that are no warm spares;
`loops` the converters whose companion loops it has taken; `todo` those that
have yet to start their crossfade. -/
structure Move where
  graph : Nat
  prim : Nat
  why : MoveWhy
  dest : PlaceP := {}
  pin : Option Pin := none
  fix : Option PlaceP := none
  took : Nat × Nat := (0, 0)
  step : Nat := 0
  round : Nat := 0
  len : Nat := 16
  handle : Option Nat := none
  nets : List (Nat × List Nat) := []
  cold : List Nat := []
  loops : List Nat := []
  todo : List Nat := []
  src : PlaceP := {}
  deriving DecidableEq, Repr, Inhabited

/-- A REPAIR (04 R111): `first` the first-suspect time, `step` the step of R111 it has reached, `cold` that its destination
is no warm spare, `cmds` the CAL_RUN slots that wait for the function's next run. -/
structure Repair where
  graph : Nat
  prim : Nat
  first : Nat
  step : Nat := 2
  dest : Option PlaceP := none
  nets : List (Nat × List Nat) := []
  cold : Bool := false
  cmds : List Nat := []
  deriving DecidableEq, Repr, Inhabited

/-- A Stolon test (04 R119): the cells, the tracks and switches of its test configurations, and the modulator borrowed, whole
or for its companion loop; none while the test waits for one. `owner` is the graph whose cells were vacated for the test, with
the place they made (R120), and `took` as in a move. -/
structure Test where
  cells : List Nat
  segs : List Nat := []
  conv : Option Nat := none
  start : Nat := 0
  owner : Option (Nat × PlaceP) := none
  took : Nat × Nat := (0, 0)
  deriving DecidableEq, Repr, Inhabited

/-- A region's controller and its work (01 R19-R21; 04 R113, R118; 17 R457; 13 R384-R388). `testQ` holds the tests of vacated
cells that wait for the one in progress (04 R120, R123), `covSegs` the tracks and switches tested in the coverage period. -/
structure Region where
  ready : Bool := true
  failed : Bool := false
  fwFail : Bool := false
  dogs : List Nat := []
  restartFrom : Nat := 0
  movedOut : Nat := 0
  lastSignal : Option Nat := none
  repairs : List Repair := []
  test : Option Test := none
  testQ : List Test := []
  covStart : Nat := 0
  covTested : List Nat := []
  covSegs : List Nat := []
  covSkip : List Nat := []
  lastThermal : Option Nat := none
  poolShort : Nat := 0
  loading : Bool := false
  isolated : Bool := false
  fallow : Bool := false
  deriving DecidableEq, Repr, Inhabited

/-- A block's arbiter (17 R456; 09 R256, R266). -/
structure Block where
  quarantined : Bool := false
  recoveries : List Nat := []
  stopped : Bool := false
  deriving DecidableEq, Repr, Inhabited

/-- The Stolon policy in force (12 R351). -/
structure Policy where
  enable : Bool := true
  thermal : Bool := true
  threshold : Nat := 8
  pool : Nat := 64
  period : Nat := 600
  len : Nat := 16
  deriving DecidableEq, Repr, Inhabited

/-- Tiller, transplant and Stolon. `queue` lists graphs in phases 1-3 in acceptance order (03 R70); `ctl` the control
source codes (03 R59) that are asserted (02 R46). -/
structure Tiller where
  ledger : Tbl (Option Led) := []
  cells : Tbl Cell := []
  graphs : Tbl (Option Graph) := []
  queue : List Nat := []
  moves : List Move := []
  regions : Tbl Region := []
  blocks : Tbl Block := []
  policy : Policy := {}
  sparesCold : Bool := false
  stranded : List Repair := []
  ctl : List Nat := []
  deriving DecidableEq, Repr, Inhabited

end Sys2Proof.Machine
end

