-- ==== Sys2Proof/Machine/PartsConv.lean ====
section
/-! DEFINITION. The parts of State that converters, DAC channels and calibration own
(05_precision_conversion.md, 06_wideband_conversion.md, 07_outputs_dds.md, 08_calibration.md). -/

namespace Sys2Proof.Machine

/-- The configuration record of a converter (05 R139, 06 R168). -/
structure ConvCfg where
  mode : Nat := 0
  policy : Nat := 0
  noChop : Bool := false
  src : Nat := 0
  edge : Nat := 0
  stream : Nat := 0xFF
  delay : Nat := 0
  deriving DecidableEq, Repr, Inhabited

/-- One sequencer step (05 R141, 06 R169). -/
structure SeqStep where
  entry : Nat
  gain : Nat
  rate : Nat
  filt : Nat
  extra : Nat
  count : Nat
  deriving DecidableEq, Repr, Inhabited

/-- A system calibration set (05 R153-R155, 08 R237). -/
structure SysSet where
  conv : Nat
  entry : Nat
  gcode : Nat
  gain : Nat
  offset : Int
  owner : Nat
  stale : Bool := false
  time : Nat := 0
  inUse : Bool := true
  deriving DecidableEq, Repr, Inhabited

/-- A system calibration measurement (05 R152): `full` SYSCAL_FULL, else SYSCAL_ZERO; running until it has
`n` samples, then held. -/
structure Meas where
  entry : Nat
  full : Bool
  n : Nat
  target : Int
  slot : Nat := 0
  start : Nat := 0
  got : Nat := 0
  sum : Int := 0
  sq : Int := 0
  gcode : Nat := 0
  held : Bool := false
  deriving DecidableEq, Repr, Inhabited

/-- A crossfade running in a converter (04 R104). -/
structure Xfade where
  graph : Nat
  prim : Nat
  len : Nat
  i : Nat := 0
  entry : Nat := 16
  deriving DecidableEq, Repr, Inhabited

/-- A multiplexer tap (05 R133): the routing segment and the owning handle slot. -/
structure Tap where
  seg : Nat := 0xFFFF
  owner : Nat := 0xFFFF
  deriving DecidableEq, Repr, Inhabited

/-- A HELD interval of a repaired function (04 R112): the multiplexer entries that carry it, the first-suspect
time, and the takeover when known. -/
structure HeldIv where
  graph : Nat
  prim : Nat
  entries : List Nat
  first : Nat
  fin : Option Nat := none
  deriving DecidableEq, Repr, Inhabited

/-- A converter (05, 06). `waits` holds the CONV_CONFIG (with a record) and SEQ_LOAD (with steps) commands that wait
for an output instant, in acceptance order, each with its handle slot. `eff` are the settings in effect, none while the
converter has no output instants; `left` the samples the present step still owes, 0 where a step is about to begin;
`running` a pass runs, `begun` it has begun; `acts` the times at which accepted triggers act. `settle` counts the
SETTLING samples left; `calMarks` the samples whose next one delivered carries CALSTEP, as entry + 128 x (gain code + 1), with
entry 64 for any and no gain part for any gain; `tp` the
TRANSPLANT samples left, by entry. `markGap`, `trigGap` are a GAP owed for samples not written and for a pass abandoned. `waiting`,
`waitUntil`, `calDone` are the wait of 08 R238, `outOfOff` that a change of mode from OFF began it. `scale` is the reference
scale factor applied. `comp` is what the companion loop is used for: 0 nothing, 1 matching or crossover, 2 a blind run,
3 the external reference, 4 Stolon; `priv` are the segments that its private taps C0 and C1 read (05 R134). `hist` holds the last
samples of each entry as (instant, entry, value) for HELD. `coef` is keyed 32 x loop + gain code. -/
structure Conv where
  cfg : ConvCfg := {}
  steps : List SeqStep := []
  waits : List (Nat × Option ConvCfg × List SeqStep) := []
  cur : Nat := 0
  left : Nat := 0
  eff : Option SeqStep := none
  settle : Nat := 0
  running : Bool := false
  begun : Bool := false
  delivered : Bool := false
  pend : Bool := false
  acts : List Nat := []
  lastAcc : Option Nat := none
  markTrig : Bool := false
  markGap : Bool := false
  trigGap : Bool := false
  calMarks : List Nat := []
  tp : Tbl Nat := []
  xf : Option Xfade := none
  taps : Tbl Tap := []
  gated : Bool := false
  offSince : Nat := 0
  everDelivered : Bool := false
  waiting : Bool := false
  waitUntil : Nat := 0
  calDone : Bool := false
  outOfOff : Bool := false
  overload : Option Nat := none
  overEnd : Bool := false
  overIv : List (Nat × Nat) := []
  heldIv : List HeldIv := []
  hist : List (Nat × Nat × Nat) := []
  mainLoop : Nat := 0
  coef : Tbl (Int × Nat) := []
  newCoef : List (Nat × Int × Nat) := []
  scale : Int := 0
  comp : Nat := 0
  priv : List Nat := []
  borrowed : Bool := false
  meas : List Meas := []
  sys : List SysSet := []
  calTime : Option Nat := none
  calTemp : Int := 0
  due : Bool := false
  status : CalStatus := {}
  calRes : Option CalApply := none
  straw : Bool := false
  rephase : Bool := false
  link : List Rec := []
  deriving DecidableEq, Repr, Inhabited

/-- A DAC power-up record in force (07 R193, R194). -/
structure NvRec where
  code : Int := 0
  range : Nat := 3
  senseLocal : Bool := true
  limit : Nat := 2
  step : Nat := 1000
  rate : Nat := 100000
  period : Nat := 250
  dwell : Nat := 100
  deriving DecidableEq, Repr, Inhabited

/-- A range change in progress (07 R198, R199): `phase` 0 before its first limiter tick, 1 ramping to 0 V, 2 at 0 V with the
clamp closed since `since`, 3 ramping to its target in the new range. `fixed`: it moves at the Keep store's step and rate.
`got`: a FABRIC target has had a captured code. -/
structure RangeCh where
  phase : Nat
  range : Nat
  source : Nat
  bus : Nat
  code : Int
  since : Nat := 0
  fixed : Bool := false
  got : Bool := false
  deriving DecidableEq, Repr, Inhabited

/-- The DDS of a channel (07 R184-R188): it runs from `ref` with phase `phase` there. -/
structure Dds where
  running : Bool := false
  ftw : Nat := 0
  phase : Nat := 0
  ref : Nat := 0
  amp : Nat := 0
  offset : Int := 0
  mtch : Nat := 0
  deriving DecidableEq, Repr, Inhabited

/-- A DAC_SET, or a DAC_RANGE (`isRange`), that owes its FINAL (07 R203, R204, R208): `st` 0 it waits for its update
instant at or after `time`, 1 the limiter moves to its code, 2 a range change carries it. `r0` is its result 0. -/
structure DacCmd where
  slot : Nat
  isRange : Bool
  time : Nat
  source : Nat
  bus : Nat
  code : Int
  st : Nat := 0
  r0 : Nat := 0
  deriving DecidableEq, Repr, Inhabited

/-- A DDS_CONFIG that waits for its update instant (07 R187, R205). -/
structure DdsCmd where
  slot : Nat
  atTime : Bool
  cont : Bool
  stop : Bool
  time : Nat
  dds : Dds
  deriving DecidableEq, Repr, Inhabited

/-- A DAC channel (07): `upStep` is the step of R195. `out` is the limiter output, `conv` the code converted last, since
`heldSince`. `moving`: a move of the device's own is in force, true at `rampStep` and `rampRate`. `lastUpd`, `lastTick`,
`lastConv` are the last update instant whose targets are set, the last limiter tick made and the last conversion.
`reramp`: a tripped channel has been enabled again and its next code is ramped to (R192). -/
structure Dac where
  nv : NvRec := {}
  upStep : Nat := 1
  range : Nat := 3
  source : Nat := 0
  bus : Nat := 0
  code : Int := 0
  out : Int := 0
  target : Int := 0
  conv : Int := 0
  heldSince : Nat := 0
  moving : Option Bool := none
  rampStep : Nat := 1000
  rampRate : Nat := 100000
  rc : Option RangeCh := none
  period : Nat := 250
  slewOn : Bool := false
  step : Nat := 1000
  rate : Nat := 100000
  newSlew : List (Nat × Bool × Nat × Nat) := []
  senseLocal : Bool := true
  senseNow : Bool := true
  haltOffset : Bool := false
  haltWait : Bool := false
  limit : Nat := 2
  dwell : Nat := 100
  short : Bool := false
  shortSince : Option Int := none
  tripped : Bool := false
  reramp : Bool := false
  senseOpen : Bool := false
  ddsClip : Bool := false
  faultValue : Bool := false
  nvDefaulted : Bool := false
  dds : Dds := {}
  outs : List DacCmd := []
  ddsq : List DdsCmd := []
  clipped : Bool := false
  clamped : Bool := false
  capData : Nat := 0
  capValid : Bool := false
  busHeld : Bool := false
  lastUpd : Option Nat := none
  lastTick : Option Nat := none
  lastConv : Option Nat := none
  coef : Tbl (Int × Nat) := []
  newCoef : List (Nat × Int × Nat) := []
  scale : Int := 0
  calTime : Option Nat := none
  calTemp : Int := 0
  due : Bool := false
  readings : Nat := 0
  readLow : Int := 0
  readHigh : Int := 0
  status : CalStatus := {}
  calRes : Option CalApply := none
  deriving DecidableEq, Repr, Inhabited

/-- The calibration policy (08 R231). -/
structure CalPolicy where
  blind : Bool := true
  store : Bool := true
  trigger : Nat := 200
  offLimit : Nat := 50
  gainLimit : Nat := 200
  window : Nat := 10
  interval : Nat := 0
  deriving DecidableEq, Repr, Inhabited

/-- The declared external reference (08 R232, R234). -/
structure RefRec where
  declared : Nat := 0
  tol : Nat := 0
  atStart : Bool := false
  inRecovery : Bool := false
  valid : Bool := false
  scale : Int := 0
  time : Nat := 0
  deriving DecidableEq, Repr, Inhabited

/-- A calibration run in progress on an object (08 R219): kind 0 cell, 1 converter, 2 DAC channel. `cmds` are
the CAL_RUN slots that wait for it, `offLimit`, `gainLimit` and `window` the limits and the zero-mean window of the policy it
started under (R231). -/
structure CalRun where
  kind : Nat
  idx : Nat
  start : Nat
  temp : Int := 0
  cmds : List Nat := []
  offLimit : Nat := 50
  gainLimit : Nat := 200
  window : Nat := 10
  deriving DecidableEq, Repr, Inhabited

/-- An object due for a run (08 R218): since when, its temperature movement, the earliest time of a retry, the
CAL_RUN slots that name it, and the temperature reading that made it due. -/
structure CalDue where
  kind : Nat
  idx : Nat
  since : Nat
  move : Nat := 0
  notBefore : Nat := 0
  cmds : List Nat := []
  temp : Int := 0
  deriving DecidableEq, Repr, Inhabited

/-- The external reference procedure in progress (08 R226, R227): the CAL_REF_EXTERNAL and CAL_RUN slots that wait for it,
the regions it measures, and whether its result is stored. -/
structure RefProc where
  cmds : List Nat := []
  regions : List Nat := []
  store : Bool := false
  deriving DecidableEq, Repr, Inhabited

/-- Calibration (08). -/
structure Cal where
  policy : CalPolicy := {}
  ref : RefRec := {}
  due : List CalDue := []
  runs : List CalRun := []
  procedure : Option RefProc := none
  storeLogged : Bool := false
  lastWrite : Tbl Nat := []
  storeWait : List (Nat × Nat) := []
  deriving DecidableEq, Repr, Inhabited

/-- The Keep store (08 R233): every record as bytes at its record number; none where blank. Never changed by a
reset (14 R394). PRESUMED blank when the model begins (log 12). -/
structure Keep where
  header : Option Bytes := none
  refRec : Option Bytes := none
  policyRec : Option Bytes := none
  cells : Tbl (Option Bytes) := []
  pms : Tbl (Option Bytes) := []
  wms : Tbl (Option Bytes) := []
  dacCals : Tbl (Option Bytes) := []
  dacUps : Tbl (Option Bytes) := []
  sysSets : Tbl (Option Bytes) := []
  health : Tbl (Nat × Bool) := []
  alarm : Option Bytes := none
  checkpoint : List Bytes := []
  deriving DecidableEq, Repr, Inhabited

end Sys2Proof.Machine
end

