-- ==== Sys2Proof/Machine/PartsSys.lean ====
section
/-! DEFINITION. The parts of State that the fabric, the scratchpad, the persona loader, Husk, the pins, the
ports and the monitors own (09_fabric_memory.md, 13_personas.md, 15_husk_security.md, 16_pins_ports.md,
17_faults_log.md, 18_setup_registers.md, 19_electrical_package.md). -/

namespace Sys2Proof.Machine

/-- A read-back (09 R255-R258): `id` the READBACK's handle slot or 0x1000 for the configuration port; `start`
the capture time; `blocks` the blocks in scope; `recs` the records shifted out, by block. -/
structure Readback where
  id : Nat
  blocks : List Nat
  time : Nat
  addr : Nat
  captured : Bool := false
  absent : List Nat := []
  recs : Tbl Bytes := []
  deriving DecidableEq, Repr, Inhabited

/-- A fabric port of a scratchpad bank (09 R262): what its last request answered, and the request that waits while read-back stops
the island (R256), as operation, word, byte enables, data and what the code finds. -/
structure FabPort where
  err : Bool := false
  rdata : Nat := 0
  req : Option (Nat × Nat × Nat × Nat × Nat) := none
  deriving DecidableEq, Repr, Inhabited

/-- The fabric and the scratchpad. `spad` is the 2 MiB scratchpad, a table of bytes that reads 0 where nothing is
listed (09 R259); `scrub` lists the words that wait for their corrected write-back, as (bank, address). `frames` is the
configuration memory by frame number, an unlisted frame being all 0. `ff` and `shadow` hold a logic cell's FF0 in bit 0
and FF1 in bit 1. `latch` is the latched level of a boundary signal of an isolated region: fabric signal n at n, global
wire w at 1,024 + w (13 R385). `disabled` lists the wires whose drivers the contention checker has disabled, as
(segment, wire). `gated`: every global tree is gated; `forcedLow`: user clock enables are forced low (14 R395). -/
structure Fab where
  spad : Tbl Byte := []
  scrub : List (Nat × Nat) := []
  frames : Tbl Bytes := []
  ff : Tbl Nat := []
  shadow : Tbl Nat := []
  guarded : List Nat := []
  latch : Tbl (Option Bool) := []
  disabled : List (Nat × Nat) := []
  ports : Tbl FabPort := []
  readbacks : List Readback := []
  gated : Bool := true
  forcedLow : Bool := false
  deriving DecidableEq, Repr, Inhabited

/-- The header fields of an image that a load keeps (13 R362). -/
structure ImgHdr where
  flags : Nat := 0
  region : Nat := 0xFF
  keySource : Nat := 0
  keySlot : Nat := 0
  epochCode : Nat := 0
  stored : Nat := 0
  frames : Nat := 0
  version : Nat := 0
  keyIndex : Nat := 0
  digest : Bytes := []
  deriving DecidableEq, Repr, Inhabited

/-- A persona load in progress (13 R377, R384). `mode` 0 a slot try, 1 the BOOT_GO image, 2 PERSONA_LOAD, 3 the port's
LOAD, 4 PROGRAM_FALLBACK, which writes no frame, 5 REGION_LOAD; `slot` the command's handle slot. `stage` 0 waits for its
region's controller, 1 header passed, 2 signatures passed, 3 body being read (of a region: isolated), 6 body passed, the
region's clocks waiting, 7 failed after isolation. `begun`: the first frame has been written. `epoch` counts verified
epochs, `used` the plaintext bytes consumed by records. `sect` is the region of the present section, `secWant` and `secGot`
the frames it announced and wrote, `secBad` that an earlier section missed its count; `crcs` the CRC of each frame that a
FRAME of this section wrote; `addrs` every address written. `taken` lists the graphs that the new persona takes over,
`susp` the functions suspended, as (graph, primitive), `heldFns` counts the functions held at the boundary (R386). `key` is the key of the next epoch (R375), `plain` the verified
plaintext that no record has used, `sha` the digest of the body so far (R369). -/
structure Load where
  mode : Nat
  source : Nat
  imgSlot : Nat
  head : Bytes := []
  hdr : ImgHdr := {}
  slot : Option Nat := none
  stage : Nat := 1
  start : Nat := 0
  reason : Nat := 0
  begun : Bool := false
  epoch : Nat := 0
  used : Nat := 0
  written : Nat := 0
  records : Nat := 0
  sect : Option Nat := none
  secWant : Nat := 0
  secGot : Nat := 0
  secBad : Bool := false
  crcs : Tbl (Option Nat) := []
  addrs : List Nat := []
  taken : List Nat := []
  susp : List (Nat × Nat) := []
  heldFns : Nat := 0
  key : Bytes := []
  plain : Bytes := []
  sha : Sha := {}
  len : Nat := 33554432
  deriving DecidableEq, Repr, Inhabited

/-- The loaded persona (13 R377; 18 R488; 15 R425). -/
structure Loaded where
  valid : Bool := false
  source : Nat := 0
  slot : Nat := 0
  version : Nat := 0
  keyIndex : Nat := 0
  digest : Bytes := []
  deriving DecidableEq, Repr, Inhabited

/-- Is the Straw persona loaded (14 R403)? -/
def Loaded.straw (l : Loaded) : Bool := l.valid && decide (l.source = 2) && decide (l.slot = 1)

/-- BOOT registers and the persona loader (18 R488; 13 R358-R391; 14 R395). `loads` by target: region 0-7, or 8 for a full
image. `tryNext` is the next slot in the order of R359, `trying` that slots are tried. `doneSlot`, `doneFrames` are what the
FINAL of a PERSONA_LOAD in service waits with. `fallback` is the header and signature block that PROGRAM_FALLBACK left in
internal slot 0, `itemResult` the status of the data-area item being applied, `bannerAt` when Straw last sent its
banner. -/
structure Boot where
  slotSkip : Nat := 0
  hostFirst : Bool := false
  doneAction : Bool := false
  hostWait : Nat := 10000
  doneTimeout : Nat := 2000
  imgAddr : Nat := 0
  imgLen : Nat := 0
  qspiDummy : Nat := 4
  qspiDelay : Nat := 0
  qspiDiv : Nat := 0
  doneLate : Bool := false
  doneHigh : Bool := false
  doneDriven : Bool := true
  doneReleasedAt : Option Nat := none
  lastReason : Nat := 0
  lastSlot : Nat := 0
  hostWaiting : Bool := false
  tryNext : Nat := 0
  trying : Bool := false
  fallow : Bool := false
  loaded : Loaded := {}
  loads : Tbl (Option Load) := []
  doneSlot : Option Nat := none
  doneFrames : Nat := 0
  fallback : Option Bytes := none
  itemResult : Option Nat := none
  cfgOpen : Bool := false
  cfgResult : Nat := 0
  cfgFrames : Nat := 0
  bannerAt : Nat := 0
  deriving DecidableEq, Repr, Inhabited

/-- The alarm policy in force (15 R408, R414, R416): per sensor class, enable, active level and filter. -/
structure AlarmPolicy where
  classes : List Nat := [1, 1, 1, 0, 2, 0, 0, 0]
  enabled : List Bool := [true, true, true, true, true, false, false, true]
  activeHigh : List Bool := [false, false, false, false, false, false, false, false]
  filters : List Nat := [1, 1, 2, 1000, 2, 100, 100, 10000]
  keepLock : Nat := 1
  version : Nat := 0
  stored : Bool := false
  deriving DecidableEq, Repr, Inhabited

/-- Fuses (15 R417). PRESUMED blank at first (log 12). -/
structure Fuses where
  personaSeed : Option Bytes := none
  digests : Tbl (Option Bytes) := []
  revoked : Nat := 0
  policyLock : Bool := false
  policyDigest : Bytes := []
  debugDisable : Bool := false
  keyKill : Nat := 0
  keyKillPending : Bool := false
  deriving DecidableEq, Repr, Inhabited

/-- Husk and the key store (15). `keyCheck` holds the check values of the key RAM slots (R419). `cls` is the alarm class in effect, 7 for none (18 R490). `latched` lists the tamper events
that ISL_AON latched, as (sensor, class), and `aon` what it watches by: class and enable of sensors 5 and 6 (R410).
`capture` holds the log entries of R468 until they are written. -/
structure Husk where
  cls : Nat := 7
  halted : Bool := false
  debugLocked : Bool := false
  alarms : Nat := 0
  raised : Nat := 0
  active : Nat := 0
  policy : AlarmPolicy := {}
  latched : List (Nat × Nat) := []
  aon : List (Nat × Bool) := [(0, false), (0, false)]
  keyRam : Tbl (Option Bytes) := []
  keyCheck : Tbl (Option Nat) := []
  keyValid : Nat := 0
  workErased : Bool := false
  idErased : Bool := false
  fuses : Fuses := {}
  staged : Option Bytes := none
  flashKeys : Tbl (Option Bytes) := []
  capture : List LogEntry := []
  captureDue : Bool := false
  deriving DecidableEq, Repr, Inhabited

/-- A pin's mapping (16 R432, R433). -/
structure PinMapE where
  fn : Nat := 0
  idx : Nat := 0
  flags : Nat := 0
  deriving DecidableEq, Repr, Inhabited

/-- A user pin (16 R432-R442): `own` the mapping recorded, `mapped` that it is in force (else the pin is in its
configuration-time state), `hiz` that a bank supply fault holds it, `level` the filtered level. -/
structure PinS where
  own : Option PinMapE := none
  mapped : Bool := false
  hiz : Bool := false
  level : Bool := false
  deriving DecidableEq, Repr, Inhabited

/-- A pin bank (18 R485, R486; 16 R427, R428, R439). -/
structure Bank where
  vccio : Nat := 0
  cfgPull : Nat := 0
  fault : Bool := false
  powered : Bool := false
  measured : Nat := 0
  out : Nat := 0
  deriving DecidableEq, Repr, Inhabited

/-- A switch waiting in the pin controller (16 R441, R442): the handle slot of its PIN_MAP, if a command's; the pin; the
new mapping, none for a return to the mapping recorded; and for the last entry of a PIN_MAP the pins it names. -/
structure PinSwitch where
  slot : Option Nat
  pin : Nat
  map : Option PinMapE
  group : List Nat := []
  deriving DecidableEq, Repr, Inhabited

/-- A hard serial port (16 R445-R447). `tx` holds bytes with their qualifiers, `rx` (byte, error); `cs` is the chip
select held low, `reply` the answer to the last request. -/
structure Port where
  mode : Nat := 0
  div : Nat := 0
  addr : Nat := 0
  tx : List Nat := []
  rx : List (Nat × Bool) := []
  overrun : Bool := false
  error : Bool := false
  arbLost : Bool := false
  timeout : Bool := false
  cs : Option Nat := none
  reply : FabPort := {}
  deriving DecidableEq, Repr, Inhabited

/-- An analogue input pair's range check (17 R461). -/
structure AinPair where
  ranged : Bool := false
  onset : Nat := 0
  lastLog : Option Nat := none
  further : Nat := 0
  ivs : List (Nat × Nat) := []
  deriving DecidableEq, Repr, Inhabited

/-- A block temperature sensor (17 R462): the last fully valid reading, the previous reading that passed the
first and third tests, and the runs of invalid and valid readings. -/
structure TempSensor where
  temp : Int := 0
  prev : Option Int := none
  bad : Nat := 0
  good : Nat := 0
  failed : Bool := false
  deriving DecidableEq, Repr, Inhabited

/-- Monitors (18 R491; 17 R461-R463): supplies in the order VCORE, VCCAUX, VAP, VAN, VREF, VBAT. -/
structure Mon where
  sensors : Tbl TempSensor := []
  supplies : Tbl Int := []
  supplyBad : Nat := 0
  supplyOut : Bool := false
  supplySince : Nat := 0
  supplyIvs : List (Nat × Nat) := []
  huskTemp : Nat := 0
  pairs : Tbl AinPair := []
  deriving DecidableEq, Repr, Inhabited

/-- Pins, ports and the test access port (16; 19 R502). `bsr` is the boundary-scan register, `instr` the
test instruction loaded. -/
structure Pins where
  pins : Tbl PinS := []
  banks : Tbl Bank := []
  diff : Tbl Nat := []
  switches : List PinSwitch := []
  ports : Tbl Port := []
  tapInstr : Nat := 0x02
  bsr : List Bool := []
  deriving DecidableEq, Repr, Inhabited

end Sys2Proof.Machine
end

