-- ==== Sys2Proof/Machine/State.lean ====
section
/-! DEFINITION. The state of the LH8640 block: everything the spec gives it, plain data, and the queue of
commands that wait (INVENTORY.md, State). -/

namespace Sys2Proof.Machine

/-- The whole machine. `out` lists what the block has put on its outputs, oldest first (log 7); `freeCtr` is the
model's own counter of free values (log 15). -/
structure State where
  time : StartUp := {}
  chip : Chip := {}
  host : HostIf := {}
  clk : Clk := {}
  sheaf : Sheaf := {}
  til : Tiller := {}
  convs : Tbl Conv := []
  dacs : Tbl Dac := []
  cal : Cal := {}
  keep : Keep := {}
  fab : Fab := {}
  boot : Boot := {}
  husk : Husk := {}
  pin : Pins := {}
  mon : Mon := {}
  out : List OutMsg := []
  freeCtr : Nat := 0
  pending : List Instr := []
  deriving DecidableEq, Repr

/-- Why the machine stops. -/
inductive Fault where
  /-- raised by every meaning whose operand names a unit that the spec says does not exist (00_scope.md R4,
  R5); safe: no part of the machine answers to such a number (log 4) -/
  | noSuchUnit
  deriving DecidableEq, Repr

/-- Why the model has no meaning to give. -/
inductive Refusal where
  /-- raised by the arms of Dispatch.lean whose command has no meaning yet; safe -/
  | notModelled (mnemonic : String)
  deriving DecidableEq, Repr

/-- The machine when a power-on reset is released, step 1 of 14 R395: every field at its reset value, memory
listing nothing, the queue empty (log 10, log 12). -/
def State.reset : State := {}

end Sys2Proof.Machine
end

