-- ==== Sys2Proof/Machine/Ops.lean ====
section
/-! DEFINITION. The named operations every meaning is built of: time, counters, the log and its events, the
rings, the scratchpad, handles, and the dispatch and completion of queue commands. -/

namespace Sys2Proof.Machine

/-! ### Accessors with their default entries -/

def State.now (s : State) : Nat := s.time.timebase
def State.cq (s : State) (q : Nat) : Cq := Tbl.get {} q s.host.cqs
def State.setCq (s : State) (q : Nat) (v : Cq) : State := { s with host := { s.host with cqs := Tbl.set {} q v s.host.cqs } }
def State.ds (s : State) (n : Nat) : Ds := Tbl.get {} n s.host.dss
def State.setDs (s : State) (n : Nat) (v : Ds) : State := { s with host := { s.host with dss := Tbl.set {} n v s.host.dss } }
def State.hnd (s : State) (n : Nat) : Hnd := Tbl.get {} n s.chip.handles
def State.setHnd (s : State) (n : Nat) (v : Hnd) : State := { s with chip := { s.chip with handles := Tbl.set {} n v s.chip.handles } }
def State.conv (s : State) (c : Nat) : Conv := Tbl.get {} c s.convs
def State.setConv (s : State) (c : Nat) (v : Conv) : State := { s with convs := Tbl.set {} c v s.convs }
def State.dac (s : State) (n : Nat) : Dac := Tbl.get {} n s.dacs
def State.setDac (s : State) (n : Nat) (v : Dac) : State := { s with dacs := Tbl.set {} n v s.dacs }
def State.cell (s : State) (n : Nat) : Cell := Tbl.get {} n s.til.cells
def State.setCell (s : State) (n : Nat) (v : Cell) : State := { s with til := { s.til with cells := Tbl.set {} n v s.til.cells } }
def State.graph (s : State) (n : Nat) : Option Graph := Tbl.get none n s.til.graphs
def State.setGraph (s : State) (n : Nat) (v : Option Graph) : State := { s with til := { s.til with graphs := Tbl.set none n v s.til.graphs } }
def State.region (s : State) (r : Nat) : Region := Tbl.get {} r s.til.regions
def State.setRegion (s : State) (r : Nat) (v : Region) : State := { s with til := { s.til with regions := Tbl.set {} r v s.til.regions } }
def State.block (s : State) (b : Nat) : Block := Tbl.get {} b s.til.blocks
def State.setBlock (s : State) (b : Nat) (v : Block) : State := { s with til := { s.til with blocks := Tbl.set {} b v s.til.blocks } }
def State.gck (s : State) (g : Nat) : Gck := Tbl.get {} g s.clk.gck
def State.setGck (s : State) (g : Nat) (v : Gck) : State := { s with clk := { s.clk with gck := Tbl.set {} g v s.clk.gck } }
def State.upll (s : State) (n : Nat) : Upll := Tbl.get {} n s.clk.upll
def State.setUpll (s : State) (n : Nat) (v : Upll) : State := { s with clk := { s.clk with upll := Tbl.set {} n v s.clk.upll } }
def State.cmp (s : State) (u : Nat) : Cmp := Tbl.get {} u s.clk.cmp
def State.setCmp (s : State) (u : Nat) (v : Cmp) : State := { s with clk := { s.clk with cmp := Tbl.set {} u v s.clk.cmp } }
def State.lane (s : State) (l : Nat) : Lane := Tbl.get {} l s.clk.lanes
def State.setLane (s : State) (l : Nat) (v : Lane) : State := { s with clk := { s.clk with lanes := Tbl.set {} l v s.clk.lanes } }
def State.bank (s : State) (b : Nat) : Bank := Tbl.get {} b s.pin.banks
def State.setBank (s : State) (b : Nat) (v : Bank) : State := { s with pin := { s.pin with banks := Tbl.set {} b v s.pin.banks } }
def State.pinS (s : State) (p : Nat) : PinS := Tbl.get {} p s.pin.pins
def State.setPinS (s : State) (p : Nat) (v : PinS) : State := { s with pin := { s.pin with pins := Tbl.set {} p v s.pin.pins } }
def State.port (s : State) (k : Nat) : Port := Tbl.get {} k s.pin.ports
def State.setPort (s : State) (k : Nat) (v : Port) : State := { s with pin := { s.pin with ports := Tbl.set {} k v s.pin.ports } }
def State.pair (s : State) (p : Nat) : AinPair := Tbl.get {} p s.mon.pairs
def State.setPair (s : State) (p : Nat) (v : AinPair) : State := { s with mon := { s.mon with pairs := Tbl.set {} p v s.mon.pairs } }
def State.sensor (s : State) (n : Nat) : TempSensor := Tbl.get {} n s.mon.sensors
def State.setSensor (s : State) (n : Nat) (v : TempSensor) : State := { s with mon := { s.mon with sensors := Tbl.set {} n v s.mon.sensors } }
def State.load (s : State) (w : Nat) : Option Load := Tbl.get none w s.boot.loads
def State.setLoad (s : State) (w : Nat) (v : Option Load) : State := { s with boot := { s.boot with loads := Tbl.set none w v s.boot.loads } }
def State.msix (s : State) (v : Nat) : Msix := Tbl.get {} v s.host.msix
def State.setMsix (s : State) (v : Nat) (e : Msix) : State := { s with host := { s.host with msix := Tbl.set {} v e s.host.msix } }

/-- Does a number of a converter field name no converter (00_scope.md R5)? -/
def noConverter (c : Nat) : Bool := decide (192 ≤ c) && decide (c < 256)

/-- Region of a converter number (00_scope.md R4, R5). -/
def convRegion (c : Nat) : Nat := if c < 64 then c / 8 else (c - 64) / 16

/-! ### Time -/

/-- The timebase reaches tick `t` (10 R272): it never runs backwards and stands still until it has started. -/
def State.at (s : State) (t : Nat) : State :=
  if s.time.running && decide (s.time.timebase < t) && decide (t < 2 ^ 64) then
    { s with time := { s.time with timebase := t } }
  else s

/-- One tick of the 250 MHz timebase with no command (10 R272): the timebase counts once it has started, modulo
2^64. DESIGN CHOICE (log 1): everything else that happens in time has a row of its own. -/
def State.tick (s : State) : State :=
  if s.time.running then { s with time := { s.time with timebase := (s.time.timebase + 1) % 2 ^ 64 } } else s

/-- Put something on an output (log 7). -/
def State.emit (s : State) (m : OutMsg) : State := { s with out := s.out ++ [m] }

/-- A fresh free value (log 15). -/
def State.fresh (s : State) : Nat × State := (Config.freeValue s.freeCtr, { s with freeCtr := s.freeCtr + 1 })

/-! ### Scratchpad and local-ring mode -/

/-- The word-aligned ring area of SPI local-ring mode (18 R492): first address and length. -/
def State.area (s : State) : Nat × Nat := (0x1F8000 + 4096 * s.host.areaStart, 4096 * s.host.areaPages)

/-- Do `n` bytes at `a` lie in the ring area (11 R324)? -/
def State.inArea (s : State) (a n : Nat) : Bool := decide (s.area.1 ≤ a) && decide (a + n ≤ s.area.1 + s.area.2)

/-- Read scratchpad bytes (09 R259). -/
def State.spRead (s : State) (a n : Nat) : Bytes := Tbl.getRun 0 a n s.fab.spad

/-- Write scratchpad bytes. -/
def State.spWrite (s : State) (a : Nat) (b : Bytes) : State :=
  { s with fab := { s.fab with spad := Tbl.setRun 0 a b s.fab.spad } }

/-- May the block use `n` bytes at `a` as a buffer (12 R326, 11 R324)? -/
def State.bufOk (s : State) (a n : Nat) : Bool := !s.time.localMode || s.inArea a n

/-- Write to the host's memory: a posted write, or in local-ring mode the ring area (11 R324). -/
def State.hostWrite (s : State) (a : Nat) (b : Bytes) : State :=
  if b.isEmpty then s
  else if s.time.localMode then (if s.inArea a b.length then s.spWrite a b else s)
  else s.emit (.mem a b)

/-- What the block reads from a buffer: the operand, or in local-ring mode the ring area itself (log 8). -/
def State.hostRead (s : State) (a n : Nat) (operand : Bytes) : Bytes :=
  if s.time.localMode then s.spRead a n else slice operand 0 n

/-! ### Interrupts -/

/-- A vector becomes pending (11 R321). -/
def State.raiseVec (s : State) (v : Nat) : State :=
  if s.host.pendVec.contains v then s
  else { s with host := { s.host with pendVec := s.host.pendVec ++ [v] } }

/-- The pending mask as a 64-bit number (18 R492). -/
def State.pendMask (s : State) : Nat := (s.host.pendVec.map fun v => 2 ^ v).sum

/-! ### Counters (10 R286, R287) -/

def uRg (r : Nat) : Nat := 1 + r
def uBk (b : Nat) : Nat := 9 + b
def uGck (g : Nat) : Nat := 73 + g
def uConv (c : Nat) : Nat := 81 + c
def uDac (n : Nat) : Nat := 273 + n
def uCq (q : Nat) : Nat := 337 + q
def uDs (n : Nat) : Nat := 353 + n

/-- How many counters a unit holds, and the first of its error counters (10 R287). -/
def unitSlots (u : Nat) : Nat × Nat :=
  if u = 0 then (10, 4) else if u < 9 then (10, 5) else if u < 73 then (8, 3) else if u < 81 then (1, 0)
  else if u < 273 then (10, 5) else if u < 337 then (6, 1) else if u < 353 then (3, 1) else if u < 417 then (3, 3)
  else (0, 0)

/-- Is slot `k` of unit `u` an error counter? -/
def isErrCtr (u k : Nat) : Bool := decide ((unitSlots u).2 ≤ k)

def State.ctr (s : State) (u k : Nat) : Ctr := Tbl.get {} (16 * u + k) s.chip.counters
def State.setCtr (s : State) (u k : Nat) (v : Ctr) : State :=
  { s with chip := { s.chip with counters := Tbl.set {} (16 * u + k) v s.chip.counters } }

/-- A counter after `n` more events (10 R286). -/
def Ctr.add (err : Bool) (n : Nat) (c : Ctr) : Ctr :=
  if err then { val := min (c.val + n) 0xFFFF, flag := c.flag || (decide (0 < n) && decide (0xFFFF ≤ c.val + n)) }
  else { val := (c.val + n) % 2 ^ 48, flag := c.flag || decide (2 ^ 48 ≤ c.val + n) }

/-- Count `n` events; says whether a statistics counter wrapped. -/
def State.bumpRaw (s : State) (u k n : Nat) : State × Bool :=
  let c := s.ctr u k
  (s.setCtr u k (c.add (isErrCtr u k) n), !isErrCtr u k && decide (2 ^ 48 ≤ c.val + n))

/-! ### The log and the management event ring (17 R464-R469, 11 R316, R317) -/

/-- The events that are also raised on the management event ring (17 R469). -/
def raisedCodes : List Nat :=
  [0x100, 0x101, 0x102, 0x103, 0x104, 0x105, 0x107, 0x201, 0x206, 0x207, 0x208, 0x209, 0x20E, 0x210, 0x211,
   0x213, 0x304, 0x401, 0x402, 0x404, 0x405, 0x505, 0x507, 0x508, 0x600, 0x601, 0x604, 0x70C, 0x70F, 0x800,
   0x804, 0x900]

/-- A log entry's first 28 bytes (17 R465). -/
def LogEntry.body (e : LogEntry) : Bytes :=
  toLE 8 e.ts ++ toLE 2 e.code ++ toLE 1 e.level ++ toLE 1 (b2n e.raised + 2 * b2n e.afterLoss) ++ toLE 4 e.idx ++
  toLE 8 e.a0 ++ toLE 4 e.a1

/-- A log entry as the host reads it, with its CRC (17 R465). -/
def LogEntry.bytes (e : LogEntry) : Bytes := e.body ++ toLE 4 (crc32c e.body)

/-- Space left in the management event ring (11 R291). -/
def Me.full (m : Me) : Bool := decide ((m.tail + 1) % 2 ^ m.size = m.head)

/-- Write one management event entry (11 R316, 17 R467). -/
def State.meWrite (s : State) (e : LogEntry) : State :=
  let m := s.host.me
  let b := toLE 8 e.ts ++ toLE 2 e.code ++ toLE 1 e.level ++ toLE 1 (b2n m.overflow + 128 * b2n m.phase) ++
    toLE 4 e.idx ++ toLE 8 e.a0 ++ toLE 8 e.a1
  let s1 := s.hostWrite (m.base + 32 * m.tail) b
  let tail := (m.tail + 1) % 2 ^ m.size
  let s2 : State := { s1 with host := { s1.host with me := { m with tail := tail, phase := if tail = 0 then !m.phase else m.phase, overflow := false } } }
  s2.raiseVec m.vector

/-- Raise a management event (11 R317, 18 R479). -/
def State.meRaise (s : State) (e : LogEntry) : State :=
  let m := s.host.me
  if !m.enable then s
  else if m.held.isEmpty && !m.full then s.meWrite e
  else if m.held.length < 64 then { s with host := { s.host with me := { m with held := m.held ++ [e] } } }
  else { s with host := { s.host with me := { m with overflow := true } } }

/-- A COUNTER_WRAP entry (10 R286, 17 R469). -/
def wrapEntry (ts u k : Nat) : LogEntry :=
  { ts := ts, code := 0x107, level := 4, idx := u, a0 := k, a1 := 0, raised := true, afterLoss := false }

/-- Put an entry into the ring of 8,192 (17 R464). -/
def State.logPush (s : State) (e : LogEntry) : State :=
  let c := s.chip
  if c.log.length < 8192 then
    { s with chip := { c with log := c.log ++ [{ e with afterLoss := c.afterLoss }], afterLoss := false } }
  else if c.drained = 0 then
    let s1 := (s.bumpRaw 0 5 1).1
    { s1 with chip := { s1.chip with log := c.log.tail ++ [{ e with afterLoss := true }], afterLoss := false, lostUndrained := c.lostUndrained + 1 } }
  else
    { s with chip := { c with log := c.log.tail ++ [{ e with afterLoss := c.afterLoss }], afterLoss := false, drained := c.drained - 1 } }

/-- Write one entry to the log, count it, and raise it where it has EVENT_RAISED; answers the entries that
wrapped counters call for. -/
def State.logWrite (s : State) (e : LogEntry) : State × List LogEntry :=
  let s1 := s.logPush e
  let r2 := s1.bumpRaw 0 2 1
  let w2 := if r2.2 then [wrapEntry e.ts 0 2] else []
  if e.raised then
    let r3 := (r2.1.meRaise e).bumpRaw 0 3 1
    (r3.1, w2 ++ (if r3.2 then [wrapEntry e.ts 0 3] else []))
  else (r2.1, w2)

/-- Write entries, with those that wrapped counters add; two counters can wrap, so `fuel` 8 is never short. -/
def State.logAll : Nat → List LogEntry → State → State
  | 0, _, s => s
  | _, [], s => s
  | n + 1, e :: es, s => let r := s.logWrite e; State.logAll n (es ++ r.2) r.1

/-- An entry arises (17 R464, R467): held during a management core restart, dropped once the core has failed
(17 R458). -/
def State.logEntry (s : State) (e : LogEntry) : State :=
  if s.chip.failed then s
  else if s.chip.restarting then
    if s.chip.heldLog.length < 256 then { s with chip := { s.chip with heldLog := s.chip.heldLog ++ [e] } }
    else
      let s1 := (s.bumpRaw 0 5 1).1
      { s1 with chip := { s1.chip with afterLoss := true } }
  else State.logAll 8 [e] s

/-- Log an event of R469 now. -/
def State.log (s : State) (code level idx a0 a1 : Nat) : State :=
  s.logEntry { ts := s.now, code := code, level := level, idx := idx, a0 := a0 % 2 ^ 64, a1 := a1 % 2 ^ 32,
               raised := raisedCodes.contains code, afterLoss := false }

/-- Count `n` events on a counter, raising COUNTER_WRAP at a wrap (10 R286). -/
def State.bumpN (s : State) (u k n : Nat) : State :=
  let r := s.bumpRaw u k n
  if r.2 then r.1.log 0x107 4 u k 0 else r.1

/-- Count one event. -/
def State.bump (s : State) (u k : Nat) : State := s.bumpN u k 1

/-! ### Completion rings (11 R291, R296-R302) -/

/-- Free entries of a completion ring (11 R291). -/
def Cq.free (c : Cq) : Nat := 2 ^ c.cqSize - 1 - (c.cqTail + 2 ^ c.cqSize - c.cqHead) % 2 ^ c.cqSize

/-- Post one completion entry on queue `q` (11 R296). -/
def State.post (s : State) (q tag handle kind status r0 r1 : Nat) (irq : Bool) : State :=
  let c := s.cq q
  let b := toLE 4 tag ++ toLE 2 handle ++ toLE 1 kind ++ toLE 1 status ++ toLE 8 r0 ++ toLE 8 r1 ++
    toLE 4 s.now ++ toLE 1 q ++ [0] ++ toLE 2 (c.sqHead + 0x8000 * b2n c.phase)
  let s1 := s.hostWrite (c.cqBase + 32 * c.cqTail) b
  let tail := (c.cqTail + 1) % 2 ^ c.cqSize
  let s2 := s1.setCq q { c with cqTail := tail, phase := if tail = 0 then !c.phase else c.phase }
  if irq then s2.raiseVec c.vector else s2

/-- Status codes (11 R297). -/
def stOK : Nat := 0x00
def stACCEPTED : Nat := 0x01
def stBAD_OPCODE : Nat := 0x10
def stBAD_ARG : Nat := 0x11
def stRANGE : Nat := 0x12
def stBAD_HANDLE : Nat := 0x13
def stNO_RESOURCE : Nat := 0x20
def stSPEC_UNMET : Nat := 0x21
def stDEGRADED : Nat := 0x22
def stTIMEOUT : Nat := 0x30
def stABORTED : Nat := 0x31
def stYIELDED : Nat := 0x32
def stAUTH_FAIL : Nat := 0x40
def stLOCKED : Nat := 0x41
def stFAULT : Nat := 0x50
def stALARM : Nat := 0x51
def stBUSY : Nat := 0x60

/-! ### Handles (11 R303-R306) -/

/-- The handle of a slot as it stands (00_scope.md R7). -/
def Hnd.value (h : Hnd) (slot : Nat) : Nat := h.gen * 4096 + slot

/-- The next generation of a slot (00_scope.md R7). -/
def nextGen (slot g : Nat) : Nat := let n := (g + 1) % 16; if slot = 0xFFF ∧ n = 15 then 0 else n

/-- Release a slot: it joins the tail of the free list (11 R303). -/
def State.release (s : State) (slot : Nat) : State :=
  let s1 := s.setHnd slot { gen := (s.hnd slot).gen }
  { s1 with chip := { s1.chip with freeSlots := s1.chip.freeSlots ++ [slot] } }

/-- Does a handle value name a present handle (11 R305)? -/
def State.names (s : State) (v : Nat) : Bool :=
  let h := s.hnd (v % 4096)
  decide (h.st ≠ 0) && decide (h.gen = v / 4096)

/-- Is an object of kind `k` named (11 R304)? -/
def State.namesObj (s : State) (v k : Nat) : Bool :=
  s.names v && decide ((s.hnd (v % 4096)).st = 2) && decide ((s.hnd (v % 4096)).kind = k)

/-- The queue forgets a command that has its FINAL (11 R300; 18 R479). -/
def Cq.ended (c : Cq) (slot : Nat) : Cq :=
  let owed := c.owed - 1
  let off := c.draining && decide (owed = 0)
  { c with owed := owed, fence := if c.fence = some slot then none else c.fence,
           draining := c.draining && !off, enable := c.enable && !off }

/-- The FINAL entry of an in-flight command (11 R299), after which its slot is an object of kind `obj`, or is
released where `obj` is 0. -/
def State.final1 (s : State) (slot obj status r0 r1 : Nat) : State :=
  let h := s.hnd slot
  let s1 := if h.discard then s
    else s.post h.queue h.tag (h.value slot) 2 status (r0 % 2 ^ 64) (r1 % 2 ^ 64) (bit h.flags 1)
  let s2 := if h.discard then s1 else s1.setCq h.queue ((s1.cq h.queue).ended slot)
  if obj = 0 ∨ h.discard then s2.release slot
  else s2.setHnd slot { h with st := 2, kind := obj, work := .none }

/-- The slots whose ABORT waits for `slot` (11 R306), in acceptance order. -/
def State.abortWaiters (s : State) (slot : Nat) : List Nat :=
  (sortBy (fun a b => decide (a.2.acc ≤ b.2.acc))
    (s.chip.handles.filter fun e => decide (e.2.st = 1) && decide (e.2.work = .abort slot))).map (·.1)

/-- The FINALs of the ABORTs that wait for `slot`, and of those that wait for these in turn; no chain is longer than the
handle slots. -/
def State.finalWaiters : Nat → Nat → Nat → State → State
  | 0, _, _, s => s
  | f + 1, slot, status, s =>
    (s.abortWaiters slot).foldl (fun s w => State.finalWaiters f w stOK (s.final1 w 0 stOK status 0)) s

/-- A system calibration measurement or commit that ends without OK is counted by its converter (05 R147; 06 R170). -/
def State.countSysFail (s : State) (slot status : Nat) : State :=
  let h := s.hnd slot
  if [0x0203, 0x0204, 0x0205].contains h.opcode ∧ status ≠ stOK then s.bump (uConv (byteAt h.args 0)) 9 else s

/-- End an in-flight command (11 R299, R306): its FINAL, then the FINAL of every ABORT that named it. During a
management core restart the FINAL waits for its end (01 R22, R23); a failed core writes none (17 R458). Slot 4,096 stands
for a data-area item (13 R373). -/
def State.finalObj (s : State) (slot obj status r0 r1 : Nat) : State :=
  if slot = 4096 then { s with boot := { s.boot with itemResult := some status } }
  else if (s.hnd slot).st ≠ 1 ∨ s.chip.failed then s
  else
    let s1 := s.countSysFail slot status
    if s1.chip.restarting then
      { s1 with chip := { s1.chip with heldFinals := s1.chip.heldFinals ++ [(slot, obj * 256 + status, r0, r1)] } }
    else State.finalWaiters 4096 slot status (s1.final1 slot obj status r0 r1)

/-- End an in-flight command that leaves no object. -/
def State.final (s : State) (slot status r0 r1 : Nat) : State := s.finalObj slot 0 status r0 r1

/-- What remains of the command in `slot`. -/
def State.setWork (s : State) (slot : Nat) (w : Work) : State := if slot < 4096 then s.setHnd slot { s.hnd slot with work := w } else s

/-- A PROGRESS entry (11 R299, R300): with PROGRESS set, at most one per 10 ms, and only while more than
r + 2 entries are free. The fraction done is a value the spec does not state (log 15). -/
def State.progress (s : State) (slot r1 : Nat) : State :=
  let h := s.hnd slot
  let c := s.cq h.queue
  let soon : Bool := match h.lastProgress with | none => false | some p => decide (s.now < p + 2500000)
  if h.st ≠ 1 ∨ !bit h.flags 2 ∨ h.discard ∨ soon = true ∨ s.chip.restarting ∨ s.chip.failed ∨ c.free ≤ c.owed + 2 then s
  else
    let f := s.fresh
    (f.2.setHnd slot { h with lastProgress := some s.now }).post h.queue h.tag (h.value slot) 3 stACCEPTED
      (f.1 % 65536) r1 (bit h.flags 1)

/-! ### Dispatch of a queue command (11 R293-R305, 12 R326-R332) -/

/-- The opcodes and their argument lengths (12 R333). -/
def opcodes : List (Nat × Nat) :=
  [(0x0001, 8), (0x0002, 16), (0x0100, 32), (0x0101, 8), (0x0102, 32), (0x0103, 16), (0x0104, 16), (0x0105, 16),
   (0x0200, 16), (0x0201, 16), (0x0202, 24), (0x0203, 16), (0x0204, 16), (0x0205, 8), (0x0300, 16), (0x0301, 24),
   (0x0302, 40), (0x0303, 32), (0x0304, 16), (0x0400, 16), (0x0401, 48), (0x0402, 16), (0x0500, 32), (0x0501, 8),
   (0x0600, 16), (0x0601, 16), (0x0602, 32), (0x0700, 16), (0x0701, 16), (0x0702, 16), (0x0800, 48), (0x0801, 16),
   (0x0802, 16), (0x0900, 16), (0x0901, 8), (0x0A00, 16), (0x0A01, 16), (0x0A02, 16), (0x0F00, 8)]

def argLen (op : Nat) : Nat := ((opcodes.find? fun e => e.1 == op).map (·.2)).getD 0

/-- The commands served during a load and during start-up (12 R332). -/
def servedInLoad : List Nat := [0x0001, 0x0002, 0x0105, 0x0700, 0x0701, 0x0800, 0x0F00]

/-- The commands that complete with LOCKED under a halt (12 R330). -/
def lockedOps : List Nat :=
  [0x0100, 0x0102, 0x0103, 0x0104, 0x0200, 0x0201, 0x0202, 0x0203, 0x0204, 0x0205, 0x0300, 0x0301, 0x0302, 0x0304,
   0x0500, 0x0600, 0x0601, 0x0602, 0x0900, 0x0901, 0x0A00, 0x0A01, 0x0A02, 0x0801]

/-- The descriptor the block fetches: the operand, or in local-ring mode the one in the ring (11 R324, log 8). -/
def State.fetched (s : State) (d : Desc) : Desc :=
  if s.time.localMode then
    let c := s.cq d.queue
    let b := s.spRead (c.sqBase + 64 * c.sqHead) 64
    let op := fld b 0 2
    { d with opcode := op, flags := fld b 2 2, tag := fld b 4 4, argAddr := fld b 8 8, inl := slice b 16 48,
             args := s.spRead (fld b 8 8) (argLen op) }
  else d

/-- Are BAR0 and BAR2 usable: step 4 of start-up is complete, or it stays there after a failed self-test (14 R395,
R397)? -/
def State.hostUp (s : State) : Bool := decide (5 ≤ s.time.step) || s.time.selftestFail

/-- Commands in flight. -/
def State.inFlight (s : State) : List (Nat × Hnd) := s.chip.handles.filter fun e => decide (e.2.st = 1)

/-- May queue `d.queue` dispatch this descriptor now (11 R295, R300, R301; 12 R332; 18 R479; 01 R22;
17 R458)? -/
def State.mayDispatch (s : State) (d : Desc) : Bool :=
  let c := s.cq d.queue
  s.hostUp && !s.chip.restarting && !s.chip.failed && c.enable && !c.draining && !c.stalled &&
  decide (c.sqHead ≠ c.sqTail) && decide (c.owed + 2 ≤ c.free) && c.fence.isNone &&
  (!bit d.flags 0 || decide (c.owed = 0)) && (decide (d.opcode ≠ 0x0600) || s.inFlight.isEmpty)

/-- The first offending byte of a descriptor (11 R293, R294; 00 R10). -/
def State.descBad (s : State) (d : Desc) (alen : Nat) : Option Nat :=
  if bits d.flags 4 4 ≠ 0 then some 2
  else if d.flags / 256 ≠ 0 then some 3
  else if bit d.flags 3 then
    if 48 < alen then some 2
    else match firstBad (toLE 8 d.argAddr) (rsv 0 8) with
      | some o => some (8 + o)
      | none => (firstBad d.inl (rsv alen (48 - alen))).map (16 + ·)
  else if d.argAddr = 0 ∨ d.argAddr % 8 ≠ 0 ∨ !s.bufOk d.argAddr alen then some 8
  else (firstBad d.inl (rsv 0 48)).map (16 + ·)

/-- The argument record (11 R294). -/
def descRecord (d : Desc) (alen : Nat) : Bytes := if bit d.flags 3 then slice d.inl 0 alen else slice d.args 0 alen

/-- Is every command but those of R332 refused with BUSY (12 R332, 14 R397, R398, 13 R359)? -/
def State.busyFor (s : State) (op : Nat) (a : Bytes) : Bool :=
  if s.time.selftestFail then !([0x0001, 0x0002, 0x0701].contains op)
  else if (s.load 8).any (fun l => decide (2 ≤ l.mode ∧ l.mode ≤ 3)) ∨ s.inFlight.any (fun e => e.2.opcode == 0x0600) then !(servedInLoad.contains op)
  else if s.time.done then false
  else if servedInLoad.contains op then false
  else !(decide (op = 0x0600) && s.boot.fallow && decide (6 ≤ s.boot.tryNext) && decide (byteAt a 0 = 0))

/-- A REJECTED entry (11 R297, R298, R302). -/
def State.reject (s : State) (d : Desc) (status r0 : Nat) : State :=
  (s.bump (uCq d.queue) 1).post d.queue d.tag 0xFFFF 4 status r0 0 true

/-- An ACCEPTED entry with the handle of the first free slot (11 R299, R303). -/
def State.accept (s : State) (d : Desc) (a : Bytes) (slot : Nat) : State :=
  let g := nextGen slot (s.hnd slot).gen
  let h : Hnd := { st := 1, gen := g, opcode := d.opcode, queue := d.queue, tag := d.tag, flags := d.flags,
                   acc := s.chip.accSeq, args := a }
  let s1 := s.setHnd slot h
  let s2 : State := { s1 with chip := { s1.chip with freeSlots := s1.chip.freeSlots.tail, accSeq := s1.chip.accSeq + 1 } }
  let c := s2.cq d.queue
  let s3 := s2.setCq d.queue { c with owed := c.owed + 1, fence := if bit d.flags 0 then some slot else c.fence }
  ((s3.bump 0 0).bump (uCq d.queue) 0).post d.queue d.tag (h.value slot) 1 stACCEPTED 0 0 (bit d.flags 1)

/-- Dispatch a queue command: its ACCEPTED or REJECTED entry. `bad` is the first offending byte of the record
(00 R10), `pre` a further rejection. Where the command is accepted and is not LOCKED (12 R330), answers its slot and
record. The checks run in this order: opcode, descriptor, record, BUSY of start-up and loads, `pre`, free
slots (log 16). A row whose descriptor is not the one named has no effect (log 3). -/
def State.dispatch (s0 : State) (op : Nat) (d0 : Desc) (bad : Bytes → Option Nat) (pre : State → Bytes → Option Nat) :
    State × Option (Nat × Bytes) :=
  let s := s0.at d0.t
  let d := s.fetched d0
  let known := opcodes.any fun e => e.1 == d.opcode
  if !s.mayDispatch d ∨ (d.opcode ≠ op ∧ known) then (s, none)
  else
    let c := s.cq d.queue
    let s1 := s.setCq d.queue { c with sqHead := (c.sqHead + 1) % 2 ^ c.sqSize }
    if !known then (s1.reject d stBAD_OPCODE 0, none)
    else
      let alen := argLen op
      let a := descRecord d alen
      match s1.descBad d alen with
      | some o => (s1.reject d stBAD_ARG (o + 65536), none)
      | none =>
        match bad a with
        | some o => (s1.reject d stBAD_ARG o, none)
        | none =>
          if s1.busyFor op a then (s1.reject d stBUSY 0, none)
          else match pre s1 a with
            | some st => (s1.reject d st 0, none)
            | none =>
              match s1.chip.freeSlots with
              | [] => (s1.reject d stBUSY 0, none)
              | slot :: _ =>
                let s2 := s1.accept d a slot
                if s2.husk.halted && lockedOps.contains op then (s2.final slot stLOCKED 0 0, none)
                else (s2, some (slot, a))

/-- A queue command: dispatch, then its body on the slot and record. -/
def State.command (s : State) (op : Nat) (d : Desc) (bad : Bytes → Option Nat) (pre : State → Bytes → Option Nat)
    (body : Nat → Bytes → State → State) : State :=
  match s.dispatch op d bad pre with
  | (s', none) => s'
  | (s', some (slot, a)) => body slot a s'

/-- A body that needs region controller `r` (12 R329, 17 R457): FAULT once the region has failed, a wait while
its controller restarts, else the body. -/
def State.onRegion (s : State) (r slot : Nat) (cmd : Instr) (body : State → State) : State :=
  if (s.region r).failed then s.final slot stFAULT 0 0
  else if (s.region r).ready then body s
  else s.setWork slot (.region r cmd)

/-- A body that needs the controllers of several regions (12 R329, 17 R457). -/
def State.onRegions (s : State) (rs : List Nat) (slot : Nat) (cmd : Instr) (body : State → State) : State :=
  if rs.any fun r => (s.region r).failed then s.final slot stFAULT 0 0
  else match rs.find? fun r => !(s.region r).ready with
    | some r => s.setWork slot (.region r cmd)
    | none => body s

/-- A number is a queue's; else the row names a unit that does not exist (log 4). -/
def queueCmd (d : Desc) (s : State) (f : State → State) : Host.Outcome State Fault Refusal :=
  if d.queue < 16 then .next (f s) else .fault .noSuchUnit

/-- A row that names a unit by number. -/
def ifUnit (ok : Bool) (s : State) : Host.Outcome State Fault Refusal := if ok then .next s else .fault .noSuchUnit

end Sys2Proof.Machine
end

