-- ==== Sys2Proof/Machine/Frames.lean ====
section
/-! DEFINITION. What the configuration memory says: frames, logic cells, source codes, fabric wires and their drivers,
guarded cells (09_fabric_memory.md R239-R252; 13_personas.md R370-R372). -/

namespace Sys2Proof.Machine

/-! ### Frames (13 R370) -/

/-- The 256 bytes of a frame. -/
def State.frame (s : State) (f : Nat) : Bytes := slice (Tbl.get [] f s.fab.frames) 0 256

/-- Write a frame; one of zeros is not listed. -/
def State.setFrame (s : State) (f : Nat) (b : Bytes) : State :=
  { s with fab := { s.fab with frames := Tbl.set [] f (if b.all fun x => x == 0 then [] else slice b 0 256) s.fab.frames } }

/-- The frame of region frame `k` of region `r`. -/
def regionFrame (r k : Nat) : Nat := 12288 * r + 10240 + k

/-- The frame of a logic cell LCn, and of frame-in-block `k` of a block. -/
def blockFrame (b k : Nat) : Nat := 12288 * (b / 8) + 1280 * (b % 8) + k
def lcFrame (n : Nat) : Nat := blockFrame (n / 512) (n % 512)

/-- Is a frame one of the scratchpad's (13 R370)? Its first byte address in the scratchpad. -/
def spadFrame (f : Nat) : Option Nat :=
  let g := f % 12288
  let k := g % 1280
  if g < 10240 ∧ 1024 ≤ k ∧ k < 1152 then some (32768 * (8 * (f / 12288) + g / 1280) + 256 * (k - 1024)) else none

/-! ### Logic cells (13 R371; 09 R239-R241) -/

def State.lcUsed (s : State) (n : Nat) : Bool := !(Tbl.get [] (lcFrame n) s.fab.frames).isEmpty
/-- The clock tree of a cell's flip-flops. -/
def State.lcTree (s : State) (n : Nat) : Nat := byteAt (s.frame (lcFrame n)) 10 % 8
/-- Initial values of FF0 and FF1, in bits 0 and 1. -/
def State.lcInit (s : State) (n : Nat) : Nat := byteAt (s.frame (lcFrame n)) 11 % 4
/-- Reset values of FF0 and FF1. -/
def State.lcResetVal (s : State) (n : Nat) : Nat := byteAt (s.frame (lcFrame n)) 11 / 4 % 4
/-- Does a cell take its reset from global tree `g`, in ASYNC mode where `async` (09 R241, R250)? -/
def State.lcResetBy (s : State) (n g : Nat) : Bool :=
  let b := s.frame (lcFrame n)
  bit (byteAt b 10) 4 && decide (fld b 26 2 = g)
def State.lcAsync (s : State) (n : Nat) : Bool := !bit (byteAt (s.frame (lcFrame n)) 10) 3
/-- Does the persona mark a cell guarded (09 R252)? -/
def State.lcMarked (s : State) (n : Nat) : Bool := bit (byteAt (s.frame (lcFrame n)) 8) 4

/-- The logic cells of a region whose frames are not all 0, in order. -/
def State.lcsOf (s : State) (r : Nat) : List Nat :=
  (s.fab.frames.filter fun e => decide (e.1 / 12288 = r) && decide (e.1 % 12288 < 10240) && decide (e.1 % 12288 % 1280 < 512)).map fun e =>
    4096 * r + 512 * (e.1 % 12288 / 1280) + e.1 % 12288 % 1280

/-! ### Source codes (13 R372; 16 R444) -/

/-- What a source code names. -/
inductive Src where
  | lc (n out : Nat)
  | cluster (k w : Nat)
  | global (k w : Nat)
  | hard (code : Nat)
  | none
  deriving DecidableEq, Repr

/-- Is a hard-block output code listed for a region (16 R444)? -/
def hardListed (r code : Nat) : Bool :=
  (decide (0xAA00 ≤ code) && decide (code < 0xAA00 + 192)) || (decide (0xAB00 ≤ code) && decide (code < 0xAC00)) ||
  (decide (0xAC00 ≤ code) && decide (code ≤ 0xAC12) && decide (r < 6)) || (decide (0xAD00 ≤ code) && decide (code ≤ 0xAD44))

/-- The source that a code names within region `r`; none for 0xFFFF and for a code that names nothing. Wires are given by
their group's segment number. -/
def srcOf (r code : Nat) : Src :=
  if code < 0x5000 then .lc (4096 * r + code / 5) (code % 5)
  else if code < 0x7400 then .cluster (38208 + 1152 * r + (code - 0x5000) / 8) ((code - 0x5000) % 8)
  else if code < 0xAA00 then .global (47424 + (code - 0x7400) / 8) ((code - 0x7400) % 8)
  else if hardListed r code then .hard code
  else .none

/-! ### Fabric wires (09 R243, R244) -/

/-- The frame that holds the drivers of cluster or global group `k`, and its home region. -/
def groupHome (k : Nat) : Nat := if k < 47424 then (k - 38208) / 1152 else (k - 47424) / 216
def groupFrame (k : Nat) : Nat :=
  let r := groupHome k
  if k < 47424 then regionFrame r ((k - 38208) % 1152) else regionFrame r (1152 + (k - 47424) % 216)

/-- The region in which the code of driver `d` of group `k` is read (13 R370). -/
def driverRegion (k d : Nat) : Nat := if k < 47424 then groupHome k else d

/-- The enabled drivers of wire `w` of cluster or global group `k`, as (driver, code): none where its frame has not been
written (log 22) or where the checker has acted (09 R253). -/
def State.drivers (s : State) (k w : Nat) : List (Nat × Nat) :=
  let b := Tbl.get [] (groupFrame k) s.fab.frames
  if b.isEmpty ∨ s.fab.disabled.contains (k, w) then []
  else ((List.range 8).map fun d => (d, fld b (16 * w + 2 * d) 2)).filter fun e => decide (e.2 ≠ 0xFFFF)

/-- The source code of local wire `w` of a block; none where its frame has not been written. -/
def State.localSrc (s : State) (b w : Nat) : Option Nat :=
  let f := Tbl.get [] (blockFrame b (512 + w / 128)) s.fab.frames
  if f.isEmpty then none else some (fld f (2 * (w % 128)) 2)

/-- The wires of a fabric group in use, one bit each (09 R244). -/
def State.wiresUsed (s : State) (k : Nat) : Nat :=
  ((List.range 8).filter fun w =>
    if k < 38208 then ((s.localSrc ((k - 5440) / 512) (8 * ((k - 5440) % 512) + w)).getD 0xFFFF) != 0xFFFF
    else !(s.drivers k w).isEmpty).map (2 ^ ·) |>.sum

/-- The tier of a fabric group. -/
def fabTier (k : Nat) : Nat := if k < 38208 then 0 else if k < 47424 then 1 else 2

/-- The flip-flops that a source reaches through routing alone, over at most `fuel` wires (09 R252). -/
def State.reachFF (s : State) : Nat → Src → List Nat
  | _, .lc n out => if out = 2 ∨ out = 3 then [n] else []
  | 0, _ => []
  | f + 1, .cluster k w => (s.drivers k w).flatMap fun e => State.reachFF s f (srcOf (driverRegion k e.1) e.2)
  | f + 1, .global k w => (s.drivers k w).flatMap fun e => State.reachFF s f (srcOf (driverRegion k e.1) e.2)
  | _, _ => []

/-- The source code of fabric signal `n` (13 R370), none where its frame has not been written. -/
def State.sigSrc (s : State) (n : Nat) : Option Nat :=
  let f := Tbl.get [] (regionFrame (n / 128) 1368) s.fab.frames
  if f.isEmpty then none else some (fld f (2 * (n % 128)) 2)

/-- The isolation code of fabric signal `n`: 0 HOLD, 1 FORCE0, 2 FORCE1; 3 is read as HOLD (13 R370). -/
def isoCode (v i : Nat) : Nat := let c := bits v (2 * i) 2; if c = 3 then 0 else c
def State.sigIso (s : State) (n : Nat) : Nat := isoCode (fld (s.frame (regionFrame (n / 128) 1369)) 0 32) (n % 128)
/-- The isolation code of wire `w` of global group `k`. -/
def State.wireIso (s : State) (k w : Nat) : Nat := isoCode (fld (s.frame (groupFrame k)) 128 2) w

/-- The source code of the VALID signal of DAC bus `n` (13 R370). -/
def State.busValidSrc (s : State) (n : Nat) : Option Nat :=
  let o := 42 * (n % 8) + 40
  let f := Tbl.get [] (regionFrame (n / 8) (1370 + o / 256)) s.fab.frames
  if f.isEmpty then none else some (fld f (o % 256) 2)

/-- The tree that clocks the VALID flip-flop of a DAC bus (09 R247), where one is configured. -/
def State.busTree (s : State) (n : Nat) : Option Nat :=
  match s.busValidSrc n with
  | none => none
  | some c => match srcOf (n / 8) c with
    | .lc k out => if out = 2 ∨ out = 3 then some (s.lcTree k) else none
    | _ => none

/-! ### Guarded cells (09 R252) -/

/-- The fabric signals that pins use as output enables: the mappings recorded (16 R433). -/
def State.enableSigs (s : State) : List Nat :=
  s.pin.pins.filterMap fun e => match e.2.own with
    | none => none
    | some m => if m.fn = 1 ∧ m.flags % 4 = 3 then some (m.idx + 1) else none

/-- The cells that routing alone makes guarded: those whose flip-flops reach a pin output enable or the VALID input of a
DAC bus. -/
def State.forcedGuards (s : State) : List Nat :=
  ((s.enableSigs.flatMap fun n => match s.sigSrc n with
      | none => []
      | some c => s.reachFF 16 (srcOf (n / 128) c)) ++
   ((List.range 64).flatMap fun n => match s.busValidSrc n with
      | none => []
      | some c => s.reachFF 16 (srcOf (n / 8) c))).eraseDups

/-- The device marks cells guarded and logs each that the persona did not mark (09 R252; 17 R466, R469). -/
def State.forceGuards (s : State) : State :=
  (s.forcedGuards.filter fun n => !s.fab.guarded.contains n && !s.lcMarked n).foldl (fun s n =>
    ({ s with fab := { s.fab with guarded := s.fab.guarded ++ [n] } }).log 0x502 1 (0x80000000 + n) 0 0) s

/-- Is a cell guarded? -/
def State.isGuarded (s : State) (n : Nat) : Bool := s.lcMarked n || s.fab.guarded.contains n

/-- Set flip-flops of cells. -/
def State.setFF (s : State) (n v : Nat) : State := { s with fab := { s.fab with ff := Tbl.set 0 n (v % 4) s.fab.ff } }

/-- Clear the guarded flip-flops of some cells (09 R251). -/
def State.clearGuarded (s : State) (p : Nat → Bool) : State :=
  { s with fab := { s.fab with ff := s.fab.ff.filter fun e => !(p e.1 && s.isGuarded e.1) } }

/-- Every flip-flop of the cells of a region takes its initial value, a guarded one 0 (09 R251). -/
def State.initFFs (s : State) (r : Nat) : State :=
  let s1 : State := { s with fab := { s.fab with ff := s.fab.ff.filter fun e => decide (e.1 / 4096 ≠ r) } }
  (s1.lcsOf r).foldl (fun s n => s.setFF n (if s.isGuarded n then 0 else s.lcInit n)) s1

/-! ### Which clocks run -/

/-- Are the user clocks of a region gated: the whole fabric's, or the region's by a load or by being fallow? -/
def State.clocksGated (s : State) (r : Nat) : Bool := s.fab.gated || (s.region r).isolated || (s.region r).fallow

end Sys2Proof.Machine
end

