-- ==== Sys2Proof/Machine/Logic.lean ====
section
/-! DEFINITION. What the user logic computes: look-up tables, carry chains, wires, and what the flip-flops load at an edge of
their tree (09_fabric_memory.md R239-R242, R247-R253; 13_personas.md R371, R372). -/

namespace Sys2Proof.Machine

/-! ### Which trees run (09 R247-R249; 18 R482) -/

/-- Does a tree follow its source: neither declared lost, nor a user PLL that is not locked (09 R249; 18 R482)? -/
def State.srcGood (s : State) (g : Nat) : Bool :=
  let v := s.gck g
  !v.lost && (decide (v.kind ≠ 0) || (s.upll v.index).locked)

/-- Does a CLOCK tree run: the trees are not gated, and it follows its source or its FALLBACK action (09 R249)? -/
def State.treeRuns (s : State) (g : Nat) : Bool :=
  decide ((s.gck g).mode = 0) && !s.fab.gated && (s.srcGood g || decide ((s.gck g).loss = 1))

/-! ### A cell's functions (09 R240, R242) -/

/-- The index that inputs I0-I5 form: I0 in bit 0. -/
def lutIndex (i : Nat → Bool) : Nat := ((List.range 6).map fun k => if i k then 2 ^ k else 0).sum

/-- FA and FB of a truth table: in whole mode both are t[idx6]; in fractured mode bits 0 to 31 give FA and bits 32 to 63 FB, at
idx5. -/
def lutFa (t : Nat) (fractured : Bool) (idx : Nat) : Bool := bit t (if fractured then idx % 32 else idx)
def lutFb (t : Nat) (fractured : Bool) (idx : Nat) : Bool := bit t (if fractured then 32 + idx % 32 else idx)

/-- The carry logic: FA is propagate p, FB is generate g. -/
def carrySum (p cin : Bool) : Bool := p != cin
def carryOut (p g cin : Bool) : Bool := if p then cin else g

/-- Where a cell's carry in comes from. -/
inductive CarryIn where
  | cell (n : Nat)
  | const (v : Bool)
  | routed (w : Nat)
  | unnamed
  deriving DecidableEq, Repr

def State.lcCarry (s : State) (n : Nat) : Bool := bit (byteAt (s.frame (lcFrame n)) 8) 1

/-- The carry in of a cell: row - 1 of its column; for row 0, row 31 of that column in the block below it within the region, where
the chain comes from there; else what the persona selects for the first block of a chain (log 22). -/
def State.carryFrom (s : State) (n : Nat) : CarryIn :=
  let b := s.frame (lcFrame n)
  if n % 32 ≠ 0 then .cell (n - 1)
  else if n / 512 % 8 ≠ 0 ∧ s.lcCarry (n - 512 + 31) then .cell (n - 512 + 31)
  else match bits (byteAt b 8) 2 2 with
    | 0 => .const false
    | 1 => .const true
    | 2 => .routed (fld b 28 2)
    | _ => .unnamed

/-! ### Levels (09 R240-R243, R253, R254; 13 R371, R372, R385) -/

/-- What has a level: an output of a logic cell, its carry in, a local wire of a block, the source that a code names. -/
inductive Node where
  | out (n k : Nat)
  | cin (n : Nat)
  | wire (b w : Nat)
  | src (v : Src)
  deriving DecidableEq, Repr

/-- The number by which a level that the manual leaves open is named. -/
def Node.code : Node → Nat
  | .out n k => 8 * n + k
  | .cin n => 8 * n + 7
  | .wire b w => 2 ^ 20 + 4096 * b + w
  | .src (.lc n k) => 8 * n + k
  | .src (.cluster k w) => 2 ^ 21 + 8 * k + w
  | .src (.global k w) => 2 ^ 21 + 8 * k + w
  | .src (.hard c) => 2 ^ 22 + c
  | .src .none => 2 ^ 23

/-- The level of a node while the hard-block outputs `high`, each a region and a code, are high. The manual gives no level to an
undriven wire or input, to a wire that two drivers fight over before the checker acts, or to a loop of logic: each is free
(log 22). `fuel` is more than a path can be long; `path` holds the nodes that wait for this one. -/
def State.nodeLevel (s : State) (high : List (Nat × Nat)) : (fuel : Nat) → (path : List Node) → Node → Bool
  | 0, _, v => Config.openLevel v.code s.now
  | fuel + 1, path, v =>
    let free := Config.openLevel v.code s.now
    let go := State.nodeLevel s high fuel (v :: path)
    if path.contains v then free
    else match v with
      | .wire b w => match s.localSrc b w with
        | some c => match srcOf (b / 8) c with
          | .hard h => high.contains (b / 8, h)
          | x => go (.src x)
        | none => free
      | .cin n => match s.carryFrom n with
        | .cell m => carryOut (go (.out m 0)) (go (.out m 1)) (go (.cin m))
        | .const c => c
        | .routed w => if w < 4096 then go (.wire (n / 512) w) else free
        | .unnamed => free
      | .out n k =>
        let b := s.frame (lcFrame n)
        let input (i : Nat) : Bool := if fld b (12 + 2 * i) 2 < 4096 then go (.wire (n / 512) (fld b (12 + 2 * i) 2)) else free
        let idx := lutIndex input
        match k with
        | 0 => lutFa (fld b 0 8) (bit (byteAt b 8) 0) idx
        | 1 => lutFb (fld b 0 8) (bit (byteAt b 8) 0) idx
        | 2 => bit (Tbl.get 0 n s.fab.ff) 0
        | 3 => bit (Tbl.get 0 n s.fab.ff) 1
        | _ => carrySum (lutFa (fld b 0 8) (bit (byteAt b 8) 0) idx) (go (.cin n))
      | .src (.lc n k) => go (.out n k)
      | .src (.cluster k w) =>
        if s.fab.disabled.contains (k, w) then false
        else match s.drivers k w with
          | [d] => match srcOf (driverRegion k d.1) d.2 with
            | .hard h => high.contains (driverRegion k d.1, h)
            | x => go (.src x)
          | _ => free
      | .src (.global k w) =>
        if s.fab.disabled.contains (k, w) then false
        else match Tbl.get none (1024 + 8 * (k - 47424) + w) s.fab.latch, s.drivers k w with
          | some l, _ => l
          | none, [d] => match srcOf (driverRegion k d.1) d.2 with
            | .hard h => high.contains (driverRegion k d.1, h)
            | x => go (.src x)
          | none, _ => free
      | .src _ => free

/-- More nodes than the fabric has. -/
def maxPath : Nat := 2 ^ 20

def State.levelOf (s : State) (high : List (Nat × Nat)) (v : Node) : Bool := s.nodeLevel high maxPath [] v

/-- The level of the local wire that a field of a cell's frame names; `none` where it is 0xFFFF. -/
def State.wireField (s : State) (high : List (Nat × Nat)) (n off : Nat) : Option Bool :=
  let w := fld (s.frame (lcFrame n)) off 2
  if w = 0xFFFF then none
  else some (if w < 4096 then s.levelOf high (.wire (n / 512) w) else Config.openLevel (Node.wire (n / 512) w).code s.now)

/-! ### Flip-flops (09 R241, R251; 13 R371) -/

/-- Is a cell's reset asserted: a tree in RESET mode, or a fabric route? A selected tree that is in CLOCK mode has no reset level
(log 22). -/
def State.lcReset (s : State) (high : List (Nat × Nat)) (n : Nat) : Bool :=
  let b := s.frame (lcFrame n)
  if bit (byteAt b 10) 4 then
    let v := s.gck (fld b 26 2)
    if v.mode = 1 then v.asserted else Config.openLevel (2 ^ 24 + fld b 26 2) s.now
  else (s.wireField high n 26).getD false

/-- The reset values of a cell's flip-flops: 0 in a guarded cell. -/
def State.lcCleared (s : State) (n : Nat) : Nat := if s.isGuarded n then 0 else s.lcResetVal n

/-- The D inputs of FF0 and FF1, in bits 0 and 1. -/
def State.lcD (s : State) (high : List (Nat × Nat)) (n : Nat) : Nat :=
  let sel := byteAt (s.frame (lcFrame n)) 9
  let free := Config.openLevel (2 ^ 25 + n) s.now
  let d0 := match bits sel 0 2 with
    | 0 => s.levelOf high (.out n 0)
    | 1 => s.levelOf high (.out n 4)
    | 2 => (s.wireField high n 22).getD free
    | _ => free
  let d1 := if bit sel 4 then (s.wireField high n 20).getD free else s.levelOf high (.out n 1)
  b2n d0 + 2 * b2n d1

/-- What a cell's flip-flops hold after a rising edge of their tree. -/
def State.lcNext (s : State) (high : List (Nat × Nat)) (n : Nat) : Nat :=
  if s.lcReset high n then s.lcCleared n
  else if (s.wireField high n 24).getD true && !s.fab.forcedLow then s.lcD high n
  else Tbl.get 0 n s.fab.ff

/-- The cells in use whose region's clocks run. -/
def State.clockedCells (s : State) : List Nat := (List.range 8).flatMap fun r => if s.clocksGated r then [] else s.lcsOf r

/-- Resets in ASYNC mode act at once, and on what they change in turn: at most `fuel` times over. -/
def State.asyncResets (high : List (Nat × Nat)) : (fuel : Nat) → State → State
  | 0, s => s
  | fuel + 1, s =>
    match s.clockedCells.filter fun n => s.lcAsync n && s.lcReset high n && decide (Tbl.get 0 n s.fab.ff ≠ s.lcCleared n) with
    | [] => s
    | ns => State.asyncResets high fuel (ns.foldl (fun t n => t.setFF n (s.lcCleared n)) s)

/-- A rising edge of a tree: every flip-flop on it loads what stood before the edge. -/
def State.clockEdge (s : State) (g : Nat) (high : List (Nat × Nat)) : State :=
  if !s.treeRuns g then s
  else
    let cells := s.clockedCells
    State.asyncResets high cells.length ((cells.filter fun n => decide (s.lcTree n = g)).foldl (fun t n => t.setFF n (s.lcNext high n)) s)

end Sys2Proof.Machine
end

