-- ==== Sys2Proof/Machine/PinOps.lean ====
section
/-! DEFINITION. Pin mappings: what a mapping may say, the input signals it feeds and what a pin drives
(16_pins_ports.md R427-R448; 19_electrical_package.md R502). -/

namespace Sys2Proof.Machine

/-- Which home port kind: 0 SPI, 1 I2C, 2 UART (16 R445). -/
def portKind (k : Nat) : Nat := if k < 2 then 0 else if k < 4 then 1 else 2

/-- How many signals a port has (16 R446). -/
def portSignals (k : Nat) : Nat := [7, 2, 5].getD (portKind k) 0

/-- Is signal `s` of a port an input, the port's MODE register being `mode` (16 R446, R447)? -/
def portIsInput (k mode s : Nat) : Bool :=
  match portKind k with
  | 0 => if bit mode 0 then [0, 1, 3].contains s else decide (s = 2)
  | 1 => true
  | _ => [1, 3].contains s

/-- Does a port drive its signal `s`? I2C signals are both, open-drain. -/
def portIsOutput (k mode s : Nat) : Bool := decide (portKind k = 1) || !portIsInput k mode s

/-- The input signal that a mapping feeds (16 R440): TIn as n, port signals as 32 + 16 x k + s. -/
def State.inSig (s : State) (m : PinMapE) : Option Nat :=
  if m.fn = 3 then some m.idx
  else if m.fn = 2 ∧ portIsInput (m.idx / 16) (s.port (m.idx / 16)).mode (m.idx % 16) then some (32 + m.idx)
  else none

/-- The pins that map an input signal, in order. -/
def State.sigPins (s : State) (g : Nat) : List Nat :=
  (s.pin.pins.filter fun e => e.2.mapped && (match e.2.own with
    | none => false
    | some m => decide (s.inSig m = some g))).map (·.1)

/-- The pin that an input signal follows: the only one that maps it, unless its bank holds it (16 R428, R440). -/
def State.sigPin (s : State) (g : Nat) : Option Nat :=
  match s.sigPins g with
  | [p] => if (s.pinS p).hiz then none else some p
  | _ => none

/-- The level of TIn: its pin's, else 0 (16 R440). -/
def State.tiLevel (s : State) (n : Nat) : Bool :=
  match s.sigPin n with
  | some p => (s.pinS p).level
  | none => false

/-- Does an edge of a source reach the trigger logic and the cell controls? A trigger input that no pin or several pins map
stands still (16 R440), a fabric signal of a region that is loading or fallow stays at its latch (13 R385, R388). -/
def State.sourceLive (s : State) (kind index : Nat) : Bool :=
  if kind = 1 then !(s.region (index / 128)).isolated && !(s.region (index / 128)).fallow
  else if kind = 2 then (s.sigPin index).isSome
  else true

/-! ### What a mapping may say (16 R430, R432, R433, R446, R448; 12 R354) -/

/-- Read entry `i` of a list of entries. -/
def readPinMap (b : Bytes) (i : Nat) : Nat × PinMapE := (byteAt b (8 * i), { fn := byteAt b (8 * i + 1), idx := fld b (8 * i + 2) 2, flags := byteAt b (8 * i + 4) })

/-- Does a mapping make its pin an output? -/
def State.mapDrives (s : State) (m : PinMapE) : Bool :=
  match m.fn with
  | 0 => decide (m.flags % 4 ≠ 0)
  | 1 => true
  | 2 => portIsOutput (m.idx / 16) (s.port (m.idx / 16)).mode (m.idx % 16)
  | 3 => false
  | _ => true

/-- The signalling of the pair that a pin belongs to: 0 off, 1 LVDS, 2 SLVS-400 (18 R485). -/
def State.pairMode (s : State) (p : Nat) : Nat :=
  if p < 64 then bits (Tbl.get 0 (p / 16) s.pin.diff) (4 * (p % 16 / 2)) 2 else 0

/-- Does R427 permit a differential output of a mode at a declared VCCIO code, and an input? -/
def diffOutOk (mode vccio : Nat) : Bool := (decide (mode = 1) && decide (vccio = 3)) || (decide (mode = 2) && decide (vccio = 0))
def diffInOk (mode vccio : Nat) : Bool := decide (mode ≤ 1) || decide (vccio = 0)

/-- The status of one entry's values. -/
def State.mapStatus (s : State) (p : Nat) (m : PinMapE) : Nat :=
  let mode := m.flags % 4
  if 192 ≤ p ∨ 4 < m.fn then stRANGE
  else if s.time.localMode ∧ (187 ≤ p ∨ (m.fn = 2 ∧ m.idx / 16 = 1)) then stRANGE
  else if (m.fn = 0 ∧ m.idx ≠ 0) ∨ (m.fn = 1 ∧ 1024 ≤ m.idx) ∨ (m.fn = 2 ∧ (96 ≤ m.idx ∨ portSignals (m.idx / 16) ≤ m.idx % 16)) ∨
      (m.fn = 3 ∧ 32 ≤ m.idx) ∨ (m.fn = 4 ∧ 2 ≤ m.idx) ∨ (m.fn = 1 ∧ mode = 3 ∧ m.idx % 2 = 1) then stRANGE
  else if (m.fn = 0 ∧ mode = 3) ∨ (m.fn = 1 ∧ mode = 0) ∨ (m.fn = 3 ∧ mode ≠ 0) ∨ (m.fn = 4 ∧ mode ≠ 1) then stBAD_ARG
  else if s.pairMode p ≠ 0 ∧ p % 2 = 1 then stBAD_ARG
  else if s.pairMode p ≠ 0 ∧ s.mapDrives m ∧ !diffOutOk (s.pairMode p) (s.bank (p / 16)).vccio then stRANGE
  else stOK

/-- The status of a list of entries: the first entry that is invalid decides, then a pin named twice. -/
def State.mapsStatus (s : State) (l : List (Nat × PinMapE)) : Nat :=
  match l.find? fun e => s.mapStatus e.1 e.2 != stOK with
  | some e => s.mapStatus e.1 e.2
  | none => if (l.map (·.1)).eraseDups.length = l.length then stOK else stBAD_ARG

/-! ### What a pin drives (16 R427, R432, R436, R439, R440) -/

/-- What a pad does: high impedance with a pull (0 none, 1 up, 2 down, 3 keeper), a level, a fabric signal (with its enable
signal in mode 3, `od` for open drain), a port's signal, SYNC_OUT, TAMPER_STATE, or what the boundary-scan register holds for it. -/
inductive PadOut where
  | pull (code : Nat)
  | level (v : Bool)
  | fabric (sig : Nat) (enable : Option Nat) (od : Bool)
  | port (k s : Nat)
  | sync
  | tamper
  | scan
  deriving DecidableEq, Repr

/-- The configuration-time pull of a bank (14 R401; 18 R485). -/
def State.cfgPullOf (s : State) (b : Nat) : Nat :=
  let c := (s.bank b).cfgPull
  if c = 0 then (if s.time.cfgPull then 1 else 2) else if c = 3 then 0 else c

/-- What pin `p` does. -/
def State.padOut (s : State) (p : Nat) : PadOut :=
  let v := s.pinS p
  let bk := s.bank (p / 16)
  let tap := s.pin.tapInstr
  if !bk.powered ∨ v.hiz ∨ tap = 3 then .pull 0
  else if tap = 0 ∨ tap = 4 then .scan
  else match v.own with
    | none => .pull (s.cfgPullOf (p / 16))
    | some m =>
      if !v.mapped then .pull (s.cfgPullOf (p / 16))
      else if s.pairMode p ≠ 0 ∧ s.mapDrives m ∧ !diffOutOk (s.pairMode p) bk.vccio then .pull 0
      else match m.fn with
        | 0 => match m.flags % 4 with
          | 1 => .level (bit bk.out (p % 16))
          | 2 => if bit bk.out (p % 16) then .pull (bits m.flags 4 2) else .level false
          | _ => .pull (bits m.flags 4 2)
        | 1 => .fabric m.idx (if m.flags % 4 = 3 then some (m.idx + 1) else none) (decide (m.flags % 4 = 2))
        | 2 => if s.mapDrives m then .port (m.idx / 16) (m.idx % 16) else .pull (bits m.flags 4 2)
        | 4 => if m.idx = 0 then .sync else .tamper
        | _ => .pull (bits m.flags 4 2)

/-- Is a pin a GPIO output at this moment (16 R439)? -/
def State.gpioOut (s : State) (p : Nat) : Bool :=
  (s.pinS p).mapped && (match (s.pinS p).own with
    | none => false
    | some m => decide (m.fn = 0) && (decide (m.flags % 4 = 1) || decide (m.flags % 4 = 2)))

end Sys2Proof.Machine
end

