-- ==== Sys2Proof/Machine/Ledger.lean ====
section
/-! DEFINITION. Shared operations over the Ledger, the analogue cells, the tracks and block temperatures
(02_analogue_cells.md R31-R36; 03_tiller_placement.md R89-R94; 17_faults_log.md R462). -/

namespace Sys2Proof.Machine

/-- A quotient whose rounding the manual does not name (log 15). -/
def roundFree (n d : Int) : Int := if n % d = 0 then n / d else n / d + (if Config.roundUp n d then 1 else 0)

/-- `n / d` rounded to nearest where the manual says round; it names no rule for ties (log 15). -/
def roundTie (n d : Int) : Int :=
  let q := n / d
  let r := n % d
  if 2 * r < d then q else if d < 2 * r then q + 1 else if Config.tieUp n d then q + 1 else q

/-- No two entries of a list are equal. -/
def nodupB {α : Type} [BEq α] : List α → Bool
  | [] => true
  | a :: l => !l.contains a && nodupB l

/-! ### Ledger entries -/

/-- Type code of a Ledger entry (03 R89, R90). -/
def ledType (n : Nat) : Nat :=
  if n < 49152 then
    let e := n % 48
    if e < 4 then 0 else if e < 22 then 1 else if e < 40 then 2 else 3
  else if n < 81920 then 4
  else if n < 81920 + 5184 then 5
  else if n < 81920 + 5440 then 6
  else 7

/-- The tier of an analogue track (03 R90). -/
def segTier (k : Nat) : Nat := if k < 4096 then 0 else if k < 5120 then 1 else 2

/-- The output track of an analogue cell (03 R90). -/
def outTrack (n : Nat) : Nat := 64 * (n / 16) + n % 16

/-- A switch group's detail while nothing is connected (03 R92). -/
def switchIdle (n e : Nat) : Nat := if e = 44 then outTrack n else if 45 ≤ e then 0x20000 + 0x1FFF else 0x1FFF

/-- The detail field of an entry that nothing uses (03 R92). -/
def ledDetail0 (n : Nat) : Nat :=
  if n < 49152 then
    let e := n % 48
    if e = 12 ∨ e = 21 ∨ e = 38 ∨ e = 39 then 0x20000 else if e < 40 then 0 else switchIdle (n / 48) e
  else if 81920 ≤ n ∧ n < 81920 + 5184 then segTier (n - 81920) * 0x10000
  else 0

/-- A Ledger entry after reset (03 R91, R94). -/
def ledDefault (n : Nat) : Led := { rank := if ledType n < 4 then 0xFFF else 0, detail := ledDetail0 n }

def State.led (s : State) (n : Nat) : Led := (Tbl.get none n s.til.ledger).getD (ledDefault n)

def State.setLed (s : State) (n : Nat) (v : Led) : State :=
  { s with til := { s.til with ledger := Tbl.set none n (if v = ledDefault n then none else some v) s.til.ledger } }

/-- Test age in minutes (03 R91): since the last test, saturating at 255. -/
def State.testAge (s : State) (n : Nat) : Nat :=
  if ledType n = 4 ∨ ledType n = 7 then 255
  else match (s.led n).tested with
    | none => 255
    | some t => min ((s.now - t) / 15000000000) 255

/-- Is an output of a logic cell named by a source code of its region: `out` 2 FF0, 3 FF1? -/
def State.lcOutUsed (s : State) (n out : Nat) : Bool :=
  let r := n / 4096
  let code := 5 * (n % 4096) + out
  (s.fab.frames.filter fun e => decide (e.1 / 12288 = r) &&
      (decide (10240 ≤ e.1 % 12288) && decide (e.1 % 12288 < 10240 + 1372) && decide (e.1 % 12288 ≠ 10240 + 1369) ||
       (decide (512 ≤ e.1 % 12288 % 1280) && decide (e.1 % 12288 % 1280 < 544) && decide (e.1 % 12288 / 1280 = n % 4096 / 512)))).any fun e =>
    (List.range 128).any fun i => decide (fld e.2 (2 * i) 2 = code)

/-- A Ledger entry as it reads: those of logic cells and fabric wires follow the configuration memory (03 R91, R92;
09 R244, R252). -/
def State.ledView (s : State) (n : Nat) : Led :=
  let l := s.led n
  if ledType n = 4 then
    let c := n - 49152
    let b := s.frame (lcFrame c)
    let used := s.lcUsed c
    let d := pack [(b2n (decide (fld b 0 8 ≠ 0)), 17), (b2n (bit (byteAt b 8) 0), 16), (b2n (s.lcOutUsed c 3), 15), (b2n (s.lcOutUsed c 2), 14),
                   (b2n (s.isGuarded c), 13), (b2n (bit (byteAt b 8) 1), 12)]
    if used then { l with state := if l.state = 3 then 3 else 1, detail := d } else { l with detail := 0 }
  else if ledType n = 7 then
    let k := n - 81920
    let w := s.wiresUsed k
    { l with state := if l.state = 3 then 3 else if w = 0 then 0 else 1, detail := fabTier k * 65536 + w * 256 + l.detail % 256 }
  else l

/-- The 64-bit Ledger entry (03 R91). -/
def State.ledWord (s : State) (n : Nat) : Nat :=
  let l := s.ledView n
  pack [(l.state, 62), (l.owner, 50), (l.health, 42), (l.rank, 30), (s.testAge n, 22), (ledType n, 19),
        (b2n l.ownerValid, 18), (l.detail % 2 ^ 18, 0)]

/-- Change the entries of a list of numbers. -/
def State.updLeds (s : State) (ns : List Nat) (f : Nat → Led → Led) : State :=
  ns.foldl (fun s n => s.setLed n (f n (s.led n))) s

/-- The 48 elements of an analogue cell (03 R89). -/
def cellElems (n : Nat) : List Nat := (List.range 48).map (48 * n + ·)

/-- How many of a run of a cell's elements are not quarantined. -/
def State.soundIn (s : State) (n lo len : Nat) : Nat :=
  ((List.range len).filter fun i => decide ((s.led (48 * n + lo + i)).state ≠ 3)).length

/-- Is a cell placeable (02 R33)? -/
def State.placeable (s : State) (n : Nat) : Bool :=
  decide (1 ≤ s.soundIn n 0 4) && decide (8 ≤ s.soundIn n 4 9) && decide (8 ≤ s.soundIn n 13 9) &&
  decide (16 ≤ s.soundIn n 22 18) && decide (5 ≤ s.soundIn n 40 8)

/-- A quarantined entry: no entry that is neither placed nor a reserved spare has an owner (03 R91). -/
def Led.quarantine (l : Led) : Led := { l with state := 3, owner := 0, ownerValid := false }

/-- Quarantine all 48 elements of a cell (02 R33, R34; 04 R110). -/
def State.quarantineCell (s : State) (n : Nat) : State := s.updLeds (cellElems n) fun _ l => l.quarantine

/-- Put a cell's elements into a state with an owner, but those in quarantine (03 R91). -/
def State.markCell (s : State) (n state owner : Nat) (valid : Bool) : State :=
  s.updLeds (cellElems n) fun _ l => if l.state = 3 then l else { l with state := state, owner := owner, ownerValid := valid }

/-- The input pair that calibration makes active (02 R32): not quarantined, the lowest rank, then the highest
health, then the lowest number. -/
def State.bestPair (s : State) (n : Nat) : Option Nat :=
  (List.range 4).foldl (fun b i =>
    let l := s.led (48 * n + i)
    if l.state = 3 then b
    else match b with
      | none => some i
      | some j =>
        let m := s.led (48 * n + j)
        if l.rank < m.rank ∨ (l.rank = m.rank ∧ m.health < l.health) then some i else b) none

/-- Make pair `i` of a cell active (02 R32; 03 R92). -/
def State.activatePair (s : State) (n i : Nat) : State :=
  let s1 := s.updLeds ((List.range 4).map (48 * n + ·)) fun e l =>
    { l with detail := l.detail % 2 ^ 17 + (if e = 48 * n + i then 2 ^ 17 else 0) }
  let c := s1.cell n
  s1.setCell n { c with regs := Tbl.set 0 42 (i : Int) c.regs }

/-- The choice of R32 made on a cell. -/
def State.choosePair (s : State) (n : Nat) : State := match s.bestPair n with
  | none => s
  | some i => s.activatePair n i

/-- Is the active pair of a cell quarantined, or is none active? -/
def State.pairLost (s : State) (n : Nat) : Bool :=
  (List.range 4).all fun i => let l := s.led (48 * n + i); !bit l.detail 17 || decide (l.state = 3)

/-! ### Redundant parts standing in (02 R30, R31; 03 R91, R92) -/

/-- The elements of a run that a placed cell uses: the first `want` that are not quarantined, a spare counting last. -/
def State.firstSound (s : State) (n lo len want : Nat) : List Nat :=
  (((List.range len).map (48 * n + lo + ·)).filter fun e => decide ((s.led e).state ≠ 3)).take want

/-- The elements that a placed cell uses (02 R30-R33): the pair of R32, 8 capacitor groups of each array, 16 resistor segments
and 5 switch groups. DEDUCED (log 13). -/
def State.chosenElems (s : State) (n : Nat) : List Nat :=
  ((s.bestPair n).toList.map (48 * n + ·)) ++ s.firstSound n 4 9 8 ++ s.firstSound n 13 9 8 ++ s.firstSound n 22 18 16 ++ s.firstSound n 40 8 5

/-- Which part each spare stands in for: `spares` are the sound spares, each with the part it replaces now; a spare whose part
is still out keeps it, and the idle ones take the other parts of `out` in order. -/
def standIn (spares : List (Nat × Option Nat)) (out : List Nat) : List (Nat × Option Nat) :=
  let kept := spares.map fun e => (e.1, e.2.filter fun k => out.contains k)
  let rest := out.filter fun k => !(kept.any fun e => decide (e.2 = some k))
  (kept.foldl (fun (a : List (Nat × Option Nat) × List Nat) e =>
    match e.2, a.2 with
    | none, k :: l => (a.1 ++ [(e.1, some k)], l)
    | _, l => (a.1 ++ [e], l)) ([], rest)).1

/-- The quarantined parts among elements `lo` to `lo + len - 1` of a cell, by number from 0. -/
def State.partsOut (s : State) (n lo len : Nat) : List Nat :=
  (List.range len).filter fun i => decide ((s.led (48 * n + lo + i)).state = 3)

/-- The position map of a capacitor array (08 R212) as eight group numbers; a register never written is the map of every
position to its own group. -/
def mapOf (v : Int) : List Nat := let w := if v = 0 then 0x76543210 else v.toNat; (List.range 8).map fun j => bits w (4 * j) 4

def mapWord (l : List Nat) : Int := ((l.zipIdx.map fun e => e.1 * 16 ^ e.2).sum : Nat)

/-- The spare group of a capacitor array stands in for a quarantined group that its map still uses, and leaves a map whose
spare is quarantined: `lo` is the array's first element and `key` its register; its spare shows what it replaces. -/
def State.restandCaps (s : State) (n lo key : Nat) (on : Bool) : State :=
  let sound (i : Nat) : Bool := decide ((s.led (48 * n + lo + i)).state ≠ 3)
  let m := mapOf (Tbl.get 0 key (s.cell n).regs)
  let idle (m : List Nat) : Nat := ((List.range 9).find? fun i => sound i && !m.contains i).getD 8
  let m' := m.map fun g => if sound g then g else idle m
  let spare := 48 * n + lo + 8
  let out := ((List.range 8).find? fun i => !m'.contains i).getD 0
  let stands := on && m'.contains 8
  let l := s.led spare
  let s1 := s.setLed spare { l with detail := 0x20000 + (if stands then 0x10000 + out * 0x2000 else 0) + l.detail % 2 ^ 13 }
  if m' = m then s1 else s1.setCell n { s1.cell n with regs := Tbl.set 0 key (mapWord m') (s1.cell n).regs }

/-- The two spare segments of a cell stand in for its quarantined segments, taking their codes. -/
def State.restandSegs (s : State) (n : Nat) (on : Bool) : State :=
  let spares := ([16, 17].filter fun i => decide ((s.led (48 * n + 22 + i)).state ≠ 3)).map fun i =>
    (i, if bit (s.led (48 * n + 22 + i)).detail 16 then some (bits (s.led (48 * n + 22 + i)).detail 12 4) else none)
  (standIn spares (if on then s.partsOut n 22 16 else [])).foldl (fun s e =>
    let k := 48 * n + 22 + e.1
    let l := s.led k
    match e.2 with
    | none => s.setLed k { l with detail := 0x20000 + l.detail % 2 ^ 10 }
    | some q =>
      let code := Tbl.get 0 (22 + q) (s.cell n).regs
      (s.setLed k { l with detail := 0x30000 + q * 0x1000 + ofI 10 code }).setCell n
        { s.cell n with regs := Tbl.set 0 (22 + e.1) code (s.cell n).regs }) s

/-- The spare switch groups of a cell stand in for its quarantined groups and show what these would show. -/
def State.restandSwitches (s : State) (n : Nat) (on : Bool) : State :=
  let spares := ([5, 6, 7].filter fun i => decide ((s.led (48 * n + 40 + i)).state ≠ 3)).map fun i =>
    (i, if bit (s.led (48 * n + 40 + i)).detail 16 then some (bits (s.led (48 * n + 40 + i)).detail 13 3) else none)
  let out := if on then s.partsOut n 40 5 else []
  let s1 := (standIn spares out).foldl (fun s e =>
    let k := 48 * n + 40 + e.1
    let l := s.led k
    match e.2 with
    | none => s.setLed k { l with detail := 0x21FFF }
    | some q =>
      let seg := if bit l.detail 16 && decide (bits l.detail 13 3 = q) then l.detail % 2 ^ 13 else (s.led (48 * n + 40 + q)).detail % 2 ^ 13
      s.setLed k { l with detail := 0x30000 + q * 0x2000 + seg }) s
  s1.updLeds (out.map (48 * n + 40 + ·)) fun e l => { l with detail := switchIdle n (e % 48) }

/-- Let the spare parts of a cell stand in for its quarantined ones (02 R30); none stands in where `on` is false. -/
def State.restand (s : State) (n : Nat) (on : Bool) : State :=
  (((s.restandCaps n 4 40 on).restandCaps n 13 41 on).restandSegs n on).restandSwitches n on

/-- The Ledger entry of the switch group that serves a port of a cell: 0-3 for P0-P3, 4 for OUT. -/
def State.portElem (s : State) (n port : Nat) : Nat :=
  let own := 48 * n + 40 + port
  if (s.led own).state ≠ 3 then own
  else (([45, 46, 47].map (48 * n + ·)).find? fun e => bit (s.led e).detail 16 && decide (bits (s.led e).detail 13 3 = port)).getD own

/-- Set the track that a port of a cell shows. -/
def State.setPortSeg (s : State) (n port seg : Nat) : State :=
  let e := s.portElem n port
  let l := s.led e
  if l.state = 3 then s else s.setLed e { l with detail := l.detail / 2 ^ 13 * 2 ^ 13 + seg % 2 ^ 13 }

/-- Every switch group of a cell as with nothing connected (03 R92). -/
def State.openSwitches (s : State) (n : Nat) : State :=
  s.updLeds ((List.range 8).map (48 * n + 40 + ·)) fun e l => { l with detail := switchIdle n (e % 48) }

/-! ### Temperatures (17 R462) -/

/-- Insert into a rising list. -/
def insertI (v : Int) : List Int → List Int
  | [] => [v]
  | a :: l => if v ≤ a then v :: a :: l else a :: insertI v l

/-- Twice the median of a list: the middle one, or the mean of the two middle ones. -/
def median2 (l : List Int) : Int :=
  let r := l.foldr insertI []
  r.getD ((r.length - 1) / 2) 0 + r.getD (r.length / 2) 0

/-- The temperature in use for a block, in 0.01 degrees (17 R462). -/
def State.blockTemp (s : State) (b : Nat) : Int :=
  let t := s.sensor b
  if t.failed then
    let others := ((List.range 8).map (8 * (b / 8) + ·)).filter fun n => decide (n ≠ b) && !(s.sensor n).failed
    if others.isEmpty then t.temp else roundFree (median2 (others.map fun n => (s.sensor n).temp)) 2
  else t.temp

/-- A block temperature in whole degrees (03 R74). -/
def State.wholeTemp (s : State) (b : Nat) : Int := roundTie (s.blockTemp b) 100

/-! ### Cells, primitives and graphs -/

/-- Cells of a list of cell fields: 0xFFFF names none. -/
def realCells (l : List Nat) : List Nat := l.filter fun c => decide (c < 1024)

/-- The cells of a primitive, with those of its anti-alias stage (03 R78). -/
def Prim.cells (p : Prim) : List Nat := realCells [p.c0, p.c1, p.aa0, p.aa1]

/-- The cells of a placement. -/
def placeCells (p : PlaceP) : List Nat := realCells [p.c0, p.c1, p.aa0, p.aa1]

/-- The anti-alias stage of a primitive (03 R78): the index of the internal net that joins its output to P0 stands after those of
the graph. -/
def Prim.hasAA (p : Prim) : Bool := decide (p.aa0 < 1024)

/-- Every cell of a graph's primitives. -/
def Graph.cells (g : Graph) : List Nat := g.prims.flatMap Prim.cells

/-- Primitive `i` of a graph. -/
def Graph.prim (g : Graph) (i : Nat) : Prim := g.prims.getD i { ty := 0, mode := 0, flags := 0, par := [] }

/-- Replace primitive `i`. -/
def Graph.setPrim (g : Graph) (i : Nat) (p : Prim) : Graph := { g with prims := g.prims.set i p }

/-- Does a primitive type occupy two cells (02 R45)? -/
def twoCells (ty : Nat) : Bool := decide (ty = 3) || decide (ty = 4) || decide (ty = 11)

/-- The cell whose output is the primitive's output: the second of two (03, worked placement). -/
def Prim.outCell (p : Prim) : Nat := if twoCells p.ty then p.c1 else p.c0

/-- The region of a cell, 0xFF for none. -/
def cellRegion (c : Nat) : Nat := if c < 1024 then c / 128 else 0xFF

/-- Graphs in the machine, as (slot, graph), by rising slot. -/
def State.graphs (s : State) : List (Nat × Graph) := s.til.graphs.filterMap fun e => e.2.map (e.1, ·)

/-- Does a region's controller accept configuration (01 R20)? -/
def State.ctrlOk (s : State) (r : Nat) : Bool := (s.region r).ready && !(s.region r).failed

/-- A cell with nothing of the function it had: staged settings, controls, levels and the state of its output path. -/
def Cell.cleared (c : Cell) : Cell :=
  { c with staged := [], stagedCal := false, stagedSettle := none, calRes := none, warm := false, ctlReset := false, ctlHold := false,
           levelHeld := false, isolated := false, frozen := false, conf := [], tnh := false }

/-- Power a cell down and free it, keeping quarantined elements (02 R36, 03 R88). -/
def State.freeCell (s : State) (n : Nat) : State :=
  let s2 := ((s.markCell n 0 0 false).openSwitches n).restand n false
  s2.setCell n { (s2.cell n).cleared with use := .free, bias := 0, due := false }

/-- Give a cell to a primitive (03 R91): placed, with the owner when phase 6 has written it; its first function, or a loss of
its active pair, calls for the choice of R32, and its spare parts stand in for those in quarantine (02 R30). -/
def State.takeCell (s : State) (n slot prim bias : Nat) (dest valid : Bool) : State :=
  let s1 := s.markCell n 1 (if valid then slot else 0) valid
  let s2 := if !(s1.cell n).served || s1.pairLost n then s1.choosePair n else s1
  let s3 := s2.restand n true
  s3.setCell n { s3.cell n with use := if dest then .dest slot prim else .fn slot prim, bias := bias, warm := false, served := true,
                                isolated := false, levelHeld := false }

/-- Make a cell a spare: of the pool, or of a graph (04 R115). -/
def State.spareCell (s : State) (n : Nat) (owner : Option Nat) : State :=
  let s1 := match owner with
    | none => s.markCell n 2 0 false
    | some g => s.markCell n 2 g true
  let s2 := (s1.openSwitches n).restand n true
  let use : CellUse := match owner with
    | none => .pool
    | some g => .reserved g
  s2.setCell n { (s2.cell n).cleared with use := use, bias := 1023 }

/-! ### The function configured in a cell (04 R102) -/

/-- fc of an inserted anti-alias stage is the switching clock divided by 16 (03 R78): the function of its cells, as type, mode
and parameters; 0x3F3504F3 is 0.7071 (03, worked placement). -/
def aaConf (scExp : Nat) : List Nat := [4, 0, f32Nat 768000 (2 ^ scExp), 0x3F3504F3, 0x3F800000, 0, 0, 0, 0]

/-- The function of a primitive's own cells. -/
def Prim.conf (p : Prim) : List Nat := [p.ty, p.mode] ++ p.par

/-- The segment that serves working segment `i` of a cell: itself, or the spare that stands in. -/
def State.segElem (s : State) (n i : Nat) : Nat :=
  if (s.led (48 * n + 22 + i)).state ≠ 3 then i
  else ([16, 17].find? fun k => bit (s.led (48 * n + 22 + k)).detail 16 && decide (bits (s.led (48 * n + 22 + k)).detail 12 4 = i)).getD i

/-- Configure a function in a cell: its segment codes follow (03 R69, R92). -/
def State.configCell (s : State) (n : Nat) (conf : List Nat) : State :=
  let s1 := s.setCell n { s.cell n with conf := conf }
  (List.range 16).foldl (fun s i =>
    let k := s.segElem n i
    let code := Config.segCode conf i % 1024
    let l := s.led (48 * n + 22 + k)
    (s.setLed (48 * n + 22 + k) { l with detail := l.detail / 2 ^ 10 * 2 ^ 10 + code }).setCell n
      { s.cell n with regs := Tbl.set 0 (22 + k) (code : Int) (s.cell n).regs }) s1

/-- The reset and hold controls of a graph's INT and TNH cells follow their sources; reset wins (02 R46). -/
def State.controls (s : State) (g : Graph) : State :=
  g.prims.foldl (fun s p =>
    let on (w : Nat) : Bool := decide (w / 2 ^ 28 ≠ 0) && s.til.ctl.contains w
    let reset := decide (p.ty = 5) && on (p.par.getD 1 0)
    let hold := (decide (p.ty = 5) && on (p.par.getD 2 0)) || (decide (p.ty = 8) && on (p.par.getD 0 0))
    if (p.ty = 5 ∨ p.ty = 8) ∧ p.c0 < 1024 then s.setCell p.c0 { s.cell p.c0 with ctlReset := reset, ctlHold := hold && !reset } else s) s

/-- A control source has a level (02 R46): the resets and holds that it serves follow. -/
def State.setCtl (s : State) (code : Nat) (level : Bool) : State :=
  if s.til.ctl.contains code = level then s
  else
    let s1 : State := { s with til := { s.til with ctl := if level then s.til.ctl ++ [code] else s.til.ctl.filter fun w => decide (w ≠ code) } }
    s1.graphs.foldl (fun s e => if e.2.phase = 7 then s.controls e.2 else s) s1

/-! ### Tracks (02 R42, R43; 03 R90, R92) -/

def segEntry (k : Nat) : Nat := 81920 + k

/-- Is a track free? -/
def State.segFree (s : State) (k : Nat) : Bool := decide ((s.led (segEntry k)).state = 0)

/-- Give a track or switch to a net of a graph. -/
def State.takeSeg (s : State) (k slot net : Nat) (valid : Bool) : State :=
  let l := s.led (segEntry k)
  if l.state = 3 then s
  else
    let d := if k < 5184 then segTier k * 0x10000 + net * 256 else 0x20000 + net * 256
    s.setLed (segEntry k) { l with state := 1, owner := if valid then slot else 0, ownerValid := valid, detail := d }

/-- Free a track or open a switch. -/
def State.freeSeg (s : State) (k : Nat) : State :=
  let l := s.led (segEntry k)
  if l.state = 3 then s
  else s.setLed (segEntry k) { l with state := 0, owner := 0, ownerValid := false, detail := ledDetail0 (segEntry k) }

/-- The load codes of a net (03 R61): kind 0 primitive input, 1 converter, 2 ball. -/
def loadKind (c : Nat) : Nat := c / 2 ^ 14
def loadPrim (c : Nat) : Nat := bits c 8 6
def loadPort (c : Nat) : Nat := c % 4
def loadConv (c : Nat) : Nat := c % 256
def loadBall (c : Nat) : Nat := c % 256

/-- The excitation switch of a ball code: input pair in bits [6:0], leg in bit [7] (03 R61, R90). -/
def ballSeg (ball : Nat) : Nat := 5184 + 2 * (ball % 128) + ball / 128

/-- The cell that carries an input port of a primitive: MUL takes Y at its second cell (02 R45); an anti-alias
stage stands ahead of P0 (03 R78). -/
def Prim.portCell (p : Prim) (port : Nat) : Nat :=
  if port = 0 && decide (p.aa0 < 1024) then p.aa0 else if p.ty = 11 && decide (port = 1) then p.c1 else p.c0

/-- The tracks a net needs, in order, each as a range of segments (first, count): the driver's output track; for a
net that leaves the driver's block a cluster track of the driver's region, for one that leaves the region a global
track and a cluster track of each further region; a general local track in each further block it loads; and the
excitation switches (02 R42-R44; 03 R90). A net whose only loads outside the block are wideband converters of its own region
does with its output track, which a tap reaches, and one that loads a precision converter takes a cluster track there: so in
the worked placements of 03 and 06 (DEDUCED, log 13). A driver that has no cells needs no track, and a load that has none adds
none. -/
def netNeeds (g : Graph) (n : Net) : List (Nat × Nat) :=
  let prim := decide (n.drvKind = 0)
  let dcell := (g.prim n.drv).outCell
  let dreg := if prim then cellRegion dcell else n.drv / 16
  let cells := realCells ((n.loads.filter fun c => loadKind c == 0).map fun c => (g.prim (loadPrim c)).portCell (loadPort c))
  let blocks := ((cells.map (· / 16)).filter fun b => !(prim && decide (b = dcell / 16))).eraseDups
  let loaded := (n.loads.filter fun c => loadKind c == 1).map loadConv
  let convs := loaded.map convRegion
  let balls := (n.loads.filter fun c => loadKind c == 2).map loadBall
  let short := prim && blocks.isEmpty && balls.isEmpty && loaded.all fun c => decide (64 ≤ c) && decide (convRegion c = dreg)
  let leaves := !prim || !blocks.isEmpty || (!convs.isEmpty && !short) || !balls.isEmpty
  let others := ((blocks.map (· / 8)) ++ convs).eraseDups.filter fun r => decide (r ≠ dreg)
  if prim ∧ 1024 ≤ dcell then []
  else
  (if prim then [(outTrack dcell, 1)] else []) ++
  (if leaves then [(4096 + 128 * dreg, 128)] else []) ++
  (if others.isEmpty then [] else [(5120, 64)]) ++
  others.map (fun r => (4096 + 128 * r, 128)) ++
  blocks.map (fun b => (64 * b + 16, 48)) ++
  balls.map (fun b => (ballSeg b, 1))

/-- The tracks that join the output of an anti-alias stage to its primitive's P0 (03 R78). -/
def aaNeeds (p : Prim) : List (Nat × Nat) :=
  if !p.hasAA ∨ 1024 ≤ p.c0 then []
  else
    let b := p.aa1 / 16
    let c := p.c0 / 16
    [(outTrack p.aa1, 1)] ++
    (if b = c then [] else
      [(4096 + 128 * (b / 8), 128)] ++ (if b / 8 = c / 8 then [] else [(5120, 64), (4096 + 128 * (c / 8), 128)]) ++ [(64 * c + 16, 48)])

/-- The net that stands for one out of range. -/
def noNet : Net := { drvKind := 0, drv := 0, loads := [] }

/-- The nets of a graph by number: those of its image, then for each primitive the internal net of its anti-alias stage, which
the Ledger shows under the number it has here (DESIGN CHOICE, log 13). -/
def Graph.netIdx (g : Graph) : List Nat :=
  List.range g.nets.length ++ ((List.range g.prims.length).filter fun i => (g.prim i).hasAA).map (g.nets.length + ·)

def Graph.needs (g : Graph) (j : Nat) : List (Nat × Nat) :=
  if j < g.nets.length then netNeeds g (g.nets.getD j noNet) else aaNeeds (g.prim (j - g.nets.length))

def Graph.segsOf (g : Graph) (j : Nat) : List Nat :=
  if j < g.nets.length then (g.nets.getD j noNet).segs else (g.prim (j - g.nets.length)).aaSegs

def Graph.setSegs (g : Graph) (j : Nat) (segs : List Nat) : Graph :=
  if j < g.nets.length then { g with nets := g.nets.set j { g.nets.getD j noNet with segs := segs } }
  else g.setPrim (j - g.nets.length) { g.prim (j - g.nets.length) with aaSegs := segs }

/-- Every track and switch that a graph's nets hold. -/
def Graph.allSegs (g : Graph) : List Nat := g.netIdx.flatMap g.segsOf

/-- Free the tracks of a graph. -/
def State.freeNets (s : State) (g : Graph) : State := g.allSegs.foldl (fun s k => s.freeSeg k) s

/-- The lowest free track of a range, but those of a list; DESIGN CHOICE (log 13): the manual orders tracks by
number of tracks alone. -/
def State.pickSeg (s : State) (lo len : Nat) (used : List Nat) : Option Nat :=
  ((List.range len).map (lo + ·)).find? fun k => s.segFree k && !used.contains k

/-- A route for a net: of the tracks `old` that it holds those that still serve it, and free ones for the others (04 R98,
R105). -/
def State.routeKeep (s : State) : List (Nat × Nat) → List Nat → List Nat → Option (List Nat)
  | [], _, _ => some []
  | (lo, len) :: l, old, used =>
    match (old.find? fun k => decide (lo ≤ k) && decide (k < lo + len) && !used.contains k).orElse fun _ => s.pickSeg lo len used with
    | none => none
    | some k => (State.routeKeep s l old (k :: used)).map (k :: ·)

/-- Routes for some nets of a graph, each with the tracks it may keep; none where one finds no free track. -/
def State.routeAll (s : State) (g : Graph) (keep : Nat → List Nat) (js : List Nat) : Option (List (Nat × List Nat)) :=
  js.foldl (fun a j => match a with
    | none => none
    | some l => (s.routeKeep (g.needs j) (keep j) (l.flatMap (·.2))).map fun segs => l ++ [(j, segs)]) (some [])

/-- A graph with its nets on some routes. -/
def Graph.route (g : Graph) (rs : List (Nat × List Nat)) : Graph := rs.foldl (fun g e => g.setSegs e.1 e.2) g

/-- The segment at which a load in block `b` or region `r` meets a net: its last track there. -/
def netAtBlock (n : Net) (b : Nat) : Nat := ((n.segs.filter fun k => decide (k < 4096) && decide (k / 64 = b)).getLast?).getD 0x1FFF

def netAtRegion (n : Net) (r : Nat) : Nat :=
  match (n.segs.filter fun k => decide (4096 ≤ k) && decide (k < 5120) && decide ((k - 4096) / 128 = r)).getLast? with
  | some k => k
  | none => ((n.segs.filter fun k => decide (k < 4096) && decide (k / 512 = r)).getLast?).getD 0xFFFF

/-- Set the switch-group details of a primitive's input ports from the nets that load them, and that of its P0 behind an
anti-alias stage (03 R78, R92). -/
def State.joinPorts (s : State) (g : Graph) (i : Nat) : State :=
  let p := g.prim i
  let s1 := g.nets.foldl (fun s n => n.loads.foldl (fun s c =>
    if loadKind c = 0 ∧ loadPrim c = i then
      let cell := p.portCell (loadPort c)
      if cell < 1024 then s.setPortSeg cell (loadPort c) (netAtBlock n (cell / 16)) else s
    else s) s) s
  if p.hasAA ∧ p.c0 < 1024 then s1.setPortSeg p.c0 0 (netAtBlock { noNet with segs := p.aaSegs } (p.c0 / 16)) else s1

/-- Give some tracks of a graph's nets to it in the Ledger. -/
def State.takeRoutes (s : State) (slot : Nat) (rs : List (Nat × List Nat)) (valid : Bool) : State :=
  rs.foldl (fun s e => e.2.foldl (fun s k => s.takeSeg k slot e.1 valid) s) s

/-- Give a graph's nets their tracks in the Ledger. -/
def State.takeNets (s : State) (g : Graph) (slot : Nat) (valid : Bool) : State :=
  s.takeRoutes slot (g.netIdx.map fun j => (j, g.segsOf j)) valid

/-- Is an input pair the driver of a net of a graph that holds resources, other than `slot` (03 R63)? -/
def State.pairUsed (s : State) (slot pair : Nat) : Bool :=
  s.graphs.any fun e => decide (e.1 ≠ slot) && decide (4 ≤ e.2.phase) && !e.2.reportOnly &&
    e.2.nets.any fun n => decide (n.drvKind = 1) && decide (n.drv = pair)

/-- Is a ball driven by a net of such a graph (03 R63)? -/
def State.ballUsed (s : State) (slot ball : Nat) : Bool :=
  s.graphs.any fun e => decide (e.1 ≠ slot) && decide (4 ≤ e.2.phase) && !e.2.reportOnly &&
    e.2.nets.any fun n => n.loads.any fun c => loadKind c == 2 && loadBall c == ball

end Sys2Proof.Machine
end

