-- ==== Sys2Proof/Machine/GraphImage.lean ====
section
/-! DEFINITION. Graph images and tune images: the checks of R45 and R56-R67 and what they hold
(02_analogue_cells.md R45; 03_tiller_placement.md R55-R67, R84, R85). Decimals of the manual stand as their
nearest binary32 words (log 14). -/

namespace Sys2Proof.Machine

/-- The nearest binary32 value of `n / d`, in units of 2^-149 (log 14). -/
def dec (n : Int) (d : Nat) : Int := f32 (f32Of n d)

/-- Is a word a finite number between two bounds? -/
def f32In (w : Nat) (lo hi : Int) : Bool := !f32Special w && decide (lo ≤ f32 w) && decide (f32 w ≤ hi)

/-- Is a word the nearest binary32 of a whole multiple of `n / d`? -/
def onStep (w : Nat) (n d : Nat) : Bool :=
  let k := roundAway (f32 w * d) (n * f32One)
  decide (f32 (f32Of (k * n) d) = f32 w)

/-- The gains of PGA mode (02 R45), as (numerator, denominator). -/
def pgaGains : List (Int × Nat) :=
  [(1, 8), (1, 5), (1, 2), (1, 1), (2, 1), (5, 1), (10, 1), (20, 1), (50, 1), (100, 1), (200, 1), (500, 1), (1024, 1)]

/-- IDAC range full scale in units of 0.000002 A / 32768 (02 R45). -/
def idacFS (mode : Nat) : Nat := 10 ^ mode

/-- Number of modes of a primitive type that has them (03 R58). -/
def modes (ty : Nat) : Nat := if ty = 2 then 3 else if ty = 4 then 4 else if ty = 9 then 2 else if ty = 10 then 4 else 0

/-- The parameters of a primitive of a valid type keep R45 (mode, range, step and note). Mode is a parameter there
(DEDUCED, log 17). -/
def paramsOk (p : Prim) : Bool :=
  let a := p.par.getD 0 0
  let b := p.par.getD 1 0
  let c := p.par.getD 2 0
  (decide (modes p.ty = 0) || decide (p.mode < modes p.ty)) &&
  match p.ty with
  | 2 => if p.mode = 2 then !f32Special a && pgaGains.any fun g => decide (f32 a = dec g.1 g.2)
         else f32In a (dec 1 8) (dec 1024 1)
  | 3 => f32In a (dec 1 1) (dec 1024 1)
  | 4 => f32In a (dec 1 10) (dec 2000000 1) && f32In b (dec 1 2) (dec 50 1) && f32In c (dec 1 8) (dec 16 1) &&
         decide (f32 a * f32 b ≤ 2000000 * f32One * f32One)
  | 5 => f32In a (dec 1 1000000) (dec 2 1)
  | 6 => let ws := (List.range 4).map fun i => p.par.getD i 0
         ws.all (fun w => !f32Special w && (decide (f32 w = 0) || (decide (dec 1 16 ≤ (f32 w).natAbs) && decide (((f32 w).natAbs : Int) ≤ dec 64 1)))) &&
         ws.any fun w => decide (f32 w ≠ 0)
  | 7 => f32In a (dec (-4096) 1000) (dec 4088 1000) && onStep a 8 1000 && f32In b 0 (dec 30 1000) && onStep b 2 1000
  | 9 => f32In a (dec 1 1) (dec 16 1)
  | 10 => let fs := idacFS p.mode
          f32In a (dec (-(fs * 2 : Int)) 1000000) (dec (fs * 2 * 32767 : Int) (1000000 * 32768)) && onStep a (fs * 2) (1000000 * 32768) &&
          (decide (f32 a = 0) || decide (dec 1 10000000 ≤ (f32 a).natAbs))
  | 11 => f32In a (dec 1 10) (dec 1 1)
  | _ => true

/-- A control source field (03 R59). -/
def srcOk (w : Nat) : Bool :=
  let i := w % 2 ^ 28
  match w / 2 ^ 28 with
  | 0 => decide (i = 0)
  | 1 => decide (i < 1024)
  | 2 => decide (i < 32)
  | 3 => decide (i < 64)
  | 4 => decide (i < 128)
  | _ => false

/-- Parameter fields a type has (03 R59). -/
def paramCount (ty : Nat) : Nat :=
  match ty with
  | 2 => 1 | 3 => 1 | 4 => 3 | 5 => 3 | 6 => 4 | 7 => 2 | 8 => 1 | 9 => 1 | 10 => 1 | 11 => 1
  | _ => 0

/-- The structural rules of a primitive record (03 R58, R59), its index apart. -/
def primShape (p : Prim) : Bool :=
  decide (1 ≤ p.ty) && decide (p.ty ≤ 11) && (decide (modes p.ty ≠ 0) || decide (p.mode = 0)) &&
  decide (p.flags < 2) && (decide (p.flags = 0) || decide (p.ty = 4) || decide (p.ty = 5)) &&
  ((p.par.drop (paramCount p.ty)).all fun w => decide (w = 0)) &&
  (decide (p.ty ≠ 5) || (srcOk (p.par.getD 1 0) && srcOk (p.par.getD 2 0))) &&
  (decide (p.ty ≠ 8) || srcOk (p.par.getD 0 0))

/-- A primitive record of an image (03 R58). -/
def readPrim (b : Bytes) (o : Nat) : Prim :=
  { ty := byteAt b o, mode := byteAt b (o + 1), flags := byteAt b (o + 2),
    par := (List.range 7).map fun i => fld b (o + 4 + 4 * i) 4 }

/-- The input ports a primitive uses, and those it has beside them (03 R59): a SUM has P0-P3 whatever its weights, so that a net
may load a port of weight 0 (R62; log 17). -/
def portsUsed (p : Prim) : List Nat :=
  match p.ty with
  | 6 => (List.range 4).filter fun i => decide (f32 (p.par.getD i 0) ≠ 0)
  | 10 => []
  | 11 => [0, 1]
  | _ => [0]

def portsMay (p : Prim) : List Nat := if p.ty = 7 then [1] else if p.ty = 6 then [0, 1, 2, 3] else []

/-- A net record (03 R60). -/
def readNet (b : Bytes) (o : Nat) : Net :=
  { drvKind := byteAt b (o + 1), drv := byteAt b (o + 2),
    loads := (List.range (min (byteAt b (o + 3)) 8)).map fun i => fld b (o + 8 + 2 * i) 2 }

/-- The structural rules of one net record (03 R60-R62); a BUF or IDAC output drives one ball (02 R44), and a net that loads
more is refused with the other faults of structure (DESIGN CHOICE, log 17). -/
def netShape (b : Bytes) (o i : Nat) (ps : List Prim) : Bool :=
  let n := readNet b o
  let lc := byteAt b (o + 3)
  let dty := (ps.getD n.drv { ty := 0, mode := 0, flags := 0, par := [] }).ty
  decide (byteAt b o = i) && decide (1 ≤ lc) && decide (lc ≤ 8) &&
  (if n.drvKind = 0 then decide (n.drv < ps.length) else decide (n.drvKind = 1) && decide (n.drv < 128)) &&
  (firstBad b (rsv (o + 4) 4 ++ rsv (o + 8 + 2 * min lc 8) (16 - 2 * min lc 8) ++ rsv (o + 24) 8)).isNone &&
  (n.loads.all fun c =>
    match loadKind c with
    | 0 => decide (bits c 2 6 = 0) && decide (loadPrim c < ps.length)
    | 1 => decide (bits c 8 6 = 0) && decide (n.drvKind = 0)
    | 2 => decide (bits c 8 6 = 0) && decide (n.drvKind = 0) && (decide (dty = 1) || decide (dty = 10))
    | _ => false) &&
  decide ((n.loads.filter fun c => loadKind c == 1).length ≤ 4) && decide ((n.loads.filter fun c => loadKind c == 2).length ≤ 1)

/-- The rules of R62 that join nets and primitives; a net that names one port twice still is the one net that loads it. -/
def netsJoin (ps : List Prim) (ns : List Net) : Bool :=
  let loads := ns.flatMap Net.loads
  let ports := ns.flatMap fun n => ((n.loads.filter fun c => loadKind c == 0).map fun c => (loadPrim c, loadPort c)).eraseDups
  nodupB ((ns.filter fun n => n.drvKind == 0).map Net.drv) && nodupB ((ns.filter fun n => n.drvKind == 1).map Net.drv) &&
  nodupB ((loads.filter fun c => loadKind c == 2).map loadBall) && nodupB ports &&
  (ps.zipIdx.all fun e => (portsUsed e.1).all fun q => ports.contains (e.2, q)) &&
  ports.all fun q =>
    let p := ps.getD q.1 { ty := 0, mode := 0, flags := 0, par := [] }
    (portsUsed p).contains q.2 || (portsMay p).contains q.2

/-- The kinds of record and the primitives a specification code allows (03 R65). -/
def specRow (code : Nat) : List Nat × List Nat :=
  match code with
  | 1 => ([0], [1, 2, 3, 4, 5, 6, 9, 11])
  | 2 => ([0], [1, 2, 3, 4, 5, 6, 9])
  | 3 => ([0], [1, 2, 3, 4, 5, 6, 9])
  | 4 => ([1], [1, 2, 3, 6, 9, 11])
  | 5 => ([0], [2, 3, 6])
  | 6 => ([0], [4])
  | 7 => ([0], [4])
  | 8 => ([1], [4])
  | 9 => ([1], [3])
  | 10 => ([0], [2, 3, 6])
  | 11 => ([0], [7])
  | 12 => ([0, 2], [1, 2, 3, 4, 5, 6, 7, 8, 9, 10, 11])
  | _ => ([], [])

/-- A specification record (03 R64). -/
def readSpec (b : Bytes) (o : Nat) : SpecRec :=
  { prim := byteAt b o, code := byteAt b (o + 1), kind := byteAt b (o + 2), cond := byteAt b (o + 3),
    target := fld b (o + 4) 4, freq := fld b (o + 8) 4, hard := bit (byteAt b (o + 12)) 0 }

/-- The rules of one specification record (03 R64, R65). -/
def specShape (b : Bytes) (o : Nat) (ps : List Prim) : Bool :=
  let r := readSpec b o
  let p := ps.getD r.prim { ty := 0, mode := 0, flags := 0, par := [] }
  decide (r.prim < ps.length) && (specRow r.code).1.contains r.kind && (specRow r.code).2.contains p.ty &&
  (decide (r.code ≠ 8) || decide (p.mode = 3)) && decide (r.cond < 3) &&
  (if r.kind = 2 then decide (r.target = 0) else !f32Special r.target && decide (0 < f32 r.target)) &&
  (if r.code = 1 then !f32Special r.freq && decide (0 ≤ f32 r.freq) else decide (r.freq = 0)) &&
  (firstBad b ((o + 12, 0xFE) :: rsv (o + 13) 3)).isNone

/-- A pin record (03 R67). -/
def readPin (b : Bytes) (o : Nat) : Nat × Pin :=
  (byteAt b o, { scope := byteAt b (o + 1), num := fld b (o + 2) 2, require := byteAt b (o + 4) == 1 })

/-- The rules of one pin record; scope 0xFF, which removes a pin or allows any cell, where `any` (03 R82; 12 R339). -/
def pinShape (b : Bytes) (o count : Nat) (any : Bool) : Bool :=
  let r := readPin b o
  decide (r.1 < count) && decide (byteAt b (o + 4) < 2) && (firstBad b (rsv (o + 5) 3)).isNone &&
  match r.2.scope with
  | 0 => decide (r.2.num < 8)
  | 1 => decide (r.2.num < 64)
  | 2 => decide (r.2.num < 1024)
  | 255 => any
  | _ => false

/-- Do two byte ranges (start, length) keep apart? -/
def apart (a b : Nat × Nat) : Bool :=
  decide (a.2 = 0) || decide (b.2 = 0) || decide (a.1 + a.2 ≤ b.1) || decide (b.1 + b.2 ≤ a.1)

/-- The tables of an image: (offset, length) of the primitive, net, specification and pin tables (03 R57). -/
def tables (b : Bytes) : List (Nat × Nat) :=
  [(fld b 24 4, 32 * byteAt b 8), (fld b 28 4, 32 * fld b 10 2), (fld b 32 4, 16 * fld b 12 2), (fld b 36 4, 8 * fld b 14 2)]

/-- The header and table geometry (03 R56, R57; 12 R337), checked before any record (R55). -/
def geometryOk (b : Bytes) (len : Nat) : Bool :=
  let total := fld b 20 4
  let ts := tables b
  let all := (0, 64) :: ts
  decide (64 ≤ len) && decide (total = len) && decide (total ≤ 32768) && decide (fld b 0 4 = 0x47524C54) &&
  decide (fld b 4 2 = 1) && decide (fld b 6 2 = 64) && decide (1 ≤ byteAt b 8) && decide (byteAt b 8 ≤ 64) &&
  decide (byteAt b 9 ≤ 8) && decide (1 ≤ fld b 10 2) && decide (fld b 10 2 ≤ 255) && decide (fld b 12 2 ≤ 512) &&
  decide (fld b 14 2 ≤ 64) && decide (fld b 16 4 < 4) && decide (fld b 40 2 ≤ 1000) &&
  (decide (byteAt b 42 < 8) || decide (byteAt b 42 = 255)) && (firstBad b (rsv 43 1 ++ rsv 52 12)).isNone &&
  (ts.all fun t => decide (t.1 % 8 = 0) && decide (t.1 + t.2 ≤ total)) &&
  (decide (fld b 12 2 ≠ 0) || decide (fld b 32 4 = 0)) && (decide (fld b 14 2 ≠ 0) || decide (fld b 36 4 = 0)) &&
  (all.zipIdx.all fun x => all.zipIdx.all fun y => decide (x.2 = y.2) || apart x.1 y.1)

/-- The length of a graph's report (03 R80). -/
def reportLen (p s n : Nat) : Nat := 32 + 32 * p + 16 * s + 32 * n

/-- Phase 1 on an image (03 R55-R67): the status of a failure, or the graph. A converter load of 192 to 255 is RANGE
by 00 R5. -/
def parseGraph (b : Bytes) (len : Nat) (replen : Nat) : Except Nat Graph :=
  if !geometryOk b len then .error stBAD_ARG
  else if replen < reportLen (byteAt b 8) (fld b 12 2) (fld b 10 2) then .error stBAD_ARG
  else
    let po := fld b 24 4
    let no := fld b 28 4
    let so := fld b 32 4
    let io := fld b 36 4
    let ps := (List.range (byteAt b 8)).map fun i => readPrim b (po + 32 * i)
    let ns := (List.range (fld b 10 2)).map fun i => readNet b (no + 32 * i)
    let ss := (List.range (fld b 12 2)).map fun i => readSpec b (so + 16 * i)
    let pins := (List.range (fld b 14 2)).map fun i => readPin b (io + 8 * i)
    let rangeBad := (ps.any fun p => decide (1 ≤ p.ty) && decide (p.ty ≤ 11) && !paramsOk p) ||
      (ns.any fun n => n.loads.any fun c => loadKind c == 1 && bits c 8 6 == 0 && decide (192 ≤ loadConv c))
    if rangeBad then .error stRANGE
    else if !(ps.all primShape && ((List.range ps.length).all fun i => decide (byteAt b (po + 32 * i + 3) = i)) &&
        ((List.range ns.length).all fun i => netShape b (no + 32 * i) i ps) && netsJoin ps ns &&
        ((List.range ss.length).all fun i => specShape b (so + 16 * i) ps) && nodupB (ss.map fun r => (r.prim, r.code)) &&
        ((List.range pins.length).all fun i => pinShape b (io + 8 * i) ps.length false) && nodupB (pins.map (·.1))) then .error stBAD_ARG
    else
      let flags := fld b 16 4
      .ok { phase := 2, prims := ps.zipIdx.map fun e => { e.1 with pin := (pins.find? fun q => q.1 == e.2).map (·.2) },
            nets := ns, specs := ss, spares := byteAt b 9, degrade := fld b 40 2, reportOnly := bit flags 0,
            oneRegion := bit flags 1, prefRegion := byteAt b 42, userTag := fld b 44 8 }

/-- A tune image (03 R84): its primitive records by index, its specification records, its degrade limit and
ALLOW_MOVE; or the status of a failure against the graph it names (R55, R85). -/
def parseTune (b : Bytes) (len : Nat) (g : Graph) : Except Nat (List (Nat × Prim) × List SpecRec × Nat × Bool) :=
  let pc := byteAt b 2
  let sc := fld b 4 2
  let d := fld b 6 2
  if len < 16 ∨ fld b 0 2 ≠ 1 ∨ 64 < pc ∨ 1 < byteAt b 3 ∨ 512 < sc ∨ (1000 < d ∧ d ≠ 0xFFFF) ∨
      (firstBad b (rsv 8 8)).isSome ∨ len < 16 + 32 * pc + 16 * sc then .error stBAD_ARG
  else
    let ps := (List.range pc).map fun i => (byteAt b (16 + 32 * i + 3), readPrim b (16 + 32 * i))
    let so := 16 + 32 * pc
    let ss := (List.range sc).map fun i => readSpec b (so + 16 * i)
    let new := ps.foldl (fun l e => l.set e.1 { (l.getD e.1 e.2) with mode := e.2.mode, par := e.2.par }) g.prims
    if ps.any fun e => decide (1 ≤ e.2.ty) && decide (e.2.ty ≤ 11) && !paramsOk e.2 then .error stRANGE
    else if !(ps.all (fun e => primShape e.2 && decide (e.1 < g.prims.length) && decide (e.2.ty = (g.prim e.1).ty)) &&
        nodupB (ps.map (·.1)) && netsJoin new g.nets &&
        ((List.range ss.length).all fun i => specShape b (so + 16 * i) new) && nodupB (ss.map fun r => (r.prim, r.code))) then .error stBAD_ARG
    else .ok (ps, ss, if d = 0xFFFF then g.degrade else d, bit (byteAt b 3) 0)

end Sys2Proof.Machine
end

