-- ==== Sys2Proof/Machine/Report.lean ====
section
/-! DEFINITION. What Tiller computes of a graph: bias, power, chopping, switched-capacitor mode, shortfalls, the
outcome and the placement report (02_analogue_cells.md R35-R38, R50, R509; 03_tiller_placement.md R54, R55, R64-R66,
R76-R80, R510). -/

namespace Sys2Proof.Machine

/-- A rational number: numerator and positive denominator. -/
abbrev Q := Int × Nat

def Q.lt (a b : Q) : Bool := decide (a.1 * b.2 < b.1 * a.2)
def Q.pos (a : Q) : Bool := decide (0 < a.1)

/-- Pi, to 30 decimals (log 14). -/
def piNum : Int := 3141592653589793238462643383280
def piDen : Int := 10 ^ 30

/-! ### Power and bias (02 R35, R36; 03 R66) -/

/-- The power of one cell at a bias code, in 1/256 of a microwatt: (0.5 mA x (c + 1) / 1,024 + 0.06 mA) x 11 V; a cell
with its core down draws 0.06 mA. -/
def cellPower (bias : Nat) : Nat := if bias = 0 then 168960 else 11 * (125 * (bias + 1) + 15360)

/-- The power of a primitive with its anti-alias stage (03 R78). -/
def primPower (p : Prim) : Nat := p.cells.length * cellPower p.bias

/-- The power of a graph, in 1/256 of a microwatt. -/
def graphPower (g : Graph) : Nat := (g.prims.map primPower).sum

/-- Total power in whole microwatts (03 R80). -/
def graphPowerUW (g : Graph) : Nat := (roundFree (graphPower g) 256).toNat

/-- The highest bias code of 15 to 1,023 whose power on `cells` cells does not exceed a target; 15 where none does
(03 R66). The target is a binary32 word in microwatts. -/
def biasForPower (cells target : Nat) : Nat :=
  let n := ((List.range 1009).filter fun i => decide ((cells * cellPower (15 + i) : Int) * f32One ≤ 256 * f32 target)).length
  if n = 0 then 15 else 14 + n

/-! ### Noise gain, bandwidth, chopping, switched-capacitor mode (02 R35, R37, R38, R509; 03 R77, R78) -/

/-- The gain of R509 of an AMP, INA or SUM, in units of 2^-149. -/
def noiseGain (p : Prim) : Int :=
  match p.ty with
  | 2 => if p.mode = 1 then f32One + f32 (p.par.getD 0 0) else f32 (p.par.getD 0 0)
  | 3 => f32 (p.par.getD 0 0)
  | 6 => f32One + (((List.range 4).map fun i => ((f32 (p.par.getD i 0)).natAbs : Int)).sum)
  | _ => f32One

/-- A stage in switched-capacitor mode (02 R38): a BIQ with fc below 1 / (2 pi x 100 us), an INT with a time constant
above 100 us. -/
def switchedCap (p : Prim) : Bool :=
  match p.ty with
  | 4 => decide (f32 (p.par.getD 0 0) * 2 * piNum < 10000 * piDen * f32One)
  | 5 => decide (f32One < 10000 * f32 (p.par.getD 0 0))
  | _ => false

/-- 128 / tau of a stage, as a rational in hertz (03 R77). -/
def scLimit (p : Prim) : Q :=
  let a := f32 (p.par.getD 0 0)
  if p.ty = 4 then (256 * piNum * a, (piDen * f32One).toNat) else (128 * f32One, a.toNat)

/-- The switching clock exponent (03 R77): the smallest n with 12.288 MHz / 2^n at most 128 / tau. -/
def scExponent (p : Prim) : Nat :=
  if switchedCap p then
    let l := scLimit p
    ((List.range 32).find? fun n => decide ((12288000 : Int) * l.2 ≤ l.1 * 2 ^ n)).getD 31
  else 0

/-- Does the request of an anti-alias stage have an effect, and can the stage be built (03 R78)? Its fc is the
switching clock divided by 16, at least 1,591.55 Hz, so the clock is 48 kHz or more. -/
def wantsAntiAlias (p : Prim) : Bool := bit p.flags 0 && switchedCap p
def canAntiAlias (p : Prim) : Bool := decide (scExponent p ≤ 8)

/-- The achieved -3 dB bandwidth of a primitive at its bias code, as a rational in hertz: the core's gain-bandwidth (02 R35)
divided by the gain of R509, which for a BUF is 1; of a RECT or MUL the minimum of R50, which R35 scales (DESIGN CHOICE for BUF,
RECT and MUL, log 13). -/
def bandwidth (p : Prim) : Q :=
  match p.ty with
  | 9 => (500000 * (p.bias + 1), 1024)
  | 11 => (1000000 * (p.bias + 1), 1024)
  | _ => (50000000 * (p.bias + 1) * f32One, (1024 * noiseGain p).toNat)

/-- The bandwidth that R37 uses, as a rational in hertz. -/
def chopBandwidth (p : Prim) : Q :=
  let a := f32 (p.par.getD 0 0)
  match p.ty with
  | 4 => (a, f32One.toNat)
  | 5 => (f32One * piDen, (2 * piNum * a).toNat)
  | _ => bandwidth p

/-- Chop frequency code (02 R37; 03 R80): 0 none, 1-5 for 24, 48, 96, 192, 384 kHz. -/
def chopCode (p : Prim) : Nat :=
  if p.ty = 7 ∨ p.ty = 8 ∨ p.ty = 10 then 0
  else
    let q := chopBandwidth p
    if (96000 : Int) * q.2 < q.1 then 0
    else ((List.range 5).find? fun i => decide (4 * q.1 ≤ 24000 * 2 ^ i * (q.2 : Int))).elim 0 (· + 1)

/-- The settling time of an AMP, INA or SUM at its bias code, in microseconds (02 R50; 03 R510). -/
def settleTime (p : Prim) : Q := ((if noiseGain p ≤ 16 * f32One then 20 else 80) * 1024, p.bias + 1)

/-! ### Achieved values (02 R35, R49, R50; 03 R52, R65, R510) -/

/-- Integer square root of a number below 2^(2 m), by bits. -/
def isqrtBits (m n : Nat) : Nat :=
  ((List.range m).reverse).foldl (fun r i => let x := r + 2 ^ i; if x * x ≤ n then x else r) 0

/-- The binary32 word nearest to `w` times the square root of `n / d` (log 14). -/
def f32MulSqrt (w n d : Nat) : Nat :=
  let v := (f32 w).toNat
  let x := v * v * n * 2 ^ 80 / d
  let r := isqrtBits 450 x
  f32Nat (if r * r = x ∧ (v * v * n * 2 ^ 80) % d = 0 then 2 * r else 2 * r + 1) (2 ^ 41 * 2 ^ 149)

/-- The NOISE of a record at the primitive's bias code (03 R510), from its white-noise floor at bias code 1,023. -/
def noiseAt (p : Prim) (base freq : Nat) : Nat :=
  let f := f32 freq
  if chopCode p = 0 ∧ 0 < f ∧ f < 10000 * f32One then f32MulSqrt base ((1024 * 10000 * f32One).toNat) ((p.bias + 1) * f.toNat)
  else f32MulSqrt base 1024 (p.bias + 1)

/-- A measured or predicted value, held within the limit that R49 or R50 gives its quantity for a calibrated primitive (02
R49, R50; 03 R52); where they give none, the value itself. Words of values not below 0 are in the order of the values. -/
def withinFigure (p : Prim) (code base : Nat) : Nat :=
  let atMost (n : Int) (d : Nat) : Nat := min base (f32Of n d)
  let atLeast (n : Int) (d : Nat) : Nat := max base (f32Of n d)
  match code with
  | 1 => if p.ty = 1 then atMost 6 1 else if p.ty = 3 then atMost 17 2 else base
  | 2 => if p.ty = 6 then base else if chopCode p = 0 then atMost 20 1 else atMost 1 2
  | 3 => if p.ty = 6 ∨ chopCode p = 0 then base else atMost 20 1
  | 5 => if p.ty = 3 then base else atMost 20 1
  | 6 => atMost 1 10
  | 7 => atMost 1 1
  | 8 => if f32 (p.par.getD 1 0) ≤ 10 * f32One then atLeast 80 1 else base
  | 9 => atLeast 140 1
  | 11 => atMost 60 1
  | _ => base

/-- The achieved value of a record of a primitive where it stands (03 R52, R66, R510): BANDWIDTH, SETTLING and POWER are
computed, the others follow from `base`. -/
def achievedOf (p : Prim) (r : SpecRec) : Nat :=
  match r.code with
  | 1 => noiseAt p (withinFigure p 1 r.base) r.freq
  | 4 => let q := bandwidth p; f32Of q.1 q.2
  | 10 => let q := settleTime p; f32Of q.1 q.2
  | 12 => f32Nat (primPower p) 256
  | c => withinFigure p c r.base

def SpecRec.on (r : SpecRec) (p : Prim) : SpecRec := { r with achieved := achievedOf p r }

/-- A record where the block of its primitive is at `t` whole degrees: the value of an AT_PLACEMENT record follows the temperature
(03 R64, R81). -/
def SpecRec.warmed (r : SpecRec) (t : Int) : SpecRec :=
  if r.cond ≠ 0 ∨ r.temp = t then r else { r with base := Config.atTemp r.base r.temp t % 2 ^ 32, temp := t }

/-- A graph with every record evaluated where its primitives stand, at the block temperature `t` of each primitive. -/
def Graph.evaluateAt (g : Graph) (t : Nat → Int) : Graph :=
  { g with specs := g.specs.map fun r => { r with achieved := achievedOf (g.prim r.prim) (r.warmed (t r.prim)) } }

/-- A graph with measured values, one word per record in order, for the records that `which` keeps, evaluated (03 R52). -/
def Graph.measure (g : Graph) (t : Nat → Int) (meas : List Nat) (which : SpecRec → Bool) : Graph :=
  let one (e : SpecRec × Nat) : SpecRec := if which e.1 then { e.1 with base := meas.getD e.2 e.1.base % 2 ^ 32, temp := t e.1.prim } else e.1
  ({ g with specs := g.specs.zipIdx.map one } : Graph).evaluateAt t

/-! ### Shortfalls and outcome (03 R54, R55) -/

/-- e^(y / 2^96), scaled by 2^96, for 0 at most y below 3 x 2^96. -/
def expFix (y : Int) : Int :=
  ((List.range 60).foldl (fun (a : Int × Int) (i : Nat) => (a.1 + a.2, a.2 * y / (2 ^ 96 * ((i : Int) + 1)))) (0, 2 ^ 96)).1

/-- 10^(x / 20) for x in units of 2^-149, as a rational (log 14); the exponent is held to -60 to 60. -/
def pow10dB (x : Int) : Q :=
  let u := 20 * f32One
  let k := x / u
  if 60 < k then (10 ^ 60, 1) else if k < -60 then (1, 10 ^ 60)
  else
    let v := expFix ((x % u) * 2 ^ 96 * 2302585092994045684017991454684364207601 / (u * 10 ^ 39))
    if 0 ≤ k then (v * 10 ^ k.toNat, 2 ^ 96) else (v, 2 ^ 96 * 10 ^ (-k).toNat)

/-- The shortfall of a MAX or MIN record (03 R54). -/
def shortfall (r : SpecRec) : Q :=
  let t := f32 r.target
  let a := f32 r.achieved
  if r.kind = 0 then (a - t, t.toNat)
  else if r.code = 8 ∨ r.code = 9 then
    let q := pow10dB (t - a)
    let n := q.1 - q.2
    (if t ≤ a then min n 0 else max n 1, q.2)
  else (t - a, t.toNat)

/-- Is the shortfall at most a degrade limit in 0.1 %? -/
def withinLimit (q : Q) (d : Nat) : Bool := decide (q.1 * 1000 ≤ (d : Int) * q.2)

/-- The result code of a specification entry (03 R80). -/
def specResult (g : Graph) (r : SpecRec) : Nat :=
  if r.kind = 2 then 0
  else
    let q := shortfall r
    if !q.pos then 0 else if !r.hard && withinLimit q g.degrade then 1 else 2

/-- The outcome of a graph that is built (03 R55, R78; 04, repair without a warm spare): 0 PLACED, 1 DEGRADED,
2 SPEC_UNMET, 3 NO_RESOURCE where a primitive has no cells. -/
def outcomeOf (g : Graph) : Nat :=
  if g.prims.any fun p => decide (p.c0 = 0xFFFF) then 3
  else if (g.prims.any fun p => wantsAntiAlias p && !canAntiAlias p) ∨ g.specs.any (fun r => specResult g r == 2) then 2
  else if g.specs.any (fun r => specResult g r == 1) then 1
  else 0

/-- The FINAL status of an outcome (03 R55). -/
def outcomeStatus (o : Nat) : Nat := if o = 0 then stOK else if o = 1 then stDEGRADED else if o = 2 then stSPEC_UNMET else stNO_RESOURCE

/-- The largest shortfall of some records, MINIMISE apart: none where there is no other. -/
def largestShort (rs : List SpecRec) : Option Q :=
  (rs.filter fun r => decide (r.kind ≠ 2)).foldl (fun b r =>
    let q := shortfall r
    match b with
    | none => some q
    | some m => if m.lt q then some q else some m) none

/-- Order of largest shortfalls: none comes first. -/
def shortLt : Option Q → Option Q → Bool
  | none, none => false
  | none, some _ => true
  | some _, none => false
  | some a, some b => a.lt b

/-- The bias code that POWER MINIMISE asks for (03 R66): the lowest at which every other record of the primitive is met, else
the one with the smallest largest shortfall, the lowest of equals. `rs` are the other records. -/
def leastBias (p : Prim) (rs : List SpecRec) : Nat :=
  let worst (c : Nat) : Option Q := largestShort (rs.map fun r => r.on { p with bias := c })
  let codes := (List.range 1009).map (15 + ·)
  match codes.find? fun c => match worst c with
    | none => true
    | some q => !q.pos with
  | some c => c
  | none => codes.foldl (fun b c => if shortLt (worst c) (worst b) then c else b) 15

/-- The bias code Tiller runs a primitive's cells at (03 R66), its records being `rs`. -/
def biasOf (p : Prim) (rs : List SpecRec) : Nat :=
  if p.ty = 7 then 0
  else match rs.find? fun r => r.code == 12 with
    | none => 1023
    | some r => if r.kind = 2 then leastBias p (rs.filter fun x => decide (x.code ≠ 12)) else biasForPower p.cells.length r.target

/-- The records of primitive `i`. -/
def Graph.specsOf (g : Graph) (i : Nat) : List SpecRec := g.specs.filter fun r => r.prim == i

/-! ### The report (03 R80) -/

/-- Does a pin hold for a first cell (03 R67)? -/
def pinHolds (p : Pin) (c0 : Nat) : Bool :=
  match p.scope with
  | 0 => decide (cellRegion c0 = p.num)
  | 1 => decide (c0 < 1024) && decide (c0 / 16 = p.num)
  | 2 => decide (c0 = p.num)
  | _ => true

/-- The accuracy that R50 gives a parameter of a primitive: `a` parts per million of the value asked for and `b`, in units of
2^-149, beside them; none where R50 gives none. -/
def tolerance (p : Prim) (i : Nat) : Option (Nat × Nat) :=
  match p.ty, i with
  | 2, 0 => some (20, 0)
  | 4, 0 => some (1000, 0)
  | 4, 1 => some (10000, 0)
  | 6, _ => some (20, 0)
  | 7, 0 => some (0, (f32One / 1000).toNat)
  | 9, 0 => some (100, 0)
  | 10, 0 => some (200, (idacFS p.mode * f32One.toNat) / 10000000000)
  | 11, 0 => some (1000, 0)
  | _, _ => none

/-- The achieved parameter of a report (03 R80): a control source unchanged, 0 where reserved; else a value of the chip within
the accuracy of R50 (R52), the value asked for where the chip's would lie outside it. -/
def achievedParam (p : Prim) (i : Nat) : Nat :=
  let w := p.par.getD i 0
  if paramCount p.ty ≤ i then 0
  else if (p.ty = 5 ∧ 1 ≤ i) ∨ p.ty = 8 then w
  else
    let v := Config.achieved p.c0 i w % 2 ^ 32
    match tolerance p i with
    | none => v
    | some (a, b) => if !f32Special v && decide (1000000 * (f32 v - f32 w).natAbs ≤ a * (f32 w).natAbs + 1000000 * b) then v else w

/-- The region a primitive entry shows: that of its cells, or the one of phase 2. -/
def primRegion (g : Graph) (i : Nat) : Nat :=
  let p := g.prim i
  if p.c0 < 1024 then cellRegion p.c0 else g.regions.getD i 0xFF

def primEntry (g : Graph) (i : Nat) : Bytes :=
  let p := g.prim i
  let ch := chopCode p
  let pinned := match p.pin with
    | none => false
    | some q => decide (p.c0 < 1024) && pinHolds q p.c0
  toLE 1 i ++ toLE 1 (primRegion g i) ++
  toLE 1 (b2n (decide (ch ≠ 0)) + 2 * b2n (switchedCap p) + 4 * b2n (decide (p.aa0 < 1024)) + 8 * b2n pinned) ++
  toLE 1 ch ++ toLE 2 p.c0 ++ toLE 2 p.c1 ++ toLE 2 p.bias ++ toLE 1 (scExponent p) ++ [0] ++
  toLE 4 (achievedParam p 0) ++ toLE 4 (achievedParam p 1) ++ toLE 4 (achievedParam p 2) ++
  toLE 4 (f32Nat (primPower p) 256) ++ toLE 2 p.aa0 ++ toLE 2 p.aa1

def specEntry (g : Graph) (r : SpecRec) : Bytes :=
  let q := shortfall r
  toLE 1 r.prim ++ toLE 1 r.code ++ toLE 1 r.kind ++ toLE 1 (specResult g r) ++ toLE 4 r.target ++ toLE 4 r.achieved ++
  toLE 4 (if r.kind = 2 then 0 else f32Of q.1 q.2)

/-- Worst-case series resistance in ohms, and shunt capacitance in 0.1 pF, of one hop (02 R42, R44). -/
def hopR (k : Nat) : Nat := if k < 4096 then 60 else if k < 5120 then 150 else if k < 5184 then 400 else 15
def hopC (k : Nat) : Nat := if k < 4096 then 15 else if k < 5120 then 50 else if k < 5184 then 150 else 0

/-- The tracks on the way from a net's driver to one load: its driver's own, those of the load's region and block, and the load's
excitation switch (02 R42-R44). -/
def pathTo (g : Graph) (n : Net) (c : Nat) : List Nat :=
  let dcell := if n.drvKind = 0 then (g.prim n.drv).outCell else 0xFFFF
  let dreg := if n.drvKind = 0 then cellRegion dcell else n.drv / 16
  let cell := if loadKind c = 0 then (g.prim (loadPrim c)).portCell (loadPort c) else 0xFFFF
  let reg := if loadKind c = 0 then cellRegion cell else if loadKind c = 1 then convRegion (loadConv c) else (loadBall c % 128) / 16
  let atHome := decide (loadKind c = 0) && decide (n.drvKind = 0) && decide (dcell / 16 = cell / 16)
  n.segs.filter fun k =>
    if k < 4096 then (decide (n.drvKind = 0) && decide (k = outTrack dcell)) || (decide (loadKind c = 0) && decide (k / 64 = cell / 16))
    else if k < 5120 then !atHome && (decide ((k - 4096) / 128 = dreg) || decide ((k - 4096) / 128 = reg))
    else if k < 5184 then decide (reg ≠ dreg)
    else decide (loadKind c = 2) && decide (k = ballSeg (loadBall c))

/-- A net entry (03 R80): the series resistance of the worst path from the driver to a load, or of the driver's track alone, and
the capacitance of the whole net (DEDUCED, log 13). -/
def netEntry (g : Graph) (n : Net) (i : Nat) : Bytes :=
  let tier (lo hi : Nat) : Nat := b2n (n.segs.any fun k => decide (lo ≤ k) && decide (k < hi))
  let convs := (n.loads.filter fun c => loadKind c == 1).map loadConv
  let entry (c : Nat) : Bytes := toLE 1 c ++ [0] ++ toLE 2 (netAtRegion n (convRegion c))
  toLE 1 i ++ toLE 1 (tier 0 4096 + 2 * tier 4096 5120 + 4 * tier 5120 5184) ++ toLE 1 n.segs.length ++ [0] ++
  toLE 4 (f32Nat ((n.loads.map fun c => ((pathTo g n c).map hopR).sum).foldl max 0) 1) ++ toLE 4 (f32Nat ((n.segs.map hopC).sum) 10) ++
  slice (convs.flatMap entry) 0 16 ++ zeros 4

/-- The placement report of a graph. -/
def reportBytes (g : Graph) (handle : Nat) (predicted : Bool) : Bytes :=
  toLE 2 1 ++ toLE 1 g.outcome ++ toLE 1 (b2n predicted) ++ toLE 2 handle ++ toLE 1 g.prims.length ++
  toLE 1 g.spareCells.length ++ toLE 2 g.nets.length ++ toLE 2 g.specs.length ++ toLE 4 g.placeTime ++
  toLE 4 (graphPowerUW g) ++ toLE 2 (ofI 16 g.temp) ++ zeros 2 ++ toLE 8 g.userTag ++
  ((List.range g.prims.length).flatMap fun i => primEntry g i) ++ (g.specs.flatMap fun r => specEntry g r) ++
  (g.nets.zipIdx.flatMap fun e => netEntry g e.1 e.2)

/-- The junction temperature a report gives (03 R80): that of the block of the first placed primitive, the region's
first block before placement (DESIGN CHOICE, log 13). -/
def State.graphTemp (s : State) (g : Graph) : Int :=
  match g.cells with
  | c :: _ => s.blockTemp (c / 16)
  | [] => s.blockTemp (8 * (g.regions.getD 0 0))

/-- The temperature of the block of a primitive, in whole degrees. -/
def State.primTemp (s : State) (g : Graph) (i : Nat) : Int := s.wholeTemp ((g.prim i).c0 / 16)

/-- A graph evaluated afresh (03 R81). -/
def State.evaluate (s : State) (g : Graph) : Graph := g.evaluateAt (s.primTemp g)

end Sys2Proof.Machine
end

