-- ==== Sys2Proof/Machine/ConvOps.lean ====
section
/-! DEFINITION. Shared operations over converters: rates, filters, instants, taps, what a function reaches, staged
sets, samples and their flags (05_precision_conversion.md, 06_wideband_conversion.md, 02_analogue_cells.md R39, R40,
04_transplant_and_stolon.md R104, R108, R112). -/

namespace Sys2Proof.Machine

/-! ### Calibration objects that fall due (08 R218) -/

/-- The cells calibrated together with a cell (08 R213, R223): those of its primitive, or of its anti-alias stage. -/
def State.calGroup (s : State) (n : Nat) : List Nat :=
  let fn : Option (Nat × Nat) := match (s.cell n).use with
    | .fn g p => some (g, p)
    | .dest g p => some (g, p)
    | _ => none
  match fn with
  | none => [n]
  | some (slot, i) => match s.graph slot with
    | none => [n]
    | some g =>
      let p := g.prim i
      if n = p.c0 ∨ n = p.c1 then realCells [p.c0, p.c1]
      else if n = p.aa0 ∨ n = p.aa1 then realCells [p.aa0, p.aa1]
      else [n]

/-- The object that stands for one in the due list: the first cell of a group. -/
def State.calLeader (s : State) (kind idx : Nat) : Nat := if kind = 0 then (s.calGroup idx).headD idx else idx

/-- Mark the status of an object DUE (08 R229): kind 0 cell, 1 converter, 2 DAC channel. -/
def State.setDueFlag (s : State) (kind idx : Nat) (v : Bool) : State :=
  match kind with
  | 0 => (s.calGroup idx).foldl (fun s n => s.setCell n { s.cell n with due := v }) s
  | 1 => s.setConv idx { s.conv idx with due := v }
  | _ => s.setDac idx { s.dac idx with due := v }

/-- An object becomes due for a run (08 R218), or a CAL_RUN joins the one in progress (R228). -/
def State.makeDue (s : State) (kind idx0 : Nat) (temp : Int) (move : Nat) (cmds : List Nat) : State :=
  let idx := s.calLeader kind idx0
  let mine (k i : Nat) : Bool := k == kind && i == idx
  if !cmds.isEmpty && s.cal.runs.any (fun e => mine e.kind e.idx) then
    { s with cal := { s.cal with runs := s.cal.runs.map fun e => if mine e.kind e.idx then { e with cmds := e.cmds ++ cmds } else e } }
  else
    let d := s.cal.due
    let d' := if d.any (fun e => mine e.kind e.idx) then
        d.map fun e => if mine e.kind e.idx then { e with move := max e.move move, temp := temp, cmds := e.cmds ++ cmds } else e
      else d ++ [{ kind := kind, idx := idx, since := s.now, move := move, cmds := cmds, temp := temp }]
    ({ s with cal := { s.cal with due := d' } }).setDueFlag kind idx true

/-- A calibration status record (08 R229). -/
def statusBytes (obj : Nat) (frozen due : Bool) (c : CalStatus) (time : Option Nat) (temp : Int) : Bytes :=
  toLE 2 obj ++ toLE 1 (b2n frozen + 2 * b2n due + 4 * b2n c.lastFailed + 8 * b2n c.lastExternal) ++ toLE 1 (min c.consec 255) ++
  toLE 4 c.runs ++ toLE 4 c.applied ++ toLE 4 c.failed ++ toLE 8 (time.getD 0) ++ toLE 2 (ofI 16 temp) ++
  toLE 2 (ofI 16 c.offStep) ++ toLE 2 (ofI 16 c.gainStep) ++ zeros 2

/-- The status record of an object. -/
def State.calBytes (s : State) (kind idx : Nat) : Bytes :=
  match kind with
  | 0 => let c := s.cell idx; statusBytes idx c.frozen c.due c.status c.calTime c.calTemp
  | 1 => let c := s.conv idx; statusBytes idx false c.due c.status c.calTime c.calTemp
  | _ => let c := s.dac idx; statusBytes (0x400 + idx) false c.due c.status c.calTime c.calTemp

/-- Is a DAC channel enabled (07 R195)? -/
def Dac.enabled (d : Dac) : Bool := decide (4 ≤ d.upStep)

/-- Does a cell carry a function, or stand as a spare? -/
def Cell.working (c : Cell) : Bool :=
  match c.use with
  | .free => false
  | .dest _ _ => false
  | _ => true

/-- Is an object one that falls due by itself (08 R218, R219, R230)? -/
def State.dueKind (s : State) (kind idx : Nat) : Bool :=
  match kind with
  | 0 => decide (idx < 1024) && (s.cell idx).working
  | 1 => decide (idx < 192) && decide ((s.conv idx).cfg.mode ≠ 0)
  | _ => decide (idx < 64) && (s.dac idx).enabled

/-- Cells of a region. -/
def regionCells (r : Nat) : List Nat := (List.range 128).map (128 * r + ·)

/-- Converters of a region. -/
def regionConvs (r : Nat) : List Nat := (List.range 8).map (8 * r + ·) ++ (List.range 16).map (64 + 16 * r + ·)

/-- DAC channels of a region. -/
def regionDacs (r : Nat) : List Nat := (List.range 8).map (8 * r + ·)

/-- Every object of a region that falls due by itself. -/
def State.regionObjs (s : State) (r : Nat) : List (Nat × Nat) :=
  ((regionCells r).map (0, ·) ++ (regionConvs r).map (1, ·) ++ (regionDacs r).map (2, ·)).filter fun e => s.dueKind e.1 e.2

/-- The objects a CAL_RUN names (08 R230). -/
def State.calTargets (s : State) (kind idx : Nat) : List (Nat × Nat) :=
  match kind with
  | 3 => s.regionObjs idx
  | 4 => (List.range 8).flatMap fun r => s.regionObjs r
  | k => [(k, idx)]

/-- The report of a CAL_RUN with REPORT: a status record for each object it names (08 R229, R230). DESIGN CHOICE (log 13):
for a region or chip, those of the objects it runs, cells first, then converters, then channels. -/
def State.reportCals (s : State) (slot : Nat) : State :=
  let a := (s.hnd slot).args
  if bit (byteAt a 1) 2 then
    s.hostWrite (fld a 8 8) ((s.calTargets (byteAt a 0) (fld a 2 2)).flatMap fun e => s.calBytes e.1 e.2)
  else s

/-- One run that a CAL_RUN asked for has ended: completed, failed, or skipped (08 R230). -/
def State.calEnded (s : State) (slot done failed : Nat) : State :=
  match (s.hnd slot).work with
  | .cal left d f stop =>
    let left := left - 1
    let d := d + done
    let f := f + failed
    if left = 0 then (s.reportCals slot).final slot (if stop then stABORTED else if f = 0 then stOK else stDEGRADED) d f
    else s.setWork slot (.cal left d f stop)
  | _ => s

/-- A run in progress is discarded without counting (08 R228): the object is due again, with the commands that wait. -/
def State.dropRun (s : State) (kind idx0 : Nat) : State :=
  let idx := s.calLeader kind idx0
  match s.cal.runs.find? fun e => e.kind == kind && e.idx == idx with
  | none => s
  | some e =>
    let s1 : State := { s with cal := { s.cal with runs := s.cal.runs.filter fun x => decide (x ≠ e) } }
    let s2 := if kind = 1 then s1.setConv idx { s1.conv idx with comp := if (s1.conv idx).comp = 2 then 0 else (s1.conv idx).comp } else s1
    s2.makeDue kind idx e.temp 0 e.cmds

/-- An object is no longer one to calibrate: its run and its due entry go, and commands that wait for them skip it. -/
def State.forgetCal (s : State) (kind idx0 : Nat) : State :=
  let s1 := s.dropRun kind idx0
  let idx := s1.calLeader kind idx0
  let es := s1.cal.due.filter fun e => e.kind == kind && e.idx == idx
  let s2 : State := ({ s1 with cal := { s1.cal with due := s1.cal.due.filter fun e => !(e.kind == kind && e.idx == idx) } }).setDueFlag kind idx false
  es.foldl (fun s e => e.cmds.foldl (fun s c => s.calEnded c 0 0) s) s2

/-- The status counts of an object after a run that completed (08 R229; R225 sets the steps). -/
def CalStatus.completed (c : CalStatus) (r : Option CalApply) : CalStatus :=
  let c1 : CalStatus := { c with lastFailed := false, lastExternal := false, consec := 0, runs := (c.runs + 1) % 2 ^ 32 }
  match r with
  | none => c1
  | some r => { c1 with applied := (c1.applied + 1) % 2 ^ 32, offStep := clampI (-(2 ^ 15)) (2 ^ 15 - 1) r.offStep,
                        gainStep := clampI (-(2 ^ 15)) (2 ^ 15 - 1) r.gainStep }

/-- The ranks and details of a result, written to cell `n`, which stands at place `j` of its group (08 R225). -/
def State.writeRanks (s : State) (n j : Nat) (r : CalApply) : State :=
  let s1 := r.ranks.foldl (fun s e =>
    if e.1 / 48 = j ∧ e.1 % 48 < 40 then
      let k := 48 * n + e.1 % 48
      s.setLed k { s.led k with rank := min e.2 0xFFF }
    else s) s
  r.details.foldl (fun s e =>
    let k := 48 * n + e.1 % 48
    if e.1 / 48 ≠ j then s
    else if e.1 % 48 < 4 then s.setLed k { s.led k with detail := (s.led k).detail / 2 ^ 17 * 2 ^ 17 + ofI 10 e.2.1 * 2 ^ 7 + ofI 7 e.2.2 }
    else if e.1 % 48 < 22 then s.setLed k { s.led k with detail := (s.led k).detail / 2 ^ 13 * 2 ^ 13 + ofI 13 e.2.1 }
    else s) s1

/-- Region of a calibration object. -/
def objRegion (kind idx : Nat) : Nat := if kind = 0 then idx / 128 else if kind = 1 then convRegion idx else idx / 8

/-- The block whose sensor an object is read against (08 R218). -/
def objBlock (kind idx : Nat) : Nat :=
  if kind = 0 then idx / 16
  else if kind = 1 then (if idx < 64 then idx else 8 * ((idx - 64) / 16) + ((idx - 64) % 16) / 2)
  else idx

/-- The temperature an object is read against now. -/
def State.objTemp (s : State) (kind idx : Nat) : Int := s.blockTemp (objBlock kind idx)

/-! ### Rates and filters (05 R128, R135, R136; 06 R160, R165, R166) -/

def isWM (c : Nat) : Bool := decide (64 ≤ c)

/-- The output period of a rate code, in ticks, as (numerator, denominator). -/
def ratePeriod (c code : Nat) : Nat × Nat :=
  if isWM c then (4000 / 2 ^ code, 1)
  else match code with
    | 0 => (100000000, 1) | 1 => (50000000, 1) | 2 => (25000000, 1) | 3 => (12500000, 1) | 4 => (5000000, 1)
    | 5 => (2500000, 1) | 6 => (1000000, 1) | 7 => (500000, 1) | 8 => (250000, 1) | 9 => (125000, 1)
    | 10 => (50000, 1) | 11 => (25000, 1) | 12 => (31250, 3) | 13 => (15625, 3) | _ => (15625, 6)

/-- Window in periods, and settle count in outputs, of a filter code. -/
def filtWindow (c filt : Nat) : Nat :=
  if isWM c then (if filt = 0 then 3 else 12) else if filt = 0 then 3 else if filt = 1 then 5 else 7

/-- Analogue settle of a gain code, in ticks. -/
def gainSettle (c gain : Nat) : Nat :=
  if isWM c then (if gain < 4 then 500 else 1250) else if gain < 6 then 5000 else 20000

/-- A step's extra settle, in ticks (05 R141, 06 R169). -/
def extraSettle (c extra : Nat) : Nat := if isWM c then 250 * extra else 2500 * extra

/-- The fixed pipeline latency, in ticks (05 R136, 06 R166). -/
def convLatency (c : Nat) : Nat := if isWM c then 50 else 150

/-- The first multiplexer entry past the taps (05 R132, 06 R163). -/
def tapCount (c : Nat) : Nat := if isWM c then 12 else 32

/-- Gain codes of a converter. -/
def gainCodes (c : Nat) : Nat := if isWM c then 6 else 9

/-- Is there an output instant of the period at tick `t` (05 R137, R138)? -/
def atInstant (p : Nat × Nat) (t : Nat) : Bool :=
  let k := (t * p.2 + p.1 - 1) / p.1
  decide (k * p.1 < (t + 1) * p.2)

/-- Settling samples of a change with analogue settle `num / den` ticks (05 R149). -/
def settleCount (c : Nat) (e : SeqStep) (a : Nat × Nat) : Nat :=
  let p := ratePeriod c e.rate
  let d := a.2 * p.1
  filtWindow c e.filt + (a.1 * p.2 + d - 1) / d

/-- A step record (05 R141, 06 R169). -/
def readStep (c : Nat) (b : Bytes) (o : Nat) : SeqStep :=
  let x := byteAt b (o + 2)
  { entry := byteAt b o, gain := byteAt b (o + 1), rate := if isWM c then x % 8 else x % 16,
    filt := if isWM c then bits x 3 1 else bits x 4 2, extra := byteAt b (o + 3), count := fld b (o + 4) 2 }

/-- Do two steps select the same settings (05 R142)? -/
def sameSettings (a b : SeqStep) : Bool :=
  decide (a.entry = b.entry) && decide (a.gain = b.gain) && decide (a.rate = b.rate) && decide (a.filt = b.filt)

/-- The configuration record in effect (05 R139). -/
structure CfgSrc where
  kind : Nat
  index : Nat

/-- The trigger source of a configuration. -/
def ConvCfg.source (c : ConvCfg) : CfgSrc := { kind := c.src / 2 ^ 28, index := c.src % 2 ^ 28 }

/-- The configuration record (05 R139). -/
def readCfg (b : Bytes) : ConvCfg :=
  { mode := byteAt b 1, policy := byteAt b 2, noChop := bit (byteAt b 3) 0, src := fld b 4 4, edge := byteAt b 8,
    stream := byteAt b 9, delay := fld b 12 4 }

def cfgBytes (c : Nat) (g : ConvCfg) : Bytes :=
  toLE 1 c ++ toLE 1 g.mode ++ toLE 1 g.policy ++ toLE 1 (b2n g.noChop) ++ toLE 4 g.src ++ toLE 1 g.edge ++ toLE 1 g.stream ++
  zeros 2 ++ toLE 4 g.delay

/-! ### Taps (05 R133, 06 R164) -/

/-- Does a graph own a segment now? -/
def State.segOwned (s : State) (k : Nat) : Bool := s.graphs.any fun e => e.2.nets.any fun n => n.segs.contains k

/-- Is tap `i` of a converter free (05 R133)? -/
def State.tapFree (s : State) (c i : Nat) : Bool :=
  let v := s.conv c
  let t := Tbl.get {} i v.taps
  (decide (t.seg = 0xFFFF) || !s.segOwned t.seg) &&
  !(v.steps.any fun e => decide (e.entry = 16 + i)) && !(v.waits.any fun w => w.2.2.any fun e => decide (e.entry = 16 + i))

/-- The CALSTEP mark of samples of an entry, at one gain code or any (05 R151, R154). -/
def calMark (entry : Nat) (gain : Option Nat) : Nat := entry + (match gain with
  | none => 0
  | some k => 128 * (k + 1))

/-- Does a mark wait for a sample of these settings? -/
def markHits (e : SeqStep) (m : Nat) : Bool :=
  (decide (m % 128 = 64) || decide (m % 128 = e.entry)) && (decide (m / 128 = 0) || decide (m / 128 = e.gain + 1))

/-- The next delivered samples of these marks carry CALSTEP (05 R151). -/
def State.markCal (s : State) (c : Nat) (marks : List Nat) : State :=
  let v := s.conv c
  s.setConv c { v with calMarks := v.calMarks ++ marks.filter fun e => !v.calMarks.contains e }

/-- Stop applying the system calibration sets of a tap that another graph takes (05 R155); samples that a set no longer corrects
begin with CALSTEP (R151). -/
def State.staleSets (s : State) (c entry slot : Nat) : State :=
  let v := s.conv c
  let hit (m : SysSet) : Bool := decide (m.entry = entry) && decide (m.owner ≠ slot) && !m.stale
  if v.sys.any hit then
    ((s.setConv c { v with sys := v.sys.map fun m => if hit m then { m with stale := true } else m }).markCal c
      ((v.sys.filter fun m => hit m && m.inUse).map fun m => calMark entry (some m.gcode))).log 0x30B 3 (1 * 2 ^ 24 + c) entry slot
  else s

/-- The converter loads of a graph, each as the converter and the segment it reads. -/
def Graph.convLoads (g : Graph) : List (Nat × Nat) :=
  g.nets.flatMap fun n => (n.loads.filter fun l => loadKind l == 1).map fun l => (loadConv l, netAtRegion n (convRegion (loadConv l)))

/-- The taps that the converter loads of a graph take, each the lowest of its converter that is free and that no earlier load
has taken (05 R133), as (converter, tap, segment); a load that finds none is left out. -/
def State.tapsFor (s : State) (g : Graph) : List (Nat × Nat × Nat) :=
  g.convLoads.foldl (fun l e =>
    match (List.range (tapCount e.1)).find? fun i => s.tapFree e.1 i && !l.any fun x => decide (x.1 = e.1) && decide (x.2.1 = i) with
    | none => l
    | some i => l ++ [(e.1, i, e.2)]) []

/-- Connect taps to segments of a graph. -/
def State.takeTaps (s : State) (slot : Nat) (taps : List (Nat × Nat × Nat)) : State :=
  taps.foldl (fun s e =>
    let v := s.conv e.1
    (s.setConv e.1 { v with taps := Tbl.set {} e.2.1 { seg := e.2.2, owner := slot } v.taps }).staleSets e.1 (16 + e.2.1) slot) s

/-- The multiplexer entries of a converter that carry a segment of a graph. -/
def State.entriesOf (s : State) (c seg slot : Nat) : List Nat :=
  ((List.range (tapCount c)).filter fun i =>
    let t := Tbl.get {} i (s.conv c).taps
    decide (t.seg = seg) && decide (t.owner = slot)).map (16 + ·)

/-- The tap entries of a QUERY reply (12 R336; 05 R133): the segment, and the slot of the graph that owns it or, where none does
any more, of the one that the tap was assigned for. -/
def State.tapWord (s : State) (c i : Nat) : Nat :=
  if tapCount c ≤ i ∨ s.tapFree c i then 0xFFFFFFFF
  else
    let t := Tbl.get {} i (s.conv c).taps
    let owner := (s.graphs.find? fun e => e.2.nets.any fun n => n.segs.contains t.seg).elim t.owner (·.1)
    t.seg + owner * 65536

/-! ### What a function reaches (02 R39; 04 R101) -/

/-- Primitives downstream of a set, one hop per unit of fuel. -/
def downs (g : Graph) : Nat → List Nat → List Nat
  | 0, l => l
  | f + 1, l =>
    downs g f (l ++ (g.nets.filter fun n => decide (n.drvKind = 0) && l.contains n.drv).flatMap fun n =>
      ((n.loads.filter fun c => loadKind c == 0).map loadPrim).filter fun p => !l.contains p).eraseDups

/-- A primitive with everything downstream of it. -/
def downstream (g : Graph) (i : Nat) : List Nat := downs g g.prims.length [i]

/-- The converters a primitive's output reaches, each with the segment it reads there. -/
def reaches (g : Graph) (i : Nat) : List (Nat × Nat) :=
  (g.nets.filter fun n => decide (n.drvKind = 0) && (downstream g i).contains n.drv).flatMap fun n =>
    (n.loads.filter fun c => loadKind c == 1).map fun c => (loadConv c, netAtRegion n (convRegion (loadConv c)))

/-- Does a primitive's own output net load a converter (04 R101)? -/
def outer (g : Graph) (i : Nat) : Bool := g.nets.any fun n => n.drvKind == 0 && n.drv == i && n.loads.any fun c => loadKind c == 1

/-- Balls that a primitive's output net drives. -/
def ballsOf (g : Graph) (i : Nat) : List Nat :=
  (g.nets.filter fun n => n.drvKind == 0 && n.drv == i).flatMap fun n => (n.loads.filter fun c => loadKind c == 2).map loadBall

/-- The output period of a converter: that of the settings in effect, else of step 0 of its sequence. -/
def Conv.outPeriod (v : Conv) (c : Nat) : Option (Nat × Nat) :=
  match v.eff with
  | some e => some (ratePeriod c e.rate)
  | none => v.steps.head?.map fun e => ratePeriod c e.rate

/-- Is converter `a` ahead of `b` in the choice of R39: the higher rate, then the lower number? One that holds no sequence has no
rate and comes last. -/
def State.rateLt (s : State) (a b : Nat) : Bool :=
  match (s.conv a).outPeriod a, (s.conv b).outPeriod b with
  | some p, some q => decide (p.1 * q.2 < q.1 * p.2) || (decide (p.1 * q.2 = q.1 * p.2) && decide (a < b))
  | some _, none => true
  | none, some _ => false
  | none, none => decide (a < b)

/-- The converter whose output instants are a function's sample boundary (02 R39; 05 R137): of those that the output reaches and
that are not in mode OFF, the one of the highest rate, then the lowest number. -/
def State.boundaryConv (s : State) (g : Graph) (i : Nat) : Option Nat :=
  (reaches g i).foldl (fun b e =>
    if (s.conv e.1).cfg.mode = 0 then b
    else match b with
      | none => some e.1
      | some c => if s.rateLt e.1 c then some e.1 else b) none

/-- The function that uses a cell: graph slot and primitive. -/
def cellFn (c : Cell) : Option (Nat × Nat) :=
  match c.use with
  | .fn g p => some (g, p)
  | .dest g p => some (g, p)
  | _ => none

/-- The sample boundary of a cell's function: a converter, or none for the apply strobe. -/
def State.cellBoundary (s : State) (c : Cell) : Option Nat :=
  match cellFn c with
  | none => none
  | some (g, p) => match s.graph g with
    | none => none
    | some gr => s.boundaryConv gr p

/-! ### SETTLING and marks (05 R148-R151) -/

/-- A change in a converter's signal path takes effect, with an analogue settle of `a` ticks (05 R149). -/
def State.settleConv (s : State) (c : Nat) (a : Nat × Nat) : State :=
  let v := s.conv c
  match v.eff with
  | none => s
  | some e => s.setConv c { v with settle := max v.settle (settleCount c e a) }

/-- Is a system calibration measurement running on an entry that a function reaches (08 R228)? -/
def State.measuring (s : State) (slot : Nat) (g : Graph) (i : Nat) : Bool :=
  (reaches g i).any fun r => (s.conv r.1).meas.any fun m => !m.held && (s.entriesOf r.1 r.2 slot).contains m.entry

/-! ### Staged sets (02 R39, R40; 08 R223, R228) -/

/-- Merge settings into a cell's staged set; a cell without a function applies them at once (02 R39, R40). -/
def mergeStaged (old new : List (Nat × Int)) : List (Nat × Int) :=
  (old.filter fun e => !(new.any fun n => n.1 == e.1)) ++ new

/-- The nets that touch a primitive, by number, with the internal net of its anti-alias stage. -/
def netsTouching (g : Graph) (i : Nat) : List Nat :=
  g.netIdx.filter fun j =>
    if j < g.nets.length then
      let n := g.nets.getD j noNet
      (n.drvKind == 0 && n.drv == i) || n.loads.any fun c => loadKind c == 0 && loadPrim c == i
    else decide (j = g.nets.length + i)

/-- Primitive `i` as it would stand on a destination. -/
def Prim.on (p : Prim) (d : PlaceP) : Prim := { p with c0 := d.c0, c1 := d.c1, aa0 := d.aa0, aa1 := d.aa1, bias := d.bias }

/-- A primitive on new cells in its graph: its nets on tracks that serve it there, those in `held` before those that they have,
and the taps of its converter loads retargeted in place (04 R105; 05 R133). -/
def State.swapPlaces (s : State) (slot i : Nat) (d : PlaceP) (held : List (Nat × List Nat)) : State :=
  match s.graph slot with
  | none => s
  | some g =>
    let g0 := g.setPrim i ((g.prim i).on d)
    let heldFor (j : Nat) : List Nat := (held.filter fun e => e.1 == j).flatMap (·.2)
    let routes := (s.routeAll g0 (fun j => heldFor j ++ g.segsOf j) (netsTouching g0 i)).getD held
    let g1 := g0.route routes
    let kept := g1.allSegs
    let s1 := (g.allSegs ++ held.flatMap (·.2)).foldl (fun s k => if kept.contains k then s else s.freeSeg k) s
    let s2 := (g.convLoads.zip g1.convLoads).foldl (fun s e =>
      let v := s.conv e.1.1
      s.setConv e.1.1 { v with taps := v.taps.map fun t => if t.2.seg = e.1.2 ∧ t.2.owner = slot then (t.1, { t.2 with seg := e.2.2 }) else t }) s1
    let s3 := (s2.setGraph slot (some g1)).takeRoutes slot routes true
    ((List.range g1.prims.length).foldl (fun s j => s.joinPorts g1 j) s3).controls g1

/-- Configure the cells of a primitive, those of its anti-alias stage too (04 R102; 03 R78). -/
def State.configPrim (s : State) (p : Prim) : State :=
  let s1 := (realCells [p.c0, p.c1]).foldl (fun s n => s.configCell n p.conf) s
  (realCells [p.aa0, p.aa1]).foldl (fun s n => s.configCell n (aaConf (scExponent p))) s1

/-- What a GRAPH_TUNE has staged for a primitive takes effect (03 R86): its parameters and bias code, an anti-alias stage that it
now needs or no longer needs, and its controls (02 R46). -/
def State.applyNext (s : State) (slot i : Nat) : State :=
  match s.graph slot with
  | none => s
  | some g => match g.next.find? fun n => n.prim == i with
    | none => s
    | some n =>
      let p := g.prim i
      let p1 : Prim := { p with mode := n.mode, par := n.par, bias := n.bias }
      let s1 := s.setGraph slot (some { g.setPrim i p1 with next := g.next.filter fun x => x.prim != i })
      let s2 := if n.aa0 = p.aa0 ∧ n.aa1 = p.aa1 then s1
        else
          let d : PlaceP := { prim := i, c0 := p.c0, c1 := p.c1, aa0 := n.aa0, aa1 := n.aa1, bias := n.bias }
          (realCells [p.aa0, p.aa1]).foldl (fun s n => s.freeCell n) (s1.swapPlaces slot i d n.nets)
      match s2.graph slot with
      | none => s2
      | some g2 =>
        let s3 := (g2.prim i).cells.foldl (fun s c => s.setCell c { s.cell c with bias := n.bias }) s2
        let g3 := s3.evaluate g2
        ((s3.configPrim (g3.prim i)).setGraph slot (some g3)).controls g3

/-- Write one setting of a cell: a register, 43 the bias code, 42 the active pair; 44 stands for what a GRAPH_TUNE has staged. -/
def State.writeSetting (s : State) (n : Nat) (e : Nat × Int) : State :=
  let c := s.cell n
  if e.1 = 43 then s.setCell n { c with bias := e.2.toNat }
  else if e.1 = 42 then s.activatePair n e.2.toNat
  else if e.1 = 44 then (match cellFn c with
    | some (slot, i) => s.applyNext slot i
    | none => s)
  else if e.1 = 40 ∨ e.1 = 41 then (s.setCell n { c with regs := Tbl.set 0 e.1 e.2 c.regs }).restand n (decide (c.use ≠ .free))
  else
    let s1 := s.setCell n { c with regs := Tbl.set 0 e.1 e.2 c.regs }
    if 22 ≤ e.1 ∧ e.1 < 40 then
      let k := 48 * n + e.1
      s1.setLed k { s1.led k with detail := (s1.led k).detail / 2 ^ 10 * 2 ^ 10 + ofI 10 e.2 }
    else s1

/-- Apply a cell's staged set: the settings, the CALSTEP marks of the converters it reaches (02 R40) and the SETTLING
of a change of signal path (05 R148); where several primitives change at one boundary, the settle times of those on a
path add up, which the caller does through `settles`. -/
def State.applyCell (s : State) (n : Nat) : State :=
  let c := s.cell n
  let s0 := c.staged.foldl (fun s e => s.writeSetting n e) s
  let s1 := match c.calRes with
    | none => s0
    | some r =>
      let w := s0.cell n
      (s0.setCell n { w with calTime := some s0.now, calTemp := r.temp, status := w.status.completed (some r) }).writeRanks n ((s0.calGroup n).idxOf n) r
  let s15 := s1.setCell n { s1.cell n with staged := [], stagedCal := false, stagedSettle := none, calRes := none }
  -- a GRAPH_TUNE change makes the cell due (08 R218)
  let s2 := if c.staged.any fun e => e.1 == 44 then s15.makeDue 0 n (s15.blockTemp (n / 16)) 0 [] else s15
  if c.stagedCal then
    match cellFn c with
    | none => s2
    | some (slot, p) => match s2.graph slot with
      | none => s2
      | some g => (reaches g p).foldl (fun s r => s.markCal r.1 ((s.entriesOf r.1 r.2 slot).map fun e => calMark e none)) s2
  else s2

/-- Add two settle times. -/
def addSettle (a b : Nat × Nat) : Nat × Nat := (a.1 * b.2 + b.1 * a.2, a.2 * b.2)

/-- The settle time that the staged sets of some cells bring to a converter's selected path (05 R148). -/
def State.stagedSettles (s : State) (ns : List Nat) (conv : Nat) : Option (Nat × Nat) :=
  ns.foldl (fun a n =>
    let c := s.cell n
    match c.stagedSettle, cellFn c with
    | some q, some (slot, p) =>
      match s.graph slot with
      | none => a
      | some g =>
        let entry := match (s.conv conv).eff with
          | none => 64
          | some e => e.entry
        if (reaches g p).any fun r => decide (r.1 = conv) && (s.entriesOf conv r.2 slot).contains entry then
          some (match a with
            | none => q
            | some b => addSettle b q)
        else a
    | _, _ => a) none

/-- What a GRAPH_TUNE has staged for a graph is dropped: its settings, and the cells and tracks taken for an anti-alias stage. -/
def State.dropNext (s : State) (gs : Nat) : State :=
  match s.graph gs with
  | none => s
  | some g =>
    let new := g.next.flatMap fun n => (realCells [n.aa0, n.aa1]).filter fun c => decide ((s.cell c).use = .dest gs n.prim)
    let segs := (g.next.flatMap fun n => n.nets.flatMap (·.2)).filter fun k => !g.allSegs.contains k
    let s1 := segs.foldl (fun s k => s.freeSeg k) (new.foldl (fun s n => s.freeCell n) s)
    let s2 := g.cells.foldl (fun s n =>
      let c := s.cell n
      if c.staged.any fun e => e.1 == 44 then s.setCell n { c with staged := c.staged.filter fun e => e.1 != 44, stagedSettle := none } else s) s1
    s2.setGraph gs (some { g with next := [] })

/-- A graph as it was before a GRAPH_TUNE or GRAPH_PIN that goes no further (03 R82, R86): the former parameters, records and
pins on the cells of now. -/
def State.revertGraph (s0 : State) (gs : Nat) : State :=
  let s := s0.dropNext gs
  match s.graph gs with
  | none => s
  | some g => match g.former with
    | none => s
    | some (ps, ss, d, o) =>
      let back (p q : Prim) : Prim := { p with mode := q.mode, flags := q.flags, par := q.par, pin := q.pin, bias := if 1024 ≤ p.c0 then p.bias else q.bias }
      let g1 : Graph := { g with prims := g.prims.zipIdx.map fun e => (ps[e.2]?).elim e.1 (back e.1), specs := ss, degrade := d, outcome := o, former := none }
      let s1 := (List.range g.prims.length).foldl (fun s i =>
        let p := g1.prim i
        if p = g.prim i then s
        else (p.cells.foldl (fun s n => s.setCell n { s.cell n with bias := p.bias }) s).configPrim p) (s.setGraph gs (some g1))
      s1.controls g1

/-- The GRAPH_TUNE commands whose settings are all in effect end (03 R86): no change of the graph is left to apply and no move
of it for the tune is left. What was measured on the way may still show that the records are not met: then nothing changes. -/
def State.endTunes (s : State) : State :=
  s.inFlight.foldl (fun s e =>
    match e.2.work with
    | .tune gs false _ =>
      match s.graph gs with
      | none => s
      | some g0 =>
        if !g0.next.isEmpty || s.til.moves.any (fun m => m.graph == gs && m.why == .tune) then s
        else
          let g := s.evaluate g0
          let o := outcomeOf g
          if 2 ≤ o then (s.revertGraph gs).final e.1 (outcomeStatus o) o (((s.revertGraph gs).graph gs).elim 0 graphPowerUW)
          else
            let addr := fld (s.hnd e.1).args 16 8
            let g' : Graph := { g with outcome := o, former := none }
            let s1 := if addr = 0 then s else s.hostWrite addr (reportBytes g' ((s.hnd gs).value gs) false)
            (s1.setGraph gs (some g')).final e.1 (outcomeStatus o) o (graphPowerUW g')
    | _ => s) s

/-- Apply the staged sets of some cells at one boundary. -/
def State.applyCells (s : State) (ns : List Nat) : State :=
  if ns.isEmpty then s
  else
    let convs := (ns.flatMap fun n => match cellFn (s.cell n) with
      | none => []
      | some (slot, p) => match s.graph slot with
        | none => []
        | some g => (reaches g p).map (·.1)).eraseDups
    let settles := convs.filterMap fun c => (s.stagedSettles ns c).map (c, ·)
    let s1 := ns.foldl (fun s n => s.applyCell n) s
    (settles.foldl (fun s e => s.settleConv e.1 e.2) s1).endTunes

/-- Cells with a staged set that may apply now (08 R228). Those of a block whose island read-back has stopped wait for it (09 R256;
DEDUCED, log 22). -/
def State.stagedCells (s : State) : List Nat :=
  (s.til.cells.filter fun e => !e.2.staged.isEmpty && !(s.block (e.1 / 16)).stopped && !(match cellFn e.2 with
    | none => false
    | some (slot, p) => match s.graph slot with
      | none => false
      | some g => e.2.stagedCal && s.measuring slot g p)).map (·.1)

/-- Stage settings on a cell (02 R18, R40). -/
def State.stage (s : State) (n : Nat) (vs : List (Nat × Int)) (cal : Bool) (settle : Option (Nat × Nat)) : State :=
  let c := s.cell n
  let c' : Cell := { c with
    staged := mergeStaged c.staged vs
    stagedCal := c.stagedCal || cal
    stagedSettle := match settle with
      | none => c.stagedSettle
      | some q => some q }
  let s1 := s.setCell n c'
  if (cellFn c).isNone then s1.applyCell n else s1

/-! ### Samples -/

/-- The start of the decimation window of a sample emitted at `t`, as (numerator, denominator) in ticks; it ends at
`t` less the pipeline latency (05 R136). -/
def winStart (c : Nat) (e : SeqStep) (t : Nat) : Q :=
  let p := ratePeriod c e.rate
  (((t : Int) - convLatency c) * p.2 - filtWindow c e.filt * p.1, p.2)

/-- Does the window of a sample emitted at `t` overlap the interval from `a` to `b`? Intervals that only touch do not: an interval
of length D meets at most ceil(D / T) + W windows (06 R172). -/
def overlaps (c : Nat) (e : SeqStep) (t a b : Nat) : Bool :=
  let w := winStart c e t
  decide ((a : Int) < (t : Int) - convLatency c) && decide (w.1 < (b : Int) * w.2)

/-- A list of intervals, and one that still runs. -/
def anyOverlap (c : Nat) (e : SeqStep) (t : Nat) (ivs : List (Nat × Nat)) (cur : Option Nat) : Bool :=
  ivs.any (fun i => overlaps c e t i.1 i.2) || (match cur with
    | none => false
    | some a => overlaps c e t a t)

/-- VREF in picovolts: the internal 4.096 V, or the external reference where VREF_SEL was high at start-up (05 R128; 19 R499). -/
def State.vref (s : State) : Int := if s.time.vrefSel then (Config.externalVref : Int) else 4096000000000

/-- The code of a loop's reading `volts`, in picovolts, at a gain code: 2^31 x V / FS, or 2^19 x V / FS of a wideband modulator,
with FS = VREF / gain and gain 2^(code - 1) (05 R128, R129; 06 R160, R161), as a rational. -/
def State.loopCode (s : State) (c gain : Nat) (volts : Int) : Q :=
  ((if isWM c then 2 ^ 19 else 2 ^ 31) * volts * 2 ^ gain, (2 * s.vref).toNat)

/-- The value of a loop after internal correction and the reference scale factor, before system correction
(05 R127, R129, R131; 08 R224, R236): offset in output codes, gain in 2^-30, scale in 0.01 ppm. DEDUCED (log 19). -/
def Conv.internal (v : Conv) (lp gain : Nat) (raw : Q) : Int :=
  let k := Tbl.get ((0 : Int), 2 ^ 30) (32 * lp + gain) v.coef
  roundTie ((k.2 * raw.1 + k.1 * 2 ^ 30 * raw.2) * (10 ^ 8 + v.scale)) (2 ^ 30 * 10 ^ 8 * raw.2)

/-- The system calibration set in force for an entry and gain code (05 R154). -/
def Conv.sysFor (v : Conv) (entry gain : Nat) : Option SysSet :=
  v.sys.find? fun m => decide (m.entry = entry) && decide (m.gcode = gain) && m.inUse && !m.stale

/-- The bounds of a converter's word (05 R129, 06 R161). -/
def convMax (c : Nat) : Int := if isWM c then 2 ^ 19 - 1 else 2 ^ 31 - 1
def convMin (c : Nat) : Int := if isWM c then -(2 ^ 19) else -(2 ^ 31)

/-- System correction (05 R154). -/
def Conv.system (v : Conv) (entry gain : Nat) (x : Int) : Int :=
  match v.sysFor entry gain with
  | none => x
  | some m => roundTie (m.gain * x + m.offset * 2 ^ 30) (2 ^ 30)

/-- The correction stage of a loop (05 R127; 06 R159, R174): internal, then system correction, whose result a wideband modulator
clamps. -/
def Conv.corrected (v : Conv) (c entry gain : Nat) (x : Int) : Int :=
  let y := v.system entry gain x
  if isWM c then clampI (convMin c) (convMax c) y else y

/-- Sample flags (11 R309). -/
structure Flg where
  settling : Bool := false
  overrange : Bool := false
  transplant : Bool := false
  calstep : Bool := false
  held : Bool := false
  trig : Bool := false
  gap : Bool := false
  deriving DecidableEq, Repr

def Flg.code (f : Flg) : Nat :=
  b2n f.settling + 2 * b2n f.overrange + 4 * b2n f.transplant + 8 * b2n f.calstep + 16 * b2n f.held + 32 * b2n f.trig +
  64 * b2n f.gap

/-- Should this sample carry OVERRANGE for a reason other than a clamp (05 R129; 17 R461, R463)? -/
def State.overFlag (s : State) (c : Nat) (e : SeqStep) (t : Nat) : Bool :=
  let v := s.conv c
  let pair := s.pair (16 * convRegion c + e.entry)
  anyOverlap c e t v.overIv v.overload ||
  (decide (e.entry < 16) && anyOverlap c e t pair.ivs (if pair.ranged then some pair.onset else none)) ||
  anyOverlap c e t s.mon.supplyIvs (if s.mon.supplyOut then some s.mon.supplySince else none)

/-- The HELD interval that covers a sample (04 R112), and whether a HELD run ends with it (04 R108). -/
def Conv.heldNow (v : Conv) (c : Nat) (e : SeqStep) (t : Nat) : Option HeldIv × Bool :=
  let mine := v.heldIv.filter fun h => h.entries.contains e.entry
  (mine.find? fun h => overlaps c e t h.first (h.fin.getD t),
   mine.any fun h => match h.fin with
     | none => false
     | some b => !overlaps c e t h.first b)

/-- The value that HELD samples repeat (04 R112): of the last sample of the entry whose window ended before the
first-suspect time; the oldest known sample's where none is known, 0 where there is none. -/
def Conv.heldValue (v : Conv) (c entry first : Nat) : Nat :=
  let l := v.hist.filter fun h => decide (h.2.1 = entry)
  match (l.filter fun h => decide (h.1 < first + convLatency c)).getLast? with
  | some h => h.2.2
  | none => match l with
    | h :: _ => h.2.2
    | [] => 0

/-- The standard deviation x 256 of `n` samples with sum `sum` and sum of squares `sq` (05 R152; log 15). -/
def deviation256 (n : Nat) (sum sq : Int) : Nat :=
  let d := if Config.sampleDeviation then n * (n - 1) else n * n
  let x := ((sq * n - sum * sum) * 65536).toNat
  let r := isqrtBits 80 (x / d)
  if r * r * d = x then r else r + (if Config.roundUp x d then 1 else 0)

/-- Feed a sample to the measurements of its entry (05 R152): `x` is the value before system correction. -/
def State.feedMeas (s : State) (c : Nat) (e : SeqStep) (x : Int) (f : Flg) : State :=
  (s.conv c).meas.foldl (fun s m =>
    if m.held ∨ m.entry ≠ e.entry ∨ f.settling ∨ f.held ∨ (m.got ≠ 0 ∧ m.gcode ≠ e.gain) then s
    else
      let v := s.conv c
      if f.overrange then
        (s.setConv c { v with meas := v.meas.filter fun k => decide (k ≠ m) }).final m.slot stRANGE 0 0
      else
        let m' : Meas := { m with got := m.got + 1, sum := m.sum + x, sq := m.sq + x * x, gcode := e.gain, held := decide (m.got + 1 = m.n) }
        let keep (k : Meas) : Bool := decide (k ≠ m) && !(m'.held && k.held && decide (k.entry = m.entry) && decide (k.full = m.full))
        let s1 := s.setConv c { v with meas := (v.meas.filter keep) ++ [m'] }
        if m'.held then s1.final m.slot stOK (ofI 64 (roundFree (m'.sum * 256) m'.n)) (deviation256 m'.n m'.sum m'.sq)
        else s1) s

/-- The epoch of the token that a converter has sent ahead of its next record: that of the running snapshot once it has taken its cut,
else 0 (10 R271, R278). -/
def State.tokenAhead (s : State) (c : Nat) : Nat := (s.sheaf.run.filter fun p => p.cut.contains (uConv c)).elim 0 Snap.epoch

/-- Put a record into its converter's link towards the stream engine (11 R310, R345; 10 R279): discarded uncounted
unless the stream is open; dropped, with its sequence number, where DROP_SETTLING holds it back (05 R150). Answers
whether the sample was dropped. -/
def State.sendRecord (s : State) (c val flags ts : Nat) : State × Bool :=
  let v := s.conv c
  let n := v.cfg.stream
  if 64 ≤ n then (s, false)
  else
    let d := s.ds n
    if !d.opened ∨ d.closing.isSome then (s, false)
    else
      let s1 := s.setDs n { d with seq := (d.seq + 1) % 65536 }
      if d.dropSettling && bit flags 0 then (s1, true)
      else
        (s1.setConv c { v with link := v.link ++ [{ val := val, src := c, flags := flags, seq := d.seq, ts := ts, stream := n, epoch := s.tokenAhead c }] }, false)

/-- Crossfade value (04 R104): weight (i + 1) / (L + 1), to nearest with ties to even. -/
def xfadeValue (x : Xfade) (main comp : Int) : Int :=
  roundEven (((x.len : Int) - x.i) * main + ((x.i : Int) + 1) * comp) (x.len + 1)

/-- What a converter makes of the readings of its two loops, in picovolts: the value before system correction, the value after
it, and whether a correction stage clamped (05 R127, R129; 06 R159, R161; 04 R104). Only a crossfade uses the companion's. -/
def State.convert (s : State) (c : Nat) (e : SeqStep) (xf : Option Xfade) (main comp : Int) : Int × Int × Bool :=
  let v := s.conv c
  let x := v.internal v.mainLoop e.gain (s.loopCode c e.gain main)
  let y := v.corrected c e.entry e.gain x
  let cut (x y : Int) : Bool := decide (y ≠ v.system e.entry e.gain x)
  match xf with
  | none => (x, y, cut x y)
  | some f =>
    let x' := v.internal (1 - v.mainLoop) e.gain (s.loopCode c e.gain comp)
    let y' := v.corrected c e.entry e.gain x'
    (xfadeValue f x x', xfadeValue f y y', cut x y || cut x' y')

/-- The recent samples of a converter with one more: 256 of each entry. -/
def addHist (h : List (Nat × Nat × Nat)) (x : Nat × Nat × Nat) : List (Nat × Nat × Nat) :=
  (if (h.filter fun y => decide (y.2.1 = x.2.1)).length < 256 then h else
    match h.find? fun y => decide (y.2.1 = x.2.1) with
    | none => h
    | some y => h.erase y) ++ [x]

/-- Count and deliver one sample of a converter (05 R129, R142, R151; 04 R104, R108, R112), and the bookkeeping that
goes with it. Answers whether it carries SETTLING. -/
def State.deliver (s : State) (c t : Nat) (e : SeqStep) (main comp : Int) : State × Bool :=
  let v := s.conv c
  let xf := v.xf.filter fun x => decide (x.entry = e.entry)
  let q := s.convert c e xf main comp
  let x := q.1
  let y := q.2.1
  let z := clampI (convMin c) (convMax c) y
  let hd := v.heldNow c e t
  let val := match hd.1 with
    | none => ofI 32 z
    | some h => v.heldValue c e.entry h.first
  let tp := Tbl.get 0 e.entry v.tp
  let cal := v.calMarks.any (markHits e) || (hd.1.isNone && hd.2)
  let f : Flg :=
    { settling := decide (0 < v.settle), overrange := hd.1.isNone && (q.2.2 || decide (z ≠ y) || s.overFlag c e t),
      transplant := xf.isSome || decide (0 < tp), calstep := cal, held := hd.1.isSome, trig := v.markTrig, gap := v.markGap || v.trigGap }
  let r := s.sendRecord c val f.code t
  let v1 := r.1.conv c
  let v2 : Conv := { v1 with
    settle := v1.settle - 1, delivered := v1.delivered || !r.2, everDelivered := true,
    markTrig := v1.markTrig && r.2, markGap := r.2, trigGap := v1.trigGap && r.2,
    calMarks := if cal && r.2 then (if v1.calMarks.any (markHits e) then v1.calMarks else v1.calMarks ++ [calMark e.entry none])
                else v1.calMarks.filter fun k => !markHits e k,
    tp := Tbl.set 0 e.entry (tp - 1) v1.tp,
    heldIv := if hd.1.isSome then v1.heldIv else (v1.heldIv.map fun h =>
      if h.fin.isSome && !overlaps c e t h.first (h.fin.getD 0) then { h with entries := h.entries.filter fun k => decide (k ≠ e.entry) } else h).filter fun h => !h.entries.isEmpty,
    hist := if hd.1.isSome then v1.hist else addHist v1.hist (t, e.entry, val),
    xf := match xf with
      | none => v1.xf
      | some x => if x.i + 1 < x.len then some { x with i := x.i + 1 } else none,
    mainLoop := match xf with
      | none => v1.mainLoop
      | some x => if x.i + 1 < x.len then v1.mainLoop else 1 - v1.mainLoop }
  let s2 := r.1.setConv c v2
  let s3 := if r.2 then s2 else s2.bump (uConv c) 0
  let s4 := if f.settling then s3.bump (uConv c) 1 else s3
  let s5 := if f.overrange then s4.bump (uConv c) 2 else s4
  (s5.feedMeas c e x f, f.settling)

end Sys2Proof.Machine
end

