-- ==== Sys2Proof/Machine/Spares.lean ====
section
/-! DEFINITION. What Stolon borrows and yields, and the spares: the pool of each region and those reserved for a graph
(04_transplant_and_stolon.md R114-R117, R119, R120, R122; 03_tiller_placement.md R75, R79). -/

namespace Sys2Proof.Machine

/-! ### Yield of a Stolon test (04 R122) -/

/-- What a test has borrowed is given back: cells, powered down, of which a spare is warm no more (R119), and a modulator or loop with
its private taps. -/
def State.giveUp (s : State) (t : Test) : State :=
  let s1 := t.cells.foldl (fun s n => s.setCell n { s.cell n with borrowed := false, warm := false, bias := 0 }) s
  match t.conv with
  | none => s1
  | some c =>
    let v := s1.conv c
    s1.setConv c { v with borrowed := false, comp := if v.comp = 4 then 0 else v.comp, priv := if v.comp = 4 then [] else v.priv,
                          offSince := if v.cfg.mode = 0 then s1.now else v.offSince }

/-- Stolon yields the tests of a region that `hit` selects, running or waiting: abandoned, and logged with their cause. -/
def State.yieldWhere (s : State) (r why : Nat) (hit : Test → Bool) : State :=
  let v := s.region r
  let ts := (v.test.toList ++ v.testQ).filter hit
  let s1 := s.setRegion r { v with test := v.test.filter (!hit ·), testQ := v.testQ.filter (!hit ·) }
  ts.foldl (fun s t => ((s.giveUp t).bump (uRg r) 3).log 0x20A 1 (t.cells.headD 0) why 0) s1

/-- Stolon yields every test of a region. -/
def State.yieldTest (s : State) (r why : Nat) : State := s.yieldWhere r why fun _ => true

/-- Yield the test that borrows a cell. -/
def State.yieldCell (s : State) (n why : Nat) : State :=
  if (s.cell n).borrowed then s.yieldWhere (n / 128) why fun t => t.cells.contains n else s

/-- Yield the test that borrows a converter's modulator or loop. -/
def State.yieldConv (s : State) (c why : Nat) : State :=
  if (s.conv c).borrowed then s.yieldWhere (convRegion c) why fun t => decide (t.conv = some c) else s

/-- Yield the tests that borrow tracks or switches. -/
def State.yieldSegs (s : State) (ks : List Nat) (why : Nat) : State :=
  (List.range 8).foldl (fun s r =>
    if ((s.region r).test.toList.any fun t => t.segs.any ks.contains) then s.yieldWhere r why fun t => t.segs.any ks.contains else s) s

/-! ### Cells free for use (03 R75) -/

/-- Is a cell free for placement or as a spare (03 R75)? -/
def State.freeForUse (s : State) (n : Nat) : Bool := decide ((s.cell n).use = .free) && s.placeable n

/-- Free placeable cells of a block, lowest first. -/
def State.freeIn (s : State) (b : Nat) : List Nat := ((List.range 16).map (16 * b + ·)).filter fun n => s.freeForUse n

/-- The block of a list with the greatest measure, the first of equals. -/
def bestBlock (f : Nat → Nat) (bs : List Nat) : Option Nat :=
  bs.foldl (fun a b => match a with
    | none => some b
    | some m => if f m < f b then some b else a) none

/-- Blocks of a region. -/
def regionBlocks (r : Nat) : List Nat := (List.range 8).map (8 * r + ·)

/-! ### The spare pool (04 R114, R115, R117) -/

/-- The pool cells of a region (04 R115). -/
def State.poolCells (s : State) (r : Nat) : List Nat := (regionCells r).filter fun n => decide ((s.cell n).use = .pool)

/-- The pool count of a region (04 R115). -/
def poolTarget (p r : Nat) : Nat := p / 8 + (if r < p % 8 then 1 else 0)

/-- The tests of a region, running and waiting. -/
def Region.tests (v : Region) : List Test := v.test.toList ++ v.testQ

/-- The pool cells of a region whose place vacated cells will take once they pass their test (04 R120). -/
def State.poolOwed (s : State) (r : Nat) : Nat :=
  ((s.til.moves.filter fun m => decide (1 ≤ m.step) && decide (cellRegion m.dest.c0 = r)).map fun m => m.took.1).sum +
  ((s.region r).tests.map fun t => t.took.1).sum

/-- The spares reserved for a graph whose place vacated cells will take. -/
def State.spareOwed (s : State) (slot : Nat) : Nat :=
  ((s.til.moves.filter fun m => decide (1 ≤ m.step) && decide (m.graph = slot)).map fun m => m.took.2).sum +
  (((List.range 8).flatMap fun r => (s.region r).tests.filter fun t => t.owner.any fun o => o.1 == slot).map fun t => t.took.2).sum

/-- How many cells a region's pool should hold now. -/
def State.poolWant (s : State) (r : Nat) : Nat := poolTarget s.til.policy.pool r - s.poolOwed r

/-- The unpaired pool cells of a region: of a block with an odd number, the highest. -/
def unpaired (cells : List Nat) : List Nat :=
  (cells.map (· / 16)).eraseDups.filterMap fun b =>
    let l := cells.filter fun n => decide (n / 16 = b)
    if l.length % 2 = 1 then l.getLast? else none

/-- The pairs of a region's pool, as (lower, higher): neighbours within a block. -/
def pairUp : List Nat → List (Nat × Nat)
  | a :: b :: l => (a, b) :: pairUp l
  | _ => []

def poolPairs (cells : List Nat) : List (Nat × Nat) :=
  (cells.map (· / 16)).eraseDups.flatMap fun b => pairUp (cells.filter fun n => decide (n / 16 = b))

/-- The last pair of a region's pool (04 R115): the one whose lower cell number is highest. -/
def lastPair (cells : List Nat) : Option (Nat × Nat) :=
  (poolPairs cells).foldl (fun a p => match a with
    | none => some p
    | some q => if q.1 < p.1 then some p else a) none

/-- The unpaired cell whose partner has been taken: one outside the block of the last pair, where an odd count's own unpaired cell
stands. -/
def lonely (cells : List Nat) : Option Nat :=
  let last := (lastPair cells).map fun p => p.1 / 16
  (unpaired cells).find? fun u => decide (some (u / 16) ≠ last)

/-- The cells that bring a region's pool one move nearer its count (04 R115, R117); none where it stays short. -/
def State.poolGrow (s : State) (r deficit : Nat) : List Nat :=
  let cells := s.poolCells r
  let pairIn : List Nat := match bestBlock (fun b => (s.freeIn b).length) (regionBlocks r) with
    | none => []
    | some b => match s.freeIn b with
      | x :: y :: _ => [x, y]
      | _ => []
  let mate (u : Nat) : List Nat := match s.freeIn (u / 16) with
    | x :: _ => [x]
    | [] => pairIn
  match lonely cells with
  | some u => mate u
  | none =>
    if 2 ≤ deficit ∧ !pairIn.isEmpty then pairIn
    else match unpaired cells with
      | u :: _ => mate u
      | [] =>
        let b := match (lastPair cells).map fun p => p.1 / 16 with
          | some b => some b
          | none => bestBlock (fun b => ((List.range 16).filter fun i => match (s.cell (16 * b + i)).use with
              | .fn _ _ => true
              | _ => false).length) (regionBlocks r)
        match b with
        | none => []
        | some b => if 2 ≤ deficit ∧ deficit % 2 = 0 then [] else (s.freeIn b).take 1

/-- Fill a region's pool to its count (04 R115, R117), a move per unit of fuel, and report a shortfall. -/
def State.fillPool : Nat → Nat → State → State
  | 0, _, s => s
  | f + 1, r, s =>
    let want := s.poolWant r
    let have_ := (s.poolCells r).length
    if want ≤ have_ then (if (s.region r).poolShort = 0 then s else s.setRegion r { s.region r with poolShort := 0 })
    else match s.poolGrow r (want - have_) with
      | [] =>
        let short := want - have_
        let s1 := s.setRegion r { s.region r with poolShort := short }
        if (s.region r).poolShort = short then s1 else s1.log 0x207 3 r short 0
      | cs => State.fillPool f r (cs.foldl (fun s n => (s.yieldCell n 1).spareCell n none) s)

/-- Refill a region's pool, while its controller accepts configuration (01 R19, R20). -/
def State.refill (s : State) (r : Nat) : State := if s.ctrlOk r then State.fillPool 40 r s else s

/-- Release pool cells to free until a region holds `want` (04 R115, R351): its unpaired cell, then the higher cell of
its last pair, then that pair's other cell, and so on. -/
def State.shrinkPool : Nat → Nat → Nat → State → State
  | 0, _, _, s => s
  | f + 1, r, want, s =>
    let cells := s.poolCells r
    if cells.length ≤ want then s
    else match unpaired cells with
      | u :: _ => State.shrinkPool f r want (s.freeCell u)
      | [] => match lastPair cells with
        | some p => State.shrinkPool f r want (s.freeCell p.2)
        | none => s

/-- Is a spare warm now (04 R114)? The row SPARE_WARM makes it so; a temperature, a health score or the coverage period
can end it. -/
def State.warmNow (s : State) (n : Nat) : Bool :=
  let c := s.cell n
  c.warm && !c.borrowed && ((s.chosenElems n).all fun e => decide (128 ≤ (s.led e).health)) &&
  (match c.lastTest with
    | none => true
    | some t => decide (s.now ≤ t + s.til.policy.period * 250000000)) &&
  decide ((s.blockTemp (n / 16) - c.calTemp).natAbs ≤ s.cal.policy.trigger)

/-- Pool cells warm, of the chip. -/
def State.poolWarm (s : State) : Nat := ((List.range 8).map fun r => ((s.poolCells r).filter fun n => s.warmNow n).length).sum

/-! ### Reserved spares (03 R79; 04 R117) -/

/-- The regions that deal a graph's spares (03 R79): those of the graph's cells, by how many it has there, then by
number. -/
def spareOrder (cells : List Nat) : List Nat :=
  let count (r : Nat) : Nat := (cells.filter fun n => decide (n / 128 = r)).length
  sortBy (fun a b => decide (count b ≤ count a)) ((List.range 8).filter fun r => decide (0 < count r))

/-- Where one spare of a graph lies in a region (03 R79): the block with most of the graph's cells there, else the
nearest block with a free placeable cell; the lowest free cell of it. -/
def State.spareIn (s : State) (cells taken : List Nat) (r : Nat) : Option Nat :=
  let count (b : Nat) : Nat := (cells.filter fun n => decide (n / 16 = b)).length
  match bestBlock count (regionBlocks r) with
  | none => none
  | some home =>
    let dist (b : Nat) : Nat := if b ≤ home then home - b else b - home
    let order := sortBy (fun a b => decide (dist a < dist b) || (decide (dist a = dist b) && decide (a ≤ b))) (regionBlocks r)
    order.findSome? fun b => (s.freeIn b).find? fun n => !taken.contains n && !cells.contains n

/-- Deal `n` spares to a graph's regions in turn (03 R79); none where they cannot all be reserved, and so where a region whose
turn it is has no free placeable cell (DESIGN CHOICE, log 13). -/
def State.dealSpares (s : State) (cells : List Nat) : Nat → Nat → List Nat → Option (List Nat)
  | 0, _, taken => some taken
  | n + 1, turn, taken =>
    let order := spareOrder cells
    match s.spareIn cells taken (order.getD (turn % order.length) 0) with
    | none => none
    | some c => State.dealSpares s cells n (turn + 1) (taken ++ [c])

/-- Change the list of a graph's reserved spares. -/
def State.setSpares (s : State) (slot : Nat) (f : List Nat → List Nat) : State :=
  { s with til := { s.til with graphs := Tbl.upd none slot (fun o => o.map fun g => { g with spareCells := f g.spareCells }) s.til.graphs } }

/-- Make a cell a reserved spare of a graph. -/
def State.reserveCell (s : State) (slot n : Nat) : State := (s.spareCell n (some slot)).setSpares slot (· ++ [n])

/-- Restore a graph's reserved spares as R79 places them (04 R117). -/
def State.refillGraph (s : State) (slot : Nat) : State :=
  match s.graph slot with
  | none => s
  | some g =>
    let want := g.spares - s.spareOwed slot
    if g.phase ≠ 7 ∨ want ≤ g.spareCells.length then s
    else match s.dealSpares g.cells (want - g.spareCells.length) g.spareCells.length g.spareCells with
      | none => s
      | some l =>
        let new := l.drop g.spareCells.length
        if new.any fun n => !s.ctrlOk (n / 128) then s else new.foldl (fun s n => (s.yieldCell n 1).reserveCell slot n) s

/-- Restore what the pools and the graphs' reservations lack (04 R117). -/
def State.restock (s : State) : State :=
  let s1 := s.graphs.foldl (fun s e => s.refillGraph e.1) s
  (List.range 8).foldl (fun s r => s.refill r) s1

/-- Can cells join a region's pool, which then holds at most its count and one unpaired cell (04 R115)? -/
def State.poolTakes (s : State) (cells : List Nat) : Bool :=
  let r := (cells.headD 0) / 128
  let all := (regionCells r).filter fun n => decide ((s.cell n).use = .pool) || cells.contains n
  decide (all.length ≤ s.poolWant r) && decide ((unpaired all).length ≤ 1)

/-- Return cells that a move, repair or test gives back: to the graph's reservation or their region's pool where these are short,
else free (04 R117, R120); a cell that is not placeable is no spare. -/
def State.giveBack (s : State) (slot : Nat) (cells : List Nat) : State :=
  let sound := cells.filter fun n => s.placeable n
  let s1 := (cells.filter fun n => !s.placeable n).foldl (fun s n => s.freeCell n) s
  let one (s : State) (l : List Nat) : State :=
    if (s.graph slot).any fun g => decide (g.spareCells.length + l.length ≤ g.spares - s.spareOwed slot) then l.foldl (fun s n => s.reserveCell slot n) s
    else if s.poolTakes l then l.foldl (fun s n => s.spareCell n none) s
    else l.foldl (fun s n => s.freeCell n) s
  match sound with
  | [a, b] => if a / 16 = b / 16 then one s1 [a, b] else one (one s1 [a]) [b]
  | l => l.foldl (fun s n => one s [n]) s1

end Sys2Proof.Machine
end

