-- ==== Sys2Proof/Machine/Choice.lean ====
section
/-! DEFINITION. Tiller's choice of cells, bias codes and tracks: what it predicts, which cells a primitive may stand on, the
order of R76, the search for the placement that ranks first, and the destination of a transplant
(03_tiller_placement.md R66-R79; 04_transplant_and_stolon.md R98, R99; 01_organisation.md R26, R29;
02_analogue_cells.md R43, R44). -/

namespace Sys2Proof.Machine

/-! ### Predictions (03 R69; log 5) -/

/-- What distinguishes a cell's elements from another's in the Ledger: state of quarantine, health, rank, and the offsets of its
input pairs. -/
def State.cellData (s : State) (n : Nat) : List Nat :=
  (cellElems n).flatMap fun e => let l := s.led e; [b2n (decide (l.state = 3)), l.health, l.rank, if e % 48 < 4 then l.detail % 2 ^ 17 else 0]

/-- A specification record as Tiller predicts it for a primitive where it stands. -/
def State.predict (s : State) (p : Prim) (r : SpecRec) : SpecRec :=
  let t := s.wholeTemp (p.c0 / 16)
  { r with base := Config.predict r.code r.cond (if r.cond = 0 then t else 0) p.conf (p.cells.flatMap fun n => s.cellData n) % 2 ^ 32, temp := t }

/-- A primitive on some cells at the bias code that R66 gives it there, and its records as predicted. -/
def State.predictOn (s : State) (p : Prim) (rs : List SpecRec) (d : PlaceP) : Prim × List SpecRec :=
  let q := p.on d
  let ps := rs.map (s.predict q)
  let q' : Prim := { q with bias := biasOf q ps }
  (q', ps.map fun r => r.on q')

/-- Primitive `i` of a graph on some cells, as predicted. -/
def State.putOn (s : State) (g : Graph) (i : Nat) (d : PlaceP) : Graph :=
  let x := s.predictOn (g.prim i) (g.specsOf i) d
  { g.setPrim i x.1 with specs := g.specs.map fun r => if r.prim = i then (x.2.find? fun y => y.code == r.code).getD r else r }

/-! ### The order of R76 -/

/-- Lexicographic order of rational keys. -/
def lexLt : List Q → List Q → Bool
  | a :: l, b :: m => if a.lt b then true else if b.lt a then false else lexLt l m
  | _, _ => false

/-- The tracks that the nets of a graph need, as ranges. -/
def Graph.allNeeds (g : Graph) : List (Nat × Nat) := g.netIdx.flatMap g.needs

/-- The least that a cell can add to the sums of 255 less health and of ranks, among some cells. -/
def State.leastSums (s : State) (cells : List Nat) : Nat × Nat :=
  let sums := cells.map fun n => let es := s.chosenElems n; ((es.map fun e => 255 - (s.led e).health).sum, (es.map fun e => (s.led e).rank).sum)
  let least (l : List Nat) : Nat := l.foldl min (l.headD 0)
  (least (sums.map (·.1)), least (sums.map (·.2)))

/-- A primitive that lacks cells on the cells that it would take, at the lowest bias code that they can run at. -/
def Prim.lowest (p : Prim) (rs : List SpecRec) : Prim :=
  let aa := wantsAntiAlias p && canAntiAlias p
  let q : Prim := { p with c0 := 0, c1 := if twoCells p.ty then 1 else 0xFFFF, aa0 := if aa then 2 else 0xFFFF, aa1 := if aa then 3 else 0xFFFF }
  { q with bias := if p.ty ≠ 7 ∧ rs.any (fun r => r.code == 12 && r.kind == 2) then 15 else biasOf q rs }

/-- The criteria of R76 as one key, with the anti-alias preference of R78 before the regions. The elements chosen are those in
service in the cells, the mean temperature is taken over the cells, and the first analogue cell is that of primitive 0 (DESIGN
CHOICE, log 13). Where primitives still lack cells the key is a lower bound of what it can become, each cell to come adding at
least `lo`. -/
def State.rankKey (s : State) (lo : Nat × Nat) (g : Graph) : List Q :=
  let nat (k : Nat) : Q := ((k : Int), 1)
  let short (h : Bool) : List Q := match largestShort (g.specs.filter fun r => r.hard == h && decide ((g.prim r.prim).c0 < 1024)) with
    | none => [nat 0, nat 0]
    | some q => [nat 1, q]
  let lack := (List.range g.prims.length).filter fun i => decide ((g.prim i).c0 = 0xFFFF)
  let low := lack.map fun i => (g.prim i).lowest (g.specsOf i)
  let more := (low.map fun p => p.cells.length).sum
  let cells := g.cells
  let needs := g.allNeeds
  let elems := cells.flatMap fun n => s.chosenElems n
  let temps := cells.map fun n => s.wholeTemp (n / 16)
  short true ++ short false ++
  [nat (g.prims.filter fun p => decide (p.aa0 < 1024) && decide (p.aa0 / 16 ≠ p.c0 / 16)).length,
   nat ((cells.map (· / 128)).eraseDups.length),
   nat (needs.filter fun k => decide (k.1 = 5120)).length,
   nat (needs.filter fun k => decide (4096 ≤ k.1) && decide (k.1 < 5120)).length,
   nat (graphPower g + (low.map primPower).sum),
   nat ((elems.map fun e => 255 - (s.led e).health).sum + more * lo.1),
   nat ((elems.map fun e => (s.led e).rank).sum + more * lo.2),
   if lack.isEmpty then (temps.sum, max cells.length 1)
   else let all := (List.range 64).map fun b => s.wholeTemp b; (all.foldl min (all.headD 0), 1),
   nat (if g.prefRegion < 8 then (g.prims.filter fun p => decide (p.c0 < 1024) && decide (cellRegion p.c0 ≠ g.prefRegion)).length else 0),
   nat (if 1024 ≤ (g.prim 0).c0 then 0 else if lack.isEmpty then (g.prim 0).c0 else (g.prim 0).c0 / 16 * 16)]

/-- Does graph `a` rank before `b` (03 R76)? -/
def State.candLt (s : State) (a b : Graph) : Bool := lexLt (s.rankKey (0, 0) a) (s.rankKey (0, 0) b)

/-! ### The cells that a primitive may stand on (02 R44; 03 R67, R75, R78; 01 R26) -/

/-- May Tiller use a cell for a new primitive (03 R75)? -/
def State.usable (s : State) (n : Nat) : Bool := s.freeForUse n && (s.chosenElems n).all fun e => decide (64 ≤ (s.led e).health)

/-- Cells with what tells them apart: their data, and whether their output track is free. -/
def State.withData (s : State) (ns : List Nat) : List (Nat × List Nat) := ns.map fun n => (n, b2n (s.segFree (outTrack n)) :: s.cellData n)

/-- Of the cells of each block that nothing tells apart, the `k` lowest: any other placement on them ranks no better. -/
def alike (k : Nat) (cells : List (Nat × List Nat)) : List Nat :=
  (cells.foldl (fun (a : List (Nat × List Nat)) e =>
    if k ≤ (a.filter fun x => decide (x.1 / 16 = e.1 / 16) && decide (x.2 = e.2)).length then a else a ++ [e]) []).map (·.1)

/-- Pairs of cells of one block, the first among `firsts`. -/
def pairsOf (k : Nat) (firsts : List Nat) (cells : List (Nat × List Nat)) : List (Nat × Nat) :=
  firsts.flatMap fun a => (alike k (cells.filter fun e => decide (e.1 / 16 = a / 16) && decide (e.1 ≠ a))).map (a, ·)

/-- The places that cells offer a primitive, with its anti-alias stage where one is to be inserted, in its own block first
(03 R78): `first` names its first cell where a pin does. -/
def placesOf (k : Nat) (p : Prim) (i : Nat) (first : Option Nat) (cells : List (Nat × List Nat)) : List PlaceP :=
  let firsts := match first with
    | none => alike k cells
    | some n => if cells.any fun e => e.1 == n then [n] else []
  let base : List PlaceP := if twoCells p.ty then (pairsOf k firsts cells).map fun e => { prim := i, c0 := e.1, c1 := e.2 }
    else firsts.map fun n => { prim := i, c0 := n }
  if wantsAntiAlias p && canAntiAlias p then
    base.flatMap fun d =>
      let rest := cells.filter fun e => decide (e.1 ≠ d.c0) && decide (e.1 ≠ d.c1)
      let near := rest.filter fun e => decide (e.1 / 16 = d.c0 / 16)
      let far := rest.filter fun e => decide (e.1 / 16 ≠ d.c0 / 16)
      ((pairsOf k (alike k near) near) ++ (pairsOf k (alike k far) far)).map fun e => { d with aa0 := e.1, aa1 := e.2 }
  else base

/-- The regions of the converters that a primitive's output loads (01 R26). -/
def Graph.convHomes (g : Graph) (i : Nat) : List Nat :=
  (g.nets.filter fun n => n.drvKind == 0 && n.drv == i).flatMap fun n => (n.loads.filter fun c => loadKind c == 1).map fun c => convRegion (loadConv c)

/-- The regions of the input pairs that load a primitive (02 R44). -/
def Graph.pairHomes (g : Graph) (i : Nat) : List Nat :=
  (g.nets.filter fun n => n.drvKind == 1 && n.loads.any fun c => loadKind c == 0 && loadPrim c == i).map fun n => n.drv / 16

/-- The region of the cell at which a net enters a primitive on a place. -/
def inRegion (d : PlaceP) : Nat := cellRegion (if d.aa0 < 1024 then d.aa0 else d.c0)

/-- Is every excitation ball that a primitive drives in the region of its place (02 R44)? -/
def ballsIn (g : Graph) (i : Nat) (d : PlaceP) : Bool := (ballsOf g i).all fun b => decide ((b % 128) / 16 = cellRegion d.c0)

/-- Keep those of a list that have a property, or all where none has. -/
def prefer {α : Type} (f : α → Bool) (l : List α) : List α := if l.any f then l.filter f else l

/-- Are the records of primitive `i` met, within the degrade limit? -/
def Graph.carries (g : Graph) (i : Nat) : Bool := (g.specsOf i).all fun r => decide (specResult g r ≠ 2)

/-- The places that R26 and R44 leave primitive `i` of a graph, from those that can be routed, each with the graph as it would stand:
in the region of a converter that it feeds where a cell there carries it within its records; else, where an input pair loads it, in
the pair's region where that offers any. A primitive that both feeds a converter and is loaded by a pair goes by its converter
(DEDUCED, log 13). -/
def atHome (g : Graph) (i : Nat) (xs : List (PlaceP × Graph)) : List (PlaceP × Graph) :=
  let cs := g.convHomes i
  let ps := g.pairHomes i
  if !cs.isEmpty then
    let home (x : PlaceP × Graph) : Bool := cs.contains (cellRegion x.1.c0)
    let good := xs.filter fun x => home x && x.2.carries i
    if !good.isEmpty then good
    else
      let away := xs.filter fun x => !home x && x.2.carries i
      if !away.isEmpty then away else prefer home xs
  else if !ps.isEmpty then prefer (fun x => ps.contains (inRegion x.1)) xs
  else xs

/-- Does a pin of a primitive bind its place: a REQUIRE pin, or one of `kept`? -/
def binding (kept : List Nat) (g : Graph) (i : Nat) : Option Pin := (g.prim i).pin.filter fun q => q.require || kept.contains i

/-! ### The search (03 R70, R74, R76) -/

/-- What a search is bound by: `kept` are the primitives whose PREFER pins it honours, `k` how many of equal cells it tells apart,
`home` whether R26 and R44 hold, `regions` the regions of phase 2, `globals` the global tracks of phase 3, `tried` the placements
that are not asked for again, `stay` the primitives of a placed graph that keep their cells, as the graph then keeps its spares, and
`ready` whether only regions serve that accept configuration. -/
structure Ask where
  stay : Option (List Nat) := none
  ready : Bool := false
  kept : List Nat := []
  k : Nat := 1
  home : Bool := true
  regions : Option (List Nat) := none
  globals : List (Nat × Nat) := []
  tried : List (List Nat) := []

/-- Does a primitive keep its cells? -/
def Ask.stays (a : Ask) (i : Nat) : Bool := a.stay.any fun l => l.contains i

/-- Routes for every net of a graph whose driver has cells, each over its global track of phase 3 or over what it has. -/
def State.routes (s : State) (g : Graph) (globals : List (Nat × Nat)) : Option (List (Nat × List Nat)) :=
  s.routeAll g (fun j => (globals.filter fun e => e.1 == j).map (·.2) ++ g.segsOf j) g.netIdx

/-- The places that the rules leave primitive `i` beside the cells already given, each with the graph as predicted there. -/
def State.options (s : State) (a : Ask) (cells : List (Nat × List Nat)) (g : Graph) (i : Nat) : List (PlaceP × Graph) :=
  let p := g.prim i
  let pin := binding a.kept g i
  let taken := g.cells ++ (List.range g.prims.length).filterMap fun j =>
    if j = i then none else (binding a.kept g j).bind fun q => if q.scope = 2 then some q.num else none
  let region := a.regions.map fun l => l.getD i 0xFF
  let free := cells.filter fun e => !taken.contains e.1 && (region.all fun r => decide (e.1 / 128 = r)) &&
    (!g.oneRegion || g.cells.all fun c => decide (c / 128 = e.1 / 128))
  let ds := (placesOf a.k p i (pin.bind fun q => if q.scope = 2 then some q.num else none) free).filter fun d =>
    (pin.all fun q => pinHolds q d.c0) && ballsIn g i d
  let xs := ds.map fun d => (d, s.putOn g i d)
  if a.home && !((g.convHomes i).isEmpty && (g.pairHomes i).isEmpty) then atHome g i (xs.filter fun x => (s.routes x.2 a.globals).isSome) else xs

/-- Give the cells of a placement that nothing tells apart to its primitives in order, the lowest first; a cell that a pin names
stays where it is. -/
def relabel (a : Ask) (cells : List (Nat × List Nat)) (g : Graph) : Graph :=
  let data (c : Nat) : List Nat := ((cells.find? fun e => e.1 == c).map (·.2)).getD []
  let named (i : Nat) : Bool := (binding a.kept g i).any fun q => q.scope = 2
  let fixed := (List.range g.prims.length).flatMap fun i =>
    if a.stays i then (g.prim i).cells else if named i then [(g.prim i).c0] else []
  let take (c : Nat) (pool : List Nat) : Nat × List Nat :=
    if 1024 ≤ c ∨ fixed.contains c then (c, pool)
    else
      let x := (pool.find? fun n => decide (n / 16 = c / 16) && decide (data n = data c)).getD c
      (x, pool.erase x)
  ((List.range g.prims.length).foldl (fun (e : Graph × List Nat) i =>
    let p := e.1.prim i
    let x0 := take p.c0 e.2
    let x1 := take p.c1 x0.2
    let x2 := take p.aa0 x1.2
    let x3 := take p.aa1 x2.2
    (e.1.setPrim i { p with c0 := x0.1, c1 := x1.1, aa0 := x2.1, aa1 := x3.1 }, x3.2))
    (g, sortBy (fun a b => decide (a ≤ b)) (g.cells.filter fun c => !fixed.contains c))).1

/-- A placement with its tracks and spares; none where it finds no tracks or no spares. -/
def State.complete (s : State) (a : Ask) (cells : List (Nat × List Nat)) (g0 : Graph) : Option Graph :=
  let g := relabel a cells g0
  if a.tried.contains g.cells then none
  else match s.routes g a.globals, (if a.stay.isSome then some g.spareCells else s.dealSpares g.cells g.spares 0 []) with
    | some rs, some sp => some { g.route rs with spareCells := sp }
    | _, _ => none

/-- The best placement of the primitives `is` beside those placed in `g`, if it ranks before `best`; each comes with its key. The
most promising place is tried first, and a part of a placement is followed up only while it can be routed and can still come to rank
before the best one found. -/
def State.search (s : State) (a : Ask) (lo : Nat × Nat) (cells : List (Nat × List Nat)) :
    List Nat → Graph → Option (List Q × Graph) → Option (List Q × Graph)
  | [], g, best =>
    match s.complete a cells g with
    | none => best
    | some x => let k := s.rankKey lo x; if best.all fun b => lexLt k b.1 then some (k, x) else best
  | i :: is, g, best =>
    let xs := sortBy (fun x y => !lexLt y.1 x.1) ((s.options a cells g i).map fun x => (s.rankKey lo x.2, x.2))
    xs.foldl (fun best x =>
      if (best.all fun b => lexLt x.1 b.1) && (s.routes x.2 a.globals).isSome then State.search s a lo cells is x.2 best else best) best

/-- The order in which primitives are given cells: those that R26 binds, then those that R44 binds, then the others. -/
def Graph.choiceOrder (g : Graph) : List Nat :=
  let is := List.range g.prims.length
  let one (i : Nat) : Bool := !(g.convHomes i).isEmpty
  let two (i : Nat) : Bool := !one i && !(g.pairHomes i).isEmpty
  is.filter one ++ is.filter two ++ is.filter fun i => !one i && !two i

/-- A primitive with no cells. -/
def Prim.bare (p : Prim) : Prim := { p with c0 := 0xFFFF, c1 := 0xFFFF, aa0 := 0xFFFF, aa1 := 0xFFFF, aaSegs := [], bias := 0 }

/-- A graph with no cells. -/
def Graph.bare (g : Graph) : Graph :=
  { g with prims := g.prims.map Prim.bare, nets := g.nets.map fun n => { n with segs := [] }, spareCells := [] }

/-- A graph as a search for it begins. -/
def Ask.start (a : Ask) (g : Graph) : Graph :=
  if a.stay.isNone then g.bare else { g with prims := g.prims.zipIdx.map fun e => if a.stays e.2 then e.1 else e.1.bare }

/-- The best placement under some bounds; one that ONE_REGION holds together may leave the regions of R26 and R44. -/
def State.placement (s : State) (a : Ask) (g : Graph) : Option Graph :=
  let ns := (List.range 1024).filter fun n => s.usable n && (!a.ready || s.ctrlOk (n / 128))
  let run (a : Ask) : Option Graph := (s.search a (s.leastSums ns) (s.withData ns) (g.choiceOrder.filter (!a.stays ·)) (a.start g) none).map (·.2)
  (run a).orElse fun _ => if g.oneRegion then run { a with home := false } else none

/-- The PREFER pins that can be honoured, tried in the order of their primitives: those with which the outcome is no worse
(03 R68; DESIGN CHOICE, log 13). -/
def State.keptPins (s : State) (a : Ask) (g : Graph) : List Nat :=
  match s.placement a g with
  | none => []
  | some x => ((List.range g.prims.length).filter fun i => !a.stays i && (g.prim i).pin.any fun q => !q.require).foldl (fun l i =>
      match s.placement { a with kept := l ++ [i] } g with
      | some y => if outcomeOf y ≤ outcomeOf x then l ++ [i] else l
      | none => l) []

/-- The placement that ranks first, PREFER pins honoured. -/
def State.bestPlacement (s : State) (a : Ask) (g : Graph) : Option Graph :=
  s.placement { a with kept := if (g.prims.any fun p => p.pin.any fun q => !q.require) then s.keptPins a g else [] } g

/-- The placement of a graph that ranks first (03 R68, R76); none where it cannot be built. -/
def State.best (s : State) (a : Ask) (g : Graph) : Option Graph :=
  if (s.tapsFor g).length ≠ g.convLoads.length then none else s.bestPlacement a g

/-! ### Destinations of transplants and repairs (04 R98, R99) -/

/-- The tracks of every net that a move touches, at its destination; none where one finds no free track (04 R98). Those that a net
has serve it further. -/
def State.moveNets (s : State) (g : Graph) (i : Nat) (d : PlaceP) : Option (List (Nat × List Nat)) :=
  let g' := g.setPrim i ((g.prim i).on d)
  s.routeAll g' (fun j => g.segsOf j) (netsTouching g' i)

/-- What a destination is wanted for: a REPAIR, or a planned transplant for a reason; `pin` are the pins that bind it, `fix` the only
place it may take, `avoid` cells promised to another and `accept` what the graph must be there. -/
structure Want where
  repair : Bool := false
  why : MoveWhy := .host
  pin : List Pin := []
  fix : Option PlaceP := none
  avoid : List Nat := []
  accept : Graph → Bool := fun _ => true

/-- May a cell be a destination at one of the places 1 to 5 of R98, or at an earlier one: a spare reserved for the graph; a warm
pool spare of the primitive's region, or for REPAIR and EVACUATE of any; a free cell? Stolon moves to warm spares alone (R120), and a
region that is being loaded lends no pool spare (R126). -/
def State.placeCell (s : State) (slot here : Nat) (w : Want) (place n : Nat) : Bool :=
  s.ctrlOk (n / 128) && (match (s.cell n).use with
  | .reserved g => decide (g = slot) && (w.repair || !decide (w.why = .stolon) || s.warmNow n)
  | .pool => s.warmNow n && !(s.region (n / 128)).loading &&
      ((decide (2 ≤ place) && decide (n / 128 = here)) || (decide (3 ≤ place) && (w.repair || decide (w.why = .evacuate))))
  | .free => decide (4 ≤ place) && s.usable n && !decide (w.why = .stolon ∧ !w.repair)
  | _ => false) && s.placeable n

/-- Does a place keep what a transplant for a reason asks of it (04 R96, R98, R126; 17 R456)? An evacuation leaves a region that is
being loaded, a failed one and a quarantined block. -/
def State.placeAllowed (s : State) (g : Graph) (i : Nat) (w : Want) (d : PlaceP) : Bool :=
  let cells := placeCells d
  ballsIn g i d && (w.pin.all fun q => pinHolds q d.c0) && (w.fix.all fun f => decide (f = { d with bias := f.bias })) &&
  (cells.all fun n => !(g.prim i).cells.contains n && !(s.block (n / 16)).quarantined) &&
  (decide (w.why ≠ .evacuate) || w.repair || cells.all fun n => !(s.region (n / 128)).loading)

/-- Does a destination raise no record of the graph to a shortfall above the larger of its present one and 0 (04 R99)? -/
def raisesNone (now new : Graph) : Bool :=
  (now.specs.zip new.specs).all fun e => decide (e.1.kind = 2) || (let a := shortfall e.1; let b := shortfall e.2; !b.pos || !a.lt b)

/-- A primitive of a placed graph on a destination as predicted, at the bias code that it has, with its tracks there. -/
def State.onDest (s : State) (g : Graph) (i : Nat) (d : PlaceP) : Option Graph :=
  let p := g.prim i
  let q := p.on { d with bias := p.bias }
  let g1 : Graph := { g.setPrim i q with specs := g.specs.map fun r => if r.prim = i then (s.predict q r).on q else r }
  (s.moveNets g i d).map fun rs => g1.route rs

/-- The destinations that one place of R98 offers, each with the graph as it would stand. -/
def State.destsAt (s : State) (slot : Nat) (g : Graph) (i : Nat) (w : Want) (place : Nat) : List (PlaceP × Graph) :=
  let p := g.prim i
  let here := cellRegion p.c0
  let cells := s.withData ((List.range 1024).filter fun n => s.placeCell slot here w place n)
  let pinned := w.pin.findSome? fun q => if q.scope = 2 then some q.num else none
  let ds := (match w.fix with
    | some f => [f]
    | none => placesOf 1 p i pinned cells).filter fun d =>
      (placeCells d).all (fun n => !w.avoid.contains n && cells.any fun e => e.1 == n) && s.placeAllowed g i w d
  (atHome g i (ds.filterMap fun d => (s.onDest g i d).map (d, ·))).filter fun x => w.accept x.2 && (w.repair || (match w.why with
    | .thermal => raisesNone g x.2 && decide (64 * s.blockTemp (x.1.c0 / 16) < ((List.range 64).map fun k => s.blockTemp k).sum)
    | .stolon => raisesNone g x.2
    | _ => true))

/-- The first by R76 of some destinations; a PREFER pin goes before (03 R82), but in a REPAIR (R83). -/
def State.bestDest (s : State) (g : Graph) (i : Nat) (repair : Bool) (xs : List (PlaceP × Graph)) : Option (PlaceP × Graph) :=
  (prefer (fun x => repair || (g.prim i).pin.all fun q => q.require || pinHolds q x.1.c0) xs).foldl (fun b x => match b with
    | none => some x
    | some y => if s.candLt x.2 y.2 then some x else b) none

/-- The destination that the first place of R98 that offers any gives: places 1, 2, 3 and then free cells; the cells of a pair may
come from different places. -/
def State.chooseDest (s : State) (slot : Nat) (g : Graph) (i : Nat) (w : Want) : Option PlaceP :=
  ([1, 2, 3, 4].findSome? fun place => s.bestDest g i w.repair (s.destsAt slot g i w place)).map fun x => { x.1 with bias := (g.prim i).bias }

/-- The pins that bind a planned move of a primitive: its REQUIRE pin, and the destination pin of a TRANSPLANT. -/
def movePins (p : Prim) (pin : Option Pin) : List Pin := (p.pin.filter fun q => q.require).toList ++ pin.toList

end Sys2Proof.Machine
end

