-- ==== Sys2Proof/Machine/MoveOps.lean ====
section
/-! DEFINITION. Shared operations of transplants: what rows of several families plan, start, end or abandon
(04_transplant_and_stolon.md R96-R108, R123-R125; 03_tiller_placement.md R81-R86). -/

namespace Sys2Proof.Machine

/-! ### Graph outcome (03 R81) -/

/-- Take what was measured for some records of a graph, evaluate them again and raise GRAPH_OUTCOME where its class changes. -/
def State.reevalBy (s : State) (slot : Nat) (mine : SpecRec → Bool) (meas : Measured) : State :=
  match s.graph slot with
  | none => s
  | some g =>
    let g1 := g.measure (s.primTemp g) meas mine
    let o := outcomeOf g1
    let s1 := s.setGraph slot (some { g1 with outcome := o, temp := s.graphTemp g1 })
    if o = g.outcome ∨ g.phase < 7 then s1 else s1.log 0x206 4 0 ((s1.hnd slot).value slot) (o + g.outcome * 256)

/-- The same for the records of primitive `i`. -/
def State.reeval (s : State) (slot i : Nat) (meas : Measured) : State := s.reevalBy slot (fun r => r.prim == i) meas

/-! ### Moves in State -/

/-- Priority number of a reason (04 R96). -/
def MoveWhy.priority : MoveWhy → Nat
  | .evacuate => 2
  | .host => 3
  | .pin => 3
  | .tune => 3
  | .thermal => 4
  | .stolon => 5

/-- The argument that names a primitive of a graph in a log entry (17 R469). -/
def State.primArg (s : State) (slot prim : Nat) : Nat := (s.hnd slot).value slot + prim * 65536

/-- The region of a destination. -/
def placeRegion (p : PlaceP) : Nat := cellRegion p.c0

/-- The regions of a destination's cells. -/
def placeRegions (p : PlaceP) : List Nat := ((placeCells p).map (· / 128)).eraseDups

/-- The list of moves. -/
def State.setMoves (s : State) (l : List Move) : State := { s with til := { s.til with moves := l } }

/-- Take a move out of the list. -/
def State.dropMove (s : State) (m : Move) : State := s.setMoves (s.til.moves.filter fun x => decide (x ≠ m))

/-- Replace a move. -/
def State.setMove (s : State) (slot i : Nat) (m : Option Move) : State :=
  let mine (x : Move) : Bool := decide (x.graph = slot) && decide (x.prim = i) && decide (1 ≤ x.step)
  s.setMoves (match m with
    | none => s.til.moves.filter (!mine ·)
    | some m => s.til.moves.map fun x => if mine x then m else x)

/-- The move of a primitive that is in progress. -/
def State.moveOf (s : State) (slot i : Nat) : Option Move :=
  s.til.moves.find? fun m => decide (m.graph = slot) && decide (m.prim = i) && decide (1 ≤ m.step)

/-- Does a graph have a move in progress? -/
def State.moving (s : State) (slot : Nat) : Bool := s.til.moves.any fun m => decide (m.graph = slot) && decide (1 ≤ m.step)

/-- Is a graph under repair, or a primitive of it? -/
def State.repairing (s : State) (slot : Nat) : Bool := (List.range 8).any fun r => (s.region r).repairs.any fun q => q.graph == slot
def State.repairingPrim (s : State) (slot i : Nat) : Bool :=
  (List.range 8).any fun r => (s.region r).repairs.any fun q => q.graph == slot && q.prim == i

/-- Are a REPAIR's steps running in a region, so that planned work and runs pause (04 R123; 08 R228)? -/
def State.repairsIn (s : State) (r : Nat) : Bool := !(s.region r).repairs.isEmpty

/-- The cells that a primitive has left but still holds. -/
def State.vacated (s : State) (slot prim : Nat) : List Nat :=
  match s.graph slot with
  | none => []
  | some g => (s.til.cells.filter fun e => decide (e.2.use = .fn slot prim) && !(g.prim prim).cells.contains e.1).map (·.1)

/-! ### Ending a move (04 R103, R125) -/

/-- What a move's converters hold for it is released: a crossfade, and the companion loops that it has taken (R119). -/
def State.releaseLoops (s : State) (m : Move) (g : Graph) : State :=
  let s1 := ((reaches g m.prim).map (·.1)).eraseDups.foldl (fun s c =>
    let v := s.conv c
    if v.xf.any fun x => decide (x.graph = m.graph) && decide (x.prim = m.prim) then s.setConv c { v with xf := none } else s) s
  m.loops.foldl (fun s c =>
    let v := s.conv c
    if v.comp = 1 then s.setConv c { v with comp := 0, priv := [] } else s) s1

/-- Freeze or thaw the calibration of cells (04 R124): freezing discards a run in progress and staged calibration
changes. -/
def State.setFrozen (s : State) (cells : List Nat) (v : Bool) : State :=
  cells.foldl (fun s n =>
    let s1 := if v then s.dropRun 0 n else s
    let c := s1.cell n
    s1.setCell n (if v && c.stagedCal then
        { c with frozen := v, staged := c.staged.filter (fun e => e.1 == 44), stagedCal := false, calRes := none }
      else { c with frozen := v })) s

/-- Free the tracks that a move or repair holds beside those of its graph. -/
def State.dropTracks (s : State) (slot : Nat) (nets : List (Nat × List Nat)) : State :=
  let kept := (s.graph slot).elim [] Graph.allSegs
  ((nets.flatMap (·.2)).filter fun k => !kept.contains k).foldl (fun s k => s.freeSeg k) s

/-- No more samples of a function carry TRANSPLANT (04 R125). -/
def State.clearTp (s : State) (slot i : Nat) (g : Graph) : State :=
  (reaches g i).foldl (fun s r =>
    let v := s.conv r.1
    s.setConv r.1 { v with tp := (s.entriesOf r.1 r.2 slot).foldl (fun t e => Tbl.set 0 e 0 t) v.tp }) s

/-- What is left of a move once its destination is no longer in play: it leaves the list, the source's calibration thaws, and a
handover that had begun is taken back. -/
def State.leaveMove (s : State) (m : Move) : State :=
  match s.graph m.graph with
  | none => s.dropMove m
  | some g =>
    let s1 := s.dropMove m
    if m.step = 0 then s1
    else
      let s2 := ((s1.dropTracks m.graph m.nets).releaseLoops m g).setFrozen ((g.prim m.prim).cells ++ placeCells m.dest) false
      let s3 := (g.prim m.prim).cells.foldl (fun s n => s.setCell n { s.cell n with levelHeld := false, tnh := false }) s2
      if m.step < 6 then s3 else s3.clearTp m.graph m.prim g

/-- A move goes no further: the function stays at the source, and the destination is released (04 R103, R125). -/
def State.withdraw (s : State) (m : Move) : State :=
  let s1 := s.leaveMove m
  if m.step = 0 then s1 else s1.giveBack m.graph (placeCells m.dest)

/-- A GRAPH_TUNE whose transplant cannot be made changes nothing (03 R86): its other transplants go no further either. -/
def State.failTune (s : State) (m : Move) : State :=
  match m.handle with
  | none => s
  | some h => match (s.hnd h).work with
    | .tune gs false _ =>
      let s1 := (s.til.moves.filter fun x => decide (x.handle = some h) && decide (x.step < 6)).foldl (fun s x => s.withdraw x) s
      (s1.revertGraph gs).final h stSPEC_UNMET 2 ((s.graph gs).elim 0 graphPowerUW)
    | _ => s

/-- The command that asked for a move which has ended short of its crossover. -/
def State.endCmd (s : State) (m : Move) (status r0 reason : Nat) : State :=
  match m.handle, m.why with
  | some h, .host => s.final h status r0 reason
  | some _, .tune => s.failTune m
  | _, _ => s

/-- Abandon a move before its crossover ends; a command that asked for it ends with a status and a reason. -/
def State.abandonMove (s : State) (m : Move) (status reason : Nat) : State := (s.withdraw m).endCmd m status 0 reason

/-- A move as it waits to start. -/
def Move.again (m : Move) : Move :=
  { m with step := 0, round := 0, dest := {}, src := {}, nets := [], loops := [], todo := [], cold := [], took := (0, 0) }

/-- A move that no command of the host asked for is tried again later (04 R125; 01 R17). -/
def State.requeue (s : State) (m : Move) : State := if m.why = .host then s else s.setMoves (s.til.moves ++ [m.again])

/-- Abandon every move of a graph (03 R87). -/
def State.abandonMoves (s : State) (slot status reason : Nat) : State :=
  (s.til.moves.filter fun m => m.graph == slot).foldl (fun s m => s.abandonMove m status reason) s

/-! ### Starting a move (04 R96-R99, R102, R123) -/

/-- A graph whose primitive `i` has what a GRAPH_TUNE has staged for it (03 R86). -/
def Graph.tunedAt (g : Graph) (i : Nat) : Graph :=
  match g.next.find? fun n => n.prim == i with
  | none => g
  | some n => g.setPrim i { g.prim i with mode := n.mode, par := n.par, bias := n.bias }

/-- The destination of a move (04 R98; 03 R83): one that its pins allow; Stolon goes outside a pin where they allow none. -/
def State.moveDest (s : State) (g : Graph) (m : Move) : Option PlaceP :=
  let w : Want := { why := m.why, pin := movePins (g.prim m.prim) m.pin, fix := m.fix }
  (s.chooseDest m.graph (g.tunedAt m.prim) m.prim w).orElse fun _ =>
    if m.why = .stolon then s.chooseDest m.graph (g.tunedAt m.prim) m.prim { w with pin := [] } else none

/-- May the regions of a destination start another planned transplant (04 R111, R123; 01 R20)? It counts against the region of the
function's own cells there. -/
def State.moveRoom (s : State) (d : PlaceP) (why : MoveWhy) : Bool :=
  let r := placeRegion d
  let l := s.til.moves.filter fun m => decide (1 ≤ m.step) && decide (placeRegion m.dest = r)
  ((placeRegions d).all fun r => s.ctrlOk r) && !s.repairsIn r && decide (l.length < 4) &&
  (decide (why ≠ .stolon ∧ why ≠ .thermal) || decide ((l.filter fun m => decide (m.why = .stolon) || decide (m.why = .thermal)).length < 2))

/-- The converters that the output net of a primitive loads. -/
def Graph.outConvs (g : Graph) (i : Nat) : List Nat :=
  (g.nets.filter fun n => n.drvKind == 0 && n.drv == i).flatMap fun n => (n.loads.filter fun c => loadKind c == 1).map loadConv

/-- Step 1 of R102: the destination's entries are placed with the source's owner, a borrowed cell is yielded, the tracks of the nets
are held, and spares taken are restored; a test's own move owes its spares to the cells it vacates (R120). -/
def State.startMove (s : State) (m : Move) (g : Graph) (d : PlaceP) : State :=
  let nets := (s.moveNets g m.prim d).getD []
  let cells := placeCells d
  let pool := cells.filter fun n => decide ((s.cell n).use = .pool)
  let kept := cells.filter fun n => decide ((s.cell n).use = .reserved m.graph)
  let cold := cells.filter fun n => !s.warmNow n
  let m1 : Move := { m with
    step := 1, dest := d, nets := nets, cold := cold, todo := (g.outConvs m.prim).eraseDups,
    took := if m.why = .stolon then (pool.length, kept.length) else m.took }
  let s1 := cells.foldl (fun s n => (s.yieldCell n 1).takeCell n m.graph m.prim 0 true true) s
  let s2 := (s1.yieldSegs (nets.flatMap (·.2)) 1).takeRoutes m.graph (nets.map fun e => (e.1, e.2.filter fun k => s1.segFree k)) true
  let s3 := (s2.setMoves (s2.til.moves.map fun x => if x = m then m1 else x)).setSpares m.graph fun l => l.filter fun n => !cells.contains n
  let s4 := if m.why = .thermal then
      let r := cellRegion (g.prim m.prim).c0
      s3.setRegion r { s3.region r with lastThermal := some s3.now }
    else s3
  if pool.isEmpty && kept.isEmpty then s4 else s4.restock

/-- A planned transplant that cannot start (04 R98, R99): logged, and a TRANSPLANT ends with NO_RESOURCE; Stolon passes over the cells
for this coverage period (log 13). -/
def State.skipMove (s : State) (m : Move) (g : Graph) : State :=
  let p := g.prim m.prim
  let s1 := (s.dropMove m).log 0x205 1 p.c0 (s.primArg m.graph m.prim) m.why.priority
  let s2 := if m.why = .stolon then
      let r := cellRegion p.c0
      s1.setRegion r { s1.region r with covSkip := (s1.region r).covSkip ++ p.cells }
    else s1
  s2.endCmd m stNO_RESOURCE 0 0

/-- Start the waiting moves that may start, in the order of their priority (04 R96, R97, R123). The controller of the source's region
takes part, but where it has failed: then the destination's drives an evacuation (01 R19, R21; 17 R457). -/
def State.pumpMoves (s : State) : State :=
  (sortBy (fun a b => decide (a.why.priority ≤ b.why.priority)) s.til.moves).foldl (fun s m =>
    if m.step ≠ 0 ∨ !s.til.moves.contains m ∨ (s.moveOf m.graph m.prim).isSome ∨ s.repairingPrim m.graph m.prim then s
    else match s.graph m.graph with
      | none => s.dropMove m
      | some g =>
        let here := cellRegion (g.prim m.prim).c0
        if !(s.ctrlOk here || (decide (m.why = .evacuate) && (s.region here).failed)) then s
        else match s.moveDest g m with
          | none => s.skipMove m g
          | some d => if s.moveRoom d m.why then s.startMove m g d else s) s

/-- Ask for a planned transplant. -/
def State.planMove (s : State) (m : Move) : State := (s.setMoves (s.til.moves ++ [m])).pumpMoves

/-! ### Crossover (04 R101, R104, R106, R107; 05 R133) -/

/-- The excitation switches that a primitive's output drives, by their segments. -/
def Graph.ballSegs (g : Graph) (i : Nat) : List Nat := (ballsOf g i).map ballSeg

/-- Open or close an excitation switch (03 R92). -/
def State.setSwitch (s : State) (k : Nat) (closed : Bool) : State :=
  let l := s.led (segEntry k)
  if l.state ≠ 1 then s else s.setLed (segEntry k) { l with detail := l.detail % 2 ^ 17 + (if closed then 2 ^ 17 else 0) }

/-- The first crossover boundary of a matched move (04 R101, R104): a crossfade in converter `c`. -/
def State.startFade (s : State) (c : Nat) (m : Move) (g : Graph) : State :=
  let entry := ((reaches g m.prim).find? fun r => decide (r.1 = c)).bind fun r => (s.entriesOf c r.2 m.graph).head?
  let s1 := match entry with
    | none => s
    | some e => s.setConv c { s.conv c with xf := some { graph := m.graph, prim := m.prim, len := m.len, entry := e } }
  s1.setMove m.graph m.prim (some { m with step := 6, todo := m.todo.filter fun k => decide (k ≠ c) })

/-- The handover of a primitive whose output loads no converter (04 R101, R106, R107): the L samples of each converter that it reaches
are marked; a CMP holds its outputs; where it drives a ball, a BUF's track-and-hold enters hold and the ball's switch opens. -/
def State.startHandover (s : State) (m : Move) (g : Graph) : State :=
  let p := g.prim m.prim
  let s1 := (reaches g m.prim).foldl (fun s r =>
    let v := s.conv r.1
    s.setConv r.1 { v with tp := (s.entriesOf r.1 r.2 m.graph).foldl (fun t e => Tbl.set 0 e (max m.len (Tbl.get 0 e t)) t) v.tp }) s
  let s2 := if p.ty = 7 then (p.cells ++ placeCells m.dest).foldl (fun s n => s.setCell n { s.cell n with levelHeld := true }) s1 else s1
  let s3 := if p.ty = 1 ∧ !(g.ballSegs m.prim).isEmpty then p.cells.foldl (fun s n => s.setCell n { s.cell n with tnh := true }) s2 else s2
  ((g.ballSegs m.prim).foldl (fun s k => s.setSwitch k false) s3).setMove m.graph m.prim (some { m with step := 6 })

/-- The change that a GRAPH_TUNE makes with a transplant is a change in the signal path of the converters reached (04 R108; 05
R148). -/
def State.tuneSettles (s : State) (m : Move) (g : Graph) (a : Prim → Nat × Nat) (convs : List Nat) : State :=
  if g.next.any fun n => n.prim == m.prim then convs.foldl (fun s c => s.settleConv c (a ((g.tunedAt m.prim).prim m.prim))) s else s

/-- The analogue settle time of a change to a primitive, in ticks (05 R148). -/
def tuneSettle (p : Prim) : Nat × Nat :=
  match p.ty with
  | 2 | 3 | 6 => let q := settleTime p; (250 * q.1.toNat, q.2)
  | 4 => (1100000000 * (f32 (p.par.getD 1 0)).toNat, (f32 (p.par.getD 0 0)).toNat)
  | _ => (5000, 1)

/-- The crossovers that begin at a boundary: that of converter `c`, or of the apply strobe where `c` is none. -/
def State.crossAt (s : State) (c : Option Nat) : State :=
  s.til.moves.foldl (fun s m0 =>
    match s.graph m0.graph, s.moveOf m0.graph m0.prim with
    | some g, some m =>
      if (m.step = 5 ∨ m.step = 6) ∧ !m.todo.isEmpty then
        match c with
        | some c => if m.todo.contains c then (s.startFade c m g).tuneSettles m g tuneSettle [c] else s
        | none =>
          -- converters that have no instants left start nothing: their paths switch at the strobe
          let rest := m.todo.filter fun k => !(s.conv k).eff.isNone
          if rest.isEmpty then s.setMove m.graph m.prim (some { m with step := 6, todo := [] }) else s
      else if m.step = 5 ∧ s.boundaryConv g m.prim = c then
        (s.startHandover m g).tuneSettles m g tuneSettle ((reaches g m.prim).map (·.1)).eraseDups
      else s
    | _, _ => s) s

/-! ### What cells that become free are used for (03 R83; 04 R98, R117) -/

/-- A REPAIR joins a region's queue (04 R113). -/
def State.queueRepair (s : State) (q : Repair) (r : Nat) : State :=
  let v := s.region r
  s.setRegion r { v with repairs := v.repairs ++ [q] }

/-- A primitive that is left without cells is repaired once cells are found for it (04, repair without a warm spare). -/
def State.retryStranded (s : State) : State :=
  s.til.stranded.foldl (fun s q => match s.graph q.graph with
    | none => s
    | some g => match s.chooseDest q.graph g q.prim { repair := true } with
      | none => s
      | some d =>
        let s1 : State := { s with til := { s.til with stranded := s.til.stranded.filter fun x => decide (x ≠ q) } }
        s1.queueRepair { q with step := 2, dest := none } (placeRegion d)) s

/-- Does a primitive break its REQUIRE pin? -/
def breaksPin (p : Prim) : Bool := decide (p.c0 < 1024) && p.pin.any fun q => q.require && !pinHolds q p.c0

/-- Does a test wait for, or run on, the cells that a primitive has left (04 R120)? -/
def State.underTest (s : State) (slot i : Nat) : Bool :=
  (List.range 8).any fun r => (s.region r).tests.any fun t => t.owner.any fun o => o.1 == slot && o.2.prim == i

/-- Move back, within their pins, primitives that a repair or test has put outside a REQUIRE pin (03 R83). -/
def State.pinBack (s : State) : State :=
  s.graphs.foldl (fun s e => (List.range e.2.prims.length).foldl (fun s i =>
    let p := e.2.prim i
    if e.2.phase ≠ 7 ∨ !breaksPin p ∨ s.til.moves.any (fun m => m.graph == e.1 && m.prim == i) ∨ s.repairing e.1 ∨ s.underTest e.1 i then s
    else if (s.chooseDest e.1 e.2 i { why := .pin, pin := movePins p none }).isSome then
      s.setMoves (s.til.moves ++ [{ graph := e.1, prim := i, why := .pin, len := s.til.policy.len }])
    else s) s) s

/-- Cells have become free: spares are restored, stranded primitives repaired, pins kept again, and waiting moves start. -/
def State.cellsFreed (s : State) : State := s.restock.retryStranded.pinBack.pumpMoves

end Sys2Proof.Machine
end

