-- ==== Sys2Proof/Machine/Placement.lean ====
section
/-! DEFINITION. Placement: GRAPH_PLACE and its phases, GRAPH_REMOVE, GRAPH_TUNE, GRAPH_PIN, TRANSPLANT, LEDGER_READ
(03_tiller_placement.md R51-R95, 12_command_reference.md R337-R340, 01_organisation.md R26). -/

namespace Sys2Proof.Machine

/-! ### Phase 1 and what ends a placement -/

/-- Forget a graph. -/
def State.dropGraph (s : State) (slot : Nat) : State :=
  let s1 := s.setGraph slot none
  { s1 with til := { s1.til with queue := s1.til.queue.filter fun k => decide (k ≠ slot) } }

/-- The management core takes the graphs at the head of the queue through phase 1 (03 R69, R70). -/
def State.parseHead : Nat → State → State
  | 0, s => s
  | f + 1, s =>
    match s.til.queue with
    | [] => s
    | slot :: _ =>
      match s.graph slot with
      | none => State.parseHead f (s.dropGraph slot)
      | some g =>
        if g.phase ≠ 1 then s
        else
          let a := (s.hnd slot).args
          let bad := decide (fld a 0 8 % 8 ≠ 0) || decide (fld a 16 8 % 8 ≠ 0) || !s.bufOk (fld a 0 8) (fld a 8 4) ||
            !s.bufOk (fld a 16 8) (fld a 24 4)
          match (if bad then .error stBAD_ARG else parseGraph (a.drop 32) (fld a 8 4) (fld a 24 4)) with
          | .error st => State.parseHead f ((s.dropGraph slot).final slot st 0xFF 0)
          | .ok g' => (s.setGraph slot (some { g' with reportAddr := fld a 16 8, start := s.now })).progress slot 2

/-- Phase 1 of whatever now heads the queue. -/
def State.parseNext (s : State) : State := s.parseHead (s.til.queue.length + 1)

/-- Cells that a graph holds, spares included. -/
def Graph.held_ (g : Graph) : List Nat := g.cells ++ g.spareCells

/-- Give a graph its cells, tracks, spares and taps, and configure its functions (03 R69, R79, R91; 05 R133), yielding what Stolon
borrows (R75). The nets now hold the tracks of phase 3. -/
def State.claim (s : State) (slot : Nat) (g0 : Graph) : State :=
  let g : Graph := { g0 with globals := [], regions := g0.prims.map fun p => cellRegion p.c0 }
  let taps := s.tapsFor g
  let s1 := (g.prims.zipIdx).foldl (fun s e => e.1.cells.foldl (fun s n => (s.yieldCell n 1).takeCell n slot e.2 e.1.bias false false) s) s
  let s2 := (s1.yieldSegs g.allSegs 1).takeNets g slot false
  let s3 := (List.range g.prims.length).foldl (fun s i => (s.configPrim (g.prim i)).joinPorts g i) s2
  let s4 := g.spareCells.foldl (fun s n => ((s.yieldCell n 1).spareCell n (some slot)).markCell n 2 0 false) s3
  (s4.setGraph slot (some g)).takeTaps slot taps

/-- Free what a graph holds (03 R88; 02 R36): its cells, its tracks, and the global tracks of phase 3 that no net holds yet. -/
def State.unclaim (s : State) (g : Graph) : State :=
  let s1 := g.held_.foldl (fun s n => s.freeCell n) s
  let s2 := s1.freeNets g
  g.globals.foldl (fun s e => s.freeSeg e.2) s2

/-- A placement ends without a graph (03 R87, R55): what it holds is released. -/
def State.stopPlace (s : State) (slot status r0 r1 : Nat) : State :=
  match s.graph slot with
  | none => s.final slot status r0 r1
  | some g => (((s.unclaim g).dropGraph slot).final slot status r0 r1).cellsFreed.parseNext

/-- The report and FINAL of a placement (03 R55, R72, R80; 12 R337). -/
def State.finishPlace (s : State) (slot : Nat) (g0 : Graph) (outcome : Nat) : State :=
  let g1 : Graph := { g0 with outcome := outcome, placeTime := (roundFree ((s.now : Int) - g0.start) 250).toNat, phase := 7 }
  let g : Graph := { g1 with temp := s.graphTemp g1 }
  let s1 := s.hostWrite g.reportAddr (reportBytes g ((s.hnd slot).value slot) g.reportOnly)
  let st := outcomeStatus outcome
  if g.reportOnly then (s1.dropGraph slot).final slot st outcome (graphPowerUW g)
  -- a command discarded by a host-interface reset leaves no graph (14 R394; log 29)
  else if 2 ≤ outcome ∨ (s.hnd slot).discard then s1.stopPlace slot st outcome (graphPowerUW g)
  else
    let s2 := g.cells.foldl (fun s n => s.markCell n 1 slot true) s1
    let s3 := g.spareCells.foldl (fun s n => s.markCell n 2 slot true) s2
    let s4 := s3.takeNets g slot true
    -- a cell that has received its first function is due for a run (08 R218)
    let s5 := g.cells.foldl (fun s n => s.makeDue 0 n (s.blockTemp (n / 16)) 0 []) s4
    ((s5.setGraph slot (some g)).controls g).finalObj slot 1 st outcome (graphPowerUW g)

/-- GRAPH_PLACE (03 R55-R73, 12 R337): the image is kept with the argument record until phase 1 reads it. -/
def bodyGraphPlace (image : Bytes) (slot : Nat) (a : Bytes) (s : State) : State :=
  let img := s.hostRead (fld a 0 8) (min (fld a 8 4) 32768) image
  let s1 := s.setHnd slot { s.hnd slot with args := a ++ img, work := .place }
  let s2 := s1.setGraph slot (some {})
  (({ s2 with til := { s2.til with queue := s2.til.queue ++ [slot] } }).progress slot 1).parseNext

def execGraphPlace (d : Desc) (image : Bytes) (s : State) : Host.Outcome State Fault Refusal :=
  queueCmd d s fun s => s.command 0x0100 d (fun a => firstBad a (rsv 12 4 ++ rsv 28 4)) (fun _ _ => none) (bodyGraphPlace image)

/-! ### Phases 2 and 3 (03 R69, R70; 01 R26, R29; 02 R43, R44) -/

/-- Does another graph hold an input pair or ball that this one needs (03 R63)? -/
def State.portsTaken (s : State) (slot : Nat) (g : Graph) : Bool :=
  g.nets.any fun n => (decide (n.drvKind = 1) && s.pairUsed slot n.drv) ||
    n.loads.any fun c => loadKind c == 2 && s.ballUsed slot (loadBall c)

/-- The graph cannot be built (03 R55): its phase 6 comes next, or with REPORT_ONLY its report at once. It is placed whole or not at
all, so that the report shows no primitive with cells (DESIGN CHOICE, log 13). -/
def State.noResource (s : State) (slot : Nat) (g : Graph) : State :=
  let g' : Graph := { g.bare with phase := 6, noRoom := true }
  if g.reportOnly then s.finishPlace slot g' 3 else s.setGraph slot (some g')

/-- The global tracks of a placement, as (net, track). -/
def Graph.globalTracks (g : Graph) : List (Nat × Nat) :=
  g.netIdx.flatMap fun j => ((g.segsOf j).filter fun k => decide (5120 ≤ k) && decide (k < 5184)).map (j, ·)

/-- PARTITION (03 R69, R70): phases 2 and 3 of the graph at the head of the queue give each primitive its region and each net that
leaves one its global track: those of the placement that ranks first by R76 now (DESIGN CHOICE, log 13). -/
def execPartition (t slot : Nat) (s : State) : Host.Outcome State Fault Refusal :=
  let s := s.at t
  match s.graph slot with
  | none => .next s
  | some g =>
    if s.til.queue.head? ≠ some slot ∨ g.phase ≠ 2 ∨ s.chip.restarting ∨ s.chip.failed then .next s
    else
      let left : State := { s with til := { s.til with queue := s.til.queue.tail } }
      match (if s.portsTaken slot g then none else s.best {} g) with
      | none => .next (left.noResource slot g).parseNext
      | some x =>
        let g' : Graph := { g with phase := 4, regions := x.prims.map fun p => cellRegion p.c0, globals := x.globalTracks }
        let s1 := left.setGraph slot (some g')
        let s2 := if g.reportOnly then s1 else (s1.yieldSegs (g'.globals.map (·.2)) 1).takeRoutes slot (g'.globals.map fun e => (e.1, [e.2])) false
        .next (s2.progress slot 4).parseNext

/-! ### Phase 4 (03 R75-R79) -/

/-- The region controllers a placement needs: 2 one has failed, 1 one restarts, 0 all accept configuration. -/
def State.ctrlState (s : State) (rs : List Nat) : Nat :=
  if rs.any fun r => (s.region r).failed then 2 else if rs.any fun r => !(s.region r).ready then 1 else 0

/-- The placement of phase 4 beside some already tried (03 R69-R71): the one that ranks first in the regions and over the global
tracks of phases 2 and 3; where these offer none any more, the one that ranks first of all. -/
def State.placeIn (s : State) (g : Graph) (k : Nat) (tried : List (List Nat)) : Option Graph :=
  let s0 := g.globals.foldl (fun s e => s.freeSeg e.2) s
  (s0.best { k := k, regions := some g.regions, globals := g.globals, tried := tried } g).orElse fun _ => s0.best { k := k, tried := tried } g

/-- CELL_SELECTION (03 R69, R75-R79): the placement that ranks first; none leaves NO_RESOURCE. -/
def execCellSelection (t slot : Nat) (s : State) : Host.Outcome State Fault Refusal :=
  let s := s.at t
  match s.graph slot with
  | none => .next s
  | some g =>
    if g.phase ≠ 4 then .next s
    else match s.ctrlState g.regions with
      | 2 => .next (s.stopPlace slot stFAULT 0 0)
      | 1 => .next s
      | _ =>
        match s.placeIn g 1 [] with
        | none => .next (((g.globals.foldl (fun s e => if g.reportOnly then s else s.freeSeg e.2) s).noResource slot { g with globals := [] }).progress slot 6)
        | some x =>
          if g.reportOnly then .next (s.finishPlace slot x (outcomeOf x))
          else match s.ctrlState (x.prims.map fun p => cellRegion p.c0) with
            | 2 => .next (s.stopPlace slot stFAULT 0 0)
            | 1 => .next s
            | _ =>
              let s0 := g.globals.foldl (fun s e => s.freeSeg e.2) s
              .next ((s0.claim slot { x with phase := 5 }).progress slot 5)

/-! ### Phases 5 and 6 -/

/-- A cell is calibrated as it is built (03 R69). -/
def State.builtCell (s : State) (n : Nat) : State :=
  s.setCell n { s.cell n with calTime := some s.now, calTemp := s.blockTemp (n / 16), due := false }

/-- The largest shortfall of a graph. -/
def worst (g : Graph) : Option Q := largestShort g.specs

/-- A graph with what was measured for all its records. -/
def State.measured (s : State) (g : Graph) (meas : Measured) : Graph := g.measure (s.primTemp g) meas fun _ => true

/-- Further candidates of phase 5 (03 R71): the next in rank beside those tried, each built and measured with the next measurements;
answers the one with the smallest largest shortfall so far. `bare` is the machine without the graph's cells. -/
def State.further (bare : State) (g : Graph) : List Measured → Nat → List (List Nat) → Graph → Graph
  | [], _, _, b => b
  | m :: ms, k, tried, b =>
    match bare.placeIn g k tried with
    | none => b
    | some x =>
      let y := bare.measured x m
      State.further bare g ms (k + 1) (x.cells :: tried) (if shortLt (worst y) (worst b) then y else b)

/-- BUILD_AND_MEASURE (03 R69, R71): the claimed placement with its measurements, and up to two more candidates where it falls further
short than predicted; `meas` are the measurements of each that is built, in order. -/
def execBuildAndMeasure (t slot : Nat) (meas : List Measured) (s : State) : Host.Outcome State Fault Refusal :=
  let s := s.at t
  match s.graph slot with
  | none => .next s
  | some g =>
    if g.phase ≠ 5 then .next s
    else match s.ctrlState g.regions with
      | 2 => .next (s.stopPlace slot stFAULT 0 0)
      | 1 => .next s
      | _ =>
        let first := s.measured g (meas.headD [])
        let bare := (s.unclaim g).setGraph slot (some g.bare)
        let best := if shortLt (worst g) (worst first) then bare.further g.bare ((meas.drop 1).take 2) 2 [g.cells] first else first
        let kept : Graph := { best with phase := 6, temp := s.graphTemp best }
        let s1 := if best.cells = first.cells then s.setGraph slot (some kept) else bare.claim slot kept
        .next ((kept.cells.foldl (fun s n => s.builtCell n) s1).progress slot 6)

/-- EVALUATE (03 R55, R69, R80): the outcome, the report, the owners, FINAL. -/
def execEvaluate (t slot : Nat) (s : State) : Host.Outcome State Fault Refusal :=
  let s := s.at t
  match s.graph slot with
  | none => .next s
  | some g =>
    if g.phase ≠ 6 ∨ s.chip.restarting ∨ s.chip.failed then .next s
    else .next (s.finishPlace slot g (if g.noRoom then 3 else outcomeOf g))

/-! ### Commands on a placed graph -/

/-- The regions a graph's cells lie in. -/
def Graph.homes (g : Graph) : List Nat := (g.held_.map (· / 128)).eraseDups

/-- Reject a command that names no placed graph (12 R338; 03 R87). -/
def graphPre (s : State) (a : Bytes) : Option Nat :=
  let v := fld a 0 2
  let h := s.hnd (v % 4096)
  if s.namesObj v 1 then none
  else if s.names v && decide (h.st = 1) && decide (h.opcode = 0x0100) then some stBUSY
  else some stBAD_HANDLE

/-- The commands in flight that name a graph by its handle, in acceptance order: GRAPH_TUNE, GRAPH_PIN, TRANSPLANT. -/
def State.onGraph (s : State) (gs : Nat) : List (Nat × Hnd) :=
  sortBy (fun a b => decide (a.2.acc ≤ b.2.acc))
    (s.inFlight.filter fun e => [0x0102, 0x0103, 0x0104].contains e.2.opcode && decide (fld e.2.args 0 2 = (s.hnd gs).value gs))

/-- Is a command of some opcodes on a graph in flight that was accepted earlier (03 R87)? -/
def State.earlierOn (s : State) (ops : List Nat) (gs slot : Nat) : Bool :=
  (s.onGraph gs).any fun e => ops.contains e.2.opcode && decide (e.2.acc < (s.hnd slot).acc)

/-- Must a GRAPH_TUNE or GRAPH_PIN wait: for a transplant or repair of one of the graph's primitives, or for a command accepted
earlier (03 R87)? -/
def State.graphBusy (s : State) (gs slot : Nat) : Bool := s.moving gs || s.repairing gs || s.earlierOn [0x0102, 0x0103, 0x0104] gs slot

/-- Tracks that repairs of a graph hold. -/
def State.repairNets (s : State) (gs : Nat) : List Nat :=
  (List.range 8).flatMap fun r => ((s.region r).repairs.filter fun q => q.graph == gs).flatMap fun q => q.nets.flatMap (·.2)

/-- Free every other cell that a graph still uses, a vacated source or the destination of a repair, and some tracks. -/
def State.freeUses (s : State) (gs : Nat) (segs : List Nat) : State :=
  let mine (c : Cell) : Bool := match c.use with
    | .fn g _ => g == gs
    | .dest g _ => g == gs
    | .reserved g => g == gs
    | _ => false
  segs.foldl (fun s k => s.freeSeg k) ((s.til.cells.filter fun e => mine e.2).foldl (fun s e => s.freeCell e.1) s)

/-- Remove a placed graph: its moves and repairs, the commands that name it, its cells and tracks, and its handle (03 R87,
R88). -/
def State.removeGraph (s : State) (gs : Nat) : State :=
  let s0 := (s.graph gs).elim s fun g => (List.range g.prims.length).foldl (fun s i => s.clearTp gs i g) s
  let s1 := s0.abandonMoves gs stABORTED 0
  let s2 := ((s1.onGraph gs).foldl (fun s e => s.final e.1 stABORTED 0 0) s1).dropNext gs
  let s3 : State := { s2 with til := { s2.til with
    regions := (List.range 8).foldl (fun t r => Tbl.upd {} r (fun (q : Region) => { q with repairs := q.repairs.filter fun x => decide (x.graph ≠ gs) }) t) s2.til.regions
    stranded := s2.til.stranded.filter fun x => decide (x.graph ≠ gs) } }
  let s4 := match s3.graph gs with
    | none => s3
    | some g => (((g.held_.foldl (fun (s : State) n => s.forgetCal 0 n) s3).unclaim g).freeUses gs (s2.repairNets gs)).dropGraph gs
  s4.release gs

def bodyGraphRemove (cmd : Instr) (slot : Nat) (a : Bytes) (s : State) : State :=
  let gs := fld a 0 2 % 4096
  match s.graph gs with
  | none => s.final slot stOK 0 0
  | some g => s.onRegions g.homes slot cmd fun s => ((s.removeGraph gs).final slot stOK 0 0).cellsFreed

/-- GRAPH_REMOVE (03 R87, R88; 12 R338). The object's handle is released with the command's own (11 R304). -/
def execGraphRemove (d : Desc) (s : State) : Host.Outcome State Fault Refusal :=
  queueCmd d s fun s => s.command 0x0101 d (fun a => firstBad a (rsv 2 6)) graphPre (bodyGraphRemove (.graphRemove d))

/-! ### GRAPH_TUNE (03 R84-R87) -/

/-- The graph a tune asks for (03 R85): the parameters and modes of its primitive records, and for a primitive with specification
records those in place of its whole set. -/
def tuned (g : Graph) (ps : List (Nat × Prim)) (ss : List SpecRec) (degrade : Nat) : Graph :=
  let g1 := ps.foldl (fun g e => g.setPrim e.1 { g.prim e.1 with mode := e.2.mode, par := e.2.par }) g
  { g1 with degrade := degrade, specs := (g1.specs.filter fun r => !(ss.any fun n => n.prim == r.prim)) ++ ss }

/-- The anti-alias stage that a primitive needs where it stands (03 R78): the one that it has, none, or the pair of free cells that
ranks first by R76. -/
def State.stageFor (s : State) (g : Graph) (i : Nat) : Option PlaceP :=
  let p := g.prim i
  let here : PlaceP := { prim := i, c0 := p.c0, c1 := p.c1, aa0 := p.aa0, aa1 := p.aa1, bias := p.bias }
  if !(wantsAntiAlias p && canAntiAlias p) then some { here with aa0 := 0xFFFF, aa1 := 0xFFFF }
  else if p.hasAA then some here
  else
    let cells := s.withData ((List.range 1024).filter fun n => s.ctrlOk (n / 128) && s.usable n)
    let near := cells.filter fun e => decide (e.1 / 16 = p.c0 / 16)
    let far := cells.filter fun e => decide (e.1 / 16 ≠ p.c0 / 16)
    let ds := (pairsOf 1 (alike 1 near) near ++ pairsOf 1 (alike 1 far) far).map fun e => { here with aa0 := e.1, aa1 := e.2 }
    (s.bestDest g i true (ds.filterMap fun d => (s.onDest g i d).map (d, ·))).map (·.1)

/-- A primitive on the cells that it uses with its tune: its anti-alias stage and its bias code (03 R66), with its records as measured
there; none where no stage can be had. -/
def State.tuneHere (s : State) (g : Graph) (i : Nat) : Option Graph :=
  (s.stageFor g i).map fun d =>
    let q := (g.prim i).on d
    let b : Prim := { q with bias := biasOf q (g.specsOf i) }
    s.evaluate ({ g.setPrim i b with nets := g.nets })

/-- What a tune comes to: the graph with its new parameters on its cells, and the primitives that move, with their destinations. -/
abbrev TunePlan := Graph × List PlaceP

/-- A plan in which primitive `i` goes to the destination that R98 offers within its pins, where the graph is then acceptable. -/
def State.tuneAway (s : State) (gs : Nat) (p : TunePlan) (i : Nat) (accept : Graph → Bool) : Option TunePlan :=
  let w : Want := { why := .tune, pin := movePins (p.1.prim i) none, avoid := p.2.flatMap placeCells, accept := accept }
  (s.chooseDest gs p.1 i w).map fun d =>
    let x := s.predictOn (p.1.prim i) (p.1.specsOf i) d
    ({ p.1.setPrim i x.1 with specs := p.1.specs.map fun r => if r.prim = i then (x.2.find? fun y => y.code == r.code).getD r else r },
     p.2 ++ [{ d with bias := x.1.bias }])

/-- The plan of a tune (03 R85): each primitive that it names stays on its cells where these meet the new set, and else moves where
ALLOW_MOVE lets it; a tune with no records and ALLOW_MOVE moves each primitive, in order, to a place that ranks better (R76). None
where an anti-alias stage finds no cells. -/
def State.tunePlan (s : State) (gs : Nat) (g : Graph) (touched : List Nat) (allow : Bool) : Option TunePlan :=
  if touched.isEmpty then
    some (if allow then (List.range g.prims.length).foldl (fun p i => (s.tuneAway gs p i fun x => s.candLt x p.1).getD p) (g, []) else (g, []))
  else touched.foldl (fun a i => match a with
    | none => none
    | some p =>
      let here := (s.tuneHere p.1 i).map fun x => (x, p.2)
      let away := if allow then s.tuneAway gs p i (fun x => x.carries i) else none
      if here.any fun x => x.1.carries i then here else away.orElse fun _ => here) (some (g, []))

/-- What a tune stages for a primitive that it changes (03 R86): cells and tracks for an anti-alias stage are taken now. -/
def State.stageFunction (s : State) (gs : Nat) (g new : Graph) (moved : List Nat) (i : Nat) : State :=
  match s.graph gs with
  | none => s
  | some now =>
    let p := g.prim i
    let q := new.prim i
    if p.mode = q.mode ∧ p.par = q.par ∧ p.bias = q.bias ∧ p.aa0 = q.aa0 ∧ p.aa1 = q.aa1 then s
    else if moved.contains i then s.setGraph gs (some { now with next := now.next ++ [{ prim := i, mode := q.mode, par := q.par, bias := q.bias }] })
    else
      let d : PlaceP := { prim := i, c0 := q.c0, c1 := q.c1, aa0 := q.aa0, aa1 := q.aa1, bias := q.bias }
      let fresh := (realCells [q.aa0, q.aa1]).filter fun n => !p.cells.contains n
      let nets := if fresh.isEmpty then [] else (s.moveNets (now.setPrim i { p with mode := q.mode, par := q.par }) i d).getD []
      let s1 := fresh.foldl (fun s n => ((s.yieldCell n 1).takeCell n gs i q.bias true true).configCell n (aaConf (scExponent q))) s
      let s2 := (s1.yieldSegs (nets.flatMap (·.2)) 1).takeRoutes gs (nets.map fun e => (e.1, e.2.filter fun k => s1.segFree k)) true
      s2.setGraph gs (some { now with next := now.next ++ [{ prim := i, mode := q.mode, par := q.par, bias := q.bias, aa0 := q.aa0, aa1 := q.aa1, nets := nets }] })

/-- Stage at their sample boundaries the changes of a tune that wait for no transplant (03 R86); each is the pseudo-setting 44 of the
primitive's first cell. -/
def State.stageTune (s : State) (gs : Nat) : State :=
  match s.graph gs with
  | none => s
  | some g => g.next.foldl (fun s n =>
      let p := g.prim n.prim
      if (s.til.moves.any fun m => m.graph == gs && m.prim == n.prim) || (s.cell p.c0).staged.any (fun e => e.1 == 44) then s
      else
        let s1 := p.cells.foldl (fun s c => if (s.cell c).stagedCal then s else s.dropRun 0 c) s
        s1.stage p.c0 [(44, 0)] false (some (tuneSettle ((g.tunedAt n.prim).prim n.prim)))) s

/-- Is a tune still waiting for one of its transplants? -/
def State.tuneMoving (s : State) (gs : Nat) : Bool := s.til.moves.any fun m => m.graph == gs && m.why == .tune

def bodyGraphTune (image : Bytes) (meas : Measured) (cmd : Instr) (slot : Nat) (a : Bytes) (s : State) : State :=
  let gs := fld a 0 2 % 4096
  let len := fld a 4 4
  let addr := fld a 16 8
  match s.graph gs with
  | none => s.final slot stABORTED 0 0
  | some g =>
    if fld a 8 8 % 8 ≠ 0 ∨ addr % 8 ≠ 0 ∨ !s.bufOk (fld a 8 8) len ∨ (addr ≠ 0 ∧ (!s.bufOk addr (fld a 24 4) ∨
        fld a 24 4 < reportLen g.prims.length g.specs.length g.nets.length)) then s.final slot stBAD_ARG 0xFF 0
    else if s.graphBusy gs slot then s.setWork slot (.tune gs true cmd)
    else match parseTune (s.hostRead (fld a 8 8) (min len 32768) image) len g with
      | .error st => s.final slot st 0xFF 0
      | .ok (ps, ss, degrade, allow) =>
        s.onRegions g.homes slot cmd fun s =>
          let touched := (ps.map (·.1) ++ ss.map fun r => r.prim).eraseDups
          let new := tuned g ps ss degrade
          if addr ≠ 0 ∧ fld a 24 4 < reportLen new.prims.length new.specs.length new.nets.length then s.final slot stBAD_ARG 0xFF 0
          else match s.tunePlan gs (new.measure (s.primTemp new) meas fun r => touched.contains r.prim) touched allow with
            | none => s.final slot stNO_RESOURCE 3 (graphPowerUW g)
            | some (x, ds) =>
              let o := outcomeOf x
              if 2 ≤ o then s.final slot (outcomeStatus o) o (graphPowerUW g)
              else
                let kept : Graph := { g with degrade := degrade, specs := x.specs, former := some (g.prims, g.specs, g.degrade, g.outcome) }
                let moved := ds.map PlaceP.prim
                let s1 := (s.setGraph gs (some kept)).setWork slot (.tune gs false cmd)
                let s2 := (List.range g.prims.length).foldl (fun s i => s.stageFunction gs g x moved i) s1
                let s3 := s2.setMoves (s2.til.moves ++ ds.map fun d =>
                  { graph := gs, prim := d.prim, why := .tune, fix := some d, len := s.til.policy.len, handle := some slot })
                (if ds.isEmpty then s3.stageTune gs else s3.pumpMoves).endTunes

/-- GRAPH_TUNE (03 R84-R87; 12 R338). `meas` are the values measured on the present cells for the graph's records after the tune, in
order. With report address 0 no report is written, and a report length that is not 0 then is rejected as a reserved field that is not 0
(DESIGN CHOICE, log 17). -/
def execGraphTune (d : Desc) (image : Bytes) (meas : Measured) (s : State) : Host.Outcome State Fault Refusal :=
  queueCmd d s fun s => s.command 0x0102 d
    (fun a => firstBad a (rsv 2 2 ++ (if fld a 16 8 = 0 then rsv 24 4 else []) ++ rsv 28 4)) graphPre
    (bodyGraphTune image meas (.graphTune d image meas))

/-! ### GRAPH_PIN (03 R82, R87) -/

/-- The new pins of a GRAPH_PIN (03 R82). -/
def repin (g : Graph) (pins : List (Nat × Pin)) : Graph :=
  pins.foldl (fun g e => g.setPrim e.1 { (g.prim e.1) with pin := if e.2.scope = 255 then none else some e.2 }) g

/-- Can primitives that break their REQUIRE pins all be moved within them, to cells of their own each? -/
def State.pinsCan (s : State) (gs : Nat) (g : Graph) (broken : List Nat) : Bool :=
  (broken.foldl (fun (a : Option (List Nat)) i => match a with
    | none => none
    | some taken => (s.chooseDest gs g i { why := .pin, pin := movePins (g.prim i) none, avoid := taken }).map fun d => taken ++ placeCells d) (some [])).isSome

/-- How many primitives have left the cells that they had when a command began. -/
def Graph.movedSince (g : Graph) : Nat :=
  match g.former with
  | none => 0
  | some (ps, _) => ((List.range g.prims.length).filter fun i =>
      decide ((ps[i]?).map (fun p => (p.c0, p.c1)) ≠ some ((g.prim i).c0, (g.prim i).c1))).length

/-- The primitives whose pin a GRAPH_PIN has replaced. -/
def Graph.repinned (g : Graph) : List Nat :=
  match g.former with
  | none => []
  | some (ps, _) => (List.range g.prims.length).filter fun i => decide ((ps[i]?).map Prim.pin ≠ some (g.prim i).pin)

/-- End the GRAPH_PIN commands whose moves have ended: result 0 is the number of primitives moved (12 R333). One with a REQUIRE pin
that is still broken completes with NO_RESOURCE, and no pin changes (03 R82). -/
def State.endPins (s : State) : State :=
  s.inFlight.foldl (fun s e =>
    match e.2.work with
    | .pin gs false _ _ =>
      if s.til.moves.any fun m => decide (m.graph = gs) && decide (m.handle = some e.1) then s
      else match s.graph gs with
        | none => s
        | some g =>
          if g.repinned.any fun i => breaksPin (g.prim i) then (s.revertGraph gs).final e.1 stNO_RESOURCE g.movedSince 0
          else (s.setGraph gs (some { g with former := none })).final e.1 stOK g.movedSince 0
    | _ => s) s

def bodyGraphPin (pins : Bytes) (cmd : Instr) (slot : Nat) (a : Bytes) (s : State) : State :=
  let gs := fld a 0 2 % 4096
  let n := byteAt a 2
  let b := s.hostRead (fld a 8 8) (8 * n) pins
  match s.graph gs with
  | none => s.final slot stABORTED 0 0
  | some g =>
    let recs := (List.range n).map fun i => readPin b (8 * i)
    if n = 0 ∨ 64 < n then s.final slot stRANGE 0 0
    else if fld a 8 8 % 8 ≠ 0 ∨ !s.bufOk (fld a 8 8) (8 * n) ∨ !((List.range n).all fun i => pinShape b (8 * i) g.prims.length true) ∨
        !nodupB (recs.map (·.1)) then s.final slot stBAD_ARG 0 0
    else if s.graphBusy gs slot then s.setWork slot (.pin gs true 0 cmd)
    else s.onRegions g.homes slot cmd fun s =>
      let new := repin g recs
      let broken := (recs.map (·.1)).filter fun i => breaksPin (new.prim i)
      if !s.pinsCan gs new broken then s.final slot stNO_RESOURCE 0 0
      else
        let s1 := (s.setGraph gs (some { new with former := some (g.prims, g.specs, g.degrade, g.outcome) })).setWork slot (.pin gs false broken.length cmd)
        let s2 := s1.setMoves (s1.til.moves ++ broken.map fun i => { graph := gs, prim := i, why := .pin, len := s.til.policy.len, handle := some slot })
        s2.pumpMoves.endPins

/-- GRAPH_PIN (03 R82, R87; 12 R338). -/
def execGraphPin (d : Desc) (pins : Bytes) (s : State) : Host.Outcome State Fault Refusal :=
  queueCmd d s fun s => s.command 0x0103 d (fun a => firstBad a (rsv 3 5)) graphPre (bodyGraphPin pins (.graphPin d pins))

/-! ### TRANSPLANT (04 R96-R98; 12 R339) -/

def bodyTransplant (cmd : Instr) (slot : Nat) (a : Bytes) (s : State) : State :=
  let gs := fld a 0 2 % 4096
  let i := byteAt a 2
  let l := fld a 4 2
  let pin := readPin a 8
  match s.graph gs with
  | none => s.final slot stABORTED 0 0
  | some g =>
    if g.prims.length ≤ i ∨ (l ≠ 0 ∧ (l < 4 ∨ 256 < l)) then s.final slot stRANGE 0 0
    else if pin.1 ≠ i ∨ !pinShape (a.set 12 0) 8 g.prims.length true then s.final slot stBAD_ARG 0 0
    else if s.earlierOn [0x0102, 0x0103] gs slot then s.setWork slot (.after gs cmd)
    -- a primitive without cells has nothing to move (log 20)
    else if 1024 ≤ (g.prim i).c0 then s.final slot stNO_RESOURCE 0 0
    else s.onRegions [cellRegion (g.prim i).c0] slot cmd fun s =>
      (s.setWork slot (.move gs i)).planMove
        { graph := gs, prim := i, why := .host, pin := if pin.2.scope = 255 then none else some pin.2,
          len := if l = 0 then s.til.policy.len else l, handle := some slot }

/-- TRANSPLANT (04 R96-R98; 12 R339). -/
def execTransplant (d : Desc) (s : State) : Host.Outcome State Fault Refusal :=
  queueCmd d s fun s => s.command 0x0104 d (fun a => firstBad a (rsv 3 1 ++ rsv 6 2 ++ rsv 13 3))
    (fun s a => if s.namesObj (fld a 0 2) 1 then none else some stBAD_HANDLE) (bodyTransplant (.transplant d))

/-- Start again a command on a graph that waited for a move, a repair or an earlier command which has ended (03 R87). -/
def State.resumeOne (s : State) (slot : Nat) : State :=
  let h := s.hnd slot
  match h.work with
  | .tune gs true cmd =>
    if s.graphBusy gs slot then s
    else match cmd with
      | .graphTune _ image meas => bodyGraphTune image meas cmd slot h.args s
      | _ => s
  | .pin gs true _ cmd =>
    if s.graphBusy gs slot then s
    else match cmd with
      | .graphPin _ pins => bodyGraphPin pins cmd slot h.args s
      | _ => s
  | .after gs cmd => if s.earlierOn [0x0102, 0x0103] gs slot then s else bodyTransplant cmd slot h.args s
  | .tune gs false _ => if s.tuneMoving gs then s else s.stageTune gs
  | _ => s

/-- Go on with the commands on graphs: those whose changes and moves have ended end, and those that waited start again. -/
def State.resume (s : State) : State :=
  let s1 := s.endTunes.endPins
  (((sortBy (fun a b => decide (a.2.acc ≤ b.2.acc)) s1.inFlight).foldl (fun s e => s.resumeOne e.1) s1).endTunes).endPins

/-! ### LEDGER_READ (03 R95; 12 R340) -/

/-- The entries of a range, eight bytes each. -/
def State.ledBytes (s : State) (first n : Nat) : Bytes := (List.range n).flatMap fun i => toLE 8 (s.ledWord (first + i))

def bodyLedgerRead (slot : Nat) (a : Bytes) (s : State) : State :=
  let first := fld a 0 4
  let n := fld a 4 4
  if n = 0 ∨ 131072 < first + n then s.final slot stRANGE 0 0
  else if fld a 8 8 % 8 ≠ 0 ∨ !s.bufOk (fld a 8 8) (8 * n) then s.final slot stBAD_ARG 0 0
  else (s.hostWrite (fld a 8 8) (s.ledBytes first n)).final slot stOK n 0

def execLedgerRead (d : Desc) (s : State) : Host.Outcome State Fault Refusal :=
  queueCmd d s fun s => s.command 0x0105 d (fun _ => none) (fun _ _ => none) bodyLedgerRead

end Sys2Proof.Machine
end

