-- ==== Sys2Proof/Machine/Conversion.lean ====
section
/-! DEFINITION. Conversion: CONV_CONFIG, SEQ_LOAD, TRIGGER, the system calibration commands, output instants, triggers and
loop overloads (05_precision_conversion.md R139-R155, 06_wideband_conversion.md R168-R174, 12_command_reference.md
R341-R343, 14_startup_defaults.md R406, R407). -/

namespace Sys2Proof.Machine

/-! ### Settings taking effect (05 R140-R143, R148, R149; 08 R238) -/

/-- Settings take effect on a converter; says whether they change anything. `force` is a change of NO_CHOP, `fromOff` one of mode
from OFF, neither of which has the step's extra settle (05 R148; 06 R171). -/
def applySettings (c : Nat) (v : Conv) (e : SeqStep) (force fromOff : Bool) : Conv × Bool :=
  let same := match v.eff with
    | none => false
    | some x => sameSettings x e
  if same && !force then (v, false)
  else
    let a := gainSettle c e.gain + (if same || fromOff then 0 else extraSettle c e.extra)
    ({ v with eff := some e, settle := max v.settle (settleCount c e (a, 1)) }, true)

/-- Step 0 of the sequence takes effect: in CONTINUOUS the sequence runs from it, in TRIGGERED the converter idles on it
(05 R140). -/
def startSequence (c : Nat) (v : Conv) (force fromOff : Bool) : Conv :=
  match v.steps with
  | [] => v
  | e :: _ =>
    let v1 : Conv := { v with cur := 0, left := if v.cfg.mode = 1 then e.count else 0, waiting := false, outOfOff := false }
    (applySettings c v1 e force fromOff).1

/-- The longest wait of 08 R238, in ticks. -/
def calWait (c : Nat) (steps : List SeqStep) : Nat :=
  2 * (steps.map SeqStep.gain).eraseDups.length * (if isWM c then 15000000 else 62500000)

/-- A converter goes OFF (05 R140): it keeps its sequence. -/
def convOff (v : Conv) (t : Nat) : Conv :=
  { v with eff := none, cur := 0, left := 0, settle := 0, running := false, begun := false, pend := false, acts := [],
           markTrig := false, markGap := false, trigGap := false, waiting := false, waitUntil := 0, outOfOff := false,
           overload := none, overEnd := false, offSince := t }

/-- A pass that runs ends, and with it the marks of its first sample (05 R143); a trigger pending under QUEUE1 is kept. A crossfade
ends with the loops exchanged (04 R125). -/
def endPass (v : Conv) : Conv :=
  { v with running := v.pend, begun := false, acts := [], cur := 0, left := 0, delivered := false, markTrig := false, trigGap := false,
           mainLoop := if v.xf.isSome then 1 - v.mainLoop else v.mainLoop, xf := none }

/-- A converter that has a configuration and a sequence starts, or begins the wait of 08 R238 for its first output since
start-up. -/
def startOrWait (c : Nat) (v : Conv) (t : Nat) (force fromOff : Bool) : Conv :=
  if v.everDelivered ∨ v.eff.isSome then startSequence c v force fromOff
  else { v with waiting := true, waitUntil := t + calWait c v.steps, calDone := false, outOfOff := fromOff }

/-- One CONV_CONFIG or SEQ_LOAD takes effect at tick `t`; `instant` is false where the converter has no output
instants. -/
def State.takeEffect (s : State) (c : Nat) (w : Nat × Option ConvCfg × List SeqStep) (instant : Bool) : State :=
  let t := s.now
  let v := s.conv c
  let straw := decide (w.1 = 4096) && s.boot.loaded.straw
  let s1 := match w.2.1 with
    | some g =>
      let v1 : Conv := { endPass v with cfg := g, gated := v.gated && decide (g.mode = 0), straw := straw }
      if g.mode = 0 then (s.setConv c (convOff v1 t)).forgetCal 1 c
      else
        let v2 := if v1.steps.isEmpty ∨ !instant then v1 else startOrWait c v1 t (g.noChop != v.cfg.noChop) (decide (v.cfg.mode = 0))
        let s1 := s.setConv c v2
        if v.cfg.mode = 0 then s1.makeDue 1 c (s1.objTemp 1 c) 0 [] else s1
    | none =>
      let v1 : Conv := { endPass v with steps := w.2.2, straw := straw }
      s.setConv c (if v1.cfg.mode = 0 ∨ !instant then v1 else startOrWait c v1 t false false)
  s1.final w.1 stOK t 0

/-- Has a converter output instants, or will it have them once its waiting commands take effect (05 R143)? -/
def Conv.hasInstants (v : Conv) : Bool :=
  decide (v.cfg.mode ≠ 0) && (v.eff.isSome || v.waiting || !v.steps.isEmpty)

/-- Queue a command on a converter: at once where it has no output instants, else at the first one (05 R143). -/
def State.queueConv (s : State) (c slot : Nat) (g : Option ConvCfg) (steps : List SeqStep) : State :=
  let s0 := s.yieldConv c 1
  let v := s0.conv c
  let leavesOff : Bool := match g with
    | none => false
    | some g => decide (v.cfg.mode = 0) && decide (g.mode ≠ 0) && !v.steps.isEmpty
  if v.hasInstants || leavesOff || !v.waits.isEmpty then
    (s0.setConv c { v with waits := v.waits ++ [(slot, g, steps)] }).setWork slot (.conv c)
  else s0.takeEffect c (slot, g, steps) false

/-! ### CONV_CONFIG and SEQ_LOAD -/

/-- Index ranges of a trigger source kind (05 R139). -/
def trigIndexOk (kind index : Nat) : Bool :=
  match kind with
  | 1 => decide (index < 1024)
  | 2 => decide (index < 32)
  | 3 => decide (index < 64)
  | 4 => decide (index < 128)
  | _ => true

/-- Does a kind 5 source name a placed CMP (05 R139)? -/
def State.namesCmp (s : State) (index : Nat) : Bool :=
  match s.graph (bits index 16 12) with
  | none => false
  | some g => decide (g.phase = 7) && decide (index % 64 < g.prims.length) && decide ((g.prim (index % 64)).ty = 7)

/-- First reserved byte set in a CONV_CONFIG record (05 R139, 06 R168; 00 R10). The index bits of a kind 5 source that name neither
slot nor primitive are ignored (DESIGN CHOICE, log 17). -/
def cfgBad (a : Bytes) : Option Nat :=
  let kind := fld a 4 4 / 2 ^ 28
  firstBad a ([(3, if isWM (byteAt a 0) then 0xFF else 0xFE)] ++ (if kind = 0 then rsv 4 4 else []) ++
    (if kind = 0 ∨ kind = 3 ∨ kind = 4 then rsv 8 1 else []) ++ rsv 10 2)

/-- The status of a configuration record's values (05 R139). -/
def State.cfgStatus (s : State) (g : ConvCfg) : Nat :=
  let k := g.source
  if 2 < g.mode ∨ 2 < g.policy ∨ 5 < k.kind ∨ 2 < g.edge ∨ (63 < g.stream ∧ g.stream ≠ 0xFF) ∨ !trigIndexOk k.kind k.index then stRANGE
  else if (g.mode = 1 ∧ k.kind ≠ 0) ∨ (k.kind = 5 ∧ !s.namesCmp k.index) then stBAD_ARG
  else stOK

def bodyConvConfig (cmd : Instr) (slot : Nat) (a : Bytes) (s : State) : State :=
  let c := byteAt a 0
  let g := readCfg a
  let st := s.cfgStatus g
  if st ≠ stOK then s.final slot st 0 0
  else s.onRegion (convRegion c) slot cmd fun s => s.queueConv c slot (some g) []

/-- CONV_CONFIG (05 R139, R143; 06 R168). -/
def execConvConfig (d : Desc) (s : State) : Host.Outcome State Fault Refusal :=
  queueCmd d s fun s => s.command 0x0200 d cfgBad (fun _ a => if byteAt a 0 < 192 then none else some stRANGE)
    (bodyConvConfig (.convConfig d))

/-- First reserved bit set in the step records (05 R141, 06 R169), which are read with the argument block (12 R326): a rejection
whose byte offset counts on from the argument record (DESIGN CHOICE, log 17). -/
def stepsBad (c : Nat) (b : Bytes) : Nat → Option Nat
  | 0 => none
  | n + 1 =>
    match stepsBad c b n with
    | some o => some o
    | none => (firstBad b ((8 * n + 2, if isWM c then 0xF0 else 0xC0) :: rsv (8 * n + 6) 2)).map (16 + ·)

/-- The status of a sequence's values (05 R135, R141; 06 R165, R169; 12 R341). -/
def State.seqStatus (s : State) (c count : Nat) (steps : List SeqStep) : Nat :=
  let n := if isWM c then 16 else 64
  if count = 0 ∨ n < count then stRANGE
  else if steps.any fun e =>
      decide ((if isWM c then 32 else 64) ≤ e.entry) || decide (gainCodes c ≤ e.gain) || decide (e.count = 0) ||
      (if isWM c then decide (5 < e.rate) else decide (14 < e.rate) || decide (2 < e.filt) ||
        ((decide (e.rate = 10) || decide (e.rate = 11)) && decide (e.filt ≠ 2))) then stRANGE
  else if steps.any fun e => decide (16 ≤ e.entry) && decide (e.entry < 16 + tapCount c) && s.tapFree c (e.entry - 16) then stBAD_ARG
  else stOK

/-- The step records a SEQ_LOAD names, read with its argument block (12 R326). -/
def State.seqBytes (s : State) (a steps : Bytes) : Bytes := s.hostRead (fld a 8 8) (8 * min (byteAt a 1) 64) steps

def bodySeqLoad (steps : Bytes) (cmd : Instr) (slot : Nat) (a : Bytes) (s : State) : State :=
  let c := byteAt a 0
  let n := byteAt a 1
  let b := s.seqBytes a steps
  let l := (List.range (min n 64)).map fun i => readStep c b (8 * i)
  if fld a 8 8 % 8 ≠ 0 ∨ !s.bufOk (fld a 8 8) (8 * n) then s.final slot stBAD_ARG 0 0
  else
    let st := s.seqStatus c n l
    if st ≠ stOK then s.final slot st 0 0
    else s.onRegion (convRegion c) slot cmd fun s => s.queueConv c slot none l

/-- SEQ_LOAD (05 R141, R143; 06 R169; 12 R341). -/
def execSeqLoad (d : Desc) (steps : Bytes) (s : State) : Host.Outcome State Fault Refusal :=
  queueCmd d s fun s => s.command 0x0201 d
    (fun a => match firstBad a (rsv 2 6) with
      | some o => some o
      | none => stepsBad (byteAt a 0) ((s.at d.t).seqBytes a steps) (min (byteAt a 1) 64))
    (fun _ a => if byteAt a 0 < 192 then none else some stRANGE) (bodySeqLoad steps (.seqLoad d steps))

/-! ### Triggers (05 R144-R146) -/

/-- Does a HALT hold a converter's trigger source stopped: by the converter's number, or as a timebase compare unit (11 R320; 05
R146)? -/
def State.srcHalted (s : State) (c : Nat) : Bool :=
  let k := (s.conv c).cfg.source
  s.host.haltConv.contains c || (decide (k.kind = 3) && s.host.haltCmp.contains k.index)

/-- A trigger reaches a converter (05 R144, R145); says whether it was accepted. Under RESTART a trigger accepted before the one
ahead of it acts starts no pass of its own: the one pass starts where that one acts (DEDUCED, log 18). -/
def State.acceptTrig (s : State) (c : Nat) : State × Bool :=
  let v := s.conv c
  let t := s.now
  if v.cfg.mode ≠ 2 ∨ v.steps.isEmpty ∨ s.srcHalted c then (s, false)
  else if v.lastAcc = some t then (s, true)
  else
    let s1 := (s.setConv c { v with lastAcc := some t }).bump (uConv c) 3
    let w := s1.conv c
    if !w.running then (s1.setConv c { w with running := true, begun := false, acts := [t + w.cfg.delay] }, true)
    else match w.cfg.policy with
      | 0 => if w.pend then (s1.bump (uConv c) 5, true) else (s1.setConv c { w with pend := true }, true)
      | 1 => if w.acts.isEmpty then (s1.setConv c { w with acts := [t + w.cfg.delay] }, true) else (s1.bump (uConv c) 6, true)
      | _ => (s1.bump (uConv c) 7, true)

/-- A HALT clears what has been accepted and has not acted (05 R146). -/
def clearTrigs (v : Conv) : Conv :=
  { v with pend := false, acts := [], running := v.running && v.begun }

/-- Clear the triggers of every converter whose source has one of some indices of a kind. -/
def State.clearSource (s : State) (kind : Nat) (hit : Nat → Bool) : State :=
  (s.convs.filter fun e => decide (e.2.cfg.mode = 2) && decide (e.2.cfg.source.kind = kind) && hit e.2.cfg.source.index).foldl
    (fun s e => s.setConv e.1 (clearTrigs (s.conv e.1))) s

/-- The converters that a 192-bit mask names. -/
def maskConvs (a : Bytes) (o : Nat) : List Nat :=
  let m := fld a o 24
  (List.range 192).filter fun c => bit m c

def bodyTrigger (slot : Nat) (a : Bytes) (s : State) : State :=
  let cs := maskConvs a 0
  if cs.isEmpty ∨ cs.any (fun c => decide ((s.conv c).cfg.mode ≠ 2)) then s.final slot stBAD_ARG 0 0
  else
    let r := cs.foldl (fun (p : State × Nat) c => let q := p.1.acceptTrig c; (q.1, p.2 + b2n q.2)) (s, 0)
    r.1.final slot stOK r.2 r.1.now

/-- TRIGGER (12 R342). -/
def execTrigger (d : Desc) (s : State) : Host.Outcome State Fault Refusal :=
  queueCmd d s fun s => s.command 0x0202 d (fun _ => none) (fun _ _ => none) bodyTrigger

/-- Does a trigger of a source and edge reach a converter (05 R139)? -/
def Conv.listens (v : Conv) (kind index : Nat) (falling : Bool) : Bool :=
  let k := v.cfg.source
  decide (k.kind = kind) && decide (k.index = index) && decide (v.cfg.mode = 2) &&
  (decide (kind = 3) || decide (kind = 4) || decide (v.cfg.edge = 2) || decide (v.cfg.edge = b2n falling))

/-- TRIGGER_ACCEPT (05 R144, R145): an edge of a source reaches ISL_CONV; a source that stands still has no edge. A fabric signal keeps the level of its last edge (13 R385). -/
def execTriggerAccept (t kind index : Nat) (falling : Bool) (s : State) : Host.Outcome State Fault Refusal :=
  let s := s.at t
  if kind = 0 ∨ 5 < kind ∨ !trigIndexOk kind index ∨ !s.sourceLive kind index then .next s
  else
    let s1 := if kind = 1 then s.setCtl (2 ^ 28 + index) (!falling) else s
    -- a fabric trigger of a modulator that Stolon has borrowed asks for it back (04 R122)
    let s2 := if kind = 1 then (s1.convs.filter fun e => e.2.borrowed && decide (e.2.cfg.source.kind = 1) && decide (e.2.cfg.source.index = index)).foldl
        (fun s e => s.yieldConv e.1 2) s1 else s1
    .next ((s2.convs.filter fun e => e.2.listens kind index falling).foldl (fun s e => (s.acceptTrig e.1).1) s2)

/-! ### System calibration (05 R152-R155; 06 R174; 12 R343) -/

def sysMeasBad (a : Bytes) : Option Nat := firstBad a (rsv 2 2 ++ rsv 12 4)

/-- End the running measurement of a slot. -/
def State.dropMeas (s : State) (c slot : Nat) : State :=
  let v := s.conv c
  s.setConv c { v with meas := v.meas.filter fun m => !(decide (m.slot = slot) && !m.held) }

def bodySyscal (full : Bool) (cmd : Instr) (slot : Nat) (a : Bytes) (s : State) : State :=
  let c := byteAt a 0
  let entry := byteAt a 1
  let n := fld a 4 4
  let target := toI 32 (fld a 8 4)
  let fail (st : Nat) : State := s.final slot st 0 0
  if n < 16 ∨ 65536 < n ∨ (isWM c && (decide (target < convMin c) || decide (convMax c < target))) then fail stRANGE
  else if (s.conv c).cfg.mode = 0 ∨ !((s.conv c).steps.any fun e => decide (e.entry = entry)) then fail stBAD_ARG
  else s.onRegion (convRegion c) slot cmd fun s =>
    let old := (s.conv c).meas.filter fun m => !m.held && decide (m.entry = entry) && decide (m.full = full)
    let s1 := old.foldl (fun s m => (s.dropMeas c m.slot).final m.slot stABORTED 0 0) s
    let v := s1.conv c
    (s1.setConv c { v with meas := v.meas ++ [{ entry := entry, full := full, n := n, target := target, slot := slot, start := s1.now }] }).setWork slot (.syscal c)

def convPre (_ : State) (a : Bytes) : Option Nat := if byteAt a 0 < 192 then none else some stRANGE

/-- SYSCAL_ZERO (05 R152). -/
def execSyscalZero (d : Desc) (s : State) : Host.Outcome State Fault Refusal :=
  queueCmd d s fun s => s.command 0x0203 d sysMeasBad convPre (bodySyscal false (.syscalZero d))

/-- SYSCAL_FULL (05 R152). -/
def execSyscalFull (d : Desc) (s : State) : Host.Outcome State Fault Refusal :=
  queueCmd d s fun s => s.command 0x0204 d sysMeasBad convPre (bodySyscal true (.syscalFull d))

/-- The set that two held measurements give (05 R153, 06 R174): gain in 2^-30 and offset, or none where the commit is
RANGE. -/
def sysSolve (c : Nat) (z f : Meas) : Option (Nat × Int) :=
  -- means as sum / n; d = Mf - Mz over z.n * f.n
  let d := f.sum * z.n - z.sum * f.n
  let q : Int := z.n * f.n
  let lim : Int := if isWM c then 2 ^ 12 else 2 ^ 24
  if z.gcode ≠ f.gcode ∨ ((d.natAbs : Int) < lim * q) then none
  else
    let num := (f.target - z.target) * q * 2 ^ 30
    let g := if 0 < d then roundFree num d else roundFree (-num) (-d)
    if g < 2 ^ 29 ∨ 2 ^ 31 < g then none
    else
      let off := roundTie (z.target * 2 ^ 30 * z.n - g * z.sum) (2 ^ 30 * z.n)
      if off < convMin c ∨ convMax c < off then none else some (g.toNat, off)

/-- The Keep store position of a converter and entry's set, or the first blank one (08 R237). -/
def State.sysSlot (s : State) (c entry : Nat) : Option Nat :=
  let key (i : Nat) : Option (Nat × Nat) := (Tbl.get none i s.keep.sysSets).map fun b => (byteAt b 0, byteAt b 1)
  match (List.range 1024).find? fun i => key i == some (c, entry) with
  | some i => some i
  | none => (List.range 1024).find? fun i => key i == none

/-- A stored system calibration set (08 R237). -/
def sysBytes (m : SysSet) : Bytes :=
  let b := toLE 1 m.conv ++ toLE 1 m.entry ++ toLE 1 m.gcode ++ toLE 1 (1 + 2 * b2n m.stale) ++ toLE 2 m.owner ++ zeros 2 ++
    toLE 4 m.gain ++ toLE 4 (ofI 32 m.offset) ++ toLE 8 m.time ++ zeros 4
  b ++ toLE 4 (crc32c b)

/-- The owner of the tap behind an entry (05 R155). -/
def State.tapOwner (s : State) (c entry : Nat) : Nat :=
  if 16 ≤ entry ∧ entry < 16 + tapCount c then (Tbl.get {} (entry - 16) (s.conv c).taps).owner else 0xFFFF

/-- Are Keep store writes locked by an alarm (08 R238, 15 R411)? -/
def State.keepLocked (s : State) : Bool := decide (s.husk.cls < 7) && decide (s.husk.policy.keepLock ≤ s.husk.cls)

/-- Log CAL_STORE_LOCKED once for each lock (08 R238). -/
def State.logLocked (s : State) : State :=
  if s.cal.storeLogged then s else ({ s with cal := { s.cal with storeLogged := true } }).log 0x305 4 0 s.husk.cls 0

/-- Write or clear a stored set at position `i`, unless the Keep store is locked. -/
def State.storeSys (s : State) (i : Nat) (b : Option Bytes) : State :=
  if s.keepLocked then s.logLocked else { s with keep := { s.keep with sysSets := Tbl.set none i b s.keep.sysSets } }

/-- The CALSTEP marks of a change in the sets in force for an entry: the samples that one of them corrects (05 R151, R154). -/
def Conv.sysMarks (v : Conv) (entry : Nat) : List Nat :=
  (v.sys.filter fun m => decide (m.entry = entry) && m.inUse && !m.stale).map fun m => calMark entry (some m.gcode)

/-- CLEAR of SYSCAL_COMMIT removes the set from use and from the Keep store (05 R154); a commit lets the held measurements of
its entry go (R152). -/
def State.sysClear (s : State) (c entry : Nat) : State :=
  let v := s.conv c
  let s0 := s.setConv c { v with sys := v.sys.filter (fun m => decide (m.entry ≠ entry)), meas := v.meas.filter fun k => !(k.held && decide (k.entry = entry)) }
  let s1 := s0.markCal c (v.sysMarks entry)
  match (List.range 1024).find? fun i => (Tbl.get none i s1.keep.sysSets).any fun b => decide (byteAt b 0 = c) && decide (byteAt b 1 = entry) with
  | none => s1
  | some i => s1.storeSys i none

/-- The set that a pair of measurements gives, put to use with APPLY (05 R153, R154), in place of the entry's set in use; with STORE
alone it is known to the converter, not in use, in place of the entry's other stored set. -/
def State.sysUse (s : State) (c entry gcode : Nat) (g : Nat) (off : Int) (apply store : Bool) : State :=
  let m : SysSet := { conv := c, entry := entry, gcode := gcode, gain := g, offset := off, owner := s.tapOwner c entry, time := s.now, inUse := apply }
  let v := s.conv c
  let s1 := s.setConv c { v with
    meas := v.meas.filter fun k => !(k.held && decide (k.entry = entry)),
    sys := (v.sys.filter fun k => decide (k.entry ≠ entry) || !(if k.inUse then apply else store)) ++ [m] }
  if apply then s1.markCal c (v.sysMarks entry ++ [calMark entry (some gcode)]) else s1

/-- The set written to the Keep store with STORE, at the place found for it (05 R154). -/
def State.sysKeep (s : State) (c entry gcode : Nat) (g : Nat) (off : Int) (apply store : Bool) (pos : Option Nat) : State :=
  let m : SysSet := { conv := c, entry := entry, gcode := gcode, gain := g, offset := off, owner := s.tapOwner c entry, time := s.now, inUse := apply }
  match store, pos with
  | true, some i => (s.sysUse c entry gcode g off apply store).storeSys i (some (sysBytes m))
  | _, _ => s.sysUse c entry gcode g off apply store

/-- What SYSCAL_COMMIT does once its region's controller takes it. -/
def State.sysCommit (slot : Nat) (a : Bytes) (s : State) : State :=
  let c := byteAt a 0
  let entry := byteAt a 1
  let fl := byteAt a 2
  let apply := bit fl 0
  let store := bit fl 1
  let clear := bit fl 2
  let v := s.conv c
  let z := v.meas.find? fun m => m.held && decide (m.entry = entry) && !m.full
  let f := v.meas.find? fun m => m.held && decide (m.entry = entry) && m.full
  if clear && !apply && !store then (s.sysClear c entry).final slot stOK 0 0
  else match z, f with
    | some z, some f =>
      match sysSolve c z f with
      | none => s.final slot stRANGE 0 0
      | some (g, off) =>
        let s0 := if clear then s.sysClear c entry else s
        let pos := s0.sysSlot c entry
        if store && pos.isNone then s.final slot stNO_RESOURCE 0 0
        else (s0.sysKeep c entry z.gcode g off apply store pos).final slot stOK g (ofI 64 off)
    | _, _ => if clear then (s.sysClear c entry).final slot stOK 0 0 else s.final slot stBAD_ARG 0 0

def bodySysCommit (cmd : Instr) (slot : Nat) (a : Bytes) (s : State) : State :=
  if byteAt a 2 % 8 = 0 ∨ 63 < byteAt a 1 then s.final slot stBAD_ARG 0 0
  else s.onRegion (convRegion (byteAt a 0)) slot cmd (State.sysCommit slot a)

/-- SYSCAL_COMMIT (05 R153, R154; 01 R19, R20). -/
def execSyscalCommit (d : Desc) (s : State) : Host.Outcome State Fault Refusal :=
  queueCmd d s fun s => s.command 0x0205 d (fun a => firstBad a ((2, 0xF8) :: rsv 3 5)) convPre (bodySysCommit (.syscalCommit d))

/-- SYSCAL_TIMEOUT (05 R152): 60 s without N qualifying samples. -/
def execSyscalTimeout (t slot : Nat) (s : State) : Host.Outcome State Fault Refusal :=
  let s := s.at t
  match (s.hnd slot).work with
  | .syscal c =>
    if (s.conv c).meas.any fun m => decide (m.slot = slot) && !m.held && decide (m.start + 15000000000 ≤ s.now) then
      .next ((s.dropMeas c slot).final slot stTIMEOUT 0 0)
    else .next s
  | _ => .next s

/-! ### Output instants (05 R137, R142) -/

/-- A Straw data line (14 R407). -/
def strawLine (pair : Nat) (val flags ts : Nat) : Bytes :=
  let v := roundAway (toI 32 val * 40960000) (2 ^ 31)
  let n := v.natAbs
  ascii "AIN" ++ decDigits 3 pair ++ ascii " " ++ ascii (if v < 0 then "-" else "+") ++ decDigits 1 (n / 10000000) ++ ascii "." ++
  decDigits 7 n ++ ascii " " ++ hexDigits 2 flags ++ ascii " " ++ decDigits 12 (ts / 250000) ++ [13, 10]

/-- The period that an output instant of a converter has now: that of the settings in effect, or of step 0 of the
sequence it is about to start on (05 R137, R143). -/
def Conv.period (v : Conv) (c : Nat) : Option (Nat × Nat) :=
  match v.eff with
  | some e => some (ratePeriod c e.rate)
  | none =>
    let steps := v.waits.foldl (fun l w => if w.2.1.isNone then w.2.2 else l) v.steps
    let mode := v.waits.foldl (fun m w => match w.2.1 with
      | none => m
      | some g => g.mode) v.cfg.mode
    match steps with
    | [] => none
    | e :: _ => if mode = 0 ∧ v.cfg.mode = 0 then none else some (ratePeriod c e.rate)

/-- The sample's step is done (05 R142, R145): the next step, the start of the sequence again, or the end of the pass. -/
def State.endStep (s : State) (c : Nat) : State :=
  let v := s.conv c
  if v.cur + 1 < v.steps.length then s.setConv c { v with cur := v.cur + 1 }
  else if v.cfg.mode = 1 then s.setConv c { v with cur := 0 }
  else (s.setConv c { v with cur := 0, begun := false, running := v.pend || !v.acts.isEmpty }).bump (uConv c) 4

/-- One output instant of a converter that has settings in effect and no command waiting. -/
def State.instant (s : State) (c t : Nat) (main comp : Int) : State :=
  let v := s.conv c
  -- triggers that act at this instant (05 R144, R145)
  let due := v.acts.filter fun a => decide (a ≤ t)
  let start := v.cfg.mode == 2 && (!due.isEmpty || (v.pend && v.running && !v.begun && v.acts.isEmpty))
  let restarts := b2n (v.begun && !due.isEmpty)
  let v1 : Conv :=
    if start then
      { v with acts := v.acts.filter (fun a => decide (t < a)), pend := if due.isEmpty then false else v.pend, begun := true, running := true,
               cur := 0, left := 0, markTrig := true, trigGap := v.trigGap || (v.begun && v.delivered), delivered := false }
    else v
  let active := decide (v1.cfg.mode = 1) || v1.begun
  let next := v1.steps.getD (if active then v1.cur else 0) { entry := 0, gain := 0, rate := 0, filt := 0, extra := 0, count := 1 }
  -- a step begins, or step 0's settings are restored (05 R142)
  let r := if v1.left = 0 then applySettings c v1 next false false else (v1, false)
  let v2 : Conv := if v1.left = 0 ∧ active then { r.1 with left := next.count } else r.1
  let s1 := (s.setConv c v2).bumpN (uConv c) 6 restarts
  if r.2 then s1
    else match v2.eff with
      | none => s1
      | some e =>
        if active then
          let q := s1.deliver c t e main comp
          let s3 := if q.2 then q.1
            else
              let w := q.1.conv c
              let s3 := q.1.setConv c { w with left := w.left - 1 }
              if w.left ≤ 1 then s3.endStep c else s3
          if v2.straw && !q.2 then
            let h := (q.1.conv c).hist.getLastD (0, 0, 0)
            let wide := decide ((q.1.ctr (uConv c) 2).val ≠ (s1.ctr (uConv c) 2).val)
            let cal := v2.calMarks.any (markHits e)
            s3.emit (.port 4 (strawLine (16 * convRegion c + e.entry) h.2.2 (2 * b2n wide + 8 * b2n cal) t))
          else s3
        else s1.setConv c { v2 with settle := v2.settle - 1 }

/-- Write the coefficients of a run: those of the loop that becomes the main loop, and, from 32 on, of the other. -/
def writeCoef (lp : Nat) (new : List (Nat × Int × Nat)) (old : Tbl (Int × Nat)) : Tbl (Int × Nat) :=
  new.foldl (fun t e => Tbl.set ((0 : Int), 2 ^ 30) (if e.1 < 32 then 32 * lp + e.1 else 32 * (1 - lp) + e.1 % 32) (e.2.1, e.2.2) t) old

/-- New coefficients and scale factor at an instant (05 R131; 08 R224, R228): the loops exchange roles, the former
companion serving the new coefficients. -/
def State.applyCoef (s : State) (c : Nat) : State :=
  let v := s.conv c
  let busy := v.meas.any fun m => !m.held
  let s1 :=
    if v.newCoef.isEmpty ∨ busy then s
    else
      let lp := 1 - v.mainLoop
      (s.setConv c { v with coef := writeCoef lp v.newCoef v.coef, newCoef := [], mainLoop := lp, calTime := some s.now,
                            calTemp := (v.calRes.map CalApply.temp).getD v.calTemp, status := v.status.completed v.calRes, calRes := none }).markCal c [64]
  let w := s1.conv c
  if w.scale ≠ s1.cal.ref.scale ∧ !busy then (s1.setConv c { w with scale := s1.cal.ref.scale }).markCal c [64] else s1

/-- The staged sets of some cells apply at a boundary, and commands that waited for that start again (03 R86, R87). -/
def State.applyStaged (s : State) (ns : List Nat) : State := if ns.isEmpty then s else (s.applyCells ns).resume

/-- What changes at an output instant once its sample is out, since samples are counted from the instant on (05 R129, R149): the end
of a loop overload, and the staged sets of the cells whose boundary it is (02 R39, R40). -/
def State.endInstant (s : State) (c : Nat) : State :=
  let v := s.conv c
  if v.eff.isNone then s
  else
    let s1 := if v.overEnd then (s.setConv c { v with overEnd := false }).settleConv c (0, 1) else s
    s1.applyStaged (s1.stagedCells.filter fun n => decide (s1.cellBoundary (s1.cell n) = some c))

/-- OUTPUT_INSTANT (05 R137, R140-R145, R149; 02 R39, R40; 04 R102-R106): `main` and `companion` are what the two loops of the
converter read, in picovolts. The row happens only where the converter has an instant at that tick. -/
def execOutputInstant (t c : Nat) (main companion : Int) (s : State) : Host.Outcome State Fault Refusal :=
  if 192 ≤ c then .fault .noSuchUnit
  else
    let s := s.at t
    let v := s.conv c
    match v.period c with
    | none => .next s
    | some p =>
      if v.rephase ∨ !s.time.running ∨ s.now ≠ t ∨ !atInstant p t then .next s
      else
        let s2 := if v.eff.isSome then (s.applyCoef c).crossAt (some c) else s
        let w := s2.conv c
        let s3 :=
          if !w.waits.isEmpty then w.waits.foldl (fun s e => s.takeEffect c e true) (s2.setConv c { w with waits := [] })
          else match w.eff with
            | some _ => s2.instant c t main companion
            | none =>
              if w.cfg.mode = 0 then s2
              else if w.waiting then (if w.calDone ∨ w.waitUntil ≤ t then s2.setConv c (startSequence c w false w.outOfOff) else s2)
              else s2.setConv c (startOrWait c w t false true)
        .next (s3.endInstant c)

/-- APPLY_STROBE (02 R39): at a timebase multiple of 250, staged sets of functions without converters apply, and the
crossovers of such functions begin. -/
def execApplyStrobe (t : Nat) (s : State) : Host.Outcome State Fault Refusal :=
  let s := s.at t
  if t % 250 ≠ 0 ∨ !s.time.running ∨ s.now ≠ t then .next s
  else
    let s1 := s.applyStaged (s.stagedCells.filter fun n => decide (s.cellBoundary (s.cell n) = none))
    .next (s1.crossAt none)

/-- LOOP_OVERLOAD (05 R129, 06 R162): the loop is reset, the overload counted, samples that overlap it OVERRANGE. -/
def execLoopOverload (t c : Nat) (s : State) : Host.Outcome State Fault Refusal :=
  let s := s.at t
  let v := s.conv c
  ifUnit (decide (c < 192))
    (if v.eff.isNone ∨ v.overload.isSome then s
     else (s.setConv c { v with overload := some s.now }).bump (uConv c) 8)

/-- LOOP_OVERLOAD_END (05 R129): a change with an analogue settle of 0 at the next output instant. -/
def execLoopOverloadEnd (t c : Nat) (s : State) : Host.Outcome State Fault Refusal :=
  let s := s.at t
  let v := s.conv c
  ifUnit (decide (c < 192)) (match v.overload with
    | none => s
    | some a => s.setConv c { v with overload := none, overEnd := true, overIv := (v.overIv ++ [(a, s.now)]).drop (v.overIv.length - 31) })

/-- CONVERTER_POWER_GATE (10 R280): OFF for more than 10 ms. -/
def execConverterPowerGate (t c : Nat) (s : State) : Host.Outcome State Fault Refusal :=
  let s := s.at t
  let v := s.conv c
  ifUnit (decide (c < 192))
    (if v.cfg.mode = 0 ∧ v.offSince + 2500000 < s.now ∧ !v.borrowed then s.setConv c { v with gated := true } else s)

end Sys2Proof.Machine
end

