-- ==== Sys2Proof/Machine/Calibration.lean ====
section
/-! DEFINITION. Calibration: CAL_RUN, CAL_POLICY, CAL_REF_EXTERNAL, the runs, the external reference procedure and the Keep
store records they write (08_calibration.md R211-R238). -/

namespace Sys2Proof.Machine

/-! ### Status and Keep store records (08 R229, R233-R237) -/

/-- A record with its CRC-32C in the last four bytes (08 R233). -/
def sealRec (n : Nat) (b : Bytes) : Bytes := let r := slice b 0 (n - 4); r ++ toLE 4 (crc32c r)

/-- Does a record of `n` bytes pass its CRC? -/
def sealed (n : Nat) (b : Bytes) : Bool := decide (b.length = n) && decide (fld b (n - 4) 4 = crc32c (b.take (n - 4)))

/-- The position maps of an array (08 R235): eight 4-bit fields. -/
def State.cellKeep (s : State) (n : Nat) : Bytes :=
  let c := s.cell n
  let reg (k : Nat) : Int := Tbl.get 0 k c.regs
  sealRec 64 (toLE 2 n ++ [1] ++ toLE 1 (reg 42).toNat ++ ((List.range 4).flatMap fun i => toLE 2 (ofI 16 (reg i))) ++
    ((List.range 18).flatMap fun i => toLE 2 (ofI 16 (reg (4 + i)))) ++ toLE 4 (ofI 32 (reg 40)) ++ toLE 4 (ofI 32 (reg 41)) ++
    toLE 2 (ofI 16 c.calTemp) ++ zeros 2)

/-- A coefficient entry: offset, then gain (08 R236). -/
def coefBytes (e : Int × Nat) : Bytes := toLE 4 (ofI 32 e.1) ++ toLE 4 e.2

/-- A converter's record (08 R236). -/
def State.convKeep (s : State) (c : Nat) : Bytes :=
  let v := s.conv c
  let g := gainCodes c
  let entries := (List.range 2).flatMap fun l => (List.range g).flatMap fun k => coefBytes (Tbl.get ((0 : Int), 2 ^ 30) (32 * l + k) v.coef)
  sealRec (if isWM c then 128 else 256) (toLE 2 c ++ zeros 2 ++ toLE 2 (ofI 16 v.calTemp) ++ zeros 10 ++ entries)

/-- A DAC channel's calibration record (08 R236). -/
def State.dacKeep (s : State) (n : Nat) : Bytes :=
  let v := s.dac n
  sealRec 64 (toLE 1 n ++ zeros 3 ++ ((List.range 4).flatMap fun k => coefBytes (Tbl.get ((0 : Int), 2 ^ 30) k v.coef)) ++ toLE 2 (ofI 16 v.calTemp))

/-- The reference record (08 R234). -/
def RefRec.bytes (r : RefRec) : Bytes :=
  sealRec 32 (toLE 4 r.declared ++ toLE 2 r.tol ++ toLE 1 (b2n r.atStart + 2 * b2n r.inRecovery + 4 * b2n r.valid) ++ [0] ++
    toLE 4 (ofI 32 r.scale) ++ toLE 8 r.time)

/-- The stored policy record (08 R234): the fields of form 0. -/
def CalPolicy.bytes (p : CalPolicy) (storePolicy : Bool) : Bytes :=
  sealRec 32 ([0] ++ toLE 1 (b2n p.blind + 2 * b2n p.store + 4 * b2n storePolicy) ++ toLE 2 p.trigger ++ toLE 2 p.offLimit ++
    toLE 2 p.gainLimit ++ toLE 2 p.window ++ toLE 4 p.interval)

/-- Write a record of the Keep store, unless an alarm locks it (08 R238). -/
def State.keepWrite (s : State) (f : Keep → Keep) : State := if s.keepLocked then s.logLocked else { s with keep := f s.keep }

/-- The key of a record in the table of last writes. -/
def keepKey (kind idx : Nat) : Nat := kind * 2 ^ 20 + idx

/-- Write the calibration record of an object now, and note when. -/
def State.storeCal (s : State) (kind idx : Nat) : State :=
  let s1 := s.keepWrite fun k => match kind with
    | 0 => { k with cells := Tbl.set none idx (some (s.cellKeep idx)) k.cells }
    | 1 => if isWM idx then { k with wms := Tbl.set none (idx - 64) (some (s.convKeep idx)) k.wms }
           else { k with pms := Tbl.set none idx (some (s.convKeep idx)) k.pms }
    | _ => { k with dacCals := Tbl.set none idx (some (s.dacKeep idx)) k.dacCals }
  if s.keepLocked then s1 else { s1 with cal := { s1.cal with lastWrite := Tbl.set 0 (keepKey kind idx) s1.now s1.cal.lastWrite } }

/-- The stored record of an object. -/
def State.storedCal (s : State) (kind idx : Nat) : Option Bytes :=
  match kind with
  | 0 => Tbl.get none idx s.keep.cells
  | 1 => if isWM idx then Tbl.get none (idx - 64) s.keep.wms else Tbl.get none idx s.keep.pms
  | _ => Tbl.get none idx s.keep.dacCals

/-- Health and quarantine of a Ledger entry as the Keep store holds them (08 R234). -/
def State.healthNow (s : State) (e : Nat) : Nat × Bool := ((s.led e).health, decide ((s.led e).state = 3))

/-- The stored set at a position as it should read once the set in memory that it was loaded from or stored for is stale
(05 R155; 08 R237); none where it reads so already. -/
def State.staleRec (s : State) (i : Nat) : Option Bytes :=
  match Tbl.get none i s.keep.sysSets with
  | none => none
  | some b =>
    if bit (byteAt b 3) 1 then none
    else ((s.conv (byteAt b 0)).sys.find? fun m => m.stale && decide (m.entry = byteAt b 1) && decide (m.time = fld b 16 8)).map sysBytes

/-- KEEP_STORE_WRITE (08 R238): a changed record, at most once per 60 s per record: kinds 0-2 are calibration records by
object, kind 3 the Ledger health word of entries 2 idx and 2 idx + 1, kind 4 the system calibration set at position idx, whose
set has become STALE (R237). It waits for a management core restart (R228). -/
def execKeepStoreWrite (t kind idx : Nat) (s : State) : Host.Outcome State Fault Refusal :=
  let s := s.at t
  let last := Tbl.get 0 (keepKey kind idx) s.cal.lastWrite
  let soon := decide (last ≠ 0) && decide (s.now < last + 15000000000)
  if soon ∨ s.chip.restarting ∨ s.chip.failed ∨ s.time.step < 5 then .next s
  else match kind with
    | 3 =>
      let changed := [2 * idx, 2 * idx + 1].any fun e => decide (Tbl.get (255, false) e s.keep.health ≠ s.healthNow e)
      if 65536 ≤ idx ∨ !changed then .next s
      else if s.keepLocked then .next s.logLocked
      else
        let h := [2 * idx, 2 * idx + 1].foldl (fun h e => Tbl.set (255, false) e (s.healthNow e) h) s.keep.health
        .next { s with keep := { s.keep with health := h }, cal := { s.cal with lastWrite := Tbl.set 0 (keepKey 3 idx) s.now s.cal.lastWrite } }
    | 4 => match s.staleRec idx with
      | none => .next s
      | some b =>
        if s.keepLocked then .next s.logLocked
        else .next { s.storeSys idx (some b) with cal := { s.cal with lastWrite := Tbl.set 0 (keepKey 4 idx) s.now s.cal.lastWrite } }
    | _ =>
      let fresh := match kind with
        | 0 => s.cellKeep idx
        | 1 => s.convKeep idx
        | _ => s.dacKeep idx
      let ran := match kind with
        | 0 => (s.cell idx).calTime.isSome && decide (idx < 1024)
        | 1 => (s.conv idx).calTime.isSome && decide (idx < 192)
        | _ => (s.dac idx).calTime.isSome && decide (idx < 64) && decide (kind = 2)
      if !s.cal.policy.store ∨ !ran ∨ s.storedCal kind idx = some fresh then .next s else .next (s.storeCal kind idx)

/-! ### Runs (08 R218-R225) -/

/-! ### Blind statistics of a cell (08 R213, R214) -/

/-- The primitives on the way from a net declared ZERO_MEAN to the next converter load (08 R214), one hop per unit of fuel. -/
def zeroMeanFrom (g : Graph) : Nat → List Nat → List Nat
  | 0, l => l
  | f + 1, l =>
    zeroMeanFrom g f (l ++ (g.nets.filter fun n => decide (n.drvKind = 0) && l.contains n.drv && !n.loads.any fun c => loadKind c == 1).flatMap fun n =>
      ((n.loads.filter fun c => loadKind c == 0).map loadPrim).filter fun p => !l.contains p).eraseDups

def zeroMeanPrims (g : Graph) : List Nat :=
  let declared := g.nets.zipIdx.filter fun e => bit (byteAt g.zeroMean (e.2 / 8)) (e.2 % 8) && !e.1.loads.any fun c => loadKind c == 1
  zeroMeanFrom g g.prims.length (declared.flatMap fun e => (e.1.loads.filter fun c => loadKind c == 0).map loadPrim)

/-- A spare part that stands in for none: element `e` of a cell, not quarantined. -/
def State.spareIdle (s : State) (n e : Nat) : Bool := let l := s.led (48 * n + e); decide (l.state ≠ 3) && !bit l.detail 16

/-- The statistics that apply to a cell (08 R213). -/
structure Statistics where
  chop : Bool := false
  zeroMean : Bool := false
  pairs : Nat := 0
  segs : Bool := false
  capsA : Bool := false
  capsB : Bool := false
  scale : Bool := false

/-- The statistics of a cell where it stands; a cell that carries no function is chopped as a warm spare is (04 R114). -/
def State.statistics (s : State) (n : Nat) : Statistics :=
  let fn := (cellFn (s.cell n)).bind fun e => (s.graph e.1).map fun g => (g, e.2)
  let sound := s.soundIn n 0 4
  let base : Statistics :=
    { pairs := if 2 ≤ sound then sound - 1 else 0, segs := s.spareIdle n 38 || s.spareIdle n 39, capsA := s.spareIdle n 12, capsB := s.spareIdle n 21 }
  match fn with
  | none => { base with chop := true }
  | some (g, i) =>
    let p := g.prim i
    let chopped := decide (chopCode p ≠ 0)
    let ran := ((List.range 16).map (16 * (n / 16) + ·)).any fun k => decide (k ≠ n) && (s.cell k).calTime.isSome && (match (s.cell k).use with
      | .pool => true
      | .reserved _ => true
      | .free => true
      | _ => false)
    { base with chop := chopped, scale := ran && (decide (p.ty = 4) || decide (p.ty = 5) || decide (p.ty = 10)),
                zeroMean := (decide (p.ty = 4) && (decide (p.mode = 1) || decide (p.mode = 2))) || (!chopped && (zeroMeanPrims g).contains i) }

/-- Does any statistic apply (08 R221; log 15)? -/
def Statistics.some (q : Statistics) : Bool := q.chop || q.zeroMean || decide (0 < q.pairs) || q.segs || q.capsA || q.capsB || q.scale

/-- The windows of a cell run, one after another, in ticks. -/
def Statistics.windows (q : Statistics) (window : Nat) : Nat :=
  (if q.chop then 5000000 else 0) + (if q.zeroMean then 250000000 * window else 0) + 1250000 * q.pairs +
  500000 * ((if q.segs then 16 else 0) + (if q.capsA then 8 else 0) + (if q.capsB then 8 else 0))

/-- Is element `e` of a cell measured by a run (08 R213, R225)? `active` is the active input pair. -/
def Statistics.measures (q : Statistics) (active e : Nat) : Bool :=
  if e < 4 then decide (0 < q.pairs) || (decide (e = active) && (q.chop || q.zeroMean))
  else if e < 12 then q.capsA || q.scale else if e < 13 then false else if e < 21 then q.capsB || q.scale else if e < 22 then false
  else if e < 38 then q.segs || q.scale else false

/-- How long the windows of a cell run last: those of the cells of a primitive at the same time. -/
def State.runWindows (s : State) (e : CalRun) : Nat :=
  if e.kind ≠ 0 then 0 else ((s.calGroup e.idx).map fun n => (s.statistics n).windows e.window).foldl max 0

/-- Why a run fails by R221: 1 too few good samples, 2 a converter match, 3 an object without a statistic; else 0. -/
def State.runFails (s : State) (e : CalRun) (fail : Nat) : Nat :=
  if e.kind = 0 ∧ (s.calGroup e.idx).any (fun n => !(s.statistics n).some) then 3
  else if fail = 1 then 1
  else if fail = 2 ∧ e.kind = 1 then 2
  else 0

/-- May an object due for a run start one now (08 R219, R228; 04 R124; 17 R463)? -/
def State.runReady (s : State) (e : CalDue) : Bool :=
  let r := objRegion e.kind e.idx
  s.ctrlOk r && !s.repairsIn r && !s.mon.supplyOut && decide (e.notBefore = 0) &&
  (s.cal.policy.blind || !e.cmds.isEmpty || (decide (e.kind = 1) && (s.conv e.idx).waiting)) &&
  (match e.kind with
    | 0 => !(s.cal.runs.any fun x => x.kind == 0 && objRegion 0 x.idx == r) &&
      ((s.calGroup e.idx).all fun n => !(s.cell n).frozen && !(s.cell n).borrowed)
    | 1 => !(s.cal.runs.any fun x => x.kind == 1 && objRegion 1 x.idx == r) && ((s.conv e.idx).comp == 0 || (s.conv e.idx).comp == 4) &&
      decide ((s.conv e.idx).cfg.mode ≠ 0)
    | _ => (s.dac e.idx).enabled && !(s.cal.runs.any fun x => x.kind == 2 && x.idx == e.idx))

/-- Does one due object come before another (08 R219)? -/
def State.dueBefore (s : State) (a b : CalDue) : Bool :=
  let old (e : CalDue) : Bool := decide (e.since + 2500000000 ≤ s.now)
  if old a && !old b then true else if old b && !old a then false else decide (b.move < a.move)

/-- CALIBRATION_RUN_START (08 R219): the region controller takes the due object that comes first of its kind. -/
def execCalibrationRunStart (t r kind idx0 : Nat) (s : State) : Host.Outcome State Fault Refusal :=
  let s := s.at t
  let idx := s.calLeader kind idx0
  match s.cal.due.find? fun e => e.kind == kind && e.idx == idx with
  | none => .next s
  | some e =>
    let rivals := s.cal.due.filter fun x => decide (x.kind = kind) && decide (x.idx ≠ idx) && decide (objRegion x.kind x.idx = r) && s.runReady x
    if objRegion kind idx ≠ r ∨ !s.runReady e ∨ (kind ≠ 2 ∧ rivals.any fun x => s.dueBefore x e) then .next s
    else
      let run : CalRun := { kind := kind, idx := idx, start := s.now, temp := e.temp, cmds := e.cmds,
                            offLimit := s.cal.policy.offLimit, gainLimit := s.cal.policy.gainLimit, window := s.cal.policy.window }
      let s1 : State := { s with cal := { s.cal with due := s.cal.due.filter fun x => decide (x ≠ e), runs := s.cal.runs ++ [run] } }
      .next (match kind with
        | 0 => s1
        | 1 =>
          let s2 := s1.yieldConv idx 4
          s2.setConv idx { s2.conv idx with comp := 2 }
        | _ => s1.setDac idx { s1.dac idx with readings := 0, readLow := 0, readHigh := 0 })

/-- The log place of an object (17 R466). -/
def objLog (kind idx : Nat) : Nat × Nat := if kind = 0 then (1, idx) else if kind = 1 then (3, 2 ^ 24 + idx) else (3, 2 * 2 ^ 24 + idx)

/-- Argument 0 of a failed run: its largest step against its limit (17 R469). -/
def largestStep (p : CalRun) (res : CalResult) : Nat :=
  if res.gainStep.natAbs * (p.offLimit * 100) ≤ res.offStep.natAbs * (p.gainLimit * 100) then res.offStep.natAbs % 2 ^ 63
  else 2 ^ 63 + res.gainStep.natAbs % 2 ^ 63

/-- Change the status record of an object and of those calibrated with it. -/
def State.updStatus (s : State) (kind idx : Nat) (f : CalStatus → CalStatus) : State :=
  match kind with
  | 0 => (s.calGroup idx).foldl (fun s n => s.setCell n { s.cell n with status := f (s.cell n).status }) s
  | 1 => s.setConv idx { s.conv idx with status := f (s.conv idx).status }
  | _ => s.setDac idx { s.dac idx with status := f (s.dac idx).status }

/-- The status of the object itself. -/
def State.objStatus (s : State) (kind idx : Nat) : CalStatus :=
  match kind with
  | 0 => (s.cell idx).status
  | 1 => (s.conv idx).status
  | _ => (s.dac idx).status

/-- Put the test age of a cell's elements to 255 (08 R222; 17 R455). -/
def State.ageCell (s : State) (n : Nat) : State := s.updLeds (cellElems n) fun _ l => { l with tested := none }

/-- The external reference procedure takes the companion loops it needs where they are free (08 R226, R227). -/
def State.pumpRef (s : State) : State :=
  match s.cal.procedure with
  | none => s
  | some p => p.regions.foldl (fun s r =>
      let c := 8 * r
      let k := (s.conv c).comp
      if k = 0 ∨ k = 4 then
        let s1 := s.yieldConv c 4
        s1.setConv c { s1.conv c with comp := 3 }
      else s) s

/-- Ask for the external reference procedure on some regions (08 R227); nothing without a declared value. -/
def State.startRef (s : State) (regions cmds : List Nat) (store : Bool) : State :=
  if s.cal.ref.declared = 0 then s
  else
    let p : RefProc := match s.cal.procedure with
      | none => { cmds := cmds, regions := regions, store := store }
      | some q => { cmds := q.cmds ++ cmds, regions := q.regions ++ regions.filter (fun r => !q.regions.contains r), store := q.store || store }
    ({ s with cal := { s.cal with procedure := some p } }).pumpRef

/-- A run fails (08 R220-R222): counted and logged, the object due again with a retry in 10 s. -/
def State.runFailed (s : State) (e : CalRun) (code : Nat) (res : CalResult) : State :=
  let s1 := s.updStatus e.kind e.idx fun c => { c with lastFailed := true, lastExternal := false, failed := (c.failed + 1) % 2 ^ 32, consec := c.consec + 1 }
  let n := (s1.objStatus e.kind e.idx).consec
  let at_ := objLog e.kind e.idx
  let s2 := s1.log (0x300 + code) at_.1 at_.2 (largestStep e res) n
  let s3 := s2.makeDue e.kind e.idx e.temp 0 []
  let s4 : State := { s3 with cal := { s3.cal with due := s3.cal.due.map fun x => if x.kind = e.kind ∧ x.idx = e.idx then { x with notBefore := s.now + 2500000000 } else x } }
  let s5 := if n ≠ 3 then s4
    else match e.kind with
      | 0 => ((s4.calGroup e.idx).foldl (fun s k => s.ageCell k) s4).log 0x304 1 e.idx 3 0
      | 1 => if s4.cal.ref.inRecovery then s4.startRef [convRegion e.idx] [] false else s4.log 0x304 3 (2 ^ 24 + e.idx) 3 0
      | _ => s4
  e.cmds.foldl (fun s c => s.calEnded c 0 1) (s5.bump (uRg (objRegion e.kind e.idx)) 8)

/-- A position map that a capacitor array can have (08 R212): eight groups, none twice and none in quarantine. -/
def State.capMapOk (s : State) (n lo : Nat) (v : Int) : Bool :=
  let m := mapOf v
  decide (0 ≤ v) && decide (v < 2 ^ 32) && nodupB m && m.all fun k => decide (k < 9) && decide ((s.led (48 * n + lo + k)).state ≠ 3)

/-- The settings that a correction comes to in cell `n` (08 R212): key 0-3 an offset trim, 4-21 the ratio correction of a segment in
steps of its fine trim, whose code changes only where the fine trim cannot hold it, 40 and 41 a position map. What lies outside its
width, or belongs to a part that the run has not measured, changes nothing. -/
def State.trimSettings (s : State) (n : Nat) (q : Statistics) (e : Nat × Int) : List (Nat × Int) :=
  let c := s.cell n
  let k := e.1
  let active := (Tbl.get 0 42 c.regs).toNat
  if k < 4 then (if q.measures active k && decide (-8192 ≤ e.2) && decide (e.2 < 8192) then [(k, e.2)] else [])
  else if k < 22 then
    if !(q.segs || q.scale) then []
    else if -2048 ≤ e.2 ∧ e.2 < 2048 then [(k, e.2)]
    else
      let code := (Tbl.get 0 (k + 18) c.regs).toNat
      [(k + 18, ((Config.recode code e.2 % 1024 : Nat) : Int)), (k, clampI (-2048) 2047 (Config.remainder code e.2))]
  else if k = 40 then (if (q.capsA || q.scale) && s.capMapOk n 4 e.2 then [(k, e.2)] else [])
  else if k = 41 then (if (q.capsB || q.scale) && s.capMapOk n 13 e.2 then [(k, e.2)] else [])
  else []

/-- What a setting of a cell will be once its staged set applies. -/
def Cell.willBe (c : Cell) (k : Nat) : Int := match c.staged.find? fun e => e.1 == k with
  | some e => e.2
  | none => Tbl.get 0 k c.regs

/-- An inactive input pair that has moved by more than the limit (08 R222) takes a lower health score; at 0 it is quarantined (03
R91). -/
def State.pairMoved (s : State) (n pair health : Nat) : State :=
  let k := 48 * n + pair
  let l := s.led k
  let l1 : Led := { l with health := min l.health health, tested := none }
  if 4 ≤ pair ∨ bit l.detail 17 ∨ l.state = 3 then s else s.setLed k (if l1.health = 0 then l1.quarantine else l1)

/-- A plausible result of a cell run (08 R222, R223, R225; 02 R32, R40): one staged set for the cells of the group, with the pair that
the health scores and the new ranks make active; a set that changes nothing is not staged. -/
def State.cellResult (s : State) (e : CalRun) (res : CalResult) : State :=
  let group := s.calGroup e.idx
  group.zipIdx.foldl (fun s x =>
    let n := x.1
    let j := x.2
    let q := s.statistics n
    let active := (Tbl.get 0 42 (s.cell n).regs).toNat
    let apply : CalApply :=
      { ranks := res.ranks.filter fun r => decide (r.1 / 48 = j) && q.measures active (r.1 % 48)
        details := res.details.filter fun r => decide (r.1 / 48 = j) && q.measures active (r.1 % 48)
        temp := e.temp, offStep := res.offStep, gainStep := res.gainStep }
    let s1 := (res.moved.filter fun m => decide (m.1 / 48 = j)).foldl (fun s m => s.pairMoved n (m.1 % 48) m.2) s
    let pairSet := ((s1.writeRanks n j apply).bestPair n).toList.map fun i => ((42 : Nat), ((i : Nat) : Int))
    let c := s1.cell n
    let sets := (((res.trims.filter fun t => decide (t.1 / 64 = j)).flatMap fun t => s1.trimSettings n q (t.1 % 64, t.2)) ++ pairSet).filter fun t =>
      if t.1 = 40 ∨ t.1 = 41 then decide (mapOf (c.willBe t.1) ≠ mapOf t.2) else decide (c.willBe t.1 ≠ t.2)
    if sets.isEmpty then
      (s1.setCell n { c with calTime := some s.now, calTemp := e.temp, status := c.status.completed none }).writeRanks n j apply
    else (s1.setCell n { c with calRes := some apply }).stage n sets true none) s

/-- A plausible result of a converter run (08 R215, R216, R224, R238), for the gain codes that the sequence uses: the coefficients wait
for the exchange at the next output instant; a converter that waits for its first output takes them at once. -/
def State.convResult (s : State) (e : CalRun) (res : CalResult) : State :=
  let v := s.conv e.idx
  let new := res.coef.filter fun k => decide (k.1 % 32 < gainCodes e.idx) && decide (k.1 < 64) && v.steps.any fun q => decide (q.gain = k.1 % 32)
  let apply : CalApply := { ranks := [], details := [], temp := e.temp, offStep := res.offStep, gainStep := res.gainStep }
  let v1 : Conv := { v with comp := if v.comp = 2 then 0 else v.comp }
  if v1.eff.isNone ∨ new.isEmpty then
    s.setConv e.idx { v1 with coef := writeCoef (1 - v1.mainLoop) new v1.coef, mainLoop := if new.isEmpty then v1.mainLoop else 1 - v1.mainLoop,
                              calTime := some s.now, calTemp := e.temp, calDone := true,
                              status := v1.status.completed (if new.isEmpty then none else some apply) }
  else s.setConv e.idx { v1 with newCoef := new, calRes := some apply }

/-- A plausible result of a DAC run (08 R217, R224), for the range that the channel is in: applied at an update instant. The readings
give a gain too only where they span 25 % of the range's codes. -/
def State.dacResult (s : State) (e : CalRun) (res : CalResult) : State :=
  let d := s.dac e.idx
  let wide := decide (2 ^ 20 ≤ 4 * (d.readHigh - d.readLow))
  let new := (res.coef.filter fun k => decide (k.1 = d.range)).map fun k =>
    if wide then k else (k.1, k.2.1, (Tbl.get ((0 : Int), 2 ^ 30) k.1 d.coef).2)
  let apply : CalApply := { ranks := [], details := [], temp := e.temp, offStep := res.offStep, gainStep := res.gainStep }
  if new.isEmpty then s.setDac e.idx { d with calTime := some s.now, calTemp := e.temp, status := d.status.completed none }
  else s.setDac e.idx { d with newCoef := new, calRes := some apply }

/-- Does a CAL_RUN ask for its results to be stored at once (08 R230)? -/
def State.storeNow (s : State) (cmds : List Nat) : Bool := cmds.any fun c => decide ((s.hnd c).opcode = 0x0400) && bit (byteAt (s.hnd c).args 1) 1

/-- New coefficients and the scale factor take effect at an update instant (08 R224, R225). -/
def Dac.applyCal (d : Dac) (now : Nat) (scale : Int) : Dac :=
  let d1 : Dac := if d.newCoef.isEmpty then d else
    { d with coef := d.newCoef.foldl (fun t e => Tbl.set ((0 : Int), 2 ^ 30) e.1 (e.2.1, e.2.2) t) d.coef, newCoef := [], calTime := some now,
             calTemp := (d.calRes.map CalApply.temp).getD d.calTemp, status := d.status.completed d.calRes, calRes := none }
  { d1 with scale := scale }

/-- A machine in which the result of an object's run that waits for its boundary has been applied. -/
def State.settled (s : State) (kind idx : Nat) : State :=
  match kind with
  | 0 => if (s.cell idx).staged.isEmpty then s else s.applyCell idx
  | 1 => let v := s.conv idx
    if v.newCoef.isEmpty then s
    else s.setConv idx { v with coef := writeCoef (1 - v.mainLoop) v.newCoef v.coef, calTemp := (v.calRes.map CalApply.temp).getD v.calTemp }
  | _ => s.setDac idx ((s.dac idx).applyCal s.now (s.dac idx).scale)

/-- A write of the Keep store waits for the management core's restart to end (08 R228): by kind and number, kind 3 the reference record. -/
def State.storeLater (s : State) (kind idx : Nat) : State :=
  { s with cal := { s.cal with storeWait := s.cal.storeWait.filter (fun e => decide (e ≠ (kind, idx))) ++ [(kind, idx)] } }

/-- Store the reference record (08 R234). -/
def State.storeRef (s : State) : State :=
  if s.chip.restarting then s.storeLater 3 0 else s.keepWrite fun k => { k with refRec := some s.cal.ref.bytes }

/-- Write the result of a run to the Keep store at once (08 R230), before its boundary has come; a restart of the management core is
waited for (R228). -/
def State.storeResult (s : State) (kind idx : Nat) : State :=
  if s.chip.restarting then s.storeLater kind idx
  else if s.keepLocked then s.logLocked
  else
    let t := (s.settled kind idx).storeCal kind idx
    { s with keep := t.keep, cal := { s.cal with lastWrite := t.cal.lastWrite } }

/-- The writes that waited for a restart of the management core are made (08 R228). -/
def State.storeWaited (s : State) : State :=
  s.cal.storeWait.foldl (fun s e => if e.1 = 3 then s.storeRef else s.storeResult e.1 e.2) { s with cal := { s.cal with storeWait := [] } }

/-- CALIBRATION_RUN_END (08 R213, R217, R220-R225). Runs pause while a REPAIR runs in the region (R228). -/
def execCalibrationRunEnd (t kind idx0 : Nat) (res : CalResult) (s : State) : Host.Outcome State Fault Refusal :=
  let s := s.at t
  let idx := s.calLeader kind idx0
  match s.cal.runs.find? fun e => e.kind == kind && e.idx == idx with
  | none => .next s
  | some e =>
    let r := objRegion kind idx
    if !s.ctrlOk r ∨ s.repairsIn r ∨ (kind = 2 ∧ res.fail = 0 ∧ (s.dac idx).readings < 64) ∨ s.now < e.start + s.runWindows e then .next s
    else
      let s0 : State := { s with cal := { s.cal with runs := s.cal.runs.filter fun x => decide (x ≠ e) } }
      let s1 := if kind = 1 ∧ (s0.conv idx).comp = 2 then s0.setConv idx { s0.conv idx with comp := 0 } else s0
      let s2 :=
        if 0 < s.runFails e res.fail then s1.runFailed e (s.runFails e res.fail) res
        else if e.offLimit * 100 < res.offStep.natAbs ∨ e.gainLimit * 100 < res.gainStep.natAbs then s1.runFailed e 0 res
        else
          let s2 := (match kind with
            | 0 => s1.cellResult e res
            | 1 => s1.convResult e res
            | _ => s1.dacResult e res).setDueFlag kind idx false |>.bump (uRg r) 4
          let s3 := if s2.storeNow e.cmds then (if kind = 0 then (s2.calGroup idx).foldl (fun s n => s.storeResult 0 n) s2 else s2.storeResult kind idx) else s2
          e.cmds.foldl (fun s c => s.calEnded c 1 0) s3
      .next s2.pumpRef

/-- CAL_RETRY (08 R221): 10 s after a failed run the object may run again. -/
def execCalRetry (t kind idx0 : Nat) (s : State) : Host.Outcome State Fault Refusal :=
  let s := s.at t
  let idx := s.calLeader kind idx0
  .next { s with cal := { s.cal with due := s.cal.due.map fun e =>
    if e.kind = kind ∧ e.idx = idx ∧ e.notBefore ≤ s.now then { e with notBefore := 0 } else e } }

/-- Last-run time of an object. -/
def State.lastRun (s : State) (kind idx : Nat) : Option Nat :=
  match kind with
  | 0 => (s.cell idx).calTime
  | 1 => (s.conv idx).calTime
  | _ => (s.dac idx).calTime

/-- CAL_INTERVAL_DUE (08 R218): the maximum interval since the last run has passed. -/
def execCalIntervalDue (t kind idx : Nat) (s : State) : Host.Outcome State Fault Refusal :=
  let s := s.at t
  let i := s.cal.policy.interval
  if i = 0 ∨ !s.dueKind kind idx ∨ !s.ctrlOk (objRegion kind idx) ∨ s.now < (s.lastRun kind idx).getD 0 + i * 250000000 then .next s
  else .next (s.makeDue kind idx (s.objTemp kind idx) 0 [])

/-- An object of a region moves by temperature (08 R218). -/
def State.tempDue (s : State) (kind idx : Nat) : State :=
  let last := match kind with
    | 0 => (s.cell idx).calTemp
    | 1 => (s.conv idx).calTemp
    | _ => (s.dac idx).calTemp
  let d := (s.objTemp kind idx - last).natAbs
  if s.dueKind kind idx && decide (s.cal.policy.trigger < d) then s.makeDue kind idx (s.objTemp kind idx) d [] else s

/-- A region's readings make objects due (08 R218). -/
def State.regionDue (s : State) (r : Nat) : State := (s.regionObjs r).foldl (fun s e => s.tempDue e.1 e.2) s

/-- Every calibrated object of the chip is due (17 R463). -/
def State.allDue (s : State) : State :=
  ((List.range 8).flatMap fun r => s.regionObjs r).foldl (fun s e => s.makeDue e.1 e.2 (s.objTemp e.1 e.2) 0 []) s

/-- A supply fault or a region controller restart abandons runs without counting them (08 R228; 17 R463). -/
def State.dropRuns (s : State) (r : Nat) : State :=
  (s.cal.runs.filter fun e => objRegion e.kind e.idx == r).foldl (fun s e => s.dropRun e.kind e.idx) s

/-! ### Commands -/

/-- Numbers of a CAL_RUN target kind. -/
def calCount (kind : Nat) : Nat := [1024, 192, 64, 8, 1].getD kind 0

/-- The regions a CAL_RUN needs. -/
def calRegions (kind idx : Nat) : List Nat :=
  match kind with
  | 3 => [idx]
  | 4 => List.range 8
  | k => [objRegion k idx]

/-- The runs of a CAL_RUN: its objects, one of each group (08 R213). -/
def State.calRunsOf (s : State) (l : List (Nat × Nat)) : List (Nat × Nat) := (l.map fun e => (e.1, s.calLeader e.1 e.2)).eraseDups

def bodyCalRun (cmd : Instr) (slot : Nat) (a : Bytes) (s : State) : State :=
  let kind := byteAt a 0
  let fl := byteAt a 1
  let idx := fld a 2 2
  if 4 < kind ∨ calCount kind ≤ idx then s.final slot stRANGE 0 0
  else if fld a 8 8 % 8 ≠ 0 ∨ (bit fl 2 ∧ !s.bufOk (fld a 8 8) (32 * (s.calTargets kind idx).length)) then s.final slot stBAD_ARG 0 0
  else s.onRegions (calRegions kind idx) slot cmd fun s =>
    let objs := s.calRunsOf (s.calTargets kind idx)
    let ext := bit fl 0 && decide (s.cal.ref.declared ≠ 0)
    let n := objs.length + b2n ext
    if n = 0 then (s.reportCals slot).final slot stOK 0 0
    else
      let s1 := s.setWork slot (.cal n 0 0 false)
      let s2 := objs.foldl (fun s e => s.makeDue e.1 e.2 (s.objTemp e.1 e.2) 0 [slot]) s1
      if ext then s2.startRef (List.range 8) [slot] (bit fl 1) else s2

/-- CAL_RUN (08 R230). The numbers 192 to 255, which name no converter, are rejected (00 R5; 12 R327); an index further out completes
with RANGE (DESIGN CHOICE, log 16). The report of REPORT is written with FINAL, by `reportCals`. -/
def execCalRun (d : Desc) (s : State) : Host.Outcome State Fault Refusal :=
  queueCmd d s fun s => s.command 0x0400 d (fun a => firstBad a ((1, 0xF8) :: rsv 4 4 ++ (if bit (byteAt a 1) 2 then [] else rsv 8 8)))
    (fun _ a => if byteAt a 0 = 1 ∧ noConverter (fld a 2 2) then some stRANGE else none) (bodyCalRun (.calRun d))

def bodyCalPolicy (slot : Nat) (a : Bytes) (s : State) : State :=
  if byteAt a 0 = 0 then
    let p : CalPolicy := { blind := bit (byteAt a 1) 0, store := bit (byteAt a 1) 1, trigger := fld a 2 2, offLimit := fld a 4 2,
                           gainLimit := fld a 6 2, window := fld a 8 2, interval := fld a 10 4 }
    if p.trigger < 50 ∨ 2000 < p.trigger ∨ p.offLimit = 0 ∨ 1000 < p.offLimit ∨ p.gainLimit = 0 ∨ 10000 < p.gainLimit ∨
        p.window = 0 ∨ 600 < p.window ∨ 86400 < p.interval then s.final slot stRANGE 0 0
    else
      let s1 : State := { s with cal := { s.cal with policy := p } }
      let s2 := if bit (byteAt a 1) 2 then s1.keepWrite fun k => { k with policyRec := some (p.bytes true) } else s1
      s2.final slot stOK 0 0
  else if byteAt a 0 = 1 then
    let gs := fld a 2 2 % 4096
    match s.graph gs with
    | none => s.final slot stABORTED 0 0
    | some g => (s.setGraph gs (some { g with zeroMean := slice a 16 32 })).final slot stOK 0 0
  else s.final slot stRANGE 0 0

/-- CAL_POLICY (08 R231). -/
def execCalPolicy (d : Desc) (s : State) : Host.Outcome State Fault Refusal :=
  queueCmd d s fun s => s.command 0x0401 d
    (fun a => if byteAt a 0 = 1 then firstBad a (rsv 1 1 ++ rsv 4 12) else if byteAt a 0 = 0 then firstBad a ((1, 0xF8) :: rsv 14 34) else none)
    (fun s a => if byteAt a 0 = 1 && !s.namesObj (fld a 2 2) 1 then some stBAD_HANDLE else none) bodyCalPolicy

def bodyCalRef (slot : Nat) (a : Bytes) (s : State) : State :=
  let v := fld a 0 4
  let tol := fld a 4 2
  let fl := byteAt a 6
  if v < 100000000 ∨ 400000000 < v ∨ tol = 0 ∨ 10000 < tol then s.final slot stRANGE 0 0
  else
    let r : RefRec := { s.cal.ref with declared := v, tol := tol, atStart := bit fl 0, inRecovery := bit fl 1 }
    let s1 : State := { s with cal := { s.cal with ref := r } }
    let s2 := if bit fl 3 then s1.keepWrite fun k => { k with refRec := some r.bytes } else s1
    if bit fl 2 then (s2.setWork slot .refcal).startRef (List.range 8) [slot] (bit fl 3) else s2.final slot stOK (ofI 64 r.scale) 0

/-- CAL_REF_EXTERNAL (08 R232). -/
def execCalRefExternal (d : Desc) (s : State) : Host.Outcome State Fault Refusal :=
  queueCmd d s fun s => s.command 0x0402 d (fun a => firstBad a ((6, 0xF0) :: rsv 7 9)) (fun _ _ => none) bodyCalRef

/-! ### The external reference procedure (08 R226) -/

/-- Why a region's measurement fails: 0 it does not, 1 absent, 2 noisy, 3 implausible, 4 timeout. -/
def refFail (ref : RefRec) (m : RefRegion) : Nat :=
  if m.fail = 4 then 4
  else if m.mean * 10 < ref.declared then 1
  else if m.fail = 2 then 2
  else if ref.declared * ref.tol < ((m.mean : Int) - ref.declared).natAbs * 1000000 then 3
  else 0

/-- The scale factor of the regions that succeed, as (ratios in units of 1/D, D, the regions kept). -/
def refScale (declared : Nat) (ok : List (Nat × Nat)) : List (Nat × Nat) × Int :=
  let d := (ok.map (·.2)).foldl (· * ·) 1
  let ratio (m : Nat) : Int := (declared * (d / m) : Nat)
  let med := median2 (ok.map fun e => ratio e.2)
  let kept := ok.filter fun e => decide (((2 * ratio e.2 - med).natAbs : Int) * 1000000 ≤ 4 * d)
  let k := kept.length
  let sum := (kept.map fun e => ratio e.2).sum
  (kept, if k = 0 then 0 else roundFree ((sum - (k : Int) * d) * 100000000) ((k : Int) * d))

/-- REFCAL_MEASUREMENT (08 R226, R227): the procedure ends, one answer for each of its regions in order. -/
def execRefcalMeasurement (t : Nat) (regions : List RefRegion) (s : State) : Host.Outcome State Fault Refusal :=
  let s := (s.at t).pumpRef
  match s.cal.procedure with
  | none => .next s
  | some p =>
    if regions.length ≠ p.regions.length ∨ p.regions.any (fun r => decide ((s.conv (8 * r)).comp ≠ 3)) then .next s
    else
      let ms := p.regions.zip regions
      let ref := s.cal.ref
      let answer (e : Nat × RefRegion) : Nat := if (s.region e.1).failed then 4 else refFail ref e.2
      let s1 := ms.foldl (fun s e => let f := answer e; if f = 0 then s else s.log (0x305 + f) 3 e.1 e.2.mean 0) s
      let ok := (ms.filter fun e => decide (answer e = 0)).map fun e => (e.1, e.2.mean)
      let r := refScale ref.declared ok
      let out := ok.filter fun e => !r.1.contains e
      let s2 := out.foldl (fun s e => s.log 0x30A 3 e.1 e.2 0) s1
      let excluded := p.regions.length - r.1.length
      let fits := decide ((r.2 - ref.scale).natAbs ≤ s.cal.policy.gainLimit * 100)
      let s3 := if r.1.isEmpty then s2
        else if !fits then s2.log 0x300 3 0 (2 ^ 63 + (r.2 - ref.scale).natAbs) 0
        else
          let new : RefRec := { ref with scale := r.2, valid := true, time := s.now }
          let s3 : State := { s2 with cal := { s2.cal with ref := new } }
          if p.store then s3.storeRef else s3
      let s4 := p.regions.foldl (fun s r => s.setConv (8 * r) { s.conv (8 * r) with comp := 0 }) s3
      let s5 := ok.foldl (fun s e => s.updStatus 1 (8 * e.1) fun c => { c with lastExternal := true }) s4
      let s6 : State := { s5 with cal := { s5.cal with procedure := none } }
      let st := if r.1.isEmpty then stFAULT else if excluded = 0 then stOK else stDEGRADED
      .next (p.cmds.foldl (fun s c => match (s.hnd c).work with
        | .refcal => s.final c st (ofI 64 s.cal.ref.scale) excluded
        | _ => s.calEnded c (b2n (!r.1.isEmpty)) (b2n r.1.isEmpty)) s6)

/-! ### Start-up (08 R234, R238; 03 R94) -/

/-- Load the record of a cell. -/
def State.loadCell (s : State) (n : Nat) : State :=
  match Tbl.get none n s.keep.cells with
  | none => s
  | some b =>
    if !sealed 64 b ∨ fld b 0 2 ≠ n ∨ !bit (byteAt b 2) 0 then s
    else
      let regs := (List.range 4).foldl (fun t i => Tbl.set 0 i (toI 16 (fld b (4 + 2 * i) 2)) t)
        ((List.range 18).foldl (fun t i => Tbl.set 0 (4 + i) (toI 16 (fld b (12 + 2 * i) 2)) t)
          (Tbl.set 0 40 (fld b 48 4 : Int) (Tbl.set 0 41 (fld b 52 4 : Int) (s.cell n).regs)))
      let s1 := s.setCell n { s.cell n with regs := regs, calTemp := toI 16 (fld b 56 2) }
      let s2 := s1.updLeds ((List.range 40).map (48 * n + ·)) fun e l => { l with rank := Config.restoredRank e b % 4096 }
      s2.activatePair n (byteAt b 3 % 4)

/-- Load the record of a converter. -/
def State.loadConv (s : State) (c : Nat) : State :=
  let len := if isWM c then 128 else 256
  match s.storedCal 1 c with
  | none => s
  | some b =>
    if !sealed len b ∨ fld b 0 2 ≠ c then s
    else
      let g := gainCodes c
      let coef := (List.range 2).foldl (fun t l => (List.range g).foldl (fun t k =>
        Tbl.set ((0 : Int), 2 ^ 30) (32 * l + k) (toI 32 (fld b (16 + 8 * (g * l + k)) 4), fld b (20 + 8 * (g * l + k)) 4) t) t) ([] : Tbl (Int × Nat))
      s.setConv c { s.conv c with coef := coef, calTemp := toI 16 (fld b 4 2) }

/-- Load the calibration record of a DAC channel. -/
def State.loadDacCal (s : State) (n : Nat) : State :=
  match Tbl.get none n s.keep.dacCals with
  | none => s
  | some b =>
    if !sealed 64 b ∨ byteAt b 0 ≠ n then s
    else
      let coef := (List.range 4).foldl (fun t k => Tbl.set ((0 : Int), 2 ^ 30) k (toI 32 (fld b (4 + 8 * k) 4), fld b (8 + 8 * k) 4) t) ([] : Tbl (Int × Nat))
      s.setDac n { s.dac n with coef := coef, calTemp := toI 16 (fld b 36 2) }

/-- Load the system calibration sets (05 R154; 08 R237). -/
def State.loadSys (s : State) : State :=
  s.keep.sysSets.foldl (fun s e => match e.2 with
    | none => s
    | some b =>
      if !sealed 32 b ∨ !bit (byteAt b 3) 0 ∨ 192 ≤ byteAt b 0 then s
      else
        let c := byteAt b 0
        let m : SysSet := { conv := c, entry := byteAt b 1, gcode := byteAt b 2, gain := fld b 8 4, offset := toI 32 (fld b 12 4), owner := fld b 4 2,
                            stale := bit (byteAt b 3) 1, time := fld b 16 8 }
        s.setConv c { s.conv c with sys := (s.conv c).sys ++ [m] }) s

/-- The reference and policy records (08 R234). -/
def State.loadRecords (s : State) : State :=
  let ref : RefRec := match s.keep.refRec with
    | some b => if sealed 32 b then { declared := fld b 0 4, tol := fld b 4 2, atStart := bit (byteAt b 6) 0, inRecovery := bit (byteAt b 6) 1,
                                      valid := bit (byteAt b 6) 2, scale := toI 32 (fld b 8 4), time := fld b 12 8 } else {}
    | none => {}
  let pol : CalPolicy := match s.keep.policyRec with
    | some b => if sealed 32 b then { blind := bit (byteAt b 1) 0, store := bit (byteAt b 1) 1, trigger := fld b 2 2, offLimit := fld b 4 2,
                                      gainLimit := fld b 6 2, window := fld b 8 2, interval := fld b 10 4 } else {}
    | none => {}
  { s with cal := { s.cal with ref := ref, policy := pol } }

/-- The store header (08 R234). -/
def keepHeader : Bytes := sealRec 64 (toLE 4 0x5045454B ++ toLE 2 1 ++ toLE 2 64 ++ toLE 4 524288)

/-- Step 4 of start-up: the header is made good, and every valid record is loaded (08 R234, R238; 03 R94). -/
def State.loadKeep (s : State) : State :=
  let s0 : State := { s with keep := { s.keep with header := some keepHeader } }
  let s1 := s0.keep.health.foldl (fun s e => s.setLed e.1 { s.led e.1 with health := e.2.1, state := if e.2.2 then 3 else (s.led e.1).state }) s0
  let s2 := s1.keep.cells.foldl (fun s e => s.loadCell e.1) s1
  let s3 := (List.range 192).foldl (fun s c => s.loadConv c) s2
  let s4 := (List.range 64).foldl (fun s n => s.loadDacCal n) s3
  s4.loadSys.loadRecords

end Sys2Proof.Machine
end

