-- ==== Sys2Proof/Machine/Moves.lean ====
section
/-! DEFINITION. The steps of planned transplants and of repairs, and cell faults (04_transplant_and_stolon.md R100-R113,
R123-R126; 17_faults_log.md R455; 02_analogue_cells.md R48). -/

namespace Sys2Proof.Machine

/-! ### Planned transplants (04 R102-R107) -/

/-- The cells of a primitive, in order, as it stands. -/
def Prim.place (p : Prim) (i : Nat) : PlaceP := { prim := i, c0 := p.c0, c1 := p.c1, aa0 := p.aa0, aa1 := p.aa1, bias := p.bias }

/-- Does a region take its part in a transplant for a reason: its controller accepts configuration, or has failed and the region is
being evacuated (01 R19-R21; 17 R457)? -/
def State.takesPart (s : State) (why : MoveWhy) (r : Nat) : Bool := s.ctrlOk r || (decide (why = .evacuate) && (s.region r).failed)

/-- Do the regions of a destination accept configuration? -/
def State.placeOk (s : State) (d : PlaceP) : Bool := (placeRegions d).all fun r => s.ctrlOk r

/-- May the regions of a destination go on with the configuration and matching of a planned transplant (04 R123; 01 R20)? -/
def State.planRuns (s : State) (m : Move) : Bool := s.placeOk m.dest && !s.repairsIn (placeRegion m.dest)

/-- A destination takes the primitive's function and bias code (04 R102 step 3, R111 step 5), with what a GRAPH_TUNE has staged. -/
def State.configDest (s : State) (slot i : Nat) (d : PlaceP) : State :=
  match s.graph slot with
  | none => s
  | some g => ((placeCells d).foldl (fun s n => s.setCell n { s.cell n with bias := d.bias }) s).configPrim (((g.tunedAt i).prim i).on d)

/-- The input ports of a destination join the tracks that feed the source (04 R102 step 3, R111 step 6). -/
def State.joinDest (s : State) (slot i : Nat) (d : PlaceP) (nets : List (Nat × List Nat)) : State :=
  match s.graph slot with
  | none => s
  | some g => s.joinPorts ((g.setPrim i ((g.prim i).on d)).route nets) i

/-- DESTINATION_CONFIGURED (04 R102, step 3): cells that were no warm spares have been calibrated (R98). -/
def execDestinationConfigured (t slot prim : Nat) (s : State) : Host.Outcome State Fault Refusal :=
  let s := s.at t
  match s.moveOf slot prim with
  | none => .next s
  | some m =>
    if m.step ≠ 1 ∨ !s.planRuns m then .next s
    else
      let s1 := (s.configDest slot prim m.dest).joinDest slot prim m.dest m.nets
      .next ((m.cold.foldl (fun s n => s.builtCell n) s1).setMove slot prim (some { m with step := 3 }))

/-- The converters whose companion loops a move uses: those its output loads, or the one that R39 selects (04 R101,
R103). -/
def State.moveLoops (s : State) (g : Graph) (m : Move) : List Nat :=
  if m.todo.isEmpty then (s.boundaryConv g m.prim).toList.filter fun c => !(s.conv c).eff.isNone
  else m.todo.filter fun c => !(s.conv c).eff.isNone

/-- The tracks that a companion loop's private taps read for matching (04 R103; 05 R134): the destination's output, and for an inner
primitive the source's before it. -/
def matchTracks (p : Prim) (m : Move) : List Nat :=
  let dest := outTrack (p.on m.dest).outCell
  if m.todo.isEmpty then [outTrack p.outCell, dest] else [dest]

/-- DESTINATION_SETTLED (04 R102 step 4, R100, R124): matching starts, calibration of both ends is frozen, and the
companion loops are taken, which a blind run or the reference procedure may delay. -/
def execDestinationSettled (t slot prim : Nat) (s : State) : Host.Outcome State Fault Refusal :=
  let s := s.at t
  match s.moveOf slot prim, s.graph slot with
  | some m, some g =>
    let loops := s.moveLoops g m
    if m.step ≠ 3 ∨ !s.planRuns m ∨ loops.any (fun c => !([0, 4].contains (s.conv c).comp)) then .next s
    else
      let s1 := loops.foldl (fun s c =>
        let s1 := s.yieldConv c 4
        s1.setConv c { s1.conv c with comp := 1, priv := matchTracks (g.prim prim) m }) s
      .next ((s1.setFrozen ((g.prim prim).cells ++ placeCells m.dest) true).setMove slot prim (some { m with step := 4, loops := loops }))
  | _, _ => .next s

/-- The trims that the region controller gives a destination after a round that fails (04 R103), by place in it: key 64 j + k is
setting k of its j-th cell. -/
def State.trimDest (s : State) (d : PlaceP) (trims : List (Nat × Int)) : State :=
  let all : Statistics := { chop := true, zeroMean := true, pairs := 3, segs := true, capsA := true, capsB := true, scale := true }
  trims.foldl (fun s e => match (placeCells d)[e.1 / 64]? with
    | none => s
    | some n => (s.trimSettings n all (e.1 % 64, e.2)).foldl (fun s x => s.writeSetting n x) s) s

/-- MATCHING_ROUND (04 R103): offset differences referred to the primitive's input and at its output, in 10 nV, and the
gain difference in 0.01 ppm; `trims` are what the controller trims after a round that fails. -/
def execMatchingRound (t slot prim offIn offOut gainDiff : Nat) (trims : List (Nat × Int)) (s : State) : Host.Outcome State Fault Refusal :=
  let s := s.at t
  match s.moveOf slot prim with
  | none => .next s
  | some m =>
    if m.step ≠ 4 ∨ !s.planRuns m then .next s
    else
      let s1 := (placeCells m.dest).foldl (fun s n => s.setCell n { s.cell n with calTime := some s.now, calTemp := s.blockTemp (n / 16) }) s
      if (offIn ≤ 10 ∨ offOut ≤ 1880) ∧ gainDiff ≤ 500 then .next (s1.setMove slot prim (some { m with step := 5, round := m.round + 1 }))
      else if m.round + 1 < 3 then .next ((s1.trimDest m.dest trims).setMove slot prim (some { m with round := m.round + 1 }))
      else
        let s2 := (s1.bump (uRg (placeRegion m.dest)) 7).log 0x204 1 m.dest.c0 (s1.primArg slot prim) offOut
        .next ((s2.abandonMove m stFAULT 1).cellsFreed.pumpRef.resume)

/-- Cells no longer hold a level, as they do while an output changes over (04 R106, R107). -/
def State.dropHolds (s : State) (cells : List Nat) : State :=
  cells.foldl (fun s n => s.setCell n { s.cell n with levelHeld := false, tnh := false }) s

/-- The destination of a move takes the source's place in its graph (04 R105, R107), with what a GRAPH_TUNE has staged for it (03
R86). -/
def State.takePlace (s : State) (m : Move) (g : Graph) : State :=
  let new : Graph := { g.tunedAt m.prim with next := g.next.filter fun n => n.prim != m.prim }
  let src := (g.prim m.prim).cells
  let s1 := (s.setGraph m.graph (some new)).swapPlaces m.graph m.prim m.dest m.nets
  let s2 := (placeCells m.dest).foldl (fun s n => s.setCell n { s.cell n with use := .fn m.graph m.prim, bias := m.dest.bias }) s1
  let s3 := ((s2.configPrim ((new.prim m.prim).on m.dest)).dropHolds (src ++ placeCells m.dest)).releaseLoops m g
  if g.next.any fun n => n.prim == m.prim then s3.makeDue 0 m.dest.c0 (s3.blockTemp (m.dest.c0 / 16)) 0 [] else s3

/-- CROSSOVER_COMPLETE (04 R105, R81): the destination takes the source's place in the graph; `meas` are the values
found for its records. -/
def execCrossoverComplete (t slot prim : Nat) (meas : Measured) (s : State) : Host.Outcome State Fault Refusal :=
  let s := s.at t
  match s.moveOf slot prim, s.graph slot with
  | some m, some g =>
    let fading := (reaches g prim).any fun r => match (s.conv r.1).xf with
      | none => false
      | some x => decide (x.graph = slot) && decide (x.prim = prim)
    if m.step ≠ 6 ∨ !m.todo.isEmpty ∨ fading then .next s
    else
      let s1 := (s.takePlace m g).reeval slot prim meas
      .next ((s1.bump (uRg (placeRegion m.dest)) 0).setMove slot prim (some { m with step := 7, loops := [], src := (g.prim prim).place prim })).pumpRef
  | _, _ => .next s

/-- The modulator that a Stolon test borrows in a region: one in mode OFF, else a companion loop that is free
(04 R119). -/
def State.stolonConv (s : State) (r : Nat) : Option (Nat × Bool) :=
  let pms := (List.range 8).map (8 * r + ·)
  match pms.find? fun c => decide ((s.conv c).cfg.mode = 0) && !(s.conv c).borrowed with
  | some c => some (c, false)
  | none => (pms.find? fun c => decide ((s.conv c).comp = 0) && !(s.conv c).borrowed).map (·, true)

/-- The test of a region begins where it has none yet in progress and a modulator can be borrowed; one that waits takes its turn (04
R119, R123). A companion loop reads the cells through its private taps. -/
def State.pumpTest (s : State) (r : Nat) : State :=
  let v := s.region r
  let s1 := match v.test, v.testQ with
    | none, q :: l => s.setRegion r { v with test := some q, testQ := l }
    | _, _ => s
  match (s1.region r).test with
  | none => s1
  | some q => if q.conv.isSome then s1
    else match s1.stolonConv r with
      | none => s1
      | some (c, loop) =>
        let w := s1.conv c
        let s2 := s1.setConv c { w with borrowed := true, gated := w.gated && loop, comp := if loop then 4 else w.comp,
                                        priv := if loop then (q.cells.map outTrack).take 2 else w.priv }
        s2.setRegion r { s2.region r with test := some { q with conv := some c, start := s2.now } }

/-- A Stolon test borrows some cells and waits its turn (04 R119, R120): they are powered, at full bias (DESIGN CHOICE, log 13). -/
def State.askTest (s : State) (r : Nat) (q : Test) : State :=
  let s1 := q.cells.foldl (fun s n => s.setCell n { s.cell n with borrowed := true, bias := 1023 }) s
  (s1.setRegion r { s1.region r with testQ := (s1.region r).testQ ++ [q] }).pumpTest r

/-- A move has ended: its source's cells become free or spare, or are tested (04 R102 step 8, R117, R120). -/
def State.endMove (s : State) (m : Move) : State :=
  let src := s.vacated m.graph m.prim
  let s1 := (s.setFrozen (src ++ placeCells m.dest) false).dropMove m
  let s2 := if m.why = .stolon ∧ !src.isEmpty then
      (src.foldl (fun s n => s.freeCell n) s1).askTest (cellRegion (src.headD 0)) { cells := src, owner := some (m.graph, m.src), took := m.took }
    else s1.giveBack m.graph src
  match m.handle, s2.graph m.graph with
  | some h, some g => if m.why = .host then s2.final h stOK ((g.prim m.prim).c0 + (g.prim m.prim).c1 * 65536) 0 else s2
  | _, _ => s2

/-- SOURCE_DISCONNECTED (04 R102 step 8, R117, R120). -/
def execSourceDisconnected (t slot prim : Nat) (s : State) : Host.Outcome State Fault Refusal :=
  let s := s.at t
  match s.moveOf slot prim with
  | none => .next s
  | some m =>
    if m.step ≠ 7 ∨ !s.placeOk m.dest ∨ (s.vacated slot prim).any (fun n => !s.takesPart m.why (n / 128)) then .next s
    else .next (s.endMove m).cellsFreed.resume

/-! ### Cell faults (04 R109, R110, R125) -/

/-- Input pairs that feed a function, through any number of primitives. -/
def feedingPairs (g : Graph) (i : Nat) : List Nat :=
  (g.nets.filter fun n => decide (n.drvKind = 1) && n.loads.any fun c => loadKind c == 0 && (downstream g (loadPrim c)).contains i).map Net.drv

/-- HELD marking starts on some of the converters that a function reaches (04 R110, R112). -/
def State.startHeld (s : State) (slot i : Nat) (g : Graph) (on : Nat → Bool) (first : Nat) (fin : Option Nat) : State :=
  ((reaches g i).filter fun r => on r.1).foldl (fun s r =>
    let v := s.conv r.1
    s.setConv r.1 { v with heldIv := v.heldIv ++ [{ graph := slot, prim := i, entries := s.entriesOf r.1 r.2 slot, first := first, fin := fin }] }) s

/-- Isolate and quarantine cells (04 R110; 02 R36): their switch groups open, and they are powered down; a CMP holds its last level. -/
def State.isolate (s : State) (cells : List Nat) (cmp : Bool) : State :=
  cells.foldl (fun s n =>
    let s1 := ((s.openSwitches n).restand n false).quarantineCell n
    s1.setCell n { (s1.cell n).cleared with use := .free, bias := 0, due := false, isolated := true, levelHeld := cmp }) s

/-- The runs in progress on the cells of a function that a REPAIR takes (12 R331; 08 R228): a CAL_RUN of a cell completes
with YIELDED, the other commands wait for the destination's run. -/
def State.takeRuns (s : State) (cells : List Nat) : State × List Nat :=
  let mine := s.cal.runs.filter fun e => e.kind == 0 && cells.contains e.idx
  let s1 : State := { s with cal := { s.cal with runs := s.cal.runs.filter fun e => !mine.contains e } }
  let cmds := mine.flatMap CalRun.cmds
  let one (c : Nat) : Bool := byteAt (s.hnd c).args 0 == 0
  let s2 := (cmds.filter one).foldl (fun s c => s.final c stYIELDED 0 0) s1
  (cells.foldl (fun s n => s.forgetCal 0 n) s2, cmds.filter fun c => !one c)

/-- The moves that a command asked for and whose crossover has not begun are abandoned, but one of primitive `i`. -/
def State.dropMoves (s : State) (slot i : Nat) : State :=
  (s.til.moves.filter fun m => decide (m.handle = some slot) && decide (m.step < 6) && decide (m.prim ≠ i)).foldl
    (fun s m => s.abandonMove m stABORTED 0) s

/-- A fault repair of primitive `i` supersedes GRAPH_TUNE and GRAPH_PIN in progress on a graph, which start again from the
repaired placement (03 R87). -/
def State.supersede (s : State) (gs i : Nat) : State :=
  s.inFlight.foldl (fun s e => match e.2.work with
    | .tune g false cmd => if g = gs then ((s.setWork e.1 (.tune g true cmd)).dropMoves e.1 i).revertGraph gs else s
    | .pin g false n cmd => if g = gs then ((s.setWork e.1 (.pin g true n cmd)).dropMoves e.1 i).revertGraph gs else s
    | _ => s) s

/-- A converter in a crossover of a primitive goes wholly to one end: to the destination, whose loop becomes the main loop, or back to
the source (04 R125). It stands in the crossover where its loop is taken for it. -/
def State.settleLoop (s : State) (m : Move) (toDest : Bool) (c : Nat) : State :=
  let v := s.conv c
  let fading := v.xf.any fun x => decide (x.graph = m.graph) && decide (x.prim = m.prim)
  let onDest := !fading && !m.todo.contains c
  s.setConv c { v with xf := if fading then none else v.xf, mainLoop := if onDest = toDest then v.mainLoop else 1 - v.mainLoop }

/-- A REPAIR supersedes a move whose crossover has not begun, and takes its destination if that has settled (04 R125); an evacuation
is still owed (R126). -/
def State.repairTakes (s : State) (m : Move) (g : Graph) (q : Repair) : State :=
  let keep := decide (4 ≤ m.step)
  let s1 := if keep then ((s.dropMove m).releaseLoops m g).setFrozen ((g.prim m.prim).cells ++ placeCells m.dest) false else s.withdraw m
  let s2 := (s1.endCmd m stYIELDED 0 0).queueRepair (if keep then { q with step := 7, dest := some m.dest, nets := m.nets } else q) (cellRegion (g.prim m.prim).c0)
  if m.why = .evacuate then s2.requeue m else s2

/-- A fault in the cells of a function (04 R110, R125). -/
def State.faultFn (s : State) (slot i : Nat) (g : Graph) (first : Nat) : State :=
  let p := g.prim i
  let taken := s.takeRuns p.cells
  let s0 := (taken.1.supersede slot i).isolate p.cells (p.ty == 7)
  let s1 := (g.ballSegs i).foldl (fun s k => s.setSwitch k false) s0
  let q : Repair := { graph := slot, prim := i, first := first, cmds := taken.2 }
  match s.moveOf slot i with
  | some m =>
    if m.step < 6 then (s1.startHeld slot i g (fun _ => true) first none).repairTakes m g q
    else if m.step = 6 then
      -- during the crossover the destination serves from the next boundary on
      let s2 := m.loops.foldl (fun s c => if m.todo.isEmpty && !outer g i then s else s.settleLoop m true c) s1
      let s3 := taken.2.foldl (fun s c => s.calEnded c 0 0) s2
      (s3.startHeld slot i g (fun _ => true) first (some s.now)).setMove slot i (some { m with todo := [] })
    else ((s1.endMove m).startHeld slot i g (fun _ => true) first none).queueRepair q (cellRegion p.c0)
  | none => (s1.startHeld slot i g (fun _ => true) first none).queueRepair q (cellRegion p.c0)

/-- A fault in the destination of a move (04 R125): the function stays at the source, and the move is tried again later. -/
def State.faultMove (s : State) (m : Move) (g : Graph) (first : Nat) : State :=
  let s1 := s.isolate (placeCells m.dest) false
  let s2 := if m.step = 6 then
      let back := if outer g m.prim then m.loops.foldl (fun s c => s.settleLoop m false c) s1 else s1
      back.startHeld m.graph m.prim g (fun c => !m.todo.contains c) first (some s.now)
    else s1
  let s3 := (g.ballSegs m.prim).foldl (fun s k => s.setSwitch k true) (s2.leaveMove m)
  if m.why = .host then s3.endCmd m stFAULT 0 2 else s3.requeue { m with fix := none }

/-- A repair loses its destination and starts again (04 R125). -/
def State.faultRepair (s : State) (r : Nat) (q : Repair) : State :=
  let s1 := (s.isolate (q.dest.elim [] placeCells) false).dropTracks q.graph q.nets
  let v := s1.region r
  s1.setRegion r { v with repairs := v.repairs.map fun x => if x = q then { q with step := 2, dest := none, nets := [], cold := false } else x }

/-- A fault in cell `n`, the destination of a move or repair, or taken by a GRAPH_TUNE, which starts again (04 R125). -/
def State.faultDest (s : State) (slot i n : Nat) (g : Graph) (first : Nat) : State :=
  match s.til.moves.find? fun m => decide (m.graph = slot) && decide (m.prim = i) && (placeCells m.dest).contains n with
  | some m => s.faultMove m g first
  | none =>
    match (List.range 8).findSome? fun r => ((s.region r).repairs.find? fun q => (q.dest.elim [] placeCells).contains n).map fun q => (r, q) with
    | some (r, q) => s.faultRepair r q
    | none => (s.isolate [n] false).supersede slot i

/-- A fault is declared on a cell (04 R110): the event, and what follows for the function or destination it serves; a cell
that serves neither is quarantined. -/
def State.faultCell (s : State) (n monitor first : Nat) : State :=
  let c := s.cell n
  let log (slot i : Nat) (s : State) : State := s.log 0x201 1 n (s.primArg slot i + monitor * 2 ^ 24) (first % 2 ^ 32)
  let s0 := s.setRegion (n / 128) { s.region (n / 128) with lastSignal := some s.now }
  let idle (s : State) : State := (log 0xFFF 0 ((s.yieldCell n 3).isolate [n] false)).restock
  match c.use with
  | .fn slot i => match s0.graph slot with
    | none => idle s0
    | some g =>
      if (g.prim i).cells.contains n then (log slot i (s0.faultFn slot i g first)).pumpMoves
      else log slot i (s0.isolate [n] false)
  | .dest slot i => match s0.graph slot with
    | none => idle s0
    | some g => (log slot i (s0.faultDest slot i n g first)).pumpMoves.resume
  | .reserved slot => idle (s0.setSpares slot fun l => l.filter fun k => decide (k ≠ n))
  | _ => idle s0

/-- Does a monitor act on a cell (04 R109; 02 R48; 17 R463)? -/
def State.monitorActs (s : State) (n monitor : Nat) : Bool :=
  match cellFn (s.cell n) with
  | none => false
  | some (slot, i) => match s.graph slot with
    | none => false
    | some g =>
      !s.mon.supplyOut && !(s.cell n).isolated &&
      (match monitor with
        | 1 => !((feedingPairs g i).any fun p => (s.pair p).ranged)
        | 2 => true
        | 3 => decide (chopCode (g.prim i) ≠ 0)
        | 5 => true
        | _ => false)

/-- CELL_FAULT (04 R109-R113): a monitor has detected a fault; the first-suspect time is 50 us before. -/
def execCellFault (t cell monitor : Nat) (s : State) : Host.Outcome State Fault Refusal :=
  let s := s.at t
  ifUnit (decide (cell < 1024)) (if s.monitorActs cell monitor then s.faultCell cell monitor (s.now - 12500) else s)

/-- Is the controller of a region restarting, so that no recovery below it runs (01 R17)? -/
def State.restarting (s : State) (r : Nat) : Bool := !(s.region r).ready && !(s.region r).failed

/-- CELL_RESET (17 R454, R455; 01 R16, R18): a handshake timeout. The staged set is written again where the read-back
matches; a mismatch, or a second reset within 1 s, is a fault with monitor code 4. While the region's controller restarts, the
reset is superseded (01 R17). -/
def execCellReset (t cell : Nat) (readbackMatches : Bool) (s : State) : Host.Outcome State Fault Refusal :=
  let s := s.at t
  let c := s.cell cell
  let recent := c.resets.filter fun x => decide (s.now < x + 250000000)
  let s1 := ((s.setCell cell { c with resets := recent ++ [s.now] }).ageCell cell).bump (uBk (cell / 16)) 6
  let s2 := s1.log 0x200 1 cell (recent.length + 1) 0
  ifUnit (decide (cell < 1024))
    (if s.restarting (cell / 128) then s.log 0x106 1 cell 0x104 0x200
     else if readbackMatches && recent.isEmpty then s2
     else
       let s3 := s2.setCell cell { s2.cell cell with staged := [], stagedCal := false, stagedSettle := none, calRes := none }
       s3.faultCell cell 4 s3.now)

/-- IDAC_COMPLIANCE (02 R48). -/
def execIdacCompliance (t slot prim : Nat) (s : State) : Host.Outcome State Fault Refusal :=
  let s := s.at t
  match s.graph slot with
  | none => .next s
  | some g => .next (if g.phase = 7 ∧ prim < g.prims.length ∧ (g.prim prim).ty = 10 then s.log 0x20D 1 (g.prim prim).c0 (s.primArg slot prim) 0 else s)

/-! ### Repairs (04 R98, R111-R113) -/

/-- Change the repair at the head of a region's queue. -/
def State.setRepair (s : State) (r : Nat) (q : Option Repair) : State :=
  let v := s.region r
  s.setRegion r { v with repairs := q.toList ++ v.repairs.tail }

/-- The destination of a repair is placed in the Ledger (04 R111, steps 3 and 4); it is cold unless every cell is a warm spare
(R116). -/
def State.placeRepair (s : State) (q : Repair) (g : Graph) (d : PlaceP) : State × Repair :=
  let nets := (s.moveNets g q.prim d).getD []
  let cells := placeCells d
  let s1 := cells.foldl (fun s n => (s.yieldCell n 3).takeCell n q.graph q.prim 0 true true) s
  let s2 := (s1.yieldSegs (nets.flatMap (·.2)) 3).takeRoutes q.graph (nets.map fun e => (e.1, e.2.filter fun k => s1.segFree k)) true
  (s2.setSpares q.graph fun l => l.filter fun n => !cells.contains n,
   { q with step := 3, dest := some d, nets := nets, cold := cells.any fun n => !s.warmNow n })

/-- A primitive is left without cells (04, repair without a warm spare; R81). -/
def State.strand (s : State) (q : Repair) (g : Graph) : State :=
  let s1 := s.setGraph q.graph (some (g.setPrim q.prim ((g.prim q.prim).on { prim := q.prim })))
  let s2 := q.cmds.foldl (fun s c => s.calEnded c 0 0) (s1.reeval q.graph q.prim [])
  { s2 with til := { s2.til with stranded := s2.til.stranded ++ [{ q with cmds := [] }] } }

/-- REPAIR_DESTINATION (04 R98, R111, R113): the region's controller is free for the repair at the head of its queue, whose
destination is chosen. -/
def execRepairDestination (t r : Nat) (s : State) : Host.Outcome State Fault Refusal :=
  let s := s.at t
  ifUnit (decide (r < 8)) (match (s.region r).repairs with
    | [] => s
    | q :: _ => match s.graph q.graph with
      | none => s
      | some g =>
        if q.step ≠ 2 ∨ !s.ctrlOk r then s
        else match s.chooseDest q.graph g q.prim { repair := true } with
          | none => (((s.setRepair r none).log 0x205 1 (g.prim q.prim).c0 (s.primArg q.graph q.prim) 1).strand q g).resume
          | some d => let x := s.placeRepair q g d; (x.1.setRepair r (some x.2)).restock)

/-- One step of the repair at the head of a region's queue: its controller and those of the destination's regions act (01 R18). -/
def State.repairStep (s : State) (r step next : Nat) (f : Repair → PlaceP → State → State) : State :=
  match (s.region r).repairs with
  | [] => s
  | q :: _ => match q.dest with
    | none => s
    | some d => if q.step ≠ step ∨ !s.ctrlOk r ∨ !s.placeOk d then s else (f q d s).setRepair r (some { q with step := next })

/-- REPAIR_CONFIGURED (04 R111, step 5). -/
def execRepairConfigured (t r : Nat) (s : State) : Host.Outcome State Fault Refusal :=
  ifUnit (decide (r < 8)) ((s.at t).repairStep r 3 5 fun q d s => s.configDest q.graph q.prim d)

/-- REPAIR_NETS_CONNECTED (04 R111, step 6). -/
def execRepairNetsConnected (t r : Nat) (s : State) : Host.Outcome State Fault Refusal :=
  ifUnit (decide (r < 8)) ((s.at t).repairStep r 5 6 fun q d s => s.joinDest q.graph q.prim d q.nets)

/-- REPAIR_SETTLED (04 R111, step 7). -/
def execRepairSettled (t r : Nat) (s : State) : Host.Outcome State Fault Refusal :=
  ifUnit (decide (r < 8)) ((s.at t).repairStep r 6 7 fun _ _ s => s)

/-- REPAIR_VERIFIED (04 R111, step 8). -/
def execRepairVerified (t r : Nat) (s : State) : Host.Outcome State Fault Refusal :=
  ifUnit (decide (r < 8)) ((s.at t).repairStep r 7 8 fun _ _ s => s)

/-- HELD marking of a function ends now (04 R112). -/
def State.endHeld (s : State) (slot i : Nat) : State :=
  { s with convs := s.convs.map fun e => (e.1, { e.2 with heldIv := e.2.heldIv.map fun h =>
    if h.graph = slot ∧ h.prim = i ∧ h.fin.isNone then { h with fin := some s.now } else h }) }

/-- The destination takes over (04 R111 step 9, R112; 08 R228; 03 R81): HELD ends, the outputs are driven again, the first
run of the destination is due. -/
def State.takeover (s : State) (r : Nat) (q : Repair) (d : PlaceP) (meas : Measured) (code ctr : Nat) : State :=
  let old : List Nat := (s.graph q.graph).elim [] fun g => (g.prim q.prim).cells
  let s1 := s.swapPlaces q.graph q.prim d q.nets
  let s2 := (placeCells d).foldl (fun s n => s.setCell n { s.cell n with use := .fn q.graph q.prim, bias := d.bias }) s1
  let s3 := (s2.dropHolds old).endHeld q.graph q.prim
  let s4 := (s3.bump (uRg r) ctr).log code 1 d.c0 (s3.primArg q.graph q.prim) ((roundFree ((s.now : Int) - q.first) 250).toNat)
  let s5 := (s4.setRepair r none).reeval q.graph q.prim meas
  (s5.makeDue 0 d.c0 (s5.blockTemp (d.c0 / 16)) 0 q.cmds).cellsFreed.resume

/-- REPAIR_TAKEOVER (04 R111, step 9): at an apply strobe. -/
def execRepairTakeover (t r : Nat) (meas : Measured) (s : State) : Host.Outcome State Fault Refusal :=
  let s := s.at t
  ifUnit (decide (r < 8)) (match (s.region r).repairs with
    | [] => s
    | q :: _ => match q.dest with
      | none => s
      | some d => if q.step ≠ 8 ∨ q.cold ∨ s.now % 250 ≠ 0 ∨ s.now ≠ t ∨ !s.ctrlOk r ∨ !s.placeOk d then s else s.takeover r q d meas 0x202 1)

/-- REPAIR_COLD (04, repair without a warm spare): the destination is calibrated and takes over. -/
def execRepairCold (t r : Nat) (meas : Measured) (s : State) : Host.Outcome State Fault Refusal :=
  let s := s.at t
  ifUnit (decide (r < 8)) (match (s.region r).repairs with
    | [] => s
    | q :: _ => match q.dest with
      | none => s
      | some d =>
        if q.step < 3 ∨ !q.cold ∨ !s.ctrlOk r ∨ !s.placeOk d then s
        else
          let s1 := (s.configDest q.graph q.prim d).joinDest q.graph q.prim d q.nets
          ((placeCells d).foldl (fun s n => s.builtCell n) s1).takeover r q d meas 0x203 6)

end Sys2Proof.Machine
end

