-- ==== Sys2Proof/Machine/Stolon.lean ====
section
/-! DEFINITION. Stolon tests, the warmth of spares, block temperatures and thermal levelling, input pair range checks and
cell controls (04_transplant_and_stolon.md R114-R122; 17_faults_log.md R461, R462; 08_calibration.md R218;
02_analogue_cells.md R46; 12_command_reference.md R351). -/

namespace Sys2Proof.Machine

/-! ### Stolon tests (04 R118-R122) -/

/-- Can Stolon test a cell now: free or spare, or in use by a placed function that neither moves, nor is repaired, nor takes a
GRAPH_TUNE (R97)? -/
def State.testable (s : State) (n : Nat) : Bool :=
  !(s.cell n).frozen && match (s.cell n).use with
  | .fn slot i => match s.graph slot with
    | none => false
    | some g => decide (g.phase = 7) && (g.prim i).cells.contains n && g.next.isEmpty && !s.repairingPrim slot i &&
        !s.til.moves.any fun m => m.graph == slot && m.prim == i
  | .dest _ _ => false
  | _ => true

/-- How long ago a cell was tested, as a rank: 0 never. -/
def State.testedAt (s : State) (n : Nat) : Nat := match (s.led (48 * n)).tested with
  | none => 0
  | some t => t + 1

/-- The cell of a region whose turn it is (04 R118): the oldest, then the lowest number, of those that Stolon has not passed over in
this coverage period (log 13). -/
def State.oldestCell (s : State) (r : Nat) : Option Nat :=
  ((regionCells r).filter fun n => !(s.region r).covSkip.contains n).foldl (fun b n => match b with
    | none => some n
    | some m => if s.testedAt n < s.testedAt m then some n else some m) none

/-- May a test in a region take a track or excitation switch: one of the region, or a global track, that nothing uses and that has not
been tested in the coverage period (04 R118)? -/
def State.segTestable (s : State) (r k : Nat) : Bool :=
  let home := if k < 4096 then decide (k / 512 = r) else if k < 5120 then decide ((k - 4096) / 128 = r)
    else if k < 5184 then true else decide (k < 5440) && decide ((k - 5184) / 32 = r)
  home && decide ((s.led (segEntry k)).state ≠ 1) && !(s.region r).covSegs.contains k &&
  (List.range 8).all fun q => !(s.region q).tests.any fun t => t.segs.contains k

/-- STOLON_TEST_START (04 R118-R120, R123): the turn of the oldest cell; it is borrowed with some tracks and switches of the test
configurations, or its primitive is moved to a warm spare first. A test that waits for a modulator, and one of vacated cells, go
before; a calibration run on the cell is waited for (R124). -/
def execStolonTestStart (t r : Nat) (segs : List Nat) (s : State) : Host.Outcome State Fault Refusal :=
  let s := (s.at t).pumpTest r
  ifUnit (decide (r < 8))
    (if !s.til.policy.enable ∨ !s.ctrlOk r ∨ (s.region r).test.isSome ∨ s.time.step < 5 then s
     else match s.oldestCell r with
      | none => s
      | some n =>
        if !s.testable n ∨ s.cal.runs.any (fun e => e.kind == 0 && (s.calGroup n).contains e.idx) then s
        else match (s.cell n).use with
          | .fn slot i => s.planMove { graph := slot, prim := i, why := .stolon, len := s.til.policy.len }
          | _ => s.askTest r { cells := [n], segs := (segs.eraseDups.filter fun k => s.segTestable r k) })

/-- One element takes its score, rank and test age; an element that scores 0 is quarantined, a quarantined one returns at
128 or more (04 R119). -/
def testElem (now score rank : Nat) (l : Led) : Led :=
  let l1 : Led := { l with health := min score 255, rank := min rank 0xFFF, tested := some now }
  if score = 0 then l1.quarantine else if l.state = 3 ∧ 128 ≤ score then { l1 with state := 0 } else l1

/-- What a test finds on one cell, the j-th under test (04 R119; 02 R33; 08 R228): its elements, its output track's age, the
choice of its input pair, and the completed run that the measurement counts as. -/
def State.testCell (s : State) (n j : Nat) (scores ranks : List Nat) : State :=
  let s1 := (List.range 48).foldl (fun s e =>
    s.setLed (48 * n + e) (testElem s.now (scores.getD (48 * j + e) 0) (ranks.getD (48 * j + e) 0) (s.led (48 * n + e)))) s
  let s2 := s1.updLeds [segEntry (outTrack n)] fun _ l => { l with tested := some s1.now }
  let s3 := if s2.placeable n then s2 else s2.quarantineCell n
  let c := s3.cell n
  let s4 := s3.setCell n { c with borrowed := false, warm := false, lastTest := some s3.now, calTime := some s3.now,
                                  calTemp := s3.blockTemp (n / 16), status := c.status.completed none }
  if s4.placeable n then s4.choosePair n else s4

/-- What a test finds on the tracks and switches of its configurations. -/
def State.testSegs (s : State) (segs scores : List Nat) : State :=
  (segs.zip scores).foldl (fun s e => s.updLeds [segEntry e.1] fun _ l => if l.state = 1 then l else testElem s.now e.2 l.rank l) s

/-- A tested cell goes back to what it is used for, its sound spare parts standing in anew (04 R119, R120; 03 R93): a free one is
powered down, and a spare that cannot be placed is given up. -/
def State.retestUse (s : State) (n : Nat) : State :=
  let out (s : State) : State := (s.freeCell n).quarantineCell n
  match (s.cell n).use with
  | .pool => if s.placeable n then (s.markCell n 2 0 false).restand n true else out s
  | .reserved g => if s.placeable n then (s.markCell n 2 g true).restand n true else (out s).setSpares g fun l => l.filter fun k => decide (k ≠ n)
  | .free => if s.placeable n then s.freeCell n else out s
  | _ => s

/-- The banks of quarantined blocks reopen (17 R456; 09 R266). -/
def State.reopenBlocks (s : State) (bs : List Nat) : State := bs.foldl (fun s b => s.setBlock b { s.block b with quarantined := false }) s

/-- What a test finds is written, the modulator is given back and the test ends (04 R119; 02 R33; 03 R91, R93; 17 R456). -/
def State.endTest (s : State) (r : Nat) (q : Test) (scores ranks segScores : List Nat) : State :=
  let handle := match q.owner with
    | some o => (s.hnd o.1).value o.1
    | none => 0xFFFF
  let s1 := q.cells.zipIdx.foldl (fun s e =>
    let s1 := (s.testCell e.1 e.2 scores ranks).retestUse e.1
    let failed := !s1.placeable e.1 || ((scores.drop (48 * e.2)).take 48).contains 0
    if failed then s1.log 0x20B 1 e.1 handle 0 else s1) s
  let s2 := s1.testSegs q.segs segScores
  let s3 := match q.conv with
    | none => s2
    | some c =>
      let v := s2.conv c
      s2.setConv c { v with borrowed := false, comp := if v.comp = 4 then 0 else v.comp, priv := if v.comp = 4 then [] else v.priv,
                            offSince := if v.cfg.mode = 0 then s2.now else v.offSince }
  let v := s3.region r
  (s3.setRegion r { v with test := none, covTested := v.covTested ++ q.cells.filter (fun n => !v.covTested.contains n),
                           covSegs := v.covSegs ++ q.segs }).bump (uRg r) 2

/-- What follows a test: the primitive moves back where its pin asks for it, or the tested cells take the place of the spare that it
took (04 R120); banks of quarantined blocks reopen (17 R456), and the next test begins. -/
def State.afterTest (s : State) (r : Nat) (q : Test) (arbOk : Bool) : State :=
  let s1 := match q.owner.bind fun o => (s.graph o.1).map fun g => (o.1, o.2, g) with
    | none => s
    | some (slot, back, g) =>
      let p := g.prim back.prim
      let home := { back with bias := p.bias }
      if q.cells.any fun n => !s.placeable n then s
      else if breaksPin p && (s.chooseDest slot g back.prim { why := .pin, pin := movePins p none, fix := some home }).isSome then
        s.planMove { graph := slot, prim := back.prim, why := .pin, fix := some home, len := s.til.policy.len, took := q.took }
      else s.giveBack slot q.cells
  let s2 := if arbOk then s1.reopenBlocks ((q.cells.map (· / 16)).eraseDups) else s1
  (s2.pumpTest r).cellsFreed.resume

/-- STOLON_TEST_END (04 R119, R120; 02 R33; 03 R91, R93; 17 R456): 48 scores and ranks for each cell in the order of the test,
a score for each track and switch tested with them, and whether the arbiter and bank of a block in quarantine passed. -/
def execStolonTestEnd (t r : Nat) (scores ranks segScores : List Nat) (arbOk : Bool) (s : State) : Host.Outcome State Fault Refusal :=
  let s := s.at t
  ifUnit (decide (r < 8)) (match (s.region r).test with
    | none => s
    | some q =>
      if q.conv.isNone ∨ !s.ctrlOk r ∨ scores.length ≠ 48 * q.cells.length ∨ ranks.length ≠ scores.length ∨ segScores.length ≠ q.segs.length then s
      else (s.endTest r q scores ranks segScores).afterTest r q arbOk)

/-- STOLON_YIELDED (04 R122): a request from outside the rows of this model, such as fabric logic's, needs what the test
borrows; `why` is 1 host, 2 fabric, 3 repair, 4 companion loop. -/
def execStolonYielded (t r why : Nat) (s : State) : Host.Outcome State Fault Refusal :=
  ifUnit (decide (r < 8)) (if 1 ≤ why ∧ why ≤ 4 then (s.at t).yieldTest r why else s.at t)

/-- COVERAGE_MISSED (04 R118): a coverage period ends; the cells it left untested are counted in the log. -/
def execCoverageMissed (t r : Nat) (s : State) : Host.Outcome State Fault Refusal :=
  let s := s.at t
  let v := s.region r
  ifUnit (decide (r < 8))
    (if !s.til.policy.enable ∨ !s.ctrlOk r ∨ s.now < v.covStart + s.til.policy.period * 250000000 then s
     else
       let left := 128 - v.covTested.length
       let s1 := s.setRegion r { v with covStart := s.now, covTested := [], covSegs := [], covSkip := [] }
       if left = 0 then s1 else (s1.bump (uRg r) 9).log 0x20C 3 r left 0)

/-! ### Warm spares (04 R114, R117; 14 R402; 12 R351) -/

/-- Is every region's pool warm (18 R475)? -/
def State.poolsWarm (s : State) : Bool :=
  (List.range 8).all fun r => decide (poolTarget s.til.policy.pool r ≤ (s.poolCells r).length) && (s.poolCells r).all fun n => s.warmNow n

/-- Once the new pair of cell `n` is warm, the unpaired pool cell that it makes superfluous goes (04 R117). -/
def State.dropPartner (s : State) (n : Nat) : State :=
  let cells := s.poolCells (n / 128)
  let pair := (poolPairs cells).find? fun p => decide (p.1 = n) || decide (p.2 = n)
  if cells.length ≤ s.poolWant (n / 128) ∨ !(pair.any fun p => s.warmNow p.1 && s.warmNow p.2) then s
  else (lonely cells).elim s fun u => s.freeCell u

/-- SPARE_WARM (04 R114, R117; 14 R402): a spare has been calibrated and is warm. A spare that Stolon has never tested
counts as tested when it first becomes warm (log 13); one whose coverage period has passed needs a test first. -/
def execSpareWarm (t cell : Nat) (s : State) : Host.Outcome State Fault Refusal :=
  let s := s.at t
  let c := s.cell cell
  let spare := match c.use with
    | .pool => true
    | .reserved _ => true
    | _ => false
  let c' : Cell := { c with warm := true, calTime := some s.now, calTemp := s.blockTemp (cell / 16), lastTest := some (c.lastTest.getD s.now),
                            bias := 1023, due := false, status := c.status.completed none }
  let s1 := s.setCell cell c'
  ifUnit (decide (cell < 1024))
    (if !spare ∨ !s.ctrlOk (cell / 128) ∨ s.time.step < 5 ∨ !s1.warmNow cell then s
     else
       let s2 := s1.dropPartner cell
       if s2.poolsWarm && !s2.chip.sparesWarm then
         ({ s2 with chip := { s2.chip with sparesWarm := true } }).log 0x208 4 0 0 0
       else s2)

/-- SPARES_COLD (12 R351): with STOLON_ENABLE clear, spares whose coverage period has passed are warm no more; the first
such loss raises the event. -/
def execSparesCold (t r : Nat) (s : State) : Host.Outcome State Fault Refusal :=
  let s := s.at t
  let past := (regionCells r).filter fun n => (s.cell n).warm && match (s.cell n).lastTest with
    | none => false
    | some x => decide (x + s.til.policy.period * 250000000 < s.now)
  ifUnit (decide (r < 8))
    (if s.til.policy.enable ∨ past.isEmpty then s
     else
       let s1 := past.foldl (fun s n => s.setCell n { s.cell n with warm := false }) s
       if s1.til.sparesCold then s1
       else
         let cold := ((s1.poolCells r).filter fun n => !s1.warmNow n).length
         ({ s1 with til := { s1.til with sparesCold := true } }).log 0x209 3 r cold 0)

/-! ### Block temperatures and thermal levelling (17 R462; 08 R218; 04 R121) -/

/-- One reading of a sensor (17 R462): `med` is twice the median of its region's eight readings. -/
def TempSensor.read (q : TempSensor) (v med : Int) : TempSensor :=
  let inRange := decide (-6000 ≤ v) && decide (v ≤ 17500)
  let near := decide ((2 * v - med).natAbs ≤ 4000)
  let step := match q.prev with
    | none => true
    | some p => decide ((v - p).natAbs ≤ 500)
  let prev := if inRange && near then some v else q.prev
  if inRange && near && step then { q with temp := v, prev := prev, bad := 0, good := q.good + 1 }
  else { q with prev := prev, bad := q.bad + 1, good := 0 }

/-- The log place of a temperature sensor (17 R466). -/
def sensorIdx (b : Nat) : Nat := 4 * 2 ^ 24 + b

/-- Take a sensor's reading; it fails at the third invalid reading in a row and returns at the tenth valid one. -/
def State.readSensor (s : State) (b : Nat) (v med : Int) : State :=
  let q := (s.sensor b).read v med
  if !q.failed ∧ 3 ≤ q.bad then (s.setSensor b { q with failed := true }).log 0x213 3 (sensorIdx b) (ofI 64 v) 0
  else if q.failed ∧ 10 ≤ q.good then (s.setSensor b { q with failed := false }).log 0x214 3 (sensorIdx b) (ofI 64 v) 0
  else s.setSensor b q

/-- Does a block exceed the mean of all blocks by more than the threshold (04 R121)? -/
def State.hotBlock (s : State) (b : Nat) : Bool :=
  decide (((List.range 64).map fun k => s.blockTemp k).sum + 6400 * (s.til.policy.threshold : Int) < 64 * s.blockTemp b)

/-- The placed primitives of a block, by first cell. -/
def State.primsIn (s : State) (b : Nat) : List (Nat × Nat × Prim) :=
  s.graphs.flatMap fun e => if e.2.phase = 7 then (e.2.prims.zipIdx.filter fun p => decide (p.1.c0 < 1024) && decide (p.1.c0 / 16 = b)).map fun p => (e.1, p.2, p.1) else []

/-- The placed primitive of highest power in a block. -/
def State.hottestPrim (s : State) (b : Nat) : Option (Nat × Nat × Prim) :=
  (s.primsIn b).foldl (fun a p => match a with
    | none => some p
    | some q => if primPower q.2.2 < primPower p.2.2 then some p else some q) none

/-- Thermal levelling of a region (04 R121): the placed primitive of highest power leaves a block that is too hot, the one with the
lowest number where several are (DESIGN CHOICE, log 13). -/
def State.level (s : State) (r : Nat) : State :=
  let recent := (s.region r).lastThermal.any fun x => decide (s.now < x + 2500000000)
  match ((regionBlocks r).find? fun b => s.hotBlock b && (s.hottestPrim b).isSome).bind fun b => s.hottestPrim b with
  | none => s
  | some (slot, i, _) =>
    if !s.til.policy.thermal ∨ recent ∨ !s.ctrlOk r ∨ s.repairingPrim slot i ∨ s.til.moves.any (fun m => m.graph == slot && m.prim == i) then s
    else s.planMove { graph := slot, prim := i, why := .thermal, len := s.til.policy.len }

/-- TEMPERATURE_READING (08 R218; 17 R462; 04 R121): a region controller reads its eight block sensors, in 0.01 degrees. -/
def execTemperatureReading (t r : Nat) (temps : List Int) (s : State) : Host.Outcome State Fault Refusal :=
  let s := s.at t
  let med := median2 temps
  ifUnit (decide (r < 8))
    (if temps.length ≠ 8 ∨ !s.ctrlOk r ∨ s.time.step < 5 then s
     else
       let s1 := temps.zipIdx.foldl (fun s e => s.readSensor (8 * r + e.2) e.1 med) s
       (s1.regionDue r).level r)

/-! ### Input pairs (17 R461) and cell controls (02 R46) -/

/-- AIN_OVERRANGE (17 R461): a ball has been outside its window for 1 us; `leg` 0 _P, 1 _N. -/
def execAinOverrange (t pair leg : Nat) (s : State) : Host.Outcome State Fault Refusal :=
  let s := s.at t
  let q := s.pair pair
  let logs : Bool := match q.lastLog with
    | none => true
    | some x => decide (x + 250000000 ≤ s.now)
  ifUnit (decide (pair < 128))
    (if q.ranged then s
     else if logs then
       (s.setPair pair { q with ranged := true, onset := s.now, lastLog := some s.now, further := 0 }).log 0x212 3 (3 * 2 ^ 24 + pair) leg q.further
     else s.setPair pair { q with ranged := true, onset := s.now, further := q.further + 1 })

/-- AIN_OVERRANGE_CLEAR (17 R461). -/
def execAinOverrangeClear (t pair : Nat) (s : State) : Host.Outcome State Fault Refusal :=
  let s := s.at t
  let q := s.pair pair
  ifUnit (decide (pair < 128))
    (if q.ranged then s.setPair pair { q with ranged := false, ivs := (q.ivs ++ [(q.onset, s.now)]).drop (q.ivs.length - 31) } else s)

/-- CELL_CONTROL_EDGE (02 R46): a control source rises or falls, and with it the resets and holds of the INT and TNH it
serves. -/
def execCellControlEdge (t kind index : Nat) (level : Bool) (s : State) : Host.Outcome State Fault Refusal :=
  let s := s.at t
  ifUnit (decide (kind ≠ 0) && srcOk (kind * 2 ^ 28 + index)) (if s.sourceLive kind index then s.setCtl (kind * 2 ^ 28 + index) level else s)

end Sys2Proof.Machine
end

