-- ==== Sys2Proof/Machine/Dac.lean ====
section
/-! DEFINITION. DAC channels: codes, the DDS, the slew limiter, range changes, limits, power-up, the fault value and their
commands (07_outputs_dds.md R178-R209; 12_command_reference.md R344; 09_fabric_memory.md R247). -/

namespace Sys2Proof.Machine

/-! ### Time of a channel (07 R196) -/

/-- The count that limiter ticks and update instants fall on: the power-up count, then the timebase. -/
def State.dacCount (s : State) : Nat := if s.time.running then s.time.timebase else s.time.powerCount

/-- The count reaches `t`. -/
def State.atCount (s : State) (t : Nat) : State :=
  if s.time.running then s.at t
  else if s.time.powerCount < t then { s with time := { s.time with powerCount := t } } else s

/-! ### Codes (07 R179, R181) -/

/-- The code limits of a range. -/
def rangeLo (r : Nat) : Int := if r < 2 then 0 else -524288
def rangeHi (r : Nat) : Int := if r < 2 then 1048575 else 524287

/-- Is a code within a range? -/
def inRange (r : Nat) (c : Int) : Bool := decide (rangeLo r ≤ c) && decide (c ≤ rangeHi r)

/-- The code clamp. -/
def clampCode (r : Nat) (c : Int) : Int := clampI (rangeLo r) (rangeHi r) c

/-- The present code of a channel: the limiter output behind the clamp. DEDUCED (log 20). -/
def Dac.present (d : Dac) : Int := clampCode d.range d.out

/-- A bus word as a code: signed for a bipolar range (07 R181). -/
def busCode (r data : Nat) : Int := if r < 2 then ((data % 2 ^ 20 : Nat) : Int) else toI 20 data

/-! ### Direct digital synthesis (07 R184-R188) -/

/-- pi in units of 2^-96. -/
def piFix : Int := 248902613312231085230521944622

/-- The sum of the sine series from a term on, in units of 2^-96: `x2` is the square of the angle. -/
def sinSeries (x2 : Int) : Nat → Nat → Int → Int
  | 0, _, _ => 0
  | f + 1, n, term => term + sinSeries x2 f (n + 2) (-(term * x2 / 2 ^ 96) / ((n + 1) * (n + 2) : Nat))

/-- The quarter-wave table (07 R185): round(524,287 sin(pi k / 8,192)). -/
def sineTable (k : Nat) : Int :=
  let x := piFix * k / 8192
  (524287 * sinSeries (x * x / 2 ^ 96) 20 1 x + 2 ^ 95) / 2 ^ 96

/-- The sine value of an accumulator value (07 R185). -/
def sine (phi : Nat) : Int :=
  let quadrant := bits phi 46 2
  let q := bits phi 18 28
  let q := if quadrant % 2 = 1 then 2 ^ 28 - q else q
  let i := q / 65536
  let u := q % 65536
  let m := if u = 0 then sineTable i else sineTable i + (sineTable (i + 1) - sineTable i) * u / 65536
  if 2 ≤ quadrant then -m else m

/-- The accumulator at a tick (07 R184, R187). -/
def Dds.acc (q : Dds) (t : Nat) : Nat :=
  if q.running then (((q.phase : Int) + q.ftw * ((t : Int) - q.ref)) % 2 ^ 48).toNat else q.phase

/-- The DDS code at a tick (07 R186). -/
def Dds.code (q : Dds) (t : Nat) : Int := q.offset + roundEven (q.amp * sine (q.acc t)) 524287

/-- Stop the accumulator (07 R187, R201). -/
def Dds.stopAt (q : Dds) (t : Nat) : Dds := { q with phase := q.acc t, running := false }

/-- The DDS as it runs at a tick: a start at a named time acts from that time on, before its update instant (07 R187). -/
def Dac.ddsAt (d : Dac) (t : Nat) : Dds :=
  match (d.ddsq.filter fun c => c.atTime && decide (c.time ≤ t) && !c.stop && !(c.cont && d.dds.running)).getLast? with
  | some c => c.dds
  | none => d.dds

/-- Does the accumulator pass through 0 at tick `t` (07 R188)? -/
def Dds.wraps (q : Dds) (t : Nat) : Bool := q.running && decide (q.ref < t) && decide (2 ^ 48 ≤ q.acc (t - 1) + q.ftw)

/-- Does it pass the match phase at tick `t` (07 R188)? -/
def Dds.matches_ (q : Dds) (t : Nat) : Bool :=
  let gap := (q.mtch + 2 ^ 48 - q.acc (t - 1)) % 2 ^ 48
  q.running && decide (q.ref < t) && decide (0 < gap) && decide (gap ≤ q.ftw)

/-! ### Ends of commands (07 R203-R208) -/

/-- Remove commands of a channel and end them with a status. -/
def State.endOuts (s : State) (n : Nat) (cs : List DacCmd) (status : Nat) : State :=
  let d := s.dac n
  cs.foldl (fun s c => s.final c.slot status (if status = stOK then c.r0 else 0) 0)
    (s.setDac n { d with outs := d.outs.filter fun c => !cs.contains c })

/-- End every command that waits on a channel: a fault value replaces them (07 R208), or the channel goes down. -/
def State.endDacCmds (s : State) (n status : Nat) : State :=
  let d := s.dac n
  let s1 := s.endOuts n d.outs status
  let s2 := s1.setDac n { s1.dac n with ddsq := [] }
  d.ddsq.foldl (fun s c => s.final c.slot status 0 0) s2

/-- A move that has reached its target ends, and so do the commands that waited for it. -/
def State.dacReached (s : State) (n t : Nat) : State :=
  let d := s.dac n
  if d.rc.isSome then s
  else
    let d1 : Dac := if d.moving.isSome ∧ d.out = d.target then { d with moving := none } else d
    let next := (t + d.period - 1) / d.period * d.period
    let d2 : Dac := { d1 with outs := d1.outs.map fun c => if c.isRange && decide (c.st = 1) then { c with r0 := next } else c }
    let s1 := s.setDac n d2
    if d2.source = 0 then s1.endOuts n (d2.outs.filter fun c => decide (c.st = 1) && decide (c.code = d2.out)) stOK else s1

/-! ### HALT and the fault value (07 R200, R201) -/

/-- A DDS stops (07 R201): also one that has started at its named time and whose update instant has yet to come. -/
def Dac.stopDds (d : Dac) (t : Nat) : Dac :=
  { d with dds := d.dds.stopAt t
           ddsq := d.ddsq.map fun c => if c.atTime && decide (c.time ≤ t) && !c.stop && !(c.cont && d.dds.running) then { c with dds := c.dds.stopAt t } else c }

/-- The HALT action of a channel, outside a range change. -/
def State.dacHaltNow (s : State) (n : Nat) : State :=
  let d := s.dac n
  let d1 : Dac := { d.stopDds s.dacCount with haltWait := false }
  if d.source ≠ 1 then s.setDac n d1
  else if d.haltOffset then s.setDac n { d1 with source := 0, code := d.dds.offset, target := d.dds.offset, moving := some false }
  else s.setDac n { d1 with source := 0, code := d.present, target := d.present, out := d.present, moving := none }

/-- HALT names a channel (07 R199, R201): the triggers of its DDS that have not acted go too (05 R146). -/
def State.dacHalt (s : State) (n : Nat) : State :=
  let s1 := s.clearSource 4 fun k => decide (k / 2 = n)
  if (s1.dac n).rc.isSome then s1.setDac n { s1.dac n with haltWait := true } else s1.dacHaltNow n

/-- A range change has ended short of its step 4: a HALT that waited for it acts now (07 R199, R201). -/
def State.rangeCut (s : State) (n : Nat) : State := if (s.dac n).haltWait then s.dacHaltNow n else s

/-- A channel moves to its fault value (07 R199, R200, R208): STATIC at once, then ramped. A channel that is not enabled comes up to it
(R195). -/
def State.dacFault (s : State) (n : Nat) : State :=
  if (s.dac n).upStep < 4 then s
  else
    let s1 := s.endDacCmds n stABORTED
    let d := s1.dac n
    let d1 : Dac := { d with dds := d.dds.stopAt s1.dacCount, source := 0, code := d.present, faultValue := true, rampStep := d.nv.step, rampRate := d.nv.rate, haltWait := false }
    let to_ : RangeCh := { phase := 0, range := d.nv.range, source := 0, bus := 0, code := d.nv.code, fixed := true }
    s1.setDac n (match d.rc with
      | some c =>
        if c.phase < 3 then { d1 with rc := some { to_ with phase := c.phase, since := c.since } }
        else if d.nv.range = d.range then { d1 with rc := some { to_ with phase := 3 }, target := d.nv.code }
        else { d1 with rc := some to_ }
      | none =>
        if d.nv.range = d.range then { d1 with code := d.nv.code, target := d.nv.code, moving := some true }
        else { d1 with rc := some to_, target := d.present, out := d.present, moving := none })

/-! ### Update instants and limiter ticks (07 R180, R181, R186, R189, R190, R198, R199) -/

/-- Does a channel take its codes from a bus with property `p`, now or once its range change ends (07 R198, R200)? -/
def Dac.onBus (d : Dac) (p : Nat → Bool) : Bool := (decide (d.source = 2) && p d.bus) || d.rc.any fun c => decide (c.source = 2) && p c.bus

/-- The fabric that drives the buses with property `p` stops (07 R200; 09 R247). -/
def State.busStopped (s : State) (p : Nat → Bool) : State :=
  (List.range 64).foldl (fun s n => if (s.dac n).onBus p then s.dacFault n else s) s

/-- The source code of a channel at an update instant (07 R181, R186): the DDS code with its clipping, or the captured bus
word with its clamping; the limiter passes it where it does not act. -/
def State.sourceTarget (s : State) (n t : Nat) : State :=
  let d := s.dac n
  let pass (d : Dac) : Dac := if d.moving.isNone && !(d.slewOn && d.enabled) then { d with out := d.target } else d
  match d.source with
  | 0 => s.setDac n (pass { d with target := d.code, clipped := false, clamped := false })
  | 1 =>
    let x := d.dds.code t
    let wide := !inRange d.range x
    let s1 := if wide && !d.clipped then s.bump (uDac n) 4 else s
    s1.setDac n (pass { d with target := x, clipped := wide, clamped := false, ddsClip := d.ddsClip || wide, moving := none })
  | _ =>
    if !d.capValid then s.setDac n (pass { d with clipped := false })
    else
      let x := busCode d.range d.capData
      let wide := !inRange d.range x
      let s1 := if wide && !d.clamped then s.bump (uDac n) 5 else s
      s1.setDac n (pass { d with target := x, clamped := wide, clipped := false, capValid := false, moving := none })

/-- Step 4 of a range change (07 R198, R199, R204). -/
def State.endRange (s : State) (n t : Nat) : State :=
  let d := s.dac n
  match d.rc with
  | none => s
  | some c =>
    let d1 : Dac := { d with rc := none, moving := none, clipped := false, clamped := false, source := c.source, bus := c.bus, code := if c.source = 0 then c.code else d.code,
                             outs := d.outs.map fun o => if o.st = 2 then { o with r0 := t } else o }
    let s1 := (s.setDac n d1).endOuts n (d1.outs.filter fun o => decide (o.st = 2)) stOK
    if d.haltWait then s1.dacHaltNow n else s1

/-- DDS_CONFIG commands whose update instant has come take effect (07 R187, R199, R205, R208): the last of them, which replaces
those accepted before it. -/
def State.dueDds (s : State) (n t : Nat) : State :=
  let d := s.dac n
  -- a STOP, and a CONTINUE on a running DDS, wait for no named time (R187)
  match (d.ddsq.filter fun c => decide (c.time ≤ t) || c.stop || (c.cont && d.dds.running)).getLast? with
  | none => s
  | some c =>
    let before := d.ddsq.take (d.ddsq.idxOf c)
    let q := d.dds
    let new : Dds :=
      if c.stop then q.stopAt t
      else if c.cont && q.running then { c.dds with running := true, phase := q.acc t, ref := t }
      else { c.dds with ref := if c.atTime && c.dds.running then c.time else t }
    let d1 : Dac := { d with dds := new, ddsq := d.ddsq.drop (d.ddsq.idxOf c + 1) }
    let d2 : Dac := if c.stop && decide (d.source = 1) then { d1 with source := 0, code := d.present } else d1
    let s1 := (before.foldl (fun s b => s.final b.slot stABORTED 0 0) (s.setDac n d2)).final c.slot stOK t 0
    -- during a range change the DDS becomes the target of its step 4 (R199)
    match d2.rc with
    | some r =>
      if c.stop ∨ r.source = 1 then s1
      else
        let s2 := s1.endOuts n ((s1.dac n).outs.filter fun o => decide (o.st ≠ 0)) stABORTED
        s2.setDac n { s2.dac n with rc := some { r with source := 1, got := false } }
    | none => s1

/-- DAC_SET commands whose update instant has come take effect (07 R192, R199, R203, R204, R208; 12 R328). -/
def State.dueOuts (s : State) (n t : Nat) : State :=
  let d := s.dac n
  let due (c : DacCmd) : Bool := decide (c.st = 0) && decide (c.time ≤ t)
  match (d.outs.filter due).getLast? with
  | none => s
  | some c =>
    let same (o : DacCmd) : Bool := decide (o.source = 0) && decide (c.source = 0) && decide (o.code = c.code) && (decide (o.st ≠ 0) || due o)
    let before := (d.outs.take (d.outs.idxOf c)).filter fun o => !same o
    let s1 := s.endOuts n before stABORTED
    let d1 := s1.dac n
    let mark (st : Nat) (l : List DacCmd) : List DacCmd := l.map fun o => if due o && (decide (o = c) || same o) then { o with st := st, r0 := t } else o
    match d1.rc with
    | some r =>
      s1.setDac n { d1 with rc := some { r with source := c.source, bus := c.bus, code := c.code, got := false }, outs := mark 2 d1.outs,
                            target := if r.phase = 3 ∧ c.source = 0 then c.code else d1.target }
    | none =>
      let d2 : Dac := { d1 with source := c.source, bus := c.bus, code := if c.source = 0 then c.code else d1.code,
                                moving := if d1.reramp && decide (c.source = 0) then some false else none, reramp := false, outs := mark 1 d1.outs,
                                target := if c.source = 0 then c.code else d1.target, capValid := d1.capValid && decide (c.source = 2) }
      let s2 := s1.setDac n d2
      if c.source = 0 then s2 else s2.endOuts n (d2.outs.filter fun o => decide (o.st = 1)) stOK

/-- What an update instant sets: commands that take effect there, then the source's code (07 R180, R189). -/
def State.dacTargets (s : State) (n t : Nat) : State :=
  let d := s.dac n
  if d.lastUpd = some t ∨ t % d.period ≠ 0 then s
  else
    let s1 := ((s.setDac n { d with lastUpd := some t }).dueDds n t).dueOuts n t
    let d1 := s1.dac n
    match d1.rc with
    | none => (s1.sourceTarget n t).dacReached n t
    | some r =>
      -- the source is followed up to the first limiter tick of the change (R198)
      if r.phase = 0 then s1.sourceTarget n t
      else if r.phase ≠ 3 then s1
      else if r.source = 1 then
        -- the first update instant after step 3
        ((s1.endRange n t).sourceTarget n t).dacReached n t
      else if r.source = 2 ∧ d1.capValid then
        s1.setDac n { d1 with target := busCode d1.range d1.capData, capValid := false, rc := some { r with got := true } }
      else s1

/-- Does the limiter move at the Keep store's step and rate (07 R190)? -/
def Dac.fixed (d : Dac) : Bool := decide (d.moving = some true) || d.rc.any RangeCh.fixed

/-- The tick period of a step rate (07 R189). -/
def tickPeriod (rate : Nat) : Nat := (roundTie 250000000 rate).toNat

/-- The limiter's tick period now. -/
def Dac.tickNow (d : Dac) : Nat := tickPeriod (if d.fixed then d.rampRate else d.rate)

/-- One limiter step towards a target (07 R189). -/
def stepTo (step : Nat) (out target : Int) : Int :=
  if (target - out).natAbs ≤ step then target else if out < target then out + step else out - step

/-- SLEW_CONFIG commands take effect at a limiter tick (07 R206). -/
def State.dueSlew (s : State) (n : Nat) : State :=
  let d := s.dac n
  let d1 : Dac := d.newSlew.foldl (fun d c => { d with slewOn := c.2.1, step := c.2.2.1, rate := c.2.2.2 }) { d with newSlew := [] }
  d.newSlew.foldl (fun s c => s.final c.1 stOK (roundFree 250000000000 (tickPeriod c.2.2.2)).toNat 0) (s.setDac n d1)

/-- One limiter tick (07 R189, R198). -/
def State.dacTick (s : State) (n t : Nat) : State :=
  let d := s.dac n
  if d.lastTick = some t ∨ t % d.tickNow ≠ 0 then s
  else
    let s1 := (s.dacTargets n t).dueSlew n
    let d1 : Dac := { s1.dac n with lastTick := some t }
    let step := if d1.fixed then d1.rampStep else d1.step
    if !d1.enabled then s1.setDac n d1
    else match d1.rc with
      | none =>
        let d2 : Dac := if d1.moving.isSome ∨ d1.slewOn then { d1 with out := stepTo step d1.out d1.target } else d1
        (s1.setDac n d2).dacReached n t
      | some r =>
        if r.phase < 2 then
          let x := stepTo step (if r.phase = 0 then d1.present else d1.out) 0
          s1.setDac n { d1 with out := x, target := 0, moving := none, source := 0, code := x,
                                rc := some { r with phase := if x = 0 then 2 else 1, since := if x = 0 then t else r.since } }
        else if r.phase = 2 ∨ (r.source = 2 ∧ !r.got) ∨ r.source = 1 then s1.setDac n d1
        else
          let x := stepTo step d1.out d1.target
          let s2 := s1.setDac n { d1 with out := x, code := x }
          if x = d1.target then s2.endRange n t else s2

/-- The conversion of an update instant (07 R180, R209; 08 R217, R224). -/
def State.dacConvert (s : State) (n t : Nat) : State :=
  let d : Dac := { (s.dac n).applyCal s.now s.cal.ref.scale with lastConv := some t }
  if !d.enabled ∨ d.tripped then s.setDac n d
  else
    let x := d.present
    let held := decide (x = d.conv)
    let reads := held && decide (d.heldSince + 5000 ≤ t) && s.cal.runs.any fun e => e.kind == 2 && e.idx == n
    let d1 : Dac := if !reads then d else
      { d with readings := d.readings + 1, readLow := if d.readings = 0 then x else min x d.readLow,
               readHigh := if d.readings = 0 then x else max x d.readHigh }
    (s.setDac n { d1 with conv := x, heldSince := if held then d.heldSince else t }).bump (uDac n) 0

/-- DAC_UPDATE (07 R180): an update instant, a value of the count that is a multiple of P. -/
def execDacUpdate (t n : Nat) (s : State) : Host.Outcome State Fault Refusal :=
  let s := s.atCount t
  let d := s.dac n
  ifUnit (decide (n < 64))
    (if s.dacCount ≠ t ∨ t % d.period ≠ 0 ∨ d.lastConv = some t ∨ d.upStep < 2 then s
     else ((s.dacTargets n t).dacTick n t).dacConvert n t)

/-- SLEW_TICK (07 R189): a value of the count that is a multiple of the tick period. -/
def execSlewTick (t n : Nat) (s : State) : Host.Outcome State Fault Refusal :=
  let s := s.atCount t
  ifUnit (decide (n < 64)) (if s.dacCount ≠ t ∨ (s.dac n).upStep < 2 then s else s.dacTick n t)

/-- DAC_BUS_CAPTURE (09 R247): the word and VALID of the bus that a channel uses, copied 100 ns before an update instant;
nothing while the region's bus is held (07 R202). -/
def execDacBusCapture (t n data : Nat) (valid : Bool) (s : State) : Host.Outcome State Fault Refusal :=
  let s := s.atCount t
  let d := s.dac n
  ifUnit (decide (n < 64))
    (if (d.source = 2 ∨ d.rc.any (fun r => r.source == 2) ∨ d.outs.any (fun c => c.source == 2)) ∧ !d.busHeld then
       s.setDac n { d with capData := data % 2 ^ 20, capValid := valid }
     else s)

/-- A trigger of kind 4 from a channel's DDS (07 R188; 05 R139). -/
def State.ddsEvent (s : State) (index : Nat) : State :=
  (s.convs.filter fun e => e.2.listens 4 index false).foldl (fun s e => (s.acceptTrig e.1).1) s

/-- DDS_WRAP (07 R188). -/
def execDdsWrap (t n : Nat) (s : State) : Host.Outcome State Fault Refusal :=
  let s := s.at t
  ifUnit (decide (n < 64)) (if s.now = t ∧ ((s.dac n).ddsAt t).wraps t then s.ddsEvent (2 * n) else s)

/-- DDS_MATCH (07 R188). -/
def execDdsMatch (t n : Nat) (s : State) : Host.Outcome State Fault Refusal :=
  let s := s.at t
  ifUnit (decide (n < 64)) (if s.now = t ∧ ((s.dac n).ddsAt t).matches_ t then s.ddsEvent (2 * n + 1) else s)

/-! ### Power-up and the Keep store record (07 R193-R197) -/

/-- A power-up record's fields. -/
def readNv (b : Bytes) : NvRec :=
  { code := toI 32 (fld b 0 4), range := byteAt b 4, senseLocal := bit (byteAt b 5) 0, limit := byteAt b 6, step := fld b 8 2, rate := fld b 10 4,
    period := fld b 14 4, dwell := fld b 18 2 }

/-- Are a record's values within their ranges (07 R193)? -/
def NvRec.ok (r : NvRec) : Bool :=
  decide (r.range < 4) && inRange r.range r.code && decide (1 ≤ r.limit) && decide (r.limit ≤ 8) && decide (1 ≤ r.step) && decide (r.step < 65536) &&
  decide (1000 ≤ r.rate) && decide (r.rate ≤ 1000000) && decide (250 ≤ r.period) && decide (r.period < 2 ^ 32) && decide (r.dwell ≤ 1000)

/-- The reserved places of a record. -/
def nvReserved : List (Nat × Nat) := (5, 0xFE) :: rsv 7 1 ++ rsv 20 8

/-- The bytes of a record, with its CRC. -/
def NvRec.bytes (r : NvRec) : Bytes :=
  sealRec 32 (toLE 4 (ofI 32 r.code) ++ toLE 1 r.range ++ toLE 1 (b2n r.senseLocal) ++ toLE 1 r.limit ++ [0] ++ toLE 2 r.step ++ toLE 4 r.rate ++
    toLE 4 r.period ++ toLE 2 r.dwell ++ zeros 8)

/-- The record in force: the stored one, or none where R194's defaults apply. -/
def State.storedNv (s : State) (n : Nat) : Option NvRec :=
  match Tbl.get none n s.keep.dacUps with
  | none => none
  | some b => if sealed 32 b && (firstBad b nvReserved).isNone && (readNv b).ok then some (readNv b) else none

/-- The log place of a channel (17 R466). -/
def dacIdx (n : Nat) : Nat := 2 * 2 ^ 24 + n

/-- DAC_POWERUP_RANGE (07 R194, R195 step 3): the record is checked and its range switched. -/
def execDacPowerupRange (t n : Nat) (s : State) : Host.Outcome State Fault Refusal :=
  let s := s.atCount t
  let d := s.dac n
  let nv := (s.storedNv n).getD {}
  let bad := (s.storedNv n).isNone
  ifUnit (decide (n < 64))
    (if d.upStep ≠ 2 then s
     else
       let s1 := s.setDac n { d with upStep := 3, nv := nv, range := nv.range, senseLocal := nv.senseLocal, senseNow := nv.senseLocal, limit := nv.limit,
                                     step := nv.step, rate := nv.rate, period := nv.period, dwell := nv.dwell, nvDefaulted := d.nvDefaulted || bad }
       if bad then s1.log 0x400 3 (dacIdx n) 0 0 else s1)

/-- DAC_POWERUP_ENABLE (07 R195 step 4): the stage is enabled at 0 V and the ramp to the stored code begins at the first
limiter tick after it. -/
def execDacPowerupEnable (t n : Nat) (s : State) : Host.Outcome State Fault Refusal :=
  let s := s.atCount t
  let d := s.dac n
  ifUnit (decide (n < 64))
    (if d.upStep ≠ 3 then s
     else s.setDac n { d with upStep := 4, out := 0, conv := 0, source := 0, code := d.nv.code, target := d.nv.code, moving := some true,
                              rampStep := d.nv.step, rampRate := d.nv.rate, lastTick := some t, shortSince := none })

/-- A channel returns to step 1 of R195 (07 R197). -/
def State.dacDown (s : State) (n : Nat) : State :=
  let s1 := s.endDacCmds n stFAULT
  let d := s1.dac n
  s1.setDac n { d with upStep := 1, rc := none, moving := none, out := 0, conv := 0, source := 0, code := 0, target := 0, dds := d.dds.stopAt s1.dacCount,
                       shortSince := none, haltWait := false, reramp := false, newSlew := [] } |> fun s2 =>
    (d.newSlew.foldl (fun s c => s.final c.1 stFAULT 0 0) s2).forgetCal 2 n

/-- DAC_SUPPLY_LOSS (07 R197): VAP, VAN or VREF leaves its window while channels are enabled; a tripped channel stays as it is
(R192). -/
def execDacSupplyLoss (t : Nat) (s : State) : Host.Outcome State Fault Refusal :=
  .next (((List.range 64).filter fun n => decide (2 ≤ (s.dac n).upStep) && !(s.dac n).tripped).foldl (fun s n => s.dacDown n) (s.atCount t))

/-- RANGE_SWITCH (07 R198 step 3): 20 us after 0 V, or after a later DAC_RANGE, the range is switched. -/
def execRangeSwitch (t n : Nat) (s : State) : Host.Outcome State Fault Refusal :=
  let s := s.atCount t
  let d := s.dac n
  ifUnit (decide (n < 64)) (match d.rc with
    | none => s
    | some r =>
      if r.phase ≠ 2 ∨ s.dacCount < r.since + 5000 then s
      else s.setDac n { d with range := r.range, rc := some { r with phase := 3 }, out := 0, target := if r.source = 0 then r.code else 0,
                               lastTick := some t, lastUpd := some t })

/-! ### Limits and monitors (07 R183, R191, R192) -/

/-- DAC_SHORT (07 R191): an onset of the limit. -/
def execDacShort (t n : Nat) (s : State) : Host.Outcome State Fault Refusal :=
  let s := s.atCount t
  let d := s.dac n
  ifUnit (decide (n < 64))
    (if !d.enabled ∨ d.tripped ∨ d.shortSince.isSome then s
     else
       let s1 := (s.setDac n { d with short := true, shortSince := some (s.dacCount : Int) }).bump (uDac n) 1
       if d.short then s1 else s1.log 0x402 3 (dacIdx n) d.limit 0)

/-- SHORT_LIMIT_RELEASED (07 R191, R192). -/
def execShortLimitReleased (t n : Nat) (s : State) : Host.Outcome State Fault Refusal :=
  let s := s.atCount t
  ifUnit (decide (n < 64)) (s.setDac n { s.dac n with shortSince := none })

/-- DAC_TRIP (07 R192, R199): the limit has acted for the trip dwell. -/
def execDacTrip (t n : Nat) (s : State) : Host.Outcome State Fault Refusal :=
  let s := s.atCount t
  let d := s.dac n
  ifUnit (decide (n < 64)) (match d.shortSince with
    | none => s
    | some a =>
      if d.tripped ∨ d.dwell = 0 ∨ (s.dacCount : Int) < a + 250000 * d.dwell then s
      else
        let d1 : Dac := { d with tripped := true, shortSince := none, rc := none, moving := none, source := if d.rc.isSome then 0 else d.source,
                                 code := if d.rc.isSome then 0 else d.code }
        let carried := d.outs.filter fun c => decide (c.st ≠ 0)
        ((((s.setDac n d1).rangeCut n).endOuts n carried stFAULT).bump (uDac n) 2).log 0x403 3 (dacIdx n) d.dwell 0)

/-- DAC_SENSE_OPEN (07 R183): force and sense differ by more than 1.2 V for 100 us; `mv` is the difference. -/
def execDacSenseOpen (t n mv : Nat) (s : State) : Host.Outcome State Fault Refusal :=
  let s := s.atCount t
  let d := s.dac n
  ifUnit (decide (n < 64))
    (if !d.enabled ∨ d.tripped ∨ d.senseNow ∨ mv ≤ 1200 then s
     else ((s.setDac n { d with senseNow := true, senseOpen := true }).bump (uDac n) 3).log 0x401 3 (dacIdx n) mv 0)

/-! ### Commands (07 R203-R208; 12 R344) -/

/-- The range that a code of a command applies to (07 R199, R203). -/
def Dac.codeRange (d : Dac) : Nat := match d.rc with
  | some r => r.range
  | none => d.range

def bodyDacSet (cmd : Instr) (slot : Nat) (a : Bytes) (s : State) : State :=
  let n := byteAt a 0
  let fl := byteAt a 1
  let src := byteAt a 2
  let code := toI 32 (fld a 4 4)
  let bus := fld a 4 2
  if 64 ≤ n ∨ 2 < src ∨ (src = 0 ∧ !inRange (s.dac n).codeRange code) ∨ (src = 2 ∧ (64 ≤ bus ∨ bus / 8 ≠ n / 8)) then s.final slot stRANGE 0 0
  else s.onRegion (n / 8) slot cmd fun s =>
    let d := s.dac n
    let d1 : Dac := if bit fl 1 then
        { d with short := false, tripped := false, senseOpen := false, ddsClip := false, faultValue := false, nvDefaulted := false,
                 out := if d.tripped then 0 else d.out, reramp := d.reramp || d.tripped,
                 moving := if d.tripped && decide (d.source = 0) then some false else d.moving }
      else d
    let c : DacCmd := { slot := slot, isRange := false, time := if bit fl 0 then fld a 8 8 else 0, source := src, bus := bus, code := if src = 0 then code else 0 }
    (s.setDac n { d1 with outs := d1.outs ++ [c] }).setWork slot (.dac n)

/-- DAC_SET (07 R203). -/
def execDacSet (d : Desc) (s : State) : Host.Outcome State Fault Refusal :=
  queueCmd d s fun s => s.command 0x0300 d
    (fun a => firstBad a ((1, 0xFC) :: rsv 3 1 ++ (if byteAt a 2 = 1 then rsv 4 4 else if byteAt a 2 = 2 then rsv 6 2 else []) ++
      (if bit (byteAt a 1) 0 then [] else rsv 8 8))) (fun _ _ => none) (bodyDacSet (.dacSet d))

def bodyDacRange (cmd : Instr) (slot : Nat) (a : Bytes) (s : State) : State :=
  let n := byteAt a 0
  let r := byteAt a 1
  let fl := byteAt a 2
  let k := byteAt a 3
  let code := toI 32 (fld a 4 4)
  let p := fld a 8 4
  let dwell := fld a 12 2
  if 64 ≤ n ∨ 3 < r ∨ k = 0 ∨ 8 < k ∨ !inRange r code ∨ (p ≠ 0 ∧ p < 250) ∨ 1000 < dwell then s.final slot stRANGE 0 0
  else s.onRegion (n / 8) slot cmd fun s =>
    let d := s.dac n
    let d1 : Dac := { d with senseLocal := bit fl 0, senseNow := bit fl 0, haltOffset := bit fl 1, limit := k, dwell := dwell,
                             period := if p = 0 then d.period else p, range := if d.enabled then d.range else r }
    let c : DacCmd := { slot := slot, isRange := true, time := 0, source := 0, bus := 0, code := code }
    let new : RangeCh := { phase := 0, range := r, source := 0, bus := 0, code := code }
    let s1 := (s.setDac n d1).setWork slot (.dac n)
    match d.rc with
    | none =>
      if r = d1.range then s1.setDac n { d1 with outs := d1.outs ++ [c] }
      else
        let s2 := s1.endOuts n d1.outs stABORTED
        s2.setDac n { s2.dac n with rc := some new, outs := [{ c with st := 2 }] }
    | some q =>
      let s2 := s1.endOuts n d1.outs stABORTED
      let d2 := s2.dac n
      let to_ : RangeCh := if q.phase < 3 then { new with phase := q.phase, since := if q.phase = 2 then s.dacCount else q.since }
        else if r = d.range then { new with phase := 3 } else new
      s2.setDac n { d2 with rc := some to_, target := if to_.phase = 3 then code else d2.target, outs := [{ c with st := 2 }] }

/-- DAC_RANGE (07 R198, R199, R204). -/
def execDacRange (d : Desc) (s : State) : Host.Outcome State Fault Refusal :=
  queueCmd d s fun s => s.command 0x0301 d (fun a => firstBad a ((2, 0xFC) :: rsv 14 10)) (fun _ _ => none) (bodyDacRange (.dacRange d))

def bodyDdsConfig (cmd : Instr) (slot : Nat) (a : Bytes) (s : State) : State :=
  let n := byteAt a 0
  let fl := byteAt a 1
  let ftw := fld a 4 6
  let amp := fld a 16 4
  let off := toI 32 (fld a 20 4)
  let d := s.dac n
  if 64 ≤ n ∨ 9 * 2 ^ 48 < 20 * ftw * d.period ∨ 524287 < amp ∨ !inRange d.range off then s.final slot stRANGE 0 0
  else s.onRegion (n / 8) slot cmd fun s =>
    let d := s.dac n
    let time := if bit fl 0 then fld a 32 8 else 0
    let q : Dds := { running := true, ftw := ftw, phase := fld a 10 6, ref := time, amp := amp, offset := off, mtch := fld a 24 6 }
    (s.setDac n { d with ddsq := d.ddsq ++ [{ slot := slot, atTime := bit fl 0, cont := bit fl 1, stop := bit fl 2, time := time, dds := q }] }).setWork slot (.dac n)

/-- DDS_CONFIG (07 R184, R187, R205). -/
def execDdsConfig (d : Desc) (s : State) : Host.Outcome State Fault Refusal :=
  queueCmd d s fun s => s.command 0x0302 d
    (fun a => firstBad a ((1, 0xF8) :: rsv 2 2 ++ rsv 30 2 ++ (if bit (byteAt a 1) 0 then [] else rsv 32 8))) (fun _ _ => none)
    (bodyDdsConfig (.ddsConfig d))

def bodyDacNvStore (verified : Bool) (slot : Nat) (a : Bytes) (s : State) : State :=
  let n := byteAt a 0
  let d := s.dac n
  let r : NvRec := if bit (byteAt a 1) 0 then
      { code := d.present, range := d.range, senseLocal := d.senseNow, limit := d.limit, step := d.step, rate := d.rate, period := d.period, dwell := d.dwell }
    else readNv (a.drop 4)
  if 64 ≤ n ∨ !r.ok then s.final slot stRANGE 0 0
  else if s.keepLocked then s.final slot stLOCKED 0 0
  else if !verified then s.final slot stFAULT 0 0
  else
    let s1 : State := { s with keep := { s.keep with dacUps := Tbl.set none n (some r.bytes) s.keep.dacUps } }
    (s1.setDac n { d with nv := r }).final slot stOK 0 0

/-- DAC_NV_STORE (07 R207; 12 R344), FROM_PRESENT with the sense mode that the channel is in (R183): `verified` says that the read-back matched. -/
def execDacNvStore (d : Desc) (verified : Bool) (s : State) : Host.Outcome State Fault Refusal :=
  queueCmd d s fun s => s.command 0x0303 d
    (fun a => firstBad a ((1, 0xFE) :: rsv 2 2 ++ (if bit (byteAt a 1) 0 then rsv 4 28 else nvReserved.map fun e => (e.1 + 4, e.2)))) (fun _ _ => none)
    (bodyDacNvStore verified)

def bodySlewConfig (cmd : Instr) (slot : Nat) (a : Bytes) (s : State) : State :=
  let n := byteAt a 0
  let step := fld a 2 2
  let rate := fld a 4 4
  if 64 ≤ n ∨ step = 0 ∨ rate < 1000 ∨ 1000000 < rate then s.final slot stRANGE 0 0
  else s.onRegion (n / 8) slot cmd fun s =>
    let d := s.dac n
    (s.setDac n { d with newSlew := d.newSlew ++ [(slot, bit (byteAt a 1) 0, step, rate)] }).setWork slot (.dac n)

/-- SLEW_CONFIG (07 R206). -/
def execSlewConfig (d : Desc) (s : State) : Host.Outcome State Fault Refusal :=
  queueCmd d s fun s => s.command 0x0304 d (fun a => firstBad a ((1, 0xFE) :: rsv 8 8)) (fun _ _ => none) (bodySlewConfig (.slewConfig d))

/-! ### ABORT and QUERY (12 R333; 07 R209) -/

/-- Stop a DAC command that can still be stopped, with a status (12 R330, R333); says whether it was. -/
def State.stopDac (s : State) (n slot st : Nat) : State × Bool :=
  let d := s.dac n
  match d.ddsq.find? fun c => c.slot == slot with
  | some _ => ((s.setDac n { d with ddsq := d.ddsq.filter fun c => c.slot != slot }).final slot st 0 0, true)
  | none =>
    match d.outs.find? fun c => c.slot == slot with
    | none => (s, false)
    | some c =>
      match c.st, d.rc with
      | 0, _ => (s.endOuts n [c] st, true)
      | 1, _ => ((s.setDac n { d with code := d.present, target := d.present, out := d.present, moving := none }).endOuts n [c] st, true)
      | _, some r =>
        if r.phase = 0 ∧ c.isRange then (((s.setDac n { d with rc := none }).rangeCut n).endOuts n [c] st, true)
        else if r.phase = 3 ∧ !c.isRange then
          ((s.setDac n { d with rc := some { r with source := 0, code := d.out }, target := d.out }).endOuts n [c] st, true)
        else (s, false)
      | _, none => (s, false)

/-- The status byte of a channel (07 R209). RAMPING: the limiter has not reached its target. -/
def Dac.statusByte (d : Dac) : Nat :=
  b2n d.short + 2 * b2n d.tripped + 4 * b2n d.senseOpen + 8 * b2n d.ddsClip +
  16 * b2n (d.enabled && (d.moving.isSome || d.rc.any (fun r => decide (r.phase ≠ 2)) || (d.slewOn && decide (d.out ≠ d.target)))) +
  32 * b2n d.rc.isSome + 64 * b2n d.faultValue + 128 * b2n d.nvDefaulted

end Sys2Proof.Machine
end

