-- ==== Sys2Proof/Machine/Streams.lean ====
section
/-! DEFINITION. Streams, doorbells, ring enables and interrupt messages (11_rings_doorbells.md R288-R291, R301, R309-R321;
12_command_reference.md R345, R346; 17_faults_log.md R459; 18_setup_registers.md R478, R479). -/

namespace Sys2Proof.Machine

/-! ### The stream engine (11 R309-R315) -/

/-- A sample record's bytes (11 R309). -/
def Rec.bytes (r : Rec) : Bytes := toLE 4 r.val ++ toLE 1 r.src ++ toLE 1 r.flags ++ toLE 2 r.seq

/-- Free entries of a stream event ring, those of the buffer in use apart (11 R291, R313). -/
def Ds.eventRoom (d : Ds) : Nat :=
  2 ^ d.evtSize - 1 - (d.evtTail + 2 ^ d.evtSize - d.evtHead) % 2 ^ d.evtSize - b2n d.cur.isSome

/-- The payload bytes that stream writes may still take now (11 R323; 01 R25): the share of the link, less what the last 4 us have sent
and less a fill record for each buffer in use. -/
def State.linkLeft (s : State) : Nat :=
  let h := s.host
  let recent := (h.sent.filter fun e => decide (s.now < e.1 + 1000)).map (·.2)
  h.share * Config.linkBytes h.speed h.width / 16 - (recent.sum + 16 * ((List.range 64).filter fun n => (s.ds n).cur.isSome).length)

/-- May stream writes of some bytes go out? The share limits the PCI Express link alone. -/
def State.linkRoom (s : State) (bytes : Nat) : Bool := s.time.localMode || decide (bytes ≤ s.linkLeft)

/-- A stream write goes out. -/
def State.sendBytes (s : State) (bytes : Nat) : State :=
  { s with host := { s.host with sent := (s.host.sent.filter fun e => decide (s.now < e.1 + 1000)) ++ [(s.now, bytes)] } }

/-- Write a fill record (11 R312, R314, R321). -/
def State.writeFill (s : State) (n : Nat) (f : Fill) : State :=
  let d := s.ds n
  let b := toLE 8 f.ts ++ toLE 4 f.count ++ toLE 2 f.idx ++ toLE 1 (f.flags + 128 * b2n d.phase) ++ toLE 1 n
  let s1 := (s.sendBytes 16).hostWrite (d.evtBase + 16 * d.evtTail) b
  let tail := (d.evtTail + 1) % 2 ^ d.evtSize
  ((s1.setDs n { d with evtTail := tail, phase := if tail = 0 then !d.phase else d.phase }).raiseVec d.vector).bump (uDs n) 1

/-- End the buffer in use with flags, where it holds a record or `always` (11 R313). -/
def State.endBuf (s : State) (n flags : Nat) (always : Bool) : State :=
  let d := s.ds n
  match d.cur with
  | none => s
  | some b =>
    if b.used = 0 ∧ !always then s
    else (s.setDs n { d with cur := none }).writeFill n { ts := if b.used = 0 then 0 else b.first, count := b.used / 8, idx := b.idx, flags := flags }

/-- A stream buffer descriptor keeps its layout (11 R311, R324). -/
def State.bufDescOk (s : State) (b : Bytes) : Bool :=
  let a := fld b 0 8
  let len := fld b 8 4
  decide (a % 64 = 0) && decide (len % 64 = 0) && decide (64 ≤ len) && decide (len ≤ 16777216) && decide (fld b 12 4 = 0) && s.bufOk a len

/-- Take the next posted buffer, where the event ring has room for it: a bad descriptor is skipped with a fill record
(11 R311, R313). DESIGN CHOICE (log 21): the engine takes a buffer when a record needs one. -/
def State.takeBuf : Nat → Nat → State → State
  | 0, _, s => s
  | f + 1, n, s =>
    let d := s.ds n
    match d.posted with
    | [] => s
    | (i, b) :: l =>
      if d.cur.isSome ∨ d.eventRoom = 0 ∨ d.fetchStalled ∨ !s.linkRoom 24 then s
      else
        let s1 := s.setDs n { d with posted := l, bufHead := (i + 1) % 2 ^ d.bufSize }
        if s.bufDescOk b then
          s1.setDs n { s1.ds n with cur := some { addr := fld b 0 8, len := fld b 8 4, used := 0, first := 0, at_ := 0, idx := i } }
        else State.takeBuf f n ((s1.writeFill n { ts := 0, count := 0, idx := i, flags := 8 }).log 0x602 5 (2 ^ 24 + n) i 0)

/-- Write one record into the buffer in use (11 R313, R314). -/
def State.writeRec (s : State) (n : Nat) (b : Buf) (r : Rec) : State :=
  let d := s.ds n
  let s1 := (s.sendBytes 8).hostWrite (b.addr + b.used) r.bytes
  let b' : Buf := { b with used := b.used + 8, first := if b.used = 0 then r.ts else b.first, at_ := if b.used = 0 then s.now else b.at_ }
  let s2 := (s1.setDs n { d with cur := some b', written := d.written + 1 }).bump (uDs n) 0
  if b'.used = b'.len then s2.endBuf n 0 false else s2

/-- The stream engine writes staged records while it has buffers and room in its share of the link for them, a record per unit of fuel
(11 R313, R314, R323). A stream that waits for its share goes on at the next row that concerns it (DESIGN CHOICE, log 21). -/
def State.drain : Nat → Nat → State → State
  | 0, _, s => s
  | f + 1, n, s =>
    let d := s.ds n
    match d.stage with
    | [] => s
    | r :: l =>
      if d.halted then s
      else
        let s1 := State.takeBuf (d.posted.length + 1) n s
        match (s1.ds n).cur with
        | none => s1
        | some b => if !s1.linkRoom 8 then s1 else State.drain f n ((s1.setDs n { s1.ds n with stage := l }).writeRec n b r)

/-- Drain a stream's stage as far as it goes. -/
def State.drainAll (s : State) (n : Nat) : State := s.drain ((s.ds n).stage.length + 1) n

/-- The converter's next record that is written carries GAP (11 R310, R314, R320). -/
def State.markLost (s : State) (c : Nat) : State :=
  if s.host.gap.contains c then s else { s with host := { s.host with gap := s.host.gap ++ [c] } }

/-- A record reaches the stream engine (11 R310, R314, R320). -/
def State.arrive (s : State) (r : Rec) : State :=
  let n := r.stream
  let d := s.ds n
  if !d.opened ∨ d.closing.isSome then s
  else
    let full := decide (512 ≤ d.stage.length)
    if d.halted ∨ full then (s.markLost r.src).bump (uDs n) 2
    else
      let g := s.host.gap.contains r.src
      let r' : Rec := if g then { r with flags := Nat.lor r.flags 64 } else r
      let s1 : State := { s with host := { s.host with gap := s.host.gap.filter fun c => decide (c ≠ r.src) } }
      (s1.setDs n { s1.ds n with stage := d.stage ++ [r'] }).drainAll n

/-- Does a record of the same stream that was emitted earlier still wait on a converter's link (01 R28)? -/
def State.olderWaits (s : State) (r : Rec) : Bool :=
  s.convs.any fun e => e.2.link.any fun x => decide (x.stream = r.stream) && decide (x.seq ≠ r.seq) && decide ((r.seq + 65536 - x.seq) % 65536 < 32768)

/-- Clear what the flags of a snapshot ask for at a unit's cut (10 R282). -/
def clearCtr (flags : Nat) (err : Bool) (c : Ctr) : Ctr :=
  if err then (if bit flags 1 then {} else c) else (if bit flags 0 then { c with flag := false } else c)

/-- Unit `u` takes its cut in the running snapshot `p`: every counter is copied to its shadow, then what the flags ask for is cleared (10
R278, R282). -/
def State.cutUnit (s : State) (p : Snap) (u : Nat) : State :=
  let ks := List.range (unitSlots u).1
  let p' : Snap := { p with cut := p.cut ++ [u], shadow := ks.foldl (fun (sh : Tbl Ctr) k => Tbl.set {} (16 * u + k) (s.ctr u k) sh) p.shadow }
  let s1 := ks.foldl (fun (s : State) k => s.setCtr u k (clearCtr p.flags (isErrCtr u k) (s.ctr u k))) s
  { s1 with sheaf := { s1.sheaf with run := some p' } }

/-- A token sent ahead of a record on its link reaches the stream engine before it: the stream's unit takes its cut, where it has not yet
(10 R271, R278, R279). -/
def State.tokenFirst (s : State) (r : Rec) : State :=
  match s.sheaf.run with
  | none => s
  | some p => if r.epoch = 0 ∨ r.epoch ≠ p.epoch ∨ p.cut.contains (uDs r.stream) then s else s.cutUnit p (uDs r.stream)

/-- STREAM_RECORD (11 R310, R314; 01 R28; 10 R279): the oldest record on converter `c`'s link reaches the stream engine, in the order of its
stream. -/
def execStreamRecord (t c : Nat) (s : State) : Host.Outcome State Fault Refusal :=
  let s := s.at t
  let v := s.conv c
  ifUnit (decide (c < 192)) (match v.link with
    | [] => s
    | r :: l => if s.olderWaits r then s else ((s.setConv c { v with link := l }).tokenFirst r).arrive r)

/-- STREAM_FETCH_STALL (17 R459): a buffer descriptor read without completion data is treated as no buffer until the next
tail doorbell. -/
def execStreamFetchStall (t ds : Nat) (s : State) : Host.Outcome State Fault Refusal :=
  let s := s.at t
  let d := s.ds ds
  ifUnit (decide (ds < 64)) (match d.posted with
    | [] => s
    | (i, _) :: _ => if !d.enable ∨ d.cur.isSome ∨ d.fetchStalled then s
      else (s.setDs ds { d with fetchStalled := true }).log 0x601 5 (2 ^ 24 + ds) i 0)

/-! ### STREAM_OPEN and STREAM_CLOSE (12 R345, R346; 11 R315) -/

def bodyStreamOpen (cmd : Instr) (slot : Nat) (a : Bytes) (s : State) : State :=
  let n := byteAt a 0
  let flush := fld a 4 4
  let cs := maskConvs a 8
  if 64 ≤ n ∨ 60000 < flush then s.final slot stRANGE 0 0
  else
    let d := s.ds n
    let taken := cs.any fun c => let k := (s.conv c).cfg.stream; decide (k ≠ n) && decide (k < 64) && (s.ds k).opened
    if d.opened ∨ !d.enable ∨ taken then s.final slot stNO_RESOURCE 0 0
    -- the stream is part of a converter's configuration (05 R139), which its region's controller writes (01 R19, R20)
    else s.onRegions ((cs.map convRegion).eraseDups) slot cmd fun s =>
      let s1 := cs.foldl (fun s c => let v := s.conv c; s.setConv c { v with cfg := { v.cfg with stream := n } }) s
      -- records produced before FINAL are discarded uncounted
      let s2 : State := { s1 with convs := s1.convs.map fun e => (e.1, { e.2 with link := e.2.link.filter fun r => decide (r.stream ≠ n) }) }
      let s3 : State := { s2 with host := { s2.host with gap := s2.host.gap.filter fun c => decide ((s2.conv c).cfg.stream ≠ n) } }
      (s3.setDs n { d with opened := true, handle := slot, dropSettling := bit (byteAt a 1) 0, flush := flush, seq := 0, stage := [], cur := none,
                           written := 0, closing := none }).finalObj slot 2 stOK 0 0

/-- STREAM_OPEN (12 R345). -/
def execStreamOpen (d : Desc) (s : State) : Host.Outcome State Fault Refusal :=
  queueCmd d s fun s => s.command 0x0500 d (fun a => firstBad a ((1, 0xFE) :: rsv 2 2)) (fun _ _ => none) (bodyStreamOpen (.streamOpen d))

/-- Go on closing a stream: staged records into the current and further posted buffers, the current buffer ended, every
posted buffer returned, then FINAL and the handles released (11 R315). -/
def State.closeStep (s : State) (n : Nat) : State :=
  match (s.ds n).closing with
  | none => s
  | some (slot, _) =>
    let d0 := s.ds n
    let s1 := (s.setDs n { d0 with halted := false }).drainAll n
    let s2 := s1.setDs n { s1.ds n with halted := d0.halted }
    let d := s2.ds n
    if !d.stage.isEmpty ∧ (!s2.linkRoom 24 ∨ (!d.posted.isEmpty ∧ d.cur.isNone ∧ !d.fetchStalled)) then s2
    else
      let s3 := (s2.setDs n { d with stage := [] }).bumpN (uDs n) 2 d.stage.length
      let s4 := s3.endBuf n 5 true
      let back := b2n d.cur.isSome
      let room := min (s4.ds n).eventRoom (if s4.time.localMode then d.posted.length else min d.posted.length (s4.linkLeft / 16))
      let s5 := (d.posted.take room).foldl (fun s e => s.writeFill n { ts := 0, count := 0, idx := e.1, flags := 4 }) s4
      let d5 := s5.ds n
      let k := match d5.closing with
        | some q => q.2 + back + room
        | none => 0
      let rest := d.posted.drop room
      if rest.isEmpty then
        let obj := d5.handle
        let s6 := s5.setDs n { d5 with posted := [], bufHead := d5.bufTail, opened := false, closing := none, handle := 0 }
        (s6.final slot stOK d5.written k).release obj
      else s5.setDs n { d5 with posted := rest, closing := some (slot, k) }

/-- FLUSH_INTERVAL (11 R313, R323): the flush interval has passed since the buffer's first record; a stream that waited for its share
of the link goes on. -/
def execFlushInterval (t ds : Nat) (s : State) : Host.Outcome State Fault Refusal :=
  let s := s.at t
  let d := s.ds ds
  let due := d.cur.any fun b => decide (d.flush ≠ 0) && decide (b.used ≠ 0) && decide (b.at_ + d.flush * 250000 ≤ s.now)
  ifUnit (decide (ds < 64)) (((if due then s.endBuf ds 1 false else s).drainAll ds).closeStep ds)

/-- The stream that a handle names. -/
def State.streamOf (s : State) (v : Nat) : Option Nat := (List.range 64).find? fun n => (s.ds n).opened && decide ((s.ds n).handle = v % 4096)

def bodyStreamClose (slot : Nat) (a : Bytes) (s : State) : State :=
  match s.streamOf (fld a 0 2) with
  | none => s.final slot stBAD_HANDLE 0 0
  | some n =>
    let d := s.ds n
    if d.closing.isSome then s.final slot stBAD_HANDLE 0 0
    else
      let s1 : State := { s with convs := s.convs.map fun e => (e.1, { e.2 with link := e.2.link.filter fun r => decide (r.stream ≠ n) }) }
      ((s1.setDs n { d with closing := some (slot, 0) }).setWork slot (.close n)).closeStep n

/-- STREAM_CLOSE (12 R346; 11 R315). -/
def execStreamClose (d : Desc) (s : State) : Host.Outcome State Fault Refusal :=
  queueCmd d s fun s => s.command 0x0501 d (fun a => firstBad a (rsv 2 6))
    (fun s a => if s.namesObj (fld a 0 2) 2 then none else some stBAD_HANDLE) bodyStreamClose

/-! ### Doorbells (11 R318-R320) -/

/-- A doorbell write that is ignored and logged (11 R318). -/
def State.badDoorbell (s : State) (off value width : Nat) : State := s.log 0x603 5 (2 * 2 ^ 24 + off) value width

/-- Events held for the management event ring are written as room allows (11 R291, R317). -/
def State.meDrain : Nat → State → State
  | 0, s => s
  | f + 1, s =>
    let m := s.host.me
    match m.held with
    | [] => s
    | e :: l =>
      if m.full ∨ !m.enable then s
      else State.meDrain f (({ s with host := { s.host with me := { m with held := l } } }).meWrite e)

/-- Management event ring head (11 R318). -/
def State.meHead (s : State) (v : Nat) : State :=
  ({ s with host := { s.host with me := { s.host.me with head := v } } }).meDrain 64

/-- Submission tail of a queue (11 R290, R301). -/
def State.sqTail (s : State) (q v : Nat) : State := let c := s.cq q; s.setCq q { c with sqTail := v, stalled := false }

/-- Completion head of a queue. -/
def State.cqHead (s : State) (q v : Nat) : State := let c := s.cq q; s.setCq q { c with cqHead := v }

/-- The descriptors between the present and a new producer index of a buffer ring: the operand, or in local-ring mode those
in the ring area (log 8). -/
def State.newDescs (s : State) (n v : Nat) (descs : List Bytes) : List (Nat × Bytes) :=
  let d := s.ds n
  let size := 2 ^ d.bufSize
  let k := (v + size - d.bufTail) % size
  (List.range k).map fun i =>
    let at_ := (d.bufTail + i) % size
    (at_, if s.time.localMode then s.spRead (d.bufBase + 16 * at_) 16 else slice (descs.getD i []) 0 16)

/-- Buffer ring tail of a stream (11 R290, R313; 17 R459). -/
def State.bufTail (s : State) (n v : Nat) (descs : List Bytes) : State :=
  let d := s.ds n
  ((s.setDs n { d with posted := d.posted ++ s.newDescs n v descs, bufTail := v, fetchStalled := false }).drainAll n).closeStep n

/-- Event ring head of a stream. -/
def State.evtHead (s : State) (n v : Nat) : State :=
  let d := s.ds n
  ((s.setDs n { d with evtHead := v }).drainAll n).closeStep n

/-- The ring of a 4-byte doorbell: whether it is enabled and its size in entries; none where the offset is no doorbell. -/
def State.doorRing (s : State) (off : Nat) : Option (Bool × Nat) :=
  let m := s.host.me
  if off = 8 then some (m.enable, 2 ^ m.size)
  else if 0x1000 ≤ off ∧ off < 0x11000 ∧ off % 0x1000 < 8 then
    let c := s.cq (off / 0x1000 - 1)
    if off % 0x1000 = 0 then some (c.enable, 2 ^ c.sqSize) else if off % 0x1000 = 4 then some (c.enable, 2 ^ c.cqSize) else none
  else if 0x11000 ≤ off ∧ off < 0x11400 then
    let d := s.ds ((off - 0x11000) / 16)
    if off % 16 = 0 then some (d.enable, 2 ^ d.bufSize) else if off % 16 = 4 then some (d.enable, 2 ^ d.evtSize) else none
  else none

/-- What a valid 4-byte doorbell does. -/
def State.doorAct (s : State) (off v : Nat) (descs : List Bytes) : State :=
  if off = 8 then s.meHead v
  else if off < 0x11000 then (if off % 0x1000 = 0 then s.sqTail (off / 0x1000 - 1) v else s.cqHead (off / 0x1000 - 1) v)
  else if off % 16 = 0 then s.bufTail ((off - 0x11000) / 16) v descs else s.evtHead ((off - 0x11000) / 16) v

/-- A write to a 4-byte doorbell (11 R308, R318): judged on its low 16 bits; during a management core restart the last value
written to each is kept until the restart ends. -/
def State.doorbell4 (s : State) (off value width : Nat) (descs : List Bytes) : State :=
  match s.doorRing off with
  | none => s
  | some (en, size) =>
    let v := value % 65536
    if !s.hostUp then s
    else if width ≠ 4 ∨ !en ∨ size ≤ v then s.badDoorbell off value width
    else if s.chip.restarting then
      { s with host := { s.host with deferred := (s.host.deferred.filter fun e => decide (e.1 ≠ off)) ++ [(off, v, descs)] } }
    else s.doorAct off v descs

/-- The items that a HALT value names, of one kind (11 R319). -/
def haltItems (v : Nat) (kind count : Nat) : List Nat :=
  if bits v 40 4 = 15 then List.range count
  else if bits v 40 4 = kind then ((List.range 32).filter fun i => bit v i).map fun i => 32 * bits v 32 8 + i else []

/-- Is a HALT value within its ranges (11 R319)? -/
def haltOk (v : Nat) : Bool :=
  let k := bits v 40 4
  decide (bits v 45 19 = 0) && (decide (k = 15) || (decide (k < 4) && decide (bits v 32 8 < (if k = 2 then 6 else 2))))

/-- A stream halts (11 R313, R320). -/
def State.haltStream (s : State) (n : Nat) : State :=
  let s1 := s.setDs n { s.ds n with halted := true }
  if (s1.ds n).opened then s1.endBuf n 3 false else s1

/-- Members of a list with further ones. -/
def addAll (l new : List Nat) : List Nat := l ++ new.filter fun x => !l.contains x

/-- A write to the HALT doorbell (11 R319, R320; 05 R146; 07 R201; 10 R277). -/
def State.haltWrite (s : State) (v width : Nat) : State :=
  if !s.hostUp then s
  else if width ≠ 8 ∨ !haltOk v then s.badDoorbell 0 v width
  else
    let ds := haltItems v 0 64
    let dacs := haltItems v 1 64
    let cs := haltItems v 2 192
    let us := haltItems v 3 64
    let s1 :=
      if bit v 44 then
        let s1 : State := { s with host := { s.host with haltConv := s.host.haltConv.filter (fun c => !cs.contains c),
                                                          haltCmp := s.host.haltCmp.filter fun u => !us.contains u } }
        (ds.filter fun n => (s1.ds n).halted).foldl (fun s n => (s.setDs n { s.ds n with halted := false }).drainAll n) s1
      else
        let s1 : State := { s with host := { s.host with haltConv := addAll s.host.haltConv cs, haltCmp := addAll s.host.haltCmp us } }
        let s2 := (ds.filter fun n => !(s1.ds n).halted).foldl (fun s n => s.haltStream n) s1
        let s3 := (dacs.foldl (fun s n => s.dacHalt n) s2).clearSource 3 us.contains
        cs.foldl (fun s c => s.setConv c (clearTrigs (s.conv c))) s3
    (s1.bump 0 1).log 0x604 5 (2 * 2 ^ 24) v 0

/-- HALT (11 R319, R320). -/
def execHalt (t : Nat) (value : BitVec 64) (width : Nat) (s : State) : Host.Outcome State Fault Refusal :=
  .next ((s.at t).haltWrite value.toNat width)

/-- RELEASE (11 R319, R320): a write to the same doorbell with bit 44 set. -/
def execRelease (t : Nat) (value : BitVec 64) (width : Nat) (s : State) : Host.Outcome State Fault Refusal :=
  .next ((s.at t).haltWrite value.toNat width)

/-- MGMT_EVENT_RING_HEAD (11 R318). -/
def execMgmtEventRingHead (t : Nat) (value : Word) (width : Nat) (s : State) : Host.Outcome State Fault Refusal :=
  .next ((s.at t).doorbell4 8 value.toNat width [])

/-- SUBMISSION_TAIL (11 R290, R318). -/
def execSubmissionTail (t q : Nat) (value : Word) (width : Nat) (s : State) : Host.Outcome State Fault Refusal :=
  ifUnit (decide (q < 16)) ((s.at t).doorbell4 (0x1000 * (q + 1)) value.toNat width [])

/-- COMPLETION_HEAD (11 R291, R318). -/
def execCompletionHead (t q : Nat) (value : Word) (width : Nat) (s : State) : Host.Outcome State Fault Refusal :=
  ifUnit (decide (q < 16)) ((s.at t).doorbell4 (0x1000 * (q + 1) + 4) value.toNat width [])

/-- BUFFER_RING_TAIL (11 R290, R313, R318). -/
def execBufferRingTail (t ds : Nat) (value : Word) (width : Nat) (descs : List Bytes) (s : State) : Host.Outcome State Fault Refusal :=
  ifUnit (decide (ds < 64)) ((s.at t).doorbell4 (0x11000 + 16 * ds) value.toNat width descs)

/-- EVENT_RING_HEAD (11 R291, R318). -/
def execEventRingHead (t ds : Nat) (value : Word) (width : Nat) (s : State) : Host.Outcome State Fault Refusal :=
  ifUnit (decide (ds < 64)) ((s.at t).doorbell4 (0x11000 + 16 * ds + 4) value.toNat width [])

/-! ### Ring enables (11 R288, R289; 18 R478, R479) -/

/-- Is a ring's base aligned to the smaller of its size and 4 KiB (11 R288)? -/
def baseOk (base log entry : Nat) : Bool := decide (base % min (2 ^ log * entry) 4096 = 0)

/-- Are ring sizes within 16-4,096 entries? -/
def sizeOk (n : Nat) : Bool := decide (4 ≤ n) && decide (n ≤ 12)

/-- A write to HOST_CQCTL (18 R477-R479). -/
def State.writeCqctl (s : State) (q v : Nat) : State :=
  let c := s.cq q
  let sq := bits v 8 4
  let cq := bits v 12 4
  if !sizeOk sq ∨ !sizeOk cq then s
  else if c.enable then
    let c1 : Cq := { c with vector := bits v 16 6 }
    s.setCq q (if bit v 0 then c1 else if c.owed = 0 then { c1 with enable := false, draining := false } else { c1 with draining := true })
  else
    let c1 : Cq := { c with vector := bits v 16 6, sqSize := sq, cqSize := cq }
    s.setCq q (if !bit v 0 then c1
      else if baseOk c.sqBase sq 64 && baseOk c.cqBase cq 32 then
        { c1 with enable := true, draining := false, configError := false, stalled := false, sqTail := 0, sqHead := 0, cqTail := 0, cqHead := 0, phase := true }
      else { c1 with configError := true })

/-- A write to HOST_DSCTL (18 R477-R479). -/
def State.writeDsctl (s : State) (n v : Nat) : State :=
  let d := s.ds n
  let bs := bits v 8 4
  let es := bits v 12 4
  if !sizeOk bs ∨ !sizeOk es then s
  else if d.enable then
    if bit v 0 then s.setDs n { d with vector := bits v 16 6 }
    else if d.opened then s
    else s.setDs n { d with vector := bits v 16 6, enable := false }
  else
    let d1 : Ds := { d with vector := bits v 16 6, bufSize := bs, evtSize := es }
    s.setDs n (if !bit v 0 then d1
      else if baseOk d.bufBase bs 16 && baseOk d.evtBase es 16 then
        { d1 with enable := true, configError := false, bufTail := 0, bufHead := 0, evtTail := 0, evtHead := 0, phase := true, posted := [], cur := none, fetchStalled := false }
      else { d1 with configError := true })

/-- A write to HOST_MECTL (18 R477-R479). -/
def State.writeMectl (s : State) (v : Nat) : State :=
  let m := s.host.me
  let size := bits v 8 4
  let m' : Me :=
    if !sizeOk size then m
    else if m.enable then { m with vector := bits v 16 6, enable := bit v 0 }
    else
      let m1 : Me := { m with vector := bits v 16 6, size := size }
      if !bit v 0 then m1
      else if baseOk m.base size 32 then { m1 with enable := true, configError := false, tail := 0, head := 0, phase := true, held := [], overflow := false }
      else { m1 with configError := true }
  { s with host := { s.host with me := m' } }

/-- A setup-register write whose effect needs the management core: during a restart the last value written to each register
takes effect when the restart ends (18 R472; log 23 names the registers). -/
def State.mgmtReg (s : State) (off v : Nat) (f : State → State) : State :=
  if !s.hostUp then s
  else if s.chip.restarting then
    { s with host := { s.host with deferredReg := (s.host.deferredReg.filter fun e => decide (e.1 ≠ off)) ++ [(off, v)] } }
  else f s

/-- The offset of a queue's control register (18 R476). -/
def cqctlOff (q : Nat) : Nat := 0x0450 + 32 * q

/-- CQ_ENABLE (18 R478; 11 R288). -/
def execCqEnable (t q : Nat) (value : Word) (s : State) : Host.Outcome State Fault Refusal :=
  ifUnit (decide (q < 16)) ((s.at t).mgmtReg (cqctlOff q) value.toNat fun s => s.writeCqctl q value.toNat)

/-- CQ_DISABLE (18 R479). -/
def execCqDisable (t q : Nat) (value : Word) (s : State) : Host.Outcome State Fault Refusal :=
  ifUnit (decide (q < 16)) ((s.at t).mgmtReg (cqctlOff q) value.toNat fun s => s.writeCqctl q value.toNat)

/-- DS_ENABLE (18 R478; 11 R288). -/
def execDsEnable (t ds : Nat) (value : Word) (s : State) : Host.Outcome State Fault Refusal :=
  ifUnit (decide (ds < 64)) (if (s.at t).hostUp then (s.at t).writeDsctl ds value.toNat else s.at t)

/-- DS_DISABLE (18 R479). -/
def execDsDisable (t ds : Nat) (value : Word) (s : State) : Host.Outcome State Fault Refusal :=
  ifUnit (decide (ds < 64)) (if (s.at t).hostUp then (s.at t).writeDsctl ds value.toNat else s.at t)

/-- ME_ENABLE (18 R478; 11 R288). -/
def execMeEnable (t : Nat) (value : Word) (s : State) : Host.Outcome State Fault Refusal := .next ((s.at t).mgmtReg 0x0418 value.toNat fun s => s.writeMectl value.toNat)

/-- ME_DISABLE (18 R479). -/
def execMeDisable (t : Nat) (value : Word) (s : State) : Host.Outcome State Fault Refusal := .next ((s.at t).mgmtReg 0x0418 value.toNat fun s => s.writeMectl value.toNat)

/-! ### Queue stalls and interrupt messages (11 R301, R321) -/

/-- QUEUE_STALLED (11 R301). -/
def execQueueStalled (t q : Nat) (s : State) : Host.Outcome State Fault Refusal :=
  let s := s.at t
  let c := s.cq q
  ifUnit (decide (q < 16))
    (if !c.enable ∨ c.draining ∨ c.stalled ∨ c.sqHead = c.sqTail then s
     else ((s.setCq q { c with stalled := true }).bump (uCq q) 2).log 0x600 5 q c.sqHead 0)

/-- MSIX_MESSAGE (11 R321; 18 R493): a pending vector that is not masked sends its message, at most one per coalescing
interval; in local-ring mode HOST_IRQ follows the pending vectors instead. -/
def execMsixMessage (t v : Nat) (s : State) : Host.Outcome State Fault Refusal :=
  let s := s.at t
  let e := s.msix v
  ifUnit (decide (v < 64))
    (if s.time.localMode ∨ !s.host.pendVec.contains v ∨ bit e.ctrl 0 ∨ s.now < Tbl.get 0 v s.host.vecNext then s
     else
       let s1 : State := { s with host := { s.host with pendVec := s.host.pendVec.filter (fun k => decide (k ≠ v)),
                                                         vecNext := Tbl.set 0 v (s.now + 250 * Tbl.get 0 v s.host.coal) s.host.vecNext } }
       s1.emit (.msix v e.addr e.data))

/-- Is HOST_IRQ low (11 R325; 18 R493)? -/
def State.hostIrq (s : State) : Bool := s.host.pendVec.any fun v => !bit (s.msix v).ctrl 0

end Sys2Proof.Machine
end

