-- ==== Sys2Proof/Machine/Fabric.lean ====
section
/-! DEFINITION. The scratchpad, the memory commands, read-back and the drive checker (09_fabric_memory.md R253-R267;
12_command_reference.md R348, R356). -/

namespace Sys2Proof.Machine

/-! ### Scratchpad words (09 R259, R260, R264) -/

/-- The word at a scratchpad address. -/
def State.spWord (s : State) (a : Nat) : Nat := le (s.spRead a 4)

/-- Write the bytes of a word that BE enables. -/
def State.spWordBE (s : State) (a be v : Nat) : State :=
  (List.range 4).foldl (fun (s : State) i => if bit be i then s.spWrite (a + i) [BitVec.ofNat 8 (v / 256 ^ i)] else s) s

/-- Write a whole word. -/
def State.spPut (s : State) (a v : Nat) : State := s.spWrite a (toLE 4 v)

/-- A read that was corrected (09 R264): counted, and written back in the bank's next idle cycle. -/
def State.spCorrected (s : State) (a : Nat) : State :=
  ({ s with fab := { s.fab with scrub := s.fab.scrub ++ [(a / 32768, a)] } }).bump (uBk (a / 32768)) 2

/-- A double-bit error (09 R264). -/
def State.spUncorrectable (s : State) (a : Nat) : State :=
  (s.bump (uBk (a / 32768)) 3).log 0x504 2 (a / 32768) a 0

/-- The word after an operation of R260 that changes it: 2 ADD, 3 SWAP. -/
def atomicNew (op old v : Nat) : Nat := if op = 2 then (old + v) % 2 ^ 32 else v % 2 ^ 32

/-! ### The fabric port (09 R262, R265, R266) -/

/-- A fabric request is answered. -/
def State.fabReply (s : State) (b rdata : Nat) (err : Bool) : State :=
  ({ s with fab := { s.fab with ports := Tbl.set {} b ({ err := err, rdata := rdata } : FabPort) s.fab.ports } }).emit (.fabric b rdata err)

/-- A reply whose data the manual does not state (log 15). -/
def State.fabReplyFree (s : State) (b : Nat) (err : Bool) : State :=
  let f := s.fresh
  f.2.fabReply b (f.1 % 2 ^ 32) err

/-- A bank serves its fabric port: `op` 0 READ, 1 WRITE, 2 ADD, 3 SWAP at word `addr`; `ecc` says what the code found: 1 a
corrected bit, 2 an uncorrectable error. -/
def State.fabServe (s : State) (b op addr be wdata ecc : Nat) : State :=
  let a := 32768 * b + 4 * (addr % 8192)
  let partialW := decide (op = 1) && decide (be % 16 ≠ 15)
  let reads := decide (op ≠ 1) || (partialW && decide (be % 16 ≠ 0))
  if (s.block b).quarantined then s.fabReplyFree b true
  else if s.time.localMode ∧ op ≠ 0 ∧ s.inArea a 4 then s.fabReplyFree b true
  else if ecc = 2 ∧ reads then (s.spUncorrectable a).fabReplyFree b true
  else
    let s1 := if ecc = 1 ∧ reads then s.spCorrected a else s
    let old := s1.spWord a
    let s2 := s1.bump (uBk b) 0
    match op with
    | 0 => s2.fabReply b old false
    | 1 => (s2.spWordBE a (be % 16) wdata).fabReplyFree b false
    | _ => (s2.spPut a (atomicNew op old wdata)).fabReply b old false

/-- SCRATCHPAD_FABRIC_REQUEST (09 R260-R266): a request of a block's fabric port; it waits while read-back stops the island. -/
def execScratchpadFabricRequest (t b op addr be : Nat) (wdata : Word) (ecc : Nat) (s : State) : Host.Outcome State Fault Refusal :=
  let s := s.at t
  let p := Tbl.get {} b s.fab.ports
  ifUnit (decide (b < 64))
    (if s.clocksGated (b / 8) ∨ 4 ≤ op ∨ p.req.isSome then s
     else if (s.block b).stopped then
       { s with fab := { s.fab with ports := Tbl.set {} b { p with req := some (op, addr, be, wdata.toNat, ecc) } s.fab.ports } }
     else s.fabServe b op addr be wdata.toNat ecc)

/-- SCRUB_WRITEBACK (09 R264): the corrected word of a bank is written back in its next idle cycle. -/
def execScrubWriteback (t b : Nat) (s : State) : Host.Outcome State Fault Refusal :=
  let s := s.at t
  ifUnit (decide (b < 64))
    (if (s.block b).stopped then s
     else match s.fab.scrub.find? fun e => e.1 == b with
       | none => s
       | some e => ({ s with fab := { s.fab with scrub := s.fab.scrub.erase e } }).spPut e.2 (s.spWord e.2))

/-! ### MEM commands (09 R261, R263, R264, R266; 12 R356) -/

/-- The bytes of a transfer of `len` bytes at `a` before the first bank that has a property. -/
def memStop (a len : Nat) (p : Nat → Bool) : Nat :=
  match ((List.range 64).filter fun b => decide (a / 32768 ≤ b) && decide (32768 * b < a + len)).find? p with
  | none => len
  | some b => max (32768 * b) a - a

/-- Count DMA words, bank by bank (09 R267). -/
def State.countDma (s : State) (a len : Nat) : State :=
  ((List.range 64).filter fun b => decide (a / 32768 ≤ b) && decide (32768 * b < a + len)).foldl (fun s b =>
    s.bumpN (uBk b) 1 ((min (a + len) (32768 * (b + 1)) - max a (32768 * b)) / 4)) s

/-- The scratchpad bytes that a memory command names: first address and length (12 R356). -/
def Hnd.memRange (h : Hnd) : Nat × Nat := if h.opcode = 0x0A02 then (fld h.args 4 4, 4) else (fld h.args 8 4, fld h.args 12 4)

/-- Must a memory command wait for one accepted earlier that names one of its words (12 R328)? -/
def State.memBehind (s : State) (slot : Nat) : Bool :=
  let h := s.hnd slot
  s.inFlight.any fun e => decide (e.2.acc < h.acc) &&
    (match e.2.work with
      | .mem _ _ _ => true
      | _ => false) &&
    decide (e.2.memRange.1 < h.memRange.1 + h.memRange.2) && decide (h.memRange.1 < e.2.memRange.1 + e.2.memRange.2)

/-- Go on with a MEM_COPY from `done` bytes: until it ends, an uncorrectable word or a quarantined bank ends it, or a word
must wait for its grant. `move` does the copying of bytes `done` to `fin`. -/
def State.memGo (s : State) (slot : Nat) (cmd : Instr) (a len done granted : Nat) (bad : Option Nat) (move : Nat → State → State) : State :=
  let quar := done + memStop (a + done) (len - done) fun b => (s.block b).quarantined
  let stop := done + memStop (a + done) (len - done) fun b => (s.block b).stopped
  let err := match bad with
    | none => len
    | some x => if a + done ≤ x ∧ x < a + len then (x - a) / 4 * 4 else len
  let fin := max done (min (min quar stop) (min (min len err) (4 * granted)))
  let s1 := (move fin s).countDma (a + done) (fin - done)
  if fin = len then s1.final slot stOK len 0
  else if fin = err ∧ err < len then (s1.spUncorrectable (a + fin)).final slot stFAULT fin 0
  else if fin = quar then s1.final slot stFAULT fin 0
  else s1.setWork slot (.mem (a + fin) fin cmd)

/-- Go on with a memory command whose next word may now be granted. -/
def State.memRun (s : State) (slot : Nat) (a : Bytes) (cmd : Instr) (done : Nat) : State :=
  let host := fld a 0 8
  let sp := fld a 8 4
  let len := fld a 12 4
  if s.memBehind slot then s.setWork slot (.mem (s.hnd slot).memRange.1 0 cmd)
  else match cmd with
  | .memCopyIn _ data granted =>
    let b := s.hostRead host len data
    s.memGo slot cmd sp len done granted none fun fin s => s.spWrite (sp + done) ((b.drop done).take (fin - done))
  | .memCopyOut _ granted bad fixed =>
    s.memGo slot cmd sp len done granted bad fun fin s =>
      let s1 := (fixed.filter fun x => decide (sp + done ≤ x) && decide (x < sp + fin)).foldl (fun s x => s.spCorrected x) s
      s1.hostWrite (host + done) (s1.spRead (sp + done) (fin - done))
  | .memAtomic _ granted ecc =>
    let at_ := fld a 4 4
    let b := at_ / 32768
    if (s.block b).quarantined then s.final slot stFAULT 0 0
    else if (s.block b).stopped ∨ !granted then s.setWork slot (.mem at_ 0 cmd)
    else if ecc = 2 then (s.spUncorrectable at_).final slot stFAULT 0 0
    else
      let s1 := if ecc = 1 then s.spCorrected at_ else s
      let old := s1.spWord at_
      ((s1.spPut at_ (atomicNew (2 + byteAt a 0) old (fld a 8 4))).bump (uBk b) 1).final slot stOK old 0
  | _ => s

/-- Memory commands that wait go on where nothing holds them up any more, in acceptance order (09 R256; 12 R328). -/
def State.memNext (s : State) : State :=
  (sortBy (fun x y => decide (x.2.acc ≤ y.2.acc)) s.inFlight).foldl (fun s e =>
    match e.2.work with
    | .mem _ done cmd => s.memRun e.1 e.2.args cmd done
    | _ => s) s

def bodyMemCopy (cmd : Instr) (slot : Nat) (a : Bytes) (s : State) : State :=
  let host := fld a 0 8
  let sp := fld a 8 4
  let len := fld a 12 4
  if host % 4 ≠ 0 ∨ sp % 4 ≠ 0 ∨ len % 4 ≠ 0 ∨ !s.bufOk host len then s.final slot stBAD_ARG 0 0
  else if len = 0 ∨ 2097152 < sp + len then s.final slot stRANGE 0 0
  else (s.memRun slot a cmd 0).memNext

/-- MEM_COPY_IN (09 R263; 12 R356): `data` is what the host's memory holds, `granted` the words whose grant comes before
any waits too long. -/
def execMemCopyIn (d : Desc) (data : Bytes) (granted : Nat) (s : State) : Host.Outcome State Fault Refusal :=
  queueCmd d s fun s => s.command 0x0A00 d (fun _ => none) (fun _ _ => none) (bodyMemCopy (.memCopyIn d data granted))

/-- MEM_COPY_OUT (09 R263, R264; 12 R356): `bad` is the address of a word with a double-bit error, `fixed` those of words
that a read corrects. -/
def execMemCopyOut (d : Desc) (granted : Nat) (bad : Option Nat) (fixed : List Nat) (s : State) : Host.Outcome State Fault Refusal :=
  queueCmd d s fun s => s.command 0x0A01 d (fun _ => none) (fun _ _ => none) (bodyMemCopy (.memCopyOut d granted bad fixed))

def bodyMemAtomic (cmd : Instr) (slot : Nat) (a : Bytes) (s : State) : State :=
  let at_ := fld a 4 4
  if 1 < byteAt a 0 then s.final slot stRANGE 0 0
  else if at_ % 4 ≠ 0 then s.final slot stBAD_ARG 0 0
  else if 2097152 < at_ + 4 then s.final slot stRANGE 0 0
  else (s.memRun slot a cmd 0).memNext

/-- MEM_ATOMIC (09 R260, R264; 12 R356). -/
def execMemAtomic (d : Desc) (granted : Bool) (ecc : Nat) (s : State) : Host.Outcome State Fault Refusal :=
  queueCmd d s fun s => s.command 0x0A02 d (fun a => firstBad a (rsv 1 3 ++ rsv 12 4)) (fun _ _ => none)
    (bodyMemAtomic (.memAtomic d granted ecc))

/-- DMA_TIMEOUT (09 R263): a word has waited 4,096 bank cycles; those of a stopped island do not count (R256). -/
def execDmaTimeout (t slot : Nat) (s : State) : Host.Outcome State Fault Refusal :=
  let s := s.at t
  match (s.hnd slot).work with
  | .mem a done _ =>
    if (s.hnd slot).st ≠ 1 ∨ (s.block (a / 32768)).stopped ∨ s.memBehind slot then .next s
    else .next (((s.bump (uBk (a / 32768)) 4).log 0x503 2 (a / 32768) a 0).final slot stTIMEOUT done 0).memNext
  | _ => .next s

/-- Requests that waited for a block's island go on (09 R256, R261): the fabric port first, then memory commands. -/
def State.memResume (s : State) (b : Nat) : State :=
  let s := match (Tbl.get {} b s.fab.ports).req with
    | some q => s.fabServe b q.1 q.2.1 q.2.2.1 q.2.2.2.1 q.2.2.2.2
    | none => s
  s.memNext

/-! ### Read-back (09 R255-R258; 12 R348) -/

/-- The blocks of a scope: 0 block, 1 region, 2 chip. -/
def scopeBlocks (scope idx : Nat) : List Nat := if scope = 0 then [idx] else if scope = 1 then regionBlocks idx else List.range 64

/-- Does a scope and index exist? -/
def scopeOk (scope idx : Nat) : Bool := decide (scope < 3) && decide (idx < (if scope = 0 then 64 else if scope = 1 then 8 else 1))

/-- Are debug and read-back refused (09 R258; 15 R411, R421)? -/
def State.debugLocked (s : State) : Bool := s.husk.debugLocked || s.husk.fuses.debugDisable

/-- Is a region of a scope under REGION_LOAD (09 R258)? -/
def State.scopeLoading (s : State) (scope idx : Nat) : Bool := scopeOk scope idx && (scopeBlocks scope idx).any fun b => (s.region (b / 8)).loading

/-- Set up a read-back; a capture time already past is taken as the first tick after now (09 R255). -/
def State.startReadback (s : State) (id scope idx time addr : Nat) : State :=
  { s with fab := { s.fab with readbacks := s.fab.readbacks ++
      [{ id := id, blocks := scopeBlocks scope idx, time := if time ≤ s.now then s.now + 1 else time, addr := addr }] } }

def bodyReadback (slot : Nat) (a : Bytes) (s : State) : State :=
  let scope := byteAt a 0
  let idx := fld a 2 2
  if s.debugLocked then s.final slot stLOCKED 0 0
  else if !scopeOk scope idx then s.final slot stRANGE 0 0
  else
    let n := (scopeBlocks scope idx).length
    if fld a 16 8 % 8 ≠ 0 ∨ fld a 24 4 < 144 * n ∨ !s.bufOk (fld a 16 8) (fld a 24 4) then s.final slot stBAD_ARG 0 0
    else (s.startReadback slot scope idx (fld a 8 8) (fld a 16 8)).setWork slot .readback

/-- READBACK (09 R255, R258; 12 R348). -/
def execReadback (d : Desc) (s : State) : Host.Outcome State Fault Refusal :=
  queueCmd d s fun s => s.command 0x0602 d
    (fun a => firstBad a ((1, 0xFE) :: rsv 4 4 ++ (if bit (byteAt a 1) 0 then [] else rsv 8 8) ++ rsv 28 4))
    (fun s a => if s.scopeLoading (byteAt a 0) (fld a 2 2) then some stBUSY else none) bodyReadback

/-- Replace a read-back. -/
def State.setReadback (s : State) (id : Nat) (v : Option Readback) : State :=
  { s with fab := { s.fab with readbacks := match v with
    | none => s.fab.readbacks.filter fun r => decide (r.id ≠ id)
    | some v => s.fab.readbacks.map fun r => if r.id = id then v else r } }

/-- Stop the islands of the next blocks of a read-back, one in each region (09 R256). -/
def State.stopNext (s : State) (r : Readback) (regions : List Nat) : State :=
  regions.foldl (fun s g => match r.blocks.find? fun b => decide (b / 8 = g) && !(r.recs.any fun e => e.1 == b) with
    | none => s
    | some b => s.setBlock b { s.block b with stopped := true }) s

/-- The flip-flops of a tree in scope copy their outputs into their shadows. -/
def State.copyTree (s : State) (blocks : List Nat) (g : Nat) : State :=
  { s with fab := { s.fab with shadow :=
    (s.fab.ff.filter fun e => blocks.contains (e.1 / 512) && decide (s.lcTree e.1 = g)).foldl (fun sh e => Tbl.set 0 e.1 e.2 sh) s.fab.shadow } }

/-- The user logic runs up to a capture: a tree's flip-flops are captured at its first edge at or after the capture time, those
of a tree with none at that time; every edge clocks them. -/
def State.runLogic (s : State) (r : Readback) (edges : List (Nat × Nat × List (Nat × Nat))) : State :=
  let s1 := (edges.takeWhile fun e => decide (e.1 < r.time)).foldl (fun (s : State) e => s.clockEdge e.2.1 e.2.2) s
  let late := edges.dropWhile fun e => decide (e.1 < r.time)
  let s2 := ((List.range 8).filter fun g => !s1.treeRuns g || !late.any fun e => decide (e.2.1 = g)).foldl (fun s g => s.copyTree r.blocks g) s1
  (late.foldl (fun (a : State × List Nat) e =>
    let s3 := if a.2.contains e.2.1 ∨ !a.1.treeRuns e.2.1 then a.1 else a.1.copyTree r.blocks e.2.1
    (s3.clockEdge e.2.1 e.2.2, e.2.1 :: a.2)) (s2, [])).1

/-- READBACK_CAPTURE (09 R255-R257): at the capture time the flip-flops in scope copy their outputs into their shadows. `edges`
are the rising edges of the trees since the last capture, in order: the time, the tree, and the hard-block outputs that were high,
each a region and a code (log 22). One read-back captures at a time. -/
def execReadbackCapture (t id : Nat) (edges : List (Nat × Nat × List (Nat × Nat))) (s : State) : Host.Outcome State Fault Refusal :=
  let s := s.at t
  match s.fab.readbacks.find? fun r => r.id == id with
  | none => .next s
  | some r =>
    if r.captured ∨ s.now < r.time ∨ s.fab.readbacks.any (fun x => x.captured) then .next s
    else
      let absent := r.blocks.filter fun b => (s.region (b / 8)).loading || s.clocksGated (b / 8)
      let s2 := ({ s with fab := { s.fab with shadow := [] } } : State).runLogic r edges
      let r' : Readback := { r with captured := true, absent := absent }
      .next ((s2.setReadback id (some r')).stopNext r' (List.range 8))

/-- The 144-byte record of a block (09 R257): a guarded flip-flop reads 0. -/
def State.ffRecord (s : State) (r : Readback) (b : Nat) : Bytes :=
  let absent := r.absent.contains b
  let vals := (s.fab.shadow.filter fun e => decide (e.1 / 512 = b) && !s.isGuarded e.1).map fun e => e.2 * 2 ^ (2 * (e.1 % 512))
  toLE 1 b ++ toLE 1 (if absent then 2 else 1) ++ zeros 6 ++ toLE 8 r.time ++ toLE 128 (if absent then 0 else vals.sum)

/-- READBACK_BLOCK_DONE (09 R256, R257): a block has shifted out its shadows and its island restarts; the last one ends the
read-back. Identifier 0x1000 is the configuration port's (13 R390). -/
def execReadbackBlockDone (t id b : Nat) (s : State) : Host.Outcome State Fault Refusal :=
  let s := s.at t
  match s.fab.readbacks.find? fun r => r.id == id with
  | none => .next s
  | some r =>
    if !r.captured ∨ !r.blocks.contains b ∨ !(s.block b).stopped ∨ r.recs.any (fun e => e.1 == b) then .next s
    else
      let r' : Readback := { r with recs := Tbl.set [] b (s.ffRecord r b) r.recs }
      let s1 := (((s.setBlock b { s.block b with stopped := false }).setReadback id (some r')).stopNext r' [b / 8]).memResume b
      if r'.recs.length < r.blocks.length then .next s1
      else
        let out := r'.recs.flatMap fun e => e.2
        let s2 : State := { s1 with fab := { s1.fab with readbacks := s1.fab.readbacks.filter fun x => decide (x.id ≠ id), shadow := [] } }
        if id = 0x1000 then .next (({ s2 with boot := { s2.boot with cfgOpen := false, cfgResult := 0 } }).emit (.cfg out))
        else .next ((s2.hostWrite r.addr out).final id stOK (r.blocks.length - r.absent.length) r.absent.length)

/-! ### The drive checker (09 R253) -/

/-- The logic cell of a driver, none where its source is no logic cell. -/
def driverLc (k : Nat) (e : Nat × Nat) : Option Nat :=
  match srcOf (driverRegion k e.1) e.2 with
  | .lc n _ => some n
  | _ => none

/-- A driver's place in the log: a source that is no logic cell has none to give (log 15). -/
def State.lcArg (s : State) (l : Option Nat) : Nat × State :=
  match l with
  | some n => (n, s)
  | none => (s.fresh.1 % 65536, s.fresh.2)

/-- FABRIC_CONTENTION (09 R253): the checker finds wire `wire` of group `k` with more than one enabled driver. -/
def execFabricContention (t k wire : Nat) (s : State) : Host.Outcome State Fault Refusal :=
  let s := s.at t
  let ds := s.drivers k wire
  ifUnit (decide (38208 ≤ k) && decide (k < 49152) && decide (wire < 8))
    (if ds.length < 2 then s
     else
       let e := segEntry k
       let l := s.led e
       let s1 : State := { s with fab := { s.fab with disabled := s.fab.disabled ++ [(k, wire)] } }
       let s2 := s1.setLed e { l with state := 3, health := 0, detail := Nat.lor l.detail (2 ^ wire) }
       let s3 := ((ds.filterMap fun d => (driverLc k d).map (· / 512)).eraseDups).foldl (fun s b => s.bump (uBk b) 5) s2
       let a := s3.lcArg (driverLc k (ds.getD 0 (0, 0)))
       let b := a.2.lcArg (driverLc k (ds.getD 1 (0, 0)))
       b.2.log 0x500 0 e (wire + ds.length * 256) (a.1 + b.1 * 65536))

end Sys2Proof.Machine
end

