-- ==== Sys2Proof/Machine/Clocks.lean ====
section
/-! DEFINITION. The timebase, its compare units, the reference, SYNC_IN, user PLLs, global trees and Sheaf snapshots
(10_islands_sheaf.md R272-R287; 09_fabric_memory.md R248-R250; 14_startup_defaults.md R399; 18_setup_registers.md
R480-R484). -/

namespace Sys2Proof.Machine

/-! ### User PLLs and global trees (18 R482, R483; 09 R248-R250) -/

/-- The declared reference frequency in kHz (18 R480). -/
def State.refKHz (s : State) : Nat := [10000, 25000, 50000, 100000].getD s.clk.refFreq 0

/-- Does a user PLL keep the limits of R482 at a reference frequency in kHz? -/
def Upll.ok (p : Upll) (f : Nat) : Bool :=
  let d := p.prediv + 1
  decide (10000 * d ≤ f) && decide (f ≤ 100000 * d) && decide (1000000 * d ≤ f * p.mul) && decide (f * p.mul ≤ 2800000 * d) &&
  decide (f * p.mul ≤ 350000 * d * (p.postdiv + 1))

/-- The fabric that drives a bus counts as stopped when the tree of its VALID flip-flop stops (09 R247; 07 R200). -/
def State.treesChanged (old s : State) : State :=
  s.busStopped fun b => (s.busTree b).any fun g => old.treeRuns g && !s.treeRuns g

/-- UPLL_ENABLE (18 R480, R482): a write of CLK_UPLLCTL. -/
def State.writeUpll (s : State) (n v : Nat) : State :=
  let p := s.upll n
  if bits v 4 8 < 8 then s
  else
    let p1 : Upll := { p with mul := bits v 4 8, prediv := bits v 12 4, postdiv := bits v 16 7 }
    let on := bit v 0 && p1.ok s.refKHz
    let p2 : Upll := { p1 with enable := on, configError := bit v 0 && !on, locked := p.locked && on && decide (p1 = p) }
    State.treesChanged s (s.setUpll n p2)

def execUpllEnable (t n : Nat) (value : Word) (s : State) : Host.Outcome State Fault Refusal :=
  ifUnit (decide (n < 4)) (if (s.at t).hostUp then (s.at t).writeUpll n value.toNat else s.at t)

/-- UPLL_LOCK (18 R482): a started PLL locks. -/
def execUpllLock (t n : Nat) (s : State) : Host.Outcome State Fault Refusal :=
  let s := s.at t
  let p := s.upll n
  ifUnit (decide (n < 4)) (if p.enable && p.ok s.refKHz then s.setUpll n { p with locked := true } else s)

/-- Does a source kind and index exist (18 R480; 16 R431)? -/
def gckIndexOk (kind index : Nat) : Bool :=
  match kind with
  | 0 => decide (index < 4)
  | 1 => decide (index < 192) && decide (index % 16 < 2)
  | 2 => decide (index < 8)
  | 3 => true
  | 4 => true
  | _ => false

/-- A write of CLK_GCKCTL (18 R480, R483). A change of source is a new source, not one declared lost (log 23). -/
def State.writeGckctl (s : State) (g v : Nat) : State :=
  let o := s.gck g
  let kind := bits v 1 3
  let index := bits v 4 10
  if !gckIndexOk kind index ∨ (v % 2 ≠ o.mode ∧ !s.fab.gated) then s
  else
    let n : Gck := { o with mode := v % 2, kind := kind, index := index, div := bits v 14 8, loss := bits v 22 1, deassert := bits v 23 3,
                            activeLow := bit v 26, lost := o.lost && decide (kind = o.kind) && decide (index = o.index),
                            asserted := o.asserted || decide (v % 2 ≠ o.mode) }
    State.treesChanged s (s.setGck g n)

/-- A write of CLK_GCKFREQ. -/
def State.writeGckfreq (s : State) (g v : Nat) : State :=
  let k := bits v 0 19
  if k = 0 ∨ 350000 < k then s else s.setGck g { s.gck g with khz := k }

/-- GCK_SETUP (18 R480, R483). -/
def execGckSetup (t g : Nat) (freqReg : Bool) (value : Word) (s : State) : Host.Outcome State Fault Refusal :=
  let s := s.at t
  ifUnit (decide (g < 8)) (if !s.hostUp then s else if freqReg then s.writeGckfreq g value.toNat else s.writeGckctl g value.toNat)

/-- Is a frequency more than 10 % from the declared one (09 R249)? -/
def offBy10 (k declared : Nat) : Bool := decide (10 * k < 9 * declared) || decide (11 * declared < 10 * k)

/-- GCK_LOSS (09 R249): four windows in a row have measured `khz`. -/
def execGckLoss (t g khz : Nat) (s : State) : Host.Outcome State Fault Refusal :=
  let s := s.at t
  let v := s.gck g
  ifUnit (decide (g < 8))
    (if v.mode ≠ 0 ∨ v.lost ∨ !offBy10 khz v.khz then s
     else State.treesChanged s (((s.setGck g { v with lost := true }).bump (uGck g) 0).log 0x505 4 0 g khz))

/-- GCK_RESTORED (09 R249): the source has been within 10 % for 100 windows. -/
def execGckRestored (t g khz : Nat) (s : State) : Host.Outcome State Fault Refusal :=
  let s := s.at t
  let v := s.gck g
  ifUnit (decide (g < 8))
    (if v.mode ≠ 0 ∨ !v.lost ∨ offBy10 khz v.khz then s
     else (s.setGck g { v with lost := false }).log 0x506 4 0 g khz)

/-- RESET_TREE_ASSERT (09 R241, R250, R251): a RESET tree's source asserts; flip-flops in ASYNC mode that select the tree
take their reset values, guarded ones 0. -/
def execResetTreeAssert (t g : Nat) (s : State) : Host.Outcome State Fault Refusal :=
  let s := s.at t
  let v := s.gck g
  ifUnit (decide (g < 8))
    (if v.mode ≠ 1 ∨ v.asserted then s
     else
       let s1 := s.setGck g { v with asserted := true }
       (((List.range 8).flatMap fun r => if s1.clocksGated r then [] else (s1.lcsOf r).filter fun n => s1.lcResetBy n g && s1.lcAsync n)).foldl
         (fun s n => s.setFF n (if s.isGuarded n then 0 else s.lcResetVal n)) s1)

/-- RESET_TREE_DEASSERT (09 R250): the second rising edge of its CLOCK tree after its source's deassertion; never before the
reset release of start-up. -/
def execResetTreeDeassert (t g : Nat) (s : State) : Host.Outcome State Fault Refusal :=
  let s := s.at t
  let v := s.gck g
  ifUnit (decide (g < 8))
    (if v.mode ≠ 1 ∨ s.time.step < 9 ∨ !s.treeRuns v.deassert then s else s.setGck g { v with asserted := false })

/-! ### The reference (10 R274; 18 R481) -/

/-- A write of CLK_REFCTL: the timebase PLL relocks as for a returning reference, and a user PLL that its new reference
takes out of R482 stops. -/
def State.writeRefctl (s : State) (v : Nat) : State :=
  if 1 < bits v 0 2 then s
  else
    let s1 : State := { s with clk := { s.clk with refSource := bits v 0 2, refFreq := bits v 2 2, lock := s.clk.lock - 2 * bits s.clk.lock 1 1 } }
    let s2 := (List.range 4).foldl (fun s n => let p := s.upll n; s.setUpll n { p with locked := p.locked && p.ok s.refKHz }) s1
    State.treesChanged s s2

/-- REFERENCE_SELECT (18 R481). -/
def execReferenceSelect (t : Nat) (value : Word) (s : State) : Host.Outcome State Fault Refusal :=
  .next (if (s.at t).hostUp then (s.at t).writeRefctl value.toNat else s.at t)

/-- The reference is lost: the timebase PLL runs free (10 R274). -/
def State.loseRef (s : State) : State :=
  (({ s with clk := { s.clk with refLost := true, lock := s.clk.lock - 2 * bits s.clk.lock 1 1 } }).bump 0 8).log 0x507 4 0 0 0

/-- REF_LOST (10 R274). -/
def execRefLost (t : Nat) (s : State) : Host.Outcome State Fault Refusal :=
  let s := s.at t
  .next (if s.clk.refLost ∨ !s.time.running then s else s.loseRef)

/-- REF_RESTORED (10 R274): the reference has been valid for 10 ms, and the PLL locks to it with no step. -/
def execRefRestored (t : Nat) (s : State) : Host.Outcome State Fault Refusal :=
  let s := s.at t
  .next (if !s.time.running ∨ (!s.clk.refLost ∧ bit s.clk.lock 1) then s
    else { s with clk := { s.clk with refLost := false, lock := Nat.lor s.clk.lock 2 } })

/-! ### The timebase and SYNC_IN (10 R272-R276; 14 R399) -/

/-- TIMEBASE_UPDATE (10 R273): the master value goes to every island; the model's copies are exact (log 9). -/
def execTimebaseUpdate (t : Nat) (s : State) : Host.Outcome State Fault Refusal := .next (s.at t)

/-- The first value above `now` that whole periods lead to; none without a period (10 R277; 18 R484). -/
def Cmp.advance (c : Cmp) (now : Nat) : Cmp :=
  if now < c.value then c
  else if c.period = 0 then { c with armed := false }
  else { c with value := c.value + ((now - c.value) / c.period + 1) * c.period }

/-- What follows a load that has changed the timebase (10 R276, R277; log 23): armed compare units move on, the DDS keep their
phase, DAC channels update at the new multiples of P, and every converter that is not OFF waits for re-phasing. -/
def State.stepped (s : State) (old : Nat) : State :=
  let s1 := (List.range 64).foldl (fun s u => let c := s.cmp u; if c.armed then s.setCmp u (c.advance s.now) else s) s
  let s2 := (List.range 64).foldl (fun s n =>
    let d := s.dac n
    s.setDac n { d with dds := if d.dds.running then { d.dds with phase := d.dds.acc old, ref := s.now } else d.dds,
                        lastUpd := none, lastTick := none, lastConv := none }) s1
  let s3 : State := { s2 with clk := { s2.clk with rephasing := true } }
  (List.range 192).foldl (fun s c => let v := s.conv c; if v.cfg.mode = 0 then s else s.setConv c { v with rephase := true }) s3

/-- SYNC_IN acts as LOAD at an edge (10 R275): answers the old value. -/
def State.loadTb (s : State) : State × Nat :=
  let old := (s.now + Config.syncLatency) % 2 ^ 64
  let new := (s.clk.tbPreset + Config.syncLatency) % 2 ^ 64
  let s1 : State := { s with time := { s.time with timebase := new }, clk := { s.clk with syncLast := new } }
  (if new = old then s1 else s1.stepped old, old)

/-- An edge checked as in CHECK mode (10 R275). -/
def State.checkSync (s : State) : State :=
  let d : Int := (s.now : Int) - s.clk.tbPreset
  let s1 : State := { s with clk := { s.clk with syncLast := s.now } }
  if 1 < d.natAbs then (s1.bump 0 7).log 0x50A 4 0 (ofI 64 d) 0 else s1

/-- Is SYNC_IN under R399: from step 3 until DONE is seen high? -/
def State.syncBoot (s : State) : Bool := s.time.running && decide (3 ≤ s.time.step) && decide (s.time.step ≤ 6)

/-- SYNC_IN_EDGE (10 R275, R276; 14 R399). -/
def execSyncInEdge (t : Nat) (s : State) : Host.Outcome State Fault Refusal :=
  let s := s.at t
  .next (if !s.time.running then s
    else if s.syncBoot then
      if s.clk.bootSync then s.checkSync
      else
        let r := s.loadTb
        ({ r.1 with clk := { r.1.clk with bootSync := true } }).log 0x509 4 0 r.1.now 0
    else match s.clk.syncMode with
      | 1 =>
        let r := s.loadTb
        let s1 : State := { r.1 with clk := { r.1.clk with syncMode := 2 } }
        if r.1.now = r.2 then s1 else s1.log 0x508 4 0 r.2 r.1.now
      | 2 => s.checkSync
      | _ => s)

/-- SYNC_IN_MISSING (10 R275): in CHECK mode an edge has been missing for 1.5 periods. -/
def execSyncInMissing (t : Nat) (s : State) : Host.Outcome State Fault Refusal :=
  let s := s.at t
  let check := if s.syncBoot then s.clk.bootSync else decide (s.clk.syncMode = 2)
  let p := s.clk.syncPeriod
  .next (if !check ∨ p = 0 ∨ 2 * s.now < 2 * s.clk.syncLast + 3 * p then s
    else (({ s with clk := { s.clk with syncLast := s.clk.syncLast + p } }).bump 0 7).log 0x50A 4 0 0 1)

/-- TIMEBASE_REPHASE (10 R276): re-phasing ends. The step is a change under 05 R148 with A = 0 at each converter's next
output instant, and its next sample carries GAP. -/
def execTimebaseRephase (t : Nat) (s : State) : Host.Outcome State Fault Refusal :=
  let s := s.at t
  .next (if !s.clk.rephasing then s
    else
      let s1 : State := { s with clk := { s.clk with rephasing := false } }
      (List.range 192).foldl (fun s c =>
        let v := s.conv c
        if v.rephase then (s.setConv c { v with rephase := false, markGap := true }).settleConv c (0, 1) else s) s1)

/-- A write of CLK_SYNCCTL (10 R275; 18 R480). -/
def State.writeSyncctl (s : State) (v : Nat) : State :=
  if 2 < bits v 0 2 then s else { s with clk := { s.clk with syncMode := bits v 0 2, syncLast := s.now } }

/-- SYNC_MODE_WRITE (10 R275). -/
def execSyncModeWrite (t : Nat) (value : Word) (s : State) : Host.Outcome State Fault Refusal :=
  .next (if (s.at t).hostUp then (s.at t).writeSyncctl value.toNat else s.at t)

/-! ### Compare units (10 R277; 18 R484) -/

/-- The pins that carry a sync alternate and drive: 0 SYNC_OUT, 1 TAMPER_STATE (16 R432, R436). -/
def State.syncPins (s : State) (idx : Nat) : List Nat :=
  (s.pin.pins.filter fun e => e.2.mapped && !e.2.hiz && (match e.2.own with
    | none => false
    | some m => decide (m.fn = 4) && decide (m.idx = idx))).map (·.1)

/-- TIMEBASE_COMPARE (10 R277; 16 R436): a unit fires, and unit 63 drives SYNC_OUT. -/
def execTimebaseCompare (t u : Nat) (s : State) : Host.Outcome State Fault Refusal :=
  let s := s.at t
  let c := s.cmp u
  ifUnit (decide (u < 64))
    (if !c.armed ∨ !s.time.running ∨ s.now ≠ c.value then s
     else
       let s1 := (s.setCmp u (c.advance s.now)).emit (.event 3 u)
       if u = 63 then s1.emit (.syncOut (s1.syncPins 0)) else s1)

/-- The halves of a 64-bit register (18 R471): the last value written to _LO, keyed by the offset of _HI. -/
def State.holdLo (s : State) (hi v : Nat) : State := { s with host := { s.host with loHold := Tbl.set 0 hi v s.host.loHold } }
def State.committed (s : State) (hi v : Nat) : Nat := Tbl.get 0 hi s.host.loHold + 2 ^ 32 * v

/-- The offset of a unit's compare registers. -/
def cmpOff (u : Nat) : Nat := 0x1100 + 12 * u

def State.writeCmpLo (s : State) (u v : Nat) : State := (s.setCmp u { s.cmp u with armed := false }).holdLo (cmpOff u + 4) v
def State.writeCmpHi (s : State) (u v : Nat) : State :=
  s.setCmp u (({ s.cmp u with value := s.committed (cmpOff u + 4) v, armed := true } : Cmp).advance s.now)
def State.writeCmpPeriod (s : State) (u v : Nat) : State := s.setCmp u { s.cmp u with period := v }
def State.writeCmpArm (s : State) (reg v : Nat) : State :=
  (List.range 32).foldl (fun s i => if bit v i then s.setCmp (32 * reg + i) { s.cmp (32 * reg + i) with armed := false } else s) s

/-- CMP_LO_WRITE (18 R484). -/
def execCmpLoWrite (t u : Nat) (value : Word) (s : State) : Host.Outcome State Fault Refusal :=
  ifUnit (decide (u < 64)) (if (s.at t).hostUp then (s.at t).writeCmpLo u value.toNat else s.at t)

/-- CMP_HI_WRITE (18 R484). -/
def execCmpHiWrite (t u : Nat) (value : Word) (s : State) : Host.Outcome State Fault Refusal :=
  ifUnit (decide (u < 64)) (if (s.at t).hostUp then (s.at t).writeCmpHi u value.toNat else s.at t)

/-- CMP_PERIOD_WRITE (18 R484). -/
def execCmpPeriodWrite (t u : Nat) (value : Word) (s : State) : Host.Outcome State Fault Refusal :=
  ifUnit (decide (u < 64)) (if (s.at t).hostUp then (s.at t).writeCmpPeriod u value.toNat else s.at t)

/-- CMP_DISARM (18 R480). -/
def execCmpDisarm (t reg : Nat) (value : Word) (s : State) : Host.Outcome State Fault Refusal :=
  ifUnit (decide (reg < 2)) (if (s.at t).hostUp then (s.at t).writeCmpArm reg value.toNat else s.at t)

/-! ### Sheaf snapshots (10 R278-R285; 12 R349) -/

/-- Inject the token of the snapshot that waits first (10 R278, R281). -/
def State.injectNext (s : State) : State :=
  match s.sheaf.run, s.sheaf.wait with
  | none, (slot, epoch, flags, addr) :: l =>
    { s with sheaf := { s.sheaf with run := some { slot := slot, epoch := epoch, flags := flags, addr := addr, injected := s.now }, wait := l } }
  | _, _ => s

def bodySnapshot (slot : Nat) (a : Bytes) (s : State) : State :=
  let e := (s.sheaf.epoch + 1) % 2 ^ 32
  let s1 : State := { s with sheaf := { s.sheaf with epoch := e } }
  if fld a 4 4 < 53440 ∨ fld a 8 8 % 8 ≠ 0 ∨ !s.bufOk (fld a 8 8) (fld a 4 4) then s1.final slot stBAD_ARG 0 0
  else (({ s1 with sheaf := { s1.sheaf with wait := s1.sheaf.wait ++ [(slot, e, byteAt a 0, fld a 8 8)] } }).setWork slot .snapshot).injectNext

/-- SNAPSHOT (10 R278, R281; 12 R349). -/
def execSnapshot (d : Desc) (s : State) : Host.Outcome State Fault Refusal :=
  queueCmd d s fun s => s.command 0x0700 d (fun a => firstBad a ((0, 0xFC) :: rsv 1 3))
    (fun s _ => if 16 ≤ s.sheaf.wait.length then some stBUSY else none) bodySnapshot

/-- Is a unit power-gated: a converter that has been OFF (10 R280)? -/
def State.unitGated (s : State) (u : Nat) : Bool := decide (81 ≤ u) && decide (u < 273) && (s.conv (u - 81)).gated

/-- Does read-back stop the island of a unit (09 R256; 10 R283)? -/
def State.unitStopped (s : State) (u : Nat) : Bool := decide (9 ≤ u) && decide (u < 73) && (s.block (u - 9)).stopped

/-- SHEAF_TOKEN (10 R278-R283): the token reaches unit `u` for the first time and the unit takes its cut; a power-gated one
forwards it and is absent. -/
def execSheafToken (t u : Nat) (s : State) : Host.Outcome State Fault Refusal :=
  let s := s.at t
  ifUnit (decide (u < 417)) (match s.sheaf.run with
    | none => s
    | some p =>
      if p.cut.contains u ∨ p.absent.contains u ∨ s.unitStopped u then s
      else if s.unitGated u then { s with sheaf := { s.sheaf with run := some { p with absent := p.absent ++ [u] } } }
      else s.cutUnit p u)

/-- An entry of the snapshot table (10 R285). -/
def Snap.entry (p : Snap) (i : Nat) : Nat :=
  let u := i / 16
  let k := i % 16
  if (unitSlots u).1 ≤ k then 0
  else
    let c := Tbl.get {} i p.shadow
    let err := isErrCtr u k
    let out := p.timedOut.contains u
    pack [(c.val, 0), (b2n (c.flag && !err), 48), (b2n (c.flag && err), 49), (b2n (out || p.absent.contains u), 50), (b2n out, 51), (b2n err, 52), (1, 53)]

/-- The snapshot table (10 R284): `last` the time of the last acknowledgement, or of the timeout. -/
def Snap.table (p : Snap) (last : Nat) : Bytes :=
  toLE 4 0x53484146 ++ toLE 2 1 ++ toLE 2 417 ++ toLE 4 p.epoch ++ toLE 4 6672 ++ toLE 8 p.injected ++ toLE 8 last ++
  toLE 2 (p.absent.length + p.timedOut.length) ++ toLE 2 p.timedOut.length ++ toLE 1 (p.flags % 4) ++ zeros 27 ++
  (List.range 6672).flatMap fun i => toLE 8 (p.entry i)

/-- End the running snapshot and inject the next. -/
def State.endSnapshot (s : State) (p : Snap) (status : Nat) : State :=
  let s1 := s.hostWrite p.addr (p.table s.now)
  let s2 : State := { s1 with sheaf := { s1.sheaf with run := none } }
  (s2.final p.slot status p.epoch (p.absent.length + p.timedOut.length)).injectNext

/-- The units that have not acknowledged. -/
def Snap.missing (p : Snap) : List Nat := (List.range 417).filter fun u => !p.cut.contains u && !p.absent.contains u

/-- SNAPSHOT_COMPLETE (10 R281): every unit has acknowledged. -/
def execSnapshotComplete (t : Nat) (s : State) : Host.Outcome State Fault Refusal :=
  let s := s.at t
  .next (match s.sheaf.run with
    | none => s
    | some p => if !p.missing.isEmpty ∨ s.chip.restarting ∨ s.chip.failed then s else s.endSnapshot p stOK)

/-- SHEAF_TIMEOUT (10 R280): 1 ms after injection units have not acknowledged. -/
def execSheafTimeout (t : Nat) (s : State) : Host.Outcome State Fault Refusal :=
  let s := s.at t
  .next (match s.sheaf.run with
    | none => s
    | some p =>
      if p.missing.isEmpty ∨ s.now < p.injected + 250000 ∨ s.chip.restarting ∨ s.chip.failed then s
      else
        let s1 := p.missing.foldl (fun s u => (s.bump 0 9).log 0x108 4 u p.epoch 0) s
        s1.endSnapshot { p with timedOut := p.missing } stDEGRADED)

end Sys2Proof.Machine
end

