-- ==== Sys2Proof/Machine/Pins.lean ====
section
/-! DEFINITION. The pin controller, the hard serial ports and the user serial lanes (16_pins_ports.md R427-R453;
12_command_reference.md R354, R355; 18_setup_registers.md R485-R487). -/

namespace Sys2Proof.Machine

/-! ### The function switch (16 R438, R440-R442) -/

/-- The control inputs of trigger inputs follow their signals, with no edge (16 R438). -/
def State.syncTI (s : State) (gs : List Nat) : State :=
  (gs.filter fun g => decide (g < 32)).foldl (fun s g => s.setCtl (2 * 2 ^ 28 + g) (s.tiLevel g)) s

/-- Does a mapping wait for its region's load to end (16 R442; 13 R388)? -/
def State.mapWaits (s : State) (m : PinMapE) : Bool :=
  decide (m.fn = 1) && ((s.region (m.idx / 128)).isolated || (s.region (m.idx / 128)).fallow)

/-- The input signals of a mapping, if any. -/
def State.sigsOf (s : State) (m : Option PinMapE) : List Nat := (m.bind s.inSig).toList

/-- Steps 1 to 4 of a pin's switch: to a new mapping, or to the one recorded. -/
def State.switchPin (s : State) (p : Nat) (m : Option PinMapE) : State :=
  let v := s.pinS p
  let own := match m with
    | some x => some x
    | none => v.own
  let live : Bool := match own with
    | none => false
    | some x => !s.mapWaits x
  let s1 := s.setPinS p { v with own := own, mapped := live, hiz := (s.bank (p / 16)).fault }
  (s1.syncTI (s.sigsOf v.own ++ s.sigsOf own)).forceGuards

/-- Queue a switch back to the mapping recorded. -/
def State.reswitch (s : State) (ps : List Nat) : State :=
  { s with pin := { s.pin with switches := s.pin.switches ++ ps.map fun p => { slot := none, pin := p, map := none } } }

/-- Queue the switches of a PIN_MAP, in entry order. -/
def State.queueMaps (s : State) (slot : Option Nat) (l : List (Nat × PinMapE)) : State :=
  { s with pin := { s.pin with switches := s.pin.switches ++
      (l.mapIdx fun i e => { slot := slot, pin := e.1, map := some e.2, group := if i + 1 = l.length then l.map (·.1) else [] }) } }

/-- The input signals that the given pins feed and that several pins map. -/
def State.dupSigs (s : State) (ps : List Nat) : List Nat :=
  ((ps.flatMap fun p => s.sigsOf (s.pinS p).own).eraseDups).filter fun g => decide (2 ≤ (s.sigPins g).length)

/-- A PIN_MAP that has switched the pins `ps` ends (12 R354; 16 R440). The manual states no number of an input signal
(log 15). -/
def State.endPinMap (s : State) (slot : Option Nat) (ps : List Nat) (status : Nat) : State :=
  let dups := s.dupSigs ps
  let s1 := dups.foldl (fun s g =>
    let f := s.fresh
    let l := f.2.sigPins g
    f.2.log 0x901 4 0 f.1 (l.getD 0 0 + 256 * l.getD 1 0)) s
  match slot with
  | none => s1
  | some h => s1.final h (if status = stOK ∧ !dups.isEmpty then stDEGRADED else status) ps.length dups.length

/-- Entries of a PIN_MAP not yet switched are skipped (12 R333, R357; 16 R442). -/
def State.stopPinMap (s : State) (slot status : Nat) : State :=
  let mine := s.pin.switches.filter fun e => decide (e.slot = some slot)
  let all := mine.flatMap (·.group)
  let s1 : State := { s with pin := { s.pin with switches := s.pin.switches.filter fun e => decide (e.slot ≠ some slot) } }
  s1.endPinMap (some slot) (all.take (all.length - mine.length)) status

/-- FUNCTION_SWITCH (16 R441): the switch at the head of the pin controller's queue ends. -/
def execFunctionSwitch (t : Nat) (s : State) : Host.Outcome State Fault Refusal :=
  let s := s.at t
  match s.pin.switches with
  | [] => .next s
  | e :: rest =>
    let s1 := ({ s with pin := { s.pin with switches := rest } } : State).switchPin e.pin e.map
    .next (if e.group.isEmpty then s1 else s1.endPinMap e.slot e.group stOK)

/-- Pins take their configuration-time state (13 R379, R380, R384; 16 R442): those that `p` says; their mapping is kept or
forgotten. -/
def State.pinsToConfig (s : State) (p : PinMapE → Bool) (keep : Bool) : State :=
  (s.pin.pins.filter fun e => match e.2.own with
    | none => false
    | some m => p m).foldl (fun s e =>
      let v := s.pinS e.1
      (s.setPinS e.1 { v with own := if keep then v.own else none, mapped := false }).syncTI (s.sigsOf v.own)) s

/-! ### PIN_MAP and GPIO (12 R354, R355; 16 R439) -/

/-- The entries of a PIN_MAP, read with its argument record. -/
def State.pinEntries (s : State) (a entries : Bytes) : Bytes := s.hostRead (fld a 8 8) (8 * min (byteAt a 0) 64) entries

/-- Is a reserved byte set in the entries (00 R10)? -/
def entriesBad (b : Bytes) (n : Nat) : Bool := (firstBad b ((List.range n).flatMap fun i => rsv (8 * i + 5) 3)).isSome

def bodyPinMap (entries : Bytes) (slot : Nat) (a : Bytes) (s : State) : State :=
  let n := byteAt a 0
  if fld a 8 8 % 8 ≠ 0 ∨ !s.bufOk (fld a 8 8) (8 * n) then s.final slot stBAD_ARG 0 0
  else if n = 0 ∨ 64 < n then s.final slot stRANGE 0 0
  else
    let b := s.pinEntries a entries
    let l := (List.range n).map fun i => readPinMap b i
    let st := if entriesBad b n then stBAD_ARG else s.mapsStatus l
    if st ≠ stOK then s.final slot st 0 0 else (s.queueMaps (some slot) l).setWork slot .pins

/-- PIN_MAP (12 R354; 16 R432, R433). -/
def execPinMap (d : Desc) (entries : Bytes) (s : State) : Host.Outcome State Fault Refusal :=
  queueCmd d s fun s => s.command 0x0900 d
    (fun a => firstBad a (rsv 1 7)) (fun _ _ => none) (bodyPinMap entries)

/-- The masked bits of a word that name GPIO outputs of a bank. -/
def State.gpioMask (s : State) (b word : Nat) : Nat :=
  (((List.range 16).filter fun i => bit word (16 + i) && s.gpioOut (16 * b + i)).map (2 ^ ·)).sum

/-- A masked write to a bank's output register (16 R439). -/
def State.maskedOut (s : State) (b word : Nat) : State :=
  let m := s.gpioMask b word
  let v := s.bank b
  s.setBank b { v with out := v.out - Nat.land v.out m + Nat.land (word % 65536) m }

def bodyGpio (slot : Nat) (a : Bytes) (s : State) : State :=
  let b := byteAt a 0
  let w := fld a 4 4
  if 12 ≤ b then s.final slot stRANGE 0 0
  else
    let s1 := s.maskedOut b w
    s1.final slot stOK (s1.bank b).out (w / 65536 - s.gpioMask b w)

/-- GPIO_WRITE_MASKED (12 R355; 16 R439). -/
def execGpioWriteMasked (d : Desc) (s : State) : Host.Outcome State Fault Refusal :=
  queueCmd d s fun s => s.command 0x0901 d (fun a => firstBad a (rsv 1 3)) (fun _ _ => none) bodyGpio

/-- Writes of PIN_OUTn and PIN_OUT_MASKEDn. -/
def State.writePinOut (s : State) (b v : Nat) : State := s.setBank b { s.bank b with out := v % 65536 }

/-- PIN_OUT (16 R439). -/
def execPinOut (t b : Nat) (value : Word) (s : State) : Host.Outcome State Fault Refusal :=
  ifUnit (decide (b < 12)) (if (s.at t).hostUp then (s.at t).writePinOut b value.toNat else s.at t)

/-- PIN_OUT_MASKED (16 R439). -/
def execPinOutMasked (t b : Nat) (value : Word) (s : State) : Host.Outcome State Fault Refusal :=
  ifUnit (decide (b < 12)) (if (s.at t).hostUp then (s.at t).maskedOut b value.toNat else s.at t)

/-! ### Banks (16 R427-R430; 18 R485-R487) -/

/-- The pins of a bank whose mapping is in force. -/
def State.mappedIn (s : State) (b : Nat) : List Nat :=
  (s.pin.pins.filter fun e => decide (e.1 / 16 = b) && e.2.mapped).map (·.1)

/-- A write of the first register of a bank (18 R485, R486). -/
def State.writeBank (s : State) (b v : Nat) : State :=
  if 4 < bits v 0 3 then s
  else
    let o := s.bank b
    let s1 := s.setBank b { o with vccio := bits v 0 3, cfgPull := bits v 4 2 }
    if bits v 0 3 = o.vccio then s1 else s1.reswitch (s1.mappedIn b)

/-- PIN_BANK_VCCIO (18 R486; 16 R427). -/
def execPinBankVccio (t b : Nat) (value : Word) (s : State) : Host.Outcome State Fault Refusal :=
  ifUnit (decide (b < 12)) (if (s.at t).hostUp then (s.at t).writeBank b value.toNat else s.at t)

/-- A write of PIN_DIFFk (18 R485, R487). -/
def State.writeDiff (s : State) (k v : Nat) : State :=
  if (List.range 8).any fun i => decide (2 < bits v (4 * i) 2) || !diffInOk (bits v (4 * i) 2) (s.bank k).vccio then s
  else
    let o := Tbl.get 0 k s.pin.diff
    let n := ((List.range 8).map fun i => bits v (4 * i) 3 * 2 ^ (4 * i)).sum
    let changed := (List.range 8).filter fun i => decide (bits n (4 * i) 3 ≠ bits o (4 * i) 3) && (s.pinS (16 * k + 2 * i)).own.isSome
    ({ s with pin := { s.pin with diff := Tbl.set 0 k n s.pin.diff } } : State).reswitch (changed.map fun i => 16 * k + 2 * i)

/-- PIN_DIFF (18 R487; 16 R430). -/
def execPinDiff (t k : Nat) (value : Word) (s : State) : Host.Outcome State Fault Refusal :=
  ifUnit (decide (k < 4)) (if (s.at t).hostUp then (s.at t).writeDiff k value.toNat else s.at t)

/-- A declared VCCIO in mV (16 R427). -/
def vccioMv (c : Nat) : Nat := [1200, 1500, 1800, 2500, 3300].getD c 0

/-- Is a measured VCCIO within 10 % of its declaration (16 R428)? -/
def Bank.near (b : Bank) (mv : Nat) : Bool := !offBy10 mv (vccioMv b.vccio)

/-- The pins that bank rules act on: the host pins are no user pins (16 R448). -/
def State.bankPins (s : State) (b : Nat) : List Nat := ((List.range 16).map (16 * b + ·)).filter fun p => !s.time.localMode || decide (p < 187)

/-- BANK_SUPPLY_FAULT (16 R428). -/
def execBankSupplyFault (t b mv : Nat) (s : State) : Host.Outcome State Fault Refusal :=
  let s := s.at t
  let v := s.bank b
  ifUnit (decide (b < 12))
    (if !v.powered ∨ v.fault ∨ v.near mv then s
     else
       let s1 := s.setBank b { v with fault := true, measured := mv }
       let s2 := (s1.bankPins b).foldl (fun s p => s.setPinS p { s.pinS p with hiz := true }) s1
       (s2.syncTI ((s2.bankPins b).flatMap fun p => s2.sigsOf (s2.pinS p).own)).log 0x900 4 0 b mv)

/-- BANK_SUPPLY_RESTORED (16 R428): each pin returns through the function switch. -/
def execBankSupplyRestored (t b mv : Nat) (s : State) : Host.Outcome State Fault Refusal :=
  let s := s.at t
  let v := s.bank b
  ifUnit (decide (b < 12))
    (if !v.fault ∨ !v.near mv then s
     else
       let s1 := s.setBank b { v with fault := false, measured := mv }
       let s2 := ((s1.bankPins b).filter fun p => (s1.pinS p).own.isNone).foldl (fun s p => s.setPinS p { s.pinS p with hiz := false }) s1
       s2.reswitch ((s2.bankPins b).filter fun p => (s2.pinS p).hiz))

/-- PIN_INPUT_CHANGE (16 R435, R437): a level passes its filter; a pin of an unpowered bank reads 0. An edge of a trigger
input goes to the trigger logic. -/
def execPinInputChange (t p : Nat) (level : Bool) (s : State) : Host.Outcome State Fault Refusal :=
  let s := s.at t
  let v := s.pinS p
  ifUnit (decide (p < 192))
    (if v.level = level ∨ (level ∧ !(s.bank (p / 16)).powered) then s
     else
       let s1 := s.setPinS p { v with level := level }
       match (s1.sigsOf v.own).find? fun g => decide (g < 32) && decide (s1.sigPin g = some p) with
       | some g => s1.emit (.event 2 g)
       | none => s1)

/-! ### Hard serial ports (16 R445-R447) -/

/-- Does the Straw persona run (14 R403)? -/
def State.straw (s : State) : Bool := s.boot.loaded.straw && !s.boot.fallow

/-- Does the management core own a port (16 R447)? -/
def State.portOwned (s : State) (k : Nat) : Bool := (decide (k = 4) && s.straw) || (decide (k = 1) && s.time.localMode)

def Port.enabled (p : Port) : Bool := bit p.mode 4

/-- The STATUS word of a port; BUSY while an enabled port has a byte to send (log 24). -/
def Port.status (p : Port) : Nat :=
  b2n (decide (p.tx.length = 32)) + 2 * b2n p.tx.isEmpty + 4 * b2n p.rx.isEmpty + 8 * b2n p.overrun + 16 * b2n (p.enabled && !p.tx.isEmpty) +
  32 * b2n p.error + 64 * b2n p.arbLost + 128 * b2n p.timeout

/-- The IRQ output of a port. -/
def Port.irq (p : Port) : Bool := !p.rx.isEmpty || p.overrun || p.error || p.arbLost || p.timeout

/-- A port answers a request of fabric logic. -/
def State.portReply (s : State) (k data : Nat) (err : Bool) : State :=
  (s.setPort k { s.port k with reply := { err := err, rdata := data } }).emit (.fabric (64 + k) data err)

/-- An answer with ERR, whose data the manual does not state (log 15). -/
def State.portErr (s : State) (k : Nat) : State :=
  let f := s.fresh
  f.2.portReply k (f.1 % 65536) true

/-- A request of fabric logic on a port: none while its region's logic stands still, ERR while the management core owns the
port. -/
def State.portReq (s : State) (k : Nat) (f : State → State) : Host.Outcome State Fault Refusal :=
  ifUnit (decide (k < 6)) (if s.clocksGated k then s else if s.portOwned k then s.portErr k else f s)

/-- PORT_STATUS (16 R447). -/
def execPortStatus (t k : Nat) (s : State) : Host.Outcome State Fault Refusal :=
  (s.at t).portReq k fun s =>
    let p := s.port k
    (s.setPort k { p with overrun := false, error := false, arbLost := false, timeout := false }).portReply k p.status false

/-- PORT_TX (16 R447). -/
def execPortTx (t k wdata : Nat) (s : State) : Host.Outcome State Fault Refusal :=
  (s.at t).portReq k fun s =>
    let p := s.port k
    if 32 ≤ p.tx.length then s.portErr k else (s.setPort k { p with tx := p.tx ++ [wdata % 4096] }).portReply k 0 false

/-- PORT_RX (16 R447). -/
def execPortRx (t k : Nat) (s : State) : Host.Outcome State Fault Refusal :=
  (s.at t).portReq k fun s =>
    let p := s.port k
    match p.rx with
    | [] => s.portErr k
    | e :: rest => (s.setPort k { p with rx := rest }).portReply k (e.1 + 256 * b2n e.2) false

/-- A port after a CONTROL write, where the register is defined for it and the value within its limits (16 R447; log 24). -/
def Port.control (p : Port) (k wdata : Nat) : Option Port :=
  let v := wdata % 4096
  let kind := portKind k
  let divOk (d : Nat) : Bool := if kind = 0 then decide (1 ≤ d) else if kind = 1 then true else decide (256 ≤ d)
  match wdata / 4096 with
  | 0 =>
    let mask := [0x1F, 0x17, 0x7F].getD kind 0
    if Nat.land v mask ≠ v ∨ (kind = 2 ∧ v % 4 = 3) then none else some { p with mode := v }
  | 1 => let d := p.div / 4096 * 4096 + v; if divOk d then some { p with div := d } else none
  | 2 => let d := p.div % 4096 + 4096 * v; if divOk d then some { p with div := d } else none
  | 3 => if kind = 1 ∧ v < 1024 then some { p with addr := v } else none
  | _ => none

/-- PORT_CONTROL (16 R445, R447). -/
def execPortControl (t k wdata : Nat) (s : State) : Host.Outcome State Fault Refusal :=
  (s.at t).portReq k fun s =>
    match (s.port k).control k (wdata % 65536) with
    | none => s.portErr k
    | some p => (s.setPort k p).portReply k 0 false

/-- PORT_BYTE_RECEIVED (16 R447): a byte that finds the receive FIFO full is lost. -/
def execPortByteReceived (t k byte : Nat) (err : Bool) (s : State) : Host.Outcome State Fault Refusal :=
  let s := s.at t
  let p := s.port k
  let e := err && decide (portKind k ≠ 0)
  let b := if portKind k = 2 ∧ bit p.mode 3 then byte % 128 else byte % 256
  ifUnit (decide (k < 6))
    (if !p.enabled ∨ s.portOwned k then s
     else s.setPort k { p with rx := if p.rx.length < 32 then p.rx ++ [(b, e)] else p.rx,
                               overrun := p.overrun || decide (32 ≤ p.rx.length), error := p.error || e })

/-- PORT_BYTE_SENT (16 R447): the entry at the head of the transmit FIFO has been shifted out. -/
def execPortByteSent (t k : Nat) (arbLost nack : Bool) (s : State) : Host.Outcome State Fault Refusal :=
  let s := s.at t
  let p := s.port k
  let i2c := decide (portKind k = 1)
  ifUnit (decide (k < 6))
    (if !p.enabled ∨ s.portOwned k then s
     else match p.tx with
       | [] => s
       | w :: rest =>
         let s1 := s.setPort k { p with tx := rest, arbLost := p.arbLost || (i2c && arbLost), error := p.error || (i2c && nack),
                                        cs := if portKind k = 0 ∧ !bit p.mode 0 ∧ !bit w 8 then some (bits w 9 2) else none }
         if (i2c ∧ (bit w 10 ∨ arbLost)) ∨ (portKind k = 2 ∧ bit w 8) then s1
         else s1.emit (.port k (toLE 1 (if portKind k = 2 ∧ bit p.mode 3 then w % 128 else w))))

/-- SMBUS_TIMEOUT (16 R445, R447). -/
def execSmbusTimeout (t k : Nat) (s : State) : Host.Outcome State Fault Refusal :=
  let s := s.at t
  let p := s.port k
  ifUnit (decide (k < 6)) (if portKind k = 1 ∧ p.enabled ∧ bit p.mode 2 then s.setPort k { p with timeout := true } else s)

/-! ### User serial lanes (16 R451-R453; 18 R480) -/

/-- A write of CLK_ULCTL. -/
def State.writeUlctl (s : State) (l v : Nat) : State :=
  let rate := bits v 1 8
  if rate < 8 ∨ 128 < rate then s
  else
    let o := s.lane l
    let on := bit v 0
    let same := on && o.enable && decide (rate = o.rate)
    s.setLane l { enable := on, rate := rate, txTree := bits v 9 3, rxTree := bits v 12 3, deemph := bits v 15 4,
                  lock := o.lock && same, rxBuf := if same then o.rxBuf else [] }

/-- UL_ENABLE (16 R451; 18 R480). -/
def execUlEnable (t l : Nat) (value : Word) (s : State) : Host.Outcome State Fault Refusal :=
  ifUnit (decide (l < 8)) (if (s.at t).hostUp then (s.at t).writeUlctl l value.toNat else s.at t)

/-- Does a lane see edges of a tree (16 R453)? -/
def State.laneClock (s : State) (l g : Nat) : Bool := s.treeRuns g && !s.clocksGated l

/-- UL_TX_BLOCK (16 R452): at an edge with TX VALID; `ready` is TX_READY at the previous edge, 0 for a lane that is not
enabled (log 5). -/
def execUlTxBlock (t l : Nat) (blk : BitVec 66) (ready : Bool) (s : State) : Host.Outcome State Fault Refusal :=
  let s := s.at t
  ifUnit (decide (l < 8))
    (if !s.laneClock l (s.lane l).txTree then s
     else if ready && (s.lane l).enable then s.emit (.lane l blk.toNat)
     else s.log 0x902 4 0 l 1)

/-- UL_RX_BLOCK (16 R452, R453): a block arrives; with edges on the receive tree it is presented after those that wait,
otherwise it joins the buffer of 8, and is lost where that is full. -/
def execUlRxBlock (t l : Nat) (blk : BitVec 66) (s : State) : Host.Outcome State Fault Refusal :=
  let s := s.at t
  let v := s.lane l
  ifUnit (decide (l < 8))
    (if !v.enable ∨ !v.lock then s
     else if s.laneClock l v.rxTree then
       (v.rxBuf ++ [blk.toNat]).foldl (fun (s : State) b => s.emit (.fabric (128 + l) b false)) (s.setLane l { v with rxBuf := [] })
     else if v.rxBuf.length < 8 then s.setLane l { v with rxBuf := v.rxBuf ++ [blk.toNat] }
     else s.log 0x903 4 0 l 1)

/-- UL_RX_OVERFLOW (16 R452): a received block is lost. -/
def execUlRxOverflow (t l : Nat) (s : State) : Host.Outcome State Fault Refusal :=
  let s := s.at t
  ifUnit (decide (l < 8)) (if (s.lane l).enable && (s.lane l).lock then s.log 0x903 4 0 l 1 else s)

/-- UL_LOCK (16 R451). -/
def execUlLock (t l : Nat) (s : State) : Host.Outcome State Fault Refusal :=
  let s := s.at t
  ifUnit (decide (l < 8)) (if (s.lane l).enable then s.setLane l { s.lane l with lock := true } else s)

/-- UL_LOCK_LOST (16 R451). -/
def execUlLockLost (t l : Nat) (s : State) : Host.Outcome State Fault Refusal :=
  let s := s.at t
  ifUnit (decide (l < 8)) (s.setLane l { s.lane l with lock := false })

end Sys2Proof.Machine
end

