-- ==== Sys2Proof/Machine/LoadOps.lean ====
section
/-! DEFINITION. Shared operations of persona loads: headers, what of a body may be read, how a load fails, Fallow, and what
stops a persona (13_personas.md R358-R392; 12_command_reference.md R347). -/

namespace Sys2Proof.Machine

/-! ### Images (13 R358, R362, R374) -/

/-- The identity words of the device (00_scope.md R2): family, part and revision codes, and what the PCI Express endpoint
identifies itself by. -/
def familyCode : Nat := 0x4C48
def partCode : Nat := 0x8640
def revisionCode : Nat := 0xB0
def pciVendor : Nat := 0x1E8C
def pciDevice : Nat := 0x8640
def pciRevision : Nat := 0xB0
def pciClass : Nat := 0x118000

/-- The slots in the order of R359, as (source, slot). -/
def slotOrder : List (Nat × Nat) := [(1, 0), (1, 1), (1, 2), (1, 3), (2, 0), (2, 1)]

/-- The largest image of a source and slot (13 R358). -/
def imageMax (source slot : Nat) : Nat := if source ≠ 2 then 33554432 else if slot = 0 then 2097152 else 1572864

/-- The fields of a header and its signature block that a load keeps. -/
def readHdr (b : Bytes) : ImgHdr :=
  { flags := fld b 14 2, region := byteAt b 16, keySource := byteAt b 17, keySlot := byteAt b 18, epochCode := byteAt b 19, stored := fld b 20 4,
    frames := fld b 24 4, version := fld b 36 4, keyIndex := byteAt b 134, digest := slice b 80 48 }

/-- Check 1 of R377 on a header: `target` is 0xFF for a full image. -/
def headerOk (b : Bytes) (target max_ : Nat) : Bool :=
  let h := readHdr b
  let enc := bit h.flags 1
  decide (fld b 0 4 = 0x4150484C) && decide (fld b 4 2 = 1) && decide (fld b 6 2 = 128) && decide (h.flags < 8) &&
  decide (bit h.flags 2 = decide (target ≠ 0xFF)) && decide (h.region = target) && decide (h.keySource < 3) &&
  decide (enc = decide (h.keySource ≠ 0)) && (if h.keySource = 1 then decide (h.keySlot < 8) else decide (h.keySlot = 0)) &&
  (if enc then decide (h.epochCode < 5) else decide (h.epochCode = 0) && (firstBad b (rsv 40 36)).isNone) &&
  decide (h.stored % 4 = 0) && decide (fld b 28 4 = 128) && decide (fld b 32 4 = 3520) && (firstBad b (rsv 76 4)).isNone &&
  decide (3520 + h.stored ≤ max_)

/-- Check 2: the identity. -/
def identityOk (b : Bytes) : Bool :=
  let m := byteAt b 13
  decide (fld b 8 2 = familyCode) && decide (fld b 10 2 = partCode) && decide (Nat.land revisionCode m = Nat.land (byteAt b 12) m)

/-- A signature block keeps its layout (13 R363); `o` is its offset. -/
def sigBlockOk (b : Bytes) (o : Nat) : Bool :=
  decide (fld b o 4 = 0x4753484C) && decide (fld b (o + 4) 2 = 3392) && decide (byteAt b (o + 6) < 4) &&
  (firstBad b (rsv (o + 7) 1 ++ rsv (o + 3381) 11)).isNone

def Load.compressed (l : Load) : Bool := bit l.hdr.flags 0
def Load.encrypted (l : Load) : Bool := bit l.hdr.flags 1

/-- Epoch size, and the number of epochs (13 R362, R374). -/
def Load.epochSize (l : Load) : Nat := 4096 * 2 ^ l.hdr.epochCode
def Load.epochs (l : Load) : Nat := (l.hdr.stored + l.epochSize + 15) / (l.epochSize + 16)

/-- How much of the stored body the source gives (13 R377): `len` is the length that the command or register names. -/
def Load.given (l : Load) : Nat := min l.hdr.stored (l.len - 3520)

/-- The length of the plaintext body, and how much of it may be used: that of verified epochs (13 R374, R377). -/
def Load.total (l : Load) : Nat := if l.encrypted then l.hdr.stored - 16 * l.epochs else l.hdr.stored
def Load.avail (l : Load) : Nat := if !l.encrypted then l.given else if l.epoch = l.epochs then l.total else l.epochSize * l.epoch

/-- Has the source given the next stored epoch whole? -/
def Load.epochGiven (l : Load) : Bool := decide (min l.hdr.stored ((l.epoch + 1) * (l.epochSize + 16)) ≤ l.given)

/-- The log's name of a load's image. -/
def Load.image (l : Load) : Nat := l.source * 256 + l.imgSlot

/-- The FINAL status of a failure reason (12 R347). -/
def loadStatus (reason : Nat) : Nat :=
  match reason with
  | 0 => stOK
  | 1 => stBAD_ARG
  | 2 => stAUTH_FAIL
  | 3 => stAUTH_FAIL
  | 4 => stAUTH_FAIL
  | 5 => stFAULT
  | 6 => stTIMEOUT
  | _ => stALARM

/-- Log an event of a load (17 R466, R469): level 3 for a region's. -/
def State.logLoad (s : State) (w : Nat) (l : Load) (code a1 : Nat) : State :=
  s.log code (if w < 8 then 3 else 4) (if w < 8 then w else 0) l.image a1

/-! ### Stopping a persona; Fallow (13 R379, R380) -/

/-- Every user pin takes its configuration-time state, and its mapping is forgotten. -/
def State.pinsDown (s : State) : State :=
  let s1 := s.pinsToConfig (fun _ => true) false
  { s1 with pin := { s1.pin with switches := s1.pin.switches.filter fun e => e.slot.isSome } }

/-- Fabric signals read 0 (09 R246). -/
def State.signalsLow (s : State) : State :=
  (s.til.ctl.filter fun c => decide (c / 2 ^ 28 = 1)).foldl (fun s c => s.setCtl c false) s

/-- The graphs placed from the present persona's data area. -/
def State.personaGraphs (s : State) : List Nat :=
  (s.chip.handles.filter fun e => decide (e.2.st = 2) && decide (e.2.kind = 1) && e.2.persona).map (·.1)

/-- No persona runs: DONE is driven low, start-up is no longer complete. -/
def State.noPersona (s : State) : State :=
  { s with boot := { s.boot with doneDriven := true, doneHigh := false, doneReleasedAt := none, loaded := {} }, chip := { s.chip with persona := 2 },
           time := { s.time with done := false, step := min s.time.step 5 } }

/-- The present persona stops at the first frame write of a full load (13 R380 step 2; 07 R202). -/
def State.stopPersona (s : State) : State :=
  let s1 := ({ s with fab := { s.fab with gated := true } } : State).clearGuarded fun _ => true
  let s2 := s1.pinsDown
  let s3 := (List.range 64).foldl (fun s n => s.setDac n { s.dac n with busHeld := true }) s2
  let s4 := s3.personaGraphs.foldl (fun s gs =>
    let tag := ((s.graph gs).map Graph.userTag).getD 0
    (s.log 0x211 4 0 ((s.hnd gs).value gs) tag).removeGraph gs) s3
  s4.signalsLow.noPersona

/-- Entering Fallow (13 R379); once there, a further failure is not logged again. -/
def State.enterFallow (s : State) (image reason : Nat) : State :=
  let was := s.boot.fallow
  let s1 := ({ s.pinsDown with fab := { s.pinsDown.fab with gated := true, latch := [] } } : State).signalsLow
  let s2 := (List.range 8).foldl (fun s r => s.initFFs r) s1
  let s3 := ((List.range 64).foldl (fun s n => s.dacFault n) s2).noPersona
  let s4 : State := { s3 with boot := { s3.boot with fallow := true } }
  if was then s4 else s4.log 0x70C 4 0 image reason

/-! ### Failures (13 R377, R380, R388) -/

/-- The evacuations out of a region that have not ended (04 R126). -/
def State.evacuations (s : State) (r : Nat) : List Move :=
  s.til.moves.filter fun m => decide (m.why = .evacuate) &&
    (match s.graph m.graph with
      | none => false
      | some g => ((g.prim m.prim).cells ++ s.vacated m.graph m.prim).any fun c => decide (c / 128 = r))

/-- A REGION_LOAD fails: before isolation nothing in the region has changed; after it the region becomes fallow, and what was
suspended is placed again at step 7 (13 R388); a region that was not fallow logs it (17 R469; log 25). -/
def State.failRegion (s : State) (r : Nat) (l : Load) (reason : Nat) : State :=
  if l.stage < 3 then
    let s1 : State := { s with til := { s.til with moves := s.til.moves.filter fun m => !(decide (m.step = 0) && (s.evacuations r).contains m) } }
    let s2 := (s1.setRegion r { s1.region r with loading := false }).setLoad r none
    match l.slot with
    | none => s2
    | some h => s2.final h (loadStatus reason) l.written reason
  else if l.stage = 7 then s
  else
    let s0 := if (s.region r).fallow then s else s.logLoad r l 0x70C reason
    let s1 := (s0.setRegion r { s0.region r with isolated := false, fallow := true }).setLoad r (some { l with stage := 7, reason := reason })
    s1.busStopped fun b => decide (b / 8 = r)

/-- Slots are tried again from the first (13 R380 step 4). -/
def State.retrySlots (s : State) : State := { s with boot := { s.boot with trying := true, tryNext := 0 } }

/-- The next slot is to be tried; after the last one the device stays in Fallow (13 R359). -/
def State.nextSlot (s : State) (l : Load) (reason : Nat) : State :=
  let s1 : State := { s with boot := { s.boot with tryNext := s.boot.tryNext + 1, lastReason := reason, lastSlot := l.image } }
  if s1.boot.tryNext < 6 then s1 else ({ s1 with boot := { s1.boot with trying := false } } : State).enterFallow l.image reason

/-- A full load fails. -/
def State.failFull (s : State) (l : Load) (reason : Nat) : State :=
  let s1 := s.setLoad 8 none
  let s2 := if l.begun then s1.enterFallow l.image reason else s1
  match l.mode with
  | 0 => s2.nextSlot l reason
  | 1 => s2.retrySlots
  | 2 =>
    let s3 := match l.slot with
      | none => s2
      | some h => s2.final h (loadStatus reason) l.written reason
    if l.begun then s3.retrySlots else s3
  | _ =>
    let s3 : State := { s2 with boot := { s2.boot with cfgResult := 3, cfgFrames := l.written } }
    if l.begun then s3.retrySlots else s3

/-- A load fails with a reason of R347. -/
def State.failLoad (s : State) (w reason : Nat) : State :=
  match s.load w with
  | none => s
  | some l => if w < 8 then s.failRegion w l reason else s.failFull l reason

/-- A command's load stops, where nothing has been written (13 R392; 12 R333); says whether it stopped. -/
def State.stopLoad (s : State) (w st : Nat) : State × Bool :=
  match s.load w with
  | none => (s, false)
  | some l =>
    if l.begun then (s, false)
    else if w < 8 then
      let s1 := s.failRegion w { l with slot := none } 0
      (match l.slot with
        | none => s1
        | some h => s1.final h st 0 0, true)
    else
      let s1 := s.setLoad w none
      (match l.slot with
        | none => s1
        | some h => s1.final h st 0 0, true)

/-- Begin reading an image (13 R377): checks 1 and 2. A header that the source cannot give is a short read. -/
def State.beginLoad (s : State) (w : Nat) (l0 : Load) (b : Bytes) : State :=
  let l : Load := { l0 with head := slice b 0 3520, hdr := readHdr b, stage := 1, start := s.now }
  let s1 := s.setLoad w (some l)
  let target := if w < 8 then w else 0xFF
  if b.length < 3520 then (s1.logLoad w l 0x709 0).failLoad w 5
  else if !headerOk b target (imageMax l.source l.imgSlot) then (s1.logLoad w l 0x701 0).failLoad w 1
  else if !identityOk b then (s1.logLoad w l 0x702 0).failLoad w 1
  else s1

end Sys2Proof.Machine
end

