-- ==== Sys2Proof/Machine/Generic.lean ====
section
/-! DEFINITION. The generic and management commands: NOP, QUERY, ABORT, LOG_DRAIN, STOLON_POLICY, and what stops a command
in flight (12_command_reference.md R330, R333-R336, R350, R351, R357; 11_rings_doorbells.md R306). -/

namespace Sys2Proof.Machine

/-! ### NOP (12 R334) -/

def bodyNop (slot : Nat) (a : Bytes) (s : State) : State :=
  if 1000000 < fld a 0 4 then s.final slot stRANGE 0 0 else s.setWork slot (.delay (s.now + 250 * fld a 0 4))

def execNop (d : Desc) (s : State) : Host.Outcome State Fault Refusal :=
  queueCmd d s fun s => s.command 0x0001 d (fun a => firstBad a (rsv 4 4)) (fun _ _ => none) bodyNop

/-- NOP_DELAY_PASSED (12 R334). -/
def execNopDelayPassed (t slot : Nat) (s : State) : Host.Outcome State Fault Refusal :=
  let s := s.at t
  match (s.hnd slot).work with
  | .delay due => .next (if s.now < due then s else s.final slot stOK s.now 0)
  | _ => .next s

/-! ### QUERY (12 R335, R336) -/

/-- Handles in existence (12 R336). -/
def State.handleCount (s : State) : Nat := (s.chip.handles.filter fun e => decide (e.2.st ≠ 0)).length

/-- The persona state of QUERY CHIP (12 R336). -/
def State.personaState (s : State) : Nat := if s.husk.halted then 3 else s.chip.persona

/-- The digest of the loaded persona, 0 with none. -/
def State.personaDigest (s : State) : Bytes := if s.boot.loaded.valid then slice s.boot.loaded.digest 0 48 else zeros 48

def State.chipReply (s : State) : Bytes :=
  toLE 2 familyCode ++ toLE 2 partCode ++ toLE 1 revisionCode ++ [0] ++ toLE 2 s.chip.mgmtFw ++ toLE 1 s.personaState ++
  toLE 1 (if s.husk.cls = 7 then 0xFF else s.husk.cls) ++ toLE 2 s.handleCount ++ zeros 4 ++ s.personaDigest

/-- Is the trigger source of a converter halted (11 R320)? -/
def State.sourceHalted (s : State) (c : Nat) : Bool :=
  s.host.haltConv.contains c || (decide ((s.conv c).cfg.source.kind = 3) && s.host.haltCmp.contains (s.conv c).cfg.source.index)

def State.convReply (s : State) (c : Nat) : Bytes :=
  let v := s.conv c
  cfgBytes c v.cfg ++ toLE 1 v.steps.length ++ toLE 1 v.cur ++
  toLE 1 (b2n v.running + 2 * b2n v.pend + 4 * b2n (s.sourceHalted c) + 8 * b2n (v.borrowed || decide (v.comp = 4)) + 16 * b2n v.gated) ++
  zeros 13 ++ ((List.range 32).flatMap fun i => toLE 4 (s.tapWord c i)) ++ s.calBytes 1 c

def State.dacReply (s : State) (n : Nat) : Bytes :=
  let d := s.dac n
  toLE 1 n ++ toLE 1 d.range ++ toLE 1 d.source ++ toLE 1 d.statusByte ++ toLE 4 (ofI 32 d.present) ++ toLE 4 d.period ++ toLE 6 d.dds.ftw ++
  zeros 14 ++ s.calBytes 2 n

def State.streamReply (s : State) (n : Nat) : Bytes :=
  let d := s.ds n
  toLE 1 n ++ toLE 1 (b2n d.opened + 2 * b2n d.halted + 4 * b2n d.dropSettling) ++ toLE 2 d.seq ++ toLE 4 d.flush ++
  toLE 24 (((List.range 192).filter fun c => decide ((s.conv c).cfg.stream = n)).map (2 ^ ·)).sum

/-- The reply of a kind and its results; none where the index is out of range. -/
def State.queryReply (s : State) (kind idx : Nat) : Option (Bytes × Nat × Nat) :=
  match kind with
  | 0 => if idx = 0 then some (s.chipReply, s.now, 0) else none
  | 2 => if idx < 192 then some (s.convReply idx, (s.conv idx).cfg.mode, (s.conv idx).cur) else none
  | 3 => if idx < 64 then some (s.dacReply idx, ofI 64 (s.dac idx).present, (s.dac idx).statusByte) else none
  | 4 => if idx < 1024 then some (s.calBytes 0 idx, (s.led (48 * idx)).state, 0) else none
  | 5 => if idx < 64 then some (s.streamReply idx, (s.ds idx).seq, (s.ctr (uDs idx) 0).val) else none
  | _ => none

/-- Write a reply and end. -/
def State.answer (s : State) (slot addr len : Nat) (b : Bytes) (r0 r1 : Nat) : State :=
  if addr % 8 ≠ 0 ∨ len < b.length ∨ !s.bufOk addr len then s.final slot stBAD_ARG 0 0
  else (s.hostWrite addr b).final slot stOK r0 r1

/-- QUERY on a handle: the results, and for a graph object its report. The fraction done of a command in flight is a value
the manual does not state (log 15). -/
def State.queryHandle (s : State) (slot v addr len : Nat) : State :=
  let n := v % 4096
  let h := s.hnd n
  let r0 := pack [(b2n (decide (h.st = 2)), 0), (h.opcode, 16), (h.queue, 32), (if h.st = 2 then h.kind else 0, 40)]
  match (if h.st = 2 ∧ h.kind = 1 then s.graph n else none) with
  | some g =>
    if addr = 0 then s.final slot stOK r0 (outcomeOf (s.evaluate g))
    else
      let e := s.evaluate g
      let o := outcomeOf e
      s.answer slot addr len (reportBytes { e with outcome := o, temp := s.graphTemp g } (h.value n) false) r0 o
  | none =>
    if addr ≠ 0 ∨ len ≠ 0 then s.final slot stBAD_ARG 0 0
    else if h.st = 1 then
      let f := s.fresh
      f.2.final slot stOK r0 (f.1 % 65536)
    else s.final slot stOK r0 0

def bodyQuery (slot : Nat) (a : Bytes) (s : State) : State :=
  let kind := byteAt a 0
  let idx := fld a 2 2
  if kind = 1 then s.queryHandle slot idx (fld a 8 8) (fld a 4 4)
  else match s.queryReply kind idx with
    | none => s.final slot stRANGE 0 0
    | some (b, r0, r1) => s.answer slot (fld a 8 8) (fld a 4 4) b r0 r1

/-- QUERY (12 R335, R336). With reply address 0, which kind 1 allows, the length must be 0, and so is treated as reserved (00 R10). The
numbers 192 to 255, which name no converter, are rejected (00 R5; 12 R327); an index further out completes with RANGE (DESIGN
CHOICE, log 16). -/
def execQuery (d : Desc) (s : State) : Host.Outcome State Fault Refusal :=
  queueCmd d s fun s => s.command 0x0002 d
    (fun a => firstBad a (rsv 1 1 ++ (if byteAt a 0 = 1 ∧ fld a 8 8 = 0 then rsv 4 4 else [])))
    (fun s a =>
      if byteAt a 0 = 1 ∧ !s.names (fld a 2 2) then some stBAD_HANDLE
      else if byteAt a 0 = 2 ∧ noConverter (fld a 2 2) then some stRANGE else none) bodyQuery

/-! ### Stopping a command in flight (11 R306; 12 R330, R333, R357) -/

/-- Commands whose ABORT column does not read No, where they wait for a region controller. -/
def stoppable : List Nat :=
  [0x0001, 0x0100, 0x0102, 0x0103, 0x0104, 0x0105, 0x0200, 0x0201, 0x0203, 0x0204, 0x0300, 0x0301, 0x0302, 0x0400, 0x0402, 0x0600, 0x0601,
   0x0602, 0x0701, 0x0900, 0x0A00, 0x0A01]

/-- A measurement stops. -/
def State.stopSyscal (s : State) (c slot st : Nat) : State := (s.dropMeas c slot).final slot st 0 0

/-- A GRAPH_TUNE stops before any of its settings is staged, and so while none of its transplants has begun its crossover (12 R333):
nothing changes; says whether it stopped. -/
def State.stopTune (s : State) (gs slot st : Nat) : State × Bool :=
  let mine := s.til.moves.filter fun m => decide (m.handle = some slot)
  match s.graph gs with
  | none => (s, false)
  | some g =>
    if mine.any (fun m => decide (6 ≤ m.step)) ∨ 0 < g.movedSince ∨ g.cells.any (fun n => (s.cell n).staged.any fun e => e.1 == 44) then (s, false)
    else (((mine.foldl (fun s m => s.withdraw m) s).revertGraph gs).final slot st 0xFF 0, true)

/-- A GRAPH_PIN stops before any crossover starts (12 R333): its moves are abandoned and no pin changes; says whether it stopped. -/
def State.stopPin (s : State) (gs slot moved st : Nat) : State × Bool :=
  let mine := s.til.moves.filter fun m => decide (m.handle = some slot)
  if mine.length < moved ∨ mine.any (fun m => decide (6 ≤ m.step)) then (s, false)
  else (((mine.foldl (fun s m => s.withdraw m) s).revertGraph gs).final slot st 0 0, true)

/-- A CAL_RUN whose runs not yet started are skipped (08 R230; 12 R333). -/
def State.stopCal (s : State) (slot left done failed st : Nat) : State × Bool :=
  let n := (s.cal.due.filter fun e => e.cmds.contains slot).length
  if n = 0 then (s, false)
  else
    let s1 : State := { s with cal := { s.cal with due := s.cal.due.map fun e => { e with cmds := e.cmds.filter fun k => decide (k ≠ slot) } } }
    if left ≤ n then ((s1.reportCals slot).final slot st done failed, true)
    else (s1.setWork slot (.cal (left - n) done failed true), true)

/-- A CAL_REF_EXTERNAL whose measurement is discarded (12 R333). -/
def State.stopRef (s : State) (slot st : Nat) : State :=
  let s1 := match s.cal.procedure with
    | none => s
    | some p =>
      if p.cmds = [slot] then
        let s1 : State := { s with cal := { s.cal with procedure := none } }
        p.regions.foldl (fun s r => let v := s.conv (8 * r); if v.comp = 3 then s.setConv (8 * r) { v with comp := 0 } else s) s1
      else { s with cal := { s.cal with procedure := some { p with cmds := p.cmds.filter fun k => decide (k ≠ slot) } } }
  s1.final slot st 0 0

/-- Stop the command in a slot where its rules allow, with status `st` (ABORTED or ALARM); says whether it stopped. A load
stops only before it has written anything (13 R392). -/
def State.stopCmd (s : State) (slot st : Nat) : State × Bool :=
  let h := s.hnd slot
  match h.work with
  | .delay _ => (s.final slot st s.now 0, true)
  | .region _ _ => if stoppable.contains h.opcode then (s.final slot st 0 0, true) else (s, false)
  | .place => (s.stopPlace slot st 0xFF 0, true)
  | .tune gs again _ => if again then (s.final slot st 0xFF 0, true) else s.stopTune gs slot st
  | .after _ _ => (s.final slot st 0 0, true)
  | .pin gs again moved _ => if again then (s.final slot st 0 0, true) else s.stopPin gs slot moved st
  | .move gs i => match s.til.moves.find? fun m => decide (m.handle = some slot) && decide (m.graph = gs) && decide (m.prim = i) with
    | some m => if m.step < 6 then (s.abandonMove m st 0, true) else (s, false)
    | none => (s, false)
  | .conv c =>
    let v := s.conv c
    ((s.setConv c { v with waits := v.waits.filter fun w => decide (w.1 ≠ slot) }).final slot st 0 0, true)
  | .syscal c => (s.stopSyscal c slot st, true)
  | .dac n => s.stopDac n slot st
  | .cal left done failed _ => s.stopCal slot left done failed st
  | .refcal => (s.stopRef slot st, true)
  | .load w => s.stopLoad w st
  | .readback =>
    if s.fab.readbacks.any fun r => r.id == slot && !r.captured then ((s.setReadback slot none).final slot st 0 0, true) else (s, false)
  | .pins => (s.stopPinMap slot st, true)
  | .mem _ done _ => if h.opcode = 0x0A02 then (s, false) else (s.final slot st done 0, true)
  | _ => (s, false)

/-- ABORT (11 R306; 12 R357): its FINAL follows that of the command it names. -/
def bodyAbort (slot : Nat) (a : Bytes) (s : State) : State :=
  let n := fld a 0 2 % 4096
  let s1 := s.setWork slot (.abort n)
  if (s1.hnd n).opcode = 0x0F00 then s1 else (s1.stopCmd n stABORTED).1.memNext.cellsFreed.resume

def execAbort (d : Desc) (s : State) : Host.Outcome State Fault Refusal :=
  queueCmd d s fun s => s.command 0x0F00 d (fun a => firstBad a (rsv 2 6))
    (fun s a => let v := fld a 0 2; if s.names v && decide ((s.hnd (v % 4096)).st = 1) then none else some stBAD_HANDLE) bodyAbort

/-! ### LOG_DRAIN (12 R350) -/

def bodyLogDrain (slot : Nat) (a : Bytes) (s : State) : State :=
  let max_ := fld a 4 4
  let addr := fld a 8 8
  if max_ = 0 ∨ 8192 < max_ then s.final slot stRANGE 0 0
  else if addr % 8 ≠ 0 ∨ !s.bufOk addr (32 * max_) then s.final slot stBAD_ARG 0 0
  else if bit (byteAt a 0) 0 then
    let l := s.keep.checkpoint.take max_
    (s.hostWrite addr l.flatten).final slot stOK l.length 0
  else
    let l := (s.chip.log.drop s.chip.drained).take max_
    let s1 := s.hostWrite addr (l.flatMap LogEntry.bytes)
    let s2 : State := { s1 with chip := { s1.chip with drained := s1.chip.drained + l.length, lostUndrained := 0 } }
    s2.final slot stOK l.length s.chip.lostUndrained

def execLogDrain (d : Desc) (s : State) : Host.Outcome State Fault Refusal :=
  queueCmd d s fun s => s.command 0x0701 d (fun a => firstBad a ((0, 0xFE) :: rsv 1 3)) (fun _ _ => none) bodyLogDrain

/-! ### STOLON_POLICY (12 R351; 04 R115) -/

/-- Read the record. -/
def readPolicy (a : Bytes) : Policy :=
  { enable := bit (byteAt a 0) 0, thermal := bit (byteAt a 0) 1, threshold := byteAt a 1, pool := fld a 2 2, period := fld a 4 4, len := fld a 8 2 }

def Policy.ok (p : Policy) : Bool :=
  decide (2 ≤ p.threshold) && decide (p.threshold ≤ 40) && decide (p.pool ≤ 256) && decide (60 ≤ p.period) && decide (p.period ≤ 86400) &&
  decide (4 ≤ p.len) && decide (p.len ≤ 256)

/-- A region's pool follows the policy's count, while its controller accepts configuration. -/
def State.resizeRegion (s : State) (r : Nat) : State := if s.ctrlOk r then (State.shrinkPool 256 r (s.poolWant r) s).refill r else s

/-- The pool follows the policy's count. -/
def State.resizePool (s : State) : State := (List.range 8).foldl (fun s r => s.resizeRegion r) s

/-- Pool cells that the regions lack. -/
def State.poolMissing (s : State) : Nat := ((List.range 8).map fun r => (s.region r).poolShort).sum

def bodyStolonPolicy (slot : Nat) (a : Bytes) (s : State) : State :=
  let p := readPolicy a
  if !p.ok then s.final slot stRANGE 0 0
  else
    let s1 : State := { s with til := { s.til with policy := p, sparesCold := s.til.sparesCold && !p.enable } }
    let s2 := s1.resizePool
    s2.final slot stOK s2.poolWarm s2.poolMissing

def execStolonPolicy (d : Desc) (s : State) : Host.Outcome State Fault Refusal :=
  queueCmd d s fun s => s.command 0x0702 d (fun a => firstBad a ((0, 0xFC) :: rsv 10 6)) (fun _ _ => none) bodyStolonPolicy

end Sys2Proof.Machine
end

