-- ==== Sys2Proof/Machine/Straw.lean ====
section
/-! DEFINITION. The data area of the Straw persona: the pin that UART0 sends on, and the set-up of the precision modulators
(14_startup_defaults.md R403, R404; 13_personas.md R373). -/

namespace Sys2Proof.Machine

/-- A data-area item (13 R373). -/
def itemBytes (ty : Nat) (body : Bytes) : Bytes :=
  toLE 2 ty ++ zeros 2 ++ toLE 4 body.length ++ body ++ zeros ((8 - body.length % 8) % 8)

/-- A step record of a precision modulator (05 R141). -/
def stepBytes (e : SeqStep) : Bytes :=
  toLE 1 e.entry ++ toLE 1 e.gain ++ toLE 1 (e.rate + 16 * e.filt) ++ toLE 1 e.extra ++ toLE 2 e.count ++ zeros 2

/-- Straw's configuration of a precision modulator: CONTINUOUS, QUEUE1, no trigger, stream 0 (14 R404). -/
def strawCfg : ConvCfg := { mode := 1, policy := 0, stream := 0 }

/-- Straw's reading of a multiplexer entry: gain code 1, 10 S/s, sinc3, no extra settle, one sample (14 R404). -/
def strawStep (entry : Nat) : SeqStep := { entry := entry, gain := 1, rate := 2, filt := 0, extra := 0, count := 1 }

/-- The CONVERTER item of PM(8r + j): two steps, at the entries of the pairs AIN(16r + 2j) and AIN(16r + 2j + 1) (14 R404). -/
def strawConv (r j : Nat) : Bytes :=
  itemBytes 3 (cfgBytes (8 * r + j) strawCfg ++ stepBytes (strawStep (2 * j)) ++ stepBytes (strawStep (2 * j + 1)))

/-- The PIN_MAP item: IOB0_00 carries UART0 transmit, signal 0 of port 4 (14 R403; 16 R446). The pin flags are not stated: no pull,
low drive, fast edges (DESIGN CHOICE, log 26). -/
def strawPins : Bytes := itemBytes 2 (toLE 1 0 ++ toLE 1 2 ++ toLE 2 64 ++ zeros 4)

/-- The items of Straw's data area in region `r`. -/
def strawArea (r : Nat) : Bytes := (if r = 0 then strawPins else []) ++ (List.range 8).flatMap fun j => strawConv r j

end Sys2Proof.Machine
end

