-- ==== Sys2Proof/Machine/Persona.lean ====
section
/-! DEFINITION. Persona loads: PERSONA_LOAD, REGION_LOAD, slot tries, signatures, epochs, records and what ends a load
(13_personas.md R358-R378, R383, R390; 12_command_reference.md R347; 04_transplant_and_stolon.md R126;
09_fabric_memory.md R252, R254). -/

namespace Sys2Proof.Machine

/-! ### Keys (13 R364, R376; 15 R417-R423) -/

/-- Is the key-kill fuse blown: any of its bits (15 R423)? -/
def State.keyKilled (s : State) : Bool := decide (s.husk.fuses.keyKill ≠ 0)

/-- Can a verification key be used: its index is fused and not revoked, and its flash record matches the digest (15 R422)? -/
def State.keyUsable (s : State) (i : Nat) : Bool :=
  !bit s.husk.fuses.revoked i && (Tbl.get none i s.husk.flashKeys).any fun r => decide (some (sha384 r) = Tbl.get none i s.husk.fuses.digests)

/-- Can the verification key that a load names be used (13 R364)? Straw's is the factory key. -/
def State.verifyKey (s : State) (l : Load) : Bool := (decide (l.source = 2) && decide (l.imgSlot = 1)) || s.keyUsable l.hdr.keyIndex

/-- A key derived from the persona seed: none where the seed is blank, key-kill is blown, or an alarm has erased the working copies
(15 R411, R418, R423). -/
def State.seedKey (s : State) (info : String) : Option Bytes :=
  if s.keyKilled ∨ s.husk.workErased then none else s.husk.fuses.personaSeed.map fun seed => hkdf seed [] (ascii info)

/-- A key RAM slot, where its valid bit is set and its check value matches (15 R419). -/
def State.ramKey (s : State) (k : Nat) : Option Bytes :=
  (Tbl.get none k s.husk.keyRam).filter fun b => bit s.husk.keyValid k && decide (Tbl.get none k s.husk.keyCheck = some (Config.keyCheck b))

/-- The key that an encrypted image names, where it is there (13 R375, R376). -/
def State.bodyKey (s : State) (l : Load) : Option Bytes :=
  if l.hdr.keySource = 1 then s.ramKey l.hdr.keySlot else s.seedKey "LH8640 persona"

/-- What an epoch's key is derived from, its initialisation vector and its additional data (13 R375). -/
def Load.salt (l : Load) : Bytes := slice l.head 40 32
def Load.iv (l : Load) (i : Nat) : Bytes := slice l.head 72 4 ++ toLE 8 i
def Load.aad (l : Load) (i : Nat) : Bytes := slice l.head 0 128 ++ toLE 4 i
def Load.nextKey (l : Load) (ikm : Bytes) (i : Nat) : Bytes := hkdf ikm l.salt (toLE 4 i)

/-! ### Commands (12 R347) -/

/-- The record's values: the source, and its slot byte. -/
def loadRange (source slot len : Nat) : Bool :=
  match source with
  | 0 => decide (slot = 0) && decide (1 ≤ len) && decide (len ≤ imageMax 0 0)
  | 1 => decide (slot < 4)
  | 2 => decide (slot < 2)
  | _ => false

/-- The header that a load reads: internal slot 0 holds what PROGRAM_FALLBACK has written (13 R390). -/
def State.headerOf (s : State) (source slot : Nat) (addr len : Nat) (header : Bytes) : Bytes :=
  if source = 0 then s.hostRead addr (min len 3520) header
  else if source = 2 ∧ slot = 0 then s.boot.fallback.getD header
  else header

/-- Reading an image of an external slot begins (16 R449). -/
def State.readSlot (s : State) (source slot : Nat) : State := if source = 1 then s.emit (.qspi 0xEC (0x2000000 * slot)) else s

/-- Reserved places of both records. -/
def loadBad (region : Bool) (a : Bytes) : Option Nat :=
  firstBad a ((if region then [] else rsv 2 1) ++ rsv 3 1 ++ (if byteAt a 0 = 0 then [] else rsv 4 12))

/-- May a buffer that a load names be read (12 R326)? -/
def State.imageOk (s : State) (a : Bytes) : Bool :=
  decide (byteAt a 0 ≠ 0) || (decide (fld a 8 8 % 8 = 0) && s.bufOk (fld a 8 8) (fld a 4 4))

/-- The length of the image that a record names: that of a slot is not named. -/
def imageLen (a : Bytes) : Nat := if byteAt a 0 = 0 then fld a 4 4 else imageMax 0 0

def bodyPersonaLoad (header : Bytes) (slot : Nat) (a : Bytes) (s : State) : State :=
  let source := byteAt a 0
  let n := byteAt a 1
  if !loadRange source n (fld a 4 4) then s.final slot stRANGE 0 0
  else if !s.imageOk a then s.final slot stBAD_ARG 0 0
  else
    let b := s.headerOf source n (fld a 8 8) (fld a 4 4) header
    ((s.setWork slot (.load 8)).readSlot source n).beginLoad 8 { mode := 2, source := source, imgSlot := n, slot := some slot, len := imageLen a } b

/-- PERSONA_LOAD (13 R380; 12 R332, R347): `header` is the image's header and signature block as its source gives them. -/
def execPersonaLoad (d : Desc) (header : Bytes) (s : State) : Host.Outcome State Fault Refusal :=
  queueCmd d s fun s => s.command 0x0600 d (loadBad false) (fun s _ => if (s.load 8).isSome then some stBUSY else none) (bodyPersonaLoad header)

def bodyRegionLoad (header : Bytes) (cmd : Instr) (slot : Nat) (a : Bytes) (s : State) : State :=
  let source := byteAt a 0
  let r := byteAt a 1
  let n := byteAt a 2
  let free (s : State) : State := s.setRegion r { s.region r with loading := false }
  if 8 ≤ r ∨ !loadRange source n (fld a 4 4) then s.final slot stRANGE 0 0
  else if !s.imageOk a then s.final slot stBAD_ARG 0 0
  else if (s.region r).failed then (free s).final slot stFAULT 0 0
  else
    let s1 := s.setRegion r { s.region r with loading := true }
    s1.onRegion r slot cmd fun s =>
      let b := s.headerOf source n (fld a 8 8) (fld a 4 4) header
      ((s.setWork slot (.load r)).readSlot source n).beginLoad r { mode := 5, source := source, imgSlot := n, slot := some slot, len := imageLen a } b

/-- REGION_LOAD (13 R383, R384; 12 R347). -/
def execRegionLoad (d : Desc) (header : Bytes) (s : State) : Host.Outcome State Fault Refusal :=
  queueCmd d s fun s => s.command 0x0601 d (loadBad true)
    (fun s a => if (s.region (byteAt a 1)).loading then some stBUSY else none) (bodyRegionLoad header (.regionLoad d header))

/-- Is the next slot of R359 one that the skip mask leaves out? Internal slot 1 never is. -/
def State.skipSlots : Nat → State → State
  | 0, s => s
  | f + 1, s =>
    if s.boot.tryNext < 5 ∧ bit s.boot.slotSkip s.boot.tryNext then
      State.skipSlots f { s with boot := { s.boot with tryNext := s.boot.tryNext + 1 } }
    else s

/-- PERSONA_SLOT_TRY (13 R358, R359, R377): the next slot's header is read. None is tried while an alarm of class A1 or above is
in effect (R392). -/
def execPersonaSlotTry (t : Nat) (header : Bytes) (s : State) : Host.Outcome State Fault Refusal :=
  let s := s.at t
  if s.time.step ≠ 5 ∨ s.time.selftestFail ∨ !s.boot.trying ∨ s.boot.hostWaiting ∨ (s.load 8).isSome ∨ 6 ≤ s.boot.tryNext ∨ s.husk.halted ∨
      s.chip.restarting ∨ s.chip.failed then .next s
  else
    let s0 := s.skipSlots 6
    let sl := slotOrder.getD s0.boot.tryNext (2, 1)
    let s1 := s0.readSlot sl.1 sl.2
    let l : Load := { mode := 0, source := sl.1, imgSlot := sl.2 }
    let b := s1.headerOf sl.1 sl.2 0 0 header
    if fld b 0 4 = 0x4150484C then .next (s1.beginLoad 8 l b)
    else
      -- an absent slot is skipped; after the last one the device is in Fallow
      let s2 := s1.log 0x700 4 0 l.image 0
      let s3 : State := { s2 with boot := { s2.boot with tryNext := s2.boot.tryNext + 1 } }
      .next (if s3.boot.tryNext < 6 then s3
        else ({ s3 with boot := { s3.boot with trying := false } } : State).enterFallow l.image s3.boot.lastReason)

/-! ### Evacuation (04 R126; 13 R384, R387) -/

/-- The functions of placed graphs that lie in a region, as (graph, primitive). -/
def State.fnsIn (s : State) (r : Nat) : List (Nat × Nat) :=
  s.graphs.flatMap fun e => if e.2.phase ≠ 7 then [] else
    ((List.range e.2.prims.length).filter fun i => (e.2.prim i).cells.any fun c => decide (c / 128 = r)).map fun i => (e.1, i)

/-- Ask for the evacuation of functions (04 R126); one that finds no place stays (R98). -/
def State.evacuate (s : State) (fns : List (Nat × Nat)) : State :=
  (s.setMoves (s.til.moves ++ fns.map fun f => { graph := f.1, prim := f.2, why := .evacuate, len := 4 })).pumpMoves

/-- Do all primitives of a graph lie in a region? -/
def Graph.within (g : Graph) (r : Nat) : Bool := g.prims.all fun p => !p.cells.isEmpty && p.cells.all fun c => decide (c / 128 = r)

/-- SIGNATURE_VERIFIED (13 R364, R377 check 3; 15 R424): both signatures of load `w` have been evaluated. For a region,
evacuation begins: `taken` are the graphs that the new persona takes over (log 25). -/
def execSignatureVerified (t w : Nat) (ed ml : Bool) (taken : List Nat) (s : State) : Host.Outcome State Fault Refusal :=
  let s := s.at t
  match s.load w with
  | none => .next s
  | some l =>
    let usable := sigBlockOk l.head 128 && s.verifyKey l
    let mask := if usable then b2n (!ed) + 2 * b2n (!ml) else 3
    if l.stage ≠ 1 then .next s
    else if mask ≠ 0 then .next ((s.logLoad w l 0x703 mask).failLoad w 2)
    else if 8 ≤ w then .next (s.setLoad w (some { l with stage := 3 }))
    else
      let mine := taken.filter fun g => (s.graph g).any fun x => decide (x.phase = 7) && x.within w
      let s1 := (s.setLoad w (some { l with stage := 2, taken := mine })).yieldTest w 1
      .next (s1.evacuate ((s1.fnsIn w).filter fun f => !mine.contains f.1))

/-- PERSONA_EPOCH (13 R374-R377 check 4): the next stored epoch has been read, its ciphertext and tag, where the
source gives it whole. Its key is derived and
erased once the epoch is verified, when that of the next is derived from it. -/
def execPersonaEpoch (t w : Nat) (stored : Bytes) (s : State) : Host.Outcome State Fault Refusal :=
  let s := s.at t
  match s.load w with
  | none => .next s
  | some l =>
    if l.stage ≠ 3 ∨ !l.encrypted ∨ l.epochs ≤ l.epoch then .next s
    else match (if l.epoch = 0 then (s.bodyKey l).map fun k => l.nextKey k 0 else some l.key) with
      | none => .next ((s.logLoad w l 0x70B 0).failLoad w 3)
      | some key => if !l.epochGiven then .next s else match gcmOpen key (l.iv l.epoch) (l.aad l.epoch) stored with
        | none => .next ((s.logLoad w l 0x704 l.epoch).failLoad w 3)
        | some p =>
          let next := if l.epoch + 1 = l.epochs then [] else l.nextKey key (l.epoch + 1)
          .next (s.setLoad w (some { l with epoch := l.epoch + 1, key := next, plain := l.plain ++ p }))

/-! ### Writing frames (13 R370-R372; 09 R252, R254) -/

/-- The source code fields of a frame: (offset, which codes it takes: 0 those of a local wire, 1 any listed, 2 logic cells;
the region it is read in). -/
def codeFields (f : Nat) : List (Nat × Nat × Nat) :=
  let r := f / 12288
  let g := f % 12288
  if g < 10240 then (if 512 ≤ g % 1280 ∧ g % 1280 < 544 then (List.range 128).map fun i => (2 * i, 0, r) else [])
  else
    let k := g - 10240
    if k < 1152 then (List.range 64).map fun i => (2 * i, 1, r)
    else if k < 1368 then (List.range 64).map fun i => (2 * i, 1, i % 8)
    else if k = 1368 then (List.range 128).map fun i => (2 * i, 2, r)
    else if k = 1370 then (List.range 128).map fun i => (2 * i, 1, r)
    else if k = 1371 then (List.range 40).map fun i => (2 * i, 1, r)
    else []

/-- Does a field of frame `f` allow a code (13 R372)? -/
def codeAllowed (f what r code : Nat) : Bool :=
  decide (code = 0xFFFF) ||
  (match srcOf r code with
    | .lc n _ => decide (what ≠ 0) || decide (n / 512 = 8 * (f / 12288) + f % 12288 / 1280)
    | .cluster _ _ => decide (what ≠ 2)
    | .global _ _ => decide (what = 1)
    | .hard _ => decide (what ≠ 2)
    | .none => false)

/-- Replace a two-byte field. -/
def putCode (b : Bytes) (o v : Nat) : Bytes := b.take o ++ toLE 2 v ++ b.drop (o + 2)

/-- The wire group whose drivers a frame holds. -/
def frameGroup (f : Nat) : Option Nat :=
  let r := f / 12288
  let k := f % 12288 - 10240
  if f % 12288 < 10240 ∨ 1368 ≤ k then none
  else if k < 1152 then some (38208 + 1152 * r + k) else some (47424 + 216 * r + (k - 1152))

/-- Disable the drivers that a frame enables onto a quarantined group (09 R254). -/
def State.dropDrivers (s : State) (f : Nat) (b : Bytes) : State × Bytes :=
  match frameGroup f with
  | none => (s, b)
  | some k =>
    if (s.led (segEntry k)).state ≠ 3 then (s, b)
    else (List.range 64).foldl (fun (a : State × Bytes) i =>
      let code := fld a.2 (2 * i) 2
      if code = 0xFFFF then a
      else
        let x := a.1.lcArg (driverLc k (i % 8, code))
        (x.2.log 0x501 0 (segEntry k) (i / 8) x.1, putCode a.2 (2 * i) 0xFFFF)) (s, b)

/-- Write one frame: scratchpad bytes, or configuration memory with codes that a field does not allow replaced by 0xFFFF (13
R372). A frame of zeros is an unused one (log 22). -/
def State.writeFrame (s : State) (f : Nat) (b : Bytes) : State :=
  match spadFrame f with
  | some a => s.spWrite a b
  | none =>
    if b.all fun x => x == 0 then s.setFrame f b
    else
      let bad := (codeFields f).filter fun e => !codeAllowed f e.2.1 e.2.2 (fld b e.1 2)
      let s1 := bad.foldl (fun s e => s.log 0x70E 4 0 f e.1) s
      let r := s1.dropDrivers f (bad.foldl (fun b e => putCode b e.1 0xFFFF) b)
      (r.1.setFrame f r.2).forceGuards

/-- A frame's payload as configuration memory holds it. -/
def State.readFrame (s : State) (f : Nat) : Bytes :=
  match spadFrame f with
  | some a => s.spRead a 256
  | none => s.frame f

/-- Clear a region's frames, those of the scratchpad apart (13 R368). -/
def State.clearFrames (s : State) (r : Nat) : State :=
  { s with fab := { s.fab with frames := s.fab.frames.filter (fun e => decide (e.1 / 12288 ≠ r)), ff := s.fab.ff.filter (fun e => decide (e.1 / 4096 ≠ r)),
                               guarded := s.fab.guarded.filter (fun n => decide (n / 4096 ≠ r)),
                               disabled := s.fab.disabled.filter fun e => decide (groupHome e.1 ≠ r) } }

/-- Stolon retests the fabric groups that the checker has quarantined (09 R254): whether each passes is not stated (log
15). -/
def State.retestGroups (s : State) (p : Nat → Bool) : State :=
  (s.til.ledger.filter fun e => decide (81920 + 38208 ≤ e.1) && p (e.1 - 81920)).foldl (fun s e =>
    let l := s.led e.1
    if l.state ≠ 3 ∨ l.detail % 256 = 0 then s
    else
      let f := s.fresh
      if f.1 % 2 = 0 then f.2
      else
        let s1 := f.2.setLed e.1 { l with state := 0, health := 255, detail := l.detail / 256 * 256 }
        { s1 with fab := { s1.fab with disabled := s1.fab.disabled.filter fun d => decide (d.1 ≠ e.1 - 81920) } }) s

/-! ### Records (13 R365-R369, R377) -/

/-- A record's structure fails (check 5). -/
def State.badRecord (s : State) (w : Nat) (l : Load) (a1 : Nat) : State := (s.logLoad w l 0x705 a1).failLoad w 1

/-- A load once it has used a record, `n` bytes of which count in the digest (13 R369). -/
def Load.took (l : Load) (b : Bytes) (n : Nat) : Load :=
  { l with used := l.used + b.length, plain := l.plain.drop b.length, sha := l.sha.add (b.take n), records := l.records + (if n = b.length then 1 else 0) }

/-- Take a record of type `ty` and the length that its first bytes give, where the load has reached it and its epochs are verified:
of an encrypted body it is the next plaintext. A type byte that is no record's is a structure failure; another record's has its own
row. -/
def State.takeRecord (s : State) (w ty : Nat) (len : Bytes → Nat) (rec : Bytes) (f : Load → Bytes → State → State) : State :=
  match s.load w with
  | none => s
  | some l =>
    let b := if l.encrypted then l.plain else rec
    if l.stage ≠ 3 ∨ l.avail < l.used + 4 then s
    else if byteAt b 0 = ty then (if l.avail < l.used + len b then s else f l (slice b 0 (len b)) s)
    else if [1, 2, 3, 15].contains (byteAt b 0) then s
    else s.badRecord w l 0

/-- Does a load write frames: every one but PROGRAM_FALLBACK? -/
def Load.writes (l : Load) : Bool := decide (l.mode ≠ 4)

/-- May an address be written now: within the section's region, and for the first time (13 R365, R367, R370)? -/
def Load.addrOk (l : Load) (a : Nat) : Bool := decide (a < 98304) && decide (l.sect = some (a / 12288)) && !l.addrs.contains a

/-- FRAME (13 R366, R372, R377). -/
def execFrame (t w : Nat) (rec : Bytes) (s : State) : Host.Outcome State Fault Refusal :=
  .next ((s.at t).takeRecord w 1 (fun _ => 268) rec fun l rec s =>
    let a := fld rec 4 4
    let b := slice rec 8 256
    if (firstBad rec (rsv 1 3)).isSome ∨ !l.addrOk a then s.badRecord w l a
    else if crc32c b ≠ fld rec 264 4 then (s.logLoad w l 0x706 a).failLoad w 4
    else
      let s1 := if l.writes then s.writeFrame a b else s
      s1.setLoad w (some { (l.took rec 268) with written := l.written + 1, secGot := l.secGot + 1,
                                                 crcs := Tbl.set none a (some (fld rec 264 4)) l.crcs, addrs := l.addrs ++ [a] }))

/-- REPEAT (13 R367): the source is read back from configuration memory and checked again before its destinations are
written. -/
def execRepeatRecord (t w : Nat) (rec : Bytes) (s : State) : Host.Outcome State Fault Refusal :=
  .next ((s.at t).takeRecord w 2 (fun b => 8 + 4 * fld b 2 2) rec fun l rec s =>
    let c := fld rec 2 2
    let src := fld rec 4 4
    let dst := (List.range c).map fun i => fld rec (8 + 4 * i) 4
    match Tbl.get none src l.crcs with
    | none => s.badRecord w l src
    | some crc =>
      if byteAt rec 1 ≠ 0 ∨ c = 0 ∨ 1024 < c ∨ !l.compressed ∨ !(dst.all fun a => l.addrOk a) ∨ !nodupB dst then s.badRecord w l src
      else if l.writes ∧ crc32c (s.readFrame src) ≠ crc then (s.logLoad w l 0x706 src).failLoad w 4
      else
        let b := s.readFrame src
        let s1 := if l.writes then dst.foldl (fun s a => s.writeFrame a b) s else s
        s1.setLoad w (some { (l.took rec (8 + 4 * c)) with written := l.written + c, secGot := l.secGot + c,
                                                           addrs := l.addrs ++ dst }))

/-- The region that the next section must name (13 R365). -/
def Load.nextSection (l : Load) (w : Nat) : Option Nat :=
  match l.sect with
  | none => some (if w < 8 then w else 0)
  | some r => if w < 8 ∨ 7 ≤ r then none else some (r + 1)

/-- Is the present section's count other than announced, or other than a whole region's in an image without COMPRESSED (13
R368, R369)? -/
def Load.sectionBad (l : Load) : Bool :=
  l.secBad || (l.sect.isSome && (decide (l.secGot ≠ l.secWant) || (!l.compressed && decide (l.secWant ≠ 12288))))

/-- REGION_MARK (13 R368): a section begins and its region's frames are cleared. The first of an image is its first frame write
(R380): quarantined wire groups are retested before it (09 R254), and a persona in service stops. -/
def execRegionMark (t w : Nat) (rec : Bytes) (s : State) : Host.Outcome State Fault Refusal :=
  .next ((s.at t).takeRecord w 3 (fun _ => 8) rec fun l rec s =>
    let r := byteAt rec 1
    if (firstBad rec (rsv 2 2)).isSome ∨ l.nextSection w ≠ some r then s.badRecord w l 0
    else
      let s1 :=
        if !l.writes then s
        else if 8 ≤ w then
          let s1 := if l.begun then s else s.retestGroups fun _ => true
          (if l.begun ∨ !s1.boot.loaded.valid then s1 else s1.stopPersona).clearFrames r
        else (s.retestGroups fun k => decide (groupHome k = w)).clearFrames r
      s1.setLoad w (some { (l.took rec 8) with sect := some r, secWant := fld rec 4 4, secGot := 0,
                                               secBad := l.sectionBad, crcs := [], begun := l.begun || l.writes }))

/-- The image in internal slot 1 is the factory's (13 R358; 14 R403): its data area is Straw's, whatever the operands of its FRAME
records name there (log 26). -/
def State.strawData (s : State) (r : Nat) : State :=
  (List.range 256).foldl (fun s k => s.setFrame (regionFrame r (1792 + k)) (slice (strawArea r) (256 * k) 256)) s

/-- A full image has passed check 9 (13 R377, R379, R381): DONE is released, and start-up goes on. -/
def State.imagePassed (s : State) (l : Load) : State :=
  let straw := decide (l.source = 2) && decide (l.imgSlot = 1)
  let s0 := if straw then (List.range 8).foldl (fun s r => s.strawData r) s else s
  let s1 := (List.range 8).foldl (fun s r => s.setRegion r { s.region r with isolated := false, fallow := false }) (s0.setLoad 8 none)
  let b := s1.boot
  { s1 with
    boot := { b with loaded := { valid := true, source := l.source, slot := l.imgSlot, version := l.hdr.version,
                                 keyIndex := if straw then 0xFF else l.hdr.keyIndex, digest := l.hdr.digest },
                     doneDriven := false, doneReleasedAt := some s1.now, fallow := false, trying := false,
                     doneSlot := l.slot, doneFrames := l.written, cfgResult := if l.mode = 3 then 0 else b.cfgResult,
                     cfgFrames := if l.mode = 3 then l.written else b.cfgFrames }
    fab := { s1.fab with latch := [] }
    time := { s1.time with step := 6 } }

/-- END (13 R369, R377 checks 8 and 9): the digest runs from the body's first byte through byte 11 of END. -/
def execEndRecord (t w : Nat) (rec : Bytes) (s : State) : Host.Outcome State Fault Refusal :=
  .next ((s.at t).takeRecord w 15 (fun _ => 60) rec fun l rec s =>
    let d := slice rec 12 48
    if (firstBad rec (rsv 1 3)).isSome ∨ l.used + 60 ≠ l.total ∨ l.sect ≠ some (if w < 8 then w else 7) then s.badRecord w l 0
    else if fld rec 4 4 ≠ l.written ∨ l.hdr.frames ≠ l.written ∨ fld rec 8 4 ≠ l.records ∨ l.sectionBad then (s.logLoad w l 0x707 0).failLoad w 1
    else if (l.took rec 12).sha.digest ≠ d ∨ d ≠ l.hdr.digest then (s.logLoad w l 0x708 0).failLoad w 2
    else if w < 8 then s.setLoad w (some { (l.took rec 12) with stage := 6 })
    else if !l.writes then
      let s1 := s.setLoad 8 none
      { s1 with boot := { s1.boot with fallback := some l.head, cfgResult := 0, cfgFrames := l.written } }
    else s.imagePassed l)

/-- Is an image still being read? -/
def Load.reading (l : Load) : Bool := decide (1 ≤ l.stage) && decide (l.stage ≤ 3)

/-- PERSONA_EARLY_END (13 R377): a short read, no END, or the stored length reached without END. -/
def execPersonaEarlyEnd (t w : Nat) (s : State) : Host.Outcome State Fault Refusal :=
  let s := s.at t
  match s.load w with
  | none => .next s
  | some l => .next (if l.reading then (s.logLoad w l 0x709 0).failLoad w 5 else s)

/-- PERSONA_TIMEOUT (13 R377, R378): 5 s from the first header byte without passing check 9. -/
def execPersonaTimeout (t w : Nat) (s : State) : Host.Outcome State Fault Refusal :=
  let s := s.at t
  match s.load w with
  | none => .next s
  | some l => .next (if l.reading && decide (l.start + 1250000000 ≤ s.now) then (s.logLoad w l 0x70A 0).failLoad w 6 else s)

end Sys2Proof.Machine
end

