-- ==== Sys2Proof/Machine/DataArea.lean ====
section
/-! DEFINITION. The data area of a persona: its items, and applying them (13_personas.md R373, R384, R387;
14_startup_defaults.md R400, R401). -/

namespace Sys2Proof.Machine

/-- The 65,536 bytes of a region's data area (13 R370). -/
def State.dataArea (s : State) (r : Nat) : Bytes := (List.range 256).flatMap fun k => s.frame (regionFrame r (1792 + k))

/-- The items of a data area, as (offset, type, body): a body that runs past the area is cut short, and no more follows. The
fuel is the number of 8-byte places. -/
def readItems : Nat → Nat → Bytes → List (Nat × Nat × Bytes)
  | 0, _, _ => []
  | f + 1, o, b =>
    let ty := fld b 0 2
    let len := fld b 4 4
    if b.length < 8 ∨ ty = 0 then []
    else if (firstBad b (rsv 2 2)).isSome ∨ b.length < 8 + len then [(o, 0xFFFF, [])]
    else
      let n := 8 + (len + 7) / 8 * 8
      (o, ty, slice b 8 len) :: readItems f (o + n) (b.drop n)

/-- The items of a region; an offset counts on from the regions before it (log 25). -/
def State.items (s : State) (r : Nat) : List (Nat × Nat × Bytes) := readItems 8192 (65536 * r) (s.dataArea r)

/-- An item is skipped (13 R373). -/
def State.skipItem (s : State) (off status : Nat) : State := s.log 0x70D 4 0 off status

/-- Run a command's body as an item; answers its status. -/
def State.asItem (s : State) (f : State → State) : State × Nat :=
  let s1 := f { s with boot := { s.boot with itemResult := none } }
  ({ s1 with boot := { s1.boot with itemResult := none } }, s1.boot.itemResult.getD stOK)

/-- Run an item, and log it where it fails its checks. -/
def State.tryItem (s : State) (off : Nat) (f : State → State) : State :=
  let r := s.asItem f
  if r.2 = stOK then r.1 else r.1.skipItem off r.2

/-- The end of an item that fails. -/
def State.itemFail (s : State) (status : Nat) : State := s.final 4096 status 0 0

/-- A PIN_MAP item (13 R373; 12 R354); `only` is the region that a partial persona may name: the home region of hard port k is k (16
R445). -/
def itemPinMap (only : Option Nat) (b : Bytes) (s : State) : State :=
  let n := b.length / 8
  let l := (List.range n).map fun i => readPinMap b i
  let st := s.mapsStatus l
  let out : Bool := match only with
    | none => false
    | some r => l.any fun e => (decide (e.2.fn = 1) && decide (e.2.idx / 128 ≠ r)) || (decide (e.2.fn = 2) && decide (e.2.idx / 16 ≠ r))
  if b.length % 8 ≠ 0 ∨ entriesBad b n then s.itemFail stBAD_ARG
  else if n = 0 ∨ 64 < n ∨ out then s.itemFail stRANGE
  else if st ≠ stOK then s.itemFail st
  else s.queueMaps none l

/-- A CONVERTER item: a CONV_CONFIG record and its step records (05 R139, R141; 06 R168, R169). -/
def itemConverter (only : Option Nat) (b : Bytes) (s : State) : State :=
  let c := byteAt b 0
  let n := (b.length - 16) / 8
  let g := readCfg b
  let steps := (List.range (min n 64)).map fun i => readStep c b (16 + 8 * i)
  let out : Bool := match only with
    | none => false
    | some r => decide (convRegion c ≠ r)
  let st := if s.cfgStatus g ≠ stOK then s.cfgStatus g else s.seqStatus c n steps
  if b.length < 16 ∨ b.length % 8 ≠ 0 ∨ (cfgBad b).isSome ∨ (stepsBad c (b.drop 16) (min n 64)).isSome then s.itemFail stBAD_ARG
  else if 192 ≤ c ∨ out then s.itemFail stRANGE
  else if st ≠ stOK then s.itemFail st
  else if (s.region (convRegion c)).failed then s.itemFail stFAULT
  else (s.queueConv c 4096 (some g) []).queueConv c 4096 none steps

/-- A DAC item: a DAC_RANGE record (07 R204). -/
def itemDac (only : Option Nat) (b : Bytes) (s : State) : State :=
  let out : Bool := match only with
    | none => false
    | some r => decide (byteAt b 0 / 8 ≠ r)
  if b.length ≠ 24 ∨ (firstBad b ((2, 0xFC) :: rsv 14 10)).isSome then s.itemFail stBAD_ARG
  else if out then s.itemFail stRANGE
  else bodyDacRange (.dacRange default) 4096 b s

/-- A DDS item: a DDS_CONFIG record (07 R205). -/
def itemDds (only : Option Nat) (b : Bytes) (s : State) : State :=
  let out : Bool := match only with
    | none => false
    | some r => decide (byteAt b 0 / 8 ≠ r)
  if b.length ≠ 40 ∨ (firstBad b ((1, 0xF8) :: rsv 2 2 ++ rsv 30 2 ++ (if bit (byteAt b 1) 0 then [] else rsv 32 8))).isSome then s.itemFail stBAD_ARG
  else if out then s.itemFail stRANGE
  else bodyDdsConfig (.ddsConfig default) 4096 b s

/-! ### GRAPH items (13 R373, R387; 14 R400; 03 R69, R80) -/

/-- Does a graph name a pair, ball, converter or pin outside a region? -/
def Graph.outside (g : Graph) (r : Nat) : Bool :=
  (g.nets.any fun n => (decide (n.drvKind = 1) && decide (n.drv / 16 ≠ r)) || n.loads.any fun l =>
    (decide (loadKind l = 1) && decide (convRegion (loadConv l) ≠ r)) || (decide (loadKind l = 2) && decide (loadBall l % 128 / 16 ≠ r))) ||
  g.prims.any fun p => match p.pin with
    | none => false
    | some q => match q.scope with
      | 0 => decide (q.num ≠ r)
      | 1 => decide (q.num / 8 ≠ r)
      | _ => decide (q.num / 128 ≠ r)

/-- A graph takes its place at once: its cells, tracks and taps, built and owned (03 R69, R91; 08 R218). -/
def State.installGraph (s : State) (slot : Nat) (g0 : Graph) : State :=
  let g1 : Graph := { g0 with phase := 7, outcome := outcomeOf g0 }
  let g : Graph := { g1 with temp := s.graphTemp g1 }
  let s1 := g.cells.foldl (fun s n => s.builtCell n) (s.claim slot g)
  let s2 := g.cells.foldl (fun s n => s.markCell n 1 slot true) s1
  let s3 := (g.spareCells.foldl (fun s n => s.markCell n 2 slot true) s2).takeNets g slot true
  let s4 := g.cells.foldl (fun s n => s.makeDue 0 n (s.blockTemp (n / 16)) 0 []) s3
  s4.controls g

/-- The best of the placements that phases 2 to 5 of R69 build for a graph, with their measurements; none where it cannot be
built. -/
def State.buildGraph (s : State) (slot : Nat) (g : Graph) (meas : List Measured) : Option Graph :=
  (if s.portsTaken slot g then none else s.best {} g).map fun x =>
    let g' : Graph := { g with regions := x.prims.map fun p => cellRegion p.c0, globals := x.globalTracks }
    let first := s.measured x (meas.headD [])
    if shortLt (worst x) (worst first) then s.further g'.bare ((meas.drop 1).take 2) 2 [x.cells] first else first

/-- The graph that an image gives in a slot, or the status of a failure. An image with REPORT_ONLY gives no graph and fails with BAD_ARG
(DESIGN CHOICE, log 26). -/
def State.placeImage (s : State) (slot : Nat) (img : Bytes) (meas : List Measured) : Except Nat Graph :=
  match parseGraph img img.length (2 ^ 32) with
  | .error st => .error st
  | .ok g0 =>
    if g0.reportOnly then .error stBAD_ARG
    else match s.buildGraph slot { g0 with start := s.now, persona := true } meas with
      | none => .error stNO_RESOURCE
      | some g =>
        if s.ctrlState (g.prims.map fun p => cellRegion p.c0) = 2 then .error stFAULT
        else if 2 ≤ outcomeOf g then .error (outcomeStatus (outcomeOf g)) else .ok g

/-- A GRAPH item placed as a new graph object (14 R400). -/
def State.newItemGraph (s : State) (off : Nat) (img : Bytes) (meas : List Measured) : State :=
  match s.chip.freeSlots with
  | [] => s.skipItem off stNO_RESOURCE
  | slot :: rest =>
    match s.placeImage slot img meas with
    | .error st => s.skipItem off st
    | .ok g =>
      let h : Hnd := { st := 2, gen := nextGen slot (s.hnd slot).gen, opcode := 0x0100, kind := 1, acc := s.chip.accSeq, persona := true }
      let s1 := s.setHnd slot h
      let s2 : State := { s1 with chip := { s1.chip with freeSlots := rest, accSeq := s1.chip.accSeq + 1 } }
      ((s2.bump 0 0).installGraph slot g).log 0x210 4 0 (h.value slot) g.userTag

/-- A graph that the new persona takes over (13 R387): its old place is given up, and the item's image placed under its handle;
where that fails the graph keeps its handle with no cells. -/
def State.takeOverGraph (s : State) (off slot : Nat) (img : Bytes) (meas : List Measured) : State :=
  match s.graph slot with
  | none => s.skipItem off stBAD_HANDLE
  | some old =>
    let s1 := s.unclaim old
    let out (s : State) (new : Nat) : State :=
      if new = old.outcome then s else s.log 0x206 4 0 ((s.hnd slot).value slot) (new + old.outcome * 256)
    match s1.placeImage slot img meas with
    | .ok g => out (s1.installGraph slot g) (outcomeOf g)
    | .error st =>
      let g : Graph := match parseGraph img img.length (2 ^ 32) with
        | .ok g => { g.bare with phase := 7, persona := true, outcome := 3 }
        | .error _ => { old.bare with outcome := 3 }
      out ((s1.setGraph slot (some g)).skipItem off st) 3

/-- Apply the GRAPH items of a list in turn, each with its measurements; `taken` are the graphs that may be taken over. -/
def State.graphItems (s : State) (only : Option Nat) (taken : List Nat) (items : List (Nat × Nat × Bytes)) (meas : List (List Measured)) : State :=
  (items.zipIdx).foldl (fun s e =>
    let img := e.1.2.2
    let m := meas.getD e.2 []
    let tag := fld img 44 8
    let outside : Bool := match only, parseGraph img img.length (2 ^ 32) with
      | some r, .ok g => g.outside r
      | _, _ => false
    if outside then s.skipItem e.1.1 stRANGE
    else match taken.find? fun k => (s.graph k).any fun g => decide (g.userTag = tag) with
      | some slot => s.takeOverGraph e.1.1 slot img m
      | none => s.newItemGraph e.1.1 img m) s

/-- The order of R400 below the pins: DAC, DDS, GRAPH and CONVERTER items; an item of no known type is skipped with them. -/
def State.applyItems (s : State) (only : Option Nat) (taken : List Nat) (items : List (Nat × Nat × Bytes)) (meas : List (List Measured)) : State :=
  let of_ (ty : Nat) := items.filter fun e => decide (e.2.1 = ty)
  let s1 := (items.filter fun e => decide (5 < e.2.1)).foldl (fun s e => s.skipItem e.1 stBAD_ARG) s
  let s2 := (of_ 4).foldl (fun s e => s.tryItem e.1 (itemDac only e.2.2)) s1
  let s3 := (of_ 5).foldl (fun s e => s.tryItem e.1 (itemDds only e.2.2)) s2
  let s4 := s3.graphItems only taken (of_ 1) meas
  (of_ 3).foldl (fun s e => s.tryItem e.1 (itemConverter only e.2.2)) s4

/-- The PIN_MAP items. -/
def State.pinItems (s : State) (only : Option Nat) (items : List (Nat × Nat × Bytes)) : State :=
  (items.filter fun e => decide (e.2.1 = 2)).foldl (fun s e => s.tryItem e.1 (itemPinMap only e.2.2)) s

end Sys2Proof.Machine
end

