-- ==== Sys2Proof/Machine/RegionLoad.lean ====
section
/-! DEFINITION. Isolation and release of a region that is being loaded (13_personas.md R384-R388; 04_transplant_and_stolon.md
R112; 07_outputs_dds.md R202; 16_pins_ports.md R442). -/

namespace Sys2Proof.Machine

/-! ### Latches (13 R385) -/

/-- A fabric signal as its receivers see it takes a level: a change is an edge to the trigger logic and the cell controls. -/
def State.signalTo (s : State) (n : Nat) (level : Bool) : State :=
  if s.til.ctl.contains (2 ^ 28 + n) = level then s
  else
    let s1 := s.setCtl (2 ^ 28 + n) level
    (s1.convs.filter fun e => e.2.listens 1 n (!level)).foldl (fun s e => (s.acceptTrig e.1).1) s1

/-- Latch entry `i` at a level. -/
def State.setLatch (s : State) (i : Nat) (v : Bool) : State := { s with fab := { s.fab with latch := Tbl.set none i (some v) s.fab.latch } }

/-- Latch the boundary fabric signals of a region. -/
def State.latchSignals (s : State) (r : Nat) : State :=
  (List.range 128).foldl (fun s i =>
    let n := 128 * r + i
    let v := match s.sigIso n with
      | 1 => false
      | 2 => true
      | _ => s.til.ctl.contains (2 ^ 28 + n)
    (s.setLatch n v).signalTo n v) s

/-- Latch the global wires that a region drives: what a HOLD latch holds is a level of user logic (log 15). -/
def State.latchWires (s : State) (r : Nat) : State :=
  (s.fab.frames.filter fun e => decide (10240 + 1152 ≤ e.1 % 12288) && decide (e.1 % 12288 < 10240 + 1368)).foldl (fun s e =>
    let g := 216 * (e.1 / 12288) + (e.1 % 12288 - 10240 - 1152)
    (List.range 8).foldl (fun s w =>
      if !((s.drivers (47424 + g) w).any fun d => decide (d.1 = r)) then s
      else match s.wireIso (47424 + g) w with
        | 1 => s.setLatch (1024 + 8 * g + w) false
        | 2 => s.setLatch (1024 + 8 * g + w) true
        | _ => let f := s.fresh; f.2.setLatch (1024 + 8 * g + w) (decide (f.1 % 2 = 1))) s) s

/-- Release the latches of a region: those of its signals, and of the wires that it drives. -/
def State.releaseLatches (s : State) (r : Nat) : State :=
  { s with fab := { s.fab with latch := s.fab.latch.filter fun e =>
      if e.1 < 1024 then decide (e.1 / 128 ≠ r)
      else !((s.drivers (47424 + (e.1 - 1024) / 8) ((e.1 - 1024) % 8)).any fun d => decide (d.1 = r)) } }

/-! ### Suspension (13 R386) -/

/-- Does a mapping take its output or enable from a fabric signal of a region? -/
def mapsRegion (r : Nat) (m : PinMapE) : Bool := decide (m.fn = 1) && decide (m.idx / 128 = r)

/-- The nets of a graph that cross a global track between a region and another one, and whose driver lies in it, as (net, kind): kind 0
is tied to AGND at its receivers, where every primitive that it loads outside the region does so at an INT; kind 1 is held by
track-and-hold. -/
def heldNets (g : Graph) (r : Nat) (susp : List Nat) : List (Nat × Nat) :=
  (List.range g.nets.length).filterMap fun j =>
    let n := g.nets.getD j noNet
    let away := (n.loads.filter fun c => loadKind c == 0).filter fun c => decide (cellRegion (g.prim (loadPrim c)).c0 ≠ r)
    if decide (n.drvKind = 0) && susp.contains n.drv && (n.segs.any fun k => decide (5120 ≤ k) && decide (k < 5184)) &&
        n.segs.any (fun k => decide (4096 ≤ k) && decide (k < 5120) && decide ((k - 4096) / 128 ≠ r))
    then some (j, if away.all fun c => (g.prim (loadPrim c)).ty == 5 then 0 else 1) else none

/-- A repair of a function that is suspended ends; its destination is given back, and CAL_RUN commands count no run. -/
def State.dropRepair (s : State) (slot i : Nat) : State :=
  (List.range 8).foldl (fun s r =>
    let v := s.region r
    match v.repairs.find? fun q => decide (q.graph = slot) && decide (q.prim = i) with
    | none => s
    | some q =>
      let s1 := (s.setRegion r { v with repairs := v.repairs.filter fun x => decide (x ≠ q) }).dropTracks slot q.nets
      q.cmds.foldl (fun s c => s.calEnded c 0 0) (q.dest.elim s1 fun d => s1.giveBack slot (placeCells d))) s

/-- Suspend a function: its cells are powered down and released, its converters start HELD marking. -/
def State.suspend (s : State) (slot i : Nat) : State :=
  match s.graph slot with
  | none => s
  | some g =>
    let s1 := (s.til.moves.filter fun m => decide (m.graph = slot) && decide (m.prim = i)).foldl (fun s m => s.abandonMove m stFAULT 3) (s.dropRepair slot i)
    let s2 := s1.startHeld slot i g (fun _ => true) s1.now none
    let s3 := ((g.prim i).cells ++ s2.vacated slot i).eraseDups.foldl (fun s n => (s.forgetCal 0 n).freeCell n) s2
    match s3.graph slot with
    | none => s3
    | some g1 => s3.setGraph slot (some (g1.setPrim i (g1.prim i).bare))

/-- REGION_ISOLATION (13 R384 step 3, R385, R386): every evacuation has ended. The isolation counts as the load's first frame
write (log 25). -/
def execRegionIsolation (t r : Nat) (s : State) : Host.Outcome State Fault Refusal :=
  let s := s.at t
  ifUnit (decide (r < 8)) (match s.load r with
    | none => s
    | some l =>
      if l.stage ≠ 2 ∨ !(s.evacuations r).isEmpty ∨ !s.ctrlOk r then s
      else
        let fns := s.fnsIn r
        let s1 := (s.latchSignals r).latchWires r
        let s2 := s1.setRegion r { s1.region r with isolated := true }
        let s3 := (s2.clearGuarded fun n => decide (n / 4096 = r)).pinsToConfig (mapsRegion r) true
        let s4 := (List.range 64).foldl (fun s n => if n / 8 = r then s.setDac n { s.dac n with busHeld := true } else s) s3
        let s5 := ((fns.map (·.1)).eraseDups).foldl (fun (s : State) gs => match s.graph gs with
          | none => s
          | some g => s.setGraph gs (some { g with held := g.held ++ heldNets g r ((fns.filter fun f => decide (f.1 = gs)).map (·.2)) })) s4
        let s6 := fns.foldl (fun s f => s.suspend f.1 f.2) s5
        s6.setLoad r (some { l with stage := 3, begun := true, susp := fns, heldFns := (fns.filter fun f => !l.taken.contains f.1).length }))

/-! ### Release (13 R384 steps 6 and 7) -/

/-- Place a suspended function again as a placement `x` of its graph has it: its HELD marking ends, and the nets that it drives are
released (04 R112). -/
def State.placeAgain (s : State) (slot i : Nat) (x : Graph) : State :=
  let d := (x.prim i).place i
  let routes := x.netIdx.map fun j => (j, x.segsOf j)
  let s1 := (placeCells d).foldl (fun s n => (s.yieldCell n 1).takeCell n slot i d.bias false true) (s.yieldSegs x.allSegs 1)
  let s2 := (s1.swapPlaces slot i d routes).configPrim (x.prim i)
  let s3 := (placeCells d).foldl (fun s n => (s.builtCell n).makeDue 0 n (s.blockTemp (n / 16)) 0 []) s2
  let s4 := s3.endHeld slot i
  { s4 with til := { s4.til with graphs := Tbl.upd none slot (fun o => o.map fun g =>
      { g with held := g.held.filter fun e => decide ((g.nets.getD e.1 noNet).drv ≠ i) }) s4.til.graphs } }

/-- The graphs with functions that a load suspended and that have no cells yet, in slot order. -/
def State.suspended (s : State) (l : Load) : List Nat :=
  sortBy (fun a b => decide (a ≤ b)) ((l.susp.filter fun f => (s.graph f.1).any fun g => decide ((g.prim f.2).c0 = 0xFFFF)).map (·.1)).eraseDups

/-- Place a suspended graph again from its former image: its suspended primitives take the cells that rank first beside those of the
others, and one for which there are none is left without cells, as after a repair that finds none (DESIGN CHOICE, log 25). -/
def State.restoreGraph (s : State) (slot : Nat) (meas : Measured) : State :=
  match s.graph slot with
  | none => s
  | some g =>
    let all := List.range g.prims.length
    let out := all.filter fun i => decide ((g.prim i).c0 = 0xFFFF)
    match s.bestPlacement { stay := some (all.filter fun i => !out.contains i), ready := true } g with
    | some x =>
      let s1 : State := { s with til := { s.til with stranded := s.til.stranded.filter fun q => q.graph != slot } }
      (out.foldl (fun s i => s.placeAgain slot i x) (s1.setGraph slot (some { g with specs := x.specs }))).reevalBy slot (fun r => out.contains r.prim) meas
    | none =>
      let s1 := s.reevalBy slot (fun r => out.contains r.prim) []
      { s1 with til := { s1.til with stranded := s1.til.stranded ++
        (out.filter fun i => !(s1.til.stranded.any fun q => q.graph == slot && q.prim == i)).map fun i => { graph := slot, prim := i, first := s1.now } } }

/-- Place suspended graphs again, each with its measurements. -/
def State.placeSuspended (s : State) (l : Load) (meas : List (List Measured)) : State :=
  ((s.suspended l).zipIdx).foldl (fun s e => s.restoreGraph e.1 ((meas.getD e.2 []).headD [])) s

/-- The FINAL of a REGION_LOAD (12 R347). -/
def State.endRegion (s : State) (r : Nat) (l : Load) : State :=
  let s1 := (s.setRegion r { s.region r with loading := false, isolated := false }).setLoad r none
  let st := if l.reason = 0 ∧ 0 < l.heldFns then stDEGRADED else loadStatus l.reason
  match l.slot with
  | none => s1
  | some h => s1.final h st l.written (l.reason + l.heldFns * 65536)

/-- REGION_CLOCK_RELEASE (13 R384 steps 6 and 7; R387, R388): the clocks and latches of a region are released and its items
applied; after a failed load the region is fallow, and only suspended functions are placed again. `meas` are the measurements of
the GRAPH items in order, then of the suspended graphs by slot. -/
def execRegionClockRelease (t r : Nat) (meas : List (List Measured)) (s : State) : Host.Outcome State Fault Refusal :=
  let s := s.at t
  ifUnit (decide (r < 8)) (match s.load r with
    | none => s
    | some l =>
      if !s.ctrlOk r ∧ !(s.region r).failed then s
      else if l.stage = 7 then ((s.placeSuspended l meas).endRegion r l).cellsFreed.resume
      else if l.stage ≠ 6 then s
      else
        let s1 := (s.setRegion r { s.region r with isolated := false, fallow := false }).initFFs r
        let s2 := s1.releaseLatches r
        let s3 := (List.range 64).foldl (fun s n => if n / 8 = r then s.setDac n { s.dac n with busHeld := false } else s) s2
        let s4 := s3.reswitch ((s3.pin.pins.filter fun e => e.2.own.any (mapsRegion r)).map (·.1))
        let items := s4.items r
        let n := (items.filter fun e => decide (e.2.1 = 1)).length
        let s5 := (s4.pinItems (some r) items).applyItems (some r) l.taken items meas
        ((s5.placeSuspended l (meas.drop n)).endRegion r l).cellsFreed.resume)

end Sys2Proof.Machine
end

