-- ==== Sys2Proof/Machine/Husk.lean ====
section
/-! DEFINITION. Husk: sensors and alarms, the alarm policy, key provisioning and attestation (15_husk_security.md R408-R426;
12_command_reference.md R330, R352, R353; 17_faults_log.md R468). -/

namespace Sys2Proof.Machine

/-! ### Alarms (15 R408-R413) -/

/-- The class that the policy in force gives a sensor, and whether it is enabled. -/
def AlarmPolicy.cls (p : AlarmPolicy) (n : Nat) : Nat := p.classes.getD n 0
def AlarmPolicy.on (p : AlarmPolicy) (n : Nat) : Bool := p.enabled.getD n false

/-- A set bit in a mask of sensors. -/
def withBit (m n : Nat) : Nat := if bit m n then m else m + 2 ^ n

/-- The newest 256 log entries, those held in a management core restart among them, are captured (17 R467, R468). -/
def State.captureLog (s : State) : State :=
  let l := s.chip.log ++ s.chip.heldLog
  { s with husk := { s.husk with capture := l.drop (l.length - 256), captureDue := true } }

/-- The commands of R330 in flight end with ALARM where they can be stopped; loads always do (12 R330; 13 R392). A full load
whose image has passed ends with ALARM too, and the device is as in Fallow. -/
def State.alarmCmds (s : State) : State :=
  let loads := (List.range 9).foldl (fun s w => match s.load w with
    | none => s
    | some l => if l.stage = 7 then s.setLoad w (some { l with reason := 7 }) else s.failLoad w 7) s
  let waiting := match loads.boot.doneSlot with
    | none => loads
    | some h =>
      let image := loads.boot.loaded.source * 256 + loads.boot.loaded.slot
      let s1 := (loads.final h stALARM loads.boot.doneFrames 7).enterFallow image 7
      { s1 with boot := { s1.boot with doneSlot := none } }
  (waiting.inFlight.filter fun e => lockedOps.contains e.2.opcode && decide (e.2.opcode ≠ 0x0600)).foldl (fun s e => (s.stopCmd e.1 stALARM).1) waiting

/-- The persona is halted, DAC channels go to their fault values, debug and read-back are locked (15 R411; 09 R251; 07 R200;
19 R502). -/
def State.haltPersona (s : State) : State :=
  let s1 := s.alarmCmds
  let s2 := s1.clearGuarded fun _ => true
  let s3 := ({ s2 with fab := { s2.fab with gated := true } } : State).pinsDown
  let s4 := (List.range 64).foldl (fun s n => s.dacFault n) s3
  let tap := s4.pin.tapInstr
  { s4 with husk := { s4.husk with halted := true, debugLocked := true },
            pin := { s4.pin with tapInstr := if tap = 0 ∨ tap = 3 ∨ tap = 4 then 0xFF else tap } }

/-- The actions that a class adds to those already taken (15 R411, R412). -/
def State.alarmActions (s : State) (was c : Nat) : State :=
  let s1 := if was = 0 ∧ 1 ≤ c then s.haltPersona else s
  let s2 : State := if was < 2 ∧ 2 ≤ c then { s1 with husk := { s1.husk with keyRam := [], keyCheck := [], keyValid := 0, workErased := true } } else s1
  if was < 3 ∧ 3 ≤ c then
    let f := s2.husk.fuses
    { s2 with husk := { s2.husk with idErased := true, fuses := if f.keyKill = 7 then f else { f with keyKillPending := true } } }
  else s2

/-- An alarm of a class is raised by a sensor (15 R409, R411, R412; 17 R468, R469). -/
def State.raiseAlarm (s : State) (sensor cls detail : Nat) : State :=
  let s1 := (s.log 0x800 6 sensor cls detail).bump 0 6
  let h := s1.husk
  let s2 : State := { s1 with husk := { h with raised := withBit h.raised sensor, alarms := if cls = 0 then h.alarms else (h.alarms + 1) % 2 ^ 32 } }
  let was := if h.cls = 7 then 0 else h.cls
  if h.cls ≠ 7 ∧ cls ≤ h.cls then s2
  else
    let s3 : State := { s2 with husk := { s2.husk with cls := cls } }
    if cls = 0 then s3 else (s3.captureLog.alarmActions was cls).resume

/-- HUSK_ALARM (15 R409): the filter output of an enabled sensor becomes active; `detail` is the island or trace. -/
def execHuskAlarm (t sensor detail : Nat) (s : State) : Host.Outcome State Fault Refusal :=
  let s := s.at t
  ifUnit (decide (sensor < 8))
    (if !s.husk.policy.on sensor then s
     else ({ s with husk := { s.husk with active := withBit s.husk.active sensor } } : State).raiseAlarm sensor (s.husk.policy.cls sensor) detail)

/-- SENSOR_INACTIVE (15 R408; 18 R490). -/
def execSensorInactive (t sensor : Nat) (s : State) : Host.Outcome State Fault Refusal :=
  let s := s.at t
  ifUnit (decide (sensor < 8))
    (if bit s.husk.active sensor then { s with husk := { s.husk with active := s.husk.active - 2 ^ sensor } } else s)

/-- TAMPER_LATCH (15 R410): with the main supplies off, ISL_AON latches an event of an enabled tamper input; for a class of A2
or A3 it erases key RAM at once. -/
def execTamperLatch (t sensor : Nat) (s : State) : Host.Outcome State Fault Refusal :=
  let s := s.at t
  let w := s.husk.aon.getD (sensor - 5) (0, false)
  ifUnit (decide (sensor < 8))
    (if s.time.step ≠ 1 ∨ (sensor ≠ 5 ∧ sensor ≠ 6) ∨ !w.2 ∨ s.husk.latched.any (fun e => e.1 == sensor) then s
     else
       let h : Husk := { s.husk with latched := s.husk.latched ++ [(sensor, w.1)] }
       { s with husk := if 2 ≤ w.1 then { h with keyRam := [], keyCheck := [], keyValid := 0 } else h })

/-- Husk raises the latched alarms, at step 1 of the next start-up (15 R410). -/
def State.raiseLatched (s : State) : State :=
  s.husk.latched.foldl (fun s e => s.raiseAlarm e.1 e.2 0) ({ s with husk := { s.husk with latched := [] } } : State)

/-- KEY_KILL_BURN (15 R423): every bit of the key-kill fuse is blown. -/
def execKeyKillBurn (t : Nat) (s : State) : Host.Outcome State Fault Refusal :=
  let s := s.at t
  let f := s.husk.fuses
  .next (if f.keyKillPending then { s with husk := { s.husk with fuses := { f with keyKill := 7, keyKillPending := false } } } else s)

/-- CHECKPOINT_WRITE (17 R468): the captured entries replace the checkpoint area, oldest first. -/
def execCheckpointWrite (t : Nat) (s : State) : Host.Outcome State Fault Refusal :=
  let s := s.at t
  .next (if !s.husk.captureDue then s
    else { s with keep := { s.keep with checkpoint := s.husk.capture.map LogEntry.bytes }, husk := { s.husk with capture := [], captureDue := false } })

/-! ### The alarm policy (15 R414-R416) -/

/-- Entry `n` of a policy image. -/
def policyEntry (b : Bytes) (n : Nat) : Bytes := slice b (64 + 8 * n) 8

/-- Does an image keep the layout of R414, its signature block naming key index 0? -/
def policyLayout (b : Bytes) : Bool :=
  decide (b.length = 3520) && decide (fld b 0 4 = 0x4C50484C) && decide (fld b 4 2 = 1) && decide (fld b 6 2 = 128) && decide (byteAt b 8 = 8) &&
  (firstBad b (rsv 10 2 ++ rsv 16 48)).isNone && sigBlockOk b 128 && decide (byteAt b 134 = 0) &&
  (List.range 8).all fun n =>
    let e := policyEntry b n
    decide (byteAt e 0 = n) && (firstBad e ((2, if n = 5 ∨ n = 6 then 0xFC else 0xFE) :: rsv 3 1)).isNone

/-- The filter range of a sensor (15 R408). -/
def filterOk (n v : Nat) : Bool :=
  match n with
  | 3 => decide (100 ≤ v) && decide (v ≤ 100000)
  | 5 => decide (1 ≤ v) && decide (v ≤ 1000000)
  | 6 => decide (1 ≤ v) && decide (v ≤ 1000000)
  | 7 => decide (1000 ≤ v) && decide (v ≤ 1000000)
  | _ => decide (1 ≤ v) && decide (v ≤ 255)

/-- Are the fields of an image within their ranges? -/
def policyRange (b : Bytes) : Bool :=
  decide (1 ≤ byteAt b 9) && decide (byteAt b 9 ≤ 4) &&
  (List.range 8).all fun n => decide (byteAt (policyEntry b n) 1 < 4) && filterOk n (fld (policyEntry b n) 4 4)

/-- The policy that an image lays down. -/
def readAlarmPolicy (b : Bytes) : AlarmPolicy :=
  let e (n : Nat) : Bytes := policyEntry b n
  { classes := (List.range 8).map fun n => byteAt (e n) 1, enabled := (List.range 8).map fun n => bit (byteAt (e n) 2) 0,
    activeHigh := (List.range 8).map fun n => bit (byteAt (e n) 2) 1, filters := (List.range 8).map fun n => fld (e n) 4 4,
    keepLock := byteAt b 9, version := fld b 12 4, stored := true }

/-- What stands in for a policy that fails its checks while POLICY_LOCK is blown (15 R416). -/
def lockedPolicy : AlarmPolicy := { classes := [2, 2, 2, 2, 2, 0, 0, 2] }

/-- A policy comes into force; ISL_AON takes what it watches by. -/
def State.applyPolicy (s : State) (p : AlarmPolicy) : State :=
  { s with husk := { s.husk with policy := p, aon := [(p.cls 5, p.on 5), (p.cls 6, p.on 6)] } }

/-- Step 4 of start-up: Husk loads the stored policy (15 R416); `ok` says that its signatures verify. Where POLICY_LOCK is blown it
must match the fused digest. -/
def State.loadPolicy (s : State) (ok : Bool) : State :=
  match s.keep.alarm with
  | none => (s.applyPolicy {}).log 0x801 6 0 0 0
  | some b =>
    if policyLayout b ∧ policyRange b ∧ s.keyUsable 0 ∧ ok = true ∧ (s.husk.fuses.policyLock = true → sha384 b = s.husk.fuses.policyDigest) then s.applyPolicy (readAlarmPolicy b)
    else (s.applyPolicy (if s.husk.fuses.policyLock then lockedPolicy else {})).log 0x802 6 0 (fld b 12 4) 0

def bodyAlarmPolicy (image : Bytes) (cr : Crypto) (verified : Bool) (slot : Nat) (a : Bytes) (s : State) : State :=
  let len := fld a 2 2
  let b := (s.hostRead (fld a 8 8) len image)
  let lock := bit (byteAt a 0) 0
  if len = 0 ∨ 4096 < len then s.final slot stRANGE 0 0
  else if fld a 8 8 % 8 ≠ 0 ∨ !s.bufOk (fld a 8 8) len ∨ !policyLayout b then s.final slot stBAD_ARG 0 0
  else if !policyRange b then s.final slot stRANGE 0 0
  else if s.husk.fuses.policyLock ∨ s.keepLocked then s.final slot stLOCKED 0 0
  else if !s.keyUsable 0 ∨ !cr.ed ∨ !cr.ml then s.final slot stAUTH_FAIL 0 0
  else if !verified then s.final slot stFAULT 0 0
  else
    let s1 : State := { s with keep := { s.keep with alarm := some b } }
    let s2 := s1.applyPolicy (readAlarmPolicy b)
    let s3 : State := if lock then { s2 with husk := { s2.husk with fuses := { s2.husk.fuses with policyLock := true, policyDigest := sha384 b } } } else s2
    s3.final slot stOK 0 0

/-- ALARM_POLICY (15 R415; 12 R353): `cr` holds the answers of the two signatures, `verified` that the read-back matched. -/
def execAlarmPolicy (d : Desc) (image : Bytes) (cr : Crypto) (verified : Bool) (s : State) : Host.Outcome State Fault Refusal :=
  queueCmd d s fun s => s.command 0x0802 d (fun a => firstBad a ((0, 0xFE) :: rsv 1 1 ++ rsv 4 4)) (fun _ _ => none) (bodyAlarmPolicy image cr verified)

/-! ### Provisioning (15 R417-R423) -/

/-- Is a slot and flag allowed (15 R421)? Flags: 0 none, 1 STAGE, 2 EXPORT, 4 REVOKE, 8 ERASE. -/
def provisionOk (slot flags : Nat) : Bool :=
  if slot < 8 then decide (flags = 0) || decide (flags = 8)
  else if 0x10 ≤ slot ∧ slot < 0x14 then decide (flags = 0) || decide (flags = 1) || decide (flags = 2) || decide (flags = 4)
  else if slot = 0x20 ∨ slot = 0x28 then decide (flags = 0)
  else (decide (slot = 0x30) || decide (slot = 0x31) || decide (slot = 0x32)) && decide (flags = 2)

/-- Does a slot complete with LOCKED (15 R421)? -/
def State.provisionLocked (s : State) (slot : Nat) : Bool :=
  let f := s.husk.fuses
  if slot < 8 then s.keyKilled || f.personaSeed.isNone
  else if slot < 0x14 then bit f.revoked (slot - 0x10)
  else if slot = 0x20 then f.personaSeed.isSome || s.keyKilled
  else decide (slot = 0x30) && s.keyKilled

/-- The payload length that a slot and flag call for. -/
def payloadLen (slot flags : Nat) : Nat :=
  if flags = 4 ∨ flags = 8 then 0 else if slot < 8 then 60 else if slot < 0x14 then 48 else if slot = 0x20 then 32 else 4

/-- A payload padded to a multiple of 8. -/
def padded (n : Nat) : Nat := (n + 7) / 8 * 8

/-- Does a blob keep the layout of R420? -/
def State.blobOk (s : State) (b : Bytes) (slot flags : Nat) : Bool :=
  let n := payloadLen slot flags
  let o := 32 + padded n
  decide (b.length = o + 3392) && decide (fld b 0 4 = 0x4B42484C) && decide (fld b 4 2 = 1) && decide (byteAt b 6 = slot) && decide (byteAt b 7 = flags) &&
  decide (fld b 8 4 = n) && (firstBad b (rsv 12 4 ++ rsv 24 8 ++ rsv (32 + n) (padded n - n))).isNone &&
  (decide (fld b 16 8 = 0) || decide (fld b 16 8 = s.chip.serial)) && sigBlockOk b o && decide (byteAt b (o + 6) = 0)

/-- Does a staged record keep the layout of R422? -/
def stagedOk (b : Bytes) (i : Nat) : Bool :=
  decide (b.length = 1992) && decide (fld b 0 4 = 0x4B56484C) && decide (fld b 4 2 = 1) && decide (byteAt b 6 = i) && decide (byteAt b 7 = 0)

/-- A public record (15 R421). -/
def publicRecord (serial : Nat) (keys : Bytes) : Bytes :=
  toLE 4 0x4449484C ++ toLE 2 1 ++ zeros 2 ++ toLE 8 serial ++ slice keys 0 1984

/-- The record that EXPORT gives; none for an index that holds no key. -/
def State.exported (s : State) (slot : Nat) : Option Bytes :=
  match slot with
  | 0x30 => some (publicRecord s.chip.serial Config.identityKeys)
  | 0x31 => some (toLE 4 0x4753484C ++ toLE 2 3392 ++ zeros 2 ++ slice Config.endorsement 0 3373 ++ zeros 11)
  | 0x32 => some (publicRecord 0 Config.factoryKeys)
  | _ => Tbl.get none (slot - 0x10) s.husk.flashKeys

/-- Change the fuses. -/
def State.setFuses (s : State) (f : Fuses → Fuses) : State := { s with husk := { s.husk with fuses := f s.husk.fuses } }

/-- Key RAM: write or zero a slot (15 R419, R421). -/
def State.setKey (s : State) (k : Nat) (v : Option Bytes) : State :=
  let m := s.husk.keyValid
  { s with husk := { s.husk with keyRam := Tbl.set none k v s.husk.keyRam, keyCheck := Tbl.set none k (v.map Config.keyCheck) s.husk.keyCheck,
                                 keyValid := if v.isSome then withBit m k else if bit m k then m - 2 ^ k else m } }

/-- A commit of a verification key (15 R422): `staged` is what was staged. -/
def State.commitKey (s : State) (slot i : Nat) (staged : Option Bytes) (payload : Bytes) (cr : Crypto) : State :=
  let fused := Tbl.get none i s.husk.fuses.digests
  match staged with
  | none => s.final slot stBAD_ARG 0 0
  | some r =>
    if byteAt r 6 ≠ i ∨ sha384 r ≠ payload ∨ fused.any (fun f => f != payload) then s.final slot stBAD_ARG 0 0
    else if !cr.ed ∨ !cr.ml ∨ ((i ≠ 0 ∨ fused.isSome) ∧ !s.keyUsable 0) then s.final slot stAUTH_FAIL 0 0
    else
      let s1 : State := { s with husk := { s.husk with flashKeys := Tbl.set none i (some r) s.husk.flashKeys } }
      (s1.setFuses fun f => { f with digests := Tbl.set none i (some payload) f.digests }).final slot stOK 0 0

/-- A signed blob has passed its layout and locks. -/
def State.provision (s : State) (slot key flags : Nat) (b : Bytes) (staged : Option Bytes) (cr : Crypto) : State :=
  let payload := slice b 32 (payloadLen key flags)
  if 0x10 ≤ key ∧ key < 0x14 ∧ flags = 0 then s.commitKey slot (key - 0x10) staged payload cr
  else if !s.keyUsable 0 ∨ !cr.ed ∨ !cr.ml then s.final slot stAUTH_FAIL 0 0
  else if key < 8 then
    if flags = 8 then (s.setKey key none).final slot stOK 0 0
    else match (s.seedKey "LH8640 wrap").bind fun k => gcmOpen k (payload.take 12) (slice b 0 32) (payload.drop 12) with
      | none => s.final slot stAUTH_FAIL 0 0
      | some k => (s.setKey key (some (slice k 0 32))).final slot stOK 0 0
  else if key < 0x14 then (s.setFuses fun f => { f with revoked := withBit f.revoked (key - 0x10) }).final slot stOK 0 0
  else if key = 0x20 then (s.setFuses fun f => { f with personaSeed := some payload }).final slot stOK 0 0
  else (s.setFuses fun f => { f with debugDisable := f.debugDisable || bit (byteAt payload 0) 0 }).final slot stOK 0 0

def bodyKeyProvision (blob : Bytes) (cr : Crypto) (slot : Nat) (a : Bytes) (s0 : State) : State :=
  let key := byteAt a 0
  let flags := byteAt a 1
  let len := fld a 2 2
  let addr := fld a 8 8
  let staged := s0.husk.staged
  let s : State := { s0 with husk := { s0.husk with staged := none } }
  if len = 0 ∨ 4096 < len then s.final slot stRANGE 0 0
  else if addr % 8 ≠ 0 ∨ !s.bufOk addr len ∨ !provisionOk key flags then s.final slot stBAD_ARG 0 0
  else
    let b := s.hostRead addr len blob
    if flags = 2 then
      if s.provisionLocked key then s.final slot stLOCKED 0 0
      else match s.exported key with
        | none => s.final slot stBAD_ARG 0 0
        | some r => if len < r.length then s.final slot stBAD_ARG 0 0 else (s.hostWrite addr r).final slot stOK 0 0
    else if flags = 1 then
      if !stagedOk b (key - 0x10) then s.final slot stBAD_ARG 0 0
      else if s.provisionLocked key then s.final slot stLOCKED 0 0
      else ({ s with husk := { s.husk with staged := some b } } : State).final slot stOK 0 0
    else if !s.blobOk b key flags ∨ (key = 0x28 ∧ (firstBad b ((32, 0xFE) :: rsv 33 3)).isSome) then s.final slot stBAD_ARG 0 0
    else if s.provisionLocked key then s.final slot stLOCKED 0 0
    else s.provision slot key flags b staged cr

/-- KEY_PROVISION (15 R420-R422; 12 R353): `cr` holds the answers of the two signatures. -/
def execKeyProvision (d : Desc) (blob : Bytes) (cr : Crypto) (s : State) : Host.Outcome State Fault Refusal :=
  queueCmd d s fun s => s.command 0x0801 d (fun a => firstBad a ((1, 0xF0) :: rsv 4 4)) (fun _ _ => none) (bodyKeyProvision blob cr)

/-! ### Attestation (15 R425, R426) -/

/-- Analogue Ledger entries in a state. -/
def State.analogueIn (s : State) (st : Nat) : Nat :=
  if st = 0 then 49152 - (s.til.ledger.filter fun e => decide (e.1 < 49152) && decide ((s.led e.1).state ≠ 0)).length
  else (s.til.ledger.filter fun e => decide (e.1 < 49152) && decide ((s.led e.1).state = st)).length

/-- Logic cell entries placed, and routing segment entries quarantined. -/
def State.logicPlaced (s : State) : Nat :=
  (((List.range 8).flatMap fun r => s.lcsOf r).filter fun n => decide ((s.ledView (49152 + n)).state = 1)).length
def State.segsQuarantined (s : State) : Nat :=
  (s.til.ledger.filter fun e => decide (81920 ≤ e.1) && decide ((s.led e.1).state = 3)).length

/-- Bytes 0-271 of a report. -/
def State.report (s : State) (nonce : Bytes) : Bytes :=
  let l := s.boot.loaded
  let f := s.husk.fuses
  toLE 4 0x5441484C ++ toLE 2 1 ++ toLE 2 3648 ++ toLE 2 familyCode ++ toLE 2 partCode ++ toLE 1 revisionCode ++ [0] ++ toLE 2 pciVendor ++ toLE 2 pciDevice ++
  zeros 6 ++ toLE 8 s.chip.serial ++ toLE 8 s.now ++ slice nonce 0 32 ++ s.personaDigest ++ toLE 4 l.version ++ toLE 1 s.personaState ++ toLE 1 l.keyIndex ++
  (if l.source = 0 then toLE 2 0xFFFF else toLE 1 l.source ++ toLE 1 l.slot) ++ sha384 (slice Config.mgmtDigest 0 48 ++ slice Config.regionDigest 0 48) ++ toLE 2 s.chip.mgmtFw ++
  toLE 2 s.chip.regionFw ++ ((List.range 4).flatMap fun st => toLE 4 (s.analogueIn st)) ++ toLE 4 s.logicPlaced ++ toLE 4 s.segsQuarantined ++
  toLE 2 ((s.chip.handles.filter fun e => decide (e.2.st = 2) && decide (e.2.kind = 1)).length) ++ toLE 2 s.poolWarm ++ zeros 4 ++
  toLE 1 (if s.husk.cls = 7 then 0xFF else s.husk.cls) ++ toLE 1 (b2n f.policyLock + 2 * b2n f.debugDisable) ++
  toLE 1 (((List.range 4).map fun i => b2n (Tbl.get none i f.digests).isSome * 2 ^ i).sum + 16 * (f.revoked % 16)) ++ toLE 1 s.husk.keyValid ++
  (if s.husk.policy.stored then sha384 (s.keep.alarm.getD []) else zeros 48) ++ toLE 4 s.husk.alarms ++ zeros 4

def bodyAttest (sig : Bytes) (slot : Nat) (a : Bytes) (s : State) : State :=
  let addr := fld a 32 8
  let len := fld a 40 4
  if addr % 8 ≠ 0 ∨ len < 4096 ∨ !s.bufOk addr len then s.final slot stBAD_ARG 0 0
  else if s.keyKilled ∨ s.husk.idErased then s.final slot stLOCKED 0 0
  else (s.hostWrite addr (s.report (slice a 0 32) ++ slice sig 0 3373 ++ zeros 3)).final slot stOK 3648 0

/-- ATTEST (15 R425, R426; 12 R352): `sig` holds the two signatures. -/
def execAttest (d : Desc) (sig : Bytes) (s : State) : Host.Outcome State Fault Refusal :=
  queueCmd d s fun s => s.command 0x0800 d (fun a => firstBad a (rsv 44 4)) (fun _ _ => none) (bodyAttest sig)

end Sys2Proof.Machine
end

