-- ==== Sys2Proof/Machine/Boot.lean ====
section
/-! DEFINITION. Resets and the start-up sequence (14_startup_defaults.md R393-R407; 13_personas.md R359, R360, R381, R382;
16_pins_ports.md R448-R450; 18_setup_registers.md R473, R475, R477, R481, R486, R489). -/

namespace Sys2Proof.Machine

/-! ### Power-on resets (14 R393-R395; 15 R410, R412; 16 R448, R449; 18 R473) -/

/-- The commands that reset the external flash (16 R449). -/
def State.resetFlash (s : State) : State := (s.emit (.qspi 0x66 0)).emit (.qspi 0x99 0)

/-- A power-on reset: what is not volatile stays, all else takes its reset value; step 1 samples the balls and raises the
alarms that ISL_AON latched. -/
def State.powerOn (s : State) (cause : Nat) (cfgPull hostSel vrefSel : Bool) : State :=
  let h := s.husk
  let s1 : State :=
    { time := { cfgPull := cfgPull, localMode := hostSel, vrefSel := vrefSel }
      chip := { mgmtFw := s.chip.mgmtFw, regionFw := s.chip.regionFw, serial := s.chip.serial, resetCause := 2 ^ cause }
      keep := s.keep
      boot := { fallback := s.boot.fallback }
      husk := { fuses := h.fuses, flashKeys := h.flashKeys, keyRam := h.keyRam, keyValid := h.keyValid, keyCheck := h.keyCheck, latched := h.latched, aon := h.aon }
      out := s.out, freeCtr := s.freeCtr, pending := s.pending }
  s1.resetFlash.raiseLatched

/-- POR (14 R393): VCORE or VCCAUX rises through its power-on threshold. -/
def execPor (t : Nat) (cfgPull hostSel vrefSel : Bool) (s : State) : Host.Outcome State Fault Refusal :=
  .next ((s.at t).powerOn 0 cfgPull hostSel vrefSel)

/-- BROWNOUT (14 R393): after step 2. -/
def execBrownout (t : Nat) (cfgPull hostSel vrefSel : Bool) (s : State) : Host.Outcome State Fault Refusal :=
  let s := s.at t
  .next (if s.time.step < 3 then s else s.powerOn 1 cfgPull hostSel vrefSel)

/-! ### Warm resets (14 R393, R394; 13 R379; 15 R412; 18 R473) -/

/-- A reset cause accumulates. -/
def State.addCause (s : State) (i : Nat) : State := { s with chip := { s.chip with resetCause := withBit s.chip.resetCause i } }

/-- What a warm reset clears at once: handles, rings, the host interface, loads in progress, and what the management core was
doing. The log and the counters stay; entries held in a management core restart are written (log 29). -/
def State.warmHost (s : State) : State :=
  let held := s.chip.heldLog
  let b := s.boot
  let s1 : State :=
    { s with
      host := {}
      chip := { s.chip with restarting := false, failed := false, restartFrom := 0, dogs := [], sparesWarm := false, heldLog := [], heldFinals := [],
                            handles := [], freeSlots := List.range 4096, accSeq := 0 }
      boot := { slotSkip := b.slotSkip, hostFirst := b.hostFirst, doneAction := b.doneAction, hostWait := b.hostWait, doneTimeout := b.doneTimeout,
                imgAddr := b.imgAddr, imgLen := b.imgLen, qspiDummy := b.qspiDummy, qspiDelay := b.qspiDelay, qspiDiv := b.qspiDiv,
                fallback := b.fallback, fallow := b.fallow }
      sheaf := { epoch := s.sheaf.epoch } }
  held.foldl (fun s e => State.logAll 8 [e] s) s1

/-- A DAC channel loses its configuration; its step and rate are those of its Keep store record (07 R190). -/
def Dac.unconfigured (d : Dac) : Dac :=
  { d with period := d.nv.period, slewOn := false, step := d.nv.step, rate := d.nv.rate, newSlew := [], senseLocal := d.nv.senseLocal,
           senseNow := d.nv.senseLocal, haltOffset := false, limit := d.nv.limit, dwell := d.nv.dwell, dds := {}, outs := [], ddsq := [],
           busHeld := false, capData := 0, capValid := false, coef := [], newCoef := [], calTime := none, due := false, status := {}, calRes := none }

/-- After Fallow: every graph goes, every converter is OFF, the fabric is empty; CLK and PIN registers but PIN_OUTn stay. -/
def State.warmClear (s : State) : State :=
  let s1 : State :=
    { s with
      til := {}
      convs := []
      cal := { lastWrite := s.cal.lastWrite }
      fab := { spad := s.fab.spad, scrub := s.fab.scrub }
      clk := { s.clk with bootSync := false, rephasing := false }
      pin := { s.pin with switches := [], ports := [] }
      husk := { s.husk with cls := 7, halted := false, debugLocked := false, raised := 0, policy := {}, staged := none, workErased := false, idErased := false }
      time := { s.time with step := 3, done := false, selftestFail := false } }
  let s2 := (List.range 8).foldl (fun s g => s.setGck g { s.gck g with asserted := true }) s1
  let s3 := (List.range 12).foldl (fun s b => s.setBank b { s.bank b with out := 0 }) s2
  (List.range 64).foldl (fun s n => s.setDac n (s.dac n).unconfigured) s3

/-- A warm reset: the device enters Fallow and start-up runs from step 3. Before the timebase has started a warm reset finds
start-up short of step 3 and only sets its cause (log 29). -/
def State.warm (s : State) (cause : Nat) : State :=
  let s1 := s.addCause cause
  if !s1.time.running then s1
  else
    let image := s1.boot.loaded.source * 256 + s1.boot.loaded.slot
    (s1.warmHost.enterFallow image 0).warmClear

/-- RESET_N (14 R393): a low of 1 us or more. -/
def execResetN (t lowNs : Nat) (s : State) : Host.Outcome State Fault Refusal :=
  let s := s.at t
  .next (if lowNs < 1000 then s else s.warm 2)

/-- A write of CHIP_RESET_CTL (18 R475). -/
def State.writeResetCtl (s : State) (v : Nat) : State := if bit v 0 ∧ v / 65536 = 0xA5C3 then s.warm 3 else s

/-- WARM_RESET (14 R393; 18 R475). -/
def execWarmReset (t : Nat) (value : Word) (s : State) : Host.Outcome State Fault Refusal :=
  .next (if (s.at t).hostUp then (s.at t).writeResetCtl value.toNat else s.at t)

/-! ### Host-interface reset (14 R393, R394; 16 R450; 18 R473) -/

/-- Commands in flight run to their end with their completions discarded. -/
def State.discardAll (s : State) : State :=
  s.inFlight.foldl (fun s e => s.setHnd e.1 { s.hnd e.1 with discard := true }) s

/-- The graphs that the host placed. -/
def State.hostGraphs (s : State) : List Nat :=
  (s.chip.handles.filter fun e => decide (e.2.st = 2) && decide (e.2.kind = 1) && !e.2.persona).map (·.1)

/-- The host interface is reset. A STREAM_CLOSE in flight ends, for its stream is closed. -/
def State.resetHost (s : State) : State :=
  let s1 := (s.addCause 4).discardAll
  let closers := (s1.inFlight.filter fun e => match e.2.work with
    | .close _ => true
    | _ => false).map (·.1)
  let streams := (s1.chip.handles.filter fun e => decide (e.2.st = 2) && decide (e.2.kind = 2)).map (·.1)
  let s2 : State := { s1 with host := {} }
  let s3 := closers.foldl (fun s h => s.final h stOK 0 0) s2
  let s4 := streams.foldl (fun s h => s.release h) s3
  (s4.hostGraphs.foldl (fun s g => s.removeGraph g) s4).cellsFreed.resume

/-- PERST (14 R394): a PCI Express fundamental reset, or entry to D3hot. -/
def execPerst (t : Nat) (s : State) : Host.Outcome State Fault Refusal := .next ((s.at t).resetHost)

/-- LINK_TRAINED (18 R477): the speed code and the lanes. -/
def execLinkTrained (t speed width : Nat) (s : State) : Host.Outcome State Fault Refusal :=
  let s := s.at t
  .next (if s.time.localMode ∨ s.time.step < 4 ∨ speed = 0 ∨ 4 < speed ∨ !([1, 2, 4, 8].contains width) then s
    else { s with host := { s.host with speed := speed, width := width } })

/-- LINK_RETRAINING (18 R477). -/
def execLinkRetraining (t : Nat) (s : State) : Host.Outcome State Fault Refusal :=
  let s := s.at t
  .next { s with host := { s.host with speed := 0, width := 0 } }

/-! ### Steps 2 to 4 (14 R395-R398; 07 R195-R197) -/

/-- SUPPLIES_VALID (14 R395 step 2, R396): DAC channels read their records. -/
def execSuppliesValid (t : Nat) (s : State) : Host.Outcome State Fault Refusal :=
  let s := s.at t
  let s1 : State := if s.time.step = 1 then { s with time := { s.time with powerCount := 0, step := 3 } } else s
  .next ((List.range 64).foldl (fun s n => let d := s.dac n; if d.upStep = 1 then s.setDac n { d with upStep := 2 } else s) s1)

/-- The listed reference within 1 % of a measurement in kHz (18 R481). -/
def listedRef (khz : Nat) : Option Nat :=
  ([10000, 25000, 50000, 100000].zipIdx.find? fun e => decide (99 * e.1 ≤ 100 * khz) && decide (100 * khz ≤ 101 * e.1)).map (·.2)

/-- The timebase starts at 0, and DAC channels count on it from there (10 R272; 07 R196; log 29). -/
def State.startTimebase (s : State) (refKHz : Nat) : State :=
  let s1 : State := { s with time := { s.time with timebase := 0, running := true }, clk := { s.clk with lock := 15 } }
  let s2 := (List.range 64).foldl (fun s n =>
    let d := s.dac n
    s.setDac n { d with lastUpd := none, lastTick := none, lastConv := none, heldSince := 0, shortSince := d.shortSince.map fun a => a - s.time.powerCount,
                        rc := d.rc.map fun c => { c with since := 0 } }) s1
  match listedRef refKHz with
  | some f => { s2 with clk := { s2.clk with refFreq := f } }
  | none => s2.loseRef

/-- A self-test failure: the device stays at step 4, debug and read-back locked (14 R397). -/
def State.failSelfTest (s : State) (arg : Nat) : State :=
  let s1 := s.log 0x101 4 0 arg 0
  let tap := s1.pin.tapInstr
  { s1 with time := { s1.time with selftestFail := true }, husk := { s1.husk with debugLocked := true }
            pin := { s1.pin with tapInstr := if tap = 0 ∨ tap = 3 ∨ tap = 4 then 0xFF else tap } }

/-- PLL_LOCK (14 R395 step 3; 15 R423; 18 R481): an outstanding key-kill burn is finished, the fuses are read, and after a
power-on reset the timebase starts. `refKHz` is the reference as measured. -/
def execPllLock (t refKHz : Nat) (fuseOk : Bool) (s : State) : Host.Outcome State Fault Refusal :=
  let s := s.at t
  .next (if s.time.step ≠ 3 then s
    else
      let s1 := s.setFuses fun f => if f.keyKillPending then { f with keyKill := 7, keyKillPending := false } else f
      let s2 := if s1.time.running then s1 else s1.startTimebase refKHz
      let s3 : State := { s2 with time := { s2.time with step := 4 }, clk := { s2.clk with bootSync := false } }
      if fuseOk then s3 else s3.failSelfTest 1)

/-- The VCCIO code nearest to a measurement in mV; half way between two the manual names none (log 15). -/
def nearestVccio (mv : Nat) : Nat :=
  ([(0, 1200, 1500), (1, 1500, 1800), (2, 1800, 2500), (3, 2500, 3300)].find? fun e =>
    decide (2 * mv < e.2.1 + e.2.2) || (decide (2 * mv = e.2.1 + e.2.2) && !Config.tieUp mv (e.2.1 + e.2.2))).map (·.1) |>.getD 4

/-- Bank voltages are measured; a powered bank takes the nearest VCCIO (18 R486; 14 R396). -/
def State.measureBanks (s : State) (vccio : List Nat) : State :=
  (List.range 12).foldl (fun s b =>
    let mv := vccio.getD b 0
    let v := s.bank b
    s.setBank b (if mv < 1000 then { v with powered := false, measured := mv } else { v with powered := true, measured := mv, vccio := nearestVccio mv })) s

/-- Converters and DAC channels start on the stored scale factor (08 R227). -/
def State.storedScale (s : State) : State :=
  let k := s.cal.ref.scale
  let s1 := (List.range 192).foldl (fun s c => s.setConv c { s.conv c with scale := k }) s
  (List.range 64).foldl (fun s n => s.setDac n { s.dac n with scale := k }) s1

/-- VBAT and the main supplies were lost together (15 R419). -/
def State.loseKeyRam (s : State) : State :=
  ({ s with husk := { s.husk with keyRam := [], keyValid := 0, keyCheck := [] } } : State).log 0x803 6 0 0 0

/-- Step 4 of start-up passes (14 R395; 15 R416). -/
def State.enterStep4 (s : State) (vccio : List Nat) (policyOk keyLost : Bool) : State :=
  let s1 := (s.loadKeep.storedScale).measureBanks vccio
  let s2 := (if keyLost then s1.loseKeyRam else s1).loadPolicy policyOk
  let s3 := (List.range 8).foldl (fun s r => (s.setRegion r { s.region r with covStart := s.now }).refill r) s2
  { s3 with time := { s3.time with step := 5, step4 := s3.now }
            boot := { s3.boot with hostWaiting := s3.boot.hostFirst, trying := !s3.boot.hostFirst, tryNext := 0 } }

/-- SELF_TEST (14 R395 step 4, R397; 15 R424; 01 R19): `fail` 0 passed, 2-6 the known-answer test that failed, 8 + mask a
firmware image whose signatures did. SELFTEST_FAIL has no argument for the last (log 15). -/
def execSelfTest (t fail : Nat) (vccio : List Nat) (policyOk keyLost : Bool) (s : State) : Host.Outcome State Fault Refusal :=
  let s := s.at t
  .next (if s.time.step ≠ 4 ∨ s.time.selftestFail then s
    else if fail = 0 then s.enterStep4 vccio policyOk keyLost
    else if fail < 8 then s.failSelfTest fail
    else
      let f := (s.log 0x804 4 0 (fail - 8) 0).fresh
      f.2.failSelfTest f.1)

/-! ### The host wait (13 R360; 18 R489) -/

/-- The wait ends and the slots are tried. -/
def State.endHostWait (s : State) : State := { s with boot := { s.boot with hostWaiting := false, trying := true, tryNext := 0 } }

/-- HOST_WAIT_EXPIRY (13 R360). -/
def execHostWaitExpiry (t : Nat) (s : State) : Host.Outcome State Fault Refusal :=
  let s := s.at t
  .next (if s.time.step = 5 ∧ s.boot.hostWaiting ∧ s.time.step4 + 250000 * s.boot.hostWait ≤ s.now then s.endHostWait else s)

/-- GO acts (13 R360; 18 R489). -/
def State.bootGo (s : State) (header : Bytes) : State :=
  let b := s.boot
  if s.time.step ≠ 5 ∨ !b.hostWaiting ∨ (s.load 8).isSome then s
  else if b.imgLen = 0 ∨ b.imgAddr % 8 ≠ 0 ∨ !s.bufOk b.imgAddr b.imgLen then s.endHostWait
  else
    let s1 : State := { s with boot := { b with hostWaiting := false } }
    s1.beginLoad 8 { mode := 1, source := 0, imgSlot := 0, len := b.imgLen } (s.hostRead b.imgAddr (min b.imgLen 3520) header)

/-- The key under which a BOOT_GO write waits for the end of a management core restart (18 R472). -/
def goKey : Nat := 0x1181C

/-- A write of BOOT_GO. -/
def State.writeGo (s : State) (v : Nat) (header : Bytes) : State :=
  if !bit v 0 then s
  else if s.chip.restarting then
    { s with host := { s.host with deferred := (s.host.deferred.filter fun e => decide (e.1 ≠ goKey)) ++ [(goKey, v, [header])] } }
  else s.bootGo header

/-- BOOT_GO (18 R489): `header` is the image's header and signature block as host memory gives them. -/
def execBootGo (t : Nat) (value : Word) (header : Bytes) (s : State) : Host.Outcome State Fault Refusal :=
  .next (if (s.at t).hostUp then (s.at t).writeGo value.toNat header else s.at t)

/-! ### DONE (13 R381, R382; 14 R395 step 7; 19 R502) -/

/-- Step 7: every CLOCK tree starts, with user clock enables forced low. -/
def State.startTrees (s : State) : State :=
  let tap := s.pin.tapInstr
  { s with
    time := { s.time with step := 8 }
    fab := { s.fab with gated := false, forcedLow := true }
    boot := { s.boot with doneReleasedAt := none }
    pin := { s.pin with tapInstr := if tap = 0 ∨ tap = 3 ∨ tap = 4 then 0xFF else tap } }

/-- DONE_HIGH (13 R381): the ball has been high for 1 us. A running device ignores it. -/
def execDoneHigh (t : Nat) (s : State) : Host.Outcome State Fault Refusal :=
  let s := s.at t
  .next (if s.boot.doneDriven then s
    else
      let s1 : State := { s with boot := { s.boot with doneHigh := true } }
      if s1.time.step = 6 ∧ !s1.husk.halted then s1.startTrees else s1)

/-- DONE_TIMEOUT (13 R382). -/
def execDoneTimeout (t : Nat) (s : State) : Host.Outcome State Fault Refusal :=
  let s := s.at t
  .next (match s.boot.doneReleasedAt with
    | none => s
    | some a =>
      let ms := s.boot.doneTimeout
      if s.time.step ≠ 6 ∨ s.husk.halted ∨ s.now < a + 250000 * ms then s
      else
        let s1 := ({ s with boot := { s.boot with doneLate := true, doneReleasedAt := none } } : State).log 0x70F 4 0 ms 0
        if s1.boot.doneAction then (s1.log 0x710 4 0 ms 0).startTrees else s1)

/-! ### Steps 8 to 10 (14 R395, R400-R402; 09 R250, R251; 07 R202) -/

/-- Does the source of a RESET tree assert (09 R250; 18 R480)? A clock source never does (log 23). -/
def State.srcAsserts (s : State) (g : Nat) : Bool :=
  let v := s.gck g
  if v.kind = 1 then (s.pinS v.index).level != v.activeLow
  else if v.kind = 4 then s.til.ctl.contains (2 ^ 28 + v.index) != v.activeLow
  else false

/-- Step 8: RESET trees are deasserted, and flip-flops take their initial values. -/
def State.deassertTrees (s : State) : State :=
  let s1 := (List.range 8).foldl (fun s g => let v := s.gck g; s.setGck g { v with asserted := v.mode = 1 && s.srcAsserts g }) s
  let s2 := (List.range 8).foldl (fun s r => s.initFFs r) s1
  (List.range 64).foldl (fun s n => let d := s.dac n; if d.busHeld then s.setDac n { d with busHeld := false } else s) s2

/-- Step 8 as a whole: clock enables are released too, and the command that loaded the persona ends. -/
def State.releaseReset (s : State) : State :=
  let s3 := s.deassertTrees
  let s4 : State := { s3 with fab := { s3.fab with forcedLow := false }, time := { s3.time with step := 9 } }
  match s4.boot.doneSlot with
  | none => s4
  | some h =>
    let s5 := s4.final h stOK s4.boot.doneFrames 0
    { s5 with boot := { s5.boot with doneSlot := none } }

/-- RESET_RELEASE (14 R395 step 8; 13 R380 step 3). -/
def execResetRelease (t : Nat) (s : State) : Host.Outcome State Fault Refusal :=
  let s := s.at t
  .next (if s.time.step = 8 ∧ !s.husk.halted then s.releaseReset else s)

/-- The items of every region. -/
def State.allItems (s : State) : List (Nat × Nat × Bytes) := (List.range 8).flatMap fun r => s.items r

/-- OUTPUT_ENABLE (14 R400, R401). -/
def execOutputEnable (t : Nat) (s : State) : Host.Outcome State Fault Refusal :=
  let s := s.at t
  .next (if s.time.step = 9 ∧ !s.husk.halted then
      let s1 := s.pinItems none s.allItems
      { s1 with time := { s1.time with step := 10 } }
    else s)

/-- Straw's banner line (14 R406, R407). -/
def State.banner (s : State) : State :=
  let b := ascii "# LH8640 B0 STRAW " ++ hexDigits 8 s.boot.loaded.version ++ ascii " " ++ decDigits 2 s.boot.lastReason ++ [13, 10]
  ({ s with boot := { s.boot with bannerAt := s.now } } : State).emit (.port 4 b)

/-- Start-up is complete (14 R400, R406; 08 R227). -/
def State.completeStart (s : State) : State :=
  let p := if s.boot.loaded.straw then 0 else 1
  let s1 : State := { s with time := { s.time with done := true }, chip := { s.chip with persona := p } }
  let s2 := s1.log 0x100 4 0 (roundFree ((s1.now : Int) - s1.time.step4) 250).toNat p
  let s3 := if s2.straw then s2.banner else s2
  if s3.cal.ref.atStart then s3.startRef (List.range 8) [] false else s3

/-- DATA_AREA_APPLY (14 R400): the items below the pins, then start-up is complete. `meas` are the measurements of the GRAPH items, each
with those of its further candidates. It waits for region controllers that restart. -/
def execDataAreaApply (t : Nat) (meas : List (List Measured)) (s : State) : Host.Outcome State Fault Refusal :=
  let s := s.at t
  let wait := (List.range 8).any fun r => !(s.region r).ready && !(s.region r).failed
  .next (if s.time.step ≠ 10 ∨ s.time.done ∨ s.husk.halted ∨ wait ∨ s.chip.restarting ∨ s.chip.failed then s
    else (s.applyItems none [] s.allItems meas).completeStart)

/-- STRAW_BANNER (14 R406): 60 s after the last. -/
def execStrawBanner (t : Nat) (s : State) : Host.Outcome State Fault Refusal :=
  let s := s.at t
  .next (if s.straw ∧ s.time.done ∧ !s.husk.halted ∧ !s.chip.restarting ∧ !s.chip.failed ∧ s.boot.bannerAt + 15000000000 ≤ s.now then s.banner else s)

end Sys2Proof.Machine
end

