-- ==== Sys2Proof/Machine/ConfigPort.lean ====
section
/-! DEFINITION. The configuration port (13_personas.md R389-R391) and the test access port (19_electrical_package.md R502). -/

namespace Sys2Proof.Machine

/-! ### Configuration port (13 R389-R391) -/

/-- The identifier of the port's read-back. -/
def cfgId : Nat := 0x1000

/-- A read-back ends early: the islands that it stopped run again. -/
def State.dropReadback (s : State) (r : Readback) : State :=
  let s1 : State := { s with fab := { s.fab with readbacks := s.fab.readbacks.filter (fun x => decide (x.id ≠ r.id)), shadow := if r.captured then [] else s.fab.shadow } }
  if r.captured then (r.blocks.filter fun b => (s.block b).stopped).foldl (fun s b => (s.setBlock b { s.block b with stopped := false }).memResume b) s1 else s1

/-- The port's own read-back ends, if one runs. -/
def State.dropPortReadback (s : State) : State :=
  match s.fab.readbacks.find? fun r => r.id == cfgId with
  | none => s
  | some r => s.dropReadback r

/-- Does a load run: any, or a start-up that has not settled in Fallow (13 R391; 14 R398; log 25)? -/
def State.anyLoad (s : State) : Bool :=
  ((List.range 9).any fun w => (s.load w).isSome) || (s.inFlight.any fun e => e.2.opcode == 0x0600 || e.2.opcode == 0x0601) ||
  (!s.time.done && !(decide (s.time.step = 5) && !s.boot.trying && !s.boot.hostWaiting))

/-- Why the port refuses LOAD, READBACK and PROGRAM_FALLBACK: 1 LOCKED, 2 BUSY, 0 not (13 R391). -/
def State.cfgRefusal (s : State) : Nat := if s.debugLocked then 1 else if s.anyLoad then 2 else 0

/-- The result of the last command of the port. -/
def State.cfgEnd (s : State) (r : Nat) : State := { s with boot := { s.boot with cfgResult := r } }

/-- The management core serves the port. -/
def State.coreRuns (s : State) : Bool := !s.chip.restarting && !s.chip.failed

/-- A port command that reads an image of at most `max_` bytes. -/
def State.cfgImage (s : State) (len max_ : Nat) (l : Load) (header : Bytes) : State :=
  if !s.coreRuns then s
  else if s.cfgRefusal ≠ 0 then s.cfgEnd s.cfgRefusal
  else if len = 0 ∨ max_ < len then s.cfgEnd 3
  else
    let s1 := s.dropPortReadback
    ({ s1 with boot := { s1.boot with cfgOpen := true, cfgFrames := 0 } } : State).beginLoad 8 l (header.take (min len 3520))

/-- CFG_LOAD (13 R390): a PERSONA_LOAD from source 0, not begun before every command in flight has its FINAL (12 R332). `header` is
the image's header and signature block. -/
def execCfgLoad (t len : Nat) (header : Bytes) (s : State) : Host.Outcome State Fault Refusal :=
  let s := s.at t
  .next (if s.cfgRefusal = 0 ∧ !s.inFlight.isEmpty then s else s.cfgImage len (imageMax 0 0) { mode := 3, source := 0, imgSlot := 0, len := len } header)

/-- PROGRAM_FALLBACK (13 R390): every check, no frame written. -/
def execProgramFallback (t len : Nat) (header : Bytes) (s : State) : Host.Outcome State Fault Refusal :=
  .next ((s.at t).cfgImage len (imageMax 2 0) { mode := 4, source := 2, imgSlot := 0, len := len } header)

/-- CFG_READBACK (13 R390; 09 R255-R258): `time` 0 is now. -/
def execCfgReadback (t scope index time : Nat) (s : State) : Host.Outcome State Fault Refusal :=
  let s := s.at t
  .next (if !s.coreRuns then s
    else if s.cfgRefusal ≠ 0 then s.cfgEnd s.cfgRefusal
    else if !scopeOk scope index then s.cfgEnd 3
    else
      let s1 := s.dropPortReadback
      ({ s1 with boot := { s1.boot with cfgOpen := true } } : State).startReadback cfgId scope index time 0)

/-- The reply of STATUS (13 R390; log 25). -/
def State.portStatus (s : State) : Bytes :=
  toLE 1 s.personaState ++ toLE 1 s.boot.lastReason ++ toLE 1 s.boot.lastSlot ++ toLE 1 s.boot.cfgResult ++ toLE 4 s.boot.cfgFrames ++
  toLE 1 (if s.husk.cls = 7 then 0xFF else s.husk.cls) ++ zeros 7

/-- CFG_STATUS (13 R390, R391): always served. -/
def execCfgStatus (t : Nat) (s : State) : Host.Outcome State Fault Refusal := .next ((s.at t).emit (.cfg (s.at t).portStatus))

/-- IDENTIFY (13 R390, R391). -/
def execIdentify (t : Nat) (s : State) : Host.Outcome State Fault Refusal :=
  .next ((s.at t).emit (.cfg (toLE 2 familyCode ++ toLE 2 partCode ++ toLE 1 revisionCode ++ zeros 3)))

/-- CFG_TRANSACTION_GAP (13 R389): 1 ms without a clock edge ends a transaction; an image being read ends short. -/
def execCfgTransactionGap (t : Nat) (s : State) : Host.Outcome State Fault Refusal :=
  let s := s.at t
  .next (if !s.boot.cfgOpen then s
    else
      let s1 := (({ s with boot := { s.boot with cfgOpen := false } } : State).dropPortReadback)
      match s1.load 8 with
      | none => s1
      | some l => if 3 ≤ l.mode ∧ l.mode ≤ 4 ∧ l.reading then (s1.logLoad 8 l 0x709 0).failLoad 8 5 else s1)

/-! ### Test access port (19 R502) -/

/-- May EXTEST, HIGHZ and CLAMP act: from step 1 until DONE is seen high, and in Fallow, unless debug is locked or fused off? -/
def State.tapDrives (s : State) : Bool := (decide (s.time.step ≤ 6) || s.boot.fallow) && !s.debugLocked

/-- Load an instruction. -/
def State.tapLoad (s : State) (code : Nat) : State := { s with pin := { s.pin with tapInstr := code } }

/-- Load an instruction that drives pins; where it may not act it selects the bypass register. -/
def State.tapDrive (s : State) (code : Nat) : State := s.tapLoad (if s.tapDrives then code else 0xFF)

/-- EXTEST (19 R502): pins are driven from the boundary-scan register. -/
def execExtest (t : Nat) (s : State) : Host.Outcome State Fault Refusal := .next ((s.at t).tapDrive 0)

/-- The levels that the first `n` cells of the boundary-scan register capture: that of its pin where a cell observes one, else a
free value (log 15). -/
def State.scanCapture (s : State) : Nat → State × List Bool
  | 0 => (s, [])
  | n + 1 =>
    let r := State.scanCapture s n
    match Config.scanPin n with
    | some p => (r.1, r.2 ++ [(r.1.pinS p).level])
    | none => let f := r.1.fresh; (f.2, r.2 ++ [decide (f.1 % 2 = 1)])

/-- SAMPLE/PRELOAD (19 R502): what was captured is shifted out, and what is shifted in becomes the boundary-scan register. -/
def execSamplePreload (t : Nat) (bits_ : List Bool) (s : State) : Host.Outcome State Fault Refusal :=
  let r := ((s.at t).tapLoad 1).scanCapture bits_.length
  .next (({ r.1 with pin := { r.1.pin with bsr := bits_ } } : State).emit (.tap r.2))

/-- The IDCODE (19 R502). -/
def idcodeWord : Nat := 0xB8640C4F

/-- IDCODE (19 R502): bit 0 is shifted out first. -/
def execIdcode (t : Nat) (s : State) : Host.Outcome State Fault Refusal :=
  .next (((s.at t).tapLoad 2).emit (.tap ((List.range 32).map fun i => bit idcodeWord i)))

/-- HIGHZ (19 R502). -/
def execHighz (t : Nat) (s : State) : Host.Outcome State Fault Refusal := .next ((s.at t).tapDrive 3)

/-- CLAMP (19 R502). -/
def execClamp (t : Nat) (s : State) : Host.Outcome State Fault Refusal := .next ((s.at t).tapDrive 4)

/-- BYPASS (19 R502): code 0xFF, and every code that is no other instruction's. -/
def execBypass (t code : Nat) (s : State) : Host.Outcome State Fault Refusal :=
  let s := s.at t
  .next (if code < 5 then s else s.tapLoad 0xFF)

end Sys2Proof.Machine
end

