-- ==== Sys2Proof/Machine/Recovery.lean ====
section
/-! DEFINITION. The recovery ladder above the cell, and the analogue supplies after start-up (17_faults_log.md R454, R456-R458,
R463; 01_organisation.md R16, R17, R20-R23; 09_fabric_memory.md R266; 11_rings_doorbells.md R308). -/

namespace Sys2Proof.Machine

/-! ### Supersession (01 R17) -/

/-- The cell resets of a block in progress, each of 1 us (17 R454), are superseded by the recovery `code`. -/
def State.supersedeCells (s : State) (b code : Nat) : State :=
  ((List.range 16).map (16 * b + ·)).foldl (fun s n =>
    if (s.cell n).resets.any fun x => decide (s.now < x + 250) then s.log 0x106 1 n code 0x200 else s) s

/-- The recoveries of a block and of its cells are superseded: a re-arbitration is in progress for 10 us. -/
def State.supersedeBlock (s : State) (b code : Nat) : State :=
  let s1 := if (s.block b).recoveries.any fun x => decide (s.now < x + 2500) then s.log 0x106 2 b code 0x20F else s
  s1.supersedeCells b code

/-- The times of a list within `w` ticks of now. -/
def State.within (s : State) (w : Nat) (l : List Nat) : List Nat := l.filter fun x => decide (s.now < x + w)

/-! ### Block (17 R454, R456; 09 R266) -/

/-- ARB_RECOVERY (17 R456): the arbiter revokes a grant held for 10 us; `holder` 1 the region controller, 2 fabric logic, 3
DMA. While the region's controller restarts, the recovery is superseded (01 R17). -/
def execArbRecovery (t b holder : Nat) (s : State) : Host.Outcome State Fault Refusal :=
  let s := s.at t
  let s1 := (s.supersedeCells b 0x20F).setBlock b { s.block b with recoveries := s.within 250000000 (s.block b).recoveries ++ [s.now] }
  let s2 := (s1.bump (uBk b) 7).log 0x20F 2 b holder 0
  ifUnit (decide (b < 64)) (if (s.block b).stopped ∨ (s.block b).quarantined then s
    else if s.restarting (b / 8) then s.log 0x106 2 b 0x104 0x20F
    else if holder = 2 then s2.fabReplyFree b true else s2)

/-- Functions with a cell in a block. -/
def State.fnsInBlock (s : State) (b : Nat) : List (Nat × Nat) :=
  s.graphs.flatMap fun e => if e.2.phase ≠ 7 then [] else
    ((List.range e.2.prims.length).filter fun i => (e.2.prim i).cells.any fun c => decide (c / 16 = b)).map fun i => (e.1, i)

/-- How many functions of a list have a destination to be evacuated to, each on cells of its own. -/
def State.withDest (s : State) (fns : List (Nat × Nat)) : Nat :=
  (fns.foldl (fun (a : Nat × List Nat) f => match s.graph f.1 with
    | none => a
    | some g => match s.chooseDest f.1 g f.2 { why := .evacuate, pin := movePins (g.prim f.2) none, avoid := a.2 } with
      | none => a
      | some d => (a.1 + 1, a.2 ++ placeCells d)) (0, [])).1

/-- The spares of a block are given up; they are restored elsewhere (04 R117). -/
def State.dropSpares (s : State) (b : Nat) : State :=
  ((List.range 16).map (16 * b + ·)).foldl (fun s n =>
    match (s.cell n).use with
    | .pool => s.freeCell n
    | .reserved g => (s.freeCell n).setSpares g fun l => l.filter fun k => decide (k ≠ n)
    | _ => s) s

/-- A planned transplant ends before its crossover though its function has no fault: a TRANSPLANT ends with FAULT and a reason, a move
that GRAPH_TUNE, GRAPH_PIN or an evacuation asked for is made later, others are not (04 R125; 01 R17). -/
def State.breakOff (s : State) (m : Move) (reason : Nat) : State :=
  match m.why with
  | .host => s.abandonMove m stFAULT reason
  | .stolon => s.withdraw m
  | .thermal => s.withdraw m
  | _ => (s.withdraw m).requeue { m with fix := none }

/-- Moves and repairs whose destination stands in a block go on elsewhere (04 R125). -/
def State.leaveBlock (s : State) (b : Nat) : State :=
  let inB (d : PlaceP) : Bool := (placeCells d).any fun c => decide (c / 16 = b)
  let s1 := (s.til.moves.filter fun m => decide (1 ≤ m.step) && decide (m.step < 6) && inB m.dest).foldl (fun s m => s.breakOff m 2) s
  (List.range 8).foldl (fun s r => (s.region r).repairs.foldl (fun s q => if q.dest.any inB then s.faultRepair r q else s) s) s1

/-- The block is quarantined (17 R456; 03 R91): cells, local tracks and scratchpad, its functions evacuated. -/
def State.quarantineBlock (s : State) (b why : Nat) : State :=
  let cells := (List.range 16).map (16 * b + ·)
  let late := (s.til.moves.filter fun m => decide (m.step = 6) && (placeCells m.dest).any fun c => decide (c / 16 = b)).map fun m => (m.graph, m.prim)
  let fns := (s.fnsInBlock b ++ late).eraseDups
  let s1 := cells.foldl (fun s n => s.yieldCell n 3) (s.supersedeCells b 0x20E)
  let s2 := cells.foldl (fun s n => s.quarantineCell n) s1
  let s3 := s2.updLeds ((List.range 64).map fun i => segEntry (64 * b + i)) fun _ l => { l with state := 3 }
  let s4 := s3.setBlock b { s3.block b with quarantined := true }
  let s5 := (s4.log 0x20E 2 b why (s4.withDest fns)).dropSpares b
  (((s5.leaveBlock b).evacuate fns).memResume b).cellsFreed.resume

/-- BLOCK_QUARANTINE (17 R456): `why` 1 no grant within 10 us of re-arbitration, 2 a second re-arbitration within 1 s. -/
def execBlockQuarantine (t b why : Nat) (s : State) : Host.Outcome State Fault Refusal :=
  let s := s.at t
  let v := s.block b
  let recent := s.within 250000000 v.recoveries
  let due : Bool := if why = 1 then recent.getLast?.any (fun x => decide (x + 2500 ≤ s.now)) else decide (why = 2) && decide (2 ≤ recent.length)
  ifUnit (decide (b < 64)) (if !s.ctrlOk (b / 8) ∨ s.time.step < 5 ∨ v.quarantined ∨ due = false then s else s.quarantineBlock b why)

/-! ### Region (01 R20, R21; 17 R457) -/

/-- Commands in flight, in acceptance order. -/
def State.inOrder (s : State) : List (Nat × Hnd) := sortBy (fun a b => decide (a.2.acc ≤ b.2.acc)) s.inFlight

/-- The repairs queued in a region, whose controller does not run, that have a place in another one pass to the region of that place
(01 R21); answers how many. -/
def State.moveOut (s : State) (r : Nat) : State × Nat :=
  (s.region r).repairs.foldl (fun (a : State × Nat) q =>
    match (a.1.graph q.graph).bind fun g => a.1.chooseDest q.graph g q.prim { repair := true } with
    | none => a
    | some d =>
      let v := a.1.region r
      let s1 := (a.1.setRegion r { v with repairs := v.repairs.filter fun x => decide (x ≠ q) }).dropTracks q.graph q.nets
      let s2 := q.dest.elim s1 fun d => s1.giveBack q.graph (placeCells d)
      (s2.queueRepair { q with step := 2, dest := none, nets := [], cold := false } (placeRegion d), a.2 + 1)) (s, 0)

/-- Does the part of a move before its crossover need the controller of region `r` (01 R19, R20; 04 R125)? An evacuation is driven from
the destination's side alone. -/
def State.needsCtrl (s : State) (r : Nat) (m : Move) : Bool :=
  decide (m.step < 6) && ((decide (1 ≤ m.step) && (placeRegions m.dest).contains r) ||
    (decide (m.why ≠ .evacuate) && (s.graph m.graph).any fun g => (g.prim m.prim).cells.any fun c => decide (c / 128 = r)))

/-- A command whose transplant needs the controller of a failed region ends with FAULT (17 R457). -/
def State.failMove (s : State) (m : Move) : State :=
  match m.handle, m.why with
  | some h, .host => (s.withdraw m).final h stFAULT 0 3
  | some h, _ =>
    let s1 := (s.til.moves.filter fun x => decide (x.handle = some h) && decide (x.step < 6)).foldl (fun s x => s.withdraw x) s
    (s1.revertGraph m.graph).final h stFAULT 0 0
  | none, _ => if decide (m.why = .evacuate) && decide (m.step = 0) then s else s.breakOff m 3

/-- A region fails (17 R457; 12 R329): its functions are evacuated where they can be, and what waits for its controller ends with
FAULT. -/
def State.regionFails (s : State) (r reason : Nat) : State :=
  let v := s.region r
  let s1 := s.setRegion r { v with ready := false, failed := true, restartFrom := if reason = 3 then s.now else v.restartFrom }
  let s2 := (s1.moveOut r).1
  let fns := (s2.fnsIn r).filter fun f => !s2.repairingPrim f.1 f.2
  let s3 := (s2.log 0x105 3 r reason (s2.withDest fns)).dropRuns r
  let s3a := (s3.til.moves.filter fun m => s3.needsCtrl r m).foldl (fun s m => if s.til.moves.contains m then s.failMove m else s) s3
  let s4 := s3a.evacuate (fns.filter fun f => !(s3a.til.moves.any fun m => m.graph == f.1 && m.prim == f.2 && m.why == .evacuate))
  -- commands that wait for the controller, placements that build in the region and calibration runs due in it
  let s5 := s4.inOrder.foldl (fun s e => match e.2.work with
    | .region k _ => if k = r then
        (if e.2.opcode = 0x0601 then s.setRegion (byteAt e.2.args 1) { s.region (byteAt e.2.args 1) with loading := false } else s).final e.1 stFAULT 0 0 else s
    | .place => match s.graph e.1 with
      | some g => if (g.phase = 4 ∨ g.phase = 5) ∧ g.regions.contains r then s.stopPlace e.1 stFAULT 0 0 else s
      | none => s
    | .cal _ d f _ => if s.cal.due.any fun x => x.cmds.contains e.1 && objRegion x.kind x.idx == r then
        let s1 : State := { s with cal := { s.cal with due := s.cal.due.map (fun x => { x with cmds := x.cmds.filter fun k => decide (k ≠ e.1) })
                                                       runs := s.cal.runs.map fun x => { x with cmds := x.cmds.filter fun k => decide (k ≠ e.1) } } }
        (s1.reportCals e.1).final e.1 stFAULT d f else s
    | _ => s) s4
  s5.cellsFreed.resume

/-- Is a block's evacuation after its quarantine in progress (17 R456)? -/
def State.emptying (s : State) (b : Nat) : Bool :=
  (s.block b).quarantined && s.til.moves.any fun m => decide (m.why = .evacuate) &&
    (s.graph m.graph).any fun g => (g.prim m.prim).cells.any fun c => decide (c / 16 = b)

/-- A region controller's watchdog expires and the controller restarts (01 R17, R20, R21; 17 R454): what it was doing is abandoned, the
recoveries below it are superseded, and the evacuations that a block's quarantine still needs are made once it is ready. -/
def State.restartRegion (s : State) (r : Nat) : State :=
  let signalled : Bool := (s.region r).lastSignal.any fun x => decide (s.now ≤ x + 250000)
  let s0 := s.setRegion r { s.region r with ready := false, restartFrom := s.now }
  let out := if signalled then s0.moveOut r else (s0, 0)
  let s1 := (regionBlocks r).foldl (fun s b =>
    let s1 := s.supersedeBlock b 0x104
    if s1.emptying b then s1.log 0x106 2 b 0x104 0x20E else s1) out.1
  let s2 := s1.setRegion r { s1.region r with movedOut := out.2 }
  let s3 := (s2.til.moves.filter fun m => decide (1 ≤ m.step) && s2.needsCtrl r m).foldl (fun s m => s.breakOff m 3) s2
  ((s3.dropRuns r).failLoad r 5).cellsFreed.resume

/-- REGION_WATCHDOG (01 R21; 17 R454, R457). -/
def execRegionWatchdog (t r : Nat) (s : State) : Host.Outcome State Fault Refusal :=
  let s := s.at t
  let v := s.region r
  let recent := s.within 250000000 v.dogs
  ifUnit (decide (r < 8))
    (if !v.ready ∨ v.failed ∨ s.time.step < 5 ∨ !s.coreRuns then s
     else
       let s1 := (s.bump (uRg r) 5).setRegion r { v with dogs := recent ++ [s.now] }
       if recent.isEmpty then s1.restartRegion r else (s1.restartRegion r).regionFails r 3)

/-- Run again a command that waited for a region controller. -/
def State.rerun (s : State) (slot : Nat) (a : Bytes) (cmd : Instr) : State :=
  match cmd with
  | .graphRemove _ => bodyGraphRemove cmd slot a s
  | .graphTune _ image meas => bodyGraphTune image meas cmd slot a s
  | .graphPin _ pins => bodyGraphPin pins cmd slot a s
  | .transplant _ => bodyTransplant cmd slot a s
  | .convConfig _ => bodyConvConfig cmd slot a s
  | .seqLoad _ steps => bodySeqLoad steps cmd slot a s
  | .syscalZero _ => bodySyscal false cmd slot a s
  | .syscalFull _ => bodySyscal true cmd slot a s
  | .syscalCommit _ => bodySysCommit cmd slot a s
  | .streamOpen _ => bodyStreamOpen cmd slot a s
  | .dacSet _ => bodyDacSet cmd slot a s
  | .dacRange _ => bodyDacRange cmd slot a s
  | .ddsConfig _ => bodyDdsConfig cmd slot a s
  | .slewConfig _ => bodySlewConfig cmd slot a s
  | .calRun _ => bodyCalRun cmd slot a s
  | .regionLoad _ header => bodyRegionLoad header cmd slot a s
  | _ => s

/-- A region's controller is ready: what waits for it runs, in acceptance order. -/
def State.regionBack (s : State) (r : Nat) : State :=
  let v := s.region r
  let us := (roundFree ((s.now : Int) - v.restartFrom) 250).toNat
  let s1 := (s.setRegion r { v with ready := true, failed := false, fwFail := false, movedOut := 0 }).log 0x104 3 r us v.movedOut
  let s2 := if s1.cal.ref.inRecovery then s1.startRef [r] [] false else s1
  let s3 := s2.inOrder.foldl (fun s e => match e.2.work with
    | .region k cmd => if k = r then (s.setWork e.1 .none).rerun e.1 e.2.args cmd else s
    | _ => s) s2
  (s3.resizeRegion r).cellsFreed.resume

/-- Are repairs of functions of a region still to be made by other regions before its controller restarts (01 R21)? -/
def State.outPending (s : State) (r : Nat) : Bool :=
  decide (0 < (s.region r).movedOut) && (List.range 8).any fun k => decide (k ≠ r) && (s.region k).repairs.any fun q =>
    (s.graph q.graph).any fun g => (g.prim q.prim).cells.any fun c => decide (c / 128 = r)

/-- REGION_READY (01 R19-R21; 17 R457): the restarted controller reports ready, its firmware verified under both signatures; firmware
that failed is not started. -/
def execRegionReady (t r : Nat) (ed ml : Bool) (s : State) : Host.Outcome State Fault Refusal :=
  let s := s.at t
  let v := s.region r
  ifUnit (decide (r < 8))
    (if v.ready ∨ v.fwFail ∨ !s.coreRuns ∨ s.outPending r then s
     else if ed && ml then s.regionBack r
     else (s.setRegion r { v with fwFail := true }).log 0x804 3 r (b2n (!ed) + 2 * b2n (!ml)) 0)

/-- REGION_FAILED (17 R457): not ready 5 ms after the watchdog expired, or firmware that failed verification. -/
def execRegionFailed (t r : Nat) (s : State) : Host.Outcome State Fault Refusal :=
  let s := s.at t
  let v := s.region r
  let late := decide (v.restartFrom + 1250000 ≤ s.now)
  ifUnit (decide (r < 8))
    (if v.ready ∨ v.failed ∨ !s.coreRuns ∨ !(v.fwFail || late) then s else s.regionFails r (if v.fwFail then 2 else 1))

/-- REGION_RESTART_RETRY (17 R457): a restart is tried again 10 s after the last. -/
def execRegionRestartRetry (t r : Nat) (s : State) : Host.Outcome State Fault Refusal :=
  let s := s.at t
  let v := s.region r
  ifUnit (decide (r < 8))
    (if !v.failed ∨ !s.coreRuns ∨ s.now < v.restartFrom + 2500000000 then s
     else s.setRegion r { v with restartFrom := s.now, fwFail := false })

/-! ### Management core (01 R22, R23; 03 R73; 09 R258; 10, Sheaf; 11 R308; 13 R392; 17 R458, R467) -/

/-- A core restart ends what the core alone was doing: loads fail, read-backs and snapshots end, graphs in phases 1-3 hold
nothing. -/
def State.coreStops (s : State) : State :=
  let s1 := (List.range 9).foldl (fun s w => s.failLoad w 5) s
  let s2 := s1.fab.readbacks.foldl (fun s r => s.dropReadback r) s1
  let s3 : State := { s2 with sheaf := { s2.sheaf with run := none, wait := [] } }
  s3.graphs.foldl (fun s e => if e.2.phase < 4 then (s.unclaim e.2).dropGraph e.1 else s) s3

/-- Region restarts in progress, and what runs below them, are superseded. -/
def State.supersedeRegions (s : State) : State :=
  (List.range 8).foldl (fun s r =>
    let v := s.region r
    let s1 := if !v.ready ∧ !v.failed then s.log 0x106 3 r 0x102 0x104 else s
    (regionBlocks r).foldl (fun s b => s.supersedeBlock b 0x102) s1) s

/-- MGMT_WATCHDOG (17 R454, R458; 01 R22): the core restarts; at the fourth watchdog within 10 s it is retired. -/
def execMgmtWatchdog (t : Nat) (s : State) : Host.Outcome State Fault Refusal :=
  let s := s.at t
  .next (if !s.coreRuns ∨ s.time.step < 5 then s
    else
      let recent := s.within 2500000000 s.chip.dogs
      let s1 := s.bump 0 4
      if 3 ≤ recent.length then { s1 with chip := { s1.chip with dogs := recent ++ [s.now], failed := true } }
      else
        let s2 : State := { s1 with chip := { s1.chip with dogs := recent ++ [s.now], restarting := true, restartFrom := s.now } }
        let s3 := if (s.within 250000000 recent).isEmpty then s2 else s2.log 0x103 4 0 (recent.length + 1) 0
        s3.supersedeRegions.coreStops)

/-- Does the remaining work of a command lie with a region controller (01 R23)? -/
def State.keptWork (s : State) (slot : Nat) : Work → Bool
  | .conv _ => true
  | .syscal _ => true
  | .dac _ => true
  | .cal _ _ _ _ => true
  | .refcal => true
  | .move _ _ => true
  | .tune _ _ _ => true
  | .pin _ _ _ _ => true
  | .after _ _ => true
  | .region _ _ => true
  | .place => (s.graph slot).any fun g => decide (4 ≤ g.phase)
  | _ => false

/-- The FINAL of a command that does not outlast the restart: FAULT. -/
def State.faultCmd (s : State) (e : Nat × Hnd) (held : List (Nat × Nat × Nat × Nat)) : State :=
  let s1 := match e.2.work with
    | .pins => { s with pin := { s.pin with switches := s.pin.switches.filter fun x => decide (x.slot ≠ some e.1) } }
    | .close n => s.setDs n { s.ds n with closing := none }
    | _ => s
  match held.find? fun h => decide (h.1 = e.1) && decide (h.2.1 = stFAULT) with
  | some h => s1.final1 e.1 0 stFAULT h.2.2.1 h.2.2.2
  | none => match e.2.work with
    | .delay _ => s1.final1 e.1 0 stFAULT s.now 0
    | .mem _ done _ => s1.final1 e.1 0 stFAULT done 0
    | _ => s1.final1 e.1 0 stFAULT 0 0

/-- A setup-register write that waited for the core (18 R472). -/
def State.deferredWrite (s : State) (off v : Nat) : State :=
  if off = 0x0418 then s.writeMectl v else s.writeCqctl ((off - 0x450) / 32) v

/-- A doorbell write that waited, or GO. -/
def State.deferredBell (s : State) (e : Nat × Nat × List Bytes) : State :=
  if e.1 = goKey then s.bootGo (e.2.2.headD []) else s.doorAct e.1 e.2.1 e.2.2

/-- What the restart held is given out: first no restart stands, and nothing is held. -/
def State.coreUp (s : State) : State := { s with chip := { s.chip with restarting := false, heldLog := [], heldFinals := [] } }

/-- The list of free slots is built anew, in ascending order (11 R303). -/
def State.rebuildSlots (s : State) : State :=
  { s with chip := { s.chip with freeSlots := (List.range 4096).filter fun n => decide ((s.hnd n).st = 0) } }

/-- The restart ends: held log entries, FINALs, register writes and doorbells, and region restarts begin again. -/
def State.coreBack (s : State) : State :=
  let c := s.chip
  let s2 := c.heldLog.foldl (fun s e => State.logAll 8 [e] s) s.coreUp
  let s3 := s2.log 0x102 4 0 (roundFree ((s.now : Int) - c.restartFrom) 250).toNat (s.within 2500000000 c.dogs).length
  let lost := s3.inOrder.filter fun e => !s3.keptWork e.1 e.2.work
  -- FAULT for what does not outlast the restart, then the free slots; what finished meanwhile ends after them (11 R303; log 27)
  let s4 := (lost.foldl (fun s e => s.faultCmd e c.heldFinals) s3).rebuildSlots
  let s5 := c.heldFinals.foldl (fun s h => s.finalObj h.1 (h.2.1 / 256) (h.2.1 % 256) h.2.2.1 h.2.2.2) s4
  let reg := s5.host.deferredReg
  let bells := s5.host.deferred
  let s6 : State := { s5 with host := { s5.host with deferredReg := [], deferred := [] } }
  let s7 := bells.foldl (fun s e => s.deferredBell e) (reg.foldl (fun s e => s.deferredWrite e.1 e.2) s6)
  let s8 := (List.range 8).foldl (fun s r => let v := s.region r; if !v.ready ∧ !v.failed then s.setRegion r { v with restartFrom := s.now } else s) s7
  s8.storeWaited.parseNext.resume

/-- MGMT_RESTART_END (01 R22, R23; 17 R467): at most 60 ms after the watchdog expired. -/
def execMgmtRestartEnd (t : Nat) (s : State) : Host.Outcome State Fault Refusal :=
  let s := s.at t
  .next (if s.chip.restarting then s.coreBack else s)

/-! ### Analogue supplies (17 R463; 14 R396) -/

/-- Is a reading of VAP, VAN or VREF inside its window, in mV? -/
def supplyOk (which : Nat) (mv : Int) : Bool :=
  match which with
  | 0 => decide (5200 ≤ mv) && decide (mv ≤ 5800)
  | 1 => decide (-5800 ≤ mv) && decide (mv ≤ -5200)
  | _ => decide (4076 ≤ mv) && decide (mv ≤ 4116)

/-- A reading of a supply. -/
def State.readSupply (s : State) (which : Nat) (mv : Int) : State := { s with mon := { s.mon with supplies := Tbl.set 0 (which + 2) mv s.mon.supplies } }

/-- SUPPLY_FAULT (17 R463): a supply has been outside its window for 10 us. -/
def execSupplyFault (t which : Nat) (mv : Int) (s : State) : Host.Outcome State Fault Refusal :=
  let s := s.at t
  ifUnit (decide (which < 3))
    (if !s.time.done ∨ supplyOk which mv ∨ bit s.mon.supplyBad which then s
     else
       let s1 := s.readSupply which mv
       let m := s1.mon
       let s2 : State := { s1 with mon := { m with supplyBad := withBit m.supplyBad which, supplyOut := true,
                                                   supplySince := if m.supplyOut then m.supplySince else s.now } }
       ((List.range 8).foldl (fun s r => s.dropRuns r) s2).log 0x404 4 0 which (ofI 32 mv))

/-- SUPPLY_RESTORED (17 R463): a supply is back in its window; once all three have been valid for 1 ms, monitors resume and every
calibrated object is due. -/
def execSupplyRestored (t which : Nat) (mv : Int) (s : State) : Host.Outcome State Fault Refusal :=
  let s := s.at t
  ifUnit (decide (which < 3))
    (if !s.mon.supplyOut ∨ !supplyOk which mv ∨ !bit s.mon.supplyBad which then s
     else
       let s1 := s.readSupply which mv
       let m := s1.mon
       let left := m.supplyBad - 2 ^ which
       let s2 : State := { s1 with mon := { m with supplyBad := left, supplyOut := decide (left ≠ 0),
                                                   supplyIvs := if left = 0 then m.supplyIvs ++ [(m.supplySince, s.now)] else m.supplyIvs } }
       if left = 0 then s2.allDue.log 0x405 4 0 which (ofI 32 mv) else s2)

end Sys2Proof.Machine
end

