-- ==== Sys2Proof/Machine/Registers.lean ====
section
/-! DEFINITION. The setup registers as BAR0 reads and writes them, and the serial host transactions of local-ring mode
(18_setup_registers.md R470-R493; 11_rings_doorbells.md R321, R324, R325). -/

namespace Sys2Proof.Machine

/-! ### Ring bases and other 64-bit registers (18 R471, R476, R478) -/

/-- The low half of a 64-bit register, or its high half. -/
def half (v : Nat) (hi : Bool) : Nat := if hi then v / 2 ^ 32 % 2 ^ 32 else v % 2 ^ 32

/-- A write to a half of a 64-bit register: _LO is held until a write of _HI commits both; `hiOff` is the offset of _HI. -/
def State.write64 (s : State) (off hiOff v : Nat) (f : State → Nat → State) : State :=
  if off = hiOff then f s (s.committed hiOff v) else s.holdLo hiOff v

/-- The register of a queue's group at place `k` (18 R476). -/
def State.writeCqGroup (s : State) (q k off v : Nat) : State :=
  let c := s.cq q
  if k = 0x10 then s.mgmtReg off v fun s => s.writeCqctl q v
  else if c.enable ∨ 0x10 ≤ k then s
  else if k < 8 then s.write64 off (off - k + 4) v fun s b => s.setCq q { s.cq q with sqBase := b }
  else s.write64 off (off - k + 12) v fun s b => s.setCq q { s.cq q with cqBase := b }

/-- The register of a stream's group at place `k`. -/
def State.writeDsGroup (s : State) (n k off v : Nat) : State :=
  let d := s.ds n
  if k = 0x10 then s.writeDsctl n v
  else if d.enable ∨ 0x10 ≤ k then s
  else if k < 8 then s.write64 off (off - k + 4) v fun s b => s.setDs n { s.ds n with bufBase := b }
  else s.write64 off (off - k + 12) v fun s b => s.setDs n { s.ds n with evtBase := b }

/-- A queue's group as it reads; `k` its place. -/
def Cq.readGroup (c : Cq) (k : Nat) : Nat :=
  match k with
  | 0 => half c.sqBase false
  | 4 => half c.sqBase true
  | 8 => half c.cqBase false
  | 12 => half c.cqBase true
  | 16 => pack [(b2n c.enable, 0), (b2n c.configError, 1), (b2n c.stalled, 2), (b2n (decide (0 < c.owed)), 3), (c.sqSize, 8), (c.cqSize, 12), (c.vector, 16)]
  | _ => 0

def Ds.readGroup (d : Ds) (k : Nat) : Nat :=
  match k with
  | 0 => half d.bufBase false
  | 4 => half d.bufBase true
  | 8 => half d.evtBase false
  | 12 => half d.evtBase true
  | 16 => pack [(b2n d.enable, 0), (b2n d.configError, 1), (b2n d.opened, 2), (d.bufSize, 8), (d.evtSize, 12), (d.vector, 16)]
  | _ => 0

/-- Is any ring enabled (18 R493)? -/
def State.anyRing (s : State) : Bool :=
  s.host.me.enable || ((List.range 16).any fun q => (s.cq q).enable) || (List.range 64).any fun n => (s.ds n).enable

/-! ### Writes by block -/

/-- CHIP (18 R475). -/
def State.writeChip (s : State) (off v : Nat) : State :=
  if off = 0x14 then { s with chip := { s.chip with resetCause := s.chip.resetCause - Nat.land s.chip.resetCause (v % 32) } }
  else if off = 0x18 then s.writeResetCtl v
  else s

/-- HOST (18 R476-R479; 11 R321, R323). -/
def State.writeHost (s : State) (off v : Nat) : State :=
  if off = 0x400 then (if bits v 0 5 = 0 ∨ 16 < bits v 0 5 then s else { s with host := { s.host with share := bits v 0 5 } })
  else if off = 0x410 ∨ off = 0x414 then
    (if s.host.me.enable then s else s.write64 off 0x414 v fun s b => { s with host := { s.host with me := { s.host.me with base := b } } })
  else if off = 0x418 then s.mgmtReg 0x418 v fun s => s.writeMectl v
  else if 0x440 ≤ off ∧ off < 0x640 then s.writeCqGroup ((off - 0x440) / 32) (off % 32) off v
  else if 0x640 ≤ off ∧ off < 0xE40 then s.writeDsGroup ((off - 0x640) / 32) (off % 32) off v
  else if 0xE40 ≤ off ∧ off < 0xF40 then
    (if 1000 < bits v 0 10 then s else { s with host := { s.host with coal := Tbl.set 0 ((off - 0xE40) / 4) (bits v 0 10) s.host.coal } })
  else s

/-- CLK (18 R480-R484). -/
def State.writeClk (s : State) (off v : Nat) : State :=
  if off = 0x1000 then s.writeRefctl v
  else if off = 0x1008 then s.writeSyncctl v
  else if off = 0x100C then { s with clk := { s.clk with syncPeriod := v } }
  else if off = 0x1010 ∨ off = 0x1014 then s.write64 off 0x1014 v fun s b => { s with clk := { s.clk with tbPreset := b } }
  else if 0x1020 ≤ off ∧ off < 0x1040 then (if off % 8 = 0 then s.writeUpll ((off - 0x1020) / 8) v else s)
  else if 0x1040 ≤ off ∧ off < 0x1080 then (if off % 8 = 0 then s.writeGckctl ((off - 0x1040) / 8) v else s.writeGckfreq ((off - 0x1040) / 8) v)
  else if 0x1080 ≤ off ∧ off < 0x10A0 then s.writeUlctl ((off - 0x1080) / 4) v
  else if off = 0x10A0 ∨ off = 0x10A4 then s.writeCmpArm ((off - 0x10A0) / 4) v
  else if 0x1100 ≤ off ∧ off < 0x1400 then
    (let u := (off - 0x1100) / 12
     match (off - 0x1100) % 12 with
     | 0 => s.writeCmpLo u v
     | 4 => s.writeCmpHi u v
     | _ => s.writeCmpPeriod u v)
  else s

/-- PIN (18 R485-R487). -/
def State.writePin (s : State) (off v : Nat) : State :=
  if 0x1400 ≤ off ∧ off < 0x14C0 then
    (let b := (off - 0x1400) / 16
     match off % 16 with
     | 0 => s.writeBank b v
     | 4 => s.writePinOut b v
     | 8 => s.maskedOut b v
     | _ => s)
  else if 0x1500 ≤ off ∧ off < 0x1510 then s.writeDiff ((off - 0x1500) / 4) v
  else s

/-- BOOT (18 R488, R489); a GO of this kind carries no image. -/
def State.writeBoot (s : State) (off v : Nat) : State :=
  let b := s.boot
  if off = 0x1800 then { s with boot := { b with slotSkip := bits v 0 5, hostFirst := bit v 8, doneAction := bit v 9 } }
  else if off = 0x1804 then (if bits v 0 16 = 0 ∨ 60000 < bits v 0 16 then s else { s with boot := { b with hostWait := bits v 0 16 } })
  else if off = 0x1808 then (if bits v 0 16 < 10 ∨ 60000 < bits v 0 16 then s else { s with boot := { b with doneTimeout := bits v 0 16 } })
  else if off = 0x1810 ∨ off = 0x1814 then s.write64 off 0x1814 v fun s a => { s with boot := { s.boot with imgAddr := a } }
  else if off = 0x1818 then (if v = 0 ∨ 33554432 < v then s else { s with boot := { b with imgLen := v } })
  else if off = 0x181C then s.writeGo v []
  else if off = 0x1820 then { s with boot := { b with doneLate := b.doneLate && !bit v 5 } }
  else if off = 0x1828 then { s with boot := { b with qspiDummy := bits v 0 4, qspiDelay := bits v 4 4, qspiDiv := bits v 8 4 } }
  else s

/-- LOCAL (18 R492, R493). -/
def State.writeLocal (s : State) (off v : Nat) : State :=
  let start := bits v 0 4
  let pages := bits v 4 4
  if off ≠ 0x3004 ∨ s.anyRing ∨ 7 < start ∨ pages = 0 ∨ 8 < start + pages then s
  else { s with host := { s.host with areaStart := start, areaPages := pages } }

/-- The MSI-X table (11 R321; 18 R470; PRESUMED, log 10: the entry layout of PCI Express). -/
def State.writeMsix (s : State) (off v : Nat) : State :=
  let n := (off - 0x8000) / 16
  let e := s.msix n
  s.setMsix n (match off % 16 with
    | 0 => { e with addr := half e.addr true * 2 ^ 32 + v / 4 * 4 }
    | 4 => { e with addr := v * 2 ^ 32 + half e.addr false }
    | 8 => { e with data := v }
    | _ => { e with ctrl := v % 2 })

/-- A 32-bit write to an aligned offset of BAR0. -/
def State.regWrite (s : State) (off v : Nat) : State :=
  if off < 0x400 then s.writeChip off v
  else if off < 0x1000 then s.writeHost off v
  else if off < 0x1400 then s.writeClk off v
  else if off < 0x1800 then s.writePin off v
  else if off < 0x2000 then s.writeBoot off v
  else if off < 0x3000 then s
  else if off < 0x4000 then s.writeLocal off v
  else if 0x8000 ≤ off ∧ off < 0x8400 then s.writeMsix off v
  else s

/-! ### Reads by block -/

/-- A mask of the numbers below `n` that have a property. -/
def maskOf (n : Nat) (p : Nat → Bool) : Nat := (((List.range n).filter p).map (2 ^ ·)).sum

def State.readChip (s : State) (off : Nat) : Nat :=
  match off with
  | 0x00 => familyCode + 65536 * partCode
  | 0x04 => revisionCode + 65536 * s.chip.mgmtFw
  | 0x08 => half s.chip.serial false
  | 0x0C => half s.chip.serial true
  | 0x10 => pack [(16, 0), (64, 8), (64, 16), (8, 24)]
  | 0x14 => s.chip.resetCause
  | 0x1C => pack [(b2n s.chip.failed, 0), (b2n s.time.done, 1), (s.personaState, 2), (b2n s.chip.restarting, 4), (b2n s.chip.sparesWarm, 5)]
  | _ => 0

def State.readHost (s : State) (off : Nat) : Nat :=
  let m := s.host.me
  if off = 0x400 then s.host.share
  else if off = 0x404 then s.host.speed + 16 * s.host.width
  else if off = 0x408 then maskOf 16 fun q => (s.cq q).stalled
  else if off = 0x410 then half m.base false
  else if off = 0x414 then half m.base true
  else if off = 0x418 then pack [(b2n m.enable, 0), (b2n m.configError, 1), (m.size, 8), (m.vector, 16)]
  else if 0x440 ≤ off ∧ off < 0x640 then (s.cq ((off - 0x440) / 32)).readGroup (off % 32)
  else if 0x640 ≤ off ∧ off < 0xE40 then (s.ds ((off - 0x640) / 32)).readGroup (off % 32)
  else if 0xE40 ≤ off ∧ off < 0xF40 then Tbl.get 0 ((off - 0xE40) / 4) s.host.coal
  else 0

def Gck.word (g : Gck) : Nat :=
  pack [(g.mode, 0), (g.kind, 1), (g.index, 4), (g.div, 14), (g.loss, 22), (g.deassert, 23), (b2n g.activeLow, 26)]

def State.readClk (s : State) (off : Nat) : Nat :=
  let k := s.clk
  if off = 0x1000 then k.refSource + 4 * k.refFreq
  else if off = 0x1004 then pack [(b2n k.refLost, 0), (k.lock, 1), (maskOf 4 fun n => (s.upll n).locked, 8), (maskOf 8 fun g => (s.gck g).lost, 16)]
  else if off = 0x1008 then k.syncMode
  else if off = 0x100C then k.syncPeriod
  else if off = 0x1010 then half k.tbPreset false
  else if off = 0x1014 then half k.tbPreset true
  else if off = 0x1018 then half s.now false
  else if off = 0x101C then half s.now true
  else if 0x1020 ≤ off ∧ off < 0x1040 then
    (let p := s.upll ((off - 0x1020) / 8)
     if off % 8 = 0 then pack [(b2n p.enable, 0), (b2n p.configError, 1), (p.mul, 4), (p.prediv, 12), (p.postdiv, 16)] else 0)
  else if 0x1040 ≤ off ∧ off < 0x1080 then (let g := s.gck ((off - 0x1040) / 8); if off % 8 = 0 then g.word else g.khz)
  else if 0x1080 ≤ off ∧ off < 0x10A0 then
    (let l := s.lane ((off - 0x1080) / 4)
     pack [(b2n l.enable, 0), (l.rate, 1), (l.txTree, 9), (l.rxTree, 12), (l.deemph, 15)])
  else if off = 0x10A0 ∨ off = 0x10A4 then maskOf 32 fun i => (s.cmp (8 * (off - 0x10A0) + i)).armed
  else if 0x1100 ≤ off ∧ off < 0x1400 then
    (let c := s.cmp ((off - 0x1100) / 12)
     match (off - 0x1100) % 12 with
     | 0 => half c.value false
     | 4 => half c.value true
     | _ => c.period)
  else 0

def State.readPin (s : State) (off : Nat) : Nat :=
  if 0x1400 ≤ off ∧ off < 0x14C0 then
    (let b := (off - 0x1400) / 16
     let v := s.bank b
     match off % 16 with
     | 0 => pack [(v.vccio, 0), (v.cfgPull, 4), (b2n v.fault, 8), (b2n v.powered, 9), (v.measured % 65536, 16)]
     | 4 => v.out
     | 12 => maskOf 16 fun i => (s.pinS (16 * b + i)).level
     | _ => 0)
  else if 0x1500 ≤ off ∧ off < 0x1510 then Tbl.get 0 ((off - 0x1500) / 4) s.pin.diff
  else 0

def State.readBoot (s : State) (off : Nat) : Nat :=
  let b := s.boot
  match off with
  | 0x1800 => pack [(b.slotSkip, 0), (b2n b.hostFirst, 8), (b2n b.doneAction, 9)]
  | 0x1804 => b.hostWait
  | 0x1808 => b.doneTimeout
  | 0x1810 => half b.imgAddr false
  | 0x1814 => half b.imgAddr true
  | 0x1818 => b.imgLen
  | 0x1820 => pack [(b.loaded.source, 0), (b.loaded.slot, 2), (b2n b.loaded.valid, 4), (b2n b.doneLate, 5), (b2n b.doneHigh, 6), (b.lastReason, 8)]
  | 0x1824 => b.loaded.version
  | 0x1828 => pack [(b.qspiDummy, 0), (b.qspiDelay, 4), (b.qspiDiv, 8)]
  | _ => 0

/-- SEC (18 R490). -/
def State.readSec (s : State) (off : Nat) : Nat :=
  let h := s.husk
  let f := h.fuses
  match off with
  | 0x2000 => pack [(h.cls, 0), (b2n h.halted, 3), (b2n s.debugLocked, 4), (b2n s.keepLocked, 5), (b2n s.time.selftestFail, 6), (b2n (decide (f.keyKill ≠ 0)), 7),
      (b2n f.keyKillPending, 8), (b2n f.policyLock, 9), (b2n f.debugDisable, 10), (b2n f.personaSeed.isSome, 11),
      (maskOf 4 fun i => (Tbl.get none i f.digests).isSome, 12), (f.revoked % 16, 16), (h.keyValid % 256, 20)]
  | 0x2004 => pack [(h.raised % 256, 0), (maskOf 8 fun i => h.policy.enabled.getD i false, 8), (h.active % 256, 16)]
  | 0x2008 => h.policy.version
  | 0x200C => h.alarms
  | _ => 0

/-- The highest reading of a sensor that has not failed, the lowest of equals (log 28). -/
def State.hottest (s : State) : Option (Nat × Int) :=
  (List.range 64).foldl (fun b n =>
    let q := s.sensor n
    if q.failed then b else match b with
      | none => some (n, q.temp)
      | some x => if x.2 < q.temp then some (n, q.temp) else b) none

/-- Is a supply's reading inside its window, in mV; of VBAT, at 1.6 V or more (14 R396; 18 R491)? -/
def monOk (k : Nat) (mv : Int) : Bool :=
  match k with
  | 0 => decide (776 ≤ mv) && decide (mv ≤ 824)
  | 1 => decide (1710 ≤ mv) && decide (mv ≤ 1890)
  | 5 => decide (1600 ≤ mv)
  | k => supplyOk (k - 2) mv

/-- MON (18 R491). Supplies, Husk's own sensor and, with no valid sensor, the highest reading are measured when they are read: free
values (log 5, log 28), kept in the register. -/
def State.readMon (s : State) (off : Nat) : State × Nat :=
  if 0x2400 ≤ off ∧ off < 0x2500 then
    (let q := s.sensor ((off - 0x2400) / 4)
     (s, ofI 16 q.temp + 65536 * b2n q.failed))
  else if 0x2500 ≤ off ∧ off ≤ 0x2514 then
    (let k := (off - 0x2500) / 4
     let f := s.fresh
     let v := toI 16 (f.1 % 65536)
     ({ f.2 with mon := { f.2.mon with supplies := Tbl.set 0 k v f.2.mon.supplies } }, ofI 16 v + 65536 * b2n (!monOk k v)))
  else if off = 0x2520 then
    (match s.hottest with
     | some x => (s, ofI 16 x.2 + 65536 * x.1)
     | none => let f := s.fresh; (f.2, f.1 % 2 ^ 22))
  else if off = 0x2524 then
    (let f := s.fresh
     ({ f.2 with mon := { f.2.mon with huskTemp := f.1 % 65536 } }, f.1 % 65536))
  else (s, 0)

def State.readLocal (s : State) (off : Nat) : Nat :=
  match off with
  | 0x3000 => b2n s.time.localMode
  | 0x3004 => s.host.areaStart + 16 * s.host.areaPages
  | 0x3008 => half s.pendMask false
  | 0x300C => half s.pendMask true
  | _ => 0

def State.readMsix (s : State) (off : Nat) : Nat :=
  let e := s.msix ((off - 0x8000) / 16)
  match off % 16 with
  | 0 => half e.addr false
  | 4 => half e.addr true
  | 8 => e.data
  | _ => e.ctrl

/-- The present value of a register. -/
def State.regNow (s : State) (off : Nat) : State × Nat :=
  if off < 0x400 then (s, s.readChip off)
  else if off < 0x1000 then (s, s.readHost off)
  else if off < 0x1400 then (s, s.readClk off)
  else if off < 0x1800 then (s, s.readPin off)
  else if off < 0x2000 then (s, s.readBoot off)
  else if off < 0x2400 then (s, s.readSec off)
  else if off < 0x3000 then s.readMon off
  else if off < 0x4000 then (s, s.readLocal off)
  else if 0x8000 ≤ off ∧ off < 0x8400 then (s, s.readMsix off)
  else if off = 0x9000 then (s, half s.pendMask false)
  else if off = 0x9004 then (s, half s.pendMask true)
  else (s, 0)

/-- The offsets of _LO registers (18 R475, R476, R480, R488, R492). -/
def isLo (off : Nat) : Bool :=
  [0x08, 0x410, 0x1010, 0x1018, 0x1810, 0x3008].contains off ||
  (decide (0x440 ≤ off) && decide (off < 0xE40) && (decide (off % 32 = 0) || decide (off % 32 = 8))) ||
  (decide (0x1100 ≤ off) && decide (off < 0x1400) && decide ((off - 0x1100) % 12 = 0))

/-- A 32-bit read of an aligned offset (18 R471): a read of _LO latches _HI, which a read of _HI returns. -/
def State.regRead (s : State) (off : Nat) : State × Nat :=
  if 4 ≤ off ∧ isLo (off - 4) then (s, Tbl.get 0 off s.host.latch)
  else
    let v := s.regNow off
    if isLo off then
      let h := (v.1.regNow (off + 4)).2
      ({ v.1 with host := { v.1.host with latch := Tbl.set 0 (off + 4) h v.1.host.latch } }, v.2)
    else v

/-! ### Rows -/

/-- REGISTER_WRITE (18 R471-R493): a write of another width, or to an offset that is not aligned, is ignored. -/
def execRegisterWrite (t off : Nat) (value : Word) (width : Nat) (s : State) : Host.Outcome State Fault Refusal :=
  let s := s.at t
  .next (if s.hostUp ∧ width = 4 ∧ off % 4 = 0 then s.regWrite off value.toNat else s)

/-- LO_READ (18 R471): a 32-bit read of a register; an offset that is not aligned reads 0. -/
def execLoRead (t off : Nat) (s : State) : Host.Outcome State Fault Refusal :=
  let s := s.at t
  .next (if !s.hostUp then s
    else if off % 4 ≠ 0 then s.emit (.reg off 0)
    else
      let r := s.regRead off
      r.1.emit (.reg off r.2))

/-- May the serial host interface act (11 R324, R325; 16 R448)? -/
def State.spiUp (s : State) : Bool := s.time.localMode && s.hostUp

/-- A ring-area access outside the ring area (11 R325). -/
def State.badLocal (s : State) (addr op : Nat) : State := s.log 0x605 5 0 addr op

/-- SPI_WRITE_RING_AREA (11 R325): whole words; a byte left over is not written (log 28). -/
def execSpiWriteRingArea (t addr : Nat) (data : Bytes) (s : State) : Host.Outcome State Fault Refusal :=
  let s := s.at t
  let b := data.take (data.length / 4 * 4)
  .next (if !s.spiUp ∨ b.isEmpty then s else if s.inArea addr b.length then s.spWrite addr b else s.badLocal addr 0x02)

/-- SPI_READ_RING_AREA (11 R325). -/
def execSpiReadRingArea (t addr len : Nat) (s : State) : Host.Outcome State Fault Refusal :=
  let s := s.at t
  .next (if !s.spiUp then s
    else if s.inArea addr len then s.emit (.spi (s.spRead addr len))
    else (s.badLocal addr 0x03).emit (.spi (zeros len)))

/-- SPI_WRITE_SETUP_REGISTER (11 R325; 18 R471). -/
def execSpiWriteSetupRegister (t off : Nat) (value : Word) (s : State) : Host.Outcome State Fault Refusal :=
  let s := s.at t
  .next (if s.spiUp ∧ off % 4 = 0 then s.regWrite off value.toNat else s)

/-- SPI_READ_SETUP_REGISTER (11 R325; 18 R471): an offset that is not aligned reads 0. -/
def execSpiReadSetupRegister (t off : Nat) (s : State) : Host.Outcome State Fault Refusal :=
  let s := s.at t
  .next (if !s.spiUp then s
    else if off % 4 ≠ 0 then s.emit (.spi (zeros 4))
    else
      let r := s.regRead off
      r.1.emit (.spi (toLE 4 r.2)))

/-- SPI_WRITE_DOORBELL (11 R318, R319, R325). -/
def execSpiWriteDoorbell (t off : Nat) (data : Bytes) (s : State) : Host.Outcome State Fault Refusal :=
  let s := s.at t
  .next (if !s.spiUp ∨ (data.length ≠ 4 ∧ data.length ≠ 8) then s
    else if off = 0 then s.haltWrite (le data) data.length
    else s.doorbell4 off (le data) data.length [])

/-- SPI_READ_CLEAR_PENDING (11 R325; 18 R492). -/
def execSpiReadClearPending (t : Nat) (s : State) : Host.Outcome State Fault Refusal :=
  let s := s.at t
  .next (if !s.spiUp then s else ({ s with host := { s.host with pendVec := [] } }).emit (.spi (toLE 8 s.pendMask)))

end Sys2Proof.Machine
end

