-- ==== Sys2Proof/Machine/Dispatch.lean ====
section
/-! DEFINITION. The dispatch of commands to their meanings, one arm per row of spec/opcode_table.json. -/

namespace Sys2Proof.Machine

/-- The effect of one command on everything but the queue. -/
def exec (i : Instr) (s : State) : Host.Outcome State Fault Refusal :=
  match i with
  | .nop d => Sys2Proof.Machine.execNop d s
  | .query d => Sys2Proof.Machine.execQuery d s
  | .graphPlace d image => Sys2Proof.Machine.execGraphPlace d image s
  | .partition t slot => Sys2Proof.Machine.execPartition t slot s
  | .cellSelection t slot => Sys2Proof.Machine.execCellSelection t slot s
  | .buildAndMeasure t slot meas => Sys2Proof.Machine.execBuildAndMeasure t slot meas s
  | .evaluate t slot => Sys2Proof.Machine.execEvaluate t slot s
  | .graphRemove d => Sys2Proof.Machine.execGraphRemove d s
  | .graphTune d image meas => Sys2Proof.Machine.execGraphTune d image meas s
  | .graphPin d pins => Sys2Proof.Machine.execGraphPin d pins s
  | .transplant d => Sys2Proof.Machine.execTransplant d s
  | .ledgerRead d => Sys2Proof.Machine.execLedgerRead d s
  | .convConfig d => Sys2Proof.Machine.execConvConfig d s
  | .seqLoad d steps => Sys2Proof.Machine.execSeqLoad d steps s
  | .trigger d => Sys2Proof.Machine.execTrigger d s
  | .syscalZero d => Sys2Proof.Machine.execSyscalZero d s
  | .syscalFull d => Sys2Proof.Machine.execSyscalFull d s
  | .syscalCommit d => Sys2Proof.Machine.execSyscalCommit d s
  | .dacSet d => Sys2Proof.Machine.execDacSet d s
  | .dacRange d => Sys2Proof.Machine.execDacRange d s
  | .ddsConfig d => Sys2Proof.Machine.execDdsConfig d s
  | .dacNvStore d verified => Sys2Proof.Machine.execDacNvStore d verified s
  | .slewConfig d => Sys2Proof.Machine.execSlewConfig d s
  | .calRun d => Sys2Proof.Machine.execCalRun d s
  | .calPolicy d => Sys2Proof.Machine.execCalPolicy d s
  | .calRefExternal d => Sys2Proof.Machine.execCalRefExternal d s
  | .streamOpen d => Sys2Proof.Machine.execStreamOpen d s
  | .streamClose d => Sys2Proof.Machine.execStreamClose d s
  | .personaLoad d header => Sys2Proof.Machine.execPersonaLoad d header s
  | .regionLoad d header => Sys2Proof.Machine.execRegionLoad d header s
  | .readback d => Sys2Proof.Machine.execReadback d s
  | .snapshot d => Sys2Proof.Machine.execSnapshot d s
  | .logDrain d => Sys2Proof.Machine.execLogDrain d s
  | .stolonPolicy d => Sys2Proof.Machine.execStolonPolicy d s
  | .attest d sig => Sys2Proof.Machine.execAttest d sig s
  | .keyProvision d blob cr => Sys2Proof.Machine.execKeyProvision d blob cr s
  | .alarmPolicy d image cr verified => Sys2Proof.Machine.execAlarmPolicy d image cr verified s
  | .pinMap d entries => Sys2Proof.Machine.execPinMap d entries s
  | .gpioWriteMasked d => Sys2Proof.Machine.execGpioWriteMasked d s
  | .memCopyIn d data granted => Sys2Proof.Machine.execMemCopyIn d data granted s
  | .memCopyOut d granted bad fixed => Sys2Proof.Machine.execMemCopyOut d granted bad fixed s
  | .memAtomic d granted ecc => Sys2Proof.Machine.execMemAtomic d granted ecc s
  | .abort d => Sys2Proof.Machine.execAbort d s
  | .halt t value width => Sys2Proof.Machine.execHalt t value width s
  | .release t value width => Sys2Proof.Machine.execRelease t value width s
  | .mgmtEventRingHead t value width => Sys2Proof.Machine.execMgmtEventRingHead t value width s
  | .submissionTail t q value width => Sys2Proof.Machine.execSubmissionTail t q value width s
  | .completionHead t q value width => Sys2Proof.Machine.execCompletionHead t q value width s
  | .bufferRingTail t ds value width descs => Sys2Proof.Machine.execBufferRingTail t ds value width descs s
  | .eventRingHead t ds value width => Sys2Proof.Machine.execEventRingHead t ds value width s
  | .spiWriteRingArea t addr data => Sys2Proof.Machine.execSpiWriteRingArea t addr data s
  | .spiReadRingArea t addr len => Sys2Proof.Machine.execSpiReadRingArea t addr len s
  | .spiWriteSetupRegister t off value => Sys2Proof.Machine.execSpiWriteSetupRegister t off value s
  | .spiReadSetupRegister t off => Sys2Proof.Machine.execSpiReadSetupRegister t off s
  | .spiWriteDoorbell t off data => Sys2Proof.Machine.execSpiWriteDoorbell t off data s
  | .spiReadClearPending t => Sys2Proof.Machine.execSpiReadClearPending t s
  | .cfgLoad t len header => Sys2Proof.Machine.execCfgLoad t len header s
  | .cfgReadback t scope index time => Sys2Proof.Machine.execCfgReadback t scope index time s
  | .cfgStatus t => Sys2Proof.Machine.execCfgStatus t s
  | .programFallback t len header => Sys2Proof.Machine.execProgramFallback t len header s
  | .identify t => Sys2Proof.Machine.execIdentify t s
  | .cfgTransactionGap t => Sys2Proof.Machine.execCfgTransactionGap t s
  | .extest t => Sys2Proof.Machine.execExtest t s
  | .samplePreload t bits => Sys2Proof.Machine.execSamplePreload t bits s
  | .idcode t => Sys2Proof.Machine.execIdcode t s
  | .highz t => Sys2Proof.Machine.execHighz t s
  | .clamp t => Sys2Proof.Machine.execClamp t s
  | .bypass t code => Sys2Proof.Machine.execBypass t code s
  | .warmReset t value => Sys2Proof.Machine.execWarmReset t value s
  | .cqEnable t q value => Sys2Proof.Machine.execCqEnable t q value s
  | .cqDisable t q value => Sys2Proof.Machine.execCqDisable t q value s
  | .dsEnable t ds value => Sys2Proof.Machine.execDsEnable t ds value s
  | .dsDisable t ds value => Sys2Proof.Machine.execDsDisable t ds value s
  | .meEnable t value => Sys2Proof.Machine.execMeEnable t value s
  | .meDisable t value => Sys2Proof.Machine.execMeDisable t value s
  | .referenceSelect t value => Sys2Proof.Machine.execReferenceSelect t value s
  | .upllEnable t n value => Sys2Proof.Machine.execUpllEnable t n value s
  | .gckSetup t g freqReg value => Sys2Proof.Machine.execGckSetup t g freqReg value s
  | .syncModeWrite t value => Sys2Proof.Machine.execSyncModeWrite t value s
  | .cmpLoWrite t u value => Sys2Proof.Machine.execCmpLoWrite t u value s
  | .cmpHiWrite t u value => Sys2Proof.Machine.execCmpHiWrite t u value s
  | .cmpPeriodWrite t u value => Sys2Proof.Machine.execCmpPeriodWrite t u value s
  | .cmpDisarm t reg value => Sys2Proof.Machine.execCmpDisarm t reg value s
  | .ulEnable t l value => Sys2Proof.Machine.execUlEnable t l value s
  | .pinBankVccio t b value => Sys2Proof.Machine.execPinBankVccio t b value s
  | .pinDiff t k value => Sys2Proof.Machine.execPinDiff t k value s
  | .pinOut t b value => Sys2Proof.Machine.execPinOut t b value s
  | .pinOutMasked t b value => Sys2Proof.Machine.execPinOutMasked t b value s
  | .bootGo t value header => Sys2Proof.Machine.execBootGo t value header s
  | .loRead t off => Sys2Proof.Machine.execLoRead t off s
  | .registerWrite t off value width => Sys2Proof.Machine.execRegisterWrite t off value width s
  | .por t cfgPull hostSel vrefSel => Sys2Proof.Machine.execPor t cfgPull hostSel vrefSel s
  | .brownout t cfgPull hostSel vrefSel => Sys2Proof.Machine.execBrownout t cfgPull hostSel vrefSel s
  | .resetN t lowNs => Sys2Proof.Machine.execResetN t lowNs s
  | .perst t => Sys2Proof.Machine.execPerst t s
  | .suppliesValid t => Sys2Proof.Machine.execSuppliesValid t s
  | .pllLock t refKHz fuseOk => Sys2Proof.Machine.execPllLock t refKHz fuseOk s
  | .selfTest t fail vccio policyOk keyLost => Sys2Proof.Machine.execSelfTest t fail vccio policyOk keyLost s
  | .hostWaitExpiry t => Sys2Proof.Machine.execHostWaitExpiry t s
  | .personaSlotTry t header => Sys2Proof.Machine.execPersonaSlotTry t header s
  | .signatureVerified t w ed ml taken => Sys2Proof.Machine.execSignatureVerified t w ed ml taken s
  | .personaEpoch t w stored => Sys2Proof.Machine.execPersonaEpoch t w stored s
  | .frame t w rec => Sys2Proof.Machine.execFrame t w rec s
  | .repeatRecord t w rec => Sys2Proof.Machine.execRepeatRecord t w rec s
  | .regionMark t w rec => Sys2Proof.Machine.execRegionMark t w rec s
  | .endRecord t w rec => Sys2Proof.Machine.execEndRecord t w rec s
  | .personaEarlyEnd t w => Sys2Proof.Machine.execPersonaEarlyEnd t w s
  | .personaTimeout t w => Sys2Proof.Machine.execPersonaTimeout t w s
  | .doneHigh t => Sys2Proof.Machine.execDoneHigh t s
  | .doneTimeout t => Sys2Proof.Machine.execDoneTimeout t s
  | .resetRelease t => Sys2Proof.Machine.execResetRelease t s
  | .outputEnable t => Sys2Proof.Machine.execOutputEnable t s
  | .dataAreaApply t meas => Sys2Proof.Machine.execDataAreaApply t meas s
  | .regionIsolation t r => Sys2Proof.Machine.execRegionIsolation t r s
  | .regionClockRelease t r meas => Sys2Proof.Machine.execRegionClockRelease t r meas s
  | .outputInstant t c raw companion => Sys2Proof.Machine.execOutputInstant t c raw companion s
  | .applyStrobe t => Sys2Proof.Machine.execApplyStrobe t s
  | .triggerAccept t kind index falling => Sys2Proof.Machine.execTriggerAccept t kind index falling s
  | .loopOverload t c => Sys2Proof.Machine.execLoopOverload t c s
  | .loopOverloadEnd t c => Sys2Proof.Machine.execLoopOverloadEnd t c s
  | .syscalTimeout t slot => Sys2Proof.Machine.execSyscalTimeout t slot s
  | .converterPowerGate t c => Sys2Proof.Machine.execConverterPowerGate t c s
  | .streamRecord t c => Sys2Proof.Machine.execStreamRecord t c s
  | .flushInterval t ds => Sys2Proof.Machine.execFlushInterval t ds s
  | .streamFetchStall t ds => Sys2Proof.Machine.execStreamFetchStall t ds s
  | .queueStalled t q => Sys2Proof.Machine.execQueueStalled t q s
  | .msixMessage t v => Sys2Proof.Machine.execMsixMessage t v s
  | .dacUpdate t n => Sys2Proof.Machine.execDacUpdate t n s
  | .dacBusCapture t n data valid => Sys2Proof.Machine.execDacBusCapture t n data valid s
  | .slewTick t n => Sys2Proof.Machine.execSlewTick t n s
  | .ddsWrap t n => Sys2Proof.Machine.execDdsWrap t n s
  | .ddsMatch t n => Sys2Proof.Machine.execDdsMatch t n s
  | .dacPowerupRange t n => Sys2Proof.Machine.execDacPowerupRange t n s
  | .dacPowerupEnable t n => Sys2Proof.Machine.execDacPowerupEnable t n s
  | .rangeSwitch t n => Sys2Proof.Machine.execRangeSwitch t n s
  | .dacShort t n => Sys2Proof.Machine.execDacShort t n s
  | .dacTrip t n => Sys2Proof.Machine.execDacTrip t n s
  | .dacSenseOpen t n mv => Sys2Proof.Machine.execDacSenseOpen t n mv s
  | .dacSupplyLoss t => Sys2Proof.Machine.execDacSupplyLoss t s
  | .timebaseUpdate t => Sys2Proof.Machine.execTimebaseUpdate t s
  | .timebaseCompare t u => Sys2Proof.Machine.execTimebaseCompare t u s
  | .refLost t => Sys2Proof.Machine.execRefLost t s
  | .refRestored t => Sys2Proof.Machine.execRefRestored t s
  | .syncInEdge t => Sys2Proof.Machine.execSyncInEdge t s
  | .syncInMissing t => Sys2Proof.Machine.execSyncInMissing t s
  | .timebaseRephase t => Sys2Proof.Machine.execTimebaseRephase t s
  | .gckLoss t g khz => Sys2Proof.Machine.execGckLoss t g khz s
  | .gckRestored t g khz => Sys2Proof.Machine.execGckRestored t g khz s
  | .resetTreeAssert t g => Sys2Proof.Machine.execResetTreeAssert t g s
  | .resetTreeDeassert t g => Sys2Proof.Machine.execResetTreeDeassert t g s
  | .fabricContention t k wire => Sys2Proof.Machine.execFabricContention t k wire s
  | .scratchpadFabricRequest t b op addr be wdata ecc => Sys2Proof.Machine.execScratchpadFabricRequest t b op addr be wdata ecc s
  | .scrubWriteback t b => Sys2Proof.Machine.execScrubWriteback t b s
  | .dmaTimeout t slot => Sys2Proof.Machine.execDmaTimeout t slot s
  | .readbackCapture t id edges => Sys2Proof.Machine.execReadbackCapture t id edges s
  | .readbackBlockDone t id b => Sys2Proof.Machine.execReadbackBlockDone t id b s
  | .sheafToken t u => Sys2Proof.Machine.execSheafToken t u s
  | .snapshotComplete t => Sys2Proof.Machine.execSnapshotComplete t s
  | .sheafTimeout t => Sys2Proof.Machine.execSheafTimeout t s
  | .cellControlEdge t kind index level => Sys2Proof.Machine.execCellControlEdge t kind index level s
  | .idacCompliance t slot prim => Sys2Proof.Machine.execIdacCompliance t slot prim s
  | .ainOverrange t pair leg => Sys2Proof.Machine.execAinOverrange t pair leg s
  | .ainOverrangeClear t pair => Sys2Proof.Machine.execAinOverrangeClear t pair s
  | .destinationConfigured t slot prim => Sys2Proof.Machine.execDestinationConfigured t slot prim s
  | .destinationSettled t slot prim => Sys2Proof.Machine.execDestinationSettled t slot prim s
  | .matchingRound t slot prim offIn offOut gainDiff trims => Sys2Proof.Machine.execMatchingRound t slot prim offIn offOut gainDiff trims s
  | .crossoverComplete t slot prim meas => Sys2Proof.Machine.execCrossoverComplete t slot prim meas s
  | .sourceDisconnected t slot prim => Sys2Proof.Machine.execSourceDisconnected t slot prim s
  | .cellFault t cell monitor => Sys2Proof.Machine.execCellFault t cell monitor s
  | .repairDestination t r => Sys2Proof.Machine.execRepairDestination t r s
  | .repairConfigured t r => Sys2Proof.Machine.execRepairConfigured t r s
  | .repairNetsConnected t r => Sys2Proof.Machine.execRepairNetsConnected t r s
  | .repairSettled t r => Sys2Proof.Machine.execRepairSettled t r s
  | .repairVerified t r => Sys2Proof.Machine.execRepairVerified t r s
  | .repairTakeover t r meas => Sys2Proof.Machine.execRepairTakeover t r meas s
  | .repairCold t r meas => Sys2Proof.Machine.execRepairCold t r meas s
  | .stolonTestStart t r segs => Sys2Proof.Machine.execStolonTestStart t r segs s
  | .stolonTestEnd t r scores ranks segScores arbOk => Sys2Proof.Machine.execStolonTestEnd t r scores ranks segScores arbOk s
  | .stolonYielded t r why => Sys2Proof.Machine.execStolonYielded t r why s
  | .coverageMissed t r => Sys2Proof.Machine.execCoverageMissed t r s
  | .spareWarm t cell => Sys2Proof.Machine.execSpareWarm t cell s
  | .cellReset t cell readbackMatches => Sys2Proof.Machine.execCellReset t cell readbackMatches s
  | .arbRecovery t b holder => Sys2Proof.Machine.execArbRecovery t b holder s
  | .blockQuarantine t b why => Sys2Proof.Machine.execBlockQuarantine t b why s
  | .regionWatchdog t r => Sys2Proof.Machine.execRegionWatchdog t r s
  | .regionReady t r ed ml => Sys2Proof.Machine.execRegionReady t r ed ml s
  | .regionFailed t r => Sys2Proof.Machine.execRegionFailed t r s
  | .regionRestartRetry t r => Sys2Proof.Machine.execRegionRestartRetry t r s
  | .mgmtWatchdog t => Sys2Proof.Machine.execMgmtWatchdog t s
  | .mgmtRestartEnd t => Sys2Proof.Machine.execMgmtRestartEnd t s
  | .temperatureReading t r temps => Sys2Proof.Machine.execTemperatureReading t r temps s
  | .calIntervalDue t kind idx => Sys2Proof.Machine.execCalIntervalDue t kind idx s
  | .calRetry t kind idx => Sys2Proof.Machine.execCalRetry t kind idx s
  | .calibrationRunStart t r kind idx => Sys2Proof.Machine.execCalibrationRunStart t r kind idx s
  | .calibrationRunEnd t kind idx res => Sys2Proof.Machine.execCalibrationRunEnd t kind idx res s
  | .refcalMeasurement t regions => Sys2Proof.Machine.execRefcalMeasurement t regions s
  | .keepStoreWrite t kind idx => Sys2Proof.Machine.execKeepStoreWrite t kind idx s
  | .supplyFault t which mv => Sys2Proof.Machine.execSupplyFault t which mv s
  | .supplyRestored t which mv => Sys2Proof.Machine.execSupplyRestored t which mv s
  | .pinInputChange t p level => Sys2Proof.Machine.execPinInputChange t p level s
  | .functionSwitch t => Sys2Proof.Machine.execFunctionSwitch t s
  | .bankSupplyFault t b mv => Sys2Proof.Machine.execBankSupplyFault t b mv s
  | .bankSupplyRestored t b mv => Sys2Proof.Machine.execBankSupplyRestored t b mv s
  | .portStatus t k => Sys2Proof.Machine.execPortStatus t k s
  | .portTx t k wdata => Sys2Proof.Machine.execPortTx t k wdata s
  | .portRx t k => Sys2Proof.Machine.execPortRx t k s
  | .portControl t k wdata => Sys2Proof.Machine.execPortControl t k wdata s
  | .ulTxBlock t l blk ready => Sys2Proof.Machine.execUlTxBlock t l blk ready s
  | .ulRxOverflow t l => Sys2Proof.Machine.execUlRxOverflow t l s
  | .ulLock t l => Sys2Proof.Machine.execUlLock t l s
  | .ulLockLost t l => Sys2Proof.Machine.execUlLockLost t l s
  | .huskAlarm t sensor detail => Sys2Proof.Machine.execHuskAlarm t sensor detail s
  | .tamperLatch t sensor => Sys2Proof.Machine.execTamperLatch t sensor s
  | .keyKillBurn t => Sys2Proof.Machine.execKeyKillBurn t s
  | .checkpointWrite t => Sys2Proof.Machine.execCheckpointWrite t s
  | .strawBanner t => Sys2Proof.Machine.execStrawBanner t s
  | .sparesCold t r => Sys2Proof.Machine.execSparesCold t r s
  | .shortLimitReleased t n => Sys2Proof.Machine.execShortLimitReleased t n s
  | .sensorInactive t sensor => Sys2Proof.Machine.execSensorInactive t sensor s
  | .ulRxBlock t l blk => Sys2Proof.Machine.execUlRxBlock t l blk s
  | .portByteReceived t k byte err => Sys2Proof.Machine.execPortByteReceived t k byte err s
  | .portByteSent t k arbLost nack => Sys2Proof.Machine.execPortByteSent t k arbLost nack s
  | .smbusTimeout t k => Sys2Proof.Machine.execSmbusTimeout t k s
  | .linkTrained t speed width => Sys2Proof.Machine.execLinkTrained t speed width s
  | .linkRetraining t => Sys2Proof.Machine.execLinkRetraining t s
  | .upllLock t n => Sys2Proof.Machine.execUpllLock t n s
  | .nopDelayPassed t slot => Sys2Proof.Machine.execNopDelayPassed t slot s

end Sys2Proof.Machine
end

