-- ==== Sys2Proof/Safety.lean ====
section
/-! DEFINITION. What statements about the whole machine are stated in: the states in which every bounded field keeps its
bounds. -/

namespace Sys2Proof.Machine

/-- Every bounded field stands within the bounds that the spec gives it: the timebase (10 R272), the start-up step (14 R395), the
scratchpad in its canonical form (09 R259), the log and the entries held for it (17 R464, R467), the events held for the ring
(11 R317), and the ranged fields of setup registers (18 R471, R477, R480, R488, R492). -/
def Legal (s : State) : Prop :=
  s.time.timebase < 2 ^ 64 ∧ (1 ≤ s.time.step ∧ s.time.step ≤ 10) ∧ Tbl.wf 0 s.fab.spad = true ∧ s.chip.log.length ≤ 8192 ∧
  s.chip.heldLog.length ≤ 256 ∧ s.host.me.held.length ≤ 64 ∧ (1 ≤ s.host.share ∧ s.host.share ≤ 16) ∧
  (1 ≤ s.host.areaPages ∧ s.host.areaStart + s.host.areaPages ≤ 8) ∧ (1 ≤ s.boot.hostWait ∧ s.boot.hostWait ≤ 60000) ∧
  (10 ≤ s.boot.doneTimeout ∧ s.boot.doneTimeout ≤ 60000) ∧ s.boot.imgLen ≤ 33554432 ∧ s.clk.syncMode ≤ 2 ∧ s.clk.refSource ≤ 1

/-- The descriptor that a row's queue fetches, and the state it is fetched in. -/
def State.atDesc (s : State) (d : Desc) : Desc := (s.at d.t).fetched d

/-- Queue, descriptor and device admit the command with code `op`: the queue may dispatch (11 R295, R300, R301), its
descriptor and record are of the form that 11 R293 and R294 ask, the device is not busy with start-up or a load (12 R332) nor
halted (12 R330), and `slot` is the first free handle slot (11 R303). `a` is the argument record. -/
def Admits (s : State) (op : Nat) (d : Desc) (slot : Nat) (a : Bytes) : Prop :=
  d.queue < 16 ∧ (s.atDesc d).opcode = op ∧ (s.at d.t).mayDispatch (s.atDesc d) = true ∧
  (s.at d.t).descBad (s.atDesc d) (argLen op) = none ∧ a = descRecord (s.atDesc d) (argLen op) ∧
  (s.at d.t).busyFor op a = false ∧ (s.at d.t).chip.freeSlots.head? = some slot ∧ s.husk.halted = false

/-- The queue may dispatch the command with code `op`, whose descriptor and record `a` are of the form that 11 R293 and R294 ask;
nothing is said yet of whether it is accepted. -/
def Judged (s : State) (op : Nat) (d : Desc) (a : Bytes) : Prop :=
  d.queue < 16 ∧ (s.atDesc d).opcode = op ∧ (s.at d.t).mayDispatch (s.atDesc d) = true ∧
  (s.at d.t).descBad (s.atDesc d) (argLen op) = none ∧ a = descRecord (s.atDesc d) (argLen op)

/-- The state in which the queue of a row has consumed its descriptor (11 R290). -/
def State.consumed (s : State) (d : Desc) : State :=
  let u := s.at d.t
  let c := u.cq (s.atDesc d).queue
  u.setCq (s.atDesc d).queue { c with sqHead := (c.sqHead + 1) % 2 ^ c.sqSize }

/-- The state after the ACCEPTED entry of an admitted command: its descriptor is consumed, its slot taken (11 R299, R303). -/
def State.admitted (s : State) (d : Desc) (slot : Nat) (a : Bytes) : State := (s.consumed d).accept (s.atDesc d) a slot

/-- The state after the REJECTED entry of a command: its descriptor is consumed, and nothing else of it takes effect (11 R297-R299). -/
def State.rejected (s : State) (d : Desc) (status r0 : Nat) : State := (s.consumed d).reject (s.atDesc d) status r0

end Sys2Proof.Machine
end

