-- ==== Sys2Proof/WellFormed.lean ====
section
/-! DEFINITION. Well-formed commands: operands that name a unit, a field or a byte string of the size the spec
gives it (00_scope.md R4-R8; 11_rings_doorbells.md R293; 18_setup_registers.md R470, R471). -/

namespace Sys2Proof

/-- A descriptor's fields fit their widths (11 R293), and its queue exists (00 R4). -/
def Desc.wf (d : Desc) : Bool :=
  decide (d.t < 2 ^ 64) && decide (d.queue < 16) && decide (d.opcode < 2 ^ 16) && decide (d.flags < 2 ^ 16) &&
  decide (d.tag < 2 ^ 32) && decide (d.argAddr < 2 ^ 64) && decide (d.inl.length = 48)

/-- Measured values are binary32 words (03 R80). -/
def measWf (m : Measured) : Bool := m.all fun w => decide (w < 2 ^ 32)

/-- A width in bytes of a register access (18 R471; 11 R289). -/
def widthWf (w : Nat) : Bool := decide (w = 1) || decide (w = 2) || decide (w = 4) || decide (w = 8)

/-- An object of calibration (08 R211): kind 0 a cell, 1 a converter, 2 a DAC channel. -/
def objWf (kind idx : Nat) : Bool :=
  (decide (kind = 0) && decide (idx < 1024)) || (decide (kind = 1) && decide (idx < 192)) || (decide (kind = 2) && decide (idx < 64))

/-- Is the command well formed? -/
def Instr.wf : Instr → Bool
  | .nop d | .query d | .graphRemove d | .ledgerRead d | .convConfig d | .trigger d | .syscalZero d | .syscalFull d
  | .syscalCommit d | .dacSet d | .dacRange d | .ddsConfig d | .slewConfig d | .calRun d | .calPolicy d
  | .calRefExternal d | .streamOpen d | .streamClose d | .readback d | .snapshot d | .logDrain d | .stolonPolicy d
  | .gpioWriteMasked d | .abort d => d.wf
  | .graphPlace d _ | .seqLoad d _ | .personaLoad d _ | .regionLoad d _ | .pinMap d _ | .dacNvStore d _ => d.wf
  | .graphTune d _ m => d.wf && measWf m
  | .graphPin d _ | .transplant d => d.wf
  | .attest d _ | .keyProvision d _ _ | .alarmPolicy d _ _ _ | .memCopyIn d _ _ | .memCopyOut d _ _ _ => d.wf
  | .memAtomic d _ ecc => d.wf && decide (ecc < 3)
  | .buildAndMeasure t slot ms => decide (t < 2 ^ 64) && decide (slot < 4096) && ms.all measWf
  | .partition t slot | .cellSelection t slot | .evaluate t slot | .nopDelayPassed t slot | .syscalTimeout t slot | .dmaTimeout t slot =>
    decide (t < 2 ^ 64) && decide (slot < 4096)
  | .halt t _ w | .release t _ w | .mgmtEventRingHead t _ w => decide (t < 2 ^ 64) && widthWf w
  | .submissionTail t q _ w | .completionHead t q _ w => decide (t < 2 ^ 64) && decide (q < 16) && widthWf w
  | .bufferRingTail t ds _ w ds' => decide (t < 2 ^ 64) && decide (ds < 64) && widthWf w && ds'.all (fun b => decide (b.length = 16))
  | .eventRingHead t ds _ w => decide (t < 2 ^ 64) && decide (ds < 64) && widthWf w
  | .spiWriteRingArea t a _ => decide (t < 2 ^ 64) && decide (a < 0x200000)
  | .spiReadRingArea t a n => decide (t < 2 ^ 64) && decide (a < 0x200000) && decide (n ≤ 0x200000)
  | .spiWriteSetupRegister t o _ | .spiReadSetupRegister t o | .loRead t o => decide (t < 2 ^ 64) && decide (o < 0x10000)
  | .spiWriteDoorbell t o b => decide (t < 2 ^ 64) && decide (o < 2 ^ 24) && decide (b.length ≤ 8)
  | .registerWrite t o _ w => decide (t < 2 ^ 64) && decide (o < 0x10000) && widthWf w
  | .spiReadClearPending t | .cfgStatus t | .identify t | .cfgTransactionGap t | .extest t | .samplePreload t _
  | .idcode t | .highz t | .clamp t | .perst t | .suppliesValid t | .hostWaitExpiry t | .doneHigh t | .doneTimeout t
  | .resetRelease t | .outputEnable t | .applyStrobe t | .dacSupplyLoss t | .timebaseUpdate t | .refLost t
  | .refRestored t | .syncInEdge t | .syncInMissing t | .timebaseRephase t | .snapshotComplete t | .sheafTimeout t
  | .mgmtWatchdog t | .mgmtRestartEnd t | .functionSwitch t | .keyKillBurn t | .checkpointWrite t | .strawBanner t
  | .linkRetraining t => decide (t < 2 ^ 64)
  | .cfgLoad t len _ => decide (t < 2 ^ 64) && decide (len < 2 ^ 32)
  | .programFallback t len _ => decide (t < 2 ^ 64) && decide (len < 2 ^ 32)
  | .cfgReadback t scope index time => decide (t < 2 ^ 64) && decide (scope < 256) && decide (index < 65536) && decide (time < 2 ^ 64)
  | .bypass t code => decide (t < 2 ^ 64) && decide (code < 256)
  | .warmReset t _ | .meEnable t _ | .meDisable t _ | .referenceSelect t _ | .syncModeWrite t _ | .bootGo t _ _ => decide (t < 2 ^ 64)
  | .cqEnable t q _ | .cqDisable t q _ => decide (t < 2 ^ 64) && decide (q < 16)
  | .dsEnable t ds _ | .dsDisable t ds _ => decide (t < 2 ^ 64) && decide (ds < 64)
  | .upllEnable t n _ => decide (t < 2 ^ 64) && decide (n < 4)
  | .upllLock t n => decide (t < 2 ^ 64) && decide (n < 4)
  | .gckSetup t g _ _ => decide (t < 2 ^ 64) && decide (g < 8)
  | .gckLoss t g _ | .gckRestored t g _ | .resetTreeAssert t g | .resetTreeDeassert t g => decide (t < 2 ^ 64) && decide (g < 8)
  | .cmpLoWrite t u _ | .cmpHiWrite t u _ | .cmpPeriodWrite t u _ => decide (t < 2 ^ 64) && decide (u < 64)
  | .timebaseCompare t u => decide (t < 2 ^ 64) && decide (u < 64)
  | .cmpDisarm t reg _ => decide (t < 2 ^ 64) && decide (reg < 2)
  | .ulEnable t l _ => decide (t < 2 ^ 64) && decide (l < 8)
  | .ulTxBlock t l _ _ | .ulRxBlock t l _ => decide (t < 2 ^ 64) && decide (l < 8)
  | .ulRxOverflow t l | .ulLock t l | .ulLockLost t l => decide (t < 2 ^ 64) && decide (l < 8)
  | .pinBankVccio t b _ | .pinOut t b _ | .pinOutMasked t b _ => decide (t < 2 ^ 64) && decide (b < 12)
  | .bankSupplyFault t b _ => decide (t < 2 ^ 64) && decide (b < 12)
  | .bankSupplyRestored t b _ => decide (t < 2 ^ 64) && decide (b < 12)
  | .pinDiff t k _ => decide (t < 2 ^ 64) && decide (k < 4)
  | .por t _ _ _ | .brownout t _ _ _ => decide (t < 2 ^ 64)
  | .resetN t _ => decide (t < 2 ^ 64)
  | .pllLock t khz _ => decide (t < 2 ^ 64) && decide (khz < 2 ^ 32)
  | .selfTest t fail v _ _ => decide (t < 2 ^ 64) && [0, 2, 3, 4, 5, 6, 9, 10, 11].contains fail && decide (v.length = 12)
  | .personaSlotTry t _ => decide (t < 2 ^ 64)
  | .signatureVerified t w _ _ taken => decide (t < 2 ^ 64) && decide (w < 9) && taken.all (fun n => decide (n < 4096))
  | .personaEpoch t w _ => decide (t < 2 ^ 64) && decide (w < 9)
  | .frame t w _ | .repeatRecord t w _ | .regionMark t w _ | .endRecord t w _ => decide (t < 2 ^ 64) && decide (w < 9)
  | .personaEarlyEnd t w | .personaTimeout t w => decide (t < 2 ^ 64) && decide (w < 9)
  | .dataAreaApply t ms => decide (t < 2 ^ 64) && ms.all (·.all measWf)
  | .regionIsolation t r | .repairConfigured t r | .repairNetsConnected t r | .repairSettled t r | .repairVerified t r
  | .coverageMissed t r | .regionRestartRetry t r | .sparesCold t r => decide (t < 2 ^ 64) && decide (r < 8)
  | .regionClockRelease t r ms => decide (t < 2 ^ 64) && decide (r < 8) && ms.all (·.all measWf)
  | .outputInstant t c _ _ => decide (t < 2 ^ 64) && decide (c < 192)
  | .triggerAccept t kind index _ => decide (t < 2 ^ 64) && decide (kind < 256) && decide (index < 2 ^ 16)
  | .loopOverload t c | .loopOverloadEnd t c | .converterPowerGate t c | .streamRecord t c => decide (t < 2 ^ 64) && decide (c < 192)
  | .flushInterval t ds | .streamFetchStall t ds => decide (t < 2 ^ 64) && decide (ds < 64)
  | .queueStalled t q => decide (t < 2 ^ 64) && decide (q < 16)
  | .msixMessage t v => decide (t < 2 ^ 64) && decide (v < 64)
  | .dacUpdate t n | .slewTick t n | .ddsWrap t n | .ddsMatch t n | .dacPowerupRange t n | .dacPowerupEnable t n
  | .rangeSwitch t n | .dacShort t n | .dacTrip t n | .shortLimitReleased t n => decide (t < 2 ^ 64) && decide (n < 64)
  | .dacBusCapture t n data _ => decide (t < 2 ^ 64) && decide (n < 64) && decide (data < 2 ^ 20)
  | .dacSenseOpen t n _ => decide (t < 2 ^ 64) && decide (n < 64)
  | .fabricContention t k wire => decide (t < 2 ^ 64) && decide (38208 ≤ k) && decide (k < 49152) && decide (wire < 8)
  | .scratchpadFabricRequest t b op a be _ ecc =>
    decide (t < 2 ^ 64) && decide (b < 64) && decide (op < 8) && decide (a < 2 ^ 15) && decide (be < 16) && decide (ecc < 3)
  | .scrubWriteback t b => decide (t < 2 ^ 64) && decide (b < 64)
  | .readbackCapture t id edges => decide (t < 2 ^ 64) && decide (id ≤ 0x1000) && edges.all fun e =>
    decide (e.1 < 2 ^ 64) && decide (e.2.1 < 8) && e.2.2.all fun o => decide (o.1 < 8) && decide (o.2 < 65536)
  | .readbackBlockDone t id b => decide (t < 2 ^ 64) && decide (id ≤ 0x1000) && decide (b < 64)
  | .sheafToken t u => decide (t < 2 ^ 64) && decide (u < 417)
  | .cellControlEdge t kind index _ => decide (t < 2 ^ 64) && ((decide (kind = 1) && decide (index < 1024)) || (decide (kind = 2) && decide (index < 32)) ||
    (decide (kind = 3) && decide (index < 64)) || (decide (kind = 4) && decide (index < 128)))
  | .idacCompliance t slot prim | .destinationConfigured t slot prim | .destinationSettled t slot prim
  | .sourceDisconnected t slot prim => decide (t < 2 ^ 64) && decide (slot < 4096) && decide (prim < 256)
  | .matchingRound t slot prim _ _ _ _ => decide (t < 2 ^ 64) && decide (slot < 4096) && decide (prim < 256)
  | .crossoverComplete t slot prim m => decide (t < 2 ^ 64) && decide (slot < 4096) && decide (prim < 256) && measWf m
  | .ainOverrange t p leg => decide (t < 2 ^ 64) && decide (p < 128) && decide (leg < 2)
  | .ainOverrangeClear t p => decide (t < 2 ^ 64) && decide (p < 128)
  | .cellFault t c m => decide (t < 2 ^ 64) && decide (c < 1024) && decide (1 ≤ m) && decide (m < 6)
  | .spareWarm t c => decide (t < 2 ^ 64) && decide (c < 1024)
  | .cellReset t c _ => decide (t < 2 ^ 64) && decide (c < 1024)
  | .stolonTestStart t r segs => decide (t < 2 ^ 64) && decide (r < 8) && segs.all fun k => decide (k < 5440)
  | .repairTakeover t r m | .repairCold t r m => decide (t < 2 ^ 64) && decide (r < 8) && measWf m
  | .stolonTestEnd t r scores ranks segScores _ => decide (t < 2 ^ 64) && decide (r < 8) && scores.all (fun w => decide (w < 256)) &&
    ranks.all (fun w => decide (w < 4096)) && segScores.all (fun w => decide (w < 256))
  | .stolonYielded t r why => decide (t < 2 ^ 64) && decide (r < 8) && decide (1 ≤ why) && decide (why < 5)
  | .arbRecovery t b holder => decide (t < 2 ^ 64) && decide (b < 64) && decide (1 ≤ holder) && decide (holder < 4)
  | .blockQuarantine t b why => decide (t < 2 ^ 64) && decide (b < 64) && decide (1 ≤ why) && decide (why < 3)
  | .repairDestination t r | .regionWatchdog t r | .regionFailed t r | .regionReady t r _ _ => decide (t < 2 ^ 64) && decide (r < 8)
  | .temperatureReading t r temps => decide (t < 2 ^ 64) && decide (r < 8) && decide (temps.length = 8)
  | .calIntervalDue t kind idx | .calRetry t kind idx => decide (t < 2 ^ 64) && objWf kind idx
  | .calibrationRunStart t r kind idx => decide (t < 2 ^ 64) && decide (r < 8) && objWf kind idx
  | .calibrationRunEnd t kind idx _ => decide (t < 2 ^ 64) && objWf kind idx
  | .refcalMeasurement t rs => decide (t < 2 ^ 64) && decide (rs.length ≤ 8)
  | .keepStoreWrite t kind _ => decide (t < 2 ^ 64) && decide (kind < 8)
  | .supplyFault t w _ | .supplyRestored t w _ => decide (t < 2 ^ 64) && decide (w < 3)
  | .pinInputChange t p _ => decide (t < 2 ^ 64) && decide (p < 192)
  | .portStatus t k | .portRx t k | .smbusTimeout t k => decide (t < 2 ^ 64) && decide (k < 6)
  | .portTx t k w | .portControl t k w => decide (t < 2 ^ 64) && decide (k < 6) && decide (w < 2 ^ 16)
  | .portByteReceived t k b _ => decide (t < 2 ^ 64) && decide (k < 6) && decide (b < 256)
  | .portByteSent t k _ _ => decide (t < 2 ^ 64) && decide (k < 6)
  | .huskAlarm t sn det => decide (t < 2 ^ 64) && decide (sn < 8) && decide (det < 2 ^ 16)
  | .tamperLatch t sn | .sensorInactive t sn => decide (t < 2 ^ 64) && decide (sn < 8)
  | .linkTrained t sp w => decide (t < 2 ^ 64) && decide (sp < 8) && decide (w < 32)

end Sys2Proof
end

