-- ==== Sys2Proof/Certificates/Slice0/Obligations.lean ====
section
/-! DEFINITION. The statements for the provers. `Admits`, `State.consumed` and `State.admitted` are those of Safety.lean: an
admitted command is one that its queue may dispatch, and the state after its ACCEPTED entry. -/

open Sys2Proof Sys2Proof.Machine

/-- How a command runs. -/
def Obligations.StepRunsTheFrontCommand : Prop :=
  ∀ (c : Instr) (s : State), step { s with pending := c :: s.pending } = exec c s ∧
    ∀ rest, s.pending = c :: rest → step s = exec c { s with pending := rest }

/-- The idle step: the model's choice (log 1); that the timebase counts ticks is 10 R272's. -/
def Obligations.EmptyQueueTicks : Prop :=
  ∀ s : State, s.pending = [] →
    (s.time.running = true → s.time.timebase + 1 < 2 ^ 64 → step s = .next { s with time := { s.time with timebase := s.time.timebase + 1 } }) ∧
    (s.time.running = false → step s = .next s)

/-- Reset (14 R394, R395; 18 R473). -/
def Obligations.ResetState : Prop :=
  State.reset.time.step = 1 ∧ State.reset.time.timebase = 0 ∧ State.reset.time.running = false ∧ State.reset.time.done = false ∧ State.reset.pending = [] ∧
    State.reset.chip.handles = [] ∧ State.reset.chip.freeSlots = List.range 4096 ∧ State.reset.chip.log = [] ∧ (∀ u k, (State.reset.ctr u k).val = 0) ∧
    (∀ q, (State.reset.cq q).enable = false) ∧ (∀ n, (State.reset.ds n).enable = false ∧ (State.reset.ds n).opened = false) ∧ State.reset.host.me.enable = false ∧
    (∀ v, Tbl.get 0 v State.reset.host.coal = 0) ∧ State.reset.host.share = 12 ∧ (∀ a, State.reset.spRead a 1 = [0]) ∧ (∀ c, (State.reset.conv c).cfg.mode = 0) ∧
    State.reset.til.graphs = [] ∧ State.reset.boot.hostWait = 10000 ∧ State.reset.boot.doneTimeout = 2000 ∧ State.reset.husk.halted = false

/-- The invariant holds at reset. -/
def Obligations.ResetIsLegal : Prop :=
  Legal State.reset

/-- The invariant of the whole block, over all 227 rows and the idle tick. -/
def Obligations.EveryStepKeepsLegal : Prop :=
  ∀ s t : State, Legal s → step s = .next t → Legal t

/-- No command touches the queue of those that wait. -/
def Obligations.StepTakesOnlyTheFront : Prop :=
  ∀ s t : State, step s = .next t → t.pending = s.pending.tail

/-- No command is left without a meaning: whatever the state, every well-formed command, of any of the 227 rows, answers a next state.
Only a number that names no unit (log 4) faults. -/
def Obligations.CommandsNeverRefused : Prop :=
  (∀ (c : Instr) (s : State), c.wf = true → ∃ t, exec c s = .next t) ∧
  (∀ (c : Instr) (s : State), (∃ t, exec c s = .next t) ∨ exec c s = .fault .noSuchUnit)

/-- Numbers that name no unit: the model's choice (log 4). -/
def Obligations.AbsentUnitsFault : Prop :=
  ∀ (s : State) (t : Nat) (v : Word) (d : Desc) (x : Nat),
    (16 ≤ d.queue → exec (.nop d) s = .fault .noSuchUnit ∧ exec (.abort d) s = .fault .noSuchUnit ∧ exec (.dacSet d) s = .fault .noSuchUnit) ∧
    (16 ≤ x → exec (.submissionTail t x v 4) s = .fault .noSuchUnit ∧ exec (.queueStalled t x) s = .fault .noSuchUnit ∧ exec (.cqEnable t x v) s = .fault .noSuchUnit) ∧
    (192 ≤ x → exec (.outputInstant t x 0 0) s = .fault .noSuchUnit ∧ exec (.streamRecord t x) s = .fault .noSuchUnit ∧ exec (.pinInputChange t x true) s = .fault .noSuchUnit) ∧
    (64 ≤ x → exec (.dacUpdate t x) s = .fault .noSuchUnit ∧ exec (.slewTick t x) s = .fault .noSuchUnit ∧ exec (.flushInterval t x) s = .fault .noSuchUnit ∧
      exec (.scrubWriteback t x) s = .fault .noSuchUnit ∧ exec (.arbRecovery t x 1) s = .fault .noSuchUnit ∧ exec (.timebaseCompare t x) s = .fault .noSuchUnit) ∧
    (8 ≤ x → exec (.regionIsolation t x) s = .fault .noSuchUnit ∧ exec (.regionReady t x true true) s = .fault .noSuchUnit ∧
      exec (.gckSetup t x true v) s = .fault .noSuchUnit ∧ exec (.ulLock t x) s = .fault .noSuchUnit) ∧
    (4 ≤ x → exec (.upllLock t x) s = .fault .noSuchUnit) ∧ (12 ≤ x → exec (.pinOut t x v) s = .fault .noSuchUnit) ∧ (6 ≤ x → exec (.portRx t x) s = .fault .noSuchUnit)

/-- The one way in of every queue command. The order of the checks is the model's choice (log 16), and that a row that may not be dispatched does nothing (log 2). -/
def Obligations.RejectionsOfEveryCommand : Prop :=
  (∀ (s : State) op (d : Desc) bad pre body, (s.at d.t).mayDispatch (s.atDesc d) = false → s.command op d bad pre body = s.at d.t) ∧
  (∀ (s : State) op (d : Desc) bad pre body, (s.at d.t).mayDispatch (s.atDesc d) = true → (opcodes.any fun e => e.1 == (s.atDesc d).opcode) = false →
    s.command op d bad pre body = s.rejected d stBAD_OPCODE 0) ∧
  (∀ (s : State) op (d : Desc) bad pre body o, (s.at d.t).mayDispatch (s.atDesc d) = true → (s.atDesc d).opcode = op → (opcodes.any fun e => e.1 == op) = true →
    (s.at d.t).descBad (s.atDesc d) (argLen op) = some o → s.command op d bad pre body = s.rejected d stBAD_ARG (o + 65536)) ∧
  (∀ (s : State) op (d : Desc) bad pre body a, Judged s op d a → (opcodes.any fun e => e.1 == op) = true →
    (∀ o, bad a = some o → s.command op d bad pre body = s.rejected d stBAD_ARG o) ∧
    (bad a = none → (s.at d.t).busyFor op a = true → s.command op d bad pre body = s.rejected d stBUSY 0) ∧
    (bad a = none → (s.at d.t).busyFor op a = false →
      (∀ st, pre (s.consumed d) a = some st → s.command op d bad pre body = s.rejected d st 0) ∧
      (pre (s.consumed d) a = none → s.chip.freeSlots = [] → s.command op d bad pre body = s.rejected d stBUSY 0) ∧
      (∀ slot rest, pre (s.consumed d) a = none → s.chip.freeSlots = slot :: rest → s.husk.halted = false →
        s.command op d bad pre body = body slot a (s.admitted d slot a))))

/-- 12 R332, as a rule of every queue command. -/
def Obligations.BusyDuringPersonaLoad : Prop :=
  (∀ (s : State) op (d : Desc) bad pre body a e, Judged s op d a → (opcodes.any fun e => e.1 == op) = true → bad a = none → e ∈ s.inFlight → e.2.opcode = 0x0600 →
    s.time.selftestFail = false →
    (op ≠ 0x0001 → op ≠ 0x0002 → op ≠ 0x0105 → op ≠ 0x0700 → op ≠ 0x0701 → op ≠ 0x0800 → op ≠ 0x0F00 → s.command op d bad pre body = s.rejected d stBUSY 0) ∧
    ((op = 0x0001 ∨ op = 0x0002 ∨ op = 0x0105 ∨ op = 0x0700 ∨ op = 0x0701 ∨ op = 0x0800 ∨ op = 0x0F00) → (s.at d.t).busyFor op a = false)) ∧
  (∀ (s : State) (d : Desc) h, d.queue < 16 → (s.atDesc d).opcode = 0x0600 → s.inFlight ≠ [] → exec (.personaLoad d h) s = .next (s.at d.t))

/-- 12 R330, for commands dispatched under the halt. -/
def Obligations.LockedInAlarm : Prop :=
  ∀ (s : State) op (d : Desc) bad pre body a slot rest, Judged s op d a → (opcodes.any fun e => e.1 == op) = true → bad a = none → (s.at d.t).busyFor op a = false → pre (s.consumed d) a = none →
    s.chip.freeSlots = slot :: rest → s.husk.halted = true →
    (op ∈ [0x0100, 0x0102, 0x0103, 0x0104, 0x0200, 0x0201, 0x0202, 0x0203, 0x0204, 0x0205, 0x0300, 0x0301, 0x0302, 0x0304, 0x0500, 0x0600, 0x0601, 0x0602, 0x0900, 0x0901,
        0x0A00, 0x0A01, 0x0A02, 0x0801] → s.command op d bad pre body = (s.admitted d slot a).final slot stLOCKED 0 0) ∧
    (op ∈ [0x0001, 0x0002, 0x0101, 0x0105, 0x0303, 0x0400, 0x0401, 0x0402, 0x0501, 0x0700, 0x0701, 0x0702, 0x0800, 0x0802, 0x0F00] →
      s.command op d bad pre body = body slot a (s.admitted d slot a))

/-- 11 R305: `names` is false of a value exactly where its slot is free or its generation is another. -/
def Obligations.StaleHandlesRejected : Prop :=
  (∀ (s : State) v, s.names v = false ↔ (s.hnd (v % 4096)).st = 0 ∨ (s.hnd (v % 4096)).gen ≠ v / 4096) ∧
  (∀ (s : State) (d : Desc) a, Judged s 0x0002 d a → firstBad a (rsv 1 1 ++ (if (fld a 8 8 = 0) then rsv 4 4 else [])) = none → (s.at d.t).busyFor 0x0002 a = false → byteAt a 0 = 1 →
    s.names (fld a 2 2) = false → exec (.query d) s = .next (s.rejected d stBAD_HANDLE 0)) ∧
  (∀ (s : State) (d : Desc) a, Judged s 0x0F00 d a → firstBad a (rsv 2 6) = none → (s.at d.t).busyFor 0x0F00 a = false → s.names (fld a 0 2) = false →
    exec (.abort d) s = .next (s.rejected d stBAD_HANDLE 0)) ∧
  (∀ (s : State) (d : Desc) a, Judged s 0x0101 d a → firstBad a (rsv 2 6) = none → (s.at d.t).busyFor 0x0101 a = false → s.names (fld a 0 2) = false →
    exec (.graphRemove d) s = .next (s.rejected d stBAD_HANDLE 0)) ∧
  (∀ (s : State) (d : Desc) im ms a, Judged s 0x0102 d a → firstBad a (rsv 2 2 ++ (if (fld a 16 8 = 0) then rsv 24 4 else []) ++ rsv 28 4) = none → (s.at d.t).busyFor 0x0102 a = false →
    s.names (fld a 0 2) = false → exec (.graphTune d im ms) s = .next (s.rejected d stBAD_HANDLE 0)) ∧
  (∀ (s : State) (d : Desc) pins a, Judged s 0x0103 d a → firstBad a (rsv 3 5) = none → (s.at d.t).busyFor 0x0103 a = false → s.names (fld a 0 2) = false →
    exec (.graphPin d pins) s = .next (s.rejected d stBAD_HANDLE 0)) ∧
  (∀ (s : State) (d : Desc) a, Judged s 0x0104 d a → firstBad a (rsv 3 1 ++ rsv 6 2 ++ rsv 13 3) = none → (s.at d.t).busyFor 0x0104 a = false → s.names (fld a 0 2) = false →
    exec (.transplant d) s = .next (s.rejected d stBAD_HANDLE 0)) ∧
  (∀ (s : State) (d : Desc) a, Judged s 0x0501 d a → firstBad a (rsv 2 6) = none → (s.at d.t).busyFor 0x0501 a = false → s.names (fld a 0 2) = false →
    exec (.streamClose d) s = .next (s.rejected d stBAD_HANDLE 0)) ∧
  (∀ (s : State) (d : Desc) a, Judged s 0x0401 d a → byteAt a 0 = 1 → firstBad a (rsv 1 1 ++ rsv 4 12) = none → (s.at d.t).busyFor 0x0401 a = false → s.names (fld a 2 2) = false →
    exec (.calPolicy d) s = .next (s.rejected d stBAD_HANDLE 0))

/-- Handles (00 R7; 11 R303, R304). -/
def Obligations.HandlesAndSlots : Prop :=
  (∀ (s : State) d slot a, ((s.admitted d slot a).hnd slot).st = 1 ∧ ((s.admitted d slot a).hnd slot).gen = nextGen slot (s.hnd slot).gen ∧
    ((s.admitted d slot a).hnd slot).opcode = (s.atDesc d).opcode ∧ ((s.admitted d slot a).hnd slot).queue = (s.atDesc d).queue ∧
    ((s.admitted d slot a).hnd slot).tag = (s.atDesc d).tag ∧ ((s.admitted d slot a).hnd slot).flags = (s.atDesc d).flags ∧ ((s.admitted d slot a).hnd slot).args = a ∧
    ((s.admitted d slot a).cq (s.atDesc d).queue).owed = (s.cq (s.atDesc d).queue).owed + 1 ∧
    (s.admitted d slot a).chip.freeSlots = s.chip.freeSlots.tail ∧ (∀ k, k ≠ slot → (s.admitted d slot a).hnd k = s.hnd k)) ∧
  (∀ (s : State) slot, Tbl.wf {} s.chip.handles = true → ((s.release slot).hnd slot).st = 0 ∧ ((s.release slot).hnd slot).gen = (s.hnd slot).gen ∧
    (s.release slot).chip.freeSlots = s.chip.freeSlots ++ [slot] ∧ (∀ k, k ≠ slot → (s.release slot).hnd k = s.hnd k)) ∧
  (∀ (s : State), s.rebuildSlots.chip.freeSlots.Pairwise (· < ·) ∧ ∀ n, n ∈ s.rebuildSlots.chip.freeSlots ↔ n < 4096 ∧ (s.hnd n).st = 0) ∧
  (∀ slot g, slot < 4095 → nextGen slot g = (g + 1) % 16) ∧ (∀ g, nextGen 4095 g = if (g + 1) % 16 = 15 then 0 else (g + 1) % 16) ∧
  (∀ slot, nextGen slot (State.reset.hnd slot).gen = 1)

/-- 11 R296. The model posts every entry by this one operation. -/
def Obligations.CompletionEntryLayout : Prop :=
  (∀ (s : State) q tag handle kind status r0 r1 irq, s.time.localMode = false → q < 256 → tag < 2 ^ 32 → handle < 2 ^ 16 → kind < 256 → status < 256 → r0 < 2 ^ 64 → r1 < 2 ^ 64 →
    (s.cq q).sqHead < 4096 → ∃ b : Bytes, (s.post q tag handle kind status r0 r1 irq).out = s.out ++ [.mem ((s.cq q).cqBase + 32 * (s.cq q).cqTail) b] ∧ b.length = 32 ∧
      fld b 0 4 = tag ∧ fld b 4 2 = handle ∧ byteAt b 6 = kind ∧ byteAt b 7 = status ∧ fld b 8 8 = r0 ∧ fld b 16 8 = r1 ∧ fld b 24 4 = s.now % 2 ^ 32 ∧ byteAt b 28 = q ∧
      byteAt b 29 = 0 ∧ fld b 30 2 = (s.cq q).sqHead + 0x8000 * b2n (s.cq q).phase) ∧
  (∀ (s : State) d st r0, s.reject d st r0 = (s.bump (uCq d.queue) 1).post d.queue d.tag 0xFFFF 4 st r0 0 true) ∧
  (∀ (s : State) d a slot, ∃ u : State, s.accept d a slot = u.post d.queue d.tag (nextGen slot (s.hnd slot).gen * 4096 + slot) 1 stACCEPTED 0 0 (bit d.flags 1)) ∧
  (∀ (s : State) slot obj st r0 r1, (s.hnd slot).discard = false →
    (s.final1 slot obj st r0 r1).out = (s.post (s.hnd slot).queue (s.hnd slot).tag ((s.hnd slot).value slot) 2 st (r0 % 2 ^ 64) (r1 % 2 ^ 64) (bit (s.hnd slot).flags 1)).out) ∧
  (∀ (s : State) slot r1, s.time.localMode = false → (s.progress slot r1).out = s.out ∨ ∃ f : Nat, (s.progress slot r1).out =
    (s.post (s.hnd slot).queue (s.hnd slot).tag ((s.hnd slot).value slot) 3 stACCEPTED f r1 (bit (s.hnd slot).flags 1)).out)

/-- 11 R302. Slot 0 of a queue's unit is COMMANDS, slot 1 REJECTED (10 R287). -/
def Obligations.QueueCountersCount : Prop :=
  (∀ (s : State) d slot a, (s.atDesc d).queue < 16 → Tbl.wf {} s.chip.counters = true →
    ((s.admitted d slot a).ctr (uCq (s.atDesc d).queue) 0).val = ((s.ctr (uCq (s.atDesc d).queue) 0).val + 1) % 2 ^ 48 ∧
    (s.admitted d slot a).ctr (uCq (s.atDesc d).queue) 1 = s.ctr (uCq (s.atDesc d).queue) 1 ∧
    ∀ q, q < 16 → q ≠ (s.atDesc d).queue → (s.admitted d slot a).ctr (uCq q) 0 = s.ctr (uCq q) 0 ∧ (s.admitted d slot a).ctr (uCq q) 1 = s.ctr (uCq q) 1) ∧
  (∀ (s : State) d st r0, (s.atDesc d).queue < 16 → Tbl.wf {} s.chip.counters = true →
    ((s.rejected d st r0).ctr (uCq (s.atDesc d).queue) 1).val = min ((s.ctr (uCq (s.atDesc d).queue) 1).val + 1) 65535 ∧
    (s.rejected d st r0).ctr (uCq (s.atDesc d).queue) 0 = s.ctr (uCq (s.atDesc d).queue) 0 ∧
    ∀ q, q < 16 → q ≠ (s.atDesc d).queue → (s.rejected d st r0).ctr (uCq q) 0 = s.ctr (uCq q) 0 ∧ (s.rejected d st r0).ctr (uCq q) 1 = s.ctr (uCq q) 1) ∧
  (∀ (s : State) slot st r0 r1 q k, (s.final slot st r0 r1).ctr (uCq q) k = s.ctr (uCq q) k)

/-- Counters (10 R286). -/
def Obligations.CountersWrapAndSaturate : Prop :=
  (∀ (s : State) u k n, Tbl.wf {} s.chip.counters = true → isErrCtr u k = false →
    ((s.ctr u k).val + n < 2 ^ 48 → (s.bumpN u k n).ctr u k = { s.ctr u k with val := (s.ctr u k).val + n } ∧ (s.bumpN u k n).chip.log = s.chip.log ∧
      ∀ j m, 16 * j + m ≠ 16 * u + k → (s.bumpN u k n).ctr j m = s.ctr j m) ∧
    (2 ^ 48 ≤ (s.ctr u k).val + n → s.bumpN u k n = (s.setCtr u k { val := ((s.ctr u k).val + n) % 2 ^ 48, flag := true }).log 0x107 4 u k 0)) ∧
  (∀ (s : State) u k n, Tbl.wf {} s.chip.counters = true → isErrCtr u k = true → (s.bumpN u k n).chip.log = s.chip.log ∧
    ((s.bumpN u k n).ctr u k).val = min ((s.ctr u k).val + n) 65535 ∧ ((s.ctr u k).flag = true → ((s.bumpN u k n).ctr u k).flag = true) ∧
    (0 < n → 65535 ≤ (s.ctr u k).val + n → ((s.bumpN u k n).ctr u k).flag = true) ∧
    ∀ j m, 16 * j + m ≠ 16 * u + k → (s.bumpN u k n).ctr j m = s.ctr j m) ∧
  (∀ (c : Ctr) n, c.val < 2 ^ 48 → n < 2 ^ 48 → ((c.add false n).val + 2 ^ 48 - c.val) % 2 ^ 48 = n)

/-- The event log (17 R464, R467). -/
def Obligations.LogKeepsTheNewest : Prop :=
  (∀ (s : State) e, s.chip.log.length < 8192 → ∃ e' : LogEntry, (s.logPush e).chip.log = s.chip.log ++ [e'] ∧ e' = { e with afterLoss := s.chip.afterLoss }) ∧
  (∀ (s : State) e, s.chip.log.length = 8192 → s.chip.drained = 0 → Tbl.wf {} s.chip.counters = true →
    (s.logPush e).chip.log = s.chip.log.tail ++ [{ e with afterLoss := true }] ∧ ((s.logPush e).ctr 0 5).val = min ((s.ctr 0 5).val + 1) 65535) ∧
  (∀ (s : State) e, s.chip.log.length = 8192 → 0 < s.chip.drained → (s.logPush e).chip.drained = s.chip.drained - 1 ∧
    (s.logPush e).chip.log = s.chip.log.tail ++ [{ e with afterLoss := s.chip.afterLoss }] ∧ (s.logPush e).chip.counters = s.chip.counters) ∧
  (∀ (s : State) code level idx a0 a1, s.chip.failed = true → s.log code level idx a0 a1 = s) ∧
  (∀ (s : State) code level idx a0 a1, s.chip.failed = false → s.chip.restarting = true → s.chip.heldLog.length < 256 → ∃ e : LogEntry,
    e.code = code ∧ e.level = level ∧ e.idx = idx ∧ e.ts = s.now ∧ s.log code level idx a0 a1 = { s with chip := { s.chip with heldLog := s.chip.heldLog ++ [e] } })

/-- 11 R317. MGMT_EVENTS is slot 3 of unit 0 (10 R287). -/
def Obligations.ManagementEventsHeld : Prop :=
  (∀ (s : State) e, s.host.me.enable = true → s.host.me.full = true → s.host.me.held.length < 64 →
    s.meRaise e = { s with host := { s.host with me := { s.host.me with held := s.host.me.held ++ [e] } } }) ∧
  (∀ (s : State) e, s.host.me.enable = true → s.host.me.held.length = 64 → s.meRaise e = { s with host := { s.host with me := { s.host.me with overflow := true } } }) ∧
  (∀ (s : State) e, s.time.localMode = false → ∃ b : Bytes, (s.meWrite e).out = s.out ++ [.mem (s.host.me.base + 32 * s.host.me.tail) b] ∧
    bit (byteAt b 11) 0 = s.host.me.overflow ∧ (s.meWrite e).host.me.overflow = false) ∧
  (∀ (s : State) e, e.raised = true → Tbl.wf {} s.chip.counters = true → (∃ e' : LogEntry, (s.logWrite e).1.chip.log.getLast? = some e' ∧
    e'.ts = e.ts ∧ e'.code = e.code ∧ e'.level = e.level ∧ e'.idx = e.idx ∧ e'.a0 = e.a0 ∧ e'.a1 = e.a1) ∧
    ((s.logWrite e).1.ctr 0 3).val = ((s.ctr 0 3).val + 1) % 2 ^ 48)

/-- The scratchpad after a memory command, byte by byte (09 R259, R263). -/
def Obligations.MemCopyWritesItsBytesOnly : Prop :=
  (∀ (s : State) (d : Desc) data granted slot a len sp, Admits s 0x0A00 d slot a → sp = fld a 8 4 → len = fld a 12 4 → fld a 0 8 % 4 = 0 → sp % 4 = 0 → len % 4 = 0 →
    s.time.localMode = false → len ≠ 0 → sp + len ≤ 2097152 → len ≤ 4 * granted → Tbl.wf 0 s.fab.spad = true → data.length = len →
    (∀ e ∈ s.inFlight, ∀ x y z, e.2.work ≠ .mem x y z) →
    (∀ b, sp / 32768 ≤ b → 32768 * b < sp + len → (s.block b).quarantined = false ∧ (s.block b).stopped = false) →
    ∃ u : State, exec (.memCopyIn d data granted) s = .next u ∧ (∀ i < len, u.spRead (sp + i) 1 = (data.drop i).take 1) ∧
      (∀ x, x < sp ∨ sp + len ≤ x → u.spRead x 1 = s.spRead x 1)) ∧
  (∀ (s : State) (d : Desc) slot a at_, Admits s 0x0A02 d slot a → firstBad a (rsv 1 3 ++ rsv 12 4) = none → at_ = fld a 4 4 → byteAt a 0 ≤ 1 → at_ % 4 = 0 → at_ + 4 ≤ 2097152 →
    (∀ e ∈ s.inFlight, ∀ x y z, e.2.work ≠ .mem x y z) → s.time.localMode = false → (s.block (at_ / 32768)).quarantined = false → (s.block (at_ / 32768)).stopped = false →
    ∃ u : State, exec (.memAtomic d true 0) s = .next u ∧ (∀ x, x < at_ ∨ at_ + 4 ≤ x → u.spRead x 1 = s.spRead x 1))

/-- 12 R334. -/
def Obligations.NopCompletesAndChangesNothing : Prop :=
  (∀ (s : State) (d : Desc) a o, Judged s 0x0001 d a → firstBad a (rsv 4 4) = some o → exec (.nop d) s = .next (s.rejected d stBAD_ARG o)) ∧
  (∀ (s : State) (d : Desc) slot a, Admits s 0x0001 d slot a → firstBad a (rsv 4 4) = none →
    (1000000 < fld a 0 4 → exec (.nop d) s = .next ((s.admitted d slot a).final slot stRANGE 0 0)) ∧
    (fld a 0 4 ≤ 1000000 → exec (.nop d) s = .next ((s.admitted d slot a).setWork slot (.delay ((s.at d.t).now + 250 * fld a 0 4))))) ∧
  (∀ (s : State) t slot due, (s.hnd slot).work = .delay due →
    ((s.at t).now < due → exec (.nopDelayPassed t slot) s = .next (s.at t)) ∧
    (due ≤ (s.at t).now → exec (.nopDelayPassed t slot) s = .next ((s.at t).final slot stOK (s.at t).now 0))) ∧
  (∀ (s : State) u (d : Desc) t slot, (exec (.nop d) s = .next u ∨ exec (.nopDelayPassed t slot) s = .next u) → u.clk = s.clk ∧ u.sheaf = s.sheaf ∧ u.til = s.til ∧ u.convs = s.convs ∧
    u.dacs = s.dacs ∧ u.cal = s.cal ∧ u.keep = s.keep ∧ u.husk = s.husk ∧ u.pin = s.pin ∧ u.mon = s.mon)

/-- 18 R487. `diffInOk` is what R427 allows of a pair at a declared voltage. -/
def Obligations.PinDiffWrites : Prop :=
  (∀ (s : State) t k (v : Word) i, k < 4 → (s.at t).hostUp = true → i < 8 → (2 < bits v.toNat (4 * i) 2 ∨ diffInOk (bits v.toNat (4 * i) 2) (s.bank k).vccio = false) →
    exec (.pinDiff t k v) s = .next (s.at t)) ∧
  (∀ (s : State) t k (v : Word), k < 4 → (s.at t).hostUp = true → Tbl.wf 0 s.pin.diff = true →
    (∀ i < 8, bits v.toNat (4 * i) 2 ≤ 2 ∧ diffInOk (bits v.toNat (4 * i) 2) (s.bank k).vccio = true) →
    ∃ u : State, exec (.pinDiff t k v) s = .next u ∧ (∀ i < 8, bits (Tbl.get 0 k u.pin.diff) (4 * i) 3 = bits v.toNat (4 * i) 3) ∧
      (∀ j, j ≠ k → Tbl.get 0 j u.pin.diff = Tbl.get 0 j s.pin.diff) ∧
      u.pin.switches = s.pin.switches ++ ((List.range 8).filter fun i => decide (bits v.toNat (4 * i) 3 ≠ bits (Tbl.get 0 k s.pin.diff) (4 * i) 3) &&
        (s.pinS (16 * k + 2 * i)).own.isSome).map (fun i => { slot := none, pin := 16 * k + 2 * i, map := none }) ∧ u.pin.pins = s.pin.pins ∧ u.pin.banks = s.pin.banks)

/-- 18 R493. -/
def Obligations.LocalRingArea : Prop :=
  (∀ (s : State) t (v : Word), s.anyRing = true → exec (.registerWrite t 0x3004 v 4) s = .next (s.at t)) ∧
  (∀ (s : State) a n b (d : Desc), s.time.localMode = false → s.bufOk a n = true ∧ s.fetched d = d ∧ s.hostRead a n b = slice b 0 n ∧
    s.hostWrite a b = if b.isEmpty then s else s.emit (.mem a b)) ∧
  (∀ (s : State), s.hostIrq = true ↔ ∃ v ∈ s.host.pendVec, bit (s.msix v).ctrl 0 = false) ∧
  (∀ (s : State) t n (v : Word), (s.at t).spiUp = true → n < 64 → Tbl.wf {} s.host.msix = true → ∃ u : State, exec (.spiWriteSetupRegister t (0x8000 + 16 * n + 12) v) s = .next u ∧
    bit (u.msix n).ctrl 0 = bit v.toNat 0 ∧ (u.msix n).addr = (s.msix n).addr ∧ (u.msix n).data = (s.msix n).data ∧ ∀ k, k ≠ n → u.msix k = s.msix k)

/-- 13 R376. -/
def Obligations.AbsentKeysFailTheFirstEpoch : Prop :=
  (∀ (s : State) t w stored l, s.load w = some l → l.stage = 3 → l.encrypted = true → l.epoch = 0 → 0 < l.epochs →
    ((l.hdr.keySource = 1 ∧ (Tbl.get none l.hdr.keySlot s.husk.keyRam = none ∨ bit s.husk.keyValid l.hdr.keySlot = false)) ∨ (l.hdr.keySource ≠ 1 ∧ s.husk.fuses.keyKill ≠ 0)) →
    exec (.personaEpoch t w stored) s = .next (((s.at t).logLoad w l 0x70B 0).failLoad w 3) ∧
    ∃ u : State, exec (.personaEpoch t w stored) s = .next u ∧ u.fab.frames = s.fab.frames) ∧
  (∀ s t w stored l k, s.load w = some l → l.stage = 3 → l.encrypted = true → l.epoch = 0 → 0 < l.epochs → l.epochGiven = true → s.bodyKey l = some k →
    gcmOpen (l.nextKey k 0) (l.iv 0) (l.aad 0) stored = none → exec (.personaEpoch t w stored) s = .next (((s.at t).logLoad w l 0x704 0).failLoad w 3))

/-- NOP (12 R334), QUERY (12 R335, R336), LOG_DRAIN (12 R350), STOLON_POLICY (12 R351) and ABORT (12 R357; 11 R306): where an
admitted command completes, and the state that it answers. -/
def Obligations.GenericCommandsComplete : Prop :=
  (∀ s d slot a, Admits s 0x0001 d slot a → firstBad a (rsv 4 4) = none → fld a 0 4 ≤ 1000000 →
    exec (.nop d) s = .next ((s.admitted d slot a).setWork slot (.delay ((s.admitted d slot a).now + 250 * fld a 0 4)))) ∧
  (∀ s t slot due, (s.hnd slot).work = .delay due → due ≤ (s.at t).now →
    exec (.nopDelayPassed t slot) s = .next ((s.at t).final slot stOK (s.at t).now 0)) ∧
  (∀ s d slot a b r0 r1, Admits s 0x0002 d slot a → firstBad a (rsv 1 1) = none → byteAt a 0 ≠ 1 →
    (byteAt a 0 = 2 → fld a 2 2 < 192) →
    (s.admitted d slot a).queryReply (byteAt a 0) (fld a 2 2) = some (b, r0, r1) → fld a 8 8 % 8 = 0 → b.length ≤ fld a 4 4 →
    (s.admitted d slot a).bufOk (fld a 8 8) (fld a 4 4) = true →
    exec (.query d) s = .next (((s.admitted d slot a).hostWrite (fld a 8 8) b).final slot stOK r0 r1)) ∧
  (∀ s d slot a, Admits s 0x0002 d slot a → firstBad a (rsv 1 1) = none → byteAt a 0 = 1 → fld a 4 4 = 0 → fld a 8 8 = 0 →
    (s.consumed d).names (fld a 2 2) = true → ((s.admitted d slot a).hnd (fld a 2 2 % 4096)).st = 1 →
    ∃ done, exec (.query d) s = .next ((s.admitted d slot a).fresh.2.final slot stOK
      (((s.admitted d slot a).hnd (fld a 2 2 % 4096)).opcode * 2 ^ 16 + ((s.admitted d slot a).hnd (fld a 2 2 % 4096)).queue * 2 ^ 32) done)) ∧
  (∀ s d slot a n g e, Admits s 0x0002 d slot a → firstBad a (rsv 1 1) = none → byteAt a 0 = 1 → fld a 8 8 ≠ 0 → fld a 8 8 % 8 = 0 → n = fld a 2 2 % 4096 →
    (s.consumed d).names (fld a 2 2) = true → ((s.admitted d slot a).hnd n).st = 2 → ((s.admitted d slot a).hnd n).kind = 1 →
    ((s.admitted d slot a).hnd n).opcode = 0x0100 → ((s.admitted d slot a).hnd n).queue < 16 → (s.admitted d slot a).graph n = some g →
    e = { (s.admitted d slot a).evaluate g with outcome := outcomeOf ((s.admitted d slot a).evaluate g), temp := (s.admitted d slot a).graphTemp g } →
    (reportBytes e (((s.admitted d slot a).hnd n).value n) false).length ≤ fld a 4 4 → (s.admitted d slot a).bufOk (fld a 8 8) (fld a 4 4) = true →
    exec (.query d) s = .next (((s.admitted d slot a).hostWrite (fld a 8 8) (reportBytes e (((s.admitted d slot a).hnd n).value n) false)).final slot stOK
      (1 + 0x0100 * 2 ^ 16 + ((s.admitted d slot a).hnd n).queue * 2 ^ 32 + 2 ^ 40) (outcomeOf ((s.admitted d slot a).evaluate g)))) ∧
  (∀ s d slot a l, Admits s 0x0701 d slot a → firstBad a ((0, 0xFE) :: rsv 1 3) = none → 1 ≤ fld a 4 4 → fld a 4 4 ≤ 8192 → fld a 8 8 % 8 = 0 →
    (s.admitted d slot a).bufOk (fld a 8 8) (32 * fld a 4 4) = true → bit (byteAt a 0) 0 = false →
    l = ((s.admitted d slot a).chip.log.drop (s.admitted d slot a).chip.drained).take (fld a 4 4) →
    ∃ u : State, u = (s.admitted d slot a).hostWrite (fld a 8 8) (l.flatMap LogEntry.bytes) ∧
      exec (.logDrain d) s = .next (({ u with chip := { u.chip with drained := u.chip.drained + l.length, lostUndrained := 0 } } : State).final slot
        stOK l.length u.chip.lostUndrained)) ∧
  (∀ s d slot a, Admits s 0x0701 d slot a → firstBad a ((0, 0xFE) :: rsv 1 3) = none → 1 ≤ fld a 4 4 → fld a 4 4 ≤ 8192 → fld a 8 8 % 8 = 0 →
    (s.admitted d slot a).bufOk (fld a 8 8) (32 * fld a 4 4) = true → bit (byteAt a 0) 0 = true →
    exec (.logDrain d) s = .next (((s.admitted d slot a).hostWrite (fld a 8 8) (s.keep.checkpoint.take (fld a 4 4)).flatten).final slot stOK
      (s.keep.checkpoint.take (fld a 4 4)).length 0)) ∧
  (∀ s d slot a, Admits s 0x0702 d slot a → firstBad a ((0, 0xFC) :: rsv 10 6) = none → 2 ≤ byteAt a 1 → byteAt a 1 ≤ 40 → fld a 2 2 ≤ 256 →
    60 ≤ fld a 4 4 → fld a 4 4 ≤ 86400 → 4 ≤ fld a 8 2 → fld a 8 2 ≤ 256 →
    ∃ u : State, u = { s.admitted d slot a with til := { s.til with policy := readPolicy a, sparesCold := s.til.sparesCold && !bit (byteAt a 0) 0 } } ∧
      exec (.stolonPolicy d) s = .next (u.resizePool.final slot stOK u.resizePool.poolWarm u.resizePool.poolMissing)) ∧
  (∀ s d slot a n, Admits s 0x0F00 d slot a → firstBad a (rsv 2 6) = none → n = fld a 0 2 % 4096 → (s.consumed d).names (fld a 0 2) = true →
    ((s.consumed d).hnd n).st = 1 → n ≠ slot →
    (∀ due, ((s.consumed d).hnd n).work = .delay due → ((s.consumed d).hnd n).opcode = 0x0001 →
      exec (.abort d) s = .next (((((s.admitted d slot a).setWork slot (.abort n)).final n stABORTED (s.at d.t).now 0).memNext.cellsFreed).resume)) ∧
    (((s.consumed d).hnd n).opcode ≠ 0x0F00 →
      exec (.abort d) s = .next ((((s.admitted d slot a).setWork slot (.abort n)).stopCmd n stABORTED).1.memNext.cellsFreed.resume)) ∧
    (((s.consumed d).hnd n).opcode = 0x0F00 → exec (.abort d) s = .next ((s.admitted d slot a).setWork slot (.abort n))))

/-- The phases of a placement (03 R55, R69-R72, R79, R80, R87; 12 R337): where each completes, and the state that it answers. -/
def Obligations.PlacementPhasesComplete : Prop :=
  (∀ s d image slot a, Admits s 0x0100 d slot a → firstBad a (rsv 12 4 ++ rsv 28 4) = none → s.til.queue = [] → slot < 4096 →
    fld a 0 8 % 8 = 0 → fld a 16 8 % 8 = 0 → a.length = 32 → (s.admitted d slot a).bufOk (fld a 0 8) (fld a 8 4) = true →
    (s.admitted d slot a).bufOk (fld a 16 8) (fld a 24 4) = true →
    (∀ g, parseGraph ((s.admitted d slot a).hostRead (fld a 0 8) (min (fld a 8 4) 32768) image) (fld a 8 4) (fld a 24 4) = .ok g →
      ∃ t, exec (.graphPlace d image) s = .next t ∧ t.graph slot = some { g with reportAddr := fld a 16 8, start := (s.at d.t).now } ∧
        t.til.queue = [slot] ∧ (∀ k, k ≠ slot → t.graph k = s.graph k) ∧ t.til.cells = s.til.cells ∧ t.til.ledger = s.til.ledger) ∧
    (∀ st, parseGraph ((s.admitted d slot a).hostRead (fld a 0 8) (min (fld a 8 4) 32768) image) (fld a 8 4) (fld a 24 4) = .error st →
      Tbl.wf none s.til.graphs = true → ∃ t, exec (.graphPlace d image) s = .next t ∧ t.graph slot = none ∧ t.til.queue = [] ∧ t.til.cells = s.til.cells ∧ t.til.ledger = s.til.ledger)) ∧
  (∀ s t slot g, (s.at t).graph slot = some g → s.til.queue = [slot] → g.phase = 2 → s.chip.restarting = false → s.chip.failed = false →
    (∀ r < 8, (s.region r).test = none) →
    (∀ x, (s.at t).portsTaken slot g = false → (s.at t).best {} g = some x → ∃ u, exec (.partition t slot) s = .next u ∧
      u.graph slot = some { g with phase := 4, regions := x.prims.map (fun p => cellRegion p.c0), globals := x.globalTracks } ∧
      u.til.queue = [] ∧ u.til.cells = s.til.cells) ∧
    ((s.at t).portsTaken slot g = true ∨ (s.at t).best {} g = none → g.reportOnly = false →
      ∃ u, exec (.partition t slot) s = .next u ∧ u.graph slot = some { g.bare with phase := 6, noRoom := true } ∧ u.til.queue = [] ∧
        u.til.cells = s.til.cells) ∧
    (∀ u : State, (s.at t).portsTaken slot g = true ∨ (s.at t).best {} g = none → g.reportOnly = true → u = { s.at t with til := { s.til with queue := [] } } →
      exec (.partition t slot) s = .next (u.finishPlace slot { g.bare with phase := 6, noRoom := true } 3).parseNext)) ∧
  (∀ s t slot g, (s.at t).graph slot = some g → g.phase = 4 →
    (∀ x, (s.at t).ctrlState g.regions = 0 → (s.at t).placeIn g 1 [] = some x →
      (g.reportOnly = true → exec (.cellSelection t slot) s = .next ((s.at t).finishPlace slot x (outcomeOf x))) ∧
      (g.reportOnly = false → (s.at t).ctrlState (x.prims.map fun p => cellRegion p.c0) = 0 → exec (.cellSelection t slot) s =
        .next (((g.globals.foldl (fun s e => s.freeSeg e.2) (s.at t)).claim slot { x with phase := 5 }).progress slot 5))) ∧
    ((s.at t).ctrlState g.regions = 0 → (s.at t).placeIn g 1 [] = none → g.reportOnly = false →
      exec (.cellSelection t slot) s = .next (((g.globals.foldl (fun s e => s.freeSeg e.2) (s.at t)).setGraph slot
        (some { ({ g with globals := [] } : Graph).bare with phase := 6, noRoom := true })).progress slot 6)) ∧
    ((s.at t).ctrlState g.regions = 1 → exec (.cellSelection t slot) s = .next (s.at t)) ∧
    ((s.at t).ctrlState g.regions = 2 → exec (.cellSelection t slot) s = .next ((s.at t).stopPlace slot stFAULT 0 0))) ∧
  (∀ s t slot m ms g x bare best kept, (s.at t).graph slot = some g → g.phase = 5 → (s.at t).ctrlState g.regions = 0 → x = (s.at t).measured g m →
    (shortLt (worst g) (worst x) = false → ∃ u, exec (.buildAndMeasure t slot (m :: ms)) s = .next u ∧
      u.graph slot = some { x with phase := 6, temp := (s.at t).graphTemp x } ∧ u.convs = s.convs ∧ u.dacs = s.dacs) ∧
    (shortLt (worst g) (worst x) = true → bare = ((s.at t).unclaim g).setGraph slot (some g.bare) →
      best = bare.further g.bare (ms.take 2) 2 [g.cells] x → kept = { best with phase := 6, temp := (s.at t).graphTemp best } →
      (best.cells = x.cells → ∃ u, exec (.buildAndMeasure t slot (m :: ms)) s = .next u ∧ u.graph slot = some kept) ∧
      (best.cells ≠ x.cells → exec (.buildAndMeasure t slot (m :: ms)) s =
        .next ((kept.cells.foldl (fun s n => s.builtCell n) (bare.claim slot kept)).progress slot 6)))) ∧
  (∀ s t slot g, (s.at t).graph slot = some g → g.phase = 6 → s.chip.restarting = false → s.chip.failed = false →
    exec (.evaluate t slot) s = .next ((s.at t).finishPlace slot g (if g.noRoom then 3 else outcomeOf g)))

/-- The commands on a placed graph (03 R82-R88; 04 R96-R98; 12 R338, R339) and LEDGER_READ (03 R95; 12 R340). -/
def Obligations.GraphCommandsComplete : Prop :=
  (∀ s d slot a g, Admits s 0x0101 d slot a → firstBad a (rsv 2 6) = none → (s.consumed d).namesObj (fld a 0 2) 1 = true →
    (s.admitted d slot a).graph (fld a 0 2 % 4096) = some g →
    (∀ r ∈ g.homes, ((s.admitted d slot a).region r).failed = false ∧ ((s.admitted d slot a).region r).ready = true) →
    exec (.graphRemove d) s = .next ((((s.admitted d slot a).removeGraph (fld a 0 2 % 4096)).final slot stOK 0 0).cellsFreed)) ∧
  (∀ s d image ms slot a gs g ps ss degrade allow touched new, Admits s 0x0102 d slot a →
    firstBad a (rsv 2 2 ++ (if fld a 16 8 = 0 then rsv 24 4 else []) ++ rsv 28 4) = none → (s.consumed d).namesObj (fld a 0 2) 1 = true →
    gs = fld a 0 2 % 4096 → (s.admitted d slot a).graph gs = some g → fld a 8 8 % 8 = 0 → fld a 16 8 % 8 = 0 →
    (s.admitted d slot a).bufOk (fld a 8 8) (fld a 4 4) = true → (s.admitted d slot a).graphBusy gs slot = false →
    parseTune ((s.admitted d slot a).hostRead (fld a 8 8) (min (fld a 4 4) 32768) image) (fld a 4 4) g = .ok (ps, ss, degrade, allow) →
    (∀ r ∈ g.homes, ((s.admitted d slot a).region r).failed = false ∧ ((s.admitted d slot a).region r).ready = true) →
    (fld a 16 8 ≠ 0 → (s.admitted d slot a).bufOk (fld a 16 8) (fld a 24 4) = true ∧ reportLen g.prims.length g.specs.length g.nets.length ≤ fld a 24 4 ∧
      reportLen (tuned g ps ss degrade).prims.length (tuned g ps ss degrade).specs.length (tuned g ps ss degrade).nets.length ≤ fld a 24 4) →
    touched = (ps.map (·.1) ++ ss.map fun r => r.prim).eraseDups →
    new = (tuned g ps ss degrade).measure ((s.admitted d slot a).primTemp (tuned g ps ss degrade)) ms (fun r => touched.contains r.prim) →
    ((s.admitted d slot a).tunePlan gs new touched allow = none →
      exec (.graphTune d image ms) s = .next ((s.admitted d slot a).final slot stNO_RESOURCE 3 (graphPowerUW g))) ∧
    (∀ x ds, (s.admitted d slot a).tunePlan gs new touched allow = some (x, ds) →
      (2 ≤ outcomeOf x → exec (.graphTune d image ms) s =
        .next ((s.admitted d slot a).final slot (outcomeStatus (outcomeOf x)) (outcomeOf x) (graphPowerUW g))) ∧
      (outcomeOf x < 2 → ∃ u : State, u = (List.range g.prims.length).foldl (fun s i => s.stageFunction gs g x (ds.map PlaceP.prim) i)
          (((s.admitted d slot a).setGraph gs (some { g with degrade := degrade, specs := x.specs, former := some (g.prims, g.specs, g.degrade, g.outcome) })).setWork
            slot (.tune gs false (.graphTune d image ms))) ∧
        (ds = [] → exec (.graphTune d image ms) s = .next (((u.setMoves u.til.moves).stageTune gs).endTunes)) ∧
        (ds ≠ [] → exec (.graphTune d image ms) s = .next (((u.setMoves (u.til.moves ++ ds.map fun e =>
          { graph := gs, prim := e.prim, why := .tune, fix := some e, len := s.til.policy.len, handle := some slot })).pumpMoves).endTunes))))) ∧
  (∀ s d pins slot a gs g recs broken, Admits s 0x0103 d slot a → firstBad a (rsv 3 5) = none → (s.consumed d).namesObj (fld a 0 2) 1 = true →
    gs = fld a 0 2 % 4096 → (s.admitted d slot a).graph gs = some g → 1 ≤ byteAt a 2 → byteAt a 2 ≤ 64 → fld a 8 8 % 8 = 0 →
    (s.admitted d slot a).bufOk (fld a 8 8) (8 * byteAt a 2) = true → (s.admitted d slot a).graphBusy gs slot = false →
    ((List.range (byteAt a 2)).all fun i => pinShape ((s.admitted d slot a).hostRead (fld a 8 8) (8 * byteAt a 2) pins) (8 * i) g.prims.length true) = true →
    recs = (List.range (byteAt a 2)).map (fun i => readPin ((s.admitted d slot a).hostRead (fld a 8 8) (8 * byteAt a 2) pins) (8 * i)) →
    nodupB (recs.map (·.1)) = true → broken = (recs.map (·.1)).filter (fun i => breaksPin ((repin g recs).prim i)) →
    (∀ r ∈ g.homes, ((s.admitted d slot a).region r).failed = false ∧ ((s.admitted d slot a).region r).ready = true) →
    ((s.admitted d slot a).pinsCan gs (repin g recs) broken = true →
      exec (.graphPin d pins) s = .next ((((((s.admitted d slot a).setGraph gs (some { repin g recs with
          former := some (g.prims, g.specs, g.degrade, g.outcome) })).setWork slot (.pin gs false broken.length (.graphPin d pins))).setMoves
        (s.til.moves ++ broken.map fun i => { graph := gs, prim := i, why := .pin, len := s.til.policy.len, handle := some slot })).pumpMoves).endPins)) ∧
    ((s.admitted d slot a).pinsCan gs (repin g recs) broken = false →
      exec (.graphPin d pins) s = .next ((s.admitted d slot a).final slot stNO_RESOURCE 0 0))) ∧
  (∀ s d slot a gs g, Admits s 0x0104 d slot a → firstBad a (rsv 3 1 ++ rsv 6 2 ++ rsv 13 3) = none → (s.consumed d).namesObj (fld a 0 2) 1 = true →
    gs = fld a 0 2 % 4096 → (s.admitted d slot a).graph gs = some g → byteAt a 2 < g.prims.length → (fld a 4 2 = 0 ∨ (4 ≤ fld a 4 2 ∧ fld a 4 2 ≤ 256)) →
    (readPin a 8).1 = byteAt a 2 → pinShape (a.set 12 0) 8 g.prims.length true = true → (s.admitted d slot a).earlierOn [0x0102, 0x0103] gs slot = false →
    (1024 ≤ (g.prim (byteAt a 2)).c0 → exec (.transplant d) s = .next ((s.admitted d slot a).final slot stNO_RESOURCE 0 0)) ∧
    ((g.prim (byteAt a 2)).c0 < 1024 → ((s.admitted d slot a).region (cellRegion (g.prim (byteAt a 2)).c0)).failed = false →
      ((s.admitted d slot a).region (cellRegion (g.prim (byteAt a 2)).c0)).ready = true →
      exec (.transplant d) s = .next (((s.admitted d slot a).setWork slot (.move gs (byteAt a 2))).planMove
        { graph := gs, prim := byteAt a 2, why := .host, pin := if (readPin a 8).2.scope = 255 then none else some (readPin a 8).2,
          len := if fld a 4 2 = 0 then s.til.policy.len else fld a 4 2, handle := some slot }))) ∧
  (∀ s d slot a gs g cmd, Admits s 0x0102 d slot a → firstBad a (rsv 2 2 ++ (if fld a 16 8 = 0 then rsv 24 4 else []) ++ rsv 28 4) = none →
    (s.consumed d).namesObj (fld a 0 2) 1 = true → gs = fld a 0 2 % 4096 → (s.admitted d slot a).graph gs = some g → fld a 8 8 % 8 = 0 → fld a 16 8 % 8 = 0 →
    (fld a 16 8 ≠ 0 → (s.admitted d slot a).bufOk (fld a 16 8) (fld a 24 4) = true ∧ reportLen g.prims.length g.specs.length g.nets.length ≤ fld a 24 4) →
    (s.admitted d slot a).bufOk (fld a 8 8) (fld a 4 4) = true → (s.admitted d slot a).graphBusy gs slot = true → ∀ image ms, cmd = Instr.graphTune d image ms →
    exec (.graphTune d image ms) s = .next ((s.admitted d slot a).setWork slot (.tune gs true cmd))) ∧
  (∀ s d slot a, Admits s 0x0105 d slot a → 1 ≤ fld a 4 4 → fld a 0 4 + fld a 4 4 ≤ 131072 → fld a 8 8 % 8 = 0 →
    (s.admitted d slot a).bufOk (fld a 8 8) (8 * fld a 4 4) = true →
    exec (.ledgerRead d) s = .next (((s.admitted d slot a).hostWrite (fld a 8 8)
      ((List.range (fld a 4 4)).flatMap fun i => toLE 8 ((s.admitted d slot a).ledWord (fld a 0 4 + i)))).final slot stOK (fld a 4 4) 0))

/-- The conversion commands (05 R139-R146, R152-R154; 06 R168, R169, R174; 12 R341-R343): where each completes. -/
def Obligations.ConversionCommandsComplete : Prop :=
  (∀ s d slot a, Admits s 0x0200 d slot a → cfgBad a = none → byteAt a 0 < 192 → (s.admitted d slot a).cfgStatus (readCfg a) = stOK →
    ((s.admitted d slot a).region (convRegion (byteAt a 0))).failed = false → ((s.admitted d slot a).region (convRegion (byteAt a 0))).ready = true →
    exec (.convConfig d) s = .next ((s.admitted d slot a).queueConv (byteAt a 0) slot (some (readCfg a)) [])) ∧
  (∀ s d steps slot a l, Admits s 0x0201 d slot a → firstBad a (rsv 2 6) = none → byteAt a 0 < 192 →
    stepsBad (byteAt a 0) ((s.at d.t).seqBytes a steps) (min (byteAt a 1) 64) = none → fld a 8 8 % 8 = 0 →
    (s.admitted d slot a).bufOk (fld a 8 8) (8 * byteAt a 1) = true →
    l = (List.range (min (byteAt a 1) 64)).map (fun i => readStep (byteAt a 0) ((s.admitted d slot a).seqBytes a steps) (8 * i)) →
    (s.admitted d slot a).seqStatus (byteAt a 0) (byteAt a 1) l = stOK →
    ((s.admitted d slot a).region (convRegion (byteAt a 0))).failed = false → ((s.admitted d slot a).region (convRegion (byteAt a 0))).ready = true →
    exec (.seqLoad d steps) s = .next ((s.admitted d slot a).queueConv (byteAt a 0) slot none l)) ∧
  (∀ s d slot a, Admits s 0x0202 d slot a → maskConvs a 0 ≠ [] → (∀ c ∈ maskConvs a 0, (s.conv c).cfg.mode = 2) →
    ∃ u : State × Nat, u = (maskConvs a 0).foldl (fun (p : State × Nat) c => ((p.1.acceptTrig c).1, p.2 + b2n (p.1.acceptTrig c).2)) (s.admitted d slot a, 0) ∧
      exec (.trigger d) s = .next (u.1.final slot stOK u.2 u.1.now)) ∧
  (∀ s d slot a, Admits s 0x0203 d slot a → sysMeasBad a = none → byteAt a 0 < 192 → 16 ≤ fld a 4 4 → fld a 4 4 ≤ 65536 →
    (isWM (byteAt a 0) = true → convMin (byteAt a 0) ≤ toI 32 (fld a 8 4) ∧ toI 32 (fld a 8 4) ≤ convMax (byteAt a 0)) →
    (s.conv (byteAt a 0)).cfg.mode ≠ 0 → (∃ e ∈ (s.conv (byteAt a 0)).steps, e.entry = byteAt a 1) →
    ((s.admitted d slot a).region (convRegion (byteAt a 0))).failed = false → ((s.admitted d slot a).region (convRegion (byteAt a 0))).ready = true →
    ∃ u : State, u = ((s.conv (byteAt a 0)).meas.filter fun m => !m.held && decide (m.entry = byteAt a 1) && decide (m.full = false)).foldl
        (fun v m => (v.dropMeas (byteAt a 0) m.slot).final m.slot stABORTED 0 0) (s.admitted d slot a) ∧
      exec (.syscalZero d) s = .next ((u.setConv (byteAt a 0) { u.conv (byteAt a 0) with
        meas := (u.conv (byteAt a 0)).meas ++ [{ entry := byteAt a 1, full := false, n := fld a 4 4, target := toI 32 (fld a 8 4), slot := slot, start := u.now }] }).setWork
          slot (.syscal (byteAt a 0)))) ∧
  (∀ s d slot a, Admits s 0x0204 d slot a → sysMeasBad a = none → byteAt a 0 < 192 → 16 ≤ fld a 4 4 → fld a 4 4 ≤ 65536 →
    (isWM (byteAt a 0) = true → convMin (byteAt a 0) ≤ toI 32 (fld a 8 4) ∧ toI 32 (fld a 8 4) ≤ convMax (byteAt a 0)) →
    (s.conv (byteAt a 0)).cfg.mode ≠ 0 → (∃ e ∈ (s.conv (byteAt a 0)).steps, e.entry = byteAt a 1) →
    ((s.admitted d slot a).region (convRegion (byteAt a 0))).failed = false → ((s.admitted d slot a).region (convRegion (byteAt a 0))).ready = true →
    ∃ u : State, u = ((s.conv (byteAt a 0)).meas.filter fun m => !m.held && decide (m.entry = byteAt a 1) && decide (m.full = true)).foldl
        (fun v m => (v.dropMeas (byteAt a 0) m.slot).final m.slot stABORTED 0 0) (s.admitted d slot a) ∧
      exec (.syscalFull d) s = .next ((u.setConv (byteAt a 0) { u.conv (byteAt a 0) with
        meas := (u.conv (byteAt a 0)).meas ++ [{ entry := byteAt a 1, full := true, n := fld a 4 4, target := toI 32 (fld a 8 4), slot := slot, start := u.now }] }).setWork
          slot (.syscal (byteAt a 0)))) ∧
  (∀ s d slot a c entry, Admits s 0x0205 d slot a → firstBad a ((2, 0xF8) :: rsv 3 5) = none → c = byteAt a 0 → c < 192 → entry = byteAt a 1 → entry ≤ 63 →
    ((s.admitted d slot a).region (convRegion c)).failed = false → ((s.admitted d slot a).region (convRegion c)).ready = true →
    (byteAt a 2 % 8 = 4 → exec (.syscalCommit d) s = .next (((s.admitted d slot a).sysClear c entry).final slot stOK 0 0)) ∧
    (byteAt a 2 % 8 ≠ 0 → byteAt a 2 % 8 ≠ 4 → ∀ z f (u : State),
      (s.conv c).meas.find? (fun m => m.held && decide (m.entry = entry) && !m.full) = some z →
      (s.conv c).meas.find? (fun m => m.held && decide (m.entry = entry) && m.full) = some f →
      u = (if bit (byteAt a 2) 2 then (s.admitted d slot a).sysClear c entry else s.admitted d slot a) →
      (sysSolve c z f = none → exec (.syscalCommit d) s = .next ((s.admitted d slot a).final slot stRANGE 0 0)) ∧
      (∀ g off, sysSolve c z f = some (g, off) →
        (bit (byteAt a 2) 1 = true → u.sysSlot c entry = none → exec (.syscalCommit d) s = .next ((s.admitted d slot a).final slot stNO_RESOURCE 0 0)) ∧
        ((bit (byteAt a 2) 1 = true → (u.sysSlot c entry).isSome = true) →
          exec (.syscalCommit d) s = .next ((u.sysKeep c entry z.gcode g off (bit (byteAt a 2) 0) (bit (byteAt a 2) 1) (u.sysSlot c entry)).final slot stOK
            g (ofI 64 off))))) ∧
    (byteAt a 2 % 8 ≠ 0 → bit (byteAt a 2) 2 = false → (∀ m ∈ (s.conv c).meas, m.held = true → m.entry ≠ entry) →
      exec (.syscalCommit d) s = .next ((s.admitted d slot a).final slot stBAD_ARG 0 0))) ∧
  (∀ s t slot c, (s.hnd slot).work = .syscal c → (∃ m ∈ (s.conv c).meas, m.slot = slot ∧ m.held = false ∧ m.start + 15000000000 ≤ (s.at t).now) →
    exec (.syscalTimeout t slot) s = .next (((s.at t).dropMeas c slot).final slot stTIMEOUT 0 0))

/-- What happens to a converter in time (05 R129, R137, R140-R146, R149; 02 R39; 08 R238; 10 R280): where each event has its effect,
and where an output instant has none. -/
def Obligations.ConverterEventsComplete : Prop :=
  (∀ s t c main comp p e, c < 192 → (s.conv c).rephase = false → (s.at t).time.running = true → (s.at t).now = t →
    (s.conv c).period c = some p → atInstant p t = true → (s.conv c).eff = some e →
    ∃ u : State, u = ((s.at t).applyCoef c).crossAt (some c) ∧
      ((u.conv c).waits = [] → (u.conv c).eff.isSome = true → exec (.outputInstant t c main comp) s = .next ((u.instant c t main comp).endInstant c)) ∧
      ((u.conv c).waits ≠ [] → exec (.outputInstant t c main comp) s =
        .next (((u.conv c).waits.foldl (fun s w => s.takeEffect c w true) (u.setConv c { u.conv c with waits := [] })).endInstant c))) ∧
  (∀ s t c main comp p, c < 192 → (s.conv c).rephase = false → (s.at t).time.running = true → (s.at t).now = t →
    (s.conv c).period c = some p → atInstant p t = true → (s.conv c).eff = none →
    ((s.conv c).waits ≠ [] → exec (.outputInstant t c main comp) s =
      .next (((s.conv c).waits.foldl (fun s w => s.takeEffect c w true) ((s.at t).setConv c { s.conv c with waits := [] })).endInstant c)) ∧
    ((s.conv c).waits = [] → (s.conv c).cfg.mode ≠ 0 → (s.conv c).waiting = false → exec (.outputInstant t c main comp) s =
      .next (((s.at t).setConv c (startOrWait c (s.conv c) t false true)).endInstant c)) ∧
    ((s.conv c).waits = [] → (s.conv c).cfg.mode ≠ 0 → (s.conv c).waiting = true →
      ((s.conv c).calDone = true ∨ (s.conv c).waitUntil ≤ t → exec (.outputInstant t c main comp) s =
        .next (((s.at t).setConv c (startSequence c (s.conv c) false (s.conv c).outOfOff)).endInstant c)) ∧
      ((s.conv c).calDone = false → t < (s.conv c).waitUntil → exec (.outputInstant t c main comp) s = .next (s.at t)))) ∧
  (∀ s t c main comp p, c < 192 → (s.conv c).period c = some p → atInstant p t = false → exec (.outputInstant t c main comp) s = .next (s.at t)) ∧
  (∀ s t kind index falling, 2 ≤ kind → kind ≤ 5 → trigIndexOk kind index = true → (s.at t).sourceLive kind index = true →
    exec (.triggerAccept t kind index falling) s = .next (((s.at t).convs.filter fun e => e.2.listens kind index falling).foldl (fun s e => (s.acceptTrig e.1).1) (s.at t))) ∧
  (∀ s t index falling (u v : State), index < 1024 → (s.at t).sourceLive 1 index = true → u = (s.at t).setCtl (2 ^ 28 + index) (!falling) →
    v = (u.convs.filter fun e => e.2.borrowed && decide (e.2.cfg.source.kind = 1) && decide (e.2.cfg.source.index = index)).foldl (fun s e => s.yieldConv e.1 2) u →
    exec (.triggerAccept t 1 index falling) s = .next ((v.convs.filter fun e => e.2.listens 1 index falling).foldl (fun s e => (s.acceptTrig e.1).1) v)) ∧
  (∀ s t, t % 250 = 0 → (s.at t).time.running = true → (s.at t).now = t →
    exec (.applyStrobe t) s = .next (((s.at t).applyStaged ((s.at t).stagedCells.filter fun n => decide ((s.at t).cellBoundary ((s.at t).cell n) = none))).crossAt none)) ∧
  (∀ s t c e, c < 192 → (s.conv c).eff = some e → (s.conv c).overload = none →
    exec (.loopOverload t c) s = .next (((s.at t).setConv c { s.conv c with overload := some (s.at t).now }).bump (uConv c) 8)) ∧
  (∀ s t c from_, c < 192 → (s.conv c).overload = some from_ →
    exec (.loopOverloadEnd t c) s = .next ((s.at t).setConv c { s.conv c with
      overload := none, overEnd := true, overIv := ((s.conv c).overIv ++ [(from_, (s.at t).now)]).drop ((s.conv c).overIv.length - 31) })) ∧
  (∀ s t c, c < 192 → (s.conv c).cfg.mode = 0 → (s.conv c).offSince + 2500000 < (s.at t).now → (s.conv c).borrowed = false →
    exec (.converterPowerGate t c) s = .next ((s.at t).setConv c { s.conv c with gated := true }))

/-- Calibration (08 R213-R227, R230-R234, R238): where each command and event completes. -/
def Obligations.CalibrationComplete : Prop :=
  (∀ s d slot a objs ext (u : State), Admits s 0x0400 d slot a → firstBad a ((1, 0xF8) :: rsv 4 4 ++ (if bit (byteAt a 1) 2 then [] else rsv 8 8)) = none →
    byteAt a 0 ≤ 4 → fld a 2 2 < calCount (byteAt a 0) → fld a 8 8 % 8 = 0 →
    (bit (byteAt a 1) 2 = true → (s.admitted d slot a).bufOk (fld a 8 8) (32 * ((s.admitted d slot a).calTargets (byteAt a 0) (fld a 2 2)).length) = true) →
    (∀ r ∈ calRegions (byteAt a 0) (fld a 2 2), (s.region r).failed = false ∧ (s.region r).ready = true) →
    objs = (s.admitted d slot a).calRunsOf ((s.admitted d slot a).calTargets (byteAt a 0) (fld a 2 2)) →
    ext = (bit (byteAt a 1) 0 && decide (s.cal.ref.declared ≠ 0)) →
    (objs = [] → ext = false → exec (.calRun d) s = .next (((s.admitted d slot a).reportCals slot).final slot stOK 0 0)) ∧
    (u = objs.foldl (fun s e => s.makeDue e.1 e.2 (s.objTemp e.1 e.2) 0 [slot]) ((s.admitted d slot a).setWork slot (.cal (objs.length + b2n ext) 0 0 false)) →
      (objs ≠ [] → ext = false → exec (.calRun d) s = .next u) ∧
      (ext = true → exec (.calRun d) s = .next (u.startRef (List.range 8) [slot] (bit (byteAt a 1) 1))))) ∧
  (∀ s d slot a p (u : State), Admits s 0x0401 d slot a → byteAt a 0 = 0 → firstBad a ((1, 0xF8) :: rsv 14 34) = none →
    50 ≤ fld a 2 2 → fld a 2 2 ≤ 2000 → 1 ≤ fld a 4 2 → fld a 4 2 ≤ 1000 → 1 ≤ fld a 6 2 → fld a 6 2 ≤ 10000 → 1 ≤ fld a 8 2 → fld a 8 2 ≤ 600 →
    fld a 10 4 ≤ 86400 →
    p = { blind := bit (byteAt a 1) 0, store := bit (byteAt a 1) 1, trigger := fld a 2 2, offLimit := fld a 4 2, gainLimit := fld a 6 2,
          window := fld a 8 2, interval := fld a 10 4 } →
    u = { s.admitted d slot a with cal := { s.cal with policy := p } } →
    (bit (byteAt a 1) 2 = false → exec (.calPolicy d) s = .next (u.final slot stOK 0 0)) ∧
    (bit (byteAt a 1) 2 = true → s.keepLocked = false →
      exec (.calPolicy d) s = .next (State.final { u with keep := { s.keep with policyRec := some (p.bytes true) } } slot stOK 0 0)) ∧
    (bit (byteAt a 1) 2 = true → s.keepLocked = true → exec (.calPolicy d) s = .next (u.logLocked.final slot stOK 0 0))) ∧
  (∀ s d slot a g, Admits s 0x0401 d slot a → byteAt a 0 = 1 → firstBad a (rsv 1 1 ++ rsv 4 12) = none → (s.consumed d).namesObj (fld a 2 2) 1 = true →
    s.graph (fld a 2 2 % 4096) = some g →
    exec (.calPolicy d) s = .next (((s.admitted d slot a).setGraph (fld a 2 2 % 4096) (some { g with zeroMean := slice a 16 32 })).final slot stOK 0 0)) ∧
  (∀ s d slot a r (u v : State), Admits s 0x0402 d slot a → firstBad a ((6, 0xF0) :: rsv 7 9) = none → 100000000 ≤ fld a 0 4 → fld a 0 4 ≤ 400000000 → 1 ≤ fld a 4 2 →
    fld a 4 2 ≤ 10000 → r = { s.cal.ref with declared := fld a 0 4, tol := fld a 4 2, atStart := bit (byteAt a 6) 0, inRecovery := bit (byteAt a 6) 1 } →
    u = { s.admitted d slot a with cal := { s.cal with ref := r } } →
    (bit (byteAt a 6) 3 = false → v = u) → (bit (byteAt a 6) 3 = true → s.keepLocked = false → v = { u with keep := { s.keep with refRec := some r.bytes } }) →
    (bit (byteAt a 6) 3 = true → s.keepLocked = true → v = u.logLocked) →
    (bit (byteAt a 6) 2 = false → exec (.calRefExternal d) s = .next (v.final slot stOK (ofI 64 s.cal.ref.scale) 0)) ∧
    (bit (byteAt a 6) 2 = true → exec (.calRefExternal d) s = .next ((v.setWork slot .refcal).startRef (List.range 8) [slot] (bit (byteAt a 6) 3)))) ∧
  (∀ s t r kind idx0 idx e (u : State), idx = (s.at t).calLeader kind idx0 → s.cal.due.find? (fun x => x.kind == kind && x.idx == idx) = some e → objRegion kind idx = r →
    (s.at t).runReady e = true → (kind ≠ 2 → ∀ x ∈ s.cal.due, x.kind = kind → x.idx ≠ idx → objRegion x.kind x.idx = r → (s.at t).runReady x = true →
      (s.at t).dueBefore x e = false) →
    u = { s.at t with cal := { s.cal with
      due := s.cal.due.filter (fun x => decide (x ≠ e))
      runs := s.cal.runs ++ [{ kind := kind, idx := idx, start := (s.at t).now, temp := e.temp, cmds := e.cmds,
                                          offLimit := s.cal.policy.offLimit, gainLimit := s.cal.policy.gainLimit, window := s.cal.policy.window }] } } →
    (kind = 0 → exec (.calibrationRunStart t r kind idx0) s = .next u) ∧
    (kind = 1 → exec (.calibrationRunStart t r kind idx0) s = .next ((u.yieldConv idx 4).setConv idx { (u.yieldConv idx 4).conv idx with comp := 2 })) ∧
    (kind = 2 → exec (.calibrationRunStart t r kind idx0) s = .next (u.setDac idx { s.dac idx with readings := 0, readLow := 0, readHigh := 0 }))) ∧
  (∀ s t kind idx0 idx e res (u : State), idx = (s.at t).calLeader kind idx0 → s.cal.runs.find? (fun x => x.kind == kind && x.idx == idx) = some e → kind ≤ 2 →
    (s.at t).ctrlOk (objRegion kind idx) = true → (s.at t).repairsIn (objRegion kind idx) = false → (kind = 2 → res.fail = 0 → 64 ≤ (s.dac idx).readings) →
    e.start + (s.at t).runWindows e ≤ (s.at t).now → (kind = 1 → (s.conv idx).comp = 2) →
    (kind ≠ 1 → u = { s.at t with cal := { s.cal with runs := s.cal.runs.filter (fun x => decide (x ≠ e)) } }) →
    (kind = 1 → u = State.setConv { s.at t with cal := { s.cal with runs := s.cal.runs.filter (fun x => decide (x ≠ e)) } } idx { s.conv idx with comp := 0 }) →
    ((s.at t).runFails e res.fail = 0 → res.offStep.natAbs ≤ e.offLimit * 100 → res.gainStep.natAbs ≤ e.gainLimit * 100 →
      ∀ v w x : State, (kind = 0 → v = u.cellResult e res) → (kind = 1 → v = u.convResult e res) → (kind = 2 → v = u.dacResult e res) →
        w = (v.setDueFlag kind idx false).bump (uRg (objRegion kind idx)) 4 → (w.storeNow e.cmds = false → x = w) →
        (w.storeNow e.cmds = true → kind = 0 → x = (w.calGroup idx).foldl (fun s n => s.storeResult 0 n) w) →
        (w.storeNow e.cmds = true → kind ≠ 0 → x = w.storeResult kind idx) →
        exec (.calibrationRunEnd t kind idx0 res) s = .next ((e.cmds.foldl (fun s c => s.calEnded c 1 0) x).pumpRef)) ∧
    ((s.at t).runFails e res.fail = 0 → e.offLimit * 100 < res.offStep.natAbs ∨ e.gainLimit * 100 < res.gainStep.natAbs →
      exec (.calibrationRunEnd t kind idx0 res) s = .next ((u.runFailed e 0 res).pumpRef)) ∧
    (0 < (s.at t).runFails e res.fail → exec (.calibrationRunEnd t kind idx0 res) s = .next ((u.runFailed e ((s.at t).runFails e res.fail) res).pumpRef))) ∧
  (∀ s t kind idx, exec (.calRetry t kind idx) s = .next { s.at t with cal := { s.cal with due := s.cal.due.map fun e =>
    if (e.kind = kind ∧ e.idx = ((s.at t).calLeader kind idx) ∧ e.notBefore ≤ (s.at t).now) then { e with notBefore := 0 } else e } }) ∧
  (∀ s t kind idx, s.cal.policy.interval ≠ 0 → (s.at t).dueKind kind idx = true → (s.at t).ctrlOk (objRegion kind idx) = true →
    ((s.at t).lastRun kind idx).getD 0 + s.cal.policy.interval * 250000000 ≤ (s.at t).now →
    exec (.calIntervalDue t kind idx) s = .next ((s.at t).makeDue kind idx ((s.at t).objTemp kind idx) 0 [])) ∧
  (∀ s t p ms, s.cal.procedure = some p → (∀ r ∈ p.regions, (s.conv (8 * r)).comp = 3) → p.regions ≠ [] → ms.length = p.regions.length →
    (∀ m ∈ ms, m.fail = 4) →
    ∃ u, exec (.refcalMeasurement t ms) s = .next u ∧ u.cal.procedure = none ∧ u.cal.ref = s.cal.ref ∧
      u.convs = (p.regions.foldl (fun s r => s.setConv (8 * r) { s.conv (8 * r) with comp := 0 }) s).convs) ∧
  (∀ s t p r m, s.cal.procedure = some p → p.regions = [r] → (s.conv (8 * r)).comp = 3 → (s.region r).failed = false → refFail s.cal.ref m = 0 →
    ((refScale s.cal.ref.declared [(r, m.mean)]).2 - s.cal.ref.scale).natAbs ≤ s.cal.policy.gainLimit * 100 →
    ∃ u, exec (.refcalMeasurement t [m]) s = .next u ∧ u.cal.procedure = none ∧
      u.cal.ref = { s.cal.ref with scale := (refScale s.cal.ref.declared [(r, m.mean)]).2, valid := true, time := (s.at t).now }) ∧
  (∀ s t kind n (k : Keep), 5 ≤ s.time.step → s.chip.restarting = false → s.chip.failed = false → (s.at t).keepLocked = false →
    (Tbl.get 0 (keepKey kind n) s.cal.lastWrite = 0 ∨ Tbl.get 0 (keepKey kind n) s.cal.lastWrite + 15000000000 ≤ (s.at t).now) →
    ((kind = 0 ∧ n < 1024 ∧ s.cal.policy.store = true ∧ (s.cell n).calTime.isSome = true ∧ (s.at t).storedCal 0 n ≠ some ((s.at t).cellKeep n) ∧
        k = { s.keep with cells := Tbl.set none n (some ((s.at t).cellKeep n)) s.keep.cells }) ∨
      (kind = 1 ∧ n < 64 ∧ s.cal.policy.store = true ∧ (s.conv n).calTime.isSome = true ∧ (s.at t).storedCal 1 n ≠ some ((s.at t).convKeep n) ∧
        k = { s.keep with pms := Tbl.set none n (some ((s.at t).convKeep n)) s.keep.pms }) ∨
      (kind = 1 ∧ 64 ≤ n ∧ n < 192 ∧ s.cal.policy.store = true ∧ (s.conv n).calTime.isSome = true ∧ (s.at t).storedCal 1 n ≠ some ((s.at t).convKeep n) ∧
        k = { s.keep with wms := Tbl.set none (n - 64) (some ((s.at t).convKeep n)) s.keep.wms }) ∨
      (kind = 2 ∧ n < 64 ∧ s.cal.policy.store = true ∧ (s.dac n).calTime.isSome = true ∧ (s.at t).storedCal 2 n ≠ some ((s.at t).dacKeep n) ∧
        k = { s.keep with dacCals := Tbl.set none n (some ((s.at t).dacKeep n)) s.keep.dacCals }) ∨
      (kind = 3 ∧ n < 65536 ∧ (∃ e ∈ [2 * n, 2 * n + 1], Tbl.get (255, false) e s.keep.health ≠ (s.at t).healthNow e) ∧
        k = { s.keep with health := [2 * n, 2 * n + 1].foldl (fun h e => Tbl.set (255, false) e ((s.at t).healthNow e) h) s.keep.health }) ∨
      (kind = 4 ∧ ∃ b, (s.at t).staleRec n = some b ∧ k = { s.keep with sysSets := Tbl.set none n (some b) s.keep.sysSets })) →
    exec (.keepStoreWrite t kind n) s = .next { s.at t with
      keep := k, cal := { s.cal with lastWrite := Tbl.set 0 (keepKey kind n) (s.at t).now s.cal.lastWrite } })

/-- The steps of a planned transplant (04 R98, R100-R107, R117, R120). -/
def Obligations.MoveStepsComplete : Prop :=
  (∀ s t slot i m, (s.at t).moveOf slot i = some m → m.step = 1 → (s.at t).planRuns m = true →
    exec (.destinationConfigured t slot i) s = .next ((m.cold.foldl (fun s n => s.builtCell n) (((s.at t).configDest slot i m.dest).joinDest slot i m.dest m.nets)).setMove
      slot i (some { m with step := 3 }))) ∧
  (∀ s t slot i m g, (s.at t).moveOf slot i = some m → s.graph slot = some g → m.step = 3 → (s.at t).planRuns m = true →
    ((∀ c ∈ (s.at t).moveLoops g m, (s.conv c).comp = 0 ∨ (s.conv c).comp = 4) →
      exec (.destinationSettled t slot i) s = .next (((((s.at t).moveLoops g m).foldl (fun v c => (v.yieldConv c 4).setConv c { (v.yieldConv c 4).conv c with
        comp := 1, priv := matchTracks (g.prim i) m }) (s.at t)).setFrozen ((g.prim i).cells ++ placeCells m.dest) true).setMove slot i
          (some { m with step := 4, loops := (s.at t).moveLoops g m }))) ∧
    ((∃ c ∈ (s.at t).moveLoops g m, (s.conv c).comp ≠ 0 ∧ (s.conv c).comp ≠ 4) → exec (.destinationSettled t slot i) s = .next (s.at t))) ∧
  (∀ s t slot i m offIn offOut gain trims u, (s.at t).moveOf slot i = some m → m.step = 4 → (s.at t).planRuns m = true →
    u = (placeCells m.dest).foldl (fun (s : State) n => s.setCell n { s.cell n with calTime := some s.now, calTemp := s.blockTemp (n / 16) }) (s.at t) →
    ((offIn ≤ 10 ∨ offOut ≤ 1880) → gain ≤ 500 →
      exec (.matchingRound t slot i offIn offOut gain trims) s = .next (u.setMove slot i (some { m with step := 5, round := m.round + 1 }))) ∧
    ((500 < gain ∨ (10 < offIn ∧ 1880 < offOut)) → m.round < 2 →
      exec (.matchingRound t slot i offIn offOut gain trims) s = .next ((u.trimDest m.dest trims).setMove slot i (some { m with round := m.round + 1 }))) ∧
    ((500 < gain ∨ (10 < offIn ∧ 1880 < offOut)) → 2 ≤ m.round →
      exec (.matchingRound t slot i offIn offOut gain trims) s = .next ((((((u.bump (uRg (placeRegion m.dest)) 7).log 0x204 1 m.dest.c0
        (u.primArg slot i) offOut).abandonMove m stFAULT 1).cellsFreed).pumpRef).resume))) ∧
  (∀ s t slot i m g meas, (s.at t).moveOf slot i = some m → s.graph slot = some g → m.step = 6 → m.todo = [] →
    (∀ r ∈ reaches g i, ∀ x, (s.conv r.1).xf = some x → ¬ (x.graph = slot ∧ x.prim = i)) →
    exec (.crossoverComplete t slot i meas) s = .next ((((((s.at t).takePlace m g).reeval slot i meas).bump (uRg (placeRegion m.dest)) 0).setMove slot i
      (some { m with step := 7, loops := [], src := (g.prim i).place i })).pumpRef)) ∧
  (∀ s t slot i m src (u : State), (s.at t).moveOf slot i = some m → m.step = 7 → (s.at t).placeOk m.dest = true → src = (s.at t).vacated slot i →
    (∀ n ∈ src, (s.at t).takesPart m.why (n / 128) = true) → u = ((s.at t).setFrozen (src ++ placeCells m.dest) false).dropMove m →
    (m.why = .stolon → src ≠ [] → exec (.sourceDisconnected t slot i) s = .next
      (((((src.foldl (fun s n => s.freeCell n) u).askTest (cellRegion (src.headD 0)) { cells := src, owner := some (slot, m.src), took := m.took }).cellsFreed).resume))) ∧
    ((m.why ≠ .stolon ∨ src = []) → (m.why ≠ .host ∨ m.handle = none) → exec (.sourceDisconnected t slot i) s = .next (((u.giveBack slot src).cellsFreed).resume)) ∧
    (∀ h g, m.why = .host → m.handle = some h → (u.giveBack slot src).graph slot = some g → exec (.sourceDisconnected t slot i) s =
      .next ((((u.giveBack slot src).final h stOK ((g.prim i).c0 + (g.prim i).c1 * 65536) 0).cellsFreed).resume)))

/-- Cell faults and resets (04 R109, R110; 02 R48; 17 R454, R455) and the steps of a repair (04 R98, R111-R113, R116). -/
def Obligations.RepairStepsComplete : Prop :=
  (∀ s t n m, n < 1024 → (s.at t).monitorActs n m = true → exec (.cellFault t n m) s = .next ((s.at t).faultCell n m ((s.at t).now - 12500))) ∧
  (∀ s t n m, n < 1024 → (s.at t).monitorActs n m = false → exec (.cellFault t n m) s = .next (s.at t)) ∧
  (∀ s t n ok (u : State), n < 1024 → (s.at t).restarting (n / 128) = false →
    u = (((((s.at t).setCell n { s.cell n with resets := ((s.cell n).resets.filter fun x => decide ((s.at t).now < x + 250000000)) ++ [(s.at t).now] }).ageCell n).bump
      (uBk (n / 16)) 6).log 0x200 1 n (((s.cell n).resets.filter fun x => decide ((s.at t).now < x + 250000000)).length + 1) 0) →
    (ok = true → (∀ x ∈ (s.cell n).resets, x + 250000000 ≤ (s.at t).now) → exec (.cellReset t n ok) s = .next u) ∧
    (ok = false ∨ (∃ x ∈ (s.cell n).resets, (s.at t).now < x + 250000000) → exec (.cellReset t n ok) s =
      .next (State.faultCell (u.setCell n { u.cell n with staged := [], stagedCal := false, stagedSettle := none, calRes := none }) n 4 u.now))) ∧
  (∀ s t n ok, n < 1024 → (s.at t).restarting (n / 128) = true → exec (.cellReset t n ok) s = .next ((s.at t).log 0x106 1 n 0x104 0x200)) ∧
  (∀ s t slot i g, s.graph slot = some g → g.phase = 7 → i < g.prims.length → (g.prim i).ty = 10 →
    exec (.idacCompliance t slot i) s = .next ((s.at t).log 0x20D 1 (g.prim i).c0 ((s.at t).primArg slot i) 0)) ∧
  (∀ s t r q l g, r < 8 → (s.at t).ctrlOk r = true → (s.region r).repairs = q :: l → s.graph q.graph = some g → q.step = 2 →
    (∀ d, (s.at t).chooseDest q.graph g q.prim { repair := true } = some d →
      exec (.repairDestination t r) s = .next ((((s.at t).placeRepair q g d).1.setRepair r (some ((s.at t).placeRepair q g d).2)).restock)) ∧
    ((s.at t).chooseDest q.graph g q.prim { repair := true } = none →
      exec (.repairDestination t r) s = .next (((((s.at t).setRepair r none).log 0x205 1 (g.prim q.prim).c0 ((s.at t).primArg q.graph q.prim) 1).strand q g).resume))) ∧
  (∀ s t r q l d, r < 8 → (s.at t).ctrlOk r = true → (s.region r).repairs = q :: l → q.dest = some d → (s.at t).placeOk d = true →
    (q.step = 3 → exec (.repairConfigured t r) s = .next (((s.at t).configDest q.graph q.prim d).setRepair r (some { q with step := 5 }))) ∧
    (q.step = 5 → exec (.repairNetsConnected t r) s = .next (((s.at t).joinDest q.graph q.prim d q.nets).setRepair r (some { q with step := 6 }))) ∧
    (q.step = 6 → exec (.repairSettled t r) s = .next ((s.at t).setRepair r (some { q with step := 7 }))) ∧
    (q.step = 7 → exec (.repairVerified t r) s = .next ((s.at t).setRepair r (some { q with step := 8 }))) ∧
    (q.step = 8 → q.cold = false → t % 250 = 0 → (s.at t).now = t → ∀ meas, exec (.repairTakeover t r meas) s = .next ((s.at t).takeover r q d meas 0x202 1)) ∧
    (3 ≤ q.step → q.cold = true → ∀ meas, exec (.repairCold t r meas) s = .next (((placeCells d).foldl (fun (s : State) n => s.builtCell n)
      (((s.at t).configDest q.graph q.prim d).joinDest q.graph q.prim d q.nets)).takeover r q d meas 0x203 6)))

/-- Stolon (04 R114, R117-R123; 12 R351), temperatures (17 R462), input pairs (17 R461) and cell controls (02 R46). -/
def Obligations.StolonEventsComplete : Prop :=
  (∀ s t r segs n, r < 8 → s.til.policy.enable = true → (s.at t).ctrlOk r = true → (s.region r).test = none → (s.region r).testQ = [] → 5 ≤ s.time.step →
    (s.at t).oldestCell r = some n → (s.at t).testable n = true →
    (∀ e ∈ s.cal.runs, e.kind = 0 → e.idx ∉ (s.at t).calGroup n) →
    ((∀ slot i, (s.cell n).use ≠ .fn slot i) → exec (.stolonTestStart t r segs) s = .next ((s.at t).askTest r
      { cells := [n], segs := segs.eraseDups.filter fun k => (s.at t).segTestable r k })) ∧
    (∀ slot i, (s.cell n).use = .fn slot i → exec (.stolonTestStart t r segs) s = .next ((s.at t).planMove
      { graph := slot, prim := i, why := .stolon, len := s.til.policy.len }))) ∧
  (∀ s t r scores ranks segScores ok q c (u : State), r < 8 → (s.at t).ctrlOk r = true → (s.region r).test = some q → q.conv = some c →
    scores.length = 48 * q.cells.length → ranks.length = scores.length → segScores.length = q.segs.length →
    u = (s.at t).endTest r q scores ranks segScores →
    exec (.stolonTestEnd t r scores ranks segScores ok) s = .next (u.afterTest r q ok)) ∧
  (∀ s t r why, r < 8 → 1 ≤ why → why ≤ 4 → exec (.stolonYielded t r why) s = .next ((s.at t).yieldTest r why)) ∧
  (∀ s t r (u : State), r < 8 → s.til.policy.enable = true → (s.at t).ctrlOk r = true → (s.region r).covStart + s.til.policy.period * 250000000 ≤ (s.at t).now →
    u = (s.at t).setRegion r { s.region r with covStart := (s.at t).now, covTested := [], covSegs := [], covSkip := [] } →
    ((s.region r).covTested.length < 128 →
      exec (.coverageMissed t r) s = .next ((u.bump (uRg r) 9).log 0x20C 3 r (128 - (s.region r).covTested.length) 0)) ∧
    (128 ≤ (s.region r).covTested.length → exec (.coverageMissed t r) s = .next u)) ∧
  (∀ s t n (u : State), n < 1024 → ((s.cell n).use = .pool ∨ ∃ g, (s.cell n).use = .reserved g) → (s.at t).ctrlOk (n / 128) = true → 5 ≤ s.time.step →
    u = (s.at t).setCell n { s.cell n with
      warm := true, calTime := some (s.at t).now, calTemp := (s.at t).blockTemp (n / 16), bias := 1023,
      lastTest := some ((s.cell n).lastTest.getD (s.at t).now), due := false, status := (s.cell n).status.completed none } → u.warmNow n = true →
    ((u.dropPartner n).poolsWarm = false ∨ (u.dropPartner n).chip.sparesWarm = true → exec (.spareWarm t n) s = .next (u.dropPartner n)) ∧
    ((u.dropPartner n).poolsWarm = true → (u.dropPartner n).chip.sparesWarm = false → exec (.spareWarm t n) s =
      .next (State.log { u.dropPartner n with chip := { (u.dropPartner n).chip with sparesWarm := true } } 0x208 4 0 0 0))) ∧
  (∀ s t r l (u : State), r < 8 → s.til.policy.enable = false → l ≠ [] →
    l = (regionCells r).filter (fun n => (s.cell n).warm && match (s.cell n).lastTest with
      | none => false
      | some x => decide (x + s.til.policy.period * 250000000 < (s.at t).now)) →
    u = l.foldl (fun (s : State) n => s.setCell n { s.cell n with warm := false }) (s.at t) →
    (s.til.sparesCold = true → exec (.sparesCold t r) s = .next u) ∧
    (s.til.sparesCold = false → exec (.sparesCold t r) s = .next (State.log { u with til := { u.til with sparesCold := true } } 0x209 3 r
      ((u.poolCells r).filter fun n => !u.warmNow n).length 0))) ∧
  (∀ s t r temps, r < 8 → temps.length = 8 → (s.at t).ctrlOk r = true → 5 ≤ s.time.step →
    exec (.temperatureReading t r temps) s = .next ((((temps.zipIdx.foldl (fun (s : State) e => s.readSensor (8 * r + e.2) e.1 (median2 temps)) (s.at t)).regionDue r)).level r)) ∧
  (∀ s t p leg, p < 128 → (s.pair p).ranged = false → (∀ x, (s.pair p).lastLog = some x → x + 250000000 ≤ (s.at t).now) →
    exec (.ainOverrange t p leg) s = .next (((s.at t).setPair p { s.pair p with ranged := true, onset := (s.at t).now, lastLog := some (s.at t).now, further := 0 }).log
      0x212 3 (3 * 2 ^ 24 + p) leg (s.pair p).further)) ∧
  (∀ s t p leg x, p < 128 → (s.pair p).ranged = false → (s.pair p).lastLog = some x → (s.at t).now < x + 250000000 →
    exec (.ainOverrange t p leg) s = .next ((s.at t).setPair p { s.pair p with ranged := true, onset := (s.at t).now, further := (s.pair p).further + 1 })) ∧
  (∀ s t p, p < 128 → (s.pair p).ranged = true →
    exec (.ainOverrangeClear t p) s = .next ((s.at t).setPair p { s.pair p with
      ranged := false, ivs := ((s.pair p).ivs ++ [((s.pair p).onset, (s.at t).now)]).drop ((s.pair p).ivs.length - 31) })) ∧
  (∀ s t kind index level, kind ≠ 0 → srcOk (kind * 2 ^ 28 + index) = true → (s.at t).sourceLive kind index = true →
    exec (.cellControlEdge t kind index level) s = .next ((s.at t).setCtl (kind * 2 ^ 28 + index) level))

/-- The DAC commands (07 R192, R198, R199, R203-R208; 12 R344): where each completes. -/
def Obligations.DacCommandsComplete : Prop :=
  (∀ s d slot a n src code c, Admits s 0x0300 d slot a →
    firstBad a ((1, 0xFC) :: rsv 3 1 ++ (if byteAt a 2 = 1 then rsv 4 4 else if byteAt a 2 = 2 then rsv 6 2 else []) ++
      (if bit (byteAt a 1) 0 then [] else rsv 8 8)) = none → n = byteAt a 0 → src = byteAt a 2 → code = toI 32 (fld a 4 4) → n < 64 → src ≤ 2 →
    (src = 0 → inRange (s.dac n).codeRange code = true) → (src = 2 → fld a 4 2 < 64 ∧ fld a 4 2 / 8 = n / 8) →
    (s.region (n / 8)).failed = false → (s.region (n / 8)).ready = true →
    c = { slot := slot, isRange := false, time := if bit (byteAt a 1) 0 then fld a 8 8 else 0, source := src, bus := fld a 4 2, code := if src = 0 then code else 0 } →
    (bit (byteAt a 1) 1 = false → exec (.dacSet d) s = .next (((s.admitted d slot a).setDac n { s.dac n with outs := (s.dac n).outs ++ [c] }).setWork slot (.dac n))) ∧
    (bit (byteAt a 1) 1 = true → exec (.dacSet d) s = .next (((s.admitted d slot a).setDac n { s.dac n with
      short := false, tripped := false, senseOpen := false, ddsClip := false, faultValue := false, nvDefaulted := false
      out := if (s.dac n).tripped then 0 else (s.dac n).out, reramp := (s.dac n).reramp || (s.dac n).tripped
      moving := if (s.dac n).tripped && decide ((s.dac n).source = 0) then some false else (s.dac n).moving
      outs := (s.dac n).outs ++ [c] }).setWork slot (.dac n)))) ∧
  (∀ s d slot a n r code new (u v : State), Admits s 0x0301 d slot a → firstBad a ((2, 0xFC) :: rsv 14 10) = none → n = byteAt a 0 → r = byteAt a 1 → code = toI 32 (fld a 4 4) →
    n < 64 → r ≤ 3 → 1 ≤ byteAt a 3 → byteAt a 3 ≤ 8 → inRange r code = true → (fld a 8 4 = 0 ∨ 250 ≤ fld a 8 4) → fld a 12 2 ≤ 1000 →
    (s.region (n / 8)).failed = false → (s.region (n / 8)).ready = true →
    new = { s.dac n with
      senseLocal := bit (byteAt a 2) 0, senseNow := bit (byteAt a 2) 0, haltOffset := bit (byteAt a 2) 1, limit := byteAt a 3, dwell := fld a 12 2,
      period := if fld a 8 4 = 0 then (s.dac n).period else fld a 8 4, range := if (s.dac n).enabled then (s.dac n).range else r } →
    u = ((s.admitted d slot a).setDac n new).setWork slot (.dac n) → v = u.endOuts n new.outs stABORTED →
    ((s.dac n).rc = none → (s.dac n).enabled = false ∨ r = (s.dac n).range → exec (.dacRange d) s = .next (u.setDac n
      { new with outs := new.outs ++ [{ slot := slot, isRange := true, time := 0, source := 0, bus := 0, code := code }] })) ∧
    ((s.dac n).rc = none → (s.dac n).enabled = true → r ≠ (s.dac n).range → exec (.dacRange d) s = .next (v.setDac n { v.dac n with
      outs := [{ slot := slot, isRange := true, time := 0, source := 0, bus := 0, code := code, st := 2 }]
      rc := some { phase := 0, range := r, source := 0, bus := 0, code := code } })) ∧
    (∀ q, (s.dac n).rc = some q → q.phase < 2 → exec (.dacRange d) s = .next (v.setDac n { v.dac n with
      outs := [{ slot := slot, isRange := true, time := 0, source := 0, bus := 0, code := code, st := 2 }]
      rc := some { phase := q.phase, range := r, source := 0, bus := 0, code := code, since := q.since } })) ∧
    (∀ q, (s.dac n).rc = some q → q.phase = 2 → exec (.dacRange d) s = .next (v.setDac n { v.dac n with
      outs := [{ slot := slot, isRange := true, time := 0, source := 0, bus := 0, code := code, st := 2 }]
      rc := some { phase := 2, range := r, source := 0, bus := 0, code := code, since := v.dacCount } })) ∧
    (∀ q, (s.dac n).rc = some q → 3 ≤ q.phase → r = (s.dac n).range → exec (.dacRange d) s = .next (v.setDac n { v.dac n with
      outs := [{ slot := slot, isRange := true, time := 0, source := 0, bus := 0, code := code, st := 2 }], target := code
      rc := some { phase := 3, range := r, source := 0, bus := 0, code := code } })) ∧
    (∀ q, (s.dac n).rc = some q → 3 ≤ q.phase → r ≠ (s.dac n).range → exec (.dacRange d) s = .next (v.setDac n { v.dac n with
      outs := [{ slot := slot, isRange := true, time := 0, source := 0, bus := 0, code := code, st := 2 }]
      rc := some { phase := 0, range := r, source := 0, bus := 0, code := code } }))) ∧
  (∀ s d slot a n, Admits s 0x0302 d slot a → firstBad a ((1, 0xF8) :: rsv 2 2 ++ rsv 30 2 ++ (if bit (byteAt a 1) 0 then [] else rsv 32 8)) = none →
    n = byteAt a 0 → n < 64 → 20 * fld a 4 6 * (s.dac n).period ≤ 9 * 2 ^ 48 → fld a 16 4 ≤ 524287 → inRange (s.dac n).range (toI 32 (fld a 20 4)) = true →
    (s.region (n / 8)).failed = false → (s.region (n / 8)).ready = true →
    exec (.ddsConfig d) s = .next (((s.admitted d slot a).setDac n { s.dac n with ddsq := (s.dac n).ddsq ++ [{
      slot := slot, atTime := bit (byteAt a 1) 0, cont := bit (byteAt a 1) 1, stop := bit (byteAt a 1) 2
      time := if bit (byteAt a 1) 0 then fld a 32 8 else 0
      dds := { running := true, ftw := fld a 4 6, phase := fld a 10 6, ref := if bit (byteAt a 1) 0 then fld a 32 8 else 0, amp := fld a 16 4,
               offset := toI 32 (fld a 20 4), mtch := fld a 24 6 } }] }).setWork slot (.dac n))) ∧
  (∀ s d slot a n r, Admits s 0x0303 d slot a → firstBad a ((1, 0xFE) :: rsv 2 2 ++ (if bit (byteAt a 1) 0 then rsv 4 28 else nvReserved.map fun e => (e.1 + 4, e.2))) = none →
    n = byteAt a 0 → n < 64 → (bit (byteAt a 1) 0 = false → r = readNv (a.drop 4)) →
    (bit (byteAt a 1) 0 = true → r = { code := (s.dac n).present, range := (s.dac n).range, senseLocal := (s.dac n).senseNow, limit := (s.dac n).limit
                                       step := (s.dac n).step, rate := (s.dac n).rate, period := (s.dac n).period, dwell := (s.dac n).dwell }) → r.ok = true →
    (s.keepLocked = true → ∀ ok, exec (.dacNvStore d ok) s = .next ((s.admitted d slot a).final slot stLOCKED 0 0)) ∧
    (s.keepLocked = false → exec (.dacNvStore d false) s = .next ((s.admitted d slot a).final slot stFAULT 0 0)) ∧
    (s.keepLocked = false → exec (.dacNvStore d true) s =
      .next ((({ s.admitted d slot a with keep := { s.keep with dacUps := Tbl.set none n (some r.bytes) s.keep.dacUps } } : State).setDac n
        { s.dac n with nv := r }).final slot stOK 0 0))) ∧
  (∀ s d slot a n, Admits s 0x0304 d slot a → firstBad a ((1, 0xFE) :: rsv 8 8) = none → n = byteAt a 0 → n < 64 → 1 ≤ fld a 2 2 → 1000 ≤ fld a 4 4 → fld a 4 4 ≤ 1000000 →
    (s.region (n / 8)).failed = false → (s.region (n / 8)).ready = true →
    exec (.slewConfig d) s = .next (((s.admitted d slot a).setDac n { s.dac n with newSlew := (s.dac n).newSlew ++ [(slot, bit (byteAt a 1) 0, fld a 2 2, fld a 4 4)] }).setWork slot (.dac n))) ∧
  (∀ s d slot a, Admits s 0x0304 d slot a → firstBad a ((1, 0xFE) :: rsv 8 8) = none → (64 ≤ byteAt a 0 ∨ fld a 2 2 = 0 ∨ fld a 4 4 < 1000 ∨ 1000000 < fld a 4 4) →
    exec (.slewConfig d) s = .next ((s.admitted d slot a).final slot stRANGE 0 0))

/-- What happens on a DAC channel in time (07 R180, R183, R188-R199; 09 R247). -/
def Obligations.DacEventsComplete : Prop :=
  (∀ s t n, n < 64 → (s.atCount t).dacCount = t → t % (s.dac n).period = 0 → (s.dac n).lastConv ≠ some t → 2 ≤ (s.dac n).upStep →
    exec (.dacUpdate t n) s = .next ((((s.atCount t).dacTargets n t).dacTick n t).dacConvert n t)) ∧
  (∀ s t n, n < 64 → (s.atCount t).dacCount = t → 2 ≤ (s.dac n).upStep → exec (.slewTick t n) s = .next ((s.atCount t).dacTick n t)) ∧
  (∀ s t n data valid, n < 64 → ((s.dac n).source = 2 ∨ (∃ r, (s.dac n).rc = some r ∧ r.source = 2) ∨ (∃ c ∈ (s.dac n).outs, c.source = 2)) →
    ((s.dac n).busHeld = false →
      exec (.dacBusCapture t n data valid) s = .next ((s.atCount t).setDac n { s.dac n with capData := data % 2 ^ 20, capValid := valid })) ∧
    ((s.dac n).busHeld = true → exec (.dacBusCapture t n data valid) s = .next (s.atCount t))) ∧
  (∀ s t n, n < 64 → (s.at t).now = t → ((s.dac n).ddsAt t).wraps t = true →
    exec (.ddsWrap t n) s = .next (((s.at t).convs.filter fun e => e.2.listens 4 (2 * n) false).foldl (fun s e => (s.acceptTrig e.1).1) (s.at t))) ∧
  (∀ s t n, n < 64 → (s.at t).now = t → ((s.dac n).ddsAt t).matches_ t = true →
    exec (.ddsMatch t n) s = .next (((s.at t).convs.filter fun e => e.2.listens 4 (2 * n + 1) false).foldl (fun s e => (s.acceptTrig e.1).1) (s.at t))) ∧
  (∀ s t n r, n < 64 → (s.dac n).upStep = 2 → (s.atCount t).storedNv n = some r →
    exec (.dacPowerupRange t n) s = .next ((s.atCount t).setDac n { s.dac n with
      upStep := 3, nv := r, range := r.range, senseLocal := r.senseLocal, senseNow := r.senseLocal, limit := r.limit
      step := r.step, rate := r.rate, period := r.period, dwell := r.dwell })) ∧
  (∀ s t n r, n < 64 → (s.dac n).upStep = 2 → (s.atCount t).storedNv n = none → r = ({} : NvRec) →
    exec (.dacPowerupRange t n) s = .next (((s.atCount t).setDac n { s.dac n with
      upStep := 3, nv := r, range := r.range, senseLocal := r.senseLocal, senseNow := r.senseLocal, limit := r.limit
      step := r.step, rate := r.rate, period := r.period, dwell := r.dwell, nvDefaulted := true }).log 0x400 3 (dacIdx n) 0 0)) ∧
  (∀ s t n, n < 64 → (s.dac n).upStep = 3 → exec (.dacPowerupEnable t n) s = .next ((s.atCount t).setDac n { s.dac n with
      upStep := 4, out := 0, conv := 0, source := 0, code := (s.dac n).nv.code, target := (s.dac n).nv.code, moving := some true
      rampStep := (s.dac n).nv.step, rampRate := (s.dac n).nv.rate, lastTick := some t, shortSince := none })) ∧
  (∀ s t, exec (.dacSupplyLoss t) s = .next (((List.range 64).filter fun n => decide (2 ≤ (s.dac n).upStep) && !(s.dac n).tripped).foldl (fun s n => s.dacDown n) (s.atCount t))) ∧
  (∀ s t n r, n < 64 → (s.dac n).rc = some r → r.phase = 2 → r.since + 5000 ≤ (s.atCount t).dacCount →
    exec (.rangeSwitch t n) s = .next ((s.atCount t).setDac n { s.dac n with
      range := r.range, rc := some { r with phase := 3 }, out := 0, target := if r.source = 0 then r.code else 0, lastTick := some t, lastUpd := some t })) ∧
  (∀ s t n u, n < 64 → (s.dac n).enabled = true → (s.dac n).tripped = false → (s.dac n).shortSince = none →
    u = ((s.atCount t).setDac n { s.dac n with short := true, shortSince := some (s.atCount t).dacCount }).bump (uDac n) 1 →
    ((s.dac n).short = false → exec (.dacShort t n) s = .next (u.log 0x402 3 (dacIdx n) (s.dac n).limit 0)) ∧
    ((s.dac n).short = true → exec (.dacShort t n) s = .next u)) ∧
  (∀ s t n, n < 64 → exec (.shortLimitReleased t n) s = .next ((s.atCount t).setDac n { s.dac n with shortSince := none })) ∧
  (∀ s t n (from_ : Int) (d : Dac), n < 64 → (s.dac n).shortSince = some from_ → (s.dac n).tripped = false → (s.dac n).dwell ≠ 0 →
    from_ + 250000 * ((s.dac n).dwell : Int) ≤ ((s.atCount t).dacCount : Int) →
    ((s.dac n).rc = none → d = { s.dac n with tripped := true, shortSince := none, moving := none }) →
    ((s.dac n).rc ≠ none → d = { s.dac n with tripped := true, shortSince := none, rc := none, moving := none, source := 0, code := 0 }) →
    exec (.dacTrip t n) s = .next ((((((s.atCount t).setDac n d).rangeCut n).endOuts n ((s.dac n).outs.filter fun c => decide (c.st ≠ 0)) stFAULT).bump (uDac n) 2).log
      0x403 3 (dacIdx n) (s.dac n).dwell 0)) ∧
  (∀ s t n mv, n < 64 → (s.dac n).enabled = true → (s.dac n).tripped = false → (s.dac n).senseNow = false → 1200 < mv →
    exec (.dacSenseOpen t n mv) s = .next ((((s.atCount t).setDac n { s.dac n with senseNow := true, senseOpen := true }).bump (uDac n) 3).log 0x401 3 (dacIdx n) mv 0))

/-- Streams (11 R310-R315; 12 R345, R346; 17 R459) and MSI-X messages (11 R321). -/
def Obligations.StreamsComplete : Prop :=
  (∀ s d slot a n cs, Admits s 0x0500 d slot a → firstBad a ((1, 0xFE) :: rsv 2 2) = none → n = byteAt a 0 → n < 64 → fld a 4 4 ≤ 60000 → cs = maskConvs a 8 →
    ((s.admitted d slot a).ds n).opened = false → ((s.admitted d slot a).ds n).enable = true →
    ((∃ c ∈ cs, (s.conv c).cfg.stream ≠ n ∧ (s.conv c).cfg.stream < 64 ∧ (s.ds (s.conv c).cfg.stream).opened = true) →
      exec (.streamOpen d) s = .next ((s.admitted d slot a).final slot stNO_RESOURCE 0 0)) ∧
    ((∀ c ∈ cs, (s.conv c).cfg.stream = n ∨ 64 ≤ (s.conv c).cfg.stream ∨ (s.ds (s.conv c).cfg.stream).opened = false) →
      (∀ c ∈ cs, (s.region (convRegion c)).failed = false ∧ (s.region (convRegion c)).ready = true) →
      ∃ u : State, exec (.streamOpen d) s = .next (u.finalObj slot 2 stOK 0 0) ∧ u.ds n = { (s.admitted d slot a).ds n with
        opened := true, handle := slot, dropSettling := bit (byteAt a 1) 0, flush := fld a 4 4, seq := 0, stage := [], cur := none, written := 0, closing := none } ∧
        (∀ c ∈ cs, (u.conv c).cfg.stream = n) ∧ (∀ c, c ∉ cs → (u.conv c).cfg = (s.conv c).cfg) ∧
        (∀ k, k ≠ n → u.ds k = (s.admitted d slot a).ds k) ∧ u.dacs = s.dacs ∧ u.til = s.til)) ∧
  (∀ s d slot a n, Admits s 0x0501 d slot a → firstBad a (rsv 2 6) = none → (s.consumed d).namesObj (fld a 0 2) 2 = true →
    (s.admitted d slot a).streamOf (fld a 0 2) = some n → ((s.admitted d slot a).ds n).closing = none →
    ∃ u : State, u = { s.admitted d slot a with convs := s.convs.map fun e => (e.1, { e.2 with link := e.2.link.filter fun r => decide (r.stream ≠ n) }) } ∧
      exec (.streamClose d) s = .next (((u.setDs n { u.ds n with closing := some (slot, 0) }).setWork slot (.close n)).closeStep n)) ∧
  (∀ s t c r l (u : State), c < 192 → (s.conv c).link = r :: l → u = ((s.at t).setConv c { s.conv c with link := l }).tokenFirst r →
    ((s.at t).olderWaits r = true → exec (.streamRecord t c) s = .next (s.at t)) ∧
    ((s.at t).olderWaits r = false →
      ((s.ds r.stream).opened = false ∨ (s.ds r.stream).closing ≠ none → exec (.streamRecord t c) s = .next u) ∧
      ((s.ds r.stream).opened = true → (s.ds r.stream).closing = none →
        ((s.ds r.stream).halted = true ∨ 512 ≤ (s.ds r.stream).stage.length →
          exec (.streamRecord t c) s = .next ((u.markLost r.src).bump (uDs r.stream) 2)) ∧
        ((s.ds r.stream).halted = false → (s.ds r.stream).stage.length < 512 →
          exec (.streamRecord t c) s = .next ((State.setDs { u with host := { s.host with gap := s.host.gap.filter fun k => decide (k ≠ r.src) } } r.stream
            { s.ds r.stream with stage := (s.ds r.stream).stage ++ [if s.host.gap.contains r.src then { r with flags := Nat.lor r.flags 64 } else r] }).drainAll
              r.stream))))) ∧
  (∀ s t n, n < 64 →
    (∀ b, (s.ds n).cur = some b → (s.ds n).flush ≠ 0 → b.used ≠ 0 → b.at_ + (s.ds n).flush * 250000 ≤ (s.at t).now →
      exec (.flushInterval t n) s = .next ((((s.at t).endBuf n 1 false).drainAll n).closeStep n)) ∧
    (((s.ds n).cur = none ∨ (s.ds n).flush = 0) → exec (.flushInterval t n) s = .next (((s.at t).drainAll n).closeStep n))) ∧
  (∀ s t n i b l, n < 64 → (s.ds n).posted = (i, b) :: l → (s.ds n).enable = true → (s.ds n).cur = none → (s.ds n).fetchStalled = false →
    exec (.streamFetchStall t n) s = .next (((s.at t).setDs n { s.ds n with fetchStalled := true }).log 0x601 5 (2 ^ 24 + n) i 0)) ∧
  (∀ s t v, v < 64 → s.time.localMode = false → s.host.pendVec.contains v = true → bit (s.msix v).ctrl 0 = false → Tbl.get 0 v s.host.vecNext ≤ (s.at t).now →
    exec (.msixMessage t v) s = .next { s.at t with
      host := { s.host with
        pendVec := s.host.pendVec.filter (fun k => decide (k ≠ v))
        vecNext := Tbl.set 0 v ((s.at t).now + 250 * Tbl.get 0 v s.host.coal) s.host.vecNext }
      out := s.out ++ [.msix v (s.msix v).addr (s.msix v).data] }) ∧
  (∀ s t v, v < 64 → (s.at t).now < Tbl.get 0 v s.host.vecNext → exec (.msixMessage t v) s = .next (s.at t))

/-- Doorbells (11 R290, R291, R313, R317-R320) and queue stalls (11 R301). -/
def Obligations.DoorbellsComplete : Prop :=
  (∀ s t q (v : Word), q < 16 → (s.at t).hostUp = true → s.chip.restarting = false → (s.cq q).enable = true → v.toNat % 65536 < 2 ^ (s.cq q).sqSize →
    exec (.submissionTail t q v 4) s = .next ((s.at t).setCq q { s.cq q with sqTail := v.toNat % 65536, stalled := false })) ∧
  (∀ s t q (v : Word), q < 16 → (s.at t).hostUp = true → s.chip.restarting = false → (s.cq q).enable = true → v.toNat % 65536 < 2 ^ (s.cq q).cqSize →
    exec (.completionHead t q v 4) s = .next ((s.at t).setCq q { s.cq q with cqHead := v.toNat % 65536 })) ∧
  (∀ s t n (v : Word) descs, n < 64 → (s.at t).hostUp = true → s.chip.restarting = false → (s.ds n).enable = true → v.toNat % 65536 < 2 ^ (s.ds n).bufSize →
    exec (.bufferRingTail t n v 4 descs) s = .next ((((s.at t).setDs n { s.ds n with
      posted := (s.ds n).posted ++ (s.at t).newDescs n (v.toNat % 65536) descs, bufTail := v.toNat % 65536, fetchStalled := false }).drainAll n).closeStep n)) ∧
  (∀ s t n (v : Word), n < 64 → (s.at t).hostUp = true → s.chip.restarting = false → (s.ds n).enable = true → v.toNat % 65536 < 2 ^ (s.ds n).evtSize →
    exec (.eventRingHead t n v 4) s = .next ((((s.at t).setDs n { s.ds n with evtHead := v.toNat % 65536 }).drainAll n).closeStep n)) ∧
  (∀ s t (v : Word), (s.at t).hostUp = true → s.chip.restarting = false → s.host.me.enable = true → v.toNat % 65536 < 2 ^ s.host.me.size →
    exec (.mgmtEventRingHead t v 4) s = .next ((({ s.at t with host := { s.host with me := { s.host.me with head := v.toNat % 65536 } } } : State)).meDrain 64)) ∧
  (∀ s t q (v : Word) w, q < 16 → (s.at t).hostUp = true → (w ≠ 4 ∨ (s.cq q).enable = false ∨ 2 ^ (s.cq q).sqSize ≤ v.toNat % 65536) →
    exec (.submissionTail t q v w) s = .next ((s.at t).log 0x603 5 (2 * 2 ^ 24 + 0x1000 * (q + 1)) v.toNat w)) ∧
  (∀ s t (v : BitVec 64), (s.at t).hostUp = true → haltOk v.toNat = true → bit v.toNat 44 = false → bits v.toNat 40 4 = 1 →
    exec (.halt t v 8) s = .next ((((haltItems v.toNat 1 64).foldl (fun s n => s.dacHalt n) (s.at t)).bump 0 1).log 0x604 5 (2 * 2 ^ 24) v.toNat 0)) ∧
  (∀ s t (v : BitVec 64), (s.at t).hostUp = true → haltOk v.toNat = true → bit v.toNat 44 = false →
    ∃ u, exec (.halt t v 8) s = .next u ∧ (∀ c ∈ haltItems v.toNat 2 192, c ∈ u.host.haltConv) ∧ (∀ k ∈ haltItems v.toNat 3 64, k ∈ u.host.haltCmp) ∧
      (∀ c, c ∈ s.host.haltConv → c ∈ u.host.haltConv)) ∧
  (∀ s t (v : BitVec 64) (u w : State), (s.at t).hostUp = true → haltOk v.toNat = true → bit v.toNat 44 = false →
    u = { s.at t with host := { s.host with haltConv := addAll s.host.haltConv (haltItems v.toNat 2 192), haltCmp := addAll s.host.haltCmp (haltItems v.toNat 3 64) } } →
    w = ((haltItems v.toNat 1 64).foldl (fun s n => s.dacHalt n) (((haltItems v.toNat 0 64).filter fun n => !(u.ds n).halted).foldl (fun s n => s.haltStream n) u)).clearSource
      3 (haltItems v.toNat 3 64).contains →
    exec (.halt t v 8) s = .next ((((haltItems v.toNat 2 192).foldl (fun s c => s.setConv c (clearTrigs (s.conv c))) w).bump 0 1).log 0x604 5 (2 * 2 ^ 24) v.toNat 0)) ∧
  (∀ s t (v : BitVec 64) (u : State), (s.at t).hostUp = true → haltOk v.toNat = true → bit v.toNat 44 = true →
    u = { s.at t with host := { s.host with
      haltConv := s.host.haltConv.filter (fun c => !(haltItems v.toNat 2 192).contains c)
      haltCmp := s.host.haltCmp.filter fun k => !(haltItems v.toNat 3 64).contains k } } →
    exec (.release t v 8) s = .next (((((haltItems v.toNat 0 64).filter fun n => (u.ds n).halted).foldl
      (fun s n => (s.setDs n { s.ds n with halted := false }).drainAll n) u).bump 0 1).log 0x604 5 (2 * 2 ^ 24) v.toNat 0)) ∧
  (∀ s t q, q < 16 → (s.cq q).enable = true → (s.cq q).draining = false → (s.cq q).stalled = false → (s.cq q).sqHead ≠ (s.cq q).sqTail →
    exec (.queueStalled t q) s = .next ((((s.at t).setCq q { s.cq q with stalled := true }).bump (uCq q) 2).log 0x600 5 q (s.cq q).sqHead 0))

/-- Ring enables (18 R477-R479; 11 R288, R289). -/
def Obligations.RingEnablesComplete : Prop :=
  (∀ s t q (v : Word), q < 16 → (s.at t).hostUp = true → s.chip.restarting = false → (s.cq q).enable = false → bit v.toNat 0 = true →
    sizeOk (bits v.toNat 8 4) = true → sizeOk (bits v.toNat 12 4) = true →
    (baseOk (s.cq q).sqBase (bits v.toNat 8 4) 64 = true → baseOk (s.cq q).cqBase (bits v.toNat 12 4) 32 = true →
      exec (.cqEnable t q v) s = .next ((s.at t).setCq q { s.cq q with
        vector := bits v.toNat 16 6, sqSize := bits v.toNat 8 4, cqSize := bits v.toNat 12 4, enable := true, draining := false, configError := false
        stalled := false, sqTail := 0, sqHead := 0, cqTail := 0, cqHead := 0, phase := true })) ∧
    (baseOk (s.cq q).sqBase (bits v.toNat 8 4) 64 = false →
      exec (.cqEnable t q v) s = .next ((s.at t).setCq q { s.cq q with
        vector := bits v.toNat 16 6, sqSize := bits v.toNat 8 4, cqSize := bits v.toNat 12 4, configError := true }))) ∧
  (∀ s t q (v : Word), q < 16 → (s.at t).hostUp = true → s.chip.restarting = false → (s.cq q).enable = true → bit v.toNat 0 = false →
    sizeOk (bits v.toNat 8 4) = true → sizeOk (bits v.toNat 12 4) = true →
    exec (.cqDisable t q v) s = .next ((s.at t).setCq q (if (s.cq q).owed = 0 then { s.cq q with vector := bits v.toNat 16 6, enable := false, draining := false }
      else { s.cq q with vector := bits v.toNat 16 6, draining := true }))) ∧
  (∀ s t n (v : Word), n < 64 → (s.at t).hostUp = true → (s.ds n).enable = false → bit v.toNat 0 = true → sizeOk (bits v.toNat 8 4) = true →
    sizeOk (bits v.toNat 12 4) = true → baseOk (s.ds n).bufBase (bits v.toNat 8 4) 16 = true → baseOk (s.ds n).evtBase (bits v.toNat 12 4) 16 = true →
    exec (.dsEnable t n v) s = .next ((s.at t).setDs n { s.ds n with
      vector := bits v.toNat 16 6, bufSize := bits v.toNat 8 4, evtSize := bits v.toNat 12 4, enable := true, configError := false
      bufTail := 0, bufHead := 0, evtTail := 0, evtHead := 0, phase := true, posted := [], cur := none, fetchStalled := false })) ∧
  (∀ s t n (v : Word), n < 64 → (s.at t).hostUp = true → (s.ds n).enable = true → bit v.toNat 0 = false → sizeOk (bits v.toNat 8 4) = true →
    sizeOk (bits v.toNat 12 4) = true →
    exec (.dsDisable t n v) s = .next (if (s.ds n).opened then s.at t else (s.at t).setDs n { s.ds n with vector := bits v.toNat 16 6, enable := false })) ∧
  (∀ s t (v : Word), (s.at t).hostUp = true → s.chip.restarting = false → s.host.me.enable = false → bit v.toNat 0 = true → sizeOk (bits v.toNat 8 4) = true →
    baseOk s.host.me.base (bits v.toNat 8 4) 32 = true →
    exec (.meEnable t v) s = .next { s.at t with host := { s.host with me := { s.host.me with
      vector := bits v.toNat 16 6, size := bits v.toNat 8 4, enable := true, configError := false, tail := 0, head := 0, phase := true, held := [], overflow := false } } }) ∧
  (∀ s t (v : Word), (s.at t).hostUp = true → s.chip.restarting = false → s.host.me.enable = true → bit v.toNat 0 = false → sizeOk (bits v.toNat 8 4) = true →
    exec (.meDisable t v) s = .next { s.at t with host := { s.host with me := { s.host.me with vector := bits v.toNat 16 6, enable := false } } })

/-- Memory commands (09 R259-R264; 12 R356). -/
def Obligations.MemoryCommandsComplete : Prop :=
  (∀ s d data granted slot a len sp, Admits s 0x0A00 d slot a → sp = fld a 8 4 → len = fld a 12 4 → fld a 0 8 % 4 = 0 → sp % 4 = 0 → len % 4 = 0 →
    (s.admitted d slot a).bufOk (fld a 0 8) len = true → len ≠ 0 → sp + len ≤ 2097152 → len ≤ 4 * granted → (s.admitted d slot a).memBehind slot = false →
    (∀ b, sp / 32768 ≤ b → 32768 * b < sp + len → (s.block b).quarantined = false ∧ (s.block b).stopped = false) →
    exec (.memCopyIn d data granted) s = .next (((((s.admitted d slot a).spWrite sp (((s.admitted d slot a).hostRead (fld a 0 8) len data).take len)).countDma sp len).final slot stOK len 0).memNext)) ∧
  (∀ s d data granted slot a len sp fin, Admits s 0x0A00 d slot a → sp = fld a 8 4 → len = fld a 12 4 → fld a 0 8 % 4 = 0 → sp % 4 = 0 → len % 4 = 0 →
    (s.admitted d slot a).bufOk (fld a 0 8) len = true → sp + len ≤ 2097152 → fin = 4 * granted → fin < len → (s.admitted d slot a).memBehind slot = false →
    (∀ b, sp / 32768 ≤ b → 32768 * b < sp + len → (s.block b).quarantined = false ∧ (s.block b).stopped = false) →
    exec (.memCopyIn d data granted) s = .next (((((s.admitted d slot a).spWrite sp (((s.admitted d slot a).hostRead (fld a 0 8) len data).take fin)).countDma sp fin).setWork
      slot (.mem (sp + fin) fin (.memCopyIn d data granted))).memNext)) ∧
  (∀ s d granted slot a len sp, Admits s 0x0A01 d slot a → sp = fld a 8 4 → len = fld a 12 4 → fld a 0 8 % 4 = 0 → sp % 4 = 0 → len % 4 = 0 →
    (s.admitted d slot a).bufOk (fld a 0 8) len = true → len ≠ 0 → sp + len ≤ 2097152 → len ≤ 4 * granted → (s.admitted d slot a).memBehind slot = false →
    (∀ b, sp / 32768 ≤ b → 32768 * b < sp + len → (s.block b).quarantined = false ∧ (s.block b).stopped = false) →
    exec (.memCopyOut d granted none []) s = .next (((((s.admitted d slot a).hostWrite (fld a 0 8) ((s.admitted d slot a).spRead sp len)).countDma sp len).final slot stOK len 0).memNext)) ∧
  (∀ s d granted slot a len sp x k, Admits s 0x0A01 d slot a → sp = fld a 8 4 → len = fld a 12 4 → fld a 0 8 % 4 = 0 → sp % 4 = 0 → len % 4 = 0 →
    (s.admitted d slot a).bufOk (fld a 0 8) len = true → sp + len ≤ 2097152 → len ≤ 4 * granted → (s.admitted d slot a).memBehind slot = false →
    sp ≤ x → x < sp + len → k = (x - sp) / 4 * 4 →
    (∀ b, sp / 32768 ≤ b → 32768 * b < sp + len → (s.block b).quarantined = false ∧ (s.block b).stopped = false) →
    exec (.memCopyOut d granted (some x) []) s =
      .next ((((((s.admitted d slot a).hostWrite (fld a 0 8) ((s.admitted d slot a).spRead sp k)).countDma sp k).spUncorrectable (sp + k)).final slot stFAULT k 0).memNext)) ∧
  (∀ s d slot a at_ old new, Admits s 0x0A02 d slot a → firstBad a (rsv 1 3 ++ rsv 12 4) = none → at_ = fld a 4 4 → byteAt a 0 ≤ 1 → at_ % 4 = 0 → at_ + 4 ≤ 2097152 →
    (s.admitted d slot a).memBehind slot = false → (s.block (at_ / 32768)).quarantined = false → (s.block (at_ / 32768)).stopped = false →
    old = (s.admitted d slot a).spWord at_ → new = (if byteAt a 0 = 0 then (old + fld a 8 4) % 2 ^ 32 else fld a 8 4 % 2 ^ 32) →
    exec (.memAtomic d true 0) s = .next (((((s.admitted d slot a).spPut at_ new).bump (uBk (at_ / 32768)) 1).final slot stOK old 0).memNext) ∧
    exec (.memAtomic d true 1) s = .next ((((((s.admitted d slot a).spCorrected at_).spPut at_ new).bump (uBk (at_ / 32768)) 1).final slot stOK old 0).memNext) ∧
    exec (.memAtomic d true 2) s = .next ((((s.admitted d slot a).spUncorrectable at_).final slot stFAULT 0 0).memNext) ∧
    (∀ ecc, exec (.memAtomic d false ecc) s = .next (((s.admitted d slot a).setWork slot (.mem at_ 0 (.memAtomic d false ecc))).memNext))) ∧
  (∀ s t slot at_ done c, ((s.at t).hnd slot).work = .mem at_ done c → ((s.at t).hnd slot).st = 1 → (s.block (at_ / 32768)).stopped = false →
    (s.at t).memBehind slot = false →
    exec (.dmaTimeout t slot) s = .next (((((s.at t).bump (uBk (at_ / 32768)) 4).log 0x503 2 (at_ / 32768) at_ 0).final slot stTIMEOUT done 0).memNext))

/-- The scratchpad's fabric port and the drive checker (09 R253, R260-R266). -/
def Obligations.FabricPortsComplete : Prop :=
  (∀ s t b addr be (w : Word) a, b < 64 → a = 32768 * b + 4 * (addr % 8192) → (s.block b).stopped = false → s.clocksGated (b / 8) = false →
    (s.block b).quarantined = false → s.time.localMode = false → (Tbl.get {} b s.fab.ports).req = none →
    exec (.scratchpadFabricRequest t b 0 addr be w 0) s = .next (((s.at t).bump (uBk b) 0).fabReply b ((s.at t).spWord a) false) ∧
    exec (.scratchpadFabricRequest t b 1 addr be w 0) s = .next ((((s.at t).bump (uBk b) 0).spWordBE a (be % 16) w.toNat).fabReplyFree b false) ∧
    exec (.scratchpadFabricRequest t b 2 addr be w 0) s = .next ((((s.at t).bump (uBk b) 0).spPut a (((s.at t).spWord a + w.toNat) % 2 ^ 32)).fabReply b ((s.at t).spWord a) false) ∧
    exec (.scratchpadFabricRequest t b 3 addr be w 0) s = .next ((((s.at t).bump (uBk b) 0).spPut a w.toNat).fabReply b ((s.at t).spWord a) false)) ∧
  (∀ s t b op addr be (w : Word) ecc, b < 64 → op < 4 → (s.block b).stopped = true → s.clocksGated (b / 8) = false → (Tbl.get {} b s.fab.ports).req = none →
    exec (.scratchpadFabricRequest t b op addr be w ecc) s = .next { s.at t with fab := { s.fab with
      ports := Tbl.set {} b { Tbl.get {} b s.fab.ports with req := some (op, addr, be, w.toNat, ecc) } s.fab.ports } }) ∧
  (∀ s t b op addr be (w : Word), b < 64 → op = 0 ∨ op = 2 ∨ op = 3 → (s.block b).stopped = false → s.clocksGated (b / 8) = false → (s.block b).quarantined = false →
    s.time.localMode = false → (Tbl.get {} b s.fab.ports).req = none →
    exec (.scratchpadFabricRequest t b op addr be w 2) s = .next (((s.at t).spUncorrectable (32768 * b + 4 * (addr % 8192))).fabReplyFree b true)) ∧
  (∀ s t b op addr be (w : Word) ecc, b < 64 → op < 4 → (Tbl.get {} b s.fab.ports).req = none → (s.block b).stopped = false → s.clocksGated (b / 8) = false → (s.block b).quarantined = true →
    ∃ u : State, exec (.scratchpadFabricRequest t b op addr be w ecc) s = .next u ∧ u.fab.spad = s.fab.spad ∧ u.til = s.til ∧
      ∃ r, u.out = s.out ++ [.fabric b r true]) ∧
  (∀ s t b e, b < 64 → (s.block b).stopped = false → s.fab.scrub.find? (fun x => x.1 == b) = some e →
    exec (.scrubWriteback t b) s = .next (({ s.at t with fab := { s.fab with scrub := s.fab.scrub.erase e } } : State).spPut e.2 ((s.at t).spWord e.2))) ∧
  (∀ s t k w, 38208 ≤ k → k < 49152 → w < 8 → 2 ≤ (s.drivers k w).length →
    ∃ u : State, exec (.fabricContention t k w) s = .next u ∧ u.fab.disabled = s.fab.disabled ++ [(k, w)] ∧ (u.led (segEntry k)).state = 3 ∧
      (u.led (segEntry k)).health = 0 ∧ (u.led (segEntry k)).detail = Nat.lor (s.led (segEntry k)).detail (2 ^ w) ∧
      u.convs = s.convs ∧ u.dacs = s.dacs ∧ u.fab.frames = s.fab.frames)

/-- Read-back (09 R255-R258; 12 R348). -/
def Obligations.ReadbackComplete : Prop :=
  (∀ s d slot a sc ix (r : Readback), Admits s 0x0602 d slot a → sc = byteAt a 0 → ix = fld a 2 2 →
    firstBad a ((1, 0xFE) :: rsv 4 4 ++ (if bit (byteAt a 1) 0 then [] else rsv 8 8) ++ rsv 28 4) = none → s.scopeLoading sc ix = false →
    s.husk.debugLocked = false → s.husk.fuses.debugDisable = false → scopeOk sc ix = true → fld a 16 8 % 8 = 0 →
    144 * (scopeBlocks sc ix).length ≤ fld a 24 4 → (s.admitted d slot a).bufOk (fld a 16 8) (fld a 24 4) = true →
    r = { id := slot, blocks := scopeBlocks sc ix, time := if (fld a 8 8 ≤ (s.at d.t).now) then (s.at d.t).now + 1 else fld a 8 8, addr := fld a 16 8 } →
    exec (.readback d) s = .next (({ s.admitted d slot a with
      fab := { (s.admitted d slot a).fab with
        readbacks := (s.admitted d slot a).fab.readbacks ++ [r] } } : State).setWork slot .readback)) ∧
  (∀ s t id (r : Readback) edges (r' : Readback) (u : State), s.fab.readbacks.find? (fun r => r.id == id) = some r → r.captured = false →
    r.time ≤ (s.at t).now → s.fab.readbacks.any (fun x => x.captured) = false →
    r' = { r with captured := true, absent := r.blocks.filter fun b => (s.region (b / 8)).loading || s.clocksGated (b / 8) } →
    u = State.runLogic { s.at t with fab := { s.fab with shadow := [] } } r edges →
    exec (.readbackCapture t id edges) s = .next ((u.setReadback id (some r')).stopNext r' (List.range 8)) ∧
    (edges = [] → Tbl.wf 0 s.fab.ff = true → ∀ n, Tbl.get 0 n u.fab.shadow = if r.blocks.contains (n / 512) then Tbl.get 0 n s.fab.ff else 0)) ∧
  (∀ s t id b (r : Readback) (r' : Readback) (u : State), s.fab.readbacks.find? (fun r => r.id == id) = some r → r.captured = true → r.blocks.contains b = true →
    (s.block b).stopped = true → r.recs.any (fun e => e.1 == b) = false → r' = { r with recs := Tbl.set [] b ((s.at t).ffRecord r b) r.recs } →
    u = ((((s.at t).setBlock b { s.block b with stopped := false }).setReadback id (some r')).stopNext r' [b / 8]).memResume b →
    (r'.recs.length < r.blocks.length → exec (.readbackBlockDone t id b) s = .next u) ∧
    (r.blocks.length ≤ r'.recs.length → id ≠ 0x1000 → exec (.readbackBlockDone t id b) s =
      .next ((({ u with fab := { u.fab with readbacks := u.fab.readbacks.filter (fun x => decide (x.id ≠ id)), shadow := [] } } : State).hostWrite r.addr
        (r'.recs.flatMap fun e => e.2)).final id stOK (r.blocks.length - r.absent.length) r.absent.length)) ∧
    (r.blocks.length ≤ r'.recs.length → id = 0x1000 → exec (.readbackBlockDone t id b) s =
      .next (State.emit { u with fab := { u.fab with readbacks := u.fab.readbacks.filter (fun x => decide (x.id ≠ id)), shadow := [] }
                                 boot := { u.boot with cfgOpen := false, cfgResult := 0 } } (.cfg (r'.recs.flatMap fun e => e.2)))))

/-- User PLLs and global trees (18 R480, R482, R483; 09 R249, R250). -/
def Obligations.UserClocksComplete : Prop :=
  (∀ s t n (v : Word) (p : Upll), n < 4 → (s.at t).hostUp = true → 8 ≤ bits v.toNat 4 8 →
    p = { s.upll n with mul := bits v.toNat 4 8, prediv := bits v.toNat 12 4, postdiv := bits v.toNat 16 7 } →
    (bit v.toNat 0 = true → p.ok s.refKHz = true → exec (.upllEnable t n v) s = .next (State.treesChanged (s.at t) ((s.at t).setUpll n
      { p with enable := true, configError := false, locked := (s.upll n).locked && decide (p = s.upll n) }))) ∧
    (bit v.toNat 0 = true → p.ok s.refKHz = false → exec (.upllEnable t n v) s = .next (State.treesChanged (s.at t) ((s.at t).setUpll n
      { p with enable := false, configError := true, locked := false }))) ∧
    (bit v.toNat 0 = false → exec (.upllEnable t n v) s = .next (State.treesChanged (s.at t) ((s.at t).setUpll n
      { p with enable := false, configError := false, locked := false })))) ∧
  (∀ s t n, n < 4 → (s.upll n).enable = true → (s.upll n).ok s.refKHz = true →
    exec (.upllLock t n) s = .next ((s.at t).setUpll n { s.upll n with locked := true })) ∧
  (∀ s t g (v : Word), g < 8 → (s.at t).hostUp = true → gckIndexOk (bits v.toNat 1 3) (bits v.toNat 4 10) = true → v.toNat % 2 = (s.gck g).mode →
    exec (.gckSetup t g false v) s = .next (State.treesChanged (s.at t) ((s.at t).setGck g { s.gck g with
      kind := bits v.toNat 1 3, index := bits v.toNat 4 10, div := bits v.toNat 14 8, loss := bits v.toNat 22 1, deassert := bits v.toNat 23 3
      activeLow := bit v.toNat 26
      lost := (s.gck g).lost && decide (bits v.toNat 1 3 = (s.gck g).kind) && decide (bits v.toNat 4 10 = (s.gck g).index) }))) ∧
  (∀ s t g (v : Word), g < 8 → (s.at t).hostUp = true → 1 ≤ bits v.toNat 0 19 → bits v.toNat 0 19 ≤ 350000 →
    exec (.gckSetup t g true v) s = .next ((s.at t).setGck g { s.gck g with khz := bits v.toNat 0 19 })) ∧
  (∀ s t g khz, g < 8 → (s.gck g).mode = 0 → (s.gck g).lost = false → (10 * khz < 9 * (s.gck g).khz ∨ 11 * (s.gck g).khz < 10 * khz) →
    exec (.gckLoss t g khz) s = .next (State.treesChanged (s.at t) ((((s.at t).setGck g { s.gck g with lost := true }).bump (uGck g) 0).log 0x505 4 0 g khz))) ∧
  (∀ s t g khz, g < 8 → (s.gck g).mode = 0 → (s.gck g).lost = true → 9 * (s.gck g).khz ≤ 10 * khz → 10 * khz ≤ 11 * (s.gck g).khz →
    exec (.gckRestored t g khz) s = .next (((s.at t).setGck g { s.gck g with lost := false }).log 0x506 4 0 g khz)) ∧
  (∀ s t g (u : State), g < 8 → (s.gck g).mode = 1 → (s.gck g).asserted = false → u = (s.at t).setGck g { s.gck g with asserted := true } →
    exec (.resetTreeAssert t g) s = .next
      (((List.range 8).flatMap fun r => if (u.clocksGated r) then [] else (u.lcsOf r).filter fun n => u.lcResetBy n g && u.lcAsync n).foldl
        (fun s n => s.setFF n (if (s.isGuarded n) then 0 else s.lcResetVal n)) u)) ∧
  (∀ s t g, g < 8 → (s.gck g).mode = 1 → 9 ≤ s.time.step → (s.at t).treeRuns (s.gck g).deassert = true →
    exec (.resetTreeDeassert t g) s = .next ((s.at t).setGck g { s.gck g with asserted := false }))

/-- The timebase, its reference and SYNC_IN (10 R272-R276; 14 R399; 18 R480, R481). The latency is a constant of Config that nothing fixes. -/
def Obligations.TimebaseEventsComplete : Prop :=
  (∀ s t (v : Word), (s.at t).hostUp = true → bits v.toNat 0 2 ≤ 1 →
    ∃ u : State, exec (.referenceSelect t v) s = .next u ∧ u.clk.refSource = bits v.toNat 0 2 ∧ u.clk.refFreq = bits v.toNat 2 2 ∧
      u.clk.lock = s.clk.lock - 2 * bits s.clk.lock 1 1 ∧ u.time = (s.at t).time ∧ u.convs = s.convs) ∧
  (∀ s t (v : Word), (s.at t).hostUp = true → bits v.toNat 0 2 ≤ 2 →
    exec (.syncModeWrite t v) s = .next { s.at t with clk := { s.clk with syncMode := bits v.toNat 0 2, syncLast := (s.at t).now } }) ∧
  (∀ s t, s.clk.refLost = false → s.time.running = true →
    exec (.refLost t) s = .next ((({ s.at t with clk := { s.clk with refLost := true, lock := s.clk.lock - 2 * bits s.clk.lock 1 1 } } : State).bump 0 8).log 0x507 4 0 0 0)) ∧
  (∀ s t, s.time.running = true → s.clk.refLost = true →
    exec (.refRestored t) s = .next { s.at t with clk := { s.clk with refLost := false, lock := Nat.lor s.clk.lock 2 } }) ∧
  (∀ s t, exec (.timebaseUpdate t) s = .next (s.at t)) ∧
  (∀ s t new, s.time.running = true → 7 ≤ s.time.step → s.clk.syncMode = 1 → new = (s.clk.tbPreset + Config.syncLatency) % 2 ^ 64 →
    ∃ u : State, exec (.syncInEdge t) s = .next u ∧ u.time.timebase = new ∧ u.clk.syncMode = 2 ∧ u.clk.syncLast = new ∧ u.til = s.til ∧
      (new ≠ ((s.at t).now + Config.syncLatency) % 2 ^ 64 → u.clk.rephasing = true) ∧
      (new = ((s.at t).now + Config.syncLatency) % 2 ^ 64 → u.convs = s.convs ∧ u.dacs = s.dacs ∧ u.chip = s.chip)) ∧
  (∀ s t, s.time.running = true → 7 ≤ s.time.step → s.clk.syncMode = 2 → (s.at t).now ≤ s.clk.tbPreset + 1 → s.clk.tbPreset ≤ (s.at t).now + 1 →
    exec (.syncInEdge t) s = .next { s.at t with clk := { s.clk with syncLast := (s.at t).now } }) ∧
  (∀ s t, s.time.running = true → 7 ≤ s.time.step → s.clk.syncMode = 2 → ((s.at t).now > s.clk.tbPreset + 1 ∨ s.clk.tbPreset > (s.at t).now + 1) →
    exec (.syncInEdge t) s = .next ((({ s.at t with clk := { s.clk with syncLast := (s.at t).now } } : State).bump 0 7).log 0x50A 4 0
      (ofI 64 (((s.at t).now : Int) - s.clk.tbPreset)) 0)) ∧
  (∀ s t, s.time.running = true → 7 ≤ s.time.step → s.clk.syncMode = 0 → exec (.syncInEdge t) s = .next (s.at t)) ∧
  (∀ s t, s.time.running = true → 7 ≤ s.time.step → s.clk.syncMode = 2 → s.clk.syncPeriod ≠ 0 → 2 * s.clk.syncLast + 3 * s.clk.syncPeriod ≤ 2 * (s.at t).now →
    exec (.syncInMissing t) s = .next ((({ s.at t with clk := { s.clk with syncLast := s.clk.syncLast + s.clk.syncPeriod } } : State).bump 0 7).log 0x50A 4 0 0 1)) ∧
  (∀ s t, s.clk.rephasing = true → (∀ c < 192, (s.conv c).rephase = false) →
    exec (.timebaseRephase t) s = .next { s.at t with clk := { s.clk with rephasing := false } })

/-- Compare units (10 R277; 18 R471, R480, R484). -/
def Obligations.CompareUnitsComplete : Prop :=
  (∀ s t u (v : Word), u < 64 → (s.at t).hostUp = true →
    exec (.cmpLoWrite t u v) s = .next { (s.at t).setCmp u { s.cmp u with armed := false } with
      host := { s.host with loHold := Tbl.set 0 (0x1104 + 12 * u) v.toNat s.host.loHold } }) ∧
  (∀ s t u (v : Word) x, u < 64 → (s.at t).hostUp = true → x = Tbl.get 0 (0x1104 + 12 * u) s.host.loHold + 2 ^ 32 * v.toNat →
    ((s.at t).now < x → exec (.cmpHiWrite t u v) s = .next ((s.at t).setCmp u { s.cmp u with value := x, armed := true })) ∧
    (x ≤ (s.at t).now → (s.cmp u).period = 0 → exec (.cmpHiWrite t u v) s = .next ((s.at t).setCmp u { s.cmp u with value := x, armed := false })) ∧
    (x ≤ (s.at t).now → (s.cmp u).period ≠ 0 → exec (.cmpHiWrite t u v) s = .next ((s.at t).setCmp u { s.cmp u with
      value := x + (((s.at t).now - x) / (s.cmp u).period + 1) * (s.cmp u).period, armed := true }))) ∧
  (∀ s t u (v : Word), u < 64 → (s.at t).hostUp = true → exec (.cmpPeriodWrite t u v) s = .next ((s.at t).setCmp u { s.cmp u with period := v.toNat })) ∧
  (∀ s t r (v : Word), r < 2 → (s.at t).hostUp = true → Tbl.wf {} s.clk.cmp = true →
    ∃ u : State, exec (.cmpDisarm t r v) s = .next u ∧
      (∀ i < 32, u.cmp (32 * r + i) = if (bit v.toNat i = true) then { s.cmp (32 * r + i) with armed := false } else s.cmp (32 * r + i)) ∧
      (∀ k, k / 32 ≠ r → u.cmp k = s.cmp k) ∧ u.time = (s.at t).time ∧ u.convs = s.convs ∧ u.out = s.out) ∧
  (∀ s t u (c : Cmp), u < 64 → (s.cmp u).armed = true → s.time.running = true → (s.at t).now = (s.cmp u).value →
    c = (if ((s.cmp u).period = 0) then { s.cmp u with armed := false } else { s.cmp u with value := (s.cmp u).value + (s.cmp u).period }) →
    (u ≠ 63 → exec (.timebaseCompare t u) s = .next { (s.at t).setCmp u c with out := s.out ++ [.event 3 u] }) ∧
    (u = 63 → exec (.timebaseCompare t u) s = .next { (s.at t).setCmp u c with out := s.out ++ [.event 3 u, .syncOut (s.syncPins 0)] })) ∧
  (∀ s t u, u < 64 → (s.at t).now ≠ (s.cmp u).value → exec (.timebaseCompare t u) s = .next (s.at t))

/-- Sheaf snapshots (10 R278-R285; 12 R349). -/
def Obligations.SnapshotsComplete : Prop :=
  (∀ s d slot a e, Admits s 0x0700 d slot a → firstBad a ((0, 0xFC) :: rsv 1 3) = none → 53440 ≤ fld a 4 4 → fld a 8 8 % 8 = 0 →
    (s.admitted d slot a).bufOk (fld a 8 8) (fld a 4 4) = true → e = (s.sheaf.epoch + 1) % 2 ^ 32 →
    (s.sheaf.run = none → s.sheaf.wait = [] → exec (.snapshot d) s = .next (({ s.admitted d slot a with sheaf := { s.sheaf with
      epoch := e, run := some { slot := slot, epoch := e, flags := byteAt a 0, addr := fld a 8 8, injected := (s.at d.t).now } } } : State).setWork slot .snapshot)) ∧
    (s.sheaf.run ≠ none → s.sheaf.wait.length < 16 → exec (.snapshot d) s = .next (({ s.admitted d slot a with sheaf := { s.sheaf with
      epoch := e, wait := s.sheaf.wait ++ [(slot, e, byteAt a 0, fld a 8 8)] } } : State).setWork slot .snapshot))) ∧
  (∀ s t u p, u < 417 → s.sheaf.run = some p → p.cut.contains u = false → p.absent.contains u = false → s.unitStopped u = false → s.unitGated u = true →
    exec (.sheafToken t u) s = .next { s.at t with sheaf := { s.sheaf with run := some { p with absent := p.absent ++ [u] } } }) ∧
  (∀ s t u p, u < 417 → s.sheaf.run = some p → p.cut.contains u = false → p.absent.contains u = false → s.unitStopped u = false → s.unitGated u = false →
    Tbl.wf {} p.shadow = true → Tbl.wf {} s.chip.counters = true →
    ∃ v q, exec (.sheafToken t u) s = .next v ∧ v.sheaf.run = some q ∧ q.cut = p.cut ++ [u] ∧ q.absent = p.absent ∧ q.epoch = p.epoch ∧
      (∀ k < (unitSlots u).1, Tbl.get {} (16 * u + k) q.shadow = s.ctr u k ∧ v.ctr u k = clearCtr p.flags (isErrCtr u k) (s.ctr u k)) ∧
      (∀ i, ¬(16 * u ≤ i ∧ i < 16 * u + (unitSlots u).1) → Tbl.get {} i q.shadow = Tbl.get {} i p.shadow ∧ Tbl.get {} i v.chip.counters = Tbl.get {} i s.chip.counters) ∧
      v.convs = s.convs ∧ v.til = s.til ∧ v.fab = s.fab ∧ v.host = s.host) ∧
  -- 10 R271, R279: the token that a converter has sent ahead of a record cuts the record's stream before the record counts
  (∀ (s : State) r p, s.sheaf.run = some p → r.epoch = p.epoch → r.epoch ≠ 0 → p.cut.contains (uDs r.stream) = false →
    ∃ q, (s.tokenFirst r).sheaf.run = some q ∧ q.cut = p.cut ++ [uDs r.stream] ∧ (s.tokenFirst r).host = s.host ∧ (s.tokenFirst r).convs = s.convs) ∧
  (∀ (s : State) r p, s.sheaf.run = some p → r.epoch ≠ p.epoch → s.tokenFirst r = s) ∧
  (∀ s t p, s.sheaf.run = some p → p.missing = [] → s.chip.restarting = false → s.chip.failed = false →
    exec (.snapshotComplete t) s = .next ((({ (s.at t).hostWrite p.addr (p.table (s.at t).now) with sheaf := { s.sheaf with run := none } } : State).final p.slot stOK
      p.epoch (p.absent.length + p.timedOut.length)).injectNext)) ∧
  (∀ s t p, s.sheaf.run = some p → p.missing ≠ [] → p.injected + 250000 ≤ (s.at t).now → s.chip.restarting = false → s.chip.failed = false →
    exec (.sheafTimeout t) s = .next ((p.missing.foldl (fun s u => (s.bump 0 9).log 0x108 4 u p.epoch 0) (s.at t)).endSnapshot { p with timedOut := p.missing } stDEGRADED))

/-- Pin mappings and GPIO (12 R354, R355; 16 R435-R442). -/
def Obligations.PinCommandsComplete : Prop :=
  (∀ s d es slot a n b l, Admits s 0x0900 d slot a → firstBad a (rsv 1 7) = none → n = byteAt a 0 → 1 ≤ n → n ≤ 64 → fld a 8 8 % 8 = 0 →
    (s.admitted d slot a).bufOk (fld a 8 8) (8 * n) = true → b = (s.admitted d slot a).hostRead (fld a 8 8) (8 * n) es →
    l = (List.range n).map (fun i => readPinMap b i) → entriesBad b n = false →
    (s.mapsStatus l = stOK → exec (.pinMap d es) s = .next (((s.admitted d slot a).queueMaps (some slot) l).setWork slot .pins)) ∧
    (s.mapsStatus l ≠ stOK → exec (.pinMap d es) s = .next ((s.admitted d slot a).final slot (s.mapsStatus l) 0 0))) ∧
  (∀ s d slot a b w m (u : State), Admits s 0x0901 d slot a → firstBad a (rsv 1 3) = none → b = byteAt a 0 → b < 12 → w = fld a 4 4 → m = s.gpioMask b w →
    u = (s.admitted d slot a).setBank b { s.bank b with out := (s.bank b).out - Nat.land (s.bank b).out m + Nat.land (w % 65536) m } →
    exec (.gpioWriteMasked d) s = .next (u.final slot stOK (u.bank b).out (w / 65536 - m))) ∧
  (∀ s t b (v : Word), b < 12 → (s.at t).hostUp = true → exec (.pinOut t b v) s = .next ((s.at t).setBank b { s.bank b with out := v.toNat % 65536 })) ∧
  (∀ s t b (v : Word) m, b < 12 → (s.at t).hostUp = true → m = s.gpioMask b v.toNat →
    exec (.pinOutMasked t b v) s = .next ((s.at t).setBank b { s.bank b with out := (s.bank b).out - Nat.land (s.bank b).out m + Nat.land (v.toNat % 65536) m })) ∧
  (∀ s t p (level : Bool) (u : State), p < 192 → (s.pinS p).level ≠ level → (level = true → (s.bank (p / 16)).powered = true) →
    u = (s.at t).setPinS p { s.pinS p with level := level } →
    ((u.sigsOf (s.pinS p).own).find? (fun g => decide (g < 32) && decide (u.sigPin g = some p)) = none → exec (.pinInputChange t p level) s = .next u) ∧
    (∀ g, (u.sigsOf (s.pinS p).own).find? (fun g => decide (g < 32) && decide (u.sigPin g = some p)) = some g →
      exec (.pinInputChange t p level) s = .next { u with out := s.out ++ [.event 2 g] })) ∧
  (∀ s t e rest (u : State), s.pin.switches = e :: rest → u = State.switchPin { s.at t with pin := { s.pin with switches := rest } } e.pin e.map →
    (e.group = [] → exec (.functionSwitch t) s = .next u) ∧
    (∀ h, e.group ≠ [] → e.slot = some h → u.dupSigs e.group = [] → exec (.functionSwitch t) s = .next (u.final h stOK e.group.length 0)))

/-- Banks (16 R427-R430; 18 R485-R487). -/
def Obligations.BankEventsComplete : Prop :=
  (∀ s t b (v : Word) (u : State), b < 12 → (s.at t).hostUp = true → bits v.toNat 0 3 ≤ 4 →
    u = (s.at t).setBank b { s.bank b with vccio := bits v.toNat 0 3, cfgPull := bits v.toNat 4 2 } →
    exec (.pinBankVccio t b v) s = .next (if (bits v.toNat 0 3 = (s.bank b).vccio) then u else u.reswitch (u.mappedIn b))) ∧
  (∀ s t k (v : Word) n, k < 4 → (s.at t).hostUp = true →
    (∀ i < 8, bits v.toNat (4 * i) 2 ≤ 2 ∧ diffInOk (bits v.toNat (4 * i) 2) (s.bank k).vccio = true) →
    n = ((List.range 8).map fun i => bits v.toNat (4 * i) 3 * 2 ^ (4 * i)).sum →
    exec (.pinDiff t k v) s = .next (State.reswitch { s.at t with pin := { s.pin with diff := Tbl.set 0 k n s.pin.diff } }
      (((List.range 8).filter fun i => decide (bits n (4 * i) 3 ≠ bits (Tbl.get 0 k s.pin.diff) (4 * i) 3) && (s.pinS (16 * k + 2 * i)).own.isSome).map
        fun i => 16 * k + 2 * i))) ∧
  (∀ s t b mv, b < 12 → (s.bank b).powered = true → (s.bank b).fault = false → (s.bank b).near mv = false →
    ∃ u : State, exec (.bankSupplyFault t b mv) s = .next u ∧ u.bank b = { s.bank b with fault := true, measured := mv } ∧
      (∀ p ∈ s.bankPins b, (u.pinS p).hiz = true) ∧ (∀ k, k ≠ b → u.bank k = s.bank k) ∧ u.convs = s.convs ∧ u.dacs = s.dacs ∧ u.time = (s.at t).time) ∧
  (∀ s t b mv, b < 12 → (s.bank b).fault = true → (s.bank b).near mv = true → Tbl.wf {} s.pin.banks = true →
    ∃ u : State, exec (.bankSupplyRestored t b mv) s = .next u ∧ u.bank b = { s.bank b with fault := false, measured := mv } ∧
      (∀ k, k ≠ b → u.bank k = s.bank k) ∧ u.convs = s.convs ∧ u.chip = s.chip ∧ u.time = (s.at t).time)

/-- Hard serial ports (16 R445-R447). -/
def Obligations.PortsComplete : Prop :=
  (∀ s t k, k < 6 → s.clocksGated k = false → (s.at t).portOwned k = false →
    exec (.portStatus t k) s = .next (((s.at t).setPort k { s.port k with overrun := false, error := false, arbLost := false, timeout := false }).portReply k
      (s.port k).status false) ∧
    (∀ w, (s.port k).tx.length < 32 → exec (.portTx t k w) s = .next (((s.at t).setPort k { s.port k with tx := (s.port k).tx ++ [w % 4096] }).portReply k 0 false)) ∧
    (∀ w, 32 ≤ (s.port k).tx.length → exec (.portTx t k w) s = .next ((s.at t).portErr k)) ∧
    (∀ e l, (s.port k).rx = e :: l → exec (.portRx t k) s = .next (((s.at t).setPort k { s.port k with rx := l }).portReply k (e.1 + 256 * b2n e.2) false)) ∧
    ((s.port k).rx = [] → exec (.portRx t k) s = .next ((s.at t).portErr k)) ∧
    (∀ w p, (s.port k).control k (w % 65536) = some p → exec (.portControl t k w) s = .next (((s.at t).setPort k p).portReply k 0 false)) ∧
    (∀ w, (s.port k).control k (w % 65536) = none → exec (.portControl t k w) s = .next ((s.at t).portErr k))) ∧
  (∀ s t k byte err b, k < 6 → (s.port k).enabled = true → (s.at t).portOwned k = false → b = (if (portKind k = 2 ∧ bit (s.port k).mode 3 = true) then byte % 128 else byte % 256) →
    ((s.port k).rx.length < 32 → exec (.portByteReceived t k byte err) s = .next ((s.at t).setPort k { s.port k with
      rx := (s.port k).rx ++ [(b, err && decide (portKind k ≠ 0))], error := (s.port k).error || (err && decide (portKind k ≠ 0)) })) ∧
    (32 ≤ (s.port k).rx.length → exec (.portByteReceived t k byte err) s = .next ((s.at t).setPort k { s.port k with
      overrun := true, error := (s.port k).error || (err && decide (portKind k ≠ 0)) }))) ∧
  (∀ s t k (arb nack : Bool) w rest, k < 6 → portKind k ≠ 1 → (s.port k).enabled = true → (s.at t).portOwned k = false → (s.port k).tx = w :: rest →
    (portKind k = 0 ∨ bit w 8 = false) →
    exec (.portByteSent t k arb nack) s = .next { (s.at t).setPort k { s.port k with
        tx := rest, cs := if (portKind k = 0 ∧ bit (s.port k).mode 0 = false ∧ bit w 8 = false) then some (bits w 9 2) else none } with
      out := s.out ++ [.port k (toLE 1 (if (portKind k = 2 ∧ bit (s.port k).mode 3 = true) then w % 128 else w))] }) ∧
  (∀ s t k (arb nack : Bool) w rest, k < 6 → portKind k = 1 → (s.port k).enabled = true → (s.at t).portOwned k = false → (s.port k).tx = w :: rest →
    ∃ u : State, exec (.portByteSent t k arb nack) s = .next u ∧
      u.pin = ((s.at t).setPort k { s.port k with tx := rest, arbLost := (s.port k).arbLost || arb, error := (s.port k).error || nack, cs := none }).pin ∧
      u.out = (if (arb = true ∨ bit w 10 = true) then s.out else s.out ++ [.port k (toLE 1 w)])) ∧
  (∀ s t k, k < 6 → portKind k = 1 → (s.port k).enabled = true → bit (s.port k).mode 2 = true →
    exec (.smbusTimeout t k) s = .next ((s.at t).setPort k { s.port k with timeout := true }))

/-- User serial lanes (16 R451-R453; 18 R480). -/
def Obligations.UserLanesComplete : Prop :=
  (∀ s t l (v : Word) same, l < 8 → (s.at t).hostUp = true → 8 ≤ bits v.toNat 1 8 → bits v.toNat 1 8 ≤ 128 →
    same = (bit v.toNat 0 && (s.lane l).enable && decide (bits v.toNat 1 8 = (s.lane l).rate)) →
    exec (.ulEnable t l v) s = .next ((s.at t).setLane l { s.lane l with
      enable := bit v.toNat 0, rate := bits v.toNat 1 8, txTree := bits v.toNat 9 3, rxTree := bits v.toNat 12 3, deemph := bits v.toNat 15 4
      lock := (s.lane l).lock && same, rxBuf := if (same = true) then (s.lane l).rxBuf else [] })) ∧
  (∀ s t l, l < 8 → (s.lane l).enable = true → exec (.ulLock t l) s = .next ((s.at t).setLane l { s.lane l with lock := true })) ∧
  (∀ s t l, l < 8 → exec (.ulLockLost t l) s = .next ((s.at t).setLane l { s.lane l with lock := false })) ∧
  (∀ s t l (b : BitVec 66) (r : Bool), l < 8 → (s.at t).laneClock l (s.lane l).txTree = true →
    (r = true → (s.lane l).enable = true → exec (.ulTxBlock t l b r) s = .next { s.at t with out := s.out ++ [.lane l b.toNat] }) ∧
    ((r = false ∨ (s.lane l).enable = false) → exec (.ulTxBlock t l b r) s = .next ((s.at t).log 0x902 4 0 l 1))) ∧
  (∀ s t l (b : BitVec 66), l < 8 → (s.lane l).enable = true → (s.lane l).lock = true →
    ((s.at t).laneClock l (s.lane l).rxTree = true → exec (.ulRxBlock t l b) s = .next { (s.at t).setLane l { s.lane l with rxBuf := [] } with
      out := s.out ++ ((s.lane l).rxBuf ++ [b.toNat]).map fun x => .fabric (128 + l) x false }) ∧
    ((s.at t).laneClock l (s.lane l).rxTree = false → (s.lane l).rxBuf.length < 8 →
      exec (.ulRxBlock t l b) s = .next ((s.at t).setLane l { s.lane l with rxBuf := (s.lane l).rxBuf ++ [b.toNat] })) ∧
    ((s.at t).laneClock l (s.lane l).rxTree = false → 8 ≤ (s.lane l).rxBuf.length → exec (.ulRxBlock t l b) s = .next ((s.at t).log 0x903 4 0 l 1)) ∧
    exec (.ulRxOverflow t l) s = .next ((s.at t).log 0x903 4 0 l 1))

/-- The beginning of loads (12 R347; 13 R358, R359, R377, R380, R383). -/
def Obligations.LoadsBegin : Prop :=
  (∀ s d h slot a so n b (u : State) (l : Load), Admits s 0x0600 d slot a → loadBad false a = none → s.load 8 = none → so = byteAt a 0 → n = byteAt a 1 →
    loadRange so n (fld a 4 4) = true → (s.admitted d slot a).imageOk a = true → b = (s.admitted d slot a).headerOf so n (fld a 8 8) (fld a 4 4) h → 3520 ≤ b.length →
    l = { mode := 2, source := so, imgSlot := n, slot := some slot, len := imageLen a, head := slice b 0 3520, hdr := readHdr b, stage := 1, start := (s.at d.t).now } →
    u = (((s.admitted d slot a).setWork slot (.load 8)).readSlot so n).setLoad 8 (some l) →
    (headerOk b 0xFF (imageMax so n) = true → identityOk b = true → exec (.personaLoad d h) s = .next u) ∧
    (headerOk b 0xFF (imageMax so n) = false → exec (.personaLoad d h) s = .next ((u.logLoad 8 l 0x701 0).failLoad 8 1))) ∧
  (∀ s d h slot a so r n b (v : State) (l : Load), Admits s 0x0601 d slot a → loadBad true a = none → so = byteAt a 0 → r = byteAt a 1 → n = byteAt a 2 → r < 8 →
    (s.region r).loading = false → (s.region r).failed = false → (s.region r).ready = true → loadRange so n (fld a 4 4) = true → (s.admitted d slot a).imageOk a = true →
    v = (s.admitted d slot a).setRegion r { s.region r with loading := true } → b = v.headerOf so n (fld a 8 8) (fld a 4 4) h → 3520 ≤ b.length →
    l = { mode := 5, source := so, imgSlot := n, slot := some slot, len := imageLen a, head := slice b 0 3520, hdr := readHdr b, stage := 1, start := (s.at d.t).now } →
    headerOk b r (imageMax so n) = true → identityOk b = true →
    exec (.regionLoad d h) s = .next (((v.setWork slot (.load r)).readSlot so n).setLoad r (some l))) ∧
  (∀ s t h k so n b (l : Load), s.time.step = 5 → s.time.selftestFail = false → s.boot.trying = true → s.boot.hostWaiting = false → s.load 8 = none →
    s.husk.halted = false → s.chip.restarting = false → s.chip.failed = false → k = s.boot.tryNext → k < 6 → (k < 5 → bit s.boot.slotSkip k = false) →
    (so, n) = slotOrder.getD k (2, 1) → b = (s.at t).headerOf so n 0 0 h →
    (fld b 0 4 = 0x4150484C → 3520 ≤ b.length → headerOk b 0xFF (imageMax so n) = true → identityOk b = true →
      l = { mode := 0, source := so, imgSlot := n, head := slice b 0 3520, hdr := readHdr b, stage := 1, start := (s.at t).now } →
      exec (.personaSlotTry t h) s = .next (((s.at t).readSlot so n).setLoad 8 (some l))) ∧
    (fld b 0 4 ≠ 0x4150484C → k < 5 → ∃ u : State, exec (.personaSlotTry t h) s = .next u ∧ u.boot = { s.boot with tryNext := k + 1 } ∧
      u.fab.frames = s.fab.frames ∧ u.convs = s.convs ∧ u.dacs = s.dacs ∧ u.time = (s.at t).time))

/-- Checks of a load (13 R364, R374-R378). -/
def Obligations.LoadChecksComplete : Prop :=
  (∀ s t w (ed ml : Bool) tk l, s.load w = some l → l.stage = 1 → sigBlockOk l.head 128 = true → s.verifyKey l = true →
    (8 ≤ w → ed = true → ml = true → exec (.signatureVerified t w ed ml tk) s = .next ((s.at t).setLoad w (some { l with stage := 3 }))) ∧
    ((ed = false ∨ ml = false) → exec (.signatureVerified t w ed ml tk) s =
      .next (((s.at t).logLoad w l 0x703 (b2n (!ed) + 2 * b2n (!ml))).failLoad w 2)) ∧
    (w < 8 → ed = true → ml = true → ∀ mine (u : State), mine = tk.filter (fun g => (s.graph g).any fun x => decide (x.phase = 7) && x.within w) →
      u = ((s.at t).setLoad w (some { l with stage := 2, taken := mine })).yieldTest w 1 →
      exec (.signatureVerified t w ed ml tk) s = .next (u.evacuate ((u.fnsIn w).filter fun f => !mine.contains f.1)))) ∧
  (∀ s t w (ed ml : Bool) tk l, s.load w = some l → l.stage = 1 → (sigBlockOk l.head 128 = false ∨ s.verifyKey l = false) →
    exec (.signatureVerified t w ed ml tk) s = .next (((s.at t).logLoad w l 0x703 3).failLoad w 2)) ∧
  (∀ s t w l stored key, s.load w = some l → l.stage = 3 → l.encrypted = true → l.epoch < l.epochs →
    ((l.epoch = 0 ∧ ∃ k, s.bodyKey l = some k ∧ key = l.nextKey k 0) ∨ (l.epoch ≠ 0 ∧ key = l.key)) →
    (l.epochGiven = false → exec (.personaEpoch t w stored) s = .next (s.at t)) ∧
    (∀ p, l.epochGiven = true → gcmOpen key (l.iv l.epoch) (l.aad l.epoch) stored = some p → exec (.personaEpoch t w stored) s = .next ((s.at t).setLoad w (some { l with
      epoch := l.epoch + 1, key := if l.epoch + 1 = l.epochs then [] else l.nextKey key (l.epoch + 1), plain := l.plain ++ p }))) ∧
    (l.epochGiven = true → gcmOpen key (l.iv l.epoch) (l.aad l.epoch) stored = none →
      exec (.personaEpoch t w stored) s = .next (((s.at t).logLoad w l 0x704 l.epoch).failLoad w 3))) ∧
  (∀ s t w l, s.load w = some l → 1 ≤ l.stage → l.stage ≤ 3 →
    exec (.personaEarlyEnd t w) s = .next (((s.at t).logLoad w l 0x709 0).failLoad w 5) ∧
    (l.start + 1250000000 ≤ (s.at t).now → exec (.personaTimeout t w) s = .next (((s.at t).logLoad w l 0x70A 0).failLoad w 6)) ∧
    ((s.at t).now < l.start + 1250000000 → exec (.personaTimeout t w) s = .next (s.at t)))

/-- Records (13 R365-R372, R377, R379). Those of an encrypted body are the next bytes of its plaintext; `x` is what the load reads
next, of which the record is its length in bytes. Straw's data area is the factory's (log 26). -/
def Obligations.RecordsComplete : Prop :=
  (∀ s t w rec l x r a b, s.load w = some l → l.stage = 3 → x = (if l.encrypted = true then l.plain else rec) → l.used + 268 ≤ l.avail → byteAt x 0 = 1 →
    r = slice x 0 268 → firstBad r (rsv 1 3) = none → a = fld r 4 4 → b = slice r 8 256 → l.addrOk a = true →
    (crc32c b = fld r 264 4 → exec (.frame t w rec) s = .next ((if (l.writes = true) then (s.at t).writeFrame a b else s.at t).setLoad w (some { (l.took r 268) with
      written := l.written + 1, secGot := l.secGot + 1, crcs := Tbl.set none a (some (fld r 264 4)) l.crcs, addrs := l.addrs ++ [a] }))) ∧
    (crc32c b ≠ fld r 264 4 → exec (.frame t w rec) s = .next (((s.at t).logLoad w l 0x706 a).failLoad w 4))) ∧
  (∀ s t w rec l x r n c src dst k, s.load w = some l → l.stage = 3 → x = (if l.encrypted = true then l.plain else rec) → byteAt x 0 = 2 → n = 8 + 4 * fld x 2 2 →
    l.used + n ≤ l.avail → r = slice x 0 n → c = fld r 2 2 → byteAt r 1 = 0 → src = fld r 4 4 → dst = (List.range c).map (fun i => fld r (8 + 4 * i) 4) → 1 ≤ c → c ≤ 1024 →
    l.compressed = true → (∀ y ∈ dst, l.addrOk y = true) → nodupB dst = true → Tbl.get none src l.crcs = some k →
    (l.writes = true → crc32c (s.readFrame src) = k →
      exec (.repeatRecord t w rec) s = .next ((dst.foldl (fun u y => u.writeFrame y (s.readFrame src)) (s.at t)).setLoad w (some { (l.took r (8 + 4 * c)) with
        written := l.written + c, secGot := l.secGot + c, addrs := l.addrs ++ dst }))) ∧
    (l.writes = true → crc32c (s.readFrame src) ≠ k → exec (.repeatRecord t w rec) s = .next (((s.at t).logLoad w l 0x706 src).failLoad w 4)) ∧
    (l.writes = false → exec (.repeatRecord t w rec) s = .next ((s.at t).setLoad w (some { (l.took r (8 + 4 * c)) with
      written := l.written + c, secGot := l.secGot + c, addrs := l.addrs ++ dst })))) ∧
  (∀ s t w rec l x r n (l' : Load), s.load w = some l → l.stage = 3 → x = (if l.encrypted = true then l.plain else rec) → l.used + 8 ≤ l.avail → byteAt x 0 = 3 →
    r = slice x 0 8 → firstBad r (rsv 2 2) = none → n = byteAt r 1 → l.nextSection w = some n → l' = { (l.took r 8) with
      sect := some n, secWant := fld r 4 4, secGot := 0, secBad := l.sectionBad, crcs := [], begun := l.begun || l.writes } →
    (l.writes = false → exec (.regionMark t w rec) s = .next ((s.at t).setLoad w (some l'))) ∧
    (w < 8 → l.writes = true →
      exec (.regionMark t w rec) s = .next ((((s.at t).retestGroups fun k => decide (groupHome k = w)).clearFrames n).setLoad w (some l'))) ∧
    (8 ≤ w → l.writes = true → l.begun = true → exec (.regionMark t w rec) s = .next (((s.at t).clearFrames n).setLoad w (some l'))) ∧
    (8 ≤ w → l.writes = true → l.begun = false → ∀ u : State, u = (s.at t).retestGroups (fun _ => true) →
      (u.boot.loaded.valid = true → exec (.regionMark t w rec) s = .next ((u.stopPersona.clearFrames n).setLoad w (some l'))) ∧
      (u.boot.loaded.valid = false → exec (.regionMark t w rec) s = .next ((u.clearFrames n).setLoad w (some l'))))) ∧
  (∀ s t w rec l x r d, s.load w = some l → l.stage = 3 → x = (if l.encrypted = true then l.plain else rec) → l.used + 60 = l.total → l.used + 60 ≤ l.avail →
    byteAt x 0 = 15 → r = slice x 0 60 → firstBad r (rsv 1 3) = none → l.sect = some (if (w < 8) then w else 7) → fld r 4 4 = l.written → l.hdr.frames = l.written →
    fld r 8 4 = l.records → l.sectionBad = false → d = slice r 12 48 →
    ((l.took r 12).sha.digest = d → d = l.hdr.digest →
      (w < 8 → exec (.endRecord t w rec) s = .next ((s.at t).setLoad w (some { (l.took r 12) with stage := 6 }))) ∧
      (8 ≤ w → l.writes = false → ∀ u : State, u = (s.at t).setLoad 8 none →
        exec (.endRecord t w rec) s = .next { u with boot := { u.boot with fallback := some l.head, cfgResult := 0, cfgFrames := l.written } }) ∧
      (8 ≤ w → l.writes = true → ∃ u : State, exec (.endRecord t w rec) s = .next u ∧ u.time.step = 6 ∧ u.boot.doneDriven = false ∧ u.boot.fallow = false ∧
        u.boot.loaded.valid = true ∧ u.boot.loaded.source = l.source ∧ u.boot.loaded.slot = l.imgSlot ∧ u.boot.loaded.version = l.hdr.version ∧
        u.boot.loaded.digest = l.hdr.digest ∧ u.boot.doneReleasedAt = some (s.at t).now ∧ u.boot.doneSlot = l.slot ∧ u.fab.latch = [] ∧ u.dacs = s.dacs ∧ u.convs = s.convs ∧
        (¬ (l.source = 2 ∧ l.imgSlot = 1) → u.fab.frames = s.fab.frames))) ∧
    (((l.took r 12).sha.digest ≠ d ∨ d ≠ l.hdr.digest) → exec (.endRecord t w rec) s = .next (((s.at t).logLoad w l 0x708 0).failLoad w 2)))

/-- Isolation and release of a region, and the data area at start-up (13 R384-R388; 14 R400). -/
def Obligations.RegionReleaseComplete : Prop :=
  (∀ s t r l, r < 8 → s.load r = some l → l.stage = 2 → s.evacuations r = [] → s.ctrlOk r = true →
    ∃ u : State, exec (.regionIsolation t r) s = .next u ∧
      u.load r = some { l with stage := 3, begun := true, susp := s.fnsIn r, heldFns := ((s.fnsIn r).filter fun f => !l.taken.contains f.1).length } ∧
      (s.fnsIn r = [] → (u.region r).isolated = true)) ∧
  (∀ s t r meas l (u v w : State) n, r < 8 → s.load r = some l → (s.ctrlOk r = true ∨ (s.region r).failed = true) → l.stage = 6 →
    u = (((s.at t).setRegion r { s.region r with isolated := false, fallow := false }).initFFs r).releaseLatches r →
    v = (List.range 64).foldl (fun s n => if n / 8 = r then s.setDac n { s.dac n with busHeld := false } else s) u →
    w = v.reswitch ((v.pin.pins.filter fun e => e.2.own.any (mapsRegion r)).map (·.1)) → n = ((w.items r).filter fun e => decide (e.2.1 = 1)).length →
    exec (.regionClockRelease t r meas) s = .next (((((w.pinItems (some r) (w.items r)).applyItems (some r) l.taken (w.items r) meas).placeSuspended l
      (meas.drop n)).endRegion r l).cellsFreed.resume)) ∧
  (∀ s t r meas l, r < 8 → s.load r = some l → (s.ctrlOk r = true ∨ (s.region r).failed = true) → l.stage = 7 →
    exec (.regionClockRelease t r meas) s = .next ((((s.at t).placeSuspended l meas).endRegion r l).cellsFreed.resume)) ∧
  (∀ s t meas, s.time.step = 10 → s.time.done = false → s.husk.halted = false → s.chip.restarting = false → s.chip.failed = false →
    (∀ r < 8, (s.region r).ready = true ∨ (s.region r).failed = true) →
    exec (.dataAreaApply t meas) s = .next (((s.at t).applyItems none [] s.allItems meas).completeStart))

/-- Husk's commands (12 R352, R353; 15 R414-R426). The answers of signatures are operands (log 6). -/
def Obligations.HuskCommandsComplete : Prop :=
  (∀ s d sg slot a, Admits s 0x0800 d slot a → firstBad a (rsv 44 4) = none → fld a 32 8 % 8 = 0 → 4096 ≤ fld a 40 4 →
    (s.admitted d slot a).bufOk (fld a 32 8) (fld a 40 4) = true →
    (s.husk.fuses.keyKill = 0 → s.husk.idErased = false → exec (.attest d sg) s = .next (((s.admitted d slot a).hostWrite (fld a 32 8)
      ((s.admitted d slot a).report (slice a 0 32) ++ slice sg 0 3373 ++ zeros 3)).final slot stOK 3648 0)) ∧
    ((s.husk.fuses.keyKill ≠ 0 ∨ s.husk.idErased = true) → exec (.attest d sg) s = .next ((s.admitted d slot a).final slot stLOCKED 0 0))) ∧
  (∀ s d blob cr slot a key fl len b p (u : State), Admits s 0x0801 d slot a → firstBad a ((1, 0xF0) :: rsv 4 4) = none → key = byteAt a 0 → fl = byteAt a 1 → len = fld a 2 2 →
    1 ≤ len → len ≤ 4096 → fld a 8 8 % 8 = 0 → (s.admitted d slot a).bufOk (fld a 8 8) len = true → provisionOk key fl = true → s.provisionLocked key = false →
    u = { s.admitted d slot a with husk := { s.husk with staged := none } } → b = u.hostRead (fld a 8 8) len blob → p = slice b 32 (payloadLen key fl) →
    (∀ r, fl = 2 → u.exported key = some r → r.length ≤ len → exec (.keyProvision d blob cr) s = .next ((u.hostWrite (fld a 8 8) r).final slot stOK 0 0)) ∧
    (fl = 1 → stagedOk b (key - 0x10) = true → exec (.keyProvision d blob cr) s =
      .next (State.final { u with husk := { u.husk with staged := some b } } slot stOK 0 0)) ∧
    (u.blobOk b key fl = true → cr.ed = true → cr.ml = true →
      (∀ r, fl = 0 → 0x10 ≤ key → key < 0x14 → s.husk.staged = some r → byteAt r 6 = key - 0x10 → sha384 r = p →
        (Tbl.get none (key - 0x10) s.husk.fuses.digests = some p ∨ Tbl.get none (key - 0x10) s.husk.fuses.digests = none) →
        (s.keyUsable 0 = true ∨ (key = 0x10 ∧ Tbl.get none 0 s.husk.fuses.digests = none)) →
        exec (.keyProvision d blob cr) s = .next ((State.setFuses { u with husk := { u.husk with flashKeys := Tbl.set none (key - 0x10) (some r) u.husk.flashKeys } }
          fun f => { f with digests := Tbl.set none (key - 0x10) (some p) f.digests }).final slot stOK 0 0)) ∧
      (s.keyUsable 0 = true →
        (fl = 8 → exec (.keyProvision d blob cr) s = .next ((u.setKey key none).final slot stOK 0 0)) ∧
        (∀ w k, fl = 0 → key < 8 → u.seedKey "LH8640 wrap" = some w → gcmOpen w (p.take 12) (slice b 0 32) (p.drop 12) = some k →
          exec (.keyProvision d blob cr) s = .next ((u.setKey key (some (slice k 0 32))).final slot stOK 0 0)) ∧
        (∀ w, fl = 0 → key < 8 → u.seedKey "LH8640 wrap" = some w → gcmOpen w (p.take 12) (slice b 0 32) (p.drop 12) = none →
          exec (.keyProvision d blob cr) s = .next (u.final slot stAUTH_FAIL 0 0)) ∧
        (fl = 4 → exec (.keyProvision d blob cr) s = .next ((u.setFuses fun f => { f with revoked := withBit f.revoked (key - 0x10) }).final slot stOK 0 0)) ∧
        (fl = 0 → key = 0x20 → exec (.keyProvision d blob cr) s = .next ((u.setFuses fun f => { f with personaSeed := some p }).final slot stOK 0 0)) ∧
        (fl = 0 → key = 0x28 → firstBad b ((32, 0xFE) :: rsv 33 3) = none → exec (.keyProvision d blob cr) s =
          .next ((u.setFuses fun f => { f with debugDisable := f.debugDisable || bit (byteAt p 0) 0 }).final slot stOK 0 0)))) ∧
    (u.blobOk b key fl = true → (cr.ed = false ∨ cr.ml = false ∨ s.keyUsable 0 = false) → (fl = 4 ∨ fl = 8 ∨ (fl = 0 ∧ (key < 8 ∨ key = 0x20))) →
      exec (.keyProvision d blob cr) s = .next (u.final slot stAUTH_FAIL 0 0))) ∧
  (∀ s d image cr (ok : Bool) slot a len b (u : State), Admits s 0x0802 d slot a → firstBad a ((0, 0xFE) :: rsv 1 1 ++ rsv 4 4) = none → len = fld a 2 2 → 1 ≤ len → len ≤ 4096 →
    fld a 8 8 % 8 = 0 → (s.admitted d slot a).bufOk (fld a 8 8) len = true → b = (s.admitted d slot a).hostRead (fld a 8 8) len image → policyLayout b = true →
    policyRange b = true → s.husk.fuses.policyLock = false → s.keepLocked = false →
    u = State.applyPolicy { s.admitted d slot a with keep := { s.keep with alarm := some b } } (readAlarmPolicy b) →
    ((s.keyUsable 0 = false ∨ cr.ed = false ∨ cr.ml = false) → exec (.alarmPolicy d image cr ok) s = .next ((s.admitted d slot a).final slot stAUTH_FAIL 0 0)) ∧
    (s.keyUsable 0 = true → cr.ed = true → cr.ml = true →
      (ok = false → exec (.alarmPolicy d image cr ok) s = .next ((s.admitted d slot a).final slot stFAULT 0 0)) ∧
      (ok = true → bit (byteAt a 0) 0 = false → exec (.alarmPolicy d image cr ok) s = .next (u.final slot stOK 0 0)) ∧
      (ok = true → bit (byteAt a 0) 0 = true → exec (.alarmPolicy d image cr ok) s = .next (State.final { u with husk := { u.husk with
        fuses := { u.husk.fuses with policyLock := true, policyDigest := sha384 b } } } slot stOK 0 0))))

/-- Husk's events (15 R408-R412, R423; 17 R468). -/
def Obligations.HuskEventsComplete : Prop :=
  (∀ s t n dt, n < 8 → (s.husk.policy.on n = true → exec (.huskAlarm t n dt) s =
      .next (State.raiseAlarm { s.at t with husk := { s.husk with active := withBit s.husk.active n } } n (s.husk.policy.cls n) dt)) ∧
    (s.husk.policy.on n = false → exec (.huskAlarm t n dt) s = .next (s.at t))) ∧
  (∀ s t n, n < 8 → (bit s.husk.active n = true → exec (.sensorInactive t n) s = .next { s.at t with husk := { s.husk with active := s.husk.active - 2 ^ n } }) ∧
    (bit s.husk.active n = false → exec (.sensorInactive t n) s = .next (s.at t))) ∧
  (∀ s t n c, n = 5 ∨ n = 6 → s.time.step = 1 → s.husk.aon.getD (n - 5) (0, false) = (c, true) → s.husk.latched.any (fun e => e.1 == n) = false →
    (c < 2 → exec (.tamperLatch t n) s = .next { s.at t with husk := { s.husk with latched := s.husk.latched ++ [(n, c)] } }) ∧
    (2 ≤ c → exec (.tamperLatch t n) s = .next { s.at t with husk := { s.husk with latched := s.husk.latched ++ [(n, c)], keyRam := [], keyCheck := [], keyValid := 0 } })) ∧
  (∀ s t, (s.husk.fuses.keyKillPending = true →
      exec (.keyKillBurn t) s = .next { s.at t with husk := { s.husk with fuses := { s.husk.fuses with keyKill := 7, keyKillPending := false } } }) ∧
    (s.husk.fuses.keyKillPending = false → exec (.keyKillBurn t) s = .next (s.at t))) ∧
  (∀ s t, (s.husk.captureDue = true → exec (.checkpointWrite t) s =
      .next { s.at t with keep := { s.keep with checkpoint := s.husk.capture.map LogEntry.bytes }, husk := { s.husk with capture := [], captureDue := false } }) ∧
    (s.husk.captureDue = false → exec (.checkpointWrite t) s = .next (s.at t)))

/-- Resets (14 R393-R395; 16 R449; 18 R473, R475, R477). -/
def Obligations.ResetsComplete : Prop :=
  (∀ s t (a b c : Bool), s.husk.latched = [] → ∃ u : State, exec (.por t a b c) s = .next u ∧ u.chip.resetCause = 1 ∧ u.time = { cfgPull := a, localMode := b, vrefSel := c } ∧
      u.chip.handles = [] ∧ u.chip.log = [] ∧ u.host = {} ∧ u.til = {} ∧ u.convs = [] ∧ u.dacs = [] ∧ u.fab = {} ∧ u.clk = {} ∧ u.pin = {} ∧ u.keep = s.keep ∧
      u.husk.fuses = s.husk.fuses ∧ u.husk.flashKeys = s.husk.flashKeys ∧ u.husk.keyRam = s.husk.keyRam ∧ u.boot = { fallback := s.boot.fallback }) ∧
  (∀ s t (a b c : Bool), s.husk.latched = [] → 3 ≤ s.time.step → ∃ u : State, exec (.brownout t a b c) s = .next u ∧ u.chip.resetCause = 2 ∧
      u.time = { cfgPull := a, localMode := b, vrefSel := c } ∧ u.chip.handles = [] ∧ u.host = {} ∧ u.til = {} ∧ u.convs = [] ∧ u.dacs = [] ∧ u.fab = {} ∧ u.keep = s.keep) ∧
  (∀ s t (a b c : Bool), s.time.step < 3 → exec (.brownout t a b c) s = .next (s.at t)) ∧
  (∀ s t ns, 1000 ≤ ns → s.time.running = true → ∃ u : State, exec (.resetN t ns) s = .next u ∧ u.time.step = 3 ∧ u.time.done = false ∧ u.chip.handles = [] ∧
      u.til = {} ∧ u.convs = [] ∧ u.boot.fallow = true ∧ u.chip.restarting = false ∧ u.husk.halted = false ∧ u.chip.resetCause = withBit s.chip.resetCause 2) ∧
  (∀ s t ns, ns < 1000 → exec (.resetN t ns) s = .next (s.at t)) ∧
  (∀ s t (v : Word), (s.at t).hostUp = true → s.time.running = true → bit v.toNat 0 = true → v.toNat / 65536 = 0xA5C3 →
    ∃ u : State, exec (.warmReset t v) s = .next u ∧ u.time.step = 3 ∧ u.time.done = false ∧ u.chip.handles = [] ∧ u.til = {} ∧ u.convs = [] ∧ u.boot.fallow = true ∧
      u.chip.resetCause = withBit s.chip.resetCause 3) ∧
  (∀ s t (v : Word), v.toNat / 65536 ≠ 0xA5C3 → exec (.warmReset t v) s = .next (s.at t)) ∧
  (∀ s t, s.inFlight = [] → s.chip.handles = [] → s.til.graphs = [] → ∃ u : State, exec (.perst t) s = .next u ∧ u.host.cqs = [] ∧ u.host.dss = [] ∧ u.host.me = {} ∧ u.host.share = 12 ∧
      u.host.coal = [] ∧ u.chip.resetCause = withBit s.chip.resetCause 4) ∧
  (∀ s t sp w, s.time.localMode = false → 4 ≤ s.time.step → 1 ≤ sp → sp ≤ 4 → w = 1 ∨ w = 2 ∨ w = 4 ∨ w = 8 →
    exec (.linkTrained t sp w) s = .next { s.at t with host := { s.host with speed := sp, width := w } }) ∧
  (∀ s t, exec (.linkRetraining t) s = .next { s.at t with host := { s.host with speed := 0, width := 0 } })

/-- Start-up (14 R395-R402, R406; 13 R360, R379-R382). At any other step these rows change nothing but the time. -/
def Obligations.StartUpComplete : Prop :=
  (∀ s t, s.time.step = 1 → ∃ u : State, exec (.suppliesValid t) s = .next u ∧ u.time.step = 3 ∧ u.time.powerCount = 0 ∧ u.chip = s.chip ∧ u.til = s.til) ∧
  (∀ s t khz f, s.time.step = 3 → s.time.running = false → s.husk.fuses.keyKillPending = false → listedRef khz = some f →
    ∃ u : State, exec (.pllLock t khz true) s = .next u ∧ u.time.step = 4 ∧ u.time.running = true ∧ u.time.timebase = 0 ∧ u.clk.lock = 15 ∧ u.clk.refFreq = f ∧
      u.chip = s.chip ∧ u.time.selftestFail = s.time.selftestFail) ∧
  (∀ s t khz, s.time.step = 3 → ∃ u : State, exec (.pllLock t khz false) s = .next u ∧ u.time.step = 4 ∧ u.time.selftestFail = true ∧ u.husk.debugLocked = true) ∧
  (∀ s t khz ok, s.time.step ≠ 3 → exec (.pllLock t khz ok) s = .next (s.at t)) ∧
  (∀ s t v (p k : Bool), s.time.step = 4 → s.time.selftestFail = false → ∃ u : State, exec (.selfTest t 0 v p k) s = .next u ∧ u.time.step = 5 ∧
      u.boot.trying = !s.boot.hostFirst ∧ u.boot.hostWaiting = s.boot.hostFirst ∧ u.boot.tryNext = 0) ∧
  (∀ s t f v (p k : Bool), s.time.step = 4 → s.time.selftestFail = false → f ≠ 0 → ∃ u : State, exec (.selfTest t f v p k) s = .next u ∧ u.time.step = 4 ∧
      u.time.selftestFail = true ∧ u.husk.debugLocked = true) ∧
  (∀ s t, s.time.step = 5 → s.boot.hostWaiting = true → s.time.step4 + 250000 * s.boot.hostWait ≤ (s.at t).now →
    exec (.hostWaitExpiry t) s = .next { s.at t with boot := { s.boot with hostWaiting := false, trying := true, tryNext := 0 } }) ∧
  (∀ s t (v : Word) h, (s.at t).hostUp = true → bit v.toNat 0 = true → s.chip.restarting = false → s.time.step = 5 → s.boot.hostWaiting = true → s.load 8 = none →
    (s.boot.imgLen = 0 → exec (.bootGo t v h) s = .next { s.at t with boot := { s.boot with hostWaiting := false, trying := true, tryNext := 0 } }) ∧
    (∀ b (l : Load), s.boot.imgLen ≠ 0 → s.boot.imgAddr % 8 = 0 → (s.at t).bufOk s.boot.imgAddr s.boot.imgLen = true →
      b = (s.at t).hostRead s.boot.imgAddr (min s.boot.imgLen 3520) h → 3520 ≤ b.length → headerOk b 0xFF (imageMax 0 0) = true → identityOk b = true →
      l = { mode := 1, source := 0, imgSlot := 0, len := s.boot.imgLen, head := slice b 0 3520, hdr := readHdr b, stage := 1, start := (s.at t).now } →
      exec (.bootGo t v h) s = .next (State.setLoad { s.at t with boot := { s.boot with hostWaiting := false } } 8 (some l)))) ∧
  (∀ s t, s.boot.doneDriven = false → s.time.step = 6 → s.husk.halted = false →
    exec (.doneHigh t) s = .next (State.startTrees { s.at t with boot := { s.boot with doneHigh := true } })) ∧
  (∀ s t, s.boot.doneDriven = true → exec (.doneHigh t) s = .next (s.at t)) ∧
  (∀ s t x, s.boot.doneReleasedAt = some x → s.time.step = 6 → s.husk.halted = false → x + 250000 * s.boot.doneTimeout ≤ (s.at t).now →
    ∃ u : State, exec (.doneTimeout t) s = .next u ∧ u.boot.doneLate = true ∧ u.boot.doneReleasedAt = none ∧ u.time.step = (if (s.boot.doneAction = true) then 8 else 6)) ∧
  (∀ s t, s.time.step = 8 → s.husk.halted = false → s.boot.doneSlot = none →
    ∃ u : State, exec (.resetRelease t) s = .next u ∧ u.time.step = 9 ∧ u.fab.forcedLow = false ∧ u.convs = s.convs ∧ u.til = s.til) ∧
  (∀ s t h, s.time.step = 8 → s.husk.halted = false → s.boot.doneSlot = some h → ∃ v : State, exec (.resetRelease t) s =
    .next { v.final h stOK s.boot.doneFrames 0 with boot := { (v.final h stOK s.boot.doneFrames 0).boot with doneSlot := none } } ∧ v.time.step = 9 ∧ v.chip = s.chip ∧ v.til = s.til) ∧
  (∀ s t, s.time.step = 9 → s.husk.halted = false → ∃ u : State, exec (.outputEnable t) s = .next u ∧ u.time.step = 10) ∧
  (∀ s t, (s.at t).straw = true → s.time.done = true → s.husk.halted = false → s.chip.restarting = false → s.chip.failed = false →
    s.boot.bannerAt + 15000000000 ≤ (s.at t).now → exec (.strawBanner t) s = .next (s.at t).banner)

/-- The configuration port (13 R389-R391) and the test access port (19 R502). -/
def Obligations.PortCommandsComplete : Prop :=
  (∀ s t len h b (u : State) (l : Load), s.coreRuns = true → (s.at t).cfgRefusal = 0 → s.fab.readbacks.find? (fun r => r.id == 0x1000) = none → 1 ≤ len →
    b = h.take (min len 3520) → 3520 ≤ b.length → identityOk b = true → u = { s.at t with boot := { s.boot with cfgOpen := true, cfgFrames := 0 } } →
    (s.inFlight = [] → len ≤ imageMax 0 0 → headerOk b 0xFF (imageMax 0 0) = true →
      l = { mode := 3, source := 0, imgSlot := 0, len := len, head := slice b 0 3520, hdr := readHdr b, stage := 1, start := (s.at t).now } →
      exec (.cfgLoad t len h) s = .next (u.setLoad 8 (some l))) ∧
    (len ≤ imageMax 2 0 → headerOk b 0xFF (imageMax 2 0) = true →
      l = { mode := 4, source := 2, imgSlot := 0, len := len, head := slice b 0 3520, hdr := readHdr b, stage := 1, start := (s.at t).now } →
      exec (.programFallback t len h) s = .next (u.setLoad 8 (some l)))) ∧
  (∀ s t sc ix tm, s.coreRuns = true → (s.at t).cfgRefusal = 0 → scopeOk sc ix = true → s.fab.readbacks.find? (fun r => r.id == 0x1000) = none →
    exec (.cfgReadback t sc ix tm) s = .next (State.startReadback { s.at t with boot := { s.boot with cfgOpen := true } } 0x1000 sc ix tm 0)) ∧
  (∀ s t len h sc ix tm, s.coreRuns = true → (s.at t).cfgRefusal ≠ 0 →
    exec (.programFallback t len h) s = .next { s.at t with boot := { s.boot with cfgResult := (s.at t).cfgRefusal } } ∧
    exec (.cfgLoad t len h) s = .next { s.at t with boot := { s.boot with cfgResult := (s.at t).cfgRefusal } } ∧
    exec (.cfgReadback t sc ix tm) s = .next { s.at t with boot := { s.boot with cfgResult := (s.at t).cfgRefusal } }) ∧
  (∀ s t, exec (.cfgStatus t) s = .next { s.at t with out := s.out ++ [.cfg (s.at t).portStatus] } ∧ (s.at t).portStatus.length = 16) ∧
  (∀ s t, exec (.identify t) s = .next { s.at t with out := s.out ++ [.cfg [0x48, 0x4C, 0x40, 0x86, 0xB0, 0, 0, 0]] }) ∧
  (∀ s t, s.boot.cfgOpen = true → s.fab.readbacks.find? (fun r => r.id == 0x1000) = none → s.load 8 = none →
    exec (.cfgTransactionGap t) s = .next { s.at t with boot := { s.boot with cfgOpen := false } }) ∧
  (∀ s t, s.boot.cfgOpen = false → exec (.cfgTransactionGap t) s = .next (s.at t)) ∧
  (∀ s t, (s.at t).tapDrives = true →
    exec (.extest t) s = .next { s.at t with pin := { s.pin with tapInstr := 0 } } ∧
    exec (.highz t) s = .next { s.at t with pin := { s.pin with tapInstr := 3 } } ∧
    exec (.clamp t) s = .next { s.at t with pin := { s.pin with tapInstr := 4 } }) ∧
  (∀ s t, (s.at t).tapDrives = false →
    exec (.extest t) s = .next { s.at t with pin := { s.pin with tapInstr := 0xFF } } ∧
    exec (.highz t) s = .next { s.at t with pin := { s.pin with tapInstr := 0xFF } } ∧
    exec (.clamp t) s = .next { s.at t with pin := { s.pin with tapInstr := 0xFF } }) ∧
  (∀ s t bs, ∃ u : State, exec (.samplePreload t bs) s = .next u ∧ u.pin = { s.pin with tapInstr := 1, bsr := bs } ∧
    ∃ l : List Bool, l.length = bs.length ∧ u.out = s.out ++ [.tap l]) ∧
  (∀ s t, exec (.idcode t) s = .next { s.at t with pin := { s.pin with tapInstr := 2 }, out := s.out ++ [.tap ((List.range 32).map fun i => bit 0xB8640C4F i)] }) ∧
  (∀ s t c, 5 ≤ c → exec (.bypass t c) s = .next { s.at t with pin := { s.pin with tapInstr := 0xFF } })

/-- The recovery ladder above the cell and the analogue supplies (01 R16-R23; 17 R454-R458, R463). -/
def Obligations.RecoveryComplete : Prop :=
  (∀ s t b h (u : State), b < 64 → (s.block b).stopped = false → (s.block b).quarantined = false →
    u = ((((s.at t).supersedeCells b 0x20F).setBlock b { s.block b with
      recoveries := (s.block b).recoveries.filter (fun x => decide ((s.at t).now < x + 250000000)) ++ [(s.at t).now] }).bump (uBk b) 7).log 0x20F 2 b h 0 →
    (s.restarting (b / 8) = false → exec (.arbRecovery t b h) s = .next (if (h = 2) then u.fabReplyFree b true else u)) ∧
    (s.restarting (b / 8) = true → exec (.arbRecovery t b h) s = .next ((s.at t).log 0x106 2 b 0x104 0x20F))) ∧
  (∀ s t b k, b < 64 → s.ctrlOk (b / 8) = true → 5 ≤ s.time.step → (s.block b).quarantined = false →
    k = (s.block b).recoveries.filter (fun x => decide ((s.at t).now < x + 250000000)) →
    (2 ≤ k.length → exec (.blockQuarantine t b 2) s = .next ((s.at t).quarantineBlock b 2)) ∧
    (∀ x, k.getLast? = some x → x + 2500 ≤ (s.at t).now → exec (.blockQuarantine t b 1) s = .next ((s.at t).quarantineBlock b 1))) ∧
  (∀ s t r (u : State), r < 8 → (s.region r).ready = true → (s.region r).failed = false → 5 ≤ s.time.step → s.coreRuns = true →
    u = ((s.at t).bump (uRg r) 5).setRegion r { s.region r with dogs := (s.region r).dogs.filter (fun x => decide ((s.at t).now < x + 250000000)) ++ [(s.at t).now] } →
    ((∀ x ∈ (s.region r).dogs, x + 250000000 ≤ (s.at t).now) → exec (.regionWatchdog t r) s = .next (u.restartRegion r)) ∧
    ((∃ x ∈ (s.region r).dogs, (s.at t).now < x + 250000000) → exec (.regionWatchdog t r) s = .next ((u.restartRegion r).regionFails r 3))) ∧
  (∀ s t r (ed ml : Bool), r < 8 → (s.region r).ready = false → (s.region r).fwFail = false → s.coreRuns = true → s.outPending r = false →
    (ed = true → ml = true → exec (.regionReady t r ed ml) s = .next ((s.at t).regionBack r)) ∧
    ((ed = false ∨ ml = false) → exec (.regionReady t r ed ml) s =
      .next (((s.at t).setRegion r { s.region r with fwFail := true }).log 0x804 3 r (b2n (!ed) + 2 * b2n (!ml)) 0))) ∧
  (∀ s t r (ed ml : Bool), r < 8 → (s.region r).fwFail = true → exec (.regionReady t r ed ml) s = .next (s.at t)) ∧
  (∀ s t r, r < 8 → (s.region r).ready = false → (s.region r).failed = false → s.coreRuns = true → ((s.region r).fwFail = true ∨ (s.region r).restartFrom + 1250000 ≤ (s.at t).now) →
    exec (.regionFailed t r) s = .next ((s.at t).regionFails r (if ((s.region r).fwFail = true) then 2 else 1))) ∧
  (∀ s t r, r < 8 → (s.region r).failed = true → s.coreRuns = true → (s.region r).restartFrom + 2500000000 ≤ (s.at t).now →
    exec (.regionRestartRetry t r) s = .next ((s.at t).setRegion r { s.region r with restartFrom := (s.at t).now, fwFail := false })) ∧
  (∀ s t k, s.coreRuns = true → 5 ≤ s.time.step → k = s.chip.dogs.filter (fun x => decide ((s.at t).now < x + 2500000000)) →
    (3 ≤ k.length → ∃ u : State, exec (.mgmtWatchdog t) s = .next u ∧ u.chip.failed = true ∧ u.chip.restarting = false ∧ u.til = s.til ∧ u.convs = s.convs ∧ u.dacs = s.dacs) ∧
    (k.length < 3 → ∀ u : State, u = { (s.at t).bump 0 4 with
        chip := { ((s.at t).bump 0 4).chip with dogs := k ++ [(s.at t).now], restarting := true, restartFrom := (s.at t).now } } →
      ((∀ x ∈ k, x + 250000000 ≤ (s.at t).now) → exec (.mgmtWatchdog t) s = .next u.supersedeRegions.coreStops) ∧
      ((∃ x ∈ k, (s.at t).now < x + 250000000) → exec (.mgmtWatchdog t) s = .next (u.log 0x103 4 0 (k.length + 1) 0).supersedeRegions.coreStops))) ∧
  (∀ s t, s.chip.restarting = true → exec (.mgmtRestartEnd t) s = .next (s.at t).coreBack) ∧
  (∀ s t, s.chip.restarting = false → exec (.mgmtRestartEnd t) s = .next (s.at t)) ∧
  (∀ s t k mv, k < 3 → s.time.done = true → supplyOk k mv = false → bit s.mon.supplyBad k = false →
    ∃ u : State, exec (.supplyFault t k mv) s = .next u ∧ u.mon.supplyBad = withBit s.mon.supplyBad k ∧ u.mon.supplyOut = true ∧
      u.mon.supplySince = (if (s.mon.supplyOut = true) then s.mon.supplySince else (s.at t).now) ∧ u.boot = s.boot ∧ u.husk = s.husk ∧ u.pin = s.pin) ∧
  (∀ s t k mv, k < 3 → s.mon.supplyOut = true → supplyOk k mv = true → s.mon.supplyBad = 2 ^ k →
    ∃ u : State, exec (.supplyRestored t k mv) s = .next u ∧ u.mon.supplyBad = 0 ∧ u.mon.supplyOut = false ∧
      u.mon.supplyIvs = s.mon.supplyIvs ++ [(s.mon.supplySince, (s.at t).now)] ∧ u.boot = s.boot ∧ u.husk = s.husk ∧ u.pin = s.pin) ∧
  (∀ s t k mv, k < 3 → s.mon.supplyOut = true → supplyOk k mv = true → bit s.mon.supplyBad k = true → s.mon.supplyBad ≠ 2 ^ k →
    exec (.supplyRestored t k mv) s = .next (State.readSupply { s.at t with mon := { s.mon with supplyBad := s.mon.supplyBad - 2 ^ k } } k mv))

/-- Register rows and the serial host interface (11 R324, R325; 18 R470-R493). -/
def Obligations.RegisterRowsComplete : Prop :=
  (∀ s t off (v : Word), (s.at t).hostUp = true → off % 4 = 0 → exec (.registerWrite t off v 4) s = .next ((s.at t).regWrite off v.toNat)) ∧
  (∀ s t off (v : Word) w, (w ≠ 4 ∨ off % 4 ≠ 0 ∨ (s.at t).hostUp = false) → exec (.registerWrite t off v w) s = .next (s.at t)) ∧
  (∀ s t (v : Word), (s.at t).hostUp = true → 1 ≤ bits v.toNat 0 5 → bits v.toNat 0 5 ≤ 16 →
    exec (.registerWrite t 0x400 v 4) s = .next { s.at t with host := { s.host with share := bits v.toNat 0 5 } }) ∧
  (∀ s t (v : Word), (s.at t).hostUp = true → exec (.registerWrite t 0x14 v 4) s =
    .next { s.at t with chip := { s.chip with resetCause := s.chip.resetCause - Nat.land s.chip.resetCause (v.toNat % 32) } }) ∧
  (∀ s t (lo hi : Word), (s.at t).hostUp = true → s.host.me.enable = false → Tbl.wf 0 s.host.loHold = true →
    ∃ u : State, exec (.registerWrite t 0x410 lo 4) s = .next u ∧ u.host.me = s.host.me ∧
      ∃ v : State, exec (.registerWrite t 0x414 hi 4) u = .next v ∧ v.host.me.base = lo.toNat + 2 ^ 32 * hi.toNat) ∧
  (∀ s t off, (s.at t).hostUp = true → off % 4 = 0 → (off < 4 ∨ isLo (off - 4) = false) → isLo off = false →
    exec (.loRead t off) s = .next (((s.at t).regNow off).1.emit (.reg off ((s.at t).regNow off).2))) ∧
  (∀ s t off (u : State), (s.at t).hostUp = true → off % 4 = 0 → (off < 4 ∨ isLo (off - 4) = false) → isLo off = true → u = ((s.at t).regNow off).1 →
    exec (.loRead t off) s = .next (State.emit { u with host := { u.host with
      latch := Tbl.set 0 (off + 4) (u.regNow (off + 4)).2 u.host.latch } } (.reg off ((s.at t).regNow off).2))) ∧
  (∀ s t off, (s.at t).hostUp = true → off % 4 = 0 → 4 ≤ off → isLo (off - 4) = true →
    exec (.loRead t off) s = .next ((s.at t).emit (.reg off (Tbl.get 0 off s.host.latch)))) ∧
  (∀ s t off, (s.at t).hostUp = true → off % 4 ≠ 0 → exec (.loRead t off) s = .next ((s.at t).emit (.reg off 0))) ∧
  (∀ s t ad data, (s.at t).spiUp = true → data.length % 4 = 0 → data ≠ [] →
    (s.inArea ad data.length = true → exec (.spiWriteRingArea t ad data) s = .next ((s.at t).spWrite ad data)) ∧
    (s.inArea ad data.length = false → exec (.spiWriteRingArea t ad data) s = .next ((s.at t).log 0x605 5 0 ad 0x02))) ∧
  (∀ s t ad n, (s.at t).spiUp = true →
    (s.inArea ad n = true → exec (.spiReadRingArea t ad n) s = .next ((s.at t).emit (.spi (s.spRead ad n)))) ∧
    (s.inArea ad n = false → exec (.spiReadRingArea t ad n) s = .next (((s.at t).log 0x605 5 0 ad 0x03).emit (.spi (zeros n))))) ∧
  (∀ s t off (v : Word), (s.at t).spiUp = true → off % 4 = 0 →
    exec (.spiWriteSetupRegister t off v) s = .next ((s.at t).regWrite off v.toNat) ∧
    exec (.spiReadSetupRegister t off) s = .next (((s.at t).regRead off).1.emit (.spi (toLE 4 ((s.at t).regRead off).2)))) ∧
  (∀ s t off data, (s.at t).spiUp = true →
    (off ≠ 0 → data.length = 4 → exec (.spiWriteDoorbell t off data) s = .next ((s.at t).doorbell4 off (le data) 4 [])) ∧
    (data.length = 8 → exec (.spiWriteDoorbell t 0 data) s = .next ((s.at t).haltWrite (le data) 8))) ∧
  (∀ s t, (s.at t).spiUp = true →
    exec (.spiReadClearPending t) s = .next (State.emit { s.at t with host := { s.host with pendVec := [] } } (.spi (toLE 8 s.pendMask))))

/-- 00 R5: the numbers 192 to 255 name no converter, in any command that takes a converter's number. -/
def Obligations.AbsentConvertersRejected : Prop :=
  (∀ (s : State) (d : Desc) a, Judged s 0x0200 d a → cfgBad a = none → (s.at d.t).busyFor 0x0200 a = false → 192 ≤ byteAt a 0 →
    exec (.convConfig d) s = .next (s.rejected d stRANGE 0)) ∧
  (∀ (s : State) (d : Desc) steps a, Judged s 0x0201 d a → firstBad a (rsv 2 6) = none →
    stepsBad (byteAt a 0) ((s.at d.t).seqBytes a steps) (min (byteAt a 1) 64) = none → (s.at d.t).busyFor 0x0201 a = false → 192 ≤ byteAt a 0 →
    exec (.seqLoad d steps) s = .next (s.rejected d stRANGE 0)) ∧
  (∀ (s : State) (d : Desc) a, Judged s 0x0203 d a → sysMeasBad a = none → (s.at d.t).busyFor 0x0203 a = false → 192 ≤ byteAt a 0 →
    exec (.syscalZero d) s = .next (s.rejected d stRANGE 0)) ∧
  (∀ (s : State) (d : Desc) a, Judged s 0x0204 d a → sysMeasBad a = none → (s.at d.t).busyFor 0x0204 a = false → 192 ≤ byteAt a 0 →
    exec (.syscalFull d) s = .next (s.rejected d stRANGE 0)) ∧
  (∀ (s : State) (d : Desc) a, Judged s 0x0205 d a → firstBad a ((2, 0xF8) :: rsv 3 5) = none → (s.at d.t).busyFor 0x0205 a = false → 192 ≤ byteAt a 0 →
    exec (.syscalCommit d) s = .next (s.rejected d stRANGE 0)) ∧
  (∀ (s : State) (d : Desc) a, Judged s 0x0002 d a → firstBad a (rsv 1 1) = none → (s.at d.t).busyFor 0x0002 a = false → byteAt a 0 = 2 →
    192 ≤ fld a 2 2 → fld a 2 2 ≤ 255 → exec (.query d) s = .next (s.rejected d stRANGE 0)) ∧
  (∀ (s : State) (d : Desc) a, Judged s 0x0400 d a → firstBad a ((1, 0xF8) :: rsv 4 4 ++ (if bit (byteAt a 1) 2 then [] else rsv 8 8)) = none →
    (s.at d.t).busyFor 0x0400 a = false → byteAt a 0 = 1 → 192 ≤ fld a 2 2 → fld a 2 2 ≤ 255 → exec (.calRun d) s = .next (s.rejected d stRANGE 0)) ∧
  (∀ c, c < 192 ↔ (∃ r j, r < 8 ∧ j < 8 ∧ c = 8 * r + j ∧ isWM c = false ∧ convRegion c = r) ∨
    (∃ r j, r < 8 ∧ j < 16 ∧ c = 64 + 16 * r + j ∧ isWM c = true ∧ convRegion c = r))
end

