-- ==== Sys2Proof/Laws/Tbl.lean ====
section
/-! SUPPORT. What every operation on a sparse table does: it keeps the canonical form, and a read after a write. -/

namespace Sys2Proof.Machine

theorem Tbl.wfFrom_mono {α : Type} [DecidableEq α] {d : α} {m n : Nat} {l : Tbl α} (hmn : m ≤ n) (h : Tbl.wfFrom d n l = true) :
    Tbl.wfFrom d m l = true := by
  cases l with
  | nil => rfl
  | cons e l =>
    simp only [Tbl.wfFrom, Bool.and_eq_true, decide_eq_true_eq] at h ⊢
    exact ⟨⟨le_trans hmn h.1.1, h.1.2⟩, h.2⟩

theorem Tbl.wfFrom_set {α : Type} [DecidableEq α] {d v : α} {k n : Nat} {l : Tbl α} (hk : n ≤ k) (h : Tbl.wfFrom d n l = true) :
    Tbl.wfFrom d n (Tbl.set d k v l) = true := by
  induction l generalizing n with
  | nil =>
    by_cases hv : v = d
    · simp [Tbl.set, hv, Tbl.wfFrom]
    · simp [Tbl.set, hv, Tbl.wfFrom, hk]
  | cons e l ih =>
    obtain ⟨j, w⟩ := e
    simp only [Tbl.wfFrom, Bool.and_eq_true, decide_eq_true_eq] at h
    obtain ⟨⟨hj, hw⟩, hl⟩ := h
    simp only [Tbl.set]
    by_cases h1 : k < j
    · by_cases hv : v = d
      · simp [h1, hv, Tbl.wfFrom, hj, hw, hl]
      · simp [h1, hv, Tbl.wfFrom, hk, hw, hl, Nat.succ_le_of_lt h1]
    · by_cases h2 : k = j
      · subst h2
        by_cases hv : v = d
        · simp [hv, Tbl.wfFrom_mono (Nat.le_succ_of_le hj) hl]
        · simp [hv, Tbl.wfFrom, hj, hl]
      · have h3 : j + 1 ≤ k := by omega
        simp [h1, h2, Tbl.wfFrom, hj, hw, ih h3 hl]

/-- A write keeps the canonical form. -/
theorem Tbl.wf_set {α : Type} [DecidableEq α] {d v : α} {k : Nat} {l : Tbl α} (h : Tbl.wf d l = true) : Tbl.wf d (Tbl.set d k v l) = true :=
  Tbl.wfFrom_set (Nat.zero_le k) h

/-- A write of a run keeps the canonical form. -/
theorem Tbl.wf_setRun {α : Type} [DecidableEq α] {d : α} {k : Nat} {vs : List α} {l : Tbl α} (h : Tbl.wf d l = true) :
    Tbl.wf d (Tbl.setRun d k vs l) = true := by
  induction vs generalizing k l with
  | nil => exact h
  | cons v vs ih => exact ih (Tbl.wf_set h)

/-- A canonical table lists nothing below its first key. -/
theorem Tbl.get_lt {α : Type} [DecidableEq α] {d : α} {k n : Nat} {l : Tbl α} (hk : k < n) (h : Tbl.wfFrom d n l = true) : Tbl.get d k l = d := by
  induction l generalizing n with
  | nil => rfl
  | cons e l ih =>
    simp only [Tbl.wfFrom, Bool.and_eq_true, decide_eq_true_eq] at h
    have hne : e.1 ≠ k := by omega
    rw [Tbl.get, if_neg hne]
    exact ih (by omega) h.2

/-- A read of the key written gives the value written. -/
theorem Tbl.get_set_self {α : Type} [DecidableEq α] {d v : α} {k n : Nat} {l : Tbl α} (h : Tbl.wfFrom d n l = true) :
    Tbl.get d k (Tbl.set d k v l) = v := by
  induction l generalizing n with
  | nil => by_cases hv : v = d <;> simp [Tbl.set, hv, Tbl.get]
  | cons e l ih =>
    obtain ⟨j, w⟩ := e
    have h' := h
    simp only [Tbl.wfFrom, Bool.and_eq_true, decide_eq_true_eq] at h
    simp only [Tbl.set]
    by_cases h1 : k < j
    · by_cases hv : v = d
      · rw [if_pos h1, if_pos hv, hv]
        refine Tbl.get_lt (n := j) h1 ?_
        simp only [Tbl.wfFrom, Bool.and_eq_true, decide_eq_true_eq]
        exact ⟨⟨le_refl j, h.1.2⟩, h.2⟩
      · simp [h1, hv, Tbl.get]
    · by_cases h2 : k = j
      · by_cases hv : v = d
        · rw [if_neg h1, if_pos h2, if_pos hv, hv]
          exact Tbl.get_lt (n := j + 1) (by omega) h.2
        · simp [h2, hv, Tbl.get]
      · have h3 : ¬ j = k := fun e => h2 e.symm
        simp [h1, h2, Tbl.get, h3, ih h.2]

/-- A write leaves every other key as it was. -/
theorem Tbl.get_set_other {α : Type} [DecidableEq α] {d v : α} {k j : Nat} {l : Tbl α} (hjk : j ≠ k) :
    Tbl.get d j (Tbl.set d k v l) = Tbl.get d j l := by
  induction l with
  | nil => by_cases hv : v = d <;> simp [Tbl.set, hv, Tbl.get, Ne.symm hjk]
  | cons e l ih =>
    obtain ⟨i, w⟩ := e
    simp only [Tbl.set]
    by_cases h1 : k < i
    · by_cases hv : v = d
      · simp [h1, hv]
      · simp [h1, hv, Tbl.get, Ne.symm hjk]
    · by_cases h2 : k = i
      · subst h2
        by_cases hv : v = d
        · simp [hv, Tbl.get, Ne.symm hjk]
        · simp [hv, Tbl.get, Ne.symm hjk]
      · simp [h1, h2, Tbl.get, ih]

/-- A write of a run leaves every key outside it as it was. -/
theorem Tbl.get_setRun_other {α : Type} [DecidableEq α] {d : α} {k j : Nat} {vs : List α} {l : Tbl α} (h : j < k ∨ k + vs.length ≤ j) :
    Tbl.get d j (Tbl.setRun d k vs l) = Tbl.get d j l := by
  induction vs generalizing k l with
  | nil => rfl
  | cons v vs ih =>
    have h1 : j ≠ k := by simp at h; omega
    have h2 : j < k + 1 ∨ k + 1 + vs.length ≤ j := by simp at h; omega
    rw [Tbl.setRun, ih h2, Tbl.get_set_other h1]

/-- A value that is listed is read back, whatever the table. -/
theorem Tbl.get_set_ne {α : Type} [DecidableEq α] {d v : α} {k : Nat} {l : Tbl α} (hv : v ≠ d) : Tbl.get d k (Tbl.set d k v l) = v := by
  induction l with
  | nil => simp [Tbl.set, hv, Tbl.get]
  | cons e l ih =>
    obtain ⟨j, w⟩ := e
    by_cases h1 : k < j
    · simp [Tbl.set, h1, hv, Tbl.get]
    · by_cases h2 : k = j
      · simp [Tbl.set, h2, hv, Tbl.get]
      · simp [Tbl.set, h1, h2, Tbl.get, Ne.symm h2, ih]

theorem insertBy_perm {α : Type} (le : α → α → Bool) (x : α) (l : List α) : (insertBy le x l).Perm (x :: l) := by
  induction l with
  | nil => exact .refl _
  | cons y l ih =>
    unfold insertBy
    split
    · exact .refl _
    · exact (ih.cons y).trans (.swap x y l)

/-- Sorting neither adds nor drops an element. -/
theorem sortBy_perm {α : Type} (le : α → α → Bool) (l : List α) : (sortBy le l).Perm l := by
  induction l with
  | nil => exact .refl _
  | cons x l ih => exact (insertBy_perm le x _).trans (ih.cons x)

end Sys2Proof.Machine
end

