-- ==== Sys2Proof/Laws/Ok.lean ====
section
/-! SUPPORT. The relation that every operation keeps: the queue as it was, every bounded field within its bounds. -/

namespace Sys2Proof.Machine

/-- The queue is `p` and the state is legal. -/
def Ok (p : List Instr) (s : State) : Prop := s.pending = p ∧ Legal s

/-- The meaning of a command answers a state with the queue `p` that is legal, if it answers a state. -/
def OkO (p : List Instr) (o : Host.Outcome State Fault Refusal) : Prop := ∀ t, o = .next t → Ok p t

/-- A state that agrees with a legal one in the queue and in every bounded field. -/
theorem Ok.frame {p : List Instr} {s : State} {time : StartUp} {chip : Chip} {host : HostIf} {clk : Clk} {sheaf : Sheaf} {til : Tiller}
    {convs : Tbl Conv} {dacs : Tbl Dac} {cal : Cal} {keep : Keep} {fab : Fab} {boot : Boot} {husk : Husk} {pin : Pins} {mon : Mon}
    {out : List OutMsg} {freeCtr : Nat} (h : Ok p s) (e1 : time.timebase = s.time.timebase) (e2 : time.step = s.time.step)
    (e3 : fab.spad = s.fab.spad) (e4 : chip.log = s.chip.log) (e5 : chip.heldLog = s.chip.heldLog) (e6 : host.me.held = s.host.me.held)
    (e7 : host.share = s.host.share) (e8 : host.areaPages = s.host.areaPages) (e9 : host.areaStart = s.host.areaStart)
    (e10 : boot.hostWait = s.boot.hostWait) (e11 : boot.doneTimeout = s.boot.doneTimeout) (e12 : boot.imgLen = s.boot.imgLen)
    (e13 : clk.syncMode = s.clk.syncMode) (e14 : clk.refSource = s.clk.refSource) :
    Ok p ⟨time, chip, host, clk, sheaf, til, convs, dacs, cal, keep, fab, boot, husk, pin, mon, out, freeCtr, s.pending⟩ := by
  unfold Ok Legal at h ⊢
  dsimp only
  rw [e1, e2, e3, e4, e5, e6, e7, e8, e9, e10, e11, e12, e13, e14]
  exact h

/-- Another clock part within its bounds. -/
theorem Ok.clk {p : List Instr} {s : State} {c : Clk} (h : Ok p s) (h1 : c.syncMode ≤ 2) (h2 : c.refSource ≤ 1) : Ok p { s with clk := c } := by
  unfold Ok Legal at *
  simp_all

/-- Another start-up part within its bounds. -/
theorem Ok.time {p : List Instr} {s : State} {c : StartUp} (h : Ok p s) (h1 : c.timebase < 2 ^ 64) (h2 : 1 ≤ c.step ∧ c.step ≤ 10) :
    Ok p { s with time := c } := by
  unfold Ok Legal at *
  simp_all

/-- Another boot part within its bounds. -/
theorem Ok.boot {p : List Instr} {s : State} {c : Boot} (h : Ok p s) (h1 : 1 ≤ c.hostWait ∧ c.hostWait ≤ 60000)
    (h2 : 10 ≤ c.doneTimeout ∧ c.doneTimeout ≤ 60000) (h3 : c.imgLen ≤ 33554432) : Ok p { s with boot := c } := by
  unfold Ok Legal at *
  simp_all

/-- Another host interface within its bounds. -/
theorem Ok.host {p : List Instr} {s : State} {c : HostIf} (h : Ok p s) (h1 : c.me.held.length ≤ 64) (h2 : 1 ≤ c.share ∧ c.share ≤ 16)
    (h3 : 1 ≤ c.areaPages ∧ c.areaStart + c.areaPages ≤ 8) : Ok p { s with host := c } := by
  unfold Ok Legal at *
  simp_all

/-- Another start-up part whose start-up step alone may differ. -/
theorem Ok.step {p : List Instr} {s : State} {time : StartUp} {chip : Chip} {host : HostIf} {clk : Clk} {sheaf : Sheaf} {til : Tiller}
    {convs : Tbl Conv} {dacs : Tbl Dac} {cal : Cal} {keep : Keep} {fab : Fab} {boot : Boot} {husk : Husk} {pin : Pins} {mon : Mon}
    {out : List OutMsg} {freeCtr : Nat} (h : Ok p s) (e2 : 1 ≤ time.step ∧ time.step ≤ 10) (e1 : time.timebase = s.time.timebase)
    (e3 : fab.spad = s.fab.spad) (e4 : chip.log = s.chip.log) (e5 : chip.heldLog = s.chip.heldLog) (e6 : host.me.held = s.host.me.held)
    (e7 : host.share = s.host.share) (e8 : host.areaPages = s.host.areaPages) (e9 : host.areaStart = s.host.areaStart)
    (e10 : boot.hostWait = s.boot.hostWait) (e11 : boot.doneTimeout = s.boot.doneTimeout) (e12 : boot.imgLen = s.boot.imgLen)
    (e13 : clk.syncMode = s.clk.syncMode) (e14 : clk.refSource = s.clk.refSource) :
    Ok p ⟨time, chip, host, clk, sheaf, til, convs, dacs, cal, keep, fab, boot, husk, pin, mon, out, freeCtr, s.pending⟩ := by
  unfold Ok Legal at h ⊢
  dsimp only
  rw [e1, e3, e4, e5, e6, e7, e8, e9, e10, e11, e12, e13, e14]
  exact ⟨h.1, h.2.1, e2, h.2.2.2⟩

theorem Ok.ite {p : List Instr} {c : Prop} [Decidable c] {a b : State} (ha : Ok p a) (hb : Ok p b) : Ok p (if c then a else b) := by
  by_cases h : c
  · rw [if_pos h]; exact ha
  · rw [if_neg h]; exact hb

theorem Ok.ite_fst {p : List Instr} {α : Type} {c : Prop} [Decidable c] {a b : State × α} (ha : Ok p a.1) (hb : Ok p b.1) :
    Ok p (if c then a else b).1 := by
  by_cases h : c
  · rw [if_pos h]; exact ha
  · rw [if_neg h]; exact hb

theorem Ok.ite_snd {p : List Instr} {α : Type} {c : Prop} [Decidable c] {a b : α × State} (ha : Ok p a.2) (hb : Ok p b.2) :
    Ok p (if c then a else b).2 := by
  by_cases h : c
  · rw [if_pos h]; exact ha
  · rw [if_neg h]; exact hb

theorem Ok.foldl {p : List Instr} {α : Type} {f : State → α → State} {l : List α} {s : State} (h : Ok p s)
    (hf : ∀ s x, Ok p s → Ok p (f s x)) : Ok p (l.foldl f s) := by
  induction l generalizing s with
  | nil => exact h
  | cons x l ih => exact ih (hf s x h)

theorem Ok.foldl_fst {p : List Instr} {α β : Type} {f : State × β → α → State × β} {l : List α} {a : State × β} (h : Ok p a.1)
    (hf : ∀ a x, Ok p a.1 → Ok p (f a x).1) : Ok p (l.foldl f a).1 := by
  induction l generalizing a with
  | nil => exact h
  | cons x l ih => exact ih (hf a x h)

theorem Ok.elim {p : List Instr} {α : Type} {f : α → State} {o : Option α} {s : State} (h : Ok p s) (hf : ∀ x, Ok p (f x)) : Ok p (o.elim s f) := by
  cases o with
  | none => exact h
  | some x => exact hf x

theorem Ok.outcome {p : List Instr} {s : State} (h : Ok p s) : OkO p (.next s) := fun _ e => by cases e; exact h

theorem Ok.fault {p : List Instr} (f : Fault) : OkO p (.fault f) := fun _ e => by cases e

theorem OkO.ite {p : List Instr} {c : Prop} [Decidable c] {a b : Host.Outcome State Fault Refusal} (ha : OkO p a) (hb : OkO p b) :
    OkO p (if c then a else b) := by
  by_cases h : c
  · rw [if_pos h]; exact ha
  · rw [if_neg h]; exact hb

end Sys2Proof.Machine
end

