-- ==== Sys2Proof/Laws/OkOps.lean ====
section
/-! SUPPORT. Every operation of Machine/Ops.lean keeps the queue and every bounded field. -/

namespace Sys2Proof.Machine

set_option linter.unusedTactic false
set_option linter.unreachableTactic false

theorem setCq_ok {pd : List Instr} {s : State} {q : Nat} {v : Cq} (h : Ok pd s) : Ok pd (State.setCq s q v) := by
  unfold State.setCq
  try dsimp only
  repeat' (first | (intro _) | with_reducible (first | assumption | apply Ok.ite | apply Ok.foldl | apply Ok.elim | apply Ok.ite_fst | apply Ok.ite_snd | apply Ok.foldl_fst) | fail_if_no_progress (with_reducible apply Ok.frame <;> first | rfl | skip) | split)

theorem setDs_ok {pd : List Instr} {s : State} {n : Nat} {v : Ds} (h : Ok pd s) : Ok pd (State.setDs s n v) := by
  unfold State.setDs
  try dsimp only
  repeat' (first | (intro _) | with_reducible (first | assumption | apply Ok.ite | apply Ok.foldl | apply Ok.elim | apply Ok.ite_fst | apply Ok.ite_snd | apply Ok.foldl_fst) | fail_if_no_progress (with_reducible apply Ok.frame <;> first | rfl | skip) | split)

theorem setHnd_ok {pd : List Instr} {s : State} {n : Nat} {v : Hnd} (h : Ok pd s) : Ok pd (State.setHnd s n v) := by
  unfold State.setHnd
  try dsimp only
  repeat' (first | (intro _) | with_reducible (first | assumption | apply Ok.ite | apply Ok.foldl | apply Ok.elim | apply Ok.ite_fst | apply Ok.ite_snd | apply Ok.foldl_fst) | fail_if_no_progress (with_reducible apply Ok.frame <;> first | rfl | skip) | split)

theorem setConv_ok {pd : List Instr} {s : State} {c : Nat} {v : Conv} (h : Ok pd s) : Ok pd (State.setConv s c v) := by
  unfold State.setConv
  try dsimp only
  repeat' (first | (intro _) | with_reducible (first | assumption | apply Ok.ite | apply Ok.foldl | apply Ok.elim | apply Ok.ite_fst | apply Ok.ite_snd | apply Ok.foldl_fst) | fail_if_no_progress (with_reducible apply Ok.frame <;> first | rfl | skip) | split)

theorem setDac_ok {pd : List Instr} {s : State} {n : Nat} {v : Dac} (h : Ok pd s) : Ok pd (State.setDac s n v) := by
  unfold State.setDac
  try dsimp only
  repeat' (first | (intro _) | with_reducible (first | assumption | apply Ok.ite | apply Ok.foldl | apply Ok.elim | apply Ok.ite_fst | apply Ok.ite_snd | apply Ok.foldl_fst) | fail_if_no_progress (with_reducible apply Ok.frame <;> first | rfl | skip) | split)

theorem setCell_ok {pd : List Instr} {s : State} {n : Nat} {v : Cell} (h : Ok pd s) : Ok pd (State.setCell s n v) := by
  unfold State.setCell
  try dsimp only
  repeat' (first | (intro _) | with_reducible (first | assumption | apply Ok.ite | apply Ok.foldl | apply Ok.elim | apply Ok.ite_fst | apply Ok.ite_snd | apply Ok.foldl_fst) | fail_if_no_progress (with_reducible apply Ok.frame <;> first | rfl | skip) | split)

theorem setGraph_ok {pd : List Instr} {s : State} {n : Nat} {v : Option Graph} (h : Ok pd s) : Ok pd (State.setGraph s n v) := by
  unfold State.setGraph
  try dsimp only
  repeat' (first | (intro _) | with_reducible (first | assumption | apply Ok.ite | apply Ok.foldl | apply Ok.elim | apply Ok.ite_fst | apply Ok.ite_snd | apply Ok.foldl_fst) | fail_if_no_progress (with_reducible apply Ok.frame <;> first | rfl | skip) | split)

theorem setRegion_ok {pd : List Instr} {s : State} {r : Nat} {v : Region} (h : Ok pd s) : Ok pd (State.setRegion s r v) := by
  unfold State.setRegion
  try dsimp only
  repeat' (first | (intro _) | with_reducible (first | assumption | apply Ok.ite | apply Ok.foldl | apply Ok.elim | apply Ok.ite_fst | apply Ok.ite_snd | apply Ok.foldl_fst) | fail_if_no_progress (with_reducible apply Ok.frame <;> first | rfl | skip) | split)

theorem setBlock_ok {pd : List Instr} {s : State} {b : Nat} {v : Block} (h : Ok pd s) : Ok pd (State.setBlock s b v) := by
  unfold State.setBlock
  try dsimp only
  repeat' (first | (intro _) | with_reducible (first | assumption | apply Ok.ite | apply Ok.foldl | apply Ok.elim | apply Ok.ite_fst | apply Ok.ite_snd | apply Ok.foldl_fst) | fail_if_no_progress (with_reducible apply Ok.frame <;> first | rfl | skip) | split)

theorem setGck_ok {pd : List Instr} {s : State} {g : Nat} {v : Gck} (h : Ok pd s) : Ok pd (State.setGck s g v) := by
  unfold State.setGck
  try dsimp only
  repeat' (first | (intro _) | with_reducible (first | assumption | apply Ok.ite | apply Ok.foldl | apply Ok.elim | apply Ok.ite_fst | apply Ok.ite_snd | apply Ok.foldl_fst) | fail_if_no_progress (with_reducible apply Ok.frame <;> first | rfl | skip) | split)

theorem setUpll_ok {pd : List Instr} {s : State} {n : Nat} {v : Upll} (h : Ok pd s) : Ok pd (State.setUpll s n v) := by
  unfold State.setUpll
  try dsimp only
  repeat' (first | (intro _) | with_reducible (first | assumption | apply Ok.ite | apply Ok.foldl | apply Ok.elim | apply Ok.ite_fst | apply Ok.ite_snd | apply Ok.foldl_fst) | fail_if_no_progress (with_reducible apply Ok.frame <;> first | rfl | skip) | split)

theorem setCmp_ok {pd : List Instr} {s : State} {u : Nat} {v : Cmp} (h : Ok pd s) : Ok pd (State.setCmp s u v) := by
  unfold State.setCmp
  try dsimp only
  repeat' (first | (intro _) | with_reducible (first | assumption | apply Ok.ite | apply Ok.foldl | apply Ok.elim | apply Ok.ite_fst | apply Ok.ite_snd | apply Ok.foldl_fst) | fail_if_no_progress (with_reducible apply Ok.frame <;> first | rfl | skip) | split)

theorem setLane_ok {pd : List Instr} {s : State} {l : Nat} {v : Lane} (h : Ok pd s) : Ok pd (State.setLane s l v) := by
  unfold State.setLane
  try dsimp only
  repeat' (first | (intro _) | with_reducible (first | assumption | apply Ok.ite | apply Ok.foldl | apply Ok.elim | apply Ok.ite_fst | apply Ok.ite_snd | apply Ok.foldl_fst) | fail_if_no_progress (with_reducible apply Ok.frame <;> first | rfl | skip) | split)

theorem setBank_ok {pd : List Instr} {s : State} {b : Nat} {v : Bank} (h : Ok pd s) : Ok pd (State.setBank s b v) := by
  unfold State.setBank
  try dsimp only
  repeat' (first | (intro _) | with_reducible (first | assumption | apply Ok.ite | apply Ok.foldl | apply Ok.elim | apply Ok.ite_fst | apply Ok.ite_snd | apply Ok.foldl_fst) | fail_if_no_progress (with_reducible apply Ok.frame <;> first | rfl | skip) | split)

theorem setPinS_ok {pd : List Instr} {s : State} {p : Nat} {v : PinS} (h : Ok pd s) : Ok pd (State.setPinS s p v) := by
  unfold State.setPinS
  try dsimp only
  repeat' (first | (intro _) | with_reducible (first | assumption | apply Ok.ite | apply Ok.foldl | apply Ok.elim | apply Ok.ite_fst | apply Ok.ite_snd | apply Ok.foldl_fst) | fail_if_no_progress (with_reducible apply Ok.frame <;> first | rfl | skip) | split)

theorem setPort_ok {pd : List Instr} {s : State} {k : Nat} {v : Port} (h : Ok pd s) : Ok pd (State.setPort s k v) := by
  unfold State.setPort
  try dsimp only
  repeat' (first | (intro _) | with_reducible (first | assumption | apply Ok.ite | apply Ok.foldl | apply Ok.elim | apply Ok.ite_fst | apply Ok.ite_snd | apply Ok.foldl_fst) | fail_if_no_progress (with_reducible apply Ok.frame <;> first | rfl | skip) | split)

theorem setPair_ok {pd : List Instr} {s : State} {p : Nat} {v : AinPair} (h : Ok pd s) : Ok pd (State.setPair s p v) := by
  unfold State.setPair
  try dsimp only
  repeat' (first | (intro _) | with_reducible (first | assumption | apply Ok.ite | apply Ok.foldl | apply Ok.elim | apply Ok.ite_fst | apply Ok.ite_snd | apply Ok.foldl_fst) | fail_if_no_progress (with_reducible apply Ok.frame <;> first | rfl | skip) | split)

theorem setSensor_ok {pd : List Instr} {s : State} {n : Nat} {v : TempSensor} (h : Ok pd s) : Ok pd (State.setSensor s n v) := by
  unfold State.setSensor
  try dsimp only
  repeat' (first | (intro _) | with_reducible (first | assumption | apply Ok.ite | apply Ok.foldl | apply Ok.elim | apply Ok.ite_fst | apply Ok.ite_snd | apply Ok.foldl_fst) | fail_if_no_progress (with_reducible apply Ok.frame <;> first | rfl | skip) | split)

theorem setLoad_ok {pd : List Instr} {s : State} {w : Nat} {v : Option Load} (h : Ok pd s) : Ok pd (State.setLoad s w v) := by
  unfold State.setLoad
  try dsimp only
  repeat' (first | (intro _) | with_reducible (first | assumption | apply Ok.ite | apply Ok.foldl | apply Ok.elim | apply Ok.ite_fst | apply Ok.ite_snd | apply Ok.foldl_fst) | fail_if_no_progress (with_reducible apply Ok.frame <;> first | rfl | skip) | split)

theorem setMsix_ok {pd : List Instr} {s : State} {v : Nat} {e : Msix} (h : Ok pd s) : Ok pd (State.setMsix s v e) := by
  unfold State.setMsix
  try dsimp only
  repeat' (first | (intro _) | with_reducible (first | assumption | apply Ok.ite | apply Ok.foldl | apply Ok.elim | apply Ok.ite_fst | apply Ok.ite_snd | apply Ok.foldl_fst) | fail_if_no_progress (with_reducible apply Ok.frame <;> first | rfl | skip) | split)

theorem at_ok {pd : List Instr} {s : State} {t : Nat} (h : Ok pd s) : Ok pd (State.at s t) := by
  unfold State.at
  by_cases c : (s.time.running && decide (s.time.timebase < t) && decide (t < 2 ^ 64)) = true
  · rw [if_pos c]
    simp only [Bool.and_eq_true, decide_eq_true_eq] at c
    exact ⟨h.1, c.2, h.2.2⟩
  · rw [if_neg c]; exact h

theorem tick_ok {pd : List Instr} {s : State} (h : Ok pd s) : Ok pd (State.tick s) := by
  unfold State.tick
  by_cases c : s.time.running = true
  · rw [if_pos c]; exact ⟨h.1, Nat.mod_lt _ (by decide), h.2.2⟩
  · rw [if_neg c]; exact h

theorem emit_ok {pd : List Instr} {s : State} {m : OutMsg} (h : Ok pd s) : Ok pd (State.emit s m) := by
  unfold State.emit
  try dsimp only
  repeat' (first | (intro _) | with_reducible (first | assumption | apply Ok.ite | apply Ok.foldl | apply Ok.elim | apply Ok.ite_fst | apply Ok.ite_snd | apply Ok.foldl_fst) | fail_if_no_progress (with_reducible apply Ok.frame <;> first | rfl | skip) | split)

theorem fresh_ok {pd : List Instr} {s : State} (h : Ok pd s) : Ok pd (State.fresh s).2 := by
  unfold State.fresh
  try dsimp only
  repeat' (first | (intro _) | with_reducible (first | assumption | apply Ok.ite | apply Ok.foldl | apply Ok.elim | apply Ok.ite_fst | apply Ok.ite_snd | apply Ok.foldl_fst) | fail_if_no_progress (with_reducible apply Ok.frame <;> first | rfl | skip) | split)

theorem spWrite_ok {pd : List Instr} {s : State} {a : Nat} {b : Bytes} (h : Ok pd s) : Ok pd (State.spWrite s a b) :=
  ⟨h.1, h.2.1, h.2.2.1, Tbl.wf_setRun h.2.2.2.1, h.2.2.2.2⟩

theorem hostWrite_ok {pd : List Instr} {s : State} {a : Nat} {b : Bytes} (h : Ok pd s) : Ok pd (State.hostWrite s a b) := by
  unfold State.hostWrite
  try dsimp only
  repeat' (first | (intro _) | with_reducible (first | assumption | apply emit_ok | apply spWrite_ok | apply Ok.ite | apply Ok.foldl | apply Ok.elim | apply Ok.ite_fst | apply Ok.ite_snd | apply Ok.foldl_fst) | fail_if_no_progress (with_reducible apply Ok.frame <;> first | rfl | skip) | split)

theorem raiseVec_ok {pd : List Instr} {s : State} {v : Nat} (h : Ok pd s) : Ok pd (State.raiseVec s v) := by
  unfold State.raiseVec
  try dsimp only
  repeat' (first | (intro _) | with_reducible (first | assumption | apply Ok.ite | apply Ok.foldl | apply Ok.elim | apply Ok.ite_fst | apply Ok.ite_snd | apply Ok.foldl_fst) | fail_if_no_progress (with_reducible apply Ok.frame <;> first | rfl | skip) | split)

theorem setCtr_ok {pd : List Instr} {s : State} {u : Nat} {k : Nat} {v : Ctr} (h : Ok pd s) : Ok pd (State.setCtr s u k v) := by
  unfold State.setCtr
  try dsimp only
  repeat' (first | (intro _) | with_reducible (first | assumption | apply Ok.ite | apply Ok.foldl | apply Ok.elim | apply Ok.ite_fst | apply Ok.ite_snd | apply Ok.foldl_fst) | fail_if_no_progress (with_reducible apply Ok.frame <;> first | rfl | skip) | split)

theorem bumpRaw_ok {pd : List Instr} {s : State} {u : Nat} {k : Nat} {n : Nat} (h : Ok pd s) : Ok pd (State.bumpRaw s u k n).1 := by
  unfold State.bumpRaw
  try dsimp only
  repeat' (first | (intro _) | with_reducible (first | assumption | apply setCtr_ok | apply Ok.ite | apply Ok.foldl | apply Ok.elim | apply Ok.ite_fst | apply Ok.ite_snd | apply Ok.foldl_fst) | fail_if_no_progress (with_reducible apply Ok.frame <;> first | rfl | skip) | split)

theorem meWrite_ok {pd : List Instr} {s : State} {e : LogEntry} (h : Ok pd s) : Ok pd (State.meWrite s e) := by
  unfold State.meWrite
  dsimp only
  have h1 := hostWrite_ok (a := s.host.me.base + 32 * s.host.me.tail) (b := toLE 8 e.ts ++ toLE 2 e.code ++ toLE 1 e.level ++
    toLE 1 (b2n s.host.me.overflow + 128 * b2n s.host.me.phase) ++ toLE 4 e.idx ++ toLE 8 e.a0 ++ toLE 8 e.a1) h
  refine raiseVec_ok ?_
  exact ⟨h1.1, h1.2.1, h1.2.2.1, h1.2.2.2.1, h1.2.2.2.2.1, h1.2.2.2.2.2.1, h.2.2.2.2.2.2.1, h1.2.2.2.2.2.2.2⟩

theorem meRaise_ok {pd : List Instr} {s : State} {e : LogEntry} (h : Ok pd s) : Ok pd (State.meRaise s e) := by
  unfold State.meRaise
  dsimp only
  by_cases c : (!s.host.me.enable) = true
  · rw [if_pos c]; exact h
  · rw [if_neg c]
    by_cases c2 : (s.host.me.held.isEmpty && !s.host.me.full) = true
    · rw [if_pos c2]; exact meWrite_ok h
    · rw [if_neg c2]
      by_cases c3 : s.host.me.held.length < 64
      · rw [if_pos c3]
        refine ⟨h.1, h.2.1, h.2.2.1, h.2.2.2.1, h.2.2.2.2.1, h.2.2.2.2.2.1, ?_, h.2.2.2.2.2.2.2⟩
        simp only [List.length_append, List.length_singleton]
        exact c3
      · rw [if_neg c3]; exact h.frame rfl rfl rfl rfl rfl rfl rfl rfl rfl rfl rfl rfl rfl rfl

theorem logPush_ok {pd : List Instr} {s : State} {e : LogEntry} (h : Ok pd s) : Ok pd (State.logPush s e) := by
  unfold State.logPush
  dsimp only
  have ht : ∀ x : LogEntry, (s.chip.log.tail ++ [x]).length ≤ 8192 ∨ s.chip.log.length < 8192 := by
    intro x
    have := h.2.2.2.2.1
    simp only [List.length_append, List.length_tail, List.length_singleton]
    omega
  by_cases c : s.chip.log.length < 8192
  · rw [if_pos c]
    refine ⟨h.1, h.2.1, h.2.2.1, h.2.2.2.1, ?_, h.2.2.2.2.2⟩
    simp only [List.length_append, List.length_singleton]
    exact c
  · rw [if_neg c]
    by_cases c2 : s.chip.drained = 0
    · rw [if_pos c2]
      have h1 := bumpRaw_ok (u := 0) (k := 5) (n := 1) h
      exact ⟨h1.1, h1.2.1, h1.2.2.1, h1.2.2.2.1, (ht _).resolve_right c, h1.2.2.2.2.2⟩
    · rw [if_neg c2]
      exact ⟨h.1, h.2.1, h.2.2.1, h.2.2.2.1, (ht _).resolve_right c, h.2.2.2.2.2⟩

theorem logWrite_ok {pd : List Instr} {s : State} {e : LogEntry} (h : Ok pd s) : Ok pd (State.logWrite s e).1 := by
  unfold State.logWrite
  try dsimp only
  repeat' (first | (intro _) | with_reducible (first | assumption | apply bumpRaw_ok | apply meRaise_ok | apply logPush_ok | apply Ok.ite | apply Ok.foldl | apply Ok.elim | apply Ok.ite_fst | apply Ok.ite_snd | apply Ok.foldl_fst) | fail_if_no_progress (with_reducible apply Ok.frame <;> first | rfl | skip) | split)

theorem logAll_ok {pd : List Instr} (n : Nat) (l : List LogEntry) (s : State) (h : Ok pd s) : Ok pd (State.logAll n l s) := by
  induction n generalizing l s with
  | zero => cases l <;> exact h
  | succ n ih =>
    cases l with
    | nil => exact h
    | cons e es => exact ih _ _ (logWrite_ok h)

theorem logEntry_ok {pd : List Instr} {s : State} {e : LogEntry} (h : Ok pd s) : Ok pd (State.logEntry s e) := by
  unfold State.logEntry
  dsimp only
  by_cases c : s.chip.failed = true
  · rw [if_pos c]; exact h
  · rw [if_neg c]
    by_cases c2 : s.chip.restarting = true
    · rw [if_pos c2]
      by_cases c3 : s.chip.heldLog.length < 256
      · rw [if_pos c3]
        refine ⟨h.1, h.2.1, h.2.2.1, h.2.2.2.1, h.2.2.2.2.1, ?_, h.2.2.2.2.2.2⟩
        simp only [List.length_append, List.length_singleton]
        exact c3
      · rw [if_neg c3]; exact (bumpRaw_ok h).frame rfl rfl rfl rfl rfl rfl rfl rfl rfl rfl rfl rfl rfl rfl
    · rw [if_neg c2]; exact logAll_ok _ _ _ h

theorem log_ok {pd : List Instr} {s : State} {code : Nat} {level : Nat} {idx : Nat} {a0 : Nat} {a1 : Nat} (h : Ok pd s) : Ok pd (State.log s code level idx a0 a1) := by
  unfold State.log
  try dsimp only
  repeat' (first | (intro _) | with_reducible (first | assumption | apply logEntry_ok | apply Ok.ite | apply Ok.foldl | apply Ok.elim | apply Ok.ite_fst | apply Ok.ite_snd | apply Ok.foldl_fst) | fail_if_no_progress (with_reducible apply Ok.frame <;> first | rfl | skip) | split)

theorem bumpN_ok {pd : List Instr} {s : State} {u : Nat} {k : Nat} {n : Nat} (h : Ok pd s) : Ok pd (State.bumpN s u k n) := by
  unfold State.bumpN
  try dsimp only
  repeat' (first | (intro _) | with_reducible (first | assumption | apply bumpRaw_ok | apply log_ok | apply Ok.ite | apply Ok.foldl | apply Ok.elim | apply Ok.ite_fst | apply Ok.ite_snd | apply Ok.foldl_fst) | fail_if_no_progress (with_reducible apply Ok.frame <;> first | rfl | skip) | split)

theorem bump_ok {pd : List Instr} {s : State} {u : Nat} {k : Nat} (h : Ok pd s) : Ok pd (State.bump s u k) := by
  unfold State.bump
  try dsimp only
  repeat' (first | (intro _) | with_reducible (first | assumption | apply bumpN_ok | apply Ok.ite | apply Ok.foldl | apply Ok.elim | apply Ok.ite_fst | apply Ok.ite_snd | apply Ok.foldl_fst) | fail_if_no_progress (with_reducible apply Ok.frame <;> first | rfl | skip) | split)

theorem post_ok {pd : List Instr} {s : State} {q : Nat} {tag : Nat} {handle : Nat} {kind : Nat} {status : Nat} {r0 : Nat} {r1 : Nat} {irq : Bool} (h : Ok pd s) : Ok pd (State.post s q tag handle kind status r0 r1 irq) := by
  unfold State.post
  try dsimp only
  repeat' (first | (intro _) | with_reducible (first | assumption | apply setCq_ok | apply hostWrite_ok | apply raiseVec_ok | apply Ok.ite | apply Ok.foldl | apply Ok.elim | apply Ok.ite_fst | apply Ok.ite_snd | apply Ok.foldl_fst) | fail_if_no_progress (with_reducible apply Ok.frame <;> first | rfl | skip) | split)

theorem release_ok {pd : List Instr} {s : State} {slot : Nat} (h : Ok pd s) : Ok pd (State.release s slot) := by
  unfold State.release
  try dsimp only
  repeat' (first | (intro _) | with_reducible (first | assumption | apply setHnd_ok | apply Ok.ite | apply Ok.foldl | apply Ok.elim | apply Ok.ite_fst | apply Ok.ite_snd | apply Ok.foldl_fst) | fail_if_no_progress (with_reducible apply Ok.frame <;> first | rfl | skip) | split)

theorem final1_ok {pd : List Instr} {s : State} {slot : Nat} {obj : Nat} {status : Nat} {r0 : Nat} {r1 : Nat} (h : Ok pd s) : Ok pd (State.final1 s slot obj status r0 r1) := by
  unfold State.final1
  try dsimp only
  repeat' (first | (intro _) | with_reducible (first | assumption | apply setCq_ok | apply setHnd_ok | apply post_ok | apply release_ok | apply Ok.ite | apply Ok.foldl | apply Ok.elim | apply Ok.ite_fst | apply Ok.ite_snd | apply Ok.foldl_fst) | fail_if_no_progress (with_reducible apply Ok.frame <;> first | rfl | skip) | split)

theorem finalWaiters_ok {pd : List Instr} (n slot status : Nat) (s : State) (h : Ok pd s) : Ok pd (State.finalWaiters n slot status s) := by
  induction n generalizing slot status s with
  | zero => exact h
  | succ n ih => exact Ok.foldl h fun s w hs => ih _ _ _ (final1_ok hs)

theorem countSysFail_ok {pd : List Instr} {s : State} {slot : Nat} {status : Nat} (h : Ok pd s) : Ok pd (State.countSysFail s slot status) := by
  unfold State.countSysFail
  try dsimp only
  repeat' (first | (intro _) | with_reducible (first | assumption | apply bump_ok | apply Ok.ite | apply Ok.foldl | apply Ok.elim | apply Ok.ite_fst | apply Ok.ite_snd | apply Ok.foldl_fst) | fail_if_no_progress (with_reducible apply Ok.frame <;> first | rfl | skip) | split)

theorem finalObj_ok {pd : List Instr} {s : State} {slot obj status r0 r1 : Nat} (h : Ok pd s) : Ok pd (State.finalObj s slot obj status r0 r1) := by
  have h1 := countSysFail_ok (slot := slot) (status := status) h
  unfold State.finalObj
  refine Ok.ite (h.frame rfl rfl rfl rfl rfl rfl rfl rfl rfl rfl rfl rfl rfl rfl) (Ok.ite h (Ok.ite ?_ (finalWaiters_ok _ _ _ _ (final1_ok h1))))
  exact h1.frame rfl rfl rfl rfl rfl rfl rfl rfl rfl rfl rfl rfl rfl rfl

theorem final_ok {pd : List Instr} {s : State} {slot : Nat} {status : Nat} {r0 : Nat} {r1 : Nat} (h : Ok pd s) : Ok pd (State.final s slot status r0 r1) := by
  unfold State.final
  try dsimp only
  repeat' (first | (intro _) | with_reducible (first | assumption | apply finalObj_ok | apply Ok.ite | apply Ok.foldl | apply Ok.elim | apply Ok.ite_fst | apply Ok.ite_snd | apply Ok.foldl_fst) | fail_if_no_progress (with_reducible apply Ok.frame <;> first | rfl | skip) | split)

theorem setWork_ok {pd : List Instr} {s : State} {slot : Nat} {w : Work} (h : Ok pd s) : Ok pd (State.setWork s slot w) := by
  unfold State.setWork
  try dsimp only
  repeat' (first | (intro _) | with_reducible (first | assumption | apply setHnd_ok | apply Ok.ite | apply Ok.foldl | apply Ok.elim | apply Ok.ite_fst | apply Ok.ite_snd | apply Ok.foldl_fst) | fail_if_no_progress (with_reducible apply Ok.frame <;> first | rfl | skip) | split)

theorem progress_ok {pd : List Instr} {s : State} {slot : Nat} {r1 : Nat} (h : Ok pd s) : Ok pd (State.progress s slot r1) := by
  unfold State.progress
  try dsimp only
  repeat' (first | (intro _) | with_reducible (first | assumption | apply setHnd_ok | apply fresh_ok | apply post_ok | apply Ok.ite | apply Ok.foldl | apply Ok.elim | apply Ok.ite_fst | apply Ok.ite_snd | apply Ok.foldl_fst) | fail_if_no_progress (with_reducible apply Ok.frame <;> first | rfl | skip) | split)

theorem reject_ok {pd : List Instr} {s : State} {d : Desc} {status : Nat} {r0 : Nat} (h : Ok pd s) : Ok pd (State.reject s d status r0) := by
  unfold State.reject
  try dsimp only
  repeat' (first | (intro _) | with_reducible (first | assumption | apply bump_ok | apply post_ok | apply Ok.ite | apply Ok.foldl | apply Ok.elim | apply Ok.ite_fst | apply Ok.ite_snd | apply Ok.foldl_fst) | fail_if_no_progress (with_reducible apply Ok.frame <;> first | rfl | skip) | split)

theorem accept_ok {pd : List Instr} {s : State} {d : Desc} {a : Bytes} {slot : Nat} (h : Ok pd s) : Ok pd (State.accept s d a slot) := by
  unfold State.accept
  try dsimp only
  repeat' (first | (intro _) | with_reducible (first | assumption | apply setCq_ok | apply setHnd_ok | apply bump_ok | apply post_ok | apply Ok.ite | apply Ok.foldl | apply Ok.elim | apply Ok.ite_fst | apply Ok.ite_snd | apply Ok.foldl_fst) | fail_if_no_progress (with_reducible apply Ok.frame <;> first | rfl | skip) | split)

theorem dispatch_ok {pd : List Instr} {s0 : State} {op : Nat} {d0 : Desc} {bad : Bytes → Option Nat} {pre : State → Bytes → Option Nat} (h : Ok pd s0) : Ok pd (State.dispatch s0 op d0 bad pre).1 := by
  unfold State.dispatch
  try dsimp only
  repeat' (first | (intro _) | with_reducible (first | assumption | apply setCq_ok | apply at_ok | apply final_ok | apply reject_ok | apply accept_ok | apply Ok.ite | apply Ok.foldl | apply Ok.elim | apply Ok.ite_fst | apply Ok.ite_snd | apply Ok.foldl_fst) | fail_if_no_progress (with_reducible apply Ok.frame <;> first | rfl | skip) | split)

theorem command_ok {pd : List Instr} {s : State} {op : Nat} {d : Desc} {bad : Bytes → Option Nat} {pre : State → Bytes → Option Nat}
    {body : Nat → Bytes → State → State} (h : Ok pd s) (hb : ∀ slot a s, Ok pd s → Ok pd (body slot a s)) :
    Ok pd (State.command s op d bad pre body) := by
  have hd := dispatch_ok (op := op) (d0 := d) (bad := bad) (pre := pre) h
  unfold State.command
  split
  · rename_i e; rw [e] at hd; exact hd
  · rename_i e; rw [e] at hd; exact hb _ _ _ hd

theorem onRegion_ok {pd : List Instr} {s : State} {r slot : Nat} {cmd : Instr} {body : State → State} (h : Ok pd s)
    (hb : ∀ s, Ok pd s → Ok pd (body s)) : Ok pd (State.onRegion s r slot cmd body) :=
  Ok.ite (final_ok h) (Ok.ite (hb _ h) (setWork_ok h))

theorem onRegions_ok {pd : List Instr} {s : State} {rs : List Nat} {slot : Nat} {cmd : Instr} {body : State → State} (h : Ok pd s)
    (hb : ∀ s, Ok pd s → Ok pd (body s)) : Ok pd (State.onRegions s rs slot cmd body) := by
  unfold State.onRegions
  refine Ok.ite (final_ok h) ?_
  split
  · exact setWork_ok h
  · exact hb _ h

theorem queueCmd_ok {pd : List Instr} {d : Desc} {s : State} {f : State → State} (hf : ∀ s, Ok pd s → Ok pd (f s)) (h : Ok pd s) :
    OkO pd (queueCmd d s f) := by
  unfold queueCmd
  split
  · exact (hf _ h).outcome
  · exact Ok.fault _

theorem ifUnit_ok {pd : List Instr} {ok : Bool} {s : State} (h : Ok pd s) : OkO pd (ifUnit ok s) := by
  unfold ifUnit
  split
  · exact h.outcome
  · exact Ok.fault _

end Sys2Proof.Machine
end

