-- ==== Sys2Proof/Laws/OkFrames.lean ====
section
/-! SUPPORT. Every operation of Machine/Frames.lean keeps the queue and every bounded field. -/

namespace Sys2Proof.Machine

set_option linter.unusedTactic false
set_option linter.unreachableTactic false

theorem setFrame_ok {pd : List Instr} {s : State} {f : Nat} {b : Bytes} (h : Ok pd s) : Ok pd (State.setFrame s f b) := by
  unfold State.setFrame
  try dsimp only
  repeat' (first | (intro _) | with_reducible (first | assumption | apply Ok.ite | apply Ok.foldl | apply Ok.elim | apply Ok.ite_fst | apply Ok.ite_snd | apply Ok.foldl_fst) | fail_if_no_progress (with_reducible apply Ok.frame <;> first | rfl | skip) | split)

theorem forceGuards_ok {pd : List Instr} {s : State} (h : Ok pd s) : Ok pd (State.forceGuards s) := by
  unfold State.forceGuards
  try dsimp only
  repeat' (first | (intro _) | with_reducible (first | assumption | apply log_ok | apply Ok.ite | apply Ok.foldl | apply Ok.elim | apply Ok.ite_fst | apply Ok.ite_snd | apply Ok.foldl_fst) | fail_if_no_progress (with_reducible apply Ok.frame <;> first | rfl | skip) | split)

theorem setFF_ok {pd : List Instr} {s : State} {n : Nat} {v : Nat} (h : Ok pd s) : Ok pd (State.setFF s n v) := by
  unfold State.setFF
  try dsimp only
  repeat' (first | (intro _) | with_reducible (first | assumption | apply Ok.ite | apply Ok.foldl | apply Ok.elim | apply Ok.ite_fst | apply Ok.ite_snd | apply Ok.foldl_fst) | fail_if_no_progress (with_reducible apply Ok.frame <;> first | rfl | skip) | split)

theorem clearGuarded_ok {pd : List Instr} {s : State} {p : Nat → Bool} (h : Ok pd s) : Ok pd (State.clearGuarded s p) := by
  unfold State.clearGuarded
  try dsimp only
  repeat' (first | (intro _) | with_reducible (first | assumption | apply Ok.ite | apply Ok.foldl | apply Ok.elim | apply Ok.ite_fst | apply Ok.ite_snd | apply Ok.foldl_fst) | fail_if_no_progress (with_reducible apply Ok.frame <;> first | rfl | skip) | split)

theorem initFFs_ok {pd : List Instr} {s : State} {r : Nat} (h : Ok pd s) : Ok pd (State.initFFs s r) := by
  unfold State.initFFs
  try dsimp only
  repeat' (first | (intro _) | with_reducible (first | assumption | apply setFF_ok | apply Ok.ite | apply Ok.foldl | apply Ok.elim | apply Ok.ite_fst | apply Ok.ite_snd | apply Ok.foldl_fst) | fail_if_no_progress (with_reducible apply Ok.frame <;> first | rfl | skip) | split)

end Sys2Proof.Machine
end

