-- ==== Sys2Proof/Laws/OkLogic.lean ====
section
/-! SUPPORT. Every operation of Machine/Logic.lean keeps the queue and every bounded field. -/

namespace Sys2Proof.Machine

set_option linter.unusedTactic false
set_option linter.unreachableTactic false

theorem asyncResets_ok {pd : List Instr} (high : List (Nat × Nat)) (n : Nat) (s : State) (h : Ok pd s) : Ok pd (State.asyncResets high n s) := by
  induction n generalizing s with
  | zero => exact h
  | succ n ih =>
    rw [State.asyncResets]
    try dsimp only
    repeat' (first | (intro _) | with_reducible (first | assumption | apply ih | apply setFF_ok | apply Ok.ite | apply Ok.foldl | apply Ok.elim | apply Ok.ite_fst | apply Ok.ite_snd | apply Ok.foldl_fst) | fail_if_no_progress (with_reducible apply Ok.frame <;> first | rfl | skip) | split)

theorem clockEdge_ok {pd : List Instr} {s : State} {g : Nat} {high : List (Nat × Nat)} (h : Ok pd s) : Ok pd (State.clockEdge s g high) := by
  unfold State.clockEdge
  try dsimp only
  repeat' (first | (intro _) | with_reducible (first | assumption | apply setFF_ok | apply asyncResets_ok | apply Ok.ite | apply Ok.foldl | apply Ok.elim | apply Ok.ite_fst | apply Ok.ite_snd | apply Ok.foldl_fst) | fail_if_no_progress (with_reducible apply Ok.frame <;> first | rfl | skip) | split)

end Sys2Proof.Machine
end

