-- ==== Sys2Proof/Laws/OkLedger.lean ====
section
/-! SUPPORT. Every operation of Machine/Ledger.lean keeps the queue and every bounded field. -/

namespace Sys2Proof.Machine

set_option linter.unusedTactic false
set_option linter.unreachableTactic false

theorem setLed_ok {pd : List Instr} {s : State} {n : Nat} {v : Led} (h : Ok pd s) : Ok pd (State.setLed s n v) := by
  unfold State.setLed
  try dsimp only
  repeat' (first | (intro _) | with_reducible (first | assumption | apply Ok.ite | apply Ok.foldl | apply Ok.elim | apply Ok.ite_fst | apply Ok.ite_snd | apply Ok.foldl_fst) | fail_if_no_progress (with_reducible apply Ok.frame <;> first | rfl | skip) | split)

theorem updLeds_ok {pd : List Instr} {s : State} {ns : List Nat} {f : Nat → Led → Led} (h : Ok pd s) : Ok pd (State.updLeds s ns f) := by
  unfold State.updLeds
  try dsimp only
  repeat' (first | (intro _) | with_reducible (first | assumption | apply setLed_ok | apply Ok.ite | apply Ok.foldl | apply Ok.elim | apply Ok.ite_fst | apply Ok.ite_snd | apply Ok.foldl_fst) | fail_if_no_progress (with_reducible apply Ok.frame <;> first | rfl | skip) | split)

theorem quarantineCell_ok {pd : List Instr} {s : State} {n : Nat} (h : Ok pd s) : Ok pd (State.quarantineCell s n) := by
  unfold State.quarantineCell
  try dsimp only
  repeat' (first | (intro _) | with_reducible (first | assumption | apply updLeds_ok | apply Ok.ite | apply Ok.foldl | apply Ok.elim | apply Ok.ite_fst | apply Ok.ite_snd | apply Ok.foldl_fst) | fail_if_no_progress (with_reducible apply Ok.frame <;> first | rfl | skip) | split)

theorem markCell_ok {pd : List Instr} {s : State} {n : Nat} {state : Nat} {owner : Nat} {valid : Bool} (h : Ok pd s) : Ok pd (State.markCell s n state owner valid) := by
  unfold State.markCell
  try dsimp only
  repeat' (first | (intro _) | with_reducible (first | assumption | apply updLeds_ok | apply Ok.ite | apply Ok.foldl | apply Ok.elim | apply Ok.ite_fst | apply Ok.ite_snd | apply Ok.foldl_fst) | fail_if_no_progress (with_reducible apply Ok.frame <;> first | rfl | skip) | split)

theorem activatePair_ok {pd : List Instr} {s : State} {n : Nat} {i : Nat} (h : Ok pd s) : Ok pd (State.activatePair s n i) := by
  unfold State.activatePair
  try dsimp only
  repeat' (first | (intro _) | with_reducible (first | assumption | apply setCell_ok | apply updLeds_ok | apply Ok.ite | apply Ok.foldl | apply Ok.elim | apply Ok.ite_fst | apply Ok.ite_snd | apply Ok.foldl_fst) | fail_if_no_progress (with_reducible apply Ok.frame <;> first | rfl | skip) | split)

theorem choosePair_ok {pd : List Instr} {s : State} {n : Nat} (h : Ok pd s) : Ok pd (State.choosePair s n) := by
  unfold State.choosePair
  try dsimp only
  repeat' (first | (intro _) | with_reducible (first | assumption | apply activatePair_ok | apply Ok.ite | apply Ok.foldl | apply Ok.elim | apply Ok.ite_fst | apply Ok.ite_snd | apply Ok.foldl_fst) | fail_if_no_progress (with_reducible apply Ok.frame <;> first | rfl | skip) | split)

theorem restandCaps_ok {pd : List Instr} {s : State} {n : Nat} {lo : Nat} {key : Nat} {on : Bool} (h : Ok pd s) : Ok pd (State.restandCaps s n lo key on) := by
  unfold State.restandCaps
  try dsimp only
  repeat' (first | (intro _) | with_reducible (first | assumption | apply setCell_ok | apply setLed_ok | apply Ok.ite | apply Ok.foldl | apply Ok.elim | apply Ok.ite_fst | apply Ok.ite_snd | apply Ok.foldl_fst) | fail_if_no_progress (with_reducible apply Ok.frame <;> first | rfl | skip) | split)

theorem restandSegs_ok {pd : List Instr} {s : State} {n : Nat} {on : Bool} (h : Ok pd s) : Ok pd (State.restandSegs s n on) := by
  unfold State.restandSegs
  try dsimp only
  repeat' (first | (intro _) | with_reducible (first | assumption | apply setCell_ok | apply setLed_ok | apply Ok.ite | apply Ok.foldl | apply Ok.elim | apply Ok.ite_fst | apply Ok.ite_snd | apply Ok.foldl_fst) | fail_if_no_progress (with_reducible apply Ok.frame <;> first | rfl | skip) | split)

theorem restandSwitches_ok {pd : List Instr} {s : State} {n : Nat} {on : Bool} (h : Ok pd s) : Ok pd (State.restandSwitches s n on) := by
  unfold State.restandSwitches
  try dsimp only
  repeat' (first | (intro _) | with_reducible (first | assumption | apply setLed_ok | apply updLeds_ok | apply Ok.ite | apply Ok.foldl | apply Ok.elim | apply Ok.ite_fst | apply Ok.ite_snd | apply Ok.foldl_fst) | fail_if_no_progress (with_reducible apply Ok.frame <;> first | rfl | skip) | split)

theorem restand_ok {pd : List Instr} {s : State} {n : Nat} {on : Bool} (h : Ok pd s) : Ok pd (State.restand s n on) := by
  unfold State.restand
  try dsimp only
  repeat' (first | (intro _) | with_reducible (first | assumption | apply restandCaps_ok | apply restandSegs_ok | apply restandSwitches_ok | apply Ok.ite | apply Ok.foldl | apply Ok.elim | apply Ok.ite_fst | apply Ok.ite_snd | apply Ok.foldl_fst) | fail_if_no_progress (with_reducible apply Ok.frame <;> first | rfl | skip) | split)

theorem setPortSeg_ok {pd : List Instr} {s : State} {n : Nat} {port : Nat} {seg : Nat} (h : Ok pd s) : Ok pd (State.setPortSeg s n port seg) := by
  unfold State.setPortSeg
  try dsimp only
  repeat' (first | (intro _) | with_reducible (first | assumption | apply setLed_ok | apply Ok.ite | apply Ok.foldl | apply Ok.elim | apply Ok.ite_fst | apply Ok.ite_snd | apply Ok.foldl_fst) | fail_if_no_progress (with_reducible apply Ok.frame <;> first | rfl | skip) | split)

theorem openSwitches_ok {pd : List Instr} {s : State} {n : Nat} (h : Ok pd s) : Ok pd (State.openSwitches s n) := by
  unfold State.openSwitches
  try dsimp only
  repeat' (first | (intro _) | with_reducible (first | assumption | apply updLeds_ok | apply Ok.ite | apply Ok.foldl | apply Ok.elim | apply Ok.ite_fst | apply Ok.ite_snd | apply Ok.foldl_fst) | fail_if_no_progress (with_reducible apply Ok.frame <;> first | rfl | skip) | split)

theorem freeCell_ok {pd : List Instr} {s : State} {n : Nat} (h : Ok pd s) : Ok pd (State.freeCell s n) := by
  unfold State.freeCell
  try dsimp only
  repeat' (first | (intro _) | with_reducible (first | assumption | apply setCell_ok | apply markCell_ok | apply restand_ok | apply openSwitches_ok | apply Ok.ite | apply Ok.foldl | apply Ok.elim | apply Ok.ite_fst | apply Ok.ite_snd | apply Ok.foldl_fst) | fail_if_no_progress (with_reducible apply Ok.frame <;> first | rfl | skip) | split)

theorem takeCell_ok {pd : List Instr} {s : State} {n : Nat} {slot : Nat} {prim : Nat} {bias : Nat} {dest : Bool} {valid : Bool} (h : Ok pd s) : Ok pd (State.takeCell s n slot prim bias dest valid) := by
  unfold State.takeCell
  try dsimp only
  repeat' (first | (intro _) | with_reducible (first | assumption | apply setCell_ok | apply markCell_ok | apply choosePair_ok | apply restand_ok | apply Ok.ite | apply Ok.foldl | apply Ok.elim | apply Ok.ite_fst | apply Ok.ite_snd | apply Ok.foldl_fst) | fail_if_no_progress (with_reducible apply Ok.frame <;> first | rfl | skip) | split)

theorem spareCell_ok {pd : List Instr} {s : State} {n : Nat} {owner : Option Nat} (h : Ok pd s) : Ok pd (State.spareCell s n owner) := by
  unfold State.spareCell
  try dsimp only
  repeat' (first | (intro _) | with_reducible (first | assumption | apply setCell_ok | apply markCell_ok | apply restand_ok | apply openSwitches_ok | apply Ok.ite | apply Ok.foldl | apply Ok.elim | apply Ok.ite_fst | apply Ok.ite_snd | apply Ok.foldl_fst) | fail_if_no_progress (with_reducible apply Ok.frame <;> first | rfl | skip) | split)

theorem configCell_ok {pd : List Instr} {s : State} {n : Nat} {conf : List Nat} (h : Ok pd s) : Ok pd (State.configCell s n conf) := by
  unfold State.configCell
  try dsimp only
  repeat' (first | (intro _) | with_reducible (first | assumption | apply setCell_ok | apply setLed_ok | apply Ok.ite | apply Ok.foldl | apply Ok.elim | apply Ok.ite_fst | apply Ok.ite_snd | apply Ok.foldl_fst) | fail_if_no_progress (with_reducible apply Ok.frame <;> first | rfl | skip) | split)

theorem controls_ok {pd : List Instr} {s : State} {g : Graph} (h : Ok pd s) : Ok pd (State.controls s g) := by
  unfold State.controls
  try dsimp only
  repeat' (first | (intro _) | with_reducible (first | assumption | apply setCell_ok | apply Ok.ite | apply Ok.foldl | apply Ok.elim | apply Ok.ite_fst | apply Ok.ite_snd | apply Ok.foldl_fst) | fail_if_no_progress (with_reducible apply Ok.frame <;> first | rfl | skip) | split)

theorem setCtl_ok {pd : List Instr} {s : State} {code : Nat} {level : Bool} (h : Ok pd s) : Ok pd (State.setCtl s code level) := by
  unfold State.setCtl
  try dsimp only
  repeat' (first | (intro _) | with_reducible (first | assumption | apply controls_ok | apply Ok.ite | apply Ok.foldl | apply Ok.elim | apply Ok.ite_fst | apply Ok.ite_snd | apply Ok.foldl_fst) | fail_if_no_progress (with_reducible apply Ok.frame <;> first | rfl | skip) | split)

theorem takeSeg_ok {pd : List Instr} {s : State} {k : Nat} {slot : Nat} {net : Nat} {valid : Bool} (h : Ok pd s) : Ok pd (State.takeSeg s k slot net valid) := by
  unfold State.takeSeg
  try dsimp only
  repeat' (first | (intro _) | with_reducible (first | assumption | apply setLed_ok | apply Ok.ite | apply Ok.foldl | apply Ok.elim | apply Ok.ite_fst | apply Ok.ite_snd | apply Ok.foldl_fst) | fail_if_no_progress (with_reducible apply Ok.frame <;> first | rfl | skip) | split)

theorem freeSeg_ok {pd : List Instr} {s : State} {k : Nat} (h : Ok pd s) : Ok pd (State.freeSeg s k) := by
  unfold State.freeSeg
  try dsimp only
  repeat' (first | (intro _) | with_reducible (first | assumption | apply setLed_ok | apply Ok.ite | apply Ok.foldl | apply Ok.elim | apply Ok.ite_fst | apply Ok.ite_snd | apply Ok.foldl_fst) | fail_if_no_progress (with_reducible apply Ok.frame <;> first | rfl | skip) | split)

theorem freeNets_ok {pd : List Instr} {s : State} {g : Graph} (h : Ok pd s) : Ok pd (State.freeNets s g) := by
  unfold State.freeNets
  try dsimp only
  repeat' (first | (intro _) | with_reducible (first | assumption | apply freeSeg_ok | apply Ok.ite | apply Ok.foldl | apply Ok.elim | apply Ok.ite_fst | apply Ok.ite_snd | apply Ok.foldl_fst) | fail_if_no_progress (with_reducible apply Ok.frame <;> first | rfl | skip) | split)

theorem joinPorts_ok {pd : List Instr} {s : State} {g : Graph} {i : Nat} (h : Ok pd s) : Ok pd (State.joinPorts s g i) := by
  unfold State.joinPorts
  try dsimp only
  repeat' (first | (intro _) | with_reducible (first | assumption | apply setPortSeg_ok | apply Ok.ite | apply Ok.foldl | apply Ok.elim | apply Ok.ite_fst | apply Ok.ite_snd | apply Ok.foldl_fst) | fail_if_no_progress (with_reducible apply Ok.frame <;> first | rfl | skip) | split)

theorem takeRoutes_ok {pd : List Instr} {s : State} {slot : Nat} {rs : List (Nat × List Nat)} {valid : Bool} (h : Ok pd s) : Ok pd (State.takeRoutes s slot rs valid) := by
  unfold State.takeRoutes
  try dsimp only
  repeat' (first | (intro _) | with_reducible (first | assumption | apply takeSeg_ok | apply Ok.ite | apply Ok.foldl | apply Ok.elim | apply Ok.ite_fst | apply Ok.ite_snd | apply Ok.foldl_fst) | fail_if_no_progress (with_reducible apply Ok.frame <;> first | rfl | skip) | split)

theorem takeNets_ok {pd : List Instr} {s : State} {g : Graph} {slot : Nat} {valid : Bool} (h : Ok pd s) : Ok pd (State.takeNets s g slot valid) := by
  unfold State.takeNets
  try dsimp only
  repeat' (first | (intro _) | with_reducible (first | assumption | apply takeRoutes_ok | apply Ok.ite | apply Ok.foldl | apply Ok.elim | apply Ok.ite_fst | apply Ok.ite_snd | apply Ok.foldl_fst) | fail_if_no_progress (with_reducible apply Ok.frame <;> first | rfl | skip) | split)

end Sys2Proof.Machine
end

