-- ==== Sys2Proof/Laws/OkConvOps.lean ====
section
/-! SUPPORT. Every operation of Machine/ConvOps.lean keeps the queue and every bounded field. -/

namespace Sys2Proof.Machine

set_option linter.unusedTactic false
set_option linter.unreachableTactic false

theorem setDueFlag_ok {pd : List Instr} {s : State} {kind : Nat} {idx : Nat} {v : Bool} (h : Ok pd s) : Ok pd (State.setDueFlag s kind idx v) := by
  unfold State.setDueFlag
  try dsimp only
  repeat' (first | (intro _) | with_reducible (first | assumption | apply setConv_ok | apply setDac_ok | apply setCell_ok | apply Ok.ite | apply Ok.foldl | apply Ok.elim | apply Ok.ite_fst | apply Ok.ite_snd | apply Ok.foldl_fst) | fail_if_no_progress (with_reducible apply Ok.frame <;> first | rfl | skip) | split)

theorem makeDue_ok {pd : List Instr} {s : State} {kind : Nat} {idx0 : Nat} {temp : Int} {move : Nat} {cmds : List Nat} (h : Ok pd s) : Ok pd (State.makeDue s kind idx0 temp move cmds) := by
  unfold State.makeDue
  try dsimp only
  repeat' (first | (intro _) | with_reducible (first | assumption | apply setDueFlag_ok | apply Ok.ite | apply Ok.foldl | apply Ok.elim | apply Ok.ite_fst | apply Ok.ite_snd | apply Ok.foldl_fst) | fail_if_no_progress (with_reducible apply Ok.frame <;> first | rfl | skip) | split)

theorem reportCals_ok {pd : List Instr} {s : State} {slot : Nat} (h : Ok pd s) : Ok pd (State.reportCals s slot) := by
  unfold State.reportCals
  try dsimp only
  repeat' (first | (intro _) | with_reducible (first | assumption | apply hostWrite_ok | apply Ok.ite | apply Ok.foldl | apply Ok.elim | apply Ok.ite_fst | apply Ok.ite_snd | apply Ok.foldl_fst) | fail_if_no_progress (with_reducible apply Ok.frame <;> first | rfl | skip) | split)

theorem calEnded_ok {pd : List Instr} {s : State} {slot : Nat} {done : Nat} {failed : Nat} (h : Ok pd s) : Ok pd (State.calEnded s slot done failed) := by
  unfold State.calEnded
  try dsimp only
  repeat' (first | (intro _) | with_reducible (first | assumption | apply final_ok | apply setWork_ok | apply reportCals_ok | apply Ok.ite | apply Ok.foldl | apply Ok.elim | apply Ok.ite_fst | apply Ok.ite_snd | apply Ok.foldl_fst) | fail_if_no_progress (with_reducible apply Ok.frame <;> first | rfl | skip) | split)

theorem dropRun_ok {pd : List Instr} {s : State} {kind : Nat} {idx0 : Nat} (h : Ok pd s) : Ok pd (State.dropRun s kind idx0) := by
  unfold State.dropRun
  try dsimp only
  repeat' (first | (intro _) | with_reducible (first | assumption | apply setConv_ok | apply makeDue_ok | apply Ok.ite | apply Ok.foldl | apply Ok.elim | apply Ok.ite_fst | apply Ok.ite_snd | apply Ok.foldl_fst) | fail_if_no_progress (with_reducible apply Ok.frame <;> first | rfl | skip) | split)

theorem forgetCal_ok {pd : List Instr} {s : State} {kind : Nat} {idx0 : Nat} (h : Ok pd s) : Ok pd (State.forgetCal s kind idx0) := by
  unfold State.forgetCal
  try dsimp only
  repeat' (first | (intro _) | with_reducible (first | assumption | apply setDueFlag_ok | apply calEnded_ok | apply dropRun_ok | apply Ok.ite | apply Ok.foldl | apply Ok.elim | apply Ok.ite_fst | apply Ok.ite_snd | apply Ok.foldl_fst) | fail_if_no_progress (with_reducible apply Ok.frame <;> first | rfl | skip) | split)

theorem writeRanks_ok {pd : List Instr} {s : State} {n : Nat} {j : Nat} {r : CalApply} (h : Ok pd s) : Ok pd (State.writeRanks s n j r) := by
  unfold State.writeRanks
  try dsimp only
  repeat' (first | (intro _) | with_reducible (first | assumption | apply setLed_ok | apply Ok.ite | apply Ok.foldl | apply Ok.elim | apply Ok.ite_fst | apply Ok.ite_snd | apply Ok.foldl_fst) | fail_if_no_progress (with_reducible apply Ok.frame <;> first | rfl | skip) | split)

theorem markCal_ok {pd : List Instr} {s : State} {c : Nat} {marks : List Nat} (h : Ok pd s) : Ok pd (State.markCal s c marks) := by
  unfold State.markCal
  try dsimp only
  repeat' (first | (intro _) | with_reducible (first | assumption | apply setConv_ok | apply Ok.ite | apply Ok.foldl | apply Ok.elim | apply Ok.ite_fst | apply Ok.ite_snd | apply Ok.foldl_fst) | fail_if_no_progress (with_reducible apply Ok.frame <;> first | rfl | skip) | split)

theorem staleSets_ok {pd : List Instr} {s : State} {c : Nat} {entry : Nat} {slot : Nat} (h : Ok pd s) : Ok pd (State.staleSets s c entry slot) := by
  unfold State.staleSets
  try dsimp only
  repeat' (first | (intro _) | with_reducible (first | assumption | apply setConv_ok | apply log_ok | apply markCal_ok | apply Ok.ite | apply Ok.foldl | apply Ok.elim | apply Ok.ite_fst | apply Ok.ite_snd | apply Ok.foldl_fst) | fail_if_no_progress (with_reducible apply Ok.frame <;> first | rfl | skip) | split)

theorem takeTaps_ok {pd : List Instr} {s : State} {slot : Nat} {taps : List (Nat × Nat × Nat)} (h : Ok pd s) : Ok pd (State.takeTaps s slot taps) := by
  unfold State.takeTaps
  try dsimp only
  repeat' (first | (intro _) | with_reducible (first | assumption | apply setConv_ok | apply staleSets_ok | apply Ok.ite | apply Ok.foldl | apply Ok.elim | apply Ok.ite_fst | apply Ok.ite_snd | apply Ok.foldl_fst) | fail_if_no_progress (with_reducible apply Ok.frame <;> first | rfl | skip) | split)

theorem settleConv_ok {pd : List Instr} {s : State} {c : Nat} {a : Nat × Nat} (h : Ok pd s) : Ok pd (State.settleConv s c a) := by
  unfold State.settleConv
  try dsimp only
  repeat' (first | (intro _) | with_reducible (first | assumption | apply setConv_ok | apply Ok.ite | apply Ok.foldl | apply Ok.elim | apply Ok.ite_fst | apply Ok.ite_snd | apply Ok.foldl_fst) | fail_if_no_progress (with_reducible apply Ok.frame <;> first | rfl | skip) | split)

theorem swapPlaces_ok {pd : List Instr} {s : State} {slot : Nat} {i : Nat} {d : PlaceP} {held : List (Nat × List Nat)} (h : Ok pd s) : Ok pd (State.swapPlaces s slot i d held) := by
  unfold State.swapPlaces
  try dsimp only
  repeat' (first | (intro _) | with_reducible (first | assumption | apply setConv_ok | apply setGraph_ok | apply controls_ok | apply freeSeg_ok | apply joinPorts_ok | apply takeRoutes_ok | apply Ok.ite | apply Ok.foldl | apply Ok.elim | apply Ok.ite_fst | apply Ok.ite_snd | apply Ok.foldl_fst) | fail_if_no_progress (with_reducible apply Ok.frame <;> first | rfl | skip) | split)

theorem configPrim_ok {pd : List Instr} {s : State} {p : Prim} (h : Ok pd s) : Ok pd (State.configPrim s p) := by
  unfold State.configPrim
  try dsimp only
  repeat' (first | (intro _) | with_reducible (first | assumption | apply configCell_ok | apply Ok.ite | apply Ok.foldl | apply Ok.elim | apply Ok.ite_fst | apply Ok.ite_snd | apply Ok.foldl_fst) | fail_if_no_progress (with_reducible apply Ok.frame <;> first | rfl | skip) | split)

theorem applyNext_ok {pd : List Instr} {s : State} {slot : Nat} {i : Nat} (h : Ok pd s) : Ok pd (State.applyNext s slot i) := by
  unfold State.applyNext
  try dsimp only
  repeat' (first | (intro _) | with_reducible (first | assumption | apply setCell_ok | apply setGraph_ok | apply freeCell_ok | apply controls_ok | apply swapPlaces_ok | apply configPrim_ok | apply Ok.ite | apply Ok.foldl | apply Ok.elim | apply Ok.ite_fst | apply Ok.ite_snd | apply Ok.foldl_fst) | fail_if_no_progress (with_reducible apply Ok.frame <;> first | rfl | skip) | split)

theorem writeSetting_ok {pd : List Instr} {s : State} {n : Nat} {e : Nat × Int} (h : Ok pd s) : Ok pd (State.writeSetting s n e) := by
  unfold State.writeSetting
  try dsimp only
  repeat' (first | (intro _) | with_reducible (first | assumption | apply setCell_ok | apply setLed_ok | apply activatePair_ok | apply restand_ok | apply applyNext_ok | apply Ok.ite | apply Ok.foldl | apply Ok.elim | apply Ok.ite_fst | apply Ok.ite_snd | apply Ok.foldl_fst) | fail_if_no_progress (with_reducible apply Ok.frame <;> first | rfl | skip) | split)

theorem applyCell_ok {pd : List Instr} {s : State} {n : Nat} (h : Ok pd s) : Ok pd (State.applyCell s n) := by
  unfold State.applyCell
  try dsimp only
  repeat' (first | (intro _) | with_reducible (first | assumption | apply setCell_ok | apply makeDue_ok | apply writeRanks_ok | apply markCal_ok | apply writeSetting_ok | apply Ok.ite | apply Ok.foldl | apply Ok.elim | apply Ok.ite_fst | apply Ok.ite_snd | apply Ok.foldl_fst) | fail_if_no_progress (with_reducible apply Ok.frame <;> first | rfl | skip) | split)

theorem dropNext_ok {pd : List Instr} {s : State} {gs : Nat} (h : Ok pd s) : Ok pd (State.dropNext s gs) := by
  unfold State.dropNext
  try dsimp only
  repeat' (first | (intro _) | with_reducible (first | assumption | apply setCell_ok | apply setGraph_ok | apply freeCell_ok | apply freeSeg_ok | apply Ok.ite | apply Ok.foldl | apply Ok.elim | apply Ok.ite_fst | apply Ok.ite_snd | apply Ok.foldl_fst) | fail_if_no_progress (with_reducible apply Ok.frame <;> first | rfl | skip) | split)

theorem revertGraph_ok {pd : List Instr} {s0 : State} {gs : Nat} (h : Ok pd s0) : Ok pd (State.revertGraph s0 gs) := by
  unfold State.revertGraph
  try dsimp only
  repeat' (first | (intro _) | with_reducible (first | assumption | apply setCell_ok | apply setGraph_ok | apply controls_ok | apply configPrim_ok | apply dropNext_ok | apply Ok.ite | apply Ok.foldl | apply Ok.elim | apply Ok.ite_fst | apply Ok.ite_snd | apply Ok.foldl_fst) | fail_if_no_progress (with_reducible apply Ok.frame <;> first | rfl | skip) | split)

theorem endTunes_ok {pd : List Instr} {s : State} (h : Ok pd s) : Ok pd (State.endTunes s) := by
  unfold State.endTunes
  try dsimp only
  repeat' (first | (intro _) | with_reducible (first | assumption | apply setGraph_ok | apply hostWrite_ok | apply final_ok | apply revertGraph_ok | apply Ok.ite | apply Ok.foldl | apply Ok.elim | apply Ok.ite_fst | apply Ok.ite_snd | apply Ok.foldl_fst) | fail_if_no_progress (with_reducible apply Ok.frame <;> first | rfl | skip) | split)

theorem applyCells_ok {pd : List Instr} {s : State} {ns : List Nat} (h : Ok pd s) : Ok pd (State.applyCells s ns) := by
  unfold State.applyCells
  try dsimp only
  repeat' (first | (intro _) | with_reducible (first | assumption | apply settleConv_ok | apply applyCell_ok | apply endTunes_ok | apply Ok.ite | apply Ok.foldl | apply Ok.elim | apply Ok.ite_fst | apply Ok.ite_snd | apply Ok.foldl_fst) | fail_if_no_progress (with_reducible apply Ok.frame <;> first | rfl | skip) | split)

theorem stage_ok {pd : List Instr} {s : State} {n : Nat} {vs : List (Nat × Int)} {cal : Bool} {settle : Option (Nat × Nat)} (h : Ok pd s) : Ok pd (State.stage s n vs cal settle) := by
  unfold State.stage
  try dsimp only
  repeat' (first | (intro _) | with_reducible (first | assumption | apply setCell_ok | apply applyCell_ok | apply Ok.ite | apply Ok.foldl | apply Ok.elim | apply Ok.ite_fst | apply Ok.ite_snd | apply Ok.foldl_fst) | fail_if_no_progress (with_reducible apply Ok.frame <;> first | rfl | skip) | split)

theorem feedMeas_ok {pd : List Instr} {s : State} {c : Nat} {e : SeqStep} {x : Int} {f : Flg} (h : Ok pd s) : Ok pd (State.feedMeas s c e x f) := by
  unfold State.feedMeas
  try dsimp only
  repeat' (first | (intro _) | with_reducible (first | assumption | apply setConv_ok | apply final_ok | apply Ok.ite | apply Ok.foldl | apply Ok.elim | apply Ok.ite_fst | apply Ok.ite_snd | apply Ok.foldl_fst) | fail_if_no_progress (with_reducible apply Ok.frame <;> first | rfl | skip) | split)

theorem sendRecord_ok {pd : List Instr} {s : State} {c : Nat} {val : Nat} {flags : Nat} {ts : Nat} (h : Ok pd s) : Ok pd (State.sendRecord s c val flags ts).1 := by
  unfold State.sendRecord
  try dsimp only
  repeat' (first | (intro _) | with_reducible (first | assumption | apply setDs_ok | apply setConv_ok | apply Ok.ite | apply Ok.foldl | apply Ok.elim | apply Ok.ite_fst | apply Ok.ite_snd | apply Ok.foldl_fst) | fail_if_no_progress (with_reducible apply Ok.frame <;> first | rfl | skip) | split)

theorem deliver_ok {pd : List Instr} {s : State} {c : Nat} {t : Nat} {e : SeqStep} {main : Int} {comp : Int} (h : Ok pd s) : Ok pd (State.deliver s c t e main comp).1 := by
  unfold State.deliver
  try dsimp only
  repeat' (first | (intro _) | with_reducible (first | assumption | apply setConv_ok | apply bump_ok | apply feedMeas_ok | apply sendRecord_ok | apply Ok.ite | apply Ok.foldl | apply Ok.elim | apply Ok.ite_fst | apply Ok.ite_snd | apply Ok.foldl_fst) | fail_if_no_progress (with_reducible apply Ok.frame <;> first | rfl | skip) | split)

end Sys2Proof.Machine
end

