-- ==== Sys2Proof/Laws/OkSpares.lean ====
section
/-! SUPPORT. Every operation of Machine/Spares.lean keeps the queue and every bounded field. -/

namespace Sys2Proof.Machine

set_option linter.unusedTactic false
set_option linter.unreachableTactic false

theorem giveUp_ok {pd : List Instr} {s : State} {t : Test} (h : Ok pd s) : Ok pd (State.giveUp s t) := by
  unfold State.giveUp
  try dsimp only
  repeat' (first | (intro _) | with_reducible (first | assumption | apply setConv_ok | apply setCell_ok | apply Ok.ite | apply Ok.foldl | apply Ok.elim | apply Ok.ite_fst | apply Ok.ite_snd | apply Ok.foldl_fst) | fail_if_no_progress (with_reducible apply Ok.frame <;> first | rfl | skip) | split)

theorem yieldWhere_ok {pd : List Instr} {s : State} {r : Nat} {why : Nat} {hit : Test → Bool} (h : Ok pd s) : Ok pd (State.yieldWhere s r why hit) := by
  unfold State.yieldWhere
  try dsimp only
  repeat' (first | (intro _) | with_reducible (first | assumption | apply setRegion_ok | apply log_ok | apply bump_ok | apply giveUp_ok | apply Ok.ite | apply Ok.foldl | apply Ok.elim | apply Ok.ite_fst | apply Ok.ite_snd | apply Ok.foldl_fst) | fail_if_no_progress (with_reducible apply Ok.frame <;> first | rfl | skip) | split)

theorem yieldTest_ok {pd : List Instr} {s : State} {r : Nat} {why : Nat} (h : Ok pd s) : Ok pd (State.yieldTest s r why) := by
  unfold State.yieldTest
  try dsimp only
  repeat' (first | (intro _) | with_reducible (first | assumption | apply yieldWhere_ok | apply Ok.ite | apply Ok.foldl | apply Ok.elim | apply Ok.ite_fst | apply Ok.ite_snd | apply Ok.foldl_fst) | fail_if_no_progress (with_reducible apply Ok.frame <;> first | rfl | skip) | split)

theorem yieldCell_ok {pd : List Instr} {s : State} {n : Nat} {why : Nat} (h : Ok pd s) : Ok pd (State.yieldCell s n why) := by
  unfold State.yieldCell
  try dsimp only
  repeat' (first | (intro _) | with_reducible (first | assumption | apply yieldWhere_ok | apply Ok.ite | apply Ok.foldl | apply Ok.elim | apply Ok.ite_fst | apply Ok.ite_snd | apply Ok.foldl_fst) | fail_if_no_progress (with_reducible apply Ok.frame <;> first | rfl | skip) | split)

theorem yieldConv_ok {pd : List Instr} {s : State} {c : Nat} {why : Nat} (h : Ok pd s) : Ok pd (State.yieldConv s c why) := by
  unfold State.yieldConv
  try dsimp only
  repeat' (first | (intro _) | with_reducible (first | assumption | apply yieldWhere_ok | apply Ok.ite | apply Ok.foldl | apply Ok.elim | apply Ok.ite_fst | apply Ok.ite_snd | apply Ok.foldl_fst) | fail_if_no_progress (with_reducible apply Ok.frame <;> first | rfl | skip) | split)

theorem yieldSegs_ok {pd : List Instr} {s : State} {ks : List Nat} {why : Nat} (h : Ok pd s) : Ok pd (State.yieldSegs s ks why) := by
  unfold State.yieldSegs
  try dsimp only
  repeat' (first | (intro _) | with_reducible (first | assumption | apply yieldWhere_ok | apply Ok.ite | apply Ok.foldl | apply Ok.elim | apply Ok.ite_fst | apply Ok.ite_snd | apply Ok.foldl_fst) | fail_if_no_progress (with_reducible apply Ok.frame <;> first | rfl | skip) | split)

theorem fillPool_ok {pd : List Instr} (n : Nat) (y0 : Nat) (s : State) (h : Ok pd s) : Ok pd (State.fillPool n y0 s) := by
  induction n generalizing y0 s with
  | zero => exact h
  | succ n ih =>
    rw [State.fillPool]
    try dsimp only
    repeat' (first | (intro _) | with_reducible (first | assumption | apply ih | apply setRegion_ok | apply log_ok | apply spareCell_ok | apply yieldCell_ok | apply Ok.ite | apply Ok.foldl | apply Ok.elim | apply Ok.ite_fst | apply Ok.ite_snd | apply Ok.foldl_fst) | fail_if_no_progress (with_reducible apply Ok.frame <;> first | rfl | skip) | split)

theorem refill_ok {pd : List Instr} {s : State} {r : Nat} (h : Ok pd s) : Ok pd (State.refill s r) := by
  unfold State.refill
  try dsimp only
  repeat' (first | (intro _) | with_reducible (first | assumption | apply fillPool_ok | apply Ok.ite | apply Ok.foldl | apply Ok.elim | apply Ok.ite_fst | apply Ok.ite_snd | apply Ok.foldl_fst) | fail_if_no_progress (with_reducible apply Ok.frame <;> first | rfl | skip) | split)

theorem shrinkPool_ok {pd : List Instr} (n : Nat) (y0 : Nat) (y1 : Nat) (s : State) (h : Ok pd s) : Ok pd (State.shrinkPool n y0 y1 s) := by
  induction n generalizing y0 y1 s with
  | zero => exact h
  | succ n ih =>
    rw [State.shrinkPool]
    try dsimp only
    repeat' (first | (intro _) | with_reducible (first | assumption | apply ih | apply freeCell_ok | apply Ok.ite | apply Ok.foldl | apply Ok.elim | apply Ok.ite_fst | apply Ok.ite_snd | apply Ok.foldl_fst) | fail_if_no_progress (with_reducible apply Ok.frame <;> first | rfl | skip) | split)

theorem setSpares_ok {pd : List Instr} {s : State} {slot : Nat} {f : List Nat → List Nat} (h : Ok pd s) : Ok pd (State.setSpares s slot f) := by
  unfold State.setSpares
  try dsimp only
  repeat' (first | (intro _) | with_reducible (first | assumption | apply Ok.ite | apply Ok.foldl | apply Ok.elim | apply Ok.ite_fst | apply Ok.ite_snd | apply Ok.foldl_fst) | fail_if_no_progress (with_reducible apply Ok.frame <;> first | rfl | skip) | split)

theorem reserveCell_ok {pd : List Instr} {s : State} {slot : Nat} {n : Nat} (h : Ok pd s) : Ok pd (State.reserveCell s slot n) := by
  unfold State.reserveCell
  try dsimp only
  repeat' (first | (intro _) | with_reducible (first | assumption | apply spareCell_ok | apply setSpares_ok | apply Ok.ite | apply Ok.foldl | apply Ok.elim | apply Ok.ite_fst | apply Ok.ite_snd | apply Ok.foldl_fst) | fail_if_no_progress (with_reducible apply Ok.frame <;> first | rfl | skip) | split)

theorem refillGraph_ok {pd : List Instr} {s : State} {slot : Nat} (h : Ok pd s) : Ok pd (State.refillGraph s slot) := by
  unfold State.refillGraph
  try dsimp only
  repeat' (first | (intro _) | with_reducible (first | assumption | apply yieldCell_ok | apply reserveCell_ok | apply Ok.ite | apply Ok.foldl | apply Ok.elim | apply Ok.ite_fst | apply Ok.ite_snd | apply Ok.foldl_fst) | fail_if_no_progress (with_reducible apply Ok.frame <;> first | rfl | skip) | split)

theorem restock_ok {pd : List Instr} {s : State} (h : Ok pd s) : Ok pd (State.restock s) := by
  unfold State.restock
  try dsimp only
  repeat' (first | (intro _) | with_reducible (first | assumption | apply refill_ok | apply refillGraph_ok | apply Ok.ite | apply Ok.foldl | apply Ok.elim | apply Ok.ite_fst | apply Ok.ite_snd | apply Ok.foldl_fst) | fail_if_no_progress (with_reducible apply Ok.frame <;> first | rfl | skip) | split)

theorem giveBack_ok {pd : List Instr} {s : State} {slot : Nat} {cells : List Nat} (h : Ok pd s) : Ok pd (State.giveBack s slot cells) := by
  unfold State.giveBack
  try dsimp only
  repeat' (first | (intro _) | with_reducible (first | assumption | apply freeCell_ok | apply spareCell_ok | apply reserveCell_ok | apply Ok.ite | apply Ok.foldl | apply Ok.elim | apply Ok.ite_fst | apply Ok.ite_snd | apply Ok.foldl_fst) | fail_if_no_progress (with_reducible apply Ok.frame <;> first | rfl | skip) | split)

end Sys2Proof.Machine
end

