-- ==== Sys2Proof/Laws/OkMoveOps.lean ====
section
/-! SUPPORT. Every operation of Machine/MoveOps.lean keeps the queue and every bounded field. -/

namespace Sys2Proof.Machine

set_option linter.unusedTactic false
set_option linter.unreachableTactic false

theorem reevalBy_ok {pd : List Instr} {s : State} {slot : Nat} {mine : SpecRec → Bool} {meas : Measured} (h : Ok pd s) : Ok pd (State.reevalBy s slot mine meas) := by
  unfold State.reevalBy
  try dsimp only
  repeat' (first | (intro _) | with_reducible (first | assumption | apply setGraph_ok | apply log_ok | apply Ok.ite | apply Ok.foldl | apply Ok.elim | apply Ok.ite_fst | apply Ok.ite_snd | apply Ok.foldl_fst) | fail_if_no_progress (with_reducible apply Ok.frame <;> first | rfl | skip) | split)

theorem reeval_ok {pd : List Instr} {s : State} {slot : Nat} {i : Nat} {meas : Measured} (h : Ok pd s) : Ok pd (State.reeval s slot i meas) := by
  unfold State.reeval
  try dsimp only
  repeat' (first | (intro _) | with_reducible (first | assumption | apply reevalBy_ok | apply Ok.ite | apply Ok.foldl | apply Ok.elim | apply Ok.ite_fst | apply Ok.ite_snd | apply Ok.foldl_fst) | fail_if_no_progress (with_reducible apply Ok.frame <;> first | rfl | skip) | split)

theorem setMoves_ok {pd : List Instr} {s : State} {l : List Move} (h : Ok pd s) : Ok pd (State.setMoves s l) := by
  unfold State.setMoves
  try dsimp only
  repeat' (first | (intro _) | with_reducible (first | assumption | apply Ok.ite | apply Ok.foldl | apply Ok.elim | apply Ok.ite_fst | apply Ok.ite_snd | apply Ok.foldl_fst) | fail_if_no_progress (with_reducible apply Ok.frame <;> first | rfl | skip) | split)

theorem dropMove_ok {pd : List Instr} {s : State} {m : Move} (h : Ok pd s) : Ok pd (State.dropMove s m) := by
  unfold State.dropMove
  try dsimp only
  repeat' (first | (intro _) | with_reducible (first | assumption | apply setMoves_ok | apply Ok.ite | apply Ok.foldl | apply Ok.elim | apply Ok.ite_fst | apply Ok.ite_snd | apply Ok.foldl_fst) | fail_if_no_progress (with_reducible apply Ok.frame <;> first | rfl | skip) | split)

theorem setMove_ok {pd : List Instr} {s : State} {slot : Nat} {i : Nat} {m : Option Move} (h : Ok pd s) : Ok pd (State.setMove s slot i m) := by
  unfold State.setMove
  try dsimp only
  repeat' (first | (intro _) | with_reducible (first | assumption | apply setMoves_ok | apply Ok.ite | apply Ok.foldl | apply Ok.elim | apply Ok.ite_fst | apply Ok.ite_snd | apply Ok.foldl_fst) | fail_if_no_progress (with_reducible apply Ok.frame <;> first | rfl | skip) | split)

theorem releaseLoops_ok {pd : List Instr} {s : State} {m : Move} {g : Graph} (h : Ok pd s) : Ok pd (State.releaseLoops s m g) := by
  unfold State.releaseLoops
  try dsimp only
  repeat' (first | (intro _) | with_reducible (first | assumption | apply setConv_ok | apply Ok.ite | apply Ok.foldl | apply Ok.elim | apply Ok.ite_fst | apply Ok.ite_snd | apply Ok.foldl_fst) | fail_if_no_progress (with_reducible apply Ok.frame <;> first | rfl | skip) | split)

theorem setFrozen_ok {pd : List Instr} {s : State} {cells : List Nat} {v : Bool} (h : Ok pd s) : Ok pd (State.setFrozen s cells v) := by
  unfold State.setFrozen
  try dsimp only
  repeat' (first | (intro _) | with_reducible (first | assumption | apply setCell_ok | apply dropRun_ok | apply Ok.ite | apply Ok.foldl | apply Ok.elim | apply Ok.ite_fst | apply Ok.ite_snd | apply Ok.foldl_fst) | fail_if_no_progress (with_reducible apply Ok.frame <;> first | rfl | skip) | split)

theorem dropTracks_ok {pd : List Instr} {s : State} {slot : Nat} {nets : List (Nat × List Nat)} (h : Ok pd s) : Ok pd (State.dropTracks s slot nets) := by
  unfold State.dropTracks
  try dsimp only
  repeat' (first | (intro _) | with_reducible (first | assumption | apply freeSeg_ok | apply Ok.ite | apply Ok.foldl | apply Ok.elim | apply Ok.ite_fst | apply Ok.ite_snd | apply Ok.foldl_fst) | fail_if_no_progress (with_reducible apply Ok.frame <;> first | rfl | skip) | split)

theorem clearTp_ok {pd : List Instr} {s : State} {slot : Nat} {i : Nat} {g : Graph} (h : Ok pd s) : Ok pd (State.clearTp s slot i g) := by
  unfold State.clearTp
  try dsimp only
  repeat' (first | (intro _) | with_reducible (first | assumption | apply setConv_ok | apply Ok.ite | apply Ok.foldl | apply Ok.elim | apply Ok.ite_fst | apply Ok.ite_snd | apply Ok.foldl_fst) | fail_if_no_progress (with_reducible apply Ok.frame <;> first | rfl | skip) | split)

theorem leaveMove_ok {pd : List Instr} {s : State} {m : Move} (h : Ok pd s) : Ok pd (State.leaveMove s m) := by
  unfold State.leaveMove
  try dsimp only
  repeat' (first | (intro _) | with_reducible (first | assumption | apply setCell_ok | apply dropMove_ok | apply releaseLoops_ok | apply setFrozen_ok | apply dropTracks_ok | apply clearTp_ok | apply Ok.ite | apply Ok.foldl | apply Ok.elim | apply Ok.ite_fst | apply Ok.ite_snd | apply Ok.foldl_fst) | fail_if_no_progress (with_reducible apply Ok.frame <;> first | rfl | skip) | split)

theorem withdraw_ok {pd : List Instr} {s : State} {m : Move} (h : Ok pd s) : Ok pd (State.withdraw s m) := by
  unfold State.withdraw
  try dsimp only
  repeat' (first | (intro _) | with_reducible (first | assumption | apply giveBack_ok | apply leaveMove_ok | apply Ok.ite | apply Ok.foldl | apply Ok.elim | apply Ok.ite_fst | apply Ok.ite_snd | apply Ok.foldl_fst) | fail_if_no_progress (with_reducible apply Ok.frame <;> first | rfl | skip) | split)

theorem failTune_ok {pd : List Instr} {s : State} {m : Move} (h : Ok pd s) : Ok pd (State.failTune s m) := by
  unfold State.failTune
  try dsimp only
  repeat' (first | (intro _) | with_reducible (first | assumption | apply final_ok | apply revertGraph_ok | apply withdraw_ok | apply Ok.ite | apply Ok.foldl | apply Ok.elim | apply Ok.ite_fst | apply Ok.ite_snd | apply Ok.foldl_fst) | fail_if_no_progress (with_reducible apply Ok.frame <;> first | rfl | skip) | split)

theorem endCmd_ok {pd : List Instr} {s : State} {m : Move} {status : Nat} {r0 : Nat} {reason : Nat} (h : Ok pd s) : Ok pd (State.endCmd s m status r0 reason) := by
  unfold State.endCmd
  try dsimp only
  repeat' (first | (intro _) | with_reducible (first | assumption | apply final_ok | apply failTune_ok | apply Ok.ite | apply Ok.foldl | apply Ok.elim | apply Ok.ite_fst | apply Ok.ite_snd | apply Ok.foldl_fst) | fail_if_no_progress (with_reducible apply Ok.frame <;> first | rfl | skip) | split)

theorem abandonMove_ok {pd : List Instr} {s : State} {m : Move} {status : Nat} {reason : Nat} (h : Ok pd s) : Ok pd (State.abandonMove s m status reason) := by
  unfold State.abandonMove
  try dsimp only
  repeat' (first | (intro _) | with_reducible (first | assumption | apply withdraw_ok | apply endCmd_ok | apply Ok.ite | apply Ok.foldl | apply Ok.elim | apply Ok.ite_fst | apply Ok.ite_snd | apply Ok.foldl_fst) | fail_if_no_progress (with_reducible apply Ok.frame <;> first | rfl | skip) | split)

theorem requeue_ok {pd : List Instr} {s : State} {m : Move} (h : Ok pd s) : Ok pd (State.requeue s m) := by
  unfold State.requeue
  try dsimp only
  repeat' (first | (intro _) | with_reducible (first | assumption | apply setMoves_ok | apply Ok.ite | apply Ok.foldl | apply Ok.elim | apply Ok.ite_fst | apply Ok.ite_snd | apply Ok.foldl_fst) | fail_if_no_progress (with_reducible apply Ok.frame <;> first | rfl | skip) | split)

theorem abandonMoves_ok {pd : List Instr} {s : State} {slot : Nat} {status : Nat} {reason : Nat} (h : Ok pd s) : Ok pd (State.abandonMoves s slot status reason) := by
  unfold State.abandonMoves
  try dsimp only
  repeat' (first | (intro _) | with_reducible (first | assumption | apply abandonMove_ok | apply Ok.ite | apply Ok.foldl | apply Ok.elim | apply Ok.ite_fst | apply Ok.ite_snd | apply Ok.foldl_fst) | fail_if_no_progress (with_reducible apply Ok.frame <;> first | rfl | skip) | split)

theorem startMove_ok {pd : List Instr} {s : State} {m : Move} {g : Graph} {d : PlaceP} (h : Ok pd s) : Ok pd (State.startMove s m g d) := by
  unfold State.startMove
  try dsimp only
  repeat' (first | (intro _) | with_reducible (first | assumption | apply setRegion_ok | apply takeCell_ok | apply takeRoutes_ok | apply yieldCell_ok | apply yieldSegs_ok | apply setSpares_ok | apply restock_ok | apply setMoves_ok | apply Ok.ite | apply Ok.foldl | apply Ok.elim | apply Ok.ite_fst | apply Ok.ite_snd | apply Ok.foldl_fst) | fail_if_no_progress (with_reducible apply Ok.frame <;> first | rfl | skip) | split)

theorem skipMove_ok {pd : List Instr} {s : State} {m : Move} {g : Graph} (h : Ok pd s) : Ok pd (State.skipMove s m g) := by
  unfold State.skipMove
  try dsimp only
  repeat' (first | (intro _) | with_reducible (first | assumption | apply setRegion_ok | apply log_ok | apply dropMove_ok | apply endCmd_ok | apply Ok.ite | apply Ok.foldl | apply Ok.elim | apply Ok.ite_fst | apply Ok.ite_snd | apply Ok.foldl_fst) | fail_if_no_progress (with_reducible apply Ok.frame <;> first | rfl | skip) | split)

theorem pumpMoves_ok {pd : List Instr} {s : State} (h : Ok pd s) : Ok pd (State.pumpMoves s) := by
  unfold State.pumpMoves
  try dsimp only
  repeat' (first | (intro _) | with_reducible (first | assumption | apply dropMove_ok | apply startMove_ok | apply skipMove_ok | apply Ok.ite | apply Ok.foldl | apply Ok.elim | apply Ok.ite_fst | apply Ok.ite_snd | apply Ok.foldl_fst) | fail_if_no_progress (with_reducible apply Ok.frame <;> first | rfl | skip) | split)

theorem planMove_ok {pd : List Instr} {s : State} {m : Move} (h : Ok pd s) : Ok pd (State.planMove s m) := by
  unfold State.planMove
  try dsimp only
  repeat' (first | (intro _) | with_reducible (first | assumption | apply setMoves_ok | apply pumpMoves_ok | apply Ok.ite | apply Ok.foldl | apply Ok.elim | apply Ok.ite_fst | apply Ok.ite_snd | apply Ok.foldl_fst) | fail_if_no_progress (with_reducible apply Ok.frame <;> first | rfl | skip) | split)

theorem setSwitch_ok {pd : List Instr} {s : State} {k : Nat} {closed : Bool} (h : Ok pd s) : Ok pd (State.setSwitch s k closed) := by
  unfold State.setSwitch
  try dsimp only
  repeat' (first | (intro _) | with_reducible (first | assumption | apply setLed_ok | apply Ok.ite | apply Ok.foldl | apply Ok.elim | apply Ok.ite_fst | apply Ok.ite_snd | apply Ok.foldl_fst) | fail_if_no_progress (with_reducible apply Ok.frame <;> first | rfl | skip) | split)

theorem startFade_ok {pd : List Instr} {s : State} {c : Nat} {m : Move} {g : Graph} (h : Ok pd s) : Ok pd (State.startFade s c m g) := by
  unfold State.startFade
  try dsimp only
  repeat' (first | (intro _) | with_reducible (first | assumption | apply setConv_ok | apply setMove_ok | apply Ok.ite | apply Ok.foldl | apply Ok.elim | apply Ok.ite_fst | apply Ok.ite_snd | apply Ok.foldl_fst) | fail_if_no_progress (with_reducible apply Ok.frame <;> first | rfl | skip) | split)

theorem startHandover_ok {pd : List Instr} {s : State} {m : Move} {g : Graph} (h : Ok pd s) : Ok pd (State.startHandover s m g) := by
  unfold State.startHandover
  try dsimp only
  repeat' (first | (intro _) | with_reducible (first | assumption | apply setConv_ok | apply setCell_ok | apply setMove_ok | apply setSwitch_ok | apply Ok.ite | apply Ok.foldl | apply Ok.elim | apply Ok.ite_fst | apply Ok.ite_snd | apply Ok.foldl_fst) | fail_if_no_progress (with_reducible apply Ok.frame <;> first | rfl | skip) | split)

theorem tuneSettles_ok {pd : List Instr} {s : State} {m : Move} {g : Graph} {a : Prim → Nat × Nat} {convs : List Nat} (h : Ok pd s) : Ok pd (State.tuneSettles s m g a convs) := by
  unfold State.tuneSettles
  try dsimp only
  repeat' (first | (intro _) | with_reducible (first | assumption | apply settleConv_ok | apply Ok.ite | apply Ok.foldl | apply Ok.elim | apply Ok.ite_fst | apply Ok.ite_snd | apply Ok.foldl_fst) | fail_if_no_progress (with_reducible apply Ok.frame <;> first | rfl | skip) | split)

theorem crossAt_ok {pd : List Instr} {s : State} {c : Option Nat} (h : Ok pd s) : Ok pd (State.crossAt s c) := by
  unfold State.crossAt
  try dsimp only
  repeat' (first | (intro _) | with_reducible (first | assumption | apply setMove_ok | apply startFade_ok | apply startHandover_ok | apply tuneSettles_ok | apply Ok.ite | apply Ok.foldl | apply Ok.elim | apply Ok.ite_fst | apply Ok.ite_snd | apply Ok.foldl_fst) | fail_if_no_progress (with_reducible apply Ok.frame <;> first | rfl | skip) | split)

theorem queueRepair_ok {pd : List Instr} {s : State} {q : Repair} {r : Nat} (h : Ok pd s) : Ok pd (State.queueRepair s q r) := by
  unfold State.queueRepair
  try dsimp only
  repeat' (first | (intro _) | with_reducible (first | assumption | apply setRegion_ok | apply Ok.ite | apply Ok.foldl | apply Ok.elim | apply Ok.ite_fst | apply Ok.ite_snd | apply Ok.foldl_fst) | fail_if_no_progress (with_reducible apply Ok.frame <;> first | rfl | skip) | split)

theorem retryStranded_ok {pd : List Instr} {s : State} (h : Ok pd s) : Ok pd (State.retryStranded s) := by
  unfold State.retryStranded
  try dsimp only
  repeat' (first | (intro _) | with_reducible (first | assumption | apply queueRepair_ok | apply Ok.ite | apply Ok.foldl | apply Ok.elim | apply Ok.ite_fst | apply Ok.ite_snd | apply Ok.foldl_fst) | fail_if_no_progress (with_reducible apply Ok.frame <;> first | rfl | skip) | split)

theorem pinBack_ok {pd : List Instr} {s : State} (h : Ok pd s) : Ok pd (State.pinBack s) := by
  unfold State.pinBack
  try dsimp only
  repeat' (first | (intro _) | with_reducible (first | assumption | apply setMoves_ok | apply Ok.ite | apply Ok.foldl | apply Ok.elim | apply Ok.ite_fst | apply Ok.ite_snd | apply Ok.foldl_fst) | fail_if_no_progress (with_reducible apply Ok.frame <;> first | rfl | skip) | split)

theorem cellsFreed_ok {pd : List Instr} {s : State} (h : Ok pd s) : Ok pd (State.cellsFreed s) := by
  unfold State.cellsFreed
  try dsimp only
  repeat' (first | (intro _) | with_reducible (first | assumption | apply restock_ok | apply pumpMoves_ok | apply retryStranded_ok | apply pinBack_ok | apply Ok.ite | apply Ok.foldl | apply Ok.elim | apply Ok.ite_fst | apply Ok.ite_snd | apply Ok.foldl_fst) | fail_if_no_progress (with_reducible apply Ok.frame <;> first | rfl | skip) | split)

end Sys2Proof.Machine
end

