-- ==== Sys2Proof/Laws/OkPlacement.lean ====
section
/-! SUPPORT. Every operation of Machine/Placement.lean keeps the queue and every bounded field. -/

namespace Sys2Proof.Machine

set_option linter.unusedTactic false
set_option linter.unreachableTactic false

theorem dropGraph_ok {pd : List Instr} {s : State} {slot : Nat} (h : Ok pd s) : Ok pd (State.dropGraph s slot) := by
  unfold State.dropGraph
  try dsimp only
  repeat' (first | (intro _) | with_reducible (first | assumption | apply setGraph_ok | apply Ok.ite | apply Ok.foldl | apply Ok.elim | apply Ok.ite_fst | apply Ok.ite_snd | apply Ok.foldl_fst) | fail_if_no_progress (with_reducible apply Ok.frame <;> first | rfl | skip) | split)

theorem parseHead_ok {pd : List Instr} (n : Nat) (s : State) (h : Ok pd s) : Ok pd (State.parseHead n s) := by
  induction n generalizing s with
  | zero => exact h
  | succ n ih =>
    rw [State.parseHead]
    try dsimp only
    repeat' (first | (intro _) | with_reducible (first | assumption | apply ih | apply setGraph_ok | apply final_ok | apply progress_ok | apply dropGraph_ok | apply Ok.ite | apply Ok.foldl | apply Ok.elim | apply Ok.ite_fst | apply Ok.ite_snd | apply Ok.foldl_fst) | fail_if_no_progress (with_reducible apply Ok.frame <;> first | rfl | skip) | split)

theorem parseNext_ok {pd : List Instr} {s : State} (h : Ok pd s) : Ok pd (State.parseNext s) := by
  unfold State.parseNext
  try dsimp only
  repeat' (first | (intro _) | with_reducible (first | assumption | apply parseHead_ok | apply Ok.ite | apply Ok.foldl | apply Ok.elim | apply Ok.ite_fst | apply Ok.ite_snd | apply Ok.foldl_fst) | fail_if_no_progress (with_reducible apply Ok.frame <;> first | rfl | skip) | split)

theorem claim_ok {pd : List Instr} {s : State} {slot : Nat} {g0 : Graph} (h : Ok pd s) : Ok pd (State.claim s slot g0) := by
  unfold State.claim
  try dsimp only
  repeat' (first | (intro _) | with_reducible (first | assumption | apply setGraph_ok | apply markCell_ok | apply takeCell_ok | apply spareCell_ok | apply joinPorts_ok | apply takeNets_ok | apply takeTaps_ok | apply configPrim_ok | apply yieldCell_ok | apply yieldSegs_ok | apply Ok.ite | apply Ok.foldl | apply Ok.elim | apply Ok.ite_fst | apply Ok.ite_snd | apply Ok.foldl_fst) | fail_if_no_progress (with_reducible apply Ok.frame <;> first | rfl | skip) | split)

theorem unclaim_ok {pd : List Instr} {s : State} {g : Graph} (h : Ok pd s) : Ok pd (State.unclaim s g) := by
  unfold State.unclaim
  try dsimp only
  repeat' (first | (intro _) | with_reducible (first | assumption | apply freeCell_ok | apply freeSeg_ok | apply freeNets_ok | apply Ok.ite | apply Ok.foldl | apply Ok.elim | apply Ok.ite_fst | apply Ok.ite_snd | apply Ok.foldl_fst) | fail_if_no_progress (with_reducible apply Ok.frame <;> first | rfl | skip) | split)

theorem stopPlace_ok {pd : List Instr} {s : State} {slot : Nat} {status : Nat} {r0 : Nat} {r1 : Nat} (h : Ok pd s) : Ok pd (State.stopPlace s slot status r0 r1) := by
  unfold State.stopPlace
  try dsimp only
  repeat' (first | (intro _) | with_reducible (first | assumption | apply final_ok | apply cellsFreed_ok | apply dropGraph_ok | apply parseNext_ok | apply unclaim_ok | apply Ok.ite | apply Ok.foldl | apply Ok.elim | apply Ok.ite_fst | apply Ok.ite_snd | apply Ok.foldl_fst) | fail_if_no_progress (with_reducible apply Ok.frame <;> first | rfl | skip) | split)

theorem finishPlace_ok {pd : List Instr} {s : State} {slot : Nat} {g0 : Graph} {outcome : Nat} (h : Ok pd s) : Ok pd (State.finishPlace s slot g0 outcome) := by
  unfold State.finishPlace
  try dsimp only
  repeat' (first | (intro _) | with_reducible (first | assumption | apply setGraph_ok | apply hostWrite_ok | apply finalObj_ok | apply final_ok | apply markCell_ok | apply controls_ok | apply takeNets_ok | apply makeDue_ok | apply dropGraph_ok | apply stopPlace_ok | apply Ok.ite | apply Ok.foldl | apply Ok.elim | apply Ok.ite_fst | apply Ok.ite_snd | apply Ok.foldl_fst) | fail_if_no_progress (with_reducible apply Ok.frame <;> first | rfl | skip) | split)

theorem bodyGraphPlace_ok {pd : List Instr} {image : Bytes} {slot : Nat} {a : Bytes} {s : State} (h : Ok pd s) : Ok pd (bodyGraphPlace image slot a s) := by
  unfold bodyGraphPlace
  try dsimp only
  repeat' (first | (intro _) | with_reducible (first | assumption | apply setHnd_ok | apply setGraph_ok | apply progress_ok | apply parseNext_ok | apply Ok.ite | apply Ok.foldl | apply Ok.elim | apply Ok.ite_fst | apply Ok.ite_snd | apply Ok.foldl_fst) | fail_if_no_progress (with_reducible apply Ok.frame <;> first | rfl | skip) | split)

theorem execGraphPlace_ok {pd : List Instr} {d : Desc} {image : Bytes} {s : State} (h : Ok pd s) : OkO pd (execGraphPlace d image s) := by
  unfold execGraphPlace
  try dsimp only
  repeat' (first | with_reducible (first | apply ifUnit_ok | apply queueCmd_ok | apply Ok.outcome | apply Ok.fault | apply command_ok | apply onRegion_ok | apply onRegions_ok | apply OkO.ite) | with_reducible (intro _) | with_reducible (first | assumption | apply command_ok | apply queueCmd_ok | apply bodyGraphPlace_ok | apply Ok.ite | apply Ok.foldl | apply Ok.elim | apply Ok.ite_fst | apply Ok.ite_snd | apply Ok.foldl_fst) | fail_if_no_progress (with_reducible apply Ok.frame <;> first | rfl | skip) | split)

theorem noResource_ok {pd : List Instr} {s : State} {slot : Nat} {g : Graph} (h : Ok pd s) : Ok pd (State.noResource s slot g) := by
  unfold State.noResource
  try dsimp only
  repeat' (first | (intro _) | with_reducible (first | assumption | apply setGraph_ok | apply finishPlace_ok | apply Ok.ite | apply Ok.foldl | apply Ok.elim | apply Ok.ite_fst | apply Ok.ite_snd | apply Ok.foldl_fst) | fail_if_no_progress (with_reducible apply Ok.frame <;> first | rfl | skip) | split)

theorem execPartition_ok {pd : List Instr} {t : Nat} {slot : Nat} {s : State} (h : Ok pd s) : OkO pd (execPartition t slot s) := by
  unfold execPartition
  try dsimp only
  repeat' (first | with_reducible (first | apply ifUnit_ok | apply queueCmd_ok | apply Ok.outcome | apply Ok.fault | apply command_ok | apply onRegion_ok | apply onRegions_ok | apply OkO.ite) | with_reducible (intro _) | with_reducible (first | assumption | apply setGraph_ok | apply at_ok | apply progress_ok | apply takeRoutes_ok | apply yieldSegs_ok | apply parseNext_ok | apply noResource_ok | apply Ok.ite | apply Ok.foldl | apply Ok.elim | apply Ok.ite_fst | apply Ok.ite_snd | apply Ok.foldl_fst) | fail_if_no_progress (with_reducible apply Ok.frame <;> first | rfl | skip) | split)

theorem execCellSelection_ok {pd : List Instr} {t : Nat} {slot : Nat} {s : State} (h : Ok pd s) : OkO pd (execCellSelection t slot s) := by
  unfold execCellSelection
  try dsimp only
  repeat' (first | with_reducible (first | apply ifUnit_ok | apply queueCmd_ok | apply Ok.outcome | apply Ok.fault | apply command_ok | apply onRegion_ok | apply onRegions_ok | apply OkO.ite) | with_reducible (intro _) | with_reducible (first | assumption | apply at_ok | apply progress_ok | apply freeSeg_ok | apply claim_ok | apply stopPlace_ok | apply finishPlace_ok | apply noResource_ok | apply Ok.ite | apply Ok.foldl | apply Ok.elim | apply Ok.ite_fst | apply Ok.ite_snd | apply Ok.foldl_fst) | fail_if_no_progress (with_reducible apply Ok.frame <;> first | rfl | skip) | split)

theorem builtCell_ok {pd : List Instr} {s : State} {n : Nat} (h : Ok pd s) : Ok pd (State.builtCell s n) := by
  unfold State.builtCell
  try dsimp only
  repeat' (first | (intro _) | with_reducible (first | assumption | apply setCell_ok | apply Ok.ite | apply Ok.foldl | apply Ok.elim | apply Ok.ite_fst | apply Ok.ite_snd | apply Ok.foldl_fst) | fail_if_no_progress (with_reducible apply Ok.frame <;> first | rfl | skip) | split)

theorem execBuildAndMeasure_ok {pd : List Instr} {t : Nat} {slot : Nat} {meas : List Measured} {s : State} (h : Ok pd s) : OkO pd (execBuildAndMeasure t slot meas s) := by
  unfold execBuildAndMeasure
  try dsimp only
  repeat' (first | with_reducible (first | apply ifUnit_ok | apply queueCmd_ok | apply Ok.outcome | apply Ok.fault | apply command_ok | apply onRegion_ok | apply onRegions_ok | apply OkO.ite) | with_reducible (intro _) | with_reducible (first | assumption | apply setGraph_ok | apply at_ok | apply progress_ok | apply claim_ok | apply unclaim_ok | apply stopPlace_ok | apply builtCell_ok | apply Ok.ite | apply Ok.foldl | apply Ok.elim | apply Ok.ite_fst | apply Ok.ite_snd | apply Ok.foldl_fst) | fail_if_no_progress (with_reducible apply Ok.frame <;> first | rfl | skip) | split)

theorem execEvaluate_ok {pd : List Instr} {t : Nat} {slot : Nat} {s : State} (h : Ok pd s) : OkO pd (execEvaluate t slot s) := by
  unfold execEvaluate
  try dsimp only
  repeat' (first | with_reducible (first | apply ifUnit_ok | apply queueCmd_ok | apply Ok.outcome | apply Ok.fault | apply command_ok | apply onRegion_ok | apply onRegions_ok | apply OkO.ite) | with_reducible (intro _) | with_reducible (first | assumption | apply at_ok | apply finishPlace_ok | apply Ok.ite | apply Ok.foldl | apply Ok.elim | apply Ok.ite_fst | apply Ok.ite_snd | apply Ok.foldl_fst) | fail_if_no_progress (with_reducible apply Ok.frame <;> first | rfl | skip) | split)

theorem freeUses_ok {pd : List Instr} {s : State} {gs : Nat} {segs : List Nat} (h : Ok pd s) : Ok pd (State.freeUses s gs segs) := by
  unfold State.freeUses
  try dsimp only
  repeat' (first | (intro _) | with_reducible (first | assumption | apply freeCell_ok | apply freeSeg_ok | apply Ok.ite | apply Ok.foldl | apply Ok.elim | apply Ok.ite_fst | apply Ok.ite_snd | apply Ok.foldl_fst) | fail_if_no_progress (with_reducible apply Ok.frame <;> first | rfl | skip) | split)

theorem removeGraph_ok {pd : List Instr} {s : State} {gs : Nat} (h : Ok pd s) : Ok pd (State.removeGraph s gs) := by
  unfold State.removeGraph
  try dsimp only
  repeat' (first | (intro _) | with_reducible (first | assumption | apply release_ok | apply final_ok | apply forgetCal_ok | apply dropNext_ok | apply clearTp_ok | apply abandonMoves_ok | apply dropGraph_ok | apply unclaim_ok | apply freeUses_ok | apply Ok.ite | apply Ok.foldl | apply Ok.elim | apply Ok.ite_fst | apply Ok.ite_snd | apply Ok.foldl_fst) | fail_if_no_progress (with_reducible apply Ok.frame <;> first | rfl | skip) | split)

theorem bodyGraphRemove_ok {pd : List Instr} {cmd : Instr} {slot : Nat} {a : Bytes} {s : State} (h : Ok pd s) : Ok pd (bodyGraphRemove cmd slot a s) := by
  unfold bodyGraphRemove
  try dsimp only
  repeat' (first | (intro _) | with_reducible (first | assumption | apply final_ok | apply onRegions_ok | apply cellsFreed_ok | apply removeGraph_ok | apply Ok.ite | apply Ok.foldl | apply Ok.elim | apply Ok.ite_fst | apply Ok.ite_snd | apply Ok.foldl_fst) | fail_if_no_progress (with_reducible apply Ok.frame <;> first | rfl | skip) | split)

theorem execGraphRemove_ok {pd : List Instr} {d : Desc} {s : State} (h : Ok pd s) : OkO pd (execGraphRemove d s) := by
  unfold execGraphRemove
  try dsimp only
  repeat' (first | with_reducible (first | apply ifUnit_ok | apply queueCmd_ok | apply Ok.outcome | apply Ok.fault | apply command_ok | apply onRegion_ok | apply onRegions_ok | apply OkO.ite) | with_reducible (intro _) | with_reducible (first | assumption | apply command_ok | apply queueCmd_ok | apply bodyGraphRemove_ok | apply Ok.ite | apply Ok.foldl | apply Ok.elim | apply Ok.ite_fst | apply Ok.ite_snd | apply Ok.foldl_fst) | fail_if_no_progress (with_reducible apply Ok.frame <;> first | rfl | skip) | split)

theorem stageFunction_ok {pd : List Instr} {s : State} {gs : Nat} {g : Graph} {new : Graph} {moved : List Nat} {i : Nat} (h : Ok pd s) : Ok pd (State.stageFunction s gs g new moved i) := by
  unfold State.stageFunction
  try dsimp only
  repeat' (first | (intro _) | with_reducible (first | assumption | apply setGraph_ok | apply fresh_ok | apply takeCell_ok | apply configCell_ok | apply takeRoutes_ok | apply yieldCell_ok | apply yieldSegs_ok | apply Ok.ite | apply Ok.foldl | apply Ok.elim | apply Ok.ite_fst | apply Ok.ite_snd | apply Ok.foldl_fst) | fail_if_no_progress (with_reducible apply Ok.frame <;> first | rfl | skip) | split)

theorem stageTune_ok {pd : List Instr} {s : State} {gs : Nat} (h : Ok pd s) : Ok pd (State.stageTune s gs) := by
  unfold State.stageTune
  try dsimp only
  repeat' (first | (intro _) | with_reducible (first | assumption | apply dropRun_ok | apply stage_ok | apply Ok.ite | apply Ok.foldl | apply Ok.elim | apply Ok.ite_fst | apply Ok.ite_snd | apply Ok.foldl_fst) | fail_if_no_progress (with_reducible apply Ok.frame <;> first | rfl | skip) | split)

theorem bodyGraphTune_ok {pd : List Instr} {image : Bytes} {meas : Measured} {cmd : Instr} {slot : Nat} {a : Bytes} {s : State} (h : Ok pd s) : Ok pd (bodyGraphTune image meas cmd slot a s) := by
  unfold bodyGraphTune
  try dsimp only
  repeat' (first | (intro _) | with_reducible (first | assumption | apply setGraph_ok | apply final_ok | apply setWork_ok | apply onRegions_ok | apply endTunes_ok | apply setMoves_ok | apply pumpMoves_ok | apply stageFunction_ok | apply stageTune_ok | apply Ok.ite | apply Ok.foldl | apply Ok.elim | apply Ok.ite_fst | apply Ok.ite_snd | apply Ok.foldl_fst) | fail_if_no_progress (with_reducible apply Ok.frame <;> first | rfl | skip) | split)

theorem execGraphTune_ok {pd : List Instr} {d : Desc} {image : Bytes} {meas : Measured} {s : State} (h : Ok pd s) : OkO pd (execGraphTune d image meas s) := by
  unfold execGraphTune
  try dsimp only
  repeat' (first | with_reducible (first | apply ifUnit_ok | apply queueCmd_ok | apply Ok.outcome | apply Ok.fault | apply command_ok | apply onRegion_ok | apply onRegions_ok | apply OkO.ite) | with_reducible (intro _) | with_reducible (first | assumption | apply command_ok | apply queueCmd_ok | apply bodyGraphTune_ok | apply Ok.ite | apply Ok.foldl | apply Ok.elim | apply Ok.ite_fst | apply Ok.ite_snd | apply Ok.foldl_fst) | fail_if_no_progress (with_reducible apply Ok.frame <;> first | rfl | skip) | split)

theorem endPins_ok {pd : List Instr} {s : State} (h : Ok pd s) : Ok pd (State.endPins s) := by
  unfold State.endPins
  try dsimp only
  repeat' (first | (intro _) | with_reducible (first | assumption | apply setGraph_ok | apply final_ok | apply revertGraph_ok | apply Ok.ite | apply Ok.foldl | apply Ok.elim | apply Ok.ite_fst | apply Ok.ite_snd | apply Ok.foldl_fst) | fail_if_no_progress (with_reducible apply Ok.frame <;> first | rfl | skip) | split)

theorem bodyGraphPin_ok {pd : List Instr} {pins : Bytes} {cmd : Instr} {slot : Nat} {a : Bytes} {s : State} (h : Ok pd s) : Ok pd (bodyGraphPin pins cmd slot a s) := by
  unfold bodyGraphPin
  try dsimp only
  repeat' (first | (intro _) | with_reducible (first | assumption | apply setGraph_ok | apply final_ok | apply setWork_ok | apply onRegions_ok | apply setMoves_ok | apply pumpMoves_ok | apply endPins_ok | apply Ok.ite | apply Ok.foldl | apply Ok.elim | apply Ok.ite_fst | apply Ok.ite_snd | apply Ok.foldl_fst) | fail_if_no_progress (with_reducible apply Ok.frame <;> first | rfl | skip) | split)

theorem execGraphPin_ok {pd : List Instr} {d : Desc} {pins : Bytes} {s : State} (h : Ok pd s) : OkO pd (execGraphPin d pins s) := by
  unfold execGraphPin
  try dsimp only
  repeat' (first | with_reducible (first | apply ifUnit_ok | apply queueCmd_ok | apply Ok.outcome | apply Ok.fault | apply command_ok | apply onRegion_ok | apply onRegions_ok | apply OkO.ite) | with_reducible (intro _) | with_reducible (first | assumption | apply command_ok | apply queueCmd_ok | apply bodyGraphPin_ok | apply Ok.ite | apply Ok.foldl | apply Ok.elim | apply Ok.ite_fst | apply Ok.ite_snd | apply Ok.foldl_fst) | fail_if_no_progress (with_reducible apply Ok.frame <;> first | rfl | skip) | split)

theorem bodyTransplant_ok {pd : List Instr} {cmd : Instr} {slot : Nat} {a : Bytes} {s : State} (h : Ok pd s) : Ok pd (bodyTransplant cmd slot a s) := by
  unfold bodyTransplant
  try dsimp only
  repeat' (first | (intro _) | with_reducible (first | assumption | apply final_ok | apply setWork_ok | apply onRegions_ok | apply planMove_ok | apply Ok.ite | apply Ok.foldl | apply Ok.elim | apply Ok.ite_fst | apply Ok.ite_snd | apply Ok.foldl_fst) | fail_if_no_progress (with_reducible apply Ok.frame <;> first | rfl | skip) | split)

theorem execTransplant_ok {pd : List Instr} {d : Desc} {s : State} (h : Ok pd s) : OkO pd (execTransplant d s) := by
  unfold execTransplant
  try dsimp only
  repeat' (first | with_reducible (first | apply ifUnit_ok | apply queueCmd_ok | apply Ok.outcome | apply Ok.fault | apply command_ok | apply onRegion_ok | apply onRegions_ok | apply OkO.ite) | with_reducible (intro _) | with_reducible (first | assumption | apply command_ok | apply queueCmd_ok | apply bodyTransplant_ok | apply Ok.ite | apply Ok.foldl | apply Ok.elim | apply Ok.ite_fst | apply Ok.ite_snd | apply Ok.foldl_fst) | fail_if_no_progress (with_reducible apply Ok.frame <;> first | rfl | skip) | split)

theorem resumeOne_ok {pd : List Instr} {s : State} {slot : Nat} (h : Ok pd s) : Ok pd (State.resumeOne s slot) := by
  unfold State.resumeOne
  try dsimp only
  repeat' (first | (intro _) | with_reducible (first | assumption | apply stageTune_ok | apply bodyGraphTune_ok | apply bodyGraphPin_ok | apply bodyTransplant_ok | apply Ok.ite | apply Ok.foldl | apply Ok.elim | apply Ok.ite_fst | apply Ok.ite_snd | apply Ok.foldl_fst) | fail_if_no_progress (with_reducible apply Ok.frame <;> first | rfl | skip) | split)

theorem resume_ok {pd : List Instr} {s : State} (h : Ok pd s) : Ok pd (State.resume s) := by
  unfold State.resume
  try dsimp only
  repeat' (first | (intro _) | with_reducible (first | assumption | apply endTunes_ok | apply endPins_ok | apply resumeOne_ok | apply Ok.ite | apply Ok.foldl | apply Ok.elim | apply Ok.ite_fst | apply Ok.ite_snd | apply Ok.foldl_fst) | fail_if_no_progress (with_reducible apply Ok.frame <;> first | rfl | skip) | split)

theorem bodyLedgerRead_ok {pd : List Instr} {slot : Nat} {a : Bytes} {s : State} (h : Ok pd s) : Ok pd (bodyLedgerRead slot a s) := by
  unfold bodyLedgerRead
  try dsimp only
  repeat' (first | (intro _) | with_reducible (first | assumption | apply hostWrite_ok | apply final_ok | apply Ok.ite | apply Ok.foldl | apply Ok.elim | apply Ok.ite_fst | apply Ok.ite_snd | apply Ok.foldl_fst) | fail_if_no_progress (with_reducible apply Ok.frame <;> first | rfl | skip) | split)

theorem execLedgerRead_ok {pd : List Instr} {d : Desc} {s : State} (h : Ok pd s) : OkO pd (execLedgerRead d s) := by
  unfold execLedgerRead
  try dsimp only
  repeat' (first | with_reducible (first | apply ifUnit_ok | apply queueCmd_ok | apply Ok.outcome | apply Ok.fault | apply command_ok | apply onRegion_ok | apply onRegions_ok | apply OkO.ite) | with_reducible (intro _) | with_reducible (first | assumption | apply command_ok | apply queueCmd_ok | apply bodyLedgerRead_ok | apply Ok.ite | apply Ok.foldl | apply Ok.elim | apply Ok.ite_fst | apply Ok.ite_snd | apply Ok.foldl_fst) | fail_if_no_progress (with_reducible apply Ok.frame <;> first | rfl | skip) | split)

end Sys2Proof.Machine
end

