-- ==== Sys2Proof/Laws/OkConversion.lean ====
section
/-! SUPPORT. Every operation of Machine/Conversion.lean keeps the queue and every bounded field. -/

namespace Sys2Proof.Machine

set_option linter.unusedTactic false
set_option linter.unreachableTactic false

theorem takeEffect_ok {pd : List Instr} {s : State} {c : Nat} {w : Nat × Option ConvCfg × List SeqStep} {instant : Bool} (h : Ok pd s) : Ok pd (State.takeEffect s c w instant) := by
  unfold State.takeEffect
  try dsimp only
  repeat' (first | (intro _) | with_reducible (first | assumption | apply setConv_ok | apply final_ok | apply makeDue_ok | apply forgetCal_ok | apply Ok.ite | apply Ok.foldl | apply Ok.elim | apply Ok.ite_fst | apply Ok.ite_snd | apply Ok.foldl_fst) | fail_if_no_progress (with_reducible apply Ok.frame <;> first | rfl | skip) | split)

theorem queueConv_ok {pd : List Instr} {s : State} {c : Nat} {slot : Nat} {g : Option ConvCfg} {steps : List SeqStep} (h : Ok pd s) : Ok pd (State.queueConv s c slot g steps) := by
  unfold State.queueConv
  try dsimp only
  repeat' (first | (intro _) | with_reducible (first | assumption | apply setConv_ok | apply setWork_ok | apply yieldConv_ok | apply takeEffect_ok | apply Ok.ite | apply Ok.foldl | apply Ok.elim | apply Ok.ite_fst | apply Ok.ite_snd | apply Ok.foldl_fst) | fail_if_no_progress (with_reducible apply Ok.frame <;> first | rfl | skip) | split)

theorem bodyConvConfig_ok {pd : List Instr} {cmd : Instr} {slot : Nat} {a : Bytes} {s : State} (h : Ok pd s) : Ok pd (bodyConvConfig cmd slot a s) := by
  unfold bodyConvConfig
  try dsimp only
  repeat' (first | (intro _) | with_reducible (first | assumption | apply final_ok | apply onRegion_ok | apply queueConv_ok | apply Ok.ite | apply Ok.foldl | apply Ok.elim | apply Ok.ite_fst | apply Ok.ite_snd | apply Ok.foldl_fst) | fail_if_no_progress (with_reducible apply Ok.frame <;> first | rfl | skip) | split)

theorem execConvConfig_ok {pd : List Instr} {d : Desc} {s : State} (h : Ok pd s) : OkO pd (execConvConfig d s) := by
  unfold execConvConfig
  try dsimp only
  repeat' (first | with_reducible (first | apply ifUnit_ok | apply queueCmd_ok | apply Ok.outcome | apply Ok.fault | apply command_ok | apply onRegion_ok | apply onRegions_ok | apply OkO.ite) | with_reducible (intro _) | with_reducible (first | assumption | apply command_ok | apply queueCmd_ok | apply bodyConvConfig_ok | apply Ok.ite | apply Ok.foldl | apply Ok.elim | apply Ok.ite_fst | apply Ok.ite_snd | apply Ok.foldl_fst) | fail_if_no_progress (with_reducible apply Ok.frame <;> first | rfl | skip) | split)

theorem bodySeqLoad_ok {pd : List Instr} {steps : Bytes} {cmd : Instr} {slot : Nat} {a : Bytes} {s : State} (h : Ok pd s) : Ok pd (bodySeqLoad steps cmd slot a s) := by
  unfold bodySeqLoad
  try dsimp only
  repeat' (first | (intro _) | with_reducible (first | assumption | apply final_ok | apply onRegion_ok | apply queueConv_ok | apply Ok.ite | apply Ok.foldl | apply Ok.elim | apply Ok.ite_fst | apply Ok.ite_snd | apply Ok.foldl_fst) | fail_if_no_progress (with_reducible apply Ok.frame <;> first | rfl | skip) | split)

theorem execSeqLoad_ok {pd : List Instr} {d : Desc} {steps : Bytes} {s : State} (h : Ok pd s) : OkO pd (execSeqLoad d steps s) := by
  unfold execSeqLoad
  try dsimp only
  repeat' (first | with_reducible (first | apply ifUnit_ok | apply queueCmd_ok | apply Ok.outcome | apply Ok.fault | apply command_ok | apply onRegion_ok | apply onRegions_ok | apply OkO.ite) | with_reducible (intro _) | with_reducible (first | assumption | apply at_ok | apply command_ok | apply queueCmd_ok | apply bodySeqLoad_ok | apply Ok.ite | apply Ok.foldl | apply Ok.elim | apply Ok.ite_fst | apply Ok.ite_snd | apply Ok.foldl_fst) | fail_if_no_progress (with_reducible apply Ok.frame <;> first | rfl | skip) | split)

theorem acceptTrig_ok {pd : List Instr} {s : State} {c : Nat} (h : Ok pd s) : Ok pd (State.acceptTrig s c).1 := by
  unfold State.acceptTrig
  try dsimp only
  repeat' (first | (intro _) | with_reducible (first | assumption | apply setConv_ok | apply bump_ok | apply Ok.ite | apply Ok.foldl | apply Ok.elim | apply Ok.ite_fst | apply Ok.ite_snd | apply Ok.foldl_fst) | fail_if_no_progress (with_reducible apply Ok.frame <;> first | rfl | skip) | split)

theorem clearSource_ok {pd : List Instr} {s : State} {kind : Nat} {hit : Nat → Bool} (h : Ok pd s) : Ok pd (State.clearSource s kind hit) := by
  unfold State.clearSource
  try dsimp only
  repeat' (first | (intro _) | with_reducible (first | assumption | apply setConv_ok | apply Ok.ite | apply Ok.foldl | apply Ok.elim | apply Ok.ite_fst | apply Ok.ite_snd | apply Ok.foldl_fst) | fail_if_no_progress (with_reducible apply Ok.frame <;> first | rfl | skip) | split)

theorem bodyTrigger_ok {pd : List Instr} {slot : Nat} {a : Bytes} {s : State} (h : Ok pd s) : Ok pd (bodyTrigger slot a s) := by
  unfold bodyTrigger
  try dsimp only
  repeat' (first | (intro _) | with_reducible (first | assumption | apply final_ok | apply acceptTrig_ok | apply Ok.ite | apply Ok.foldl | apply Ok.elim | apply Ok.ite_fst | apply Ok.ite_snd | apply Ok.foldl_fst) | fail_if_no_progress (with_reducible apply Ok.frame <;> first | rfl | skip) | split)

theorem execTrigger_ok {pd : List Instr} {d : Desc} {s : State} (h : Ok pd s) : OkO pd (execTrigger d s) := by
  unfold execTrigger
  try dsimp only
  repeat' (first | with_reducible (first | apply ifUnit_ok | apply queueCmd_ok | apply Ok.outcome | apply Ok.fault | apply command_ok | apply onRegion_ok | apply onRegions_ok | apply OkO.ite) | with_reducible (intro _) | with_reducible (first | assumption | apply command_ok | apply queueCmd_ok | apply bodyTrigger_ok | apply Ok.ite | apply Ok.foldl | apply Ok.elim | apply Ok.ite_fst | apply Ok.ite_snd | apply Ok.foldl_fst) | fail_if_no_progress (with_reducible apply Ok.frame <;> first | rfl | skip) | split)

theorem execTriggerAccept_ok {pd : List Instr} {t : Nat} {kind : Nat} {index : Nat} {falling : Bool} {s : State} (h : Ok pd s) : OkO pd (execTriggerAccept t kind index falling s) := by
  unfold execTriggerAccept
  try dsimp only
  repeat' (first | with_reducible (first | apply ifUnit_ok | apply queueCmd_ok | apply Ok.outcome | apply Ok.fault | apply command_ok | apply onRegion_ok | apply onRegions_ok | apply OkO.ite) | with_reducible (intro _) | with_reducible (first | assumption | apply at_ok | apply setCtl_ok | apply yieldConv_ok | apply acceptTrig_ok | apply Ok.ite | apply Ok.foldl | apply Ok.elim | apply Ok.ite_fst | apply Ok.ite_snd | apply Ok.foldl_fst) | fail_if_no_progress (with_reducible apply Ok.frame <;> first | rfl | skip) | split)

theorem dropMeas_ok {pd : List Instr} {s : State} {c : Nat} {slot : Nat} (h : Ok pd s) : Ok pd (State.dropMeas s c slot) := by
  unfold State.dropMeas
  try dsimp only
  repeat' (first | (intro _) | with_reducible (first | assumption | apply setConv_ok | apply Ok.ite | apply Ok.foldl | apply Ok.elim | apply Ok.ite_fst | apply Ok.ite_snd | apply Ok.foldl_fst) | fail_if_no_progress (with_reducible apply Ok.frame <;> first | rfl | skip) | split)

theorem bodySyscal_ok {pd : List Instr} {full : Bool} {cmd : Instr} {slot : Nat} {a : Bytes} {s : State} (h : Ok pd s) : Ok pd (bodySyscal full cmd slot a s) := by
  unfold bodySyscal
  try dsimp only
  repeat' (first | (intro _) | with_reducible (first | assumption | apply setConv_ok | apply final_ok | apply setWork_ok | apply onRegion_ok | apply dropMeas_ok | apply Ok.ite | apply Ok.foldl | apply Ok.elim | apply Ok.ite_fst | apply Ok.ite_snd | apply Ok.foldl_fst) | fail_if_no_progress (with_reducible apply Ok.frame <;> first | rfl | skip) | split)

theorem execSyscalZero_ok {pd : List Instr} {d : Desc} {s : State} (h : Ok pd s) : OkO pd (execSyscalZero d s) := by
  unfold execSyscalZero
  try dsimp only
  repeat' (first | with_reducible (first | apply ifUnit_ok | apply queueCmd_ok | apply Ok.outcome | apply Ok.fault | apply command_ok | apply onRegion_ok | apply onRegions_ok | apply OkO.ite) | with_reducible (intro _) | with_reducible (first | assumption | apply command_ok | apply queueCmd_ok | apply bodySyscal_ok | apply Ok.ite | apply Ok.foldl | apply Ok.elim | apply Ok.ite_fst | apply Ok.ite_snd | apply Ok.foldl_fst) | fail_if_no_progress (with_reducible apply Ok.frame <;> first | rfl | skip) | split)

theorem execSyscalFull_ok {pd : List Instr} {d : Desc} {s : State} (h : Ok pd s) : OkO pd (execSyscalFull d s) := by
  unfold execSyscalFull
  try dsimp only
  repeat' (first | with_reducible (first | apply ifUnit_ok | apply queueCmd_ok | apply Ok.outcome | apply Ok.fault | apply command_ok | apply onRegion_ok | apply onRegions_ok | apply OkO.ite) | with_reducible (intro _) | with_reducible (first | assumption | apply command_ok | apply queueCmd_ok | apply bodySyscal_ok | apply Ok.ite | apply Ok.foldl | apply Ok.elim | apply Ok.ite_fst | apply Ok.ite_snd | apply Ok.foldl_fst) | fail_if_no_progress (with_reducible apply Ok.frame <;> first | rfl | skip) | split)

theorem logLocked_ok {pd : List Instr} {s : State} (h : Ok pd s) : Ok pd (State.logLocked s) := by
  unfold State.logLocked
  try dsimp only
  repeat' (first | (intro _) | with_reducible (first | assumption | apply log_ok | apply Ok.ite | apply Ok.foldl | apply Ok.elim | apply Ok.ite_fst | apply Ok.ite_snd | apply Ok.foldl_fst) | fail_if_no_progress (with_reducible apply Ok.frame <;> first | rfl | skip) | split)

theorem storeSys_ok {pd : List Instr} {s : State} {i : Nat} {b : Option Bytes} (h : Ok pd s) : Ok pd (State.storeSys s i b) := by
  unfold State.storeSys
  try dsimp only
  repeat' (first | (intro _) | with_reducible (first | assumption | apply logLocked_ok | apply Ok.ite | apply Ok.foldl | apply Ok.elim | apply Ok.ite_fst | apply Ok.ite_snd | apply Ok.foldl_fst) | fail_if_no_progress (with_reducible apply Ok.frame <;> first | rfl | skip) | split)

theorem sysClear_ok {pd : List Instr} {s : State} {c : Nat} {entry : Nat} (h : Ok pd s) : Ok pd (State.sysClear s c entry) := by
  unfold State.sysClear
  try dsimp only
  repeat' (first | (intro _) | with_reducible (first | assumption | apply setConv_ok | apply markCal_ok | apply storeSys_ok | apply Ok.ite | apply Ok.foldl | apply Ok.elim | apply Ok.ite_fst | apply Ok.ite_snd | apply Ok.foldl_fst) | fail_if_no_progress (with_reducible apply Ok.frame <;> first | rfl | skip) | split)

theorem sysUse_ok {pd : List Instr} {s : State} {c : Nat} {entry : Nat} {gcode : Nat} {g : Nat} {off : Int} {apply : Bool} {store : Bool} (h : Ok pd s) : Ok pd (State.sysUse s c entry gcode g off apply store) := by
  unfold State.sysUse
  try dsimp only
  repeat' (first | (intro _) | with_reducible (first | assumption | apply setConv_ok | apply markCal_ok | apply Ok.ite | apply Ok.foldl | apply Ok.elim | apply Ok.ite_fst | apply Ok.ite_snd | apply Ok.foldl_fst) | fail_if_no_progress (with_reducible apply Ok.frame <;> first | rfl | skip) | split)

theorem sysKeep_ok {pd : List Instr} {s : State} {c : Nat} {entry : Nat} {gcode : Nat} {g : Nat} {off : Int} {apply : Bool} {store : Bool} {pos : Option Nat} (h : Ok pd s) : Ok pd (State.sysKeep s c entry gcode g off apply store pos) := by
  unfold State.sysKeep
  try dsimp only
  repeat' (first | (intro _) | with_reducible (first | assumption | apply storeSys_ok | apply sysUse_ok | apply Ok.ite | apply Ok.foldl | apply Ok.elim | apply Ok.ite_fst | apply Ok.ite_snd | apply Ok.foldl_fst) | fail_if_no_progress (with_reducible apply Ok.frame <;> first | rfl | skip) | split)

theorem sysCommit_ok {pd : List Instr} {slot : Nat} {a : Bytes} {s : State} (h : Ok pd s) : Ok pd (State.sysCommit slot a s) := by
  unfold State.sysCommit
  try dsimp only
  repeat' (first | (intro _) | with_reducible (first | assumption | apply final_ok | apply sysClear_ok | apply sysKeep_ok | apply Ok.ite | apply Ok.foldl | apply Ok.elim | apply Ok.ite_fst | apply Ok.ite_snd | apply Ok.foldl_fst) | fail_if_no_progress (with_reducible apply Ok.frame <;> first | rfl | skip) | split)

theorem bodySysCommit_ok {pd : List Instr} {cmd : Instr} {slot : Nat} {a : Bytes} {s : State} (h : Ok pd s) : Ok pd (bodySysCommit cmd slot a s) := by
  unfold bodySysCommit
  try dsimp only
  repeat' (first | (intro _) | with_reducible (first | assumption | apply final_ok | apply onRegion_ok | apply sysCommit_ok | apply Ok.ite | apply Ok.foldl | apply Ok.elim | apply Ok.ite_fst | apply Ok.ite_snd | apply Ok.foldl_fst) | fail_if_no_progress (with_reducible apply Ok.frame <;> first | rfl | skip) | split)

theorem execSyscalCommit_ok {pd : List Instr} {d : Desc} {s : State} (h : Ok pd s) : OkO pd (execSyscalCommit d s) := by
  unfold execSyscalCommit
  try dsimp only
  repeat' (first | with_reducible (first | apply ifUnit_ok | apply queueCmd_ok | apply Ok.outcome | apply Ok.fault | apply command_ok | apply onRegion_ok | apply onRegions_ok | apply OkO.ite) | with_reducible (intro _) | with_reducible (first | assumption | apply command_ok | apply queueCmd_ok | apply bodySysCommit_ok | apply Ok.ite | apply Ok.foldl | apply Ok.elim | apply Ok.ite_fst | apply Ok.ite_snd | apply Ok.foldl_fst) | fail_if_no_progress (with_reducible apply Ok.frame <;> first | rfl | skip) | split)

theorem execSyscalTimeout_ok {pd : List Instr} {t : Nat} {slot : Nat} {s : State} (h : Ok pd s) : OkO pd (execSyscalTimeout t slot s) := by
  unfold execSyscalTimeout
  try dsimp only
  repeat' (first | with_reducible (first | apply ifUnit_ok | apply queueCmd_ok | apply Ok.outcome | apply Ok.fault | apply command_ok | apply onRegion_ok | apply onRegions_ok | apply OkO.ite) | with_reducible (intro _) | with_reducible (first | assumption | apply at_ok | apply final_ok | apply dropMeas_ok | apply Ok.ite | apply Ok.foldl | apply Ok.elim | apply Ok.ite_fst | apply Ok.ite_snd | apply Ok.foldl_fst) | fail_if_no_progress (with_reducible apply Ok.frame <;> first | rfl | skip) | split)

theorem endStep_ok {pd : List Instr} {s : State} {c : Nat} (h : Ok pd s) : Ok pd (State.endStep s c) := by
  unfold State.endStep
  try dsimp only
  repeat' (first | (intro _) | with_reducible (first | assumption | apply setConv_ok | apply bump_ok | apply Ok.ite | apply Ok.foldl | apply Ok.elim | apply Ok.ite_fst | apply Ok.ite_snd | apply Ok.foldl_fst) | fail_if_no_progress (with_reducible apply Ok.frame <;> first | rfl | skip) | split)

theorem instant_ok {pd : List Instr} {s : State} {c : Nat} {t : Nat} {main : Int} {comp : Int} (h : Ok pd s) : Ok pd (State.instant s c t main comp) := by
  unfold State.instant
  try dsimp only
  repeat' (first | (intro _) | with_reducible (first | assumption | apply setConv_ok | apply emit_ok | apply bumpN_ok | apply deliver_ok | apply endStep_ok | apply Ok.ite | apply Ok.foldl | apply Ok.elim | apply Ok.ite_fst | apply Ok.ite_snd | apply Ok.foldl_fst) | fail_if_no_progress (with_reducible apply Ok.frame <;> first | rfl | skip) | split)

theorem applyCoef_ok {pd : List Instr} {s : State} {c : Nat} (h : Ok pd s) : Ok pd (State.applyCoef s c) := by
  unfold State.applyCoef
  try dsimp only
  repeat' (first | (intro _) | with_reducible (first | assumption | apply setConv_ok | apply markCal_ok | apply Ok.ite | apply Ok.foldl | apply Ok.elim | apply Ok.ite_fst | apply Ok.ite_snd | apply Ok.foldl_fst) | fail_if_no_progress (with_reducible apply Ok.frame <;> first | rfl | skip) | split)

theorem applyStaged_ok {pd : List Instr} {s : State} {ns : List Nat} (h : Ok pd s) : Ok pd (State.applyStaged s ns) := by
  unfold State.applyStaged
  try dsimp only
  repeat' (first | (intro _) | with_reducible (first | assumption | apply applyCells_ok | apply resume_ok | apply Ok.ite | apply Ok.foldl | apply Ok.elim | apply Ok.ite_fst | apply Ok.ite_snd | apply Ok.foldl_fst) | fail_if_no_progress (with_reducible apply Ok.frame <;> first | rfl | skip) | split)

theorem endInstant_ok {pd : List Instr} {s : State} {c : Nat} (h : Ok pd s) : Ok pd (State.endInstant s c) := by
  unfold State.endInstant
  try dsimp only
  repeat' (first | (intro _) | with_reducible (first | assumption | apply setConv_ok | apply settleConv_ok | apply applyStaged_ok | apply Ok.ite | apply Ok.foldl | apply Ok.elim | apply Ok.ite_fst | apply Ok.ite_snd | apply Ok.foldl_fst) | fail_if_no_progress (with_reducible apply Ok.frame <;> first | rfl | skip) | split)

theorem execOutputInstant_ok {pd : List Instr} {t : Nat} {c : Nat} {main : Int} {companion : Int} {s : State} (h : Ok pd s) : OkO pd (execOutputInstant t c main companion s) := by
  unfold execOutputInstant
  try dsimp only
  repeat' (first | with_reducible (first | apply ifUnit_ok | apply queueCmd_ok | apply Ok.outcome | apply Ok.fault | apply command_ok | apply onRegion_ok | apply onRegions_ok | apply OkO.ite) | with_reducible (intro _) | with_reducible (first | assumption | apply setConv_ok | apply at_ok | apply crossAt_ok | apply takeEffect_ok | apply instant_ok | apply applyCoef_ok | apply endInstant_ok | apply Ok.ite | apply Ok.foldl | apply Ok.elim | apply Ok.ite_fst | apply Ok.ite_snd | apply Ok.foldl_fst) | fail_if_no_progress (with_reducible apply Ok.frame <;> first | rfl | skip) | split)

theorem execApplyStrobe_ok {pd : List Instr} {t : Nat} {s : State} (h : Ok pd s) : OkO pd (execApplyStrobe t s) := by
  unfold execApplyStrobe
  try dsimp only
  repeat' (first | with_reducible (first | apply ifUnit_ok | apply queueCmd_ok | apply Ok.outcome | apply Ok.fault | apply command_ok | apply onRegion_ok | apply onRegions_ok | apply OkO.ite) | with_reducible (intro _) | with_reducible (first | assumption | apply at_ok | apply crossAt_ok | apply applyStaged_ok | apply Ok.ite | apply Ok.foldl | apply Ok.elim | apply Ok.ite_fst | apply Ok.ite_snd | apply Ok.foldl_fst) | fail_if_no_progress (with_reducible apply Ok.frame <;> first | rfl | skip) | split)

theorem execLoopOverload_ok {pd : List Instr} {t : Nat} {c : Nat} {s : State} (h : Ok pd s) : OkO pd (execLoopOverload t c s) := by
  unfold execLoopOverload
  try dsimp only
  repeat' (first | with_reducible (first | apply ifUnit_ok | apply queueCmd_ok | apply Ok.outcome | apply Ok.fault | apply command_ok | apply onRegion_ok | apply onRegions_ok | apply OkO.ite) | with_reducible (intro _) | with_reducible (first | assumption | apply setConv_ok | apply at_ok | apply bump_ok | apply ifUnit_ok | apply Ok.ite | apply Ok.foldl | apply Ok.elim | apply Ok.ite_fst | apply Ok.ite_snd | apply Ok.foldl_fst) | fail_if_no_progress (with_reducible apply Ok.frame <;> first | rfl | skip) | split)

theorem execLoopOverloadEnd_ok {pd : List Instr} {t : Nat} {c : Nat} {s : State} (h : Ok pd s) : OkO pd (execLoopOverloadEnd t c s) := by
  unfold execLoopOverloadEnd
  try dsimp only
  repeat' (first | with_reducible (first | apply ifUnit_ok | apply queueCmd_ok | apply Ok.outcome | apply Ok.fault | apply command_ok | apply onRegion_ok | apply onRegions_ok | apply OkO.ite) | with_reducible (intro _) | with_reducible (first | assumption | apply setConv_ok | apply at_ok | apply ifUnit_ok | apply Ok.ite | apply Ok.foldl | apply Ok.elim | apply Ok.ite_fst | apply Ok.ite_snd | apply Ok.foldl_fst) | fail_if_no_progress (with_reducible apply Ok.frame <;> first | rfl | skip) | split)

theorem execConverterPowerGate_ok {pd : List Instr} {t : Nat} {c : Nat} {s : State} (h : Ok pd s) : OkO pd (execConverterPowerGate t c s) := by
  unfold execConverterPowerGate
  try dsimp only
  repeat' (first | with_reducible (first | apply ifUnit_ok | apply queueCmd_ok | apply Ok.outcome | apply Ok.fault | apply command_ok | apply onRegion_ok | apply onRegions_ok | apply OkO.ite) | with_reducible (intro _) | with_reducible (first | assumption | apply setConv_ok | apply at_ok | apply ifUnit_ok | apply Ok.ite | apply Ok.foldl | apply Ok.elim | apply Ok.ite_fst | apply Ok.ite_snd | apply Ok.foldl_fst) | fail_if_no_progress (with_reducible apply Ok.frame <;> first | rfl | skip) | split)

end Sys2Proof.Machine
end

