-- ==== Sys2Proof/Laws/OkCalibration.lean ====
section
/-! SUPPORT. Every operation of Machine/Calibration.lean keeps the queue and every bounded field. -/

namespace Sys2Proof.Machine

set_option linter.unusedTactic false
set_option linter.unreachableTactic false

theorem keepWrite_ok {pd : List Instr} {s : State} {f : Keep → Keep} (h : Ok pd s) : Ok pd (State.keepWrite s f) := by
  unfold State.keepWrite
  try dsimp only
  repeat' (first | (intro _) | with_reducible (first | assumption | apply logLocked_ok | apply Ok.ite | apply Ok.foldl | apply Ok.elim | apply Ok.ite_fst | apply Ok.ite_snd | apply Ok.foldl_fst) | fail_if_no_progress (with_reducible apply Ok.frame <;> first | rfl | skip) | split)

theorem storeCal_ok {pd : List Instr} {s : State} {kind : Nat} {idx : Nat} (h : Ok pd s) : Ok pd (State.storeCal s kind idx) := by
  unfold State.storeCal
  try dsimp only
  repeat' (first | (intro _) | with_reducible (first | assumption | apply keepWrite_ok | apply Ok.ite | apply Ok.foldl | apply Ok.elim | apply Ok.ite_fst | apply Ok.ite_snd | apply Ok.foldl_fst) | fail_if_no_progress (with_reducible apply Ok.frame <;> first | rfl | skip) | split)

theorem execKeepStoreWrite_ok {pd : List Instr} {t : Nat} {kind : Nat} {idx : Nat} {s : State} (h : Ok pd s) : OkO pd (execKeepStoreWrite t kind idx s) := by
  unfold execKeepStoreWrite
  try dsimp only
  repeat' (first | with_reducible (first | apply ifUnit_ok | apply queueCmd_ok | apply Ok.outcome | apply Ok.fault | apply command_ok | apply onRegion_ok | apply onRegions_ok | apply OkO.ite) | with_reducible (intro _) | with_reducible (first | assumption | apply at_ok | apply fresh_ok | apply logLocked_ok | apply storeSys_ok | apply storeCal_ok | apply Ok.ite | apply Ok.foldl | apply Ok.elim | apply Ok.ite_fst | apply Ok.ite_snd | apply Ok.foldl_fst) | fail_if_no_progress (with_reducible apply Ok.frame <;> first | rfl | skip) | split)

theorem execCalibrationRunStart_ok {pd : List Instr} {t : Nat} {r : Nat} {kind : Nat} {idx0 : Nat} {s : State} (h : Ok pd s) : OkO pd (execCalibrationRunStart t r kind idx0 s) := by
  unfold execCalibrationRunStart
  try dsimp only
  repeat' (first | with_reducible (first | apply ifUnit_ok | apply queueCmd_ok | apply Ok.outcome | apply Ok.fault | apply command_ok | apply onRegion_ok | apply onRegions_ok | apply OkO.ite) | with_reducible (intro _) | with_reducible (first | assumption | apply setConv_ok | apply setDac_ok | apply at_ok | apply yieldConv_ok | apply Ok.ite | apply Ok.foldl | apply Ok.elim | apply Ok.ite_fst | apply Ok.ite_snd | apply Ok.foldl_fst) | fail_if_no_progress (with_reducible apply Ok.frame <;> first | rfl | skip) | split)

theorem updStatus_ok {pd : List Instr} {s : State} {kind : Nat} {idx : Nat} {f : CalStatus → CalStatus} (h : Ok pd s) : Ok pd (State.updStatus s kind idx f) := by
  unfold State.updStatus
  try dsimp only
  repeat' (first | (intro _) | with_reducible (first | assumption | apply setConv_ok | apply setDac_ok | apply setCell_ok | apply Ok.ite | apply Ok.foldl | apply Ok.elim | apply Ok.ite_fst | apply Ok.ite_snd | apply Ok.foldl_fst) | fail_if_no_progress (with_reducible apply Ok.frame <;> first | rfl | skip) | split)

theorem ageCell_ok {pd : List Instr} {s : State} {n : Nat} (h : Ok pd s) : Ok pd (State.ageCell s n) := by
  unfold State.ageCell
  try dsimp only
  repeat' (first | (intro _) | with_reducible (first | assumption | apply updLeds_ok | apply Ok.ite | apply Ok.foldl | apply Ok.elim | apply Ok.ite_fst | apply Ok.ite_snd | apply Ok.foldl_fst) | fail_if_no_progress (with_reducible apply Ok.frame <;> first | rfl | skip) | split)

theorem pumpRef_ok {pd : List Instr} {s : State} (h : Ok pd s) : Ok pd (State.pumpRef s) := by
  unfold State.pumpRef
  try dsimp only
  repeat' (first | (intro _) | with_reducible (first | assumption | apply setConv_ok | apply yieldConv_ok | apply Ok.ite | apply Ok.foldl | apply Ok.elim | apply Ok.ite_fst | apply Ok.ite_snd | apply Ok.foldl_fst) | fail_if_no_progress (with_reducible apply Ok.frame <;> first | rfl | skip) | split)

theorem startRef_ok {pd : List Instr} {s : State} {regions : List Nat} {cmds : List Nat} {store : Bool} (h : Ok pd s) : Ok pd (State.startRef s regions cmds store) := by
  unfold State.startRef
  try dsimp only
  repeat' (first | (intro _) | with_reducible (first | assumption | apply pumpRef_ok | apply Ok.ite | apply Ok.foldl | apply Ok.elim | apply Ok.ite_fst | apply Ok.ite_snd | apply Ok.foldl_fst) | fail_if_no_progress (with_reducible apply Ok.frame <;> first | rfl | skip) | split)

theorem runFailed_ok {pd : List Instr} {s : State} {e : CalRun} {code : Nat} {res : CalResult} (h : Ok pd s) : Ok pd (State.runFailed s e code res) := by
  unfold State.runFailed
  try dsimp only
  repeat' (first | (intro _) | with_reducible (first | assumption | apply log_ok | apply bump_ok | apply makeDue_ok | apply calEnded_ok | apply updStatus_ok | apply ageCell_ok | apply startRef_ok | apply Ok.ite | apply Ok.foldl | apply Ok.elim | apply Ok.ite_fst | apply Ok.ite_snd | apply Ok.foldl_fst) | fail_if_no_progress (with_reducible apply Ok.frame <;> first | rfl | skip) | split)

theorem pairMoved_ok {pd : List Instr} {s : State} {n : Nat} {pair : Nat} {health : Nat} (h : Ok pd s) : Ok pd (State.pairMoved s n pair health) := by
  unfold State.pairMoved
  try dsimp only
  repeat' (first | (intro _) | with_reducible (first | assumption | apply setLed_ok | apply Ok.ite | apply Ok.foldl | apply Ok.elim | apply Ok.ite_fst | apply Ok.ite_snd | apply Ok.foldl_fst) | fail_if_no_progress (with_reducible apply Ok.frame <;> first | rfl | skip) | split)

theorem cellResult_ok {pd : List Instr} {s : State} {e : CalRun} {res : CalResult} (h : Ok pd s) : Ok pd (State.cellResult s e res) := by
  unfold State.cellResult
  try dsimp only
  repeat' (first | (intro _) | with_reducible (first | assumption | apply setCell_ok | apply writeRanks_ok | apply stage_ok | apply pairMoved_ok | apply Ok.ite | apply Ok.foldl | apply Ok.elim | apply Ok.ite_fst | apply Ok.ite_snd | apply Ok.foldl_fst) | fail_if_no_progress (with_reducible apply Ok.frame <;> first | rfl | skip) | split)

theorem convResult_ok {pd : List Instr} {s : State} {e : CalRun} {res : CalResult} (h : Ok pd s) : Ok pd (State.convResult s e res) := by
  unfold State.convResult
  try dsimp only
  repeat' (first | (intro _) | with_reducible (first | assumption | apply setConv_ok | apply Ok.ite | apply Ok.foldl | apply Ok.elim | apply Ok.ite_fst | apply Ok.ite_snd | apply Ok.foldl_fst) | fail_if_no_progress (with_reducible apply Ok.frame <;> first | rfl | skip) | split)

theorem dacResult_ok {pd : List Instr} {s : State} {e : CalRun} {res : CalResult} (h : Ok pd s) : Ok pd (State.dacResult s e res) := by
  unfold State.dacResult
  try dsimp only
  repeat' (first | (intro _) | with_reducible (first | assumption | apply setDac_ok | apply Ok.ite | apply Ok.foldl | apply Ok.elim | apply Ok.ite_fst | apply Ok.ite_snd | apply Ok.foldl_fst) | fail_if_no_progress (with_reducible apply Ok.frame <;> first | rfl | skip) | split)

theorem settled_ok {pd : List Instr} {s : State} {kind : Nat} {idx : Nat} (h : Ok pd s) : Ok pd (State.settled s kind idx) := by
  unfold State.settled
  try dsimp only
  repeat' (first | (intro _) | with_reducible (first | assumption | apply setConv_ok | apply setDac_ok | apply applyCell_ok | apply Ok.ite | apply Ok.foldl | apply Ok.elim | apply Ok.ite_fst | apply Ok.ite_snd | apply Ok.foldl_fst) | fail_if_no_progress (with_reducible apply Ok.frame <;> first | rfl | skip) | split)

theorem storeLater_ok {pd : List Instr} {s : State} {kind : Nat} {idx : Nat} (h : Ok pd s) : Ok pd (State.storeLater s kind idx) := by
  unfold State.storeLater
  try dsimp only
  repeat' (first | (intro _) | with_reducible (first | assumption | apply Ok.ite | apply Ok.foldl | apply Ok.elim | apply Ok.ite_fst | apply Ok.ite_snd | apply Ok.foldl_fst) | fail_if_no_progress (with_reducible apply Ok.frame <;> first | rfl | skip) | split)

theorem storeRef_ok {pd : List Instr} {s : State} (h : Ok pd s) : Ok pd (State.storeRef s) := by
  unfold State.storeRef
  try dsimp only
  repeat' (first | (intro _) | with_reducible (first | assumption | apply keepWrite_ok | apply storeLater_ok | apply Ok.ite | apply Ok.foldl | apply Ok.elim | apply Ok.ite_fst | apply Ok.ite_snd | apply Ok.foldl_fst) | fail_if_no_progress (with_reducible apply Ok.frame <;> first | rfl | skip) | split)

theorem storeResult_ok {pd : List Instr} {s : State} {kind : Nat} {idx : Nat} (h : Ok pd s) : Ok pd (State.storeResult s kind idx) := by
  unfold State.storeResult
  try dsimp only
  repeat' (first | (intro _) | with_reducible (first | assumption | apply logLocked_ok | apply storeCal_ok | apply settled_ok | apply storeLater_ok | apply Ok.ite | apply Ok.foldl | apply Ok.elim | apply Ok.ite_fst | apply Ok.ite_snd | apply Ok.foldl_fst) | fail_if_no_progress (with_reducible apply Ok.frame <;> first | rfl | skip) | split)

theorem storeWaited_ok {pd : List Instr} {s : State} (h : Ok pd s) : Ok pd (State.storeWaited s) := by
  unfold State.storeWaited
  try dsimp only
  repeat' (first | (intro _) | with_reducible (first | assumption | apply storeRef_ok | apply storeResult_ok | apply Ok.ite | apply Ok.foldl | apply Ok.elim | apply Ok.ite_fst | apply Ok.ite_snd | apply Ok.foldl_fst) | fail_if_no_progress (with_reducible apply Ok.frame <;> first | rfl | skip) | split)

theorem execCalibrationRunEnd_ok {pd : List Instr} {t : Nat} {kind : Nat} {idx0 : Nat} {res : CalResult} {s : State} (h : Ok pd s) : OkO pd (execCalibrationRunEnd t kind idx0 res s) := by
  unfold execCalibrationRunEnd
  try dsimp only
  repeat' (first | with_reducible (first | apply ifUnit_ok | apply queueCmd_ok | apply Ok.outcome | apply Ok.fault | apply command_ok | apply onRegion_ok | apply onRegions_ok | apply OkO.ite) | with_reducible (intro _) | with_reducible (first | assumption | apply setConv_ok | apply at_ok | apply bump_ok | apply setDueFlag_ok | apply calEnded_ok | apply pumpRef_ok | apply runFailed_ok | apply cellResult_ok | apply convResult_ok | apply dacResult_ok | apply storeResult_ok | apply Ok.ite | apply Ok.foldl | apply Ok.elim | apply Ok.ite_fst | apply Ok.ite_snd | apply Ok.foldl_fst) | fail_if_no_progress (with_reducible apply Ok.frame <;> first | rfl | skip) | split)

theorem execCalRetry_ok {pd : List Instr} {t : Nat} {kind : Nat} {idx0 : Nat} {s : State} (h : Ok pd s) : OkO pd (execCalRetry t kind idx0 s) := by
  unfold execCalRetry
  try dsimp only
  repeat' (first | with_reducible (first | apply ifUnit_ok | apply queueCmd_ok | apply Ok.outcome | apply Ok.fault | apply command_ok | apply onRegion_ok | apply onRegions_ok | apply OkO.ite) | with_reducible (intro _) | with_reducible (first | assumption | apply at_ok | apply Ok.ite | apply Ok.foldl | apply Ok.elim | apply Ok.ite_fst | apply Ok.ite_snd | apply Ok.foldl_fst) | fail_if_no_progress (with_reducible apply Ok.frame <;> first | rfl | skip) | split)

theorem execCalIntervalDue_ok {pd : List Instr} {t : Nat} {kind : Nat} {idx : Nat} {s : State} (h : Ok pd s) : OkO pd (execCalIntervalDue t kind idx s) := by
  unfold execCalIntervalDue
  try dsimp only
  repeat' (first | with_reducible (first | apply ifUnit_ok | apply queueCmd_ok | apply Ok.outcome | apply Ok.fault | apply command_ok | apply onRegion_ok | apply onRegions_ok | apply OkO.ite) | with_reducible (intro _) | with_reducible (first | assumption | apply at_ok | apply makeDue_ok | apply Ok.ite | apply Ok.foldl | apply Ok.elim | apply Ok.ite_fst | apply Ok.ite_snd | apply Ok.foldl_fst) | fail_if_no_progress (with_reducible apply Ok.frame <;> first | rfl | skip) | split)

theorem tempDue_ok {pd : List Instr} {s : State} {kind : Nat} {idx : Nat} (h : Ok pd s) : Ok pd (State.tempDue s kind idx) := by
  unfold State.tempDue
  try dsimp only
  repeat' (first | (intro _) | with_reducible (first | assumption | apply makeDue_ok | apply Ok.ite | apply Ok.foldl | apply Ok.elim | apply Ok.ite_fst | apply Ok.ite_snd | apply Ok.foldl_fst) | fail_if_no_progress (with_reducible apply Ok.frame <;> first | rfl | skip) | split)

theorem regionDue_ok {pd : List Instr} {s : State} {r : Nat} (h : Ok pd s) : Ok pd (State.regionDue s r) := by
  unfold State.regionDue
  try dsimp only
  repeat' (first | (intro _) | with_reducible (first | assumption | apply tempDue_ok | apply Ok.ite | apply Ok.foldl | apply Ok.elim | apply Ok.ite_fst | apply Ok.ite_snd | apply Ok.foldl_fst) | fail_if_no_progress (with_reducible apply Ok.frame <;> first | rfl | skip) | split)

theorem allDue_ok {pd : List Instr} {s : State} (h : Ok pd s) : Ok pd (State.allDue s) := by
  unfold State.allDue
  try dsimp only
  repeat' (first | (intro _) | with_reducible (first | assumption | apply makeDue_ok | apply Ok.ite | apply Ok.foldl | apply Ok.elim | apply Ok.ite_fst | apply Ok.ite_snd | apply Ok.foldl_fst) | fail_if_no_progress (with_reducible apply Ok.frame <;> first | rfl | skip) | split)

theorem dropRuns_ok {pd : List Instr} {s : State} {r : Nat} (h : Ok pd s) : Ok pd (State.dropRuns s r) := by
  unfold State.dropRuns
  try dsimp only
  repeat' (first | (intro _) | with_reducible (first | assumption | apply dropRun_ok | apply Ok.ite | apply Ok.foldl | apply Ok.elim | apply Ok.ite_fst | apply Ok.ite_snd | apply Ok.foldl_fst) | fail_if_no_progress (with_reducible apply Ok.frame <;> first | rfl | skip) | split)

theorem bodyCalRun_ok {pd : List Instr} {cmd : Instr} {slot : Nat} {a : Bytes} {s : State} (h : Ok pd s) : Ok pd (bodyCalRun cmd slot a s) := by
  unfold bodyCalRun
  try dsimp only
  repeat' (first | (intro _) | with_reducible (first | assumption | apply final_ok | apply setWork_ok | apply onRegions_ok | apply makeDue_ok | apply reportCals_ok | apply startRef_ok | apply Ok.ite | apply Ok.foldl | apply Ok.elim | apply Ok.ite_fst | apply Ok.ite_snd | apply Ok.foldl_fst) | fail_if_no_progress (with_reducible apply Ok.frame <;> first | rfl | skip) | split)

theorem execCalRun_ok {pd : List Instr} {d : Desc} {s : State} (h : Ok pd s) : OkO pd (execCalRun d s) := by
  unfold execCalRun
  try dsimp only
  repeat' (first | with_reducible (first | apply ifUnit_ok | apply queueCmd_ok | apply Ok.outcome | apply Ok.fault | apply command_ok | apply onRegion_ok | apply onRegions_ok | apply OkO.ite) | with_reducible (intro _) | with_reducible (first | assumption | apply command_ok | apply queueCmd_ok | apply bodyCalRun_ok | apply Ok.ite | apply Ok.foldl | apply Ok.elim | apply Ok.ite_fst | apply Ok.ite_snd | apply Ok.foldl_fst) | fail_if_no_progress (with_reducible apply Ok.frame <;> first | rfl | skip) | split)

theorem bodyCalPolicy_ok {pd : List Instr} {slot : Nat} {a : Bytes} {s : State} (h : Ok pd s) : Ok pd (bodyCalPolicy slot a s) := by
  unfold bodyCalPolicy
  try dsimp only
  repeat' (first | (intro _) | with_reducible (first | assumption | apply setGraph_ok | apply final_ok | apply keepWrite_ok | apply Ok.ite | apply Ok.foldl | apply Ok.elim | apply Ok.ite_fst | apply Ok.ite_snd | apply Ok.foldl_fst) | fail_if_no_progress (with_reducible apply Ok.frame <;> first | rfl | skip) | split)

theorem execCalPolicy_ok {pd : List Instr} {d : Desc} {s : State} (h : Ok pd s) : OkO pd (execCalPolicy d s) := by
  unfold execCalPolicy
  try dsimp only
  repeat' (first | with_reducible (first | apply ifUnit_ok | apply queueCmd_ok | apply Ok.outcome | apply Ok.fault | apply command_ok | apply onRegion_ok | apply onRegions_ok | apply OkO.ite) | with_reducible (intro _) | with_reducible (first | assumption | apply command_ok | apply queueCmd_ok | apply bodyCalPolicy_ok | apply Ok.ite | apply Ok.foldl | apply Ok.elim | apply Ok.ite_fst | apply Ok.ite_snd | apply Ok.foldl_fst) | fail_if_no_progress (with_reducible apply Ok.frame <;> first | rfl | skip) | split)

theorem bodyCalRef_ok {pd : List Instr} {slot : Nat} {a : Bytes} {s : State} (h : Ok pd s) : Ok pd (bodyCalRef slot a s) := by
  unfold bodyCalRef
  try dsimp only
  repeat' (first | (intro _) | with_reducible (first | assumption | apply final_ok | apply setWork_ok | apply keepWrite_ok | apply startRef_ok | apply Ok.ite | apply Ok.foldl | apply Ok.elim | apply Ok.ite_fst | apply Ok.ite_snd | apply Ok.foldl_fst) | fail_if_no_progress (with_reducible apply Ok.frame <;> first | rfl | skip) | split)

theorem execCalRefExternal_ok {pd : List Instr} {d : Desc} {s : State} (h : Ok pd s) : OkO pd (execCalRefExternal d s) := by
  unfold execCalRefExternal
  try dsimp only
  repeat' (first | with_reducible (first | apply ifUnit_ok | apply queueCmd_ok | apply Ok.outcome | apply Ok.fault | apply command_ok | apply onRegion_ok | apply onRegions_ok | apply OkO.ite) | with_reducible (intro _) | with_reducible (first | assumption | apply command_ok | apply queueCmd_ok | apply bodyCalRef_ok | apply Ok.ite | apply Ok.foldl | apply Ok.elim | apply Ok.ite_fst | apply Ok.ite_snd | apply Ok.foldl_fst) | fail_if_no_progress (with_reducible apply Ok.frame <;> first | rfl | skip) | split)

theorem execRefcalMeasurement_ok {pd : List Instr} {t : Nat} {regions : List RefRegion} {s : State} (h : Ok pd s) : OkO pd (execRefcalMeasurement t regions s) := by
  unfold execRefcalMeasurement
  try dsimp only
  repeat' (first | with_reducible (first | apply ifUnit_ok | apply queueCmd_ok | apply Ok.outcome | apply Ok.fault | apply command_ok | apply onRegion_ok | apply onRegions_ok | apply OkO.ite) | with_reducible (intro _) | with_reducible (first | assumption | apply setConv_ok | apply at_ok | apply log_ok | apply final_ok | apply calEnded_ok | apply updStatus_ok | apply pumpRef_ok | apply storeRef_ok | apply Ok.ite | apply Ok.foldl | apply Ok.elim | apply Ok.ite_fst | apply Ok.ite_snd | apply Ok.foldl_fst) | fail_if_no_progress (with_reducible apply Ok.frame <;> first | rfl | skip) | split)

theorem loadCell_ok {pd : List Instr} {s : State} {n : Nat} (h : Ok pd s) : Ok pd (State.loadCell s n) := by
  unfold State.loadCell
  try dsimp only
  repeat' (first | (intro _) | with_reducible (first | assumption | apply setCell_ok | apply updLeds_ok | apply activatePair_ok | apply Ok.ite | apply Ok.foldl | apply Ok.elim | apply Ok.ite_fst | apply Ok.ite_snd | apply Ok.foldl_fst) | fail_if_no_progress (with_reducible apply Ok.frame <;> first | rfl | skip) | split)

theorem loadConv_ok {pd : List Instr} {s : State} {c : Nat} (h : Ok pd s) : Ok pd (State.loadConv s c) := by
  unfold State.loadConv
  try dsimp only
  repeat' (first | (intro _) | with_reducible (first | assumption | apply setConv_ok | apply Ok.ite | apply Ok.foldl | apply Ok.elim | apply Ok.ite_fst | apply Ok.ite_snd | apply Ok.foldl_fst) | fail_if_no_progress (with_reducible apply Ok.frame <;> first | rfl | skip) | split)

theorem loadDacCal_ok {pd : List Instr} {s : State} {n : Nat} (h : Ok pd s) : Ok pd (State.loadDacCal s n) := by
  unfold State.loadDacCal
  try dsimp only
  repeat' (first | (intro _) | with_reducible (first | assumption | apply setDac_ok | apply Ok.ite | apply Ok.foldl | apply Ok.elim | apply Ok.ite_fst | apply Ok.ite_snd | apply Ok.foldl_fst) | fail_if_no_progress (with_reducible apply Ok.frame <;> first | rfl | skip) | split)

theorem loadSys_ok {pd : List Instr} {s : State} (h : Ok pd s) : Ok pd (State.loadSys s) := by
  unfold State.loadSys
  try dsimp only
  repeat' (first | (intro _) | with_reducible (first | assumption | apply setConv_ok | apply Ok.ite | apply Ok.foldl | apply Ok.elim | apply Ok.ite_fst | apply Ok.ite_snd | apply Ok.foldl_fst) | fail_if_no_progress (with_reducible apply Ok.frame <;> first | rfl | skip) | split)

theorem loadRecords_ok {pd : List Instr} {s : State} (h : Ok pd s) : Ok pd (State.loadRecords s) := by
  unfold State.loadRecords
  try dsimp only
  repeat' (first | (intro _) | with_reducible (first | assumption | apply Ok.ite | apply Ok.foldl | apply Ok.elim | apply Ok.ite_fst | apply Ok.ite_snd | apply Ok.foldl_fst) | fail_if_no_progress (with_reducible apply Ok.frame <;> first | rfl | skip) | split)

theorem loadKeep_ok {pd : List Instr} {s : State} (h : Ok pd s) : Ok pd (State.loadKeep s) := by
  unfold State.loadKeep
  try dsimp only
  repeat' (first | (intro _) | with_reducible (first | assumption | apply setLed_ok | apply loadCell_ok | apply loadConv_ok | apply loadDacCal_ok | apply loadSys_ok | apply loadRecords_ok | apply Ok.ite | apply Ok.foldl | apply Ok.elim | apply Ok.ite_fst | apply Ok.ite_snd | apply Ok.foldl_fst) | fail_if_no_progress (with_reducible apply Ok.frame <;> first | rfl | skip) | split)

end Sys2Proof.Machine
end

