-- ==== Sys2Proof/Laws/OkMoves.lean ====
section
/-! SUPPORT. Every operation of Machine/Moves.lean keeps the queue and every bounded field. -/

namespace Sys2Proof.Machine

set_option linter.unusedTactic false
set_option linter.unreachableTactic false

theorem configDest_ok {pd : List Instr} {s : State} {slot : Nat} {i : Nat} {d : PlaceP} (h : Ok pd s) : Ok pd (State.configDest s slot i d) := by
  unfold State.configDest
  try dsimp only
  repeat' (first | (intro _) | with_reducible (first | assumption | apply setCell_ok | apply configPrim_ok | apply Ok.ite | apply Ok.foldl | apply Ok.elim | apply Ok.ite_fst | apply Ok.ite_snd | apply Ok.foldl_fst) | fail_if_no_progress (with_reducible apply Ok.frame <;> first | rfl | skip) | split)

theorem joinDest_ok {pd : List Instr} {s : State} {slot : Nat} {i : Nat} {d : PlaceP} {nets : List (Nat × List Nat)} (h : Ok pd s) : Ok pd (State.joinDest s slot i d nets) := by
  unfold State.joinDest
  try dsimp only
  repeat' (first | (intro _) | with_reducible (first | assumption | apply joinPorts_ok | apply Ok.ite | apply Ok.foldl | apply Ok.elim | apply Ok.ite_fst | apply Ok.ite_snd | apply Ok.foldl_fst) | fail_if_no_progress (with_reducible apply Ok.frame <;> first | rfl | skip) | split)

theorem execDestinationConfigured_ok {pd : List Instr} {t : Nat} {slot : Nat} {prim : Nat} {s : State} (h : Ok pd s) : OkO pd (execDestinationConfigured t slot prim s) := by
  unfold execDestinationConfigured
  try dsimp only
  repeat' (first | with_reducible (first | apply ifUnit_ok | apply queueCmd_ok | apply Ok.outcome | apply Ok.fault | apply command_ok | apply onRegion_ok | apply onRegions_ok | apply OkO.ite) | with_reducible (intro _) | with_reducible (first | assumption | apply at_ok | apply setMove_ok | apply builtCell_ok | apply configDest_ok | apply joinDest_ok | apply Ok.ite | apply Ok.foldl | apply Ok.elim | apply Ok.ite_fst | apply Ok.ite_snd | apply Ok.foldl_fst) | fail_if_no_progress (with_reducible apply Ok.frame <;> first | rfl | skip) | split)

theorem execDestinationSettled_ok {pd : List Instr} {t : Nat} {slot : Nat} {prim : Nat} {s : State} (h : Ok pd s) : OkO pd (execDestinationSettled t slot prim s) := by
  unfold execDestinationSettled
  try dsimp only
  repeat' (first | with_reducible (first | apply ifUnit_ok | apply queueCmd_ok | apply Ok.outcome | apply Ok.fault | apply command_ok | apply onRegion_ok | apply onRegions_ok | apply OkO.ite) | with_reducible (intro _) | with_reducible (first | assumption | apply setConv_ok | apply at_ok | apply yieldConv_ok | apply setMove_ok | apply setFrozen_ok | apply Ok.ite | apply Ok.foldl | apply Ok.elim | apply Ok.ite_fst | apply Ok.ite_snd | apply Ok.foldl_fst) | fail_if_no_progress (with_reducible apply Ok.frame <;> first | rfl | skip) | split)

theorem trimDest_ok {pd : List Instr} {s : State} {d : PlaceP} {trims : List (Nat × Int)} (h : Ok pd s) : Ok pd (State.trimDest s d trims) := by
  unfold State.trimDest
  try dsimp only
  repeat' (first | (intro _) | with_reducible (first | assumption | apply writeSetting_ok | apply Ok.ite | apply Ok.foldl | apply Ok.elim | apply Ok.ite_fst | apply Ok.ite_snd | apply Ok.foldl_fst) | fail_if_no_progress (with_reducible apply Ok.frame <;> first | rfl | skip) | split)

theorem execMatchingRound_ok {pd : List Instr} {t : Nat} {slot : Nat} {prim : Nat} {offIn : Nat} {offOut : Nat} {gainDiff : Nat} {trims : List (Nat × Int)} {s : State} (h : Ok pd s) : OkO pd (execMatchingRound t slot prim offIn offOut gainDiff trims s) := by
  unfold execMatchingRound
  try dsimp only
  repeat' (first | with_reducible (first | apply ifUnit_ok | apply queueCmd_ok | apply Ok.outcome | apply Ok.fault | apply command_ok | apply onRegion_ok | apply onRegions_ok | apply OkO.ite) | with_reducible (intro _) | with_reducible (first | assumption | apply setCell_ok | apply at_ok | apply log_ok | apply bump_ok | apply setMove_ok | apply abandonMove_ok | apply cellsFreed_ok | apply resume_ok | apply pumpRef_ok | apply trimDest_ok | apply Ok.ite | apply Ok.foldl | apply Ok.elim | apply Ok.ite_fst | apply Ok.ite_snd | apply Ok.foldl_fst) | fail_if_no_progress (with_reducible apply Ok.frame <;> first | rfl | skip) | split)

theorem dropHolds_ok {pd : List Instr} {s : State} {cells : List Nat} (h : Ok pd s) : Ok pd (State.dropHolds s cells) := by
  unfold State.dropHolds
  try dsimp only
  repeat' (first | (intro _) | with_reducible (first | assumption | apply setCell_ok | apply Ok.ite | apply Ok.foldl | apply Ok.elim | apply Ok.ite_fst | apply Ok.ite_snd | apply Ok.foldl_fst) | fail_if_no_progress (with_reducible apply Ok.frame <;> first | rfl | skip) | split)

theorem takePlace_ok {pd : List Instr} {s : State} {m : Move} {g : Graph} (h : Ok pd s) : Ok pd (State.takePlace s m g) := by
  unfold State.takePlace
  try dsimp only
  repeat' (first | (intro _) | with_reducible (first | assumption | apply setCell_ok | apply setGraph_ok | apply makeDue_ok | apply swapPlaces_ok | apply configPrim_ok | apply releaseLoops_ok | apply dropHolds_ok | apply Ok.ite | apply Ok.foldl | apply Ok.elim | apply Ok.ite_fst | apply Ok.ite_snd | apply Ok.foldl_fst) | fail_if_no_progress (with_reducible apply Ok.frame <;> first | rfl | skip) | split)

theorem execCrossoverComplete_ok {pd : List Instr} {t : Nat} {slot : Nat} {prim : Nat} {meas : Measured} {s : State} (h : Ok pd s) : OkO pd (execCrossoverComplete t slot prim meas s) := by
  unfold execCrossoverComplete
  try dsimp only
  repeat' (first | with_reducible (first | apply ifUnit_ok | apply queueCmd_ok | apply Ok.outcome | apply Ok.fault | apply command_ok | apply onRegion_ok | apply onRegions_ok | apply OkO.ite) | with_reducible (intro _) | with_reducible (first | assumption | apply at_ok | apply bump_ok | apply reeval_ok | apply setMove_ok | apply pumpRef_ok | apply takePlace_ok | apply Ok.ite | apply Ok.foldl | apply Ok.elim | apply Ok.ite_fst | apply Ok.ite_snd | apply Ok.foldl_fst) | fail_if_no_progress (with_reducible apply Ok.frame <;> first | rfl | skip) | split)

theorem pumpTest_ok {pd : List Instr} {s : State} {r : Nat} (h : Ok pd s) : Ok pd (State.pumpTest s r) := by
  unfold State.pumpTest
  try dsimp only
  repeat' (first | (intro _) | with_reducible (first | assumption | apply setConv_ok | apply setRegion_ok | apply Ok.ite | apply Ok.foldl | apply Ok.elim | apply Ok.ite_fst | apply Ok.ite_snd | apply Ok.foldl_fst) | fail_if_no_progress (with_reducible apply Ok.frame <;> first | rfl | skip) | split)

theorem askTest_ok {pd : List Instr} {s : State} {r : Nat} {q : Test} (h : Ok pd s) : Ok pd (State.askTest s r q) := by
  unfold State.askTest
  try dsimp only
  repeat' (first | (intro _) | with_reducible (first | assumption | apply setCell_ok | apply setRegion_ok | apply pumpTest_ok | apply Ok.ite | apply Ok.foldl | apply Ok.elim | apply Ok.ite_fst | apply Ok.ite_snd | apply Ok.foldl_fst) | fail_if_no_progress (with_reducible apply Ok.frame <;> first | rfl | skip) | split)

theorem endMove_ok {pd : List Instr} {s : State} {m : Move} (h : Ok pd s) : Ok pd (State.endMove s m) := by
  unfold State.endMove
  try dsimp only
  repeat' (first | (intro _) | with_reducible (first | assumption | apply final_ok | apply freeCell_ok | apply giveBack_ok | apply dropMove_ok | apply setFrozen_ok | apply askTest_ok | apply Ok.ite | apply Ok.foldl | apply Ok.elim | apply Ok.ite_fst | apply Ok.ite_snd | apply Ok.foldl_fst) | fail_if_no_progress (with_reducible apply Ok.frame <;> first | rfl | skip) | split)

theorem execSourceDisconnected_ok {pd : List Instr} {t : Nat} {slot : Nat} {prim : Nat} {s : State} (h : Ok pd s) : OkO pd (execSourceDisconnected t slot prim s) := by
  unfold execSourceDisconnected
  try dsimp only
  repeat' (first | with_reducible (first | apply ifUnit_ok | apply queueCmd_ok | apply Ok.outcome | apply Ok.fault | apply command_ok | apply onRegion_ok | apply onRegions_ok | apply OkO.ite) | with_reducible (intro _) | with_reducible (first | assumption | apply at_ok | apply cellsFreed_ok | apply resume_ok | apply endMove_ok | apply Ok.ite | apply Ok.foldl | apply Ok.elim | apply Ok.ite_fst | apply Ok.ite_snd | apply Ok.foldl_fst) | fail_if_no_progress (with_reducible apply Ok.frame <;> first | rfl | skip) | split)

theorem startHeld_ok {pd : List Instr} {s : State} {slot : Nat} {i : Nat} {g : Graph} {on : Nat → Bool} {first : Nat} {fin : Option Nat} (h : Ok pd s) : Ok pd (State.startHeld s slot i g on first fin) := by
  unfold State.startHeld
  try dsimp only
  repeat' (first | (intro _) | with_reducible (first | assumption | apply setConv_ok | apply Ok.ite | apply Ok.foldl | apply Ok.elim | apply Ok.ite_fst | apply Ok.ite_snd | apply Ok.foldl_fst) | fail_if_no_progress (with_reducible apply Ok.frame <;> first | rfl | skip) | split)

theorem isolate_ok {pd : List Instr} {s : State} {cells : List Nat} {cmp : Bool} (h : Ok pd s) : Ok pd (State.isolate s cells cmp) := by
  unfold State.isolate
  try dsimp only
  repeat' (first | (intro _) | with_reducible (first | assumption | apply setCell_ok | apply quarantineCell_ok | apply restand_ok | apply openSwitches_ok | apply Ok.ite | apply Ok.foldl | apply Ok.elim | apply Ok.ite_fst | apply Ok.ite_snd | apply Ok.foldl_fst) | fail_if_no_progress (with_reducible apply Ok.frame <;> first | rfl | skip) | split)

theorem takeRuns_ok {pd : List Instr} {s : State} {cells : List Nat} (h : Ok pd s) : Ok pd (State.takeRuns s cells).1 := by
  unfold State.takeRuns
  try dsimp only
  repeat' (first | (intro _) | with_reducible (first | assumption | apply final_ok | apply forgetCal_ok | apply Ok.ite | apply Ok.foldl | apply Ok.elim | apply Ok.ite_fst | apply Ok.ite_snd | apply Ok.foldl_fst) | fail_if_no_progress (with_reducible apply Ok.frame <;> first | rfl | skip) | split)

theorem dropMoves_ok {pd : List Instr} {s : State} {slot : Nat} {i : Nat} (h : Ok pd s) : Ok pd (State.dropMoves s slot i) := by
  unfold State.dropMoves
  try dsimp only
  repeat' (first | (intro _) | with_reducible (first | assumption | apply abandonMove_ok | apply Ok.ite | apply Ok.foldl | apply Ok.elim | apply Ok.ite_fst | apply Ok.ite_snd | apply Ok.foldl_fst) | fail_if_no_progress (with_reducible apply Ok.frame <;> first | rfl | skip) | split)

theorem supersede_ok {pd : List Instr} {s : State} {gs : Nat} {i : Nat} (h : Ok pd s) : Ok pd (State.supersede s gs i) := by
  unfold State.supersede
  try dsimp only
  repeat' (first | (intro _) | with_reducible (first | assumption | apply setWork_ok | apply revertGraph_ok | apply dropMoves_ok | apply Ok.ite | apply Ok.foldl | apply Ok.elim | apply Ok.ite_fst | apply Ok.ite_snd | apply Ok.foldl_fst) | fail_if_no_progress (with_reducible apply Ok.frame <;> first | rfl | skip) | split)

theorem settleLoop_ok {pd : List Instr} {s : State} {m : Move} {toDest : Bool} {c : Nat} (h : Ok pd s) : Ok pd (State.settleLoop s m toDest c) := by
  unfold State.settleLoop
  try dsimp only
  repeat' (first | (intro _) | with_reducible (first | assumption | apply setConv_ok | apply Ok.ite | apply Ok.foldl | apply Ok.elim | apply Ok.ite_fst | apply Ok.ite_snd | apply Ok.foldl_fst) | fail_if_no_progress (with_reducible apply Ok.frame <;> first | rfl | skip) | split)

theorem repairTakes_ok {pd : List Instr} {s : State} {m : Move} {g : Graph} {q : Repair} (h : Ok pd s) : Ok pd (State.repairTakes s m g q) := by
  unfold State.repairTakes
  try dsimp only
  repeat' (first | (intro _) | with_reducible (first | assumption | apply dropMove_ok | apply releaseLoops_ok | apply setFrozen_ok | apply withdraw_ok | apply endCmd_ok | apply requeue_ok | apply queueRepair_ok | apply Ok.ite | apply Ok.foldl | apply Ok.elim | apply Ok.ite_fst | apply Ok.ite_snd | apply Ok.foldl_fst) | fail_if_no_progress (with_reducible apply Ok.frame <;> first | rfl | skip) | split)

theorem faultFn_ok {pd : List Instr} {s : State} {slot : Nat} {i : Nat} {g : Graph} {first : Nat} (h : Ok pd s) : Ok pd (State.faultFn s slot i g first) := by
  unfold State.faultFn
  try dsimp only
  repeat' (first | (intro _) | with_reducible (first | assumption | apply calEnded_ok | apply setMove_ok | apply setSwitch_ok | apply queueRepair_ok | apply endMove_ok | apply startHeld_ok | apply isolate_ok | apply takeRuns_ok | apply supersede_ok | apply settleLoop_ok | apply repairTakes_ok | apply Ok.ite | apply Ok.foldl | apply Ok.elim | apply Ok.ite_fst | apply Ok.ite_snd | apply Ok.foldl_fst) | fail_if_no_progress (with_reducible apply Ok.frame <;> first | rfl | skip) | split)

theorem faultMove_ok {pd : List Instr} {s : State} {m : Move} {g : Graph} {first : Nat} (h : Ok pd s) : Ok pd (State.faultMove s m g first) := by
  unfold State.faultMove
  try dsimp only
  repeat' (first | (intro _) | with_reducible (first | assumption | apply leaveMove_ok | apply endCmd_ok | apply requeue_ok | apply setSwitch_ok | apply startHeld_ok | apply isolate_ok | apply settleLoop_ok | apply Ok.ite | apply Ok.foldl | apply Ok.elim | apply Ok.ite_fst | apply Ok.ite_snd | apply Ok.foldl_fst) | fail_if_no_progress (with_reducible apply Ok.frame <;> first | rfl | skip) | split)

theorem faultRepair_ok {pd : List Instr} {s : State} {r : Nat} {q : Repair} (h : Ok pd s) : Ok pd (State.faultRepair s r q) := by
  unfold State.faultRepair
  try dsimp only
  repeat' (first | (intro _) | with_reducible (first | assumption | apply setRegion_ok | apply dropTracks_ok | apply isolate_ok | apply Ok.ite | apply Ok.foldl | apply Ok.elim | apply Ok.ite_fst | apply Ok.ite_snd | apply Ok.foldl_fst) | fail_if_no_progress (with_reducible apply Ok.frame <;> first | rfl | skip) | split)

theorem faultDest_ok {pd : List Instr} {s : State} {slot : Nat} {i : Nat} {n : Nat} {g : Graph} {first : Nat} (h : Ok pd s) : Ok pd (State.faultDest s slot i n g first) := by
  unfold State.faultDest
  try dsimp only
  repeat' (first | (intro _) | with_reducible (first | assumption | apply isolate_ok | apply supersede_ok | apply faultMove_ok | apply faultRepair_ok | apply Ok.ite | apply Ok.foldl | apply Ok.elim | apply Ok.ite_fst | apply Ok.ite_snd | apply Ok.foldl_fst) | fail_if_no_progress (with_reducible apply Ok.frame <;> first | rfl | skip) | split)

theorem faultCell_ok {pd : List Instr} {s : State} {n : Nat} {monitor : Nat} {first : Nat} (h : Ok pd s) : Ok pd (State.faultCell s n monitor first) := by
  unfold State.faultCell
  try dsimp only
  repeat' (first | (intro _) | with_reducible (first | assumption | apply setRegion_ok | apply log_ok | apply yieldCell_ok | apply setSpares_ok | apply restock_ok | apply pumpMoves_ok | apply resume_ok | apply isolate_ok | apply faultFn_ok | apply faultDest_ok | apply Ok.ite | apply Ok.foldl | apply Ok.elim | apply Ok.ite_fst | apply Ok.ite_snd | apply Ok.foldl_fst) | fail_if_no_progress (with_reducible apply Ok.frame <;> first | rfl | skip) | split)

theorem execCellFault_ok {pd : List Instr} {t : Nat} {cell : Nat} {monitor : Nat} {s : State} (h : Ok pd s) : OkO pd (execCellFault t cell monitor s) := by
  unfold execCellFault
  try dsimp only
  repeat' (first | with_reducible (first | apply ifUnit_ok | apply queueCmd_ok | apply Ok.outcome | apply Ok.fault | apply command_ok | apply onRegion_ok | apply onRegions_ok | apply OkO.ite) | with_reducible (intro _) | with_reducible (first | assumption | apply at_ok | apply ifUnit_ok | apply faultCell_ok | apply Ok.ite | apply Ok.foldl | apply Ok.elim | apply Ok.ite_fst | apply Ok.ite_snd | apply Ok.foldl_fst) | fail_if_no_progress (with_reducible apply Ok.frame <;> first | rfl | skip) | split)

theorem execCellReset_ok {pd : List Instr} {t : Nat} {cell : Nat} {readbackMatches : Bool} {s : State} (h : Ok pd s) : OkO pd (execCellReset t cell readbackMatches s) := by
  unfold execCellReset
  try dsimp only
  repeat' (first | with_reducible (first | apply ifUnit_ok | apply queueCmd_ok | apply Ok.outcome | apply Ok.fault | apply command_ok | apply onRegion_ok | apply onRegions_ok | apply OkO.ite) | with_reducible (intro _) | with_reducible (first | assumption | apply setCell_ok | apply at_ok | apply log_ok | apply bump_ok | apply ifUnit_ok | apply ageCell_ok | apply faultCell_ok | apply Ok.ite | apply Ok.foldl | apply Ok.elim | apply Ok.ite_fst | apply Ok.ite_snd | apply Ok.foldl_fst) | fail_if_no_progress (with_reducible apply Ok.frame <;> first | rfl | skip) | split)

theorem execIdacCompliance_ok {pd : List Instr} {t : Nat} {slot : Nat} {prim : Nat} {s : State} (h : Ok pd s) : OkO pd (execIdacCompliance t slot prim s) := by
  unfold execIdacCompliance
  try dsimp only
  repeat' (first | with_reducible (first | apply ifUnit_ok | apply queueCmd_ok | apply Ok.outcome | apply Ok.fault | apply command_ok | apply onRegion_ok | apply onRegions_ok | apply OkO.ite) | with_reducible (intro _) | with_reducible (first | assumption | apply at_ok | apply log_ok | apply Ok.ite | apply Ok.foldl | apply Ok.elim | apply Ok.ite_fst | apply Ok.ite_snd | apply Ok.foldl_fst) | fail_if_no_progress (with_reducible apply Ok.frame <;> first | rfl | skip) | split)

theorem setRepair_ok {pd : List Instr} {s : State} {r : Nat} {q : Option Repair} (h : Ok pd s) : Ok pd (State.setRepair s r q) := by
  unfold State.setRepair
  try dsimp only
  repeat' (first | (intro _) | with_reducible (first | assumption | apply setRegion_ok | apply Ok.ite | apply Ok.foldl | apply Ok.elim | apply Ok.ite_fst | apply Ok.ite_snd | apply Ok.foldl_fst) | fail_if_no_progress (with_reducible apply Ok.frame <;> first | rfl | skip) | split)

theorem placeRepair_ok {pd : List Instr} {s : State} {q : Repair} {g : Graph} {d : PlaceP} (h : Ok pd s) : Ok pd (State.placeRepair s q g d).1 := by
  unfold State.placeRepair
  try dsimp only
  repeat' (first | (intro _) | with_reducible (first | assumption | apply takeCell_ok | apply takeRoutes_ok | apply yieldCell_ok | apply yieldSegs_ok | apply setSpares_ok | apply Ok.ite | apply Ok.foldl | apply Ok.elim | apply Ok.ite_fst | apply Ok.ite_snd | apply Ok.foldl_fst) | fail_if_no_progress (with_reducible apply Ok.frame <;> first | rfl | skip) | split)

theorem strand_ok {pd : List Instr} {s : State} {q : Repair} {g : Graph} (h : Ok pd s) : Ok pd (State.strand s q g) := by
  unfold State.strand
  try dsimp only
  repeat' (first | (intro _) | with_reducible (first | assumption | apply setGraph_ok | apply calEnded_ok | apply reeval_ok | apply Ok.ite | apply Ok.foldl | apply Ok.elim | apply Ok.ite_fst | apply Ok.ite_snd | apply Ok.foldl_fst) | fail_if_no_progress (with_reducible apply Ok.frame <;> first | rfl | skip) | split)

theorem execRepairDestination_ok {pd : List Instr} {t : Nat} {r : Nat} {s : State} (h : Ok pd s) : OkO pd (execRepairDestination t r s) := by
  unfold execRepairDestination
  try dsimp only
  repeat' (first | with_reducible (first | apply ifUnit_ok | apply queueCmd_ok | apply Ok.outcome | apply Ok.fault | apply command_ok | apply onRegion_ok | apply onRegions_ok | apply OkO.ite) | with_reducible (intro _) | with_reducible (first | assumption | apply at_ok | apply log_ok | apply ifUnit_ok | apply restock_ok | apply resume_ok | apply setRepair_ok | apply placeRepair_ok | apply strand_ok | apply Ok.ite | apply Ok.foldl | apply Ok.elim | apply Ok.ite_fst | apply Ok.ite_snd | apply Ok.foldl_fst) | fail_if_no_progress (with_reducible apply Ok.frame <;> first | rfl | skip) | split)

theorem repairStep_ok {pd : List Instr} {s : State} {r : Nat} {step : Nat} {next : Nat} {f : Repair → PlaceP → State → State} (h : Ok pd s) (hf_f : ∀ y0 y1 y2, Ok pd y2 → Ok pd (f y0 y1 y2)) : Ok pd (State.repairStep s r step next f) := by
  unfold State.repairStep
  try dsimp only
  repeat' (first | (intro _) | with_reducible (first | assumption | apply hf_f | apply setRepair_ok | apply Ok.ite | apply Ok.foldl | apply Ok.elim | apply Ok.ite_fst | apply Ok.ite_snd | apply Ok.foldl_fst) | fail_if_no_progress (with_reducible apply Ok.frame <;> first | rfl | skip) | split)

theorem execRepairConfigured_ok {pd : List Instr} {t : Nat} {r : Nat} {s : State} (h : Ok pd s) : OkO pd (execRepairConfigured t r s) := by
  unfold execRepairConfigured
  try dsimp only
  repeat' (first | with_reducible (first | apply ifUnit_ok | apply queueCmd_ok | apply Ok.outcome | apply Ok.fault | apply command_ok | apply onRegion_ok | apply onRegions_ok | apply OkO.ite) | with_reducible (intro _) | with_reducible (first | assumption | apply at_ok | apply ifUnit_ok | apply configDest_ok | apply repairStep_ok | apply Ok.ite | apply Ok.foldl | apply Ok.elim | apply Ok.ite_fst | apply Ok.ite_snd | apply Ok.foldl_fst) | fail_if_no_progress (with_reducible apply Ok.frame <;> first | rfl | skip) | split)

theorem execRepairNetsConnected_ok {pd : List Instr} {t : Nat} {r : Nat} {s : State} (h : Ok pd s) : OkO pd (execRepairNetsConnected t r s) := by
  unfold execRepairNetsConnected
  try dsimp only
  repeat' (first | with_reducible (first | apply ifUnit_ok | apply queueCmd_ok | apply Ok.outcome | apply Ok.fault | apply command_ok | apply onRegion_ok | apply onRegions_ok | apply OkO.ite) | with_reducible (intro _) | with_reducible (first | assumption | apply at_ok | apply ifUnit_ok | apply joinDest_ok | apply repairStep_ok | apply Ok.ite | apply Ok.foldl | apply Ok.elim | apply Ok.ite_fst | apply Ok.ite_snd | apply Ok.foldl_fst) | fail_if_no_progress (with_reducible apply Ok.frame <;> first | rfl | skip) | split)

theorem execRepairSettled_ok {pd : List Instr} {t : Nat} {r : Nat} {s : State} (h : Ok pd s) : OkO pd (execRepairSettled t r s) := by
  unfold execRepairSettled
  try dsimp only
  repeat' (first | with_reducible (first | apply ifUnit_ok | apply queueCmd_ok | apply Ok.outcome | apply Ok.fault | apply command_ok | apply onRegion_ok | apply onRegions_ok | apply OkO.ite) | with_reducible (intro _) | with_reducible (first | assumption | apply at_ok | apply ifUnit_ok | apply repairStep_ok | apply Ok.ite | apply Ok.foldl | apply Ok.elim | apply Ok.ite_fst | apply Ok.ite_snd | apply Ok.foldl_fst) | fail_if_no_progress (with_reducible apply Ok.frame <;> first | rfl | skip) | split)

theorem execRepairVerified_ok {pd : List Instr} {t : Nat} {r : Nat} {s : State} (h : Ok pd s) : OkO pd (execRepairVerified t r s) := by
  unfold execRepairVerified
  try dsimp only
  repeat' (first | with_reducible (first | apply ifUnit_ok | apply queueCmd_ok | apply Ok.outcome | apply Ok.fault | apply command_ok | apply onRegion_ok | apply onRegions_ok | apply OkO.ite) | with_reducible (intro _) | with_reducible (first | assumption | apply at_ok | apply ifUnit_ok | apply repairStep_ok | apply Ok.ite | apply Ok.foldl | apply Ok.elim | apply Ok.ite_fst | apply Ok.ite_snd | apply Ok.foldl_fst) | fail_if_no_progress (with_reducible apply Ok.frame <;> first | rfl | skip) | split)

theorem endHeld_ok {pd : List Instr} {s : State} {slot : Nat} {i : Nat} (h : Ok pd s) : Ok pd (State.endHeld s slot i) := by
  unfold State.endHeld
  try dsimp only
  repeat' (first | (intro _) | with_reducible (first | assumption | apply Ok.ite | apply Ok.foldl | apply Ok.elim | apply Ok.ite_fst | apply Ok.ite_snd | apply Ok.foldl_fst) | fail_if_no_progress (with_reducible apply Ok.frame <;> first | rfl | skip) | split)

theorem takeover_ok {pd : List Instr} {s : State} {r : Nat} {q : Repair} {d : PlaceP} {meas : Measured} {code : Nat} {ctr : Nat} (h : Ok pd s) : Ok pd (State.takeover s r q d meas code ctr) := by
  unfold State.takeover
  try dsimp only
  repeat' (first | (intro _) | with_reducible (first | assumption | apply setCell_ok | apply log_ok | apply bump_ok | apply makeDue_ok | apply swapPlaces_ok | apply reeval_ok | apply cellsFreed_ok | apply resume_ok | apply dropHolds_ok | apply setRepair_ok | apply endHeld_ok | apply Ok.ite | apply Ok.foldl | apply Ok.elim | apply Ok.ite_fst | apply Ok.ite_snd | apply Ok.foldl_fst) | fail_if_no_progress (with_reducible apply Ok.frame <;> first | rfl | skip) | split)

theorem execRepairTakeover_ok {pd : List Instr} {t : Nat} {r : Nat} {meas : Measured} {s : State} (h : Ok pd s) : OkO pd (execRepairTakeover t r meas s) := by
  unfold execRepairTakeover
  try dsimp only
  repeat' (first | with_reducible (first | apply ifUnit_ok | apply queueCmd_ok | apply Ok.outcome | apply Ok.fault | apply command_ok | apply onRegion_ok | apply onRegions_ok | apply OkO.ite) | with_reducible (intro _) | with_reducible (first | assumption | apply at_ok | apply ifUnit_ok | apply takeover_ok | apply Ok.ite | apply Ok.foldl | apply Ok.elim | apply Ok.ite_fst | apply Ok.ite_snd | apply Ok.foldl_fst) | fail_if_no_progress (with_reducible apply Ok.frame <;> first | rfl | skip) | split)

theorem execRepairCold_ok {pd : List Instr} {t : Nat} {r : Nat} {meas : Measured} {s : State} (h : Ok pd s) : OkO pd (execRepairCold t r meas s) := by
  unfold execRepairCold
  try dsimp only
  repeat' (first | with_reducible (first | apply ifUnit_ok | apply queueCmd_ok | apply Ok.outcome | apply Ok.fault | apply command_ok | apply onRegion_ok | apply onRegions_ok | apply OkO.ite) | with_reducible (intro _) | with_reducible (first | assumption | apply at_ok | apply ifUnit_ok | apply builtCell_ok | apply configDest_ok | apply joinDest_ok | apply takeover_ok | apply Ok.ite | apply Ok.foldl | apply Ok.elim | apply Ok.ite_fst | apply Ok.ite_snd | apply Ok.foldl_fst) | fail_if_no_progress (with_reducible apply Ok.frame <;> first | rfl | skip) | split)

end Sys2Proof.Machine
end

