-- ==== Sys2Proof/Laws/OkStolon.lean ====
section
/-! SUPPORT. Every operation of Machine/Stolon.lean keeps the queue and every bounded field. -/

namespace Sys2Proof.Machine

set_option linter.unusedTactic false
set_option linter.unreachableTactic false

theorem execStolonTestStart_ok {pd : List Instr} {t : Nat} {r : Nat} {segs : List Nat} {s : State} (h : Ok pd s) : OkO pd (execStolonTestStart t r segs s) := by
  unfold execStolonTestStart
  try dsimp only
  repeat' (first | with_reducible (first | apply ifUnit_ok | apply queueCmd_ok | apply Ok.outcome | apply Ok.fault | apply command_ok | apply onRegion_ok | apply onRegions_ok | apply OkO.ite) | with_reducible (intro _) | with_reducible (first | assumption | apply at_ok | apply ifUnit_ok | apply planMove_ok | apply pumpTest_ok | apply askTest_ok | apply Ok.ite | apply Ok.foldl | apply Ok.elim | apply Ok.ite_fst | apply Ok.ite_snd | apply Ok.foldl_fst) | fail_if_no_progress (with_reducible apply Ok.frame <;> first | rfl | skip) | split)

theorem testCell_ok {pd : List Instr} {s : State} {n : Nat} {j : Nat} {scores : List Nat} {ranks : List Nat} (h : Ok pd s) : Ok pd (State.testCell s n j scores ranks) := by
  unfold State.testCell
  try dsimp only
  repeat' (first | (intro _) | with_reducible (first | assumption | apply setCell_ok | apply setLed_ok | apply updLeds_ok | apply quarantineCell_ok | apply choosePair_ok | apply Ok.ite | apply Ok.foldl | apply Ok.elim | apply Ok.ite_fst | apply Ok.ite_snd | apply Ok.foldl_fst) | fail_if_no_progress (with_reducible apply Ok.frame <;> first | rfl | skip) | split)

theorem testSegs_ok {pd : List Instr} {s : State} {segs : List Nat} {scores : List Nat} (h : Ok pd s) : Ok pd (State.testSegs s segs scores) := by
  unfold State.testSegs
  try dsimp only
  repeat' (first | (intro _) | with_reducible (first | assumption | apply updLeds_ok | apply Ok.ite | apply Ok.foldl | apply Ok.elim | apply Ok.ite_fst | apply Ok.ite_snd | apply Ok.foldl_fst) | fail_if_no_progress (with_reducible apply Ok.frame <;> first | rfl | skip) | split)

theorem retestUse_ok {pd : List Instr} {s : State} {n : Nat} (h : Ok pd s) : Ok pd (State.retestUse s n) := by
  unfold State.retestUse
  try dsimp only
  repeat' (first | (intro _) | with_reducible (first | assumption | apply quarantineCell_ok | apply markCell_ok | apply restand_ok | apply freeCell_ok | apply setSpares_ok | apply Ok.ite | apply Ok.foldl | apply Ok.elim | apply Ok.ite_fst | apply Ok.ite_snd | apply Ok.foldl_fst) | fail_if_no_progress (with_reducible apply Ok.frame <;> first | rfl | skip) | split)

theorem reopenBlocks_ok {pd : List Instr} {s : State} {bs : List Nat} (h : Ok pd s) : Ok pd (State.reopenBlocks s bs) := by
  unfold State.reopenBlocks
  try dsimp only
  repeat' (first | (intro _) | with_reducible (first | assumption | apply setBlock_ok | apply Ok.ite | apply Ok.foldl | apply Ok.elim | apply Ok.ite_fst | apply Ok.ite_snd | apply Ok.foldl_fst) | fail_if_no_progress (with_reducible apply Ok.frame <;> first | rfl | skip) | split)

theorem endTest_ok {pd : List Instr} {s : State} {r : Nat} {q : Test} {scores : List Nat} {ranks : List Nat} {segScores : List Nat} (h : Ok pd s) : Ok pd (State.endTest s r q scores ranks segScores) := by
  unfold State.endTest
  try dsimp only
  repeat' (first | (intro _) | with_reducible (first | assumption | apply setConv_ok | apply setRegion_ok | apply log_ok | apply bump_ok | apply testCell_ok | apply testSegs_ok | apply retestUse_ok | apply Ok.ite | apply Ok.foldl | apply Ok.elim | apply Ok.ite_fst | apply Ok.ite_snd | apply Ok.foldl_fst) | fail_if_no_progress (with_reducible apply Ok.frame <;> first | rfl | skip) | split)

theorem afterTest_ok {pd : List Instr} {s : State} {r : Nat} {q : Test} {arbOk : Bool} (h : Ok pd s) : Ok pd (State.afterTest s r q arbOk) := by
  unfold State.afterTest
  try dsimp only
  repeat' (first | (intro _) | with_reducible (first | assumption | apply giveBack_ok | apply planMove_ok | apply cellsFreed_ok | apply resume_ok | apply pumpTest_ok | apply reopenBlocks_ok | apply Ok.ite | apply Ok.foldl | apply Ok.elim | apply Ok.ite_fst | apply Ok.ite_snd | apply Ok.foldl_fst) | fail_if_no_progress (with_reducible apply Ok.frame <;> first | rfl | skip) | split)

theorem execStolonTestEnd_ok {pd : List Instr} {t : Nat} {r : Nat} {scores : List Nat} {ranks : List Nat} {segScores : List Nat} {arbOk : Bool} {s : State} (h : Ok pd s) : OkO pd (execStolonTestEnd t r scores ranks segScores arbOk s) := by
  unfold execStolonTestEnd
  try dsimp only
  repeat' (first | with_reducible (first | apply ifUnit_ok | apply queueCmd_ok | apply Ok.outcome | apply Ok.fault | apply command_ok | apply onRegion_ok | apply onRegions_ok | apply OkO.ite) | with_reducible (intro _) | with_reducible (first | assumption | apply at_ok | apply ifUnit_ok | apply endTest_ok | apply afterTest_ok | apply Ok.ite | apply Ok.foldl | apply Ok.elim | apply Ok.ite_fst | apply Ok.ite_snd | apply Ok.foldl_fst) | fail_if_no_progress (with_reducible apply Ok.frame <;> first | rfl | skip) | split)

theorem execStolonYielded_ok {pd : List Instr} {t : Nat} {r : Nat} {why : Nat} {s : State} (h : Ok pd s) : OkO pd (execStolonYielded t r why s) := by
  unfold execStolonYielded
  try dsimp only
  repeat' (first | with_reducible (first | apply ifUnit_ok | apply queueCmd_ok | apply Ok.outcome | apply Ok.fault | apply command_ok | apply onRegion_ok | apply onRegions_ok | apply OkO.ite) | with_reducible (intro _) | with_reducible (first | assumption | apply at_ok | apply ifUnit_ok | apply yieldTest_ok | apply Ok.ite | apply Ok.foldl | apply Ok.elim | apply Ok.ite_fst | apply Ok.ite_snd | apply Ok.foldl_fst) | fail_if_no_progress (with_reducible apply Ok.frame <;> first | rfl | skip) | split)

theorem execCoverageMissed_ok {pd : List Instr} {t : Nat} {r : Nat} {s : State} (h : Ok pd s) : OkO pd (execCoverageMissed t r s) := by
  unfold execCoverageMissed
  try dsimp only
  repeat' (first | with_reducible (first | apply ifUnit_ok | apply queueCmd_ok | apply Ok.outcome | apply Ok.fault | apply command_ok | apply onRegion_ok | apply onRegions_ok | apply OkO.ite) | with_reducible (intro _) | with_reducible (first | assumption | apply setRegion_ok | apply at_ok | apply log_ok | apply bump_ok | apply ifUnit_ok | apply Ok.ite | apply Ok.foldl | apply Ok.elim | apply Ok.ite_fst | apply Ok.ite_snd | apply Ok.foldl_fst) | fail_if_no_progress (with_reducible apply Ok.frame <;> first | rfl | skip) | split)

theorem dropPartner_ok {pd : List Instr} {s : State} {n : Nat} (h : Ok pd s) : Ok pd (State.dropPartner s n) := by
  unfold State.dropPartner
  try dsimp only
  repeat' (first | (intro _) | with_reducible (first | assumption | apply freeCell_ok | apply Ok.ite | apply Ok.foldl | apply Ok.elim | apply Ok.ite_fst | apply Ok.ite_snd | apply Ok.foldl_fst) | fail_if_no_progress (with_reducible apply Ok.frame <;> first | rfl | skip) | split)

theorem execSpareWarm_ok {pd : List Instr} {t : Nat} {cell : Nat} {s : State} (h : Ok pd s) : OkO pd (execSpareWarm t cell s) := by
  unfold execSpareWarm
  try dsimp only
  repeat' (first | with_reducible (first | apply ifUnit_ok | apply queueCmd_ok | apply Ok.outcome | apply Ok.fault | apply command_ok | apply onRegion_ok | apply onRegions_ok | apply OkO.ite) | with_reducible (intro _) | with_reducible (first | assumption | apply setCell_ok | apply at_ok | apply log_ok | apply ifUnit_ok | apply dropPartner_ok | apply Ok.ite | apply Ok.foldl | apply Ok.elim | apply Ok.ite_fst | apply Ok.ite_snd | apply Ok.foldl_fst) | fail_if_no_progress (with_reducible apply Ok.frame <;> first | rfl | skip) | split)

theorem execSparesCold_ok {pd : List Instr} {t : Nat} {r : Nat} {s : State} (h : Ok pd s) : OkO pd (execSparesCold t r s) := by
  unfold execSparesCold
  try dsimp only
  repeat' (first | with_reducible (first | apply ifUnit_ok | apply queueCmd_ok | apply Ok.outcome | apply Ok.fault | apply command_ok | apply onRegion_ok | apply onRegions_ok | apply OkO.ite) | with_reducible (intro _) | with_reducible (first | assumption | apply setCell_ok | apply at_ok | apply log_ok | apply ifUnit_ok | apply Ok.ite | apply Ok.foldl | apply Ok.elim | apply Ok.ite_fst | apply Ok.ite_snd | apply Ok.foldl_fst) | fail_if_no_progress (with_reducible apply Ok.frame <;> first | rfl | skip) | split)

theorem readSensor_ok {pd : List Instr} {s : State} {b : Nat} {v : Int} {med : Int} (h : Ok pd s) : Ok pd (State.readSensor s b v med) := by
  unfold State.readSensor
  try dsimp only
  repeat' (first | (intro _) | with_reducible (first | assumption | apply setSensor_ok | apply log_ok | apply Ok.ite | apply Ok.foldl | apply Ok.elim | apply Ok.ite_fst | apply Ok.ite_snd | apply Ok.foldl_fst) | fail_if_no_progress (with_reducible apply Ok.frame <;> first | rfl | skip) | split)

theorem level_ok {pd : List Instr} {s : State} {r : Nat} (h : Ok pd s) : Ok pd (State.level s r) := by
  unfold State.level
  try dsimp only
  repeat' (first | (intro _) | with_reducible (first | assumption | apply planMove_ok | apply Ok.ite | apply Ok.foldl | apply Ok.elim | apply Ok.ite_fst | apply Ok.ite_snd | apply Ok.foldl_fst) | fail_if_no_progress (with_reducible apply Ok.frame <;> first | rfl | skip) | split)

theorem execTemperatureReading_ok {pd : List Instr} {t : Nat} {r : Nat} {temps : List Int} {s : State} (h : Ok pd s) : OkO pd (execTemperatureReading t r temps s) := by
  unfold execTemperatureReading
  try dsimp only
  repeat' (first | with_reducible (first | apply ifUnit_ok | apply queueCmd_ok | apply Ok.outcome | apply Ok.fault | apply command_ok | apply onRegion_ok | apply onRegions_ok | apply OkO.ite) | with_reducible (intro _) | with_reducible (first | assumption | apply at_ok | apply ifUnit_ok | apply regionDue_ok | apply readSensor_ok | apply level_ok | apply Ok.ite | apply Ok.foldl | apply Ok.elim | apply Ok.ite_fst | apply Ok.ite_snd | apply Ok.foldl_fst) | fail_if_no_progress (with_reducible apply Ok.frame <;> first | rfl | skip) | split)

theorem execAinOverrange_ok {pd : List Instr} {t : Nat} {pair : Nat} {leg : Nat} {s : State} (h : Ok pd s) : OkO pd (execAinOverrange t pair leg s) := by
  unfold execAinOverrange
  try dsimp only
  repeat' (first | with_reducible (first | apply ifUnit_ok | apply queueCmd_ok | apply Ok.outcome | apply Ok.fault | apply command_ok | apply onRegion_ok | apply onRegions_ok | apply OkO.ite) | with_reducible (intro _) | with_reducible (first | assumption | apply setPair_ok | apply at_ok | apply log_ok | apply ifUnit_ok | apply Ok.ite | apply Ok.foldl | apply Ok.elim | apply Ok.ite_fst | apply Ok.ite_snd | apply Ok.foldl_fst) | fail_if_no_progress (with_reducible apply Ok.frame <;> first | rfl | skip) | split)

theorem execAinOverrangeClear_ok {pd : List Instr} {t : Nat} {pair : Nat} {s : State} (h : Ok pd s) : OkO pd (execAinOverrangeClear t pair s) := by
  unfold execAinOverrangeClear
  try dsimp only
  repeat' (first | with_reducible (first | apply ifUnit_ok | apply queueCmd_ok | apply Ok.outcome | apply Ok.fault | apply command_ok | apply onRegion_ok | apply onRegions_ok | apply OkO.ite) | with_reducible (intro _) | with_reducible (first | assumption | apply setPair_ok | apply at_ok | apply ifUnit_ok | apply Ok.ite | apply Ok.foldl | apply Ok.elim | apply Ok.ite_fst | apply Ok.ite_snd | apply Ok.foldl_fst) | fail_if_no_progress (with_reducible apply Ok.frame <;> first | rfl | skip) | split)

theorem execCellControlEdge_ok {pd : List Instr} {t : Nat} {kind : Nat} {index : Nat} {level : Bool} {s : State} (h : Ok pd s) : OkO pd (execCellControlEdge t kind index level s) := by
  unfold execCellControlEdge
  try dsimp only
  repeat' (first | with_reducible (first | apply ifUnit_ok | apply queueCmd_ok | apply Ok.outcome | apply Ok.fault | apply command_ok | apply onRegion_ok | apply onRegions_ok | apply OkO.ite) | with_reducible (intro _) | with_reducible (first | assumption | apply at_ok | apply ifUnit_ok | apply setCtl_ok | apply level_ok | apply Ok.ite | apply Ok.foldl | apply Ok.elim | apply Ok.ite_fst | apply Ok.ite_snd | apply Ok.foldl_fst) | fail_if_no_progress (with_reducible apply Ok.frame <;> first | rfl | skip) | split)

end Sys2Proof.Machine
end

