-- ==== Sys2Proof/Laws/OkDac.lean ====
section
/-! SUPPORT. Every operation of Machine/Dac.lean keeps the queue and every bounded field. -/

namespace Sys2Proof.Machine

set_option linter.unusedTactic false
set_option linter.unreachableTactic false

theorem atCount_ok {pd : List Instr} {s : State} {t : Nat} (h : Ok pd s) : Ok pd (State.atCount s t) := by
  unfold State.atCount
  try dsimp only
  repeat' (first | (intro _) | with_reducible (first | assumption | apply at_ok | apply Ok.ite | apply Ok.foldl | apply Ok.elim | apply Ok.ite_fst | apply Ok.ite_snd | apply Ok.foldl_fst) | fail_if_no_progress (with_reducible apply Ok.frame <;> first | rfl | skip) | split)

theorem endOuts_ok {pd : List Instr} {s : State} {n : Nat} {cs : List DacCmd} {status : Nat} (h : Ok pd s) : Ok pd (State.endOuts s n cs status) := by
  unfold State.endOuts
  try dsimp only
  repeat' (first | (intro _) | with_reducible (first | assumption | apply setDac_ok | apply final_ok | apply Ok.ite | apply Ok.foldl | apply Ok.elim | apply Ok.ite_fst | apply Ok.ite_snd | apply Ok.foldl_fst) | fail_if_no_progress (with_reducible apply Ok.frame <;> first | rfl | skip) | split)

theorem endDacCmds_ok {pd : List Instr} {s : State} {n : Nat} {status : Nat} (h : Ok pd s) : Ok pd (State.endDacCmds s n status) := by
  unfold State.endDacCmds
  try dsimp only
  repeat' (first | (intro _) | with_reducible (first | assumption | apply setDac_ok | apply final_ok | apply endOuts_ok | apply Ok.ite | apply Ok.foldl | apply Ok.elim | apply Ok.ite_fst | apply Ok.ite_snd | apply Ok.foldl_fst) | fail_if_no_progress (with_reducible apply Ok.frame <;> first | rfl | skip) | split)

theorem dacReached_ok {pd : List Instr} {s : State} {n : Nat} {t : Nat} (h : Ok pd s) : Ok pd (State.dacReached s n t) := by
  unfold State.dacReached
  try dsimp only
  repeat' (first | (intro _) | with_reducible (first | assumption | apply setDac_ok | apply endOuts_ok | apply Ok.ite | apply Ok.foldl | apply Ok.elim | apply Ok.ite_fst | apply Ok.ite_snd | apply Ok.foldl_fst) | fail_if_no_progress (with_reducible apply Ok.frame <;> first | rfl | skip) | split)

theorem dacHaltNow_ok {pd : List Instr} {s : State} {n : Nat} (h : Ok pd s) : Ok pd (State.dacHaltNow s n) := by
  unfold State.dacHaltNow
  try dsimp only
  repeat' (first | (intro _) | with_reducible (first | assumption | apply setDac_ok | apply Ok.ite | apply Ok.foldl | apply Ok.elim | apply Ok.ite_fst | apply Ok.ite_snd | apply Ok.foldl_fst) | fail_if_no_progress (with_reducible apply Ok.frame <;> first | rfl | skip) | split)

theorem dacHalt_ok {pd : List Instr} {s : State} {n : Nat} (h : Ok pd s) : Ok pd (State.dacHalt s n) := by
  unfold State.dacHalt
  try dsimp only
  repeat' (first | (intro _) | with_reducible (first | assumption | apply setDac_ok | apply clearSource_ok | apply dacHaltNow_ok | apply Ok.ite | apply Ok.foldl | apply Ok.elim | apply Ok.ite_fst | apply Ok.ite_snd | apply Ok.foldl_fst) | fail_if_no_progress (with_reducible apply Ok.frame <;> first | rfl | skip) | split)

theorem rangeCut_ok {pd : List Instr} {s : State} {n : Nat} (h : Ok pd s) : Ok pd (State.rangeCut s n) := by
  unfold State.rangeCut
  try dsimp only
  repeat' (first | (intro _) | with_reducible (first | assumption | apply dacHaltNow_ok | apply Ok.ite | apply Ok.foldl | apply Ok.elim | apply Ok.ite_fst | apply Ok.ite_snd | apply Ok.foldl_fst) | fail_if_no_progress (with_reducible apply Ok.frame <;> first | rfl | skip) | split)

theorem dacFault_ok {pd : List Instr} {s : State} {n : Nat} (h : Ok pd s) : Ok pd (State.dacFault s n) := by
  unfold State.dacFault
  try dsimp only
  repeat' (first | (intro _) | with_reducible (first | assumption | apply setDac_ok | apply endDacCmds_ok | apply Ok.ite | apply Ok.foldl | apply Ok.elim | apply Ok.ite_fst | apply Ok.ite_snd | apply Ok.foldl_fst) | fail_if_no_progress (with_reducible apply Ok.frame <;> first | rfl | skip) | split)

theorem busStopped_ok {pd : List Instr} {s : State} {p : Nat → Bool} (h : Ok pd s) : Ok pd (State.busStopped s p) := by
  unfold State.busStopped
  try dsimp only
  repeat' (first | (intro _) | with_reducible (first | assumption | apply dacFault_ok | apply Ok.ite | apply Ok.foldl | apply Ok.elim | apply Ok.ite_fst | apply Ok.ite_snd | apply Ok.foldl_fst) | fail_if_no_progress (with_reducible apply Ok.frame <;> first | rfl | skip) | split)

theorem sourceTarget_ok {pd : List Instr} {s : State} {n : Nat} {t : Nat} (h : Ok pd s) : Ok pd (State.sourceTarget s n t) := by
  unfold State.sourceTarget
  try dsimp only
  repeat' (first | (intro _) | with_reducible (first | assumption | apply setDac_ok | apply bump_ok | apply Ok.ite | apply Ok.foldl | apply Ok.elim | apply Ok.ite_fst | apply Ok.ite_snd | apply Ok.foldl_fst) | fail_if_no_progress (with_reducible apply Ok.frame <;> first | rfl | skip) | split)

theorem endRange_ok {pd : List Instr} {s : State} {n : Nat} {t : Nat} (h : Ok pd s) : Ok pd (State.endRange s n t) := by
  unfold State.endRange
  try dsimp only
  repeat' (first | (intro _) | with_reducible (first | assumption | apply setDac_ok | apply endOuts_ok | apply dacHaltNow_ok | apply Ok.ite | apply Ok.foldl | apply Ok.elim | apply Ok.ite_fst | apply Ok.ite_snd | apply Ok.foldl_fst) | fail_if_no_progress (with_reducible apply Ok.frame <;> first | rfl | skip) | split)

theorem dueDds_ok {pd : List Instr} {s : State} {n : Nat} {t : Nat} (h : Ok pd s) : Ok pd (State.dueDds s n t) := by
  unfold State.dueDds
  try dsimp only
  repeat' (first | (intro _) | with_reducible (first | assumption | apply setDac_ok | apply final_ok | apply endOuts_ok | apply Ok.ite | apply Ok.foldl | apply Ok.elim | apply Ok.ite_fst | apply Ok.ite_snd | apply Ok.foldl_fst) | fail_if_no_progress (with_reducible apply Ok.frame <;> first | rfl | skip) | split)

theorem dueOuts_ok {pd : List Instr} {s : State} {n : Nat} {t : Nat} (h : Ok pd s) : Ok pd (State.dueOuts s n t) := by
  unfold State.dueOuts
  try dsimp only
  repeat' (first | (intro _) | with_reducible (first | assumption | apply setDac_ok | apply endOuts_ok | apply Ok.ite | apply Ok.foldl | apply Ok.elim | apply Ok.ite_fst | apply Ok.ite_snd | apply Ok.foldl_fst) | fail_if_no_progress (with_reducible apply Ok.frame <;> first | rfl | skip) | split)

theorem dacTargets_ok {pd : List Instr} {s : State} {n : Nat} {t : Nat} (h : Ok pd s) : Ok pd (State.dacTargets s n t) := by
  unfold State.dacTargets
  try dsimp only
  repeat' (first | (intro _) | with_reducible (first | assumption | apply setDac_ok | apply dacReached_ok | apply sourceTarget_ok | apply endRange_ok | apply dueDds_ok | apply dueOuts_ok | apply Ok.ite | apply Ok.foldl | apply Ok.elim | apply Ok.ite_fst | apply Ok.ite_snd | apply Ok.foldl_fst) | fail_if_no_progress (with_reducible apply Ok.frame <;> first | rfl | skip) | split)

theorem dueSlew_ok {pd : List Instr} {s : State} {n : Nat} (h : Ok pd s) : Ok pd (State.dueSlew s n) := by
  unfold State.dueSlew
  try dsimp only
  repeat' (first | (intro _) | with_reducible (first | assumption | apply setDac_ok | apply final_ok | apply Ok.ite | apply Ok.foldl | apply Ok.elim | apply Ok.ite_fst | apply Ok.ite_snd | apply Ok.foldl_fst) | fail_if_no_progress (with_reducible apply Ok.frame <;> first | rfl | skip) | split)

theorem dacTick_ok {pd : List Instr} {s : State} {n : Nat} {t : Nat} (h : Ok pd s) : Ok pd (State.dacTick s n t) := by
  unfold State.dacTick
  try dsimp only
  repeat' (first | (intro _) | with_reducible (first | assumption | apply setDac_ok | apply dacReached_ok | apply endRange_ok | apply dacTargets_ok | apply dueSlew_ok | apply Ok.ite | apply Ok.foldl | apply Ok.elim | apply Ok.ite_fst | apply Ok.ite_snd | apply Ok.foldl_fst) | fail_if_no_progress (with_reducible apply Ok.frame <;> first | rfl | skip) | split)

theorem dacConvert_ok {pd : List Instr} {s : State} {n : Nat} {t : Nat} (h : Ok pd s) : Ok pd (State.dacConvert s n t) := by
  unfold State.dacConvert
  try dsimp only
  repeat' (first | (intro _) | with_reducible (first | assumption | apply setDac_ok | apply bump_ok | apply Ok.ite | apply Ok.foldl | apply Ok.elim | apply Ok.ite_fst | apply Ok.ite_snd | apply Ok.foldl_fst) | fail_if_no_progress (with_reducible apply Ok.frame <;> first | rfl | skip) | split)

theorem execDacUpdate_ok {pd : List Instr} {t : Nat} {n : Nat} {s : State} (h : Ok pd s) : OkO pd (execDacUpdate t n s) := by
  unfold execDacUpdate
  try dsimp only
  repeat' (first | with_reducible (first | apply ifUnit_ok | apply queueCmd_ok | apply Ok.outcome | apply Ok.fault | apply command_ok | apply onRegion_ok | apply onRegions_ok | apply OkO.ite) | with_reducible (intro _) | with_reducible (first | assumption | apply ifUnit_ok | apply atCount_ok | apply dacTargets_ok | apply dacTick_ok | apply dacConvert_ok | apply Ok.ite | apply Ok.foldl | apply Ok.elim | apply Ok.ite_fst | apply Ok.ite_snd | apply Ok.foldl_fst) | fail_if_no_progress (with_reducible apply Ok.frame <;> first | rfl | skip) | split)

theorem execSlewTick_ok {pd : List Instr} {t : Nat} {n : Nat} {s : State} (h : Ok pd s) : OkO pd (execSlewTick t n s) := by
  unfold execSlewTick
  try dsimp only
  repeat' (first | with_reducible (first | apply ifUnit_ok | apply queueCmd_ok | apply Ok.outcome | apply Ok.fault | apply command_ok | apply onRegion_ok | apply onRegions_ok | apply OkO.ite) | with_reducible (intro _) | with_reducible (first | assumption | apply ifUnit_ok | apply atCount_ok | apply dacTick_ok | apply Ok.ite | apply Ok.foldl | apply Ok.elim | apply Ok.ite_fst | apply Ok.ite_snd | apply Ok.foldl_fst) | fail_if_no_progress (with_reducible apply Ok.frame <;> first | rfl | skip) | split)

theorem execDacBusCapture_ok {pd : List Instr} {t : Nat} {n : Nat} {data : Nat} {valid : Bool} {s : State} (h : Ok pd s) : OkO pd (execDacBusCapture t n data valid s) := by
  unfold execDacBusCapture
  try dsimp only
  repeat' (first | with_reducible (first | apply ifUnit_ok | apply queueCmd_ok | apply Ok.outcome | apply Ok.fault | apply command_ok | apply onRegion_ok | apply onRegions_ok | apply OkO.ite) | with_reducible (intro _) | with_reducible (first | assumption | apply setDac_ok | apply ifUnit_ok | apply atCount_ok | apply Ok.ite | apply Ok.foldl | apply Ok.elim | apply Ok.ite_fst | apply Ok.ite_snd | apply Ok.foldl_fst) | fail_if_no_progress (with_reducible apply Ok.frame <;> first | rfl | skip) | split)

theorem ddsEvent_ok {pd : List Instr} {s : State} {index : Nat} (h : Ok pd s) : Ok pd (State.ddsEvent s index) := by
  unfold State.ddsEvent
  try dsimp only
  repeat' (first | (intro _) | with_reducible (first | assumption | apply acceptTrig_ok | apply Ok.ite | apply Ok.foldl | apply Ok.elim | apply Ok.ite_fst | apply Ok.ite_snd | apply Ok.foldl_fst) | fail_if_no_progress (with_reducible apply Ok.frame <;> first | rfl | skip) | split)

theorem execDdsWrap_ok {pd : List Instr} {t : Nat} {n : Nat} {s : State} (h : Ok pd s) : OkO pd (execDdsWrap t n s) := by
  unfold execDdsWrap
  try dsimp only
  repeat' (first | with_reducible (first | apply ifUnit_ok | apply queueCmd_ok | apply Ok.outcome | apply Ok.fault | apply command_ok | apply onRegion_ok | apply onRegions_ok | apply OkO.ite) | with_reducible (intro _) | with_reducible (first | assumption | apply at_ok | apply ifUnit_ok | apply ddsEvent_ok | apply Ok.ite | apply Ok.foldl | apply Ok.elim | apply Ok.ite_fst | apply Ok.ite_snd | apply Ok.foldl_fst) | fail_if_no_progress (with_reducible apply Ok.frame <;> first | rfl | skip) | split)

theorem execDdsMatch_ok {pd : List Instr} {t : Nat} {n : Nat} {s : State} (h : Ok pd s) : OkO pd (execDdsMatch t n s) := by
  unfold execDdsMatch
  try dsimp only
  repeat' (first | with_reducible (first | apply ifUnit_ok | apply queueCmd_ok | apply Ok.outcome | apply Ok.fault | apply command_ok | apply onRegion_ok | apply onRegions_ok | apply OkO.ite) | with_reducible (intro _) | with_reducible (first | assumption | apply at_ok | apply ifUnit_ok | apply ddsEvent_ok | apply Ok.ite | apply Ok.foldl | apply Ok.elim | apply Ok.ite_fst | apply Ok.ite_snd | apply Ok.foldl_fst) | fail_if_no_progress (with_reducible apply Ok.frame <;> first | rfl | skip) | split)

theorem execDacPowerupRange_ok {pd : List Instr} {t : Nat} {n : Nat} {s : State} (h : Ok pd s) : OkO pd (execDacPowerupRange t n s) := by
  unfold execDacPowerupRange
  try dsimp only
  repeat' (first | with_reducible (first | apply ifUnit_ok | apply queueCmd_ok | apply Ok.outcome | apply Ok.fault | apply command_ok | apply onRegion_ok | apply onRegions_ok | apply OkO.ite) | with_reducible (intro _) | with_reducible (first | assumption | apply setDac_ok | apply log_ok | apply ifUnit_ok | apply atCount_ok | apply Ok.ite | apply Ok.foldl | apply Ok.elim | apply Ok.ite_fst | apply Ok.ite_snd | apply Ok.foldl_fst) | fail_if_no_progress (with_reducible apply Ok.frame <;> first | rfl | skip) | split)

theorem execDacPowerupEnable_ok {pd : List Instr} {t : Nat} {n : Nat} {s : State} (h : Ok pd s) : OkO pd (execDacPowerupEnable t n s) := by
  unfold execDacPowerupEnable
  try dsimp only
  repeat' (first | with_reducible (first | apply ifUnit_ok | apply queueCmd_ok | apply Ok.outcome | apply Ok.fault | apply command_ok | apply onRegion_ok | apply onRegions_ok | apply OkO.ite) | with_reducible (intro _) | with_reducible (first | assumption | apply setDac_ok | apply ifUnit_ok | apply atCount_ok | apply Ok.ite | apply Ok.foldl | apply Ok.elim | apply Ok.ite_fst | apply Ok.ite_snd | apply Ok.foldl_fst) | fail_if_no_progress (with_reducible apply Ok.frame <;> first | rfl | skip) | split)

theorem dacDown_ok {pd : List Instr} {s : State} {n : Nat} (h : Ok pd s) : Ok pd (State.dacDown s n) := by
  unfold State.dacDown
  try dsimp only
  repeat' (first | (intro _) | with_reducible (first | assumption | apply setDac_ok | apply final_ok | apply forgetCal_ok | apply endDacCmds_ok | apply Ok.ite | apply Ok.foldl | apply Ok.elim | apply Ok.ite_fst | apply Ok.ite_snd | apply Ok.foldl_fst) | fail_if_no_progress (with_reducible apply Ok.frame <;> first | rfl | skip) | split)

theorem execDacSupplyLoss_ok {pd : List Instr} {t : Nat} {s : State} (h : Ok pd s) : OkO pd (execDacSupplyLoss t s) := by
  unfold execDacSupplyLoss
  try dsimp only
  repeat' (first | with_reducible (first | apply ifUnit_ok | apply queueCmd_ok | apply Ok.outcome | apply Ok.fault | apply command_ok | apply onRegion_ok | apply onRegions_ok | apply OkO.ite) | with_reducible (intro _) | with_reducible (first | assumption | apply atCount_ok | apply dacDown_ok | apply Ok.ite | apply Ok.foldl | apply Ok.elim | apply Ok.ite_fst | apply Ok.ite_snd | apply Ok.foldl_fst) | fail_if_no_progress (with_reducible apply Ok.frame <;> first | rfl | skip) | split)

theorem execRangeSwitch_ok {pd : List Instr} {t : Nat} {n : Nat} {s : State} (h : Ok pd s) : OkO pd (execRangeSwitch t n s) := by
  unfold execRangeSwitch
  try dsimp only
  repeat' (first | with_reducible (first | apply ifUnit_ok | apply queueCmd_ok | apply Ok.outcome | apply Ok.fault | apply command_ok | apply onRegion_ok | apply onRegions_ok | apply OkO.ite) | with_reducible (intro _) | with_reducible (first | assumption | apply setDac_ok | apply ifUnit_ok | apply atCount_ok | apply Ok.ite | apply Ok.foldl | apply Ok.elim | apply Ok.ite_fst | apply Ok.ite_snd | apply Ok.foldl_fst) | fail_if_no_progress (with_reducible apply Ok.frame <;> first | rfl | skip) | split)

theorem execDacShort_ok {pd : List Instr} {t : Nat} {n : Nat} {s : State} (h : Ok pd s) : OkO pd (execDacShort t n s) := by
  unfold execDacShort
  try dsimp only
  repeat' (first | with_reducible (first | apply ifUnit_ok | apply queueCmd_ok | apply Ok.outcome | apply Ok.fault | apply command_ok | apply onRegion_ok | apply onRegions_ok | apply OkO.ite) | with_reducible (intro _) | with_reducible (first | assumption | apply setDac_ok | apply log_ok | apply bump_ok | apply ifUnit_ok | apply atCount_ok | apply Ok.ite | apply Ok.foldl | apply Ok.elim | apply Ok.ite_fst | apply Ok.ite_snd | apply Ok.foldl_fst) | fail_if_no_progress (with_reducible apply Ok.frame <;> first | rfl | skip) | split)

theorem execShortLimitReleased_ok {pd : List Instr} {t : Nat} {n : Nat} {s : State} (h : Ok pd s) : OkO pd (execShortLimitReleased t n s) := by
  unfold execShortLimitReleased
  try dsimp only
  repeat' (first | with_reducible (first | apply ifUnit_ok | apply queueCmd_ok | apply Ok.outcome | apply Ok.fault | apply command_ok | apply onRegion_ok | apply onRegions_ok | apply OkO.ite) | with_reducible (intro _) | with_reducible (first | assumption | apply setDac_ok | apply ifUnit_ok | apply atCount_ok | apply Ok.ite | apply Ok.foldl | apply Ok.elim | apply Ok.ite_fst | apply Ok.ite_snd | apply Ok.foldl_fst) | fail_if_no_progress (with_reducible apply Ok.frame <;> first | rfl | skip) | split)

theorem execDacTrip_ok {pd : List Instr} {t : Nat} {n : Nat} {s : State} (h : Ok pd s) : OkO pd (execDacTrip t n s) := by
  unfold execDacTrip
  try dsimp only
  repeat' (first | with_reducible (first | apply ifUnit_ok | apply queueCmd_ok | apply Ok.outcome | apply Ok.fault | apply command_ok | apply onRegion_ok | apply onRegions_ok | apply OkO.ite) | with_reducible (intro _) | with_reducible (first | assumption | apply setDac_ok | apply log_ok | apply bump_ok | apply ifUnit_ok | apply atCount_ok | apply endOuts_ok | apply rangeCut_ok | apply Ok.ite | apply Ok.foldl | apply Ok.elim | apply Ok.ite_fst | apply Ok.ite_snd | apply Ok.foldl_fst) | fail_if_no_progress (with_reducible apply Ok.frame <;> first | rfl | skip) | split)

theorem execDacSenseOpen_ok {pd : List Instr} {t : Nat} {n : Nat} {mv : Nat} {s : State} (h : Ok pd s) : OkO pd (execDacSenseOpen t n mv s) := by
  unfold execDacSenseOpen
  try dsimp only
  repeat' (first | with_reducible (first | apply ifUnit_ok | apply queueCmd_ok | apply Ok.outcome | apply Ok.fault | apply command_ok | apply onRegion_ok | apply onRegions_ok | apply OkO.ite) | with_reducible (intro _) | with_reducible (first | assumption | apply setDac_ok | apply log_ok | apply bump_ok | apply ifUnit_ok | apply atCount_ok | apply Ok.ite | apply Ok.foldl | apply Ok.elim | apply Ok.ite_fst | apply Ok.ite_snd | apply Ok.foldl_fst) | fail_if_no_progress (with_reducible apply Ok.frame <;> first | rfl | skip) | split)

theorem bodyDacSet_ok {pd : List Instr} {cmd : Instr} {slot : Nat} {a : Bytes} {s : State} (h : Ok pd s) : Ok pd (bodyDacSet cmd slot a s) := by
  unfold bodyDacSet
  try dsimp only
  repeat' (first | (intro _) | with_reducible (first | assumption | apply setDac_ok | apply final_ok | apply setWork_ok | apply onRegion_ok | apply Ok.ite | apply Ok.foldl | apply Ok.elim | apply Ok.ite_fst | apply Ok.ite_snd | apply Ok.foldl_fst) | fail_if_no_progress (with_reducible apply Ok.frame <;> first | rfl | skip) | split)

theorem execDacSet_ok {pd : List Instr} {d : Desc} {s : State} (h : Ok pd s) : OkO pd (execDacSet d s) := by
  unfold execDacSet
  try dsimp only
  repeat' (first | with_reducible (first | apply ifUnit_ok | apply queueCmd_ok | apply Ok.outcome | apply Ok.fault | apply command_ok | apply onRegion_ok | apply onRegions_ok | apply OkO.ite) | with_reducible (intro _) | with_reducible (first | assumption | apply command_ok | apply queueCmd_ok | apply bodyDacSet_ok | apply Ok.ite | apply Ok.foldl | apply Ok.elim | apply Ok.ite_fst | apply Ok.ite_snd | apply Ok.foldl_fst) | fail_if_no_progress (with_reducible apply Ok.frame <;> first | rfl | skip) | split)

theorem bodyDacRange_ok {pd : List Instr} {cmd : Instr} {slot : Nat} {a : Bytes} {s : State} (h : Ok pd s) : Ok pd (bodyDacRange cmd slot a s) := by
  unfold bodyDacRange
  try dsimp only
  repeat' (first | (intro _) | with_reducible (first | assumption | apply setDac_ok | apply final_ok | apply setWork_ok | apply onRegion_ok | apply endOuts_ok | apply Ok.ite | apply Ok.foldl | apply Ok.elim | apply Ok.ite_fst | apply Ok.ite_snd | apply Ok.foldl_fst) | fail_if_no_progress (with_reducible apply Ok.frame <;> first | rfl | skip) | split)

theorem execDacRange_ok {pd : List Instr} {d : Desc} {s : State} (h : Ok pd s) : OkO pd (execDacRange d s) := by
  unfold execDacRange
  try dsimp only
  repeat' (first | with_reducible (first | apply ifUnit_ok | apply queueCmd_ok | apply Ok.outcome | apply Ok.fault | apply command_ok | apply onRegion_ok | apply onRegions_ok | apply OkO.ite) | with_reducible (intro _) | with_reducible (first | assumption | apply command_ok | apply queueCmd_ok | apply bodyDacRange_ok | apply Ok.ite | apply Ok.foldl | apply Ok.elim | apply Ok.ite_fst | apply Ok.ite_snd | apply Ok.foldl_fst) | fail_if_no_progress (with_reducible apply Ok.frame <;> first | rfl | skip) | split)

theorem bodyDdsConfig_ok {pd : List Instr} {cmd : Instr} {slot : Nat} {a : Bytes} {s : State} (h : Ok pd s) : Ok pd (bodyDdsConfig cmd slot a s) := by
  unfold bodyDdsConfig
  try dsimp only
  repeat' (first | (intro _) | with_reducible (first | assumption | apply setDac_ok | apply final_ok | apply setWork_ok | apply onRegion_ok | apply Ok.ite | apply Ok.foldl | apply Ok.elim | apply Ok.ite_fst | apply Ok.ite_snd | apply Ok.foldl_fst) | fail_if_no_progress (with_reducible apply Ok.frame <;> first | rfl | skip) | split)

theorem execDdsConfig_ok {pd : List Instr} {d : Desc} {s : State} (h : Ok pd s) : OkO pd (execDdsConfig d s) := by
  unfold execDdsConfig
  try dsimp only
  repeat' (first | with_reducible (first | apply ifUnit_ok | apply queueCmd_ok | apply Ok.outcome | apply Ok.fault | apply command_ok | apply onRegion_ok | apply onRegions_ok | apply OkO.ite) | with_reducible (intro _) | with_reducible (first | assumption | apply command_ok | apply queueCmd_ok | apply bodyDdsConfig_ok | apply Ok.ite | apply Ok.foldl | apply Ok.elim | apply Ok.ite_fst | apply Ok.ite_snd | apply Ok.foldl_fst) | fail_if_no_progress (with_reducible apply Ok.frame <;> first | rfl | skip) | split)

theorem bodyDacNvStore_ok {pd : List Instr} {verified : Bool} {slot : Nat} {a : Bytes} {s : State} (h : Ok pd s) : Ok pd (bodyDacNvStore verified slot a s) := by
  unfold bodyDacNvStore
  try dsimp only
  repeat' (first | (intro _) | with_reducible (first | assumption | apply setDac_ok | apply final_ok | apply Ok.ite | apply Ok.foldl | apply Ok.elim | apply Ok.ite_fst | apply Ok.ite_snd | apply Ok.foldl_fst) | fail_if_no_progress (with_reducible apply Ok.frame <;> first | rfl | skip) | split)

theorem execDacNvStore_ok {pd : List Instr} {d : Desc} {verified : Bool} {s : State} (h : Ok pd s) : OkO pd (execDacNvStore d verified s) := by
  unfold execDacNvStore
  try dsimp only
  repeat' (first | with_reducible (first | apply ifUnit_ok | apply queueCmd_ok | apply Ok.outcome | apply Ok.fault | apply command_ok | apply onRegion_ok | apply onRegions_ok | apply OkO.ite) | with_reducible (intro _) | with_reducible (first | assumption | apply command_ok | apply queueCmd_ok | apply bodyDacNvStore_ok | apply Ok.ite | apply Ok.foldl | apply Ok.elim | apply Ok.ite_fst | apply Ok.ite_snd | apply Ok.foldl_fst) | fail_if_no_progress (with_reducible apply Ok.frame <;> first | rfl | skip) | split)

theorem bodySlewConfig_ok {pd : List Instr} {cmd : Instr} {slot : Nat} {a : Bytes} {s : State} (h : Ok pd s) : Ok pd (bodySlewConfig cmd slot a s) := by
  unfold bodySlewConfig
  try dsimp only
  repeat' (first | (intro _) | with_reducible (first | assumption | apply setDac_ok | apply final_ok | apply setWork_ok | apply onRegion_ok | apply Ok.ite | apply Ok.foldl | apply Ok.elim | apply Ok.ite_fst | apply Ok.ite_snd | apply Ok.foldl_fst) | fail_if_no_progress (with_reducible apply Ok.frame <;> first | rfl | skip) | split)

theorem execSlewConfig_ok {pd : List Instr} {d : Desc} {s : State} (h : Ok pd s) : OkO pd (execSlewConfig d s) := by
  unfold execSlewConfig
  try dsimp only
  repeat' (first | with_reducible (first | apply ifUnit_ok | apply queueCmd_ok | apply Ok.outcome | apply Ok.fault | apply command_ok | apply onRegion_ok | apply onRegions_ok | apply OkO.ite) | with_reducible (intro _) | with_reducible (first | assumption | apply command_ok | apply queueCmd_ok | apply bodySlewConfig_ok | apply Ok.ite | apply Ok.foldl | apply Ok.elim | apply Ok.ite_fst | apply Ok.ite_snd | apply Ok.foldl_fst) | fail_if_no_progress (with_reducible apply Ok.frame <;> first | rfl | skip) | split)

theorem stopDac_ok {pd : List Instr} {s : State} {n : Nat} {slot : Nat} {st : Nat} (h : Ok pd s) : Ok pd (State.stopDac s n slot st).1 := by
  unfold State.stopDac
  try dsimp only
  repeat' (first | (intro _) | with_reducible (first | assumption | apply setDac_ok | apply final_ok | apply endOuts_ok | apply rangeCut_ok | apply Ok.ite | apply Ok.foldl | apply Ok.elim | apply Ok.ite_fst | apply Ok.ite_snd | apply Ok.foldl_fst) | fail_if_no_progress (with_reducible apply Ok.frame <;> first | rfl | skip) | split)

end Sys2Proof.Machine
end

