-- ==== Sys2Proof/Laws/OkStreams.lean ====
section
/-! SUPPORT. Every operation of Machine/Streams.lean keeps the queue and every bounded field. -/

namespace Sys2Proof.Machine

set_option linter.unusedTactic false
set_option linter.unreachableTactic false

/-- Another event ring state that holds no more than 64 events. -/
theorem Ok.me {p : List Instr} {s : State} {m : Me} (h : Ok p s) (hm : m.held.length ≤ 64) :
    Ok p { s with host := { s.host with me := m } } :=
  ⟨h.1, h.2.1, h.2.2.1, h.2.2.2.1, h.2.2.2.2.1, h.2.2.2.2.2.1, hm, h.2.2.2.2.2.2.2⟩

theorem sendBytes_ok {pd : List Instr} {s : State} {bytes : Nat} (h : Ok pd s) : Ok pd (State.sendBytes s bytes) := by
  unfold State.sendBytes
  try dsimp only
  repeat' (first | (intro _) | with_reducible (first | assumption | apply Ok.ite | apply Ok.foldl | apply Ok.elim | apply Ok.ite_fst | apply Ok.ite_snd | apply Ok.foldl_fst) | fail_if_no_progress (with_reducible apply Ok.frame <;> first | rfl | skip) | split)

theorem writeFill_ok {pd : List Instr} {s : State} {n : Nat} {f : Fill} (h : Ok pd s) : Ok pd (State.writeFill s n f) := by
  unfold State.writeFill
  try dsimp only
  repeat' (first | (intro _) | with_reducible (first | assumption | apply setDs_ok | apply hostWrite_ok | apply raiseVec_ok | apply bump_ok | apply sendBytes_ok | apply Ok.ite | apply Ok.foldl | apply Ok.elim | apply Ok.ite_fst | apply Ok.ite_snd | apply Ok.foldl_fst) | fail_if_no_progress (with_reducible apply Ok.frame <;> first | rfl | skip) | split)

theorem endBuf_ok {pd : List Instr} {s : State} {n : Nat} {flags : Nat} {always : Bool} (h : Ok pd s) : Ok pd (State.endBuf s n flags always) := by
  unfold State.endBuf
  try dsimp only
  repeat' (first | (intro _) | with_reducible (first | assumption | apply setDs_ok | apply writeFill_ok | apply Ok.ite | apply Ok.foldl | apply Ok.elim | apply Ok.ite_fst | apply Ok.ite_snd | apply Ok.foldl_fst) | fail_if_no_progress (with_reducible apply Ok.frame <;> first | rfl | skip) | split)

theorem takeBuf_ok {pd : List Instr} (n : Nat) (y0 : Nat) (s : State) (h : Ok pd s) : Ok pd (State.takeBuf n y0 s) := by
  induction n generalizing y0 s with
  | zero => exact h
  | succ n ih =>
    rw [State.takeBuf]
    try dsimp only
    repeat' (first | (intro _) | with_reducible (first | assumption | apply ih | apply setDs_ok | apply log_ok | apply writeFill_ok | apply Ok.ite | apply Ok.foldl | apply Ok.elim | apply Ok.ite_fst | apply Ok.ite_snd | apply Ok.foldl_fst) | fail_if_no_progress (with_reducible apply Ok.frame <;> first | rfl | skip) | split)

theorem writeRec_ok {pd : List Instr} {s : State} {n : Nat} {b : Buf} {r : Rec} (h : Ok pd s) : Ok pd (State.writeRec s n b r) := by
  unfold State.writeRec
  try dsimp only
  repeat' (first | (intro _) | with_reducible (first | assumption | apply setDs_ok | apply hostWrite_ok | apply bump_ok | apply sendBytes_ok | apply endBuf_ok | apply Ok.ite | apply Ok.foldl | apply Ok.elim | apply Ok.ite_fst | apply Ok.ite_snd | apply Ok.foldl_fst) | fail_if_no_progress (with_reducible apply Ok.frame <;> first | rfl | skip) | split)

theorem drain_ok {pd : List Instr} (n : Nat) (y0 : Nat) (s : State) (h : Ok pd s) : Ok pd (State.drain n y0 s) := by
  induction n generalizing y0 s with
  | zero => exact h
  | succ n ih =>
    rw [State.drain]
    try dsimp only
    repeat' (first | (intro _) | with_reducible (first | assumption | apply ih | apply setDs_ok | apply stage_ok | apply takeBuf_ok | apply writeRec_ok | apply Ok.ite | apply Ok.foldl | apply Ok.elim | apply Ok.ite_fst | apply Ok.ite_snd | apply Ok.foldl_fst) | fail_if_no_progress (with_reducible apply Ok.frame <;> first | rfl | skip) | split)

theorem drainAll_ok {pd : List Instr} {s : State} {n : Nat} (h : Ok pd s) : Ok pd (State.drainAll s n) := by
  unfold State.drainAll
  try dsimp only
  repeat' (first | (intro _) | with_reducible (first | assumption | apply stage_ok | apply drain_ok | apply Ok.ite | apply Ok.foldl | apply Ok.elim | apply Ok.ite_fst | apply Ok.ite_snd | apply Ok.foldl_fst) | fail_if_no_progress (with_reducible apply Ok.frame <;> first | rfl | skip) | split)

theorem markLost_ok {pd : List Instr} {s : State} {c : Nat} (h : Ok pd s) : Ok pd (State.markLost s c) := by
  unfold State.markLost
  try dsimp only
  repeat' (first | (intro _) | with_reducible (first | assumption | apply Ok.ite | apply Ok.foldl | apply Ok.elim | apply Ok.ite_fst | apply Ok.ite_snd | apply Ok.foldl_fst) | fail_if_no_progress (with_reducible apply Ok.frame <;> first | rfl | skip) | split)

theorem arrive_ok {pd : List Instr} {s : State} {r : Rec} (h : Ok pd s) : Ok pd (State.arrive s r) := by
  unfold State.arrive
  try dsimp only
  repeat' (first | (intro _) | with_reducible (first | assumption | apply setDs_ok | apply bump_ok | apply stage_ok | apply drainAll_ok | apply markLost_ok | apply Ok.ite | apply Ok.foldl | apply Ok.elim | apply Ok.ite_fst | apply Ok.ite_snd | apply Ok.foldl_fst) | fail_if_no_progress (with_reducible apply Ok.frame <;> first | rfl | skip) | split)

theorem cutUnit_ok {pd : List Instr} {s : State} {p : Snap} {u : Nat} (h : Ok pd s) : Ok pd (State.cutUnit s p u) := by
  unfold State.cutUnit
  try dsimp only
  repeat' (first | (intro _) | with_reducible (first | assumption | apply setCtr_ok | apply Ok.ite | apply Ok.foldl | apply Ok.elim | apply Ok.ite_fst | apply Ok.ite_snd | apply Ok.foldl_fst) | fail_if_no_progress (with_reducible apply Ok.frame <;> first | rfl | skip) | split)

theorem tokenFirst_ok {pd : List Instr} {s : State} {r : Rec} (h : Ok pd s) : Ok pd (State.tokenFirst s r) := by
  unfold State.tokenFirst
  try dsimp only
  repeat' (first | (intro _) | with_reducible (first | assumption | apply cutUnit_ok | apply Ok.ite | apply Ok.foldl | apply Ok.elim | apply Ok.ite_fst | apply Ok.ite_snd | apply Ok.foldl_fst) | fail_if_no_progress (with_reducible apply Ok.frame <;> first | rfl | skip) | split)

theorem execStreamRecord_ok {pd : List Instr} {t : Nat} {c : Nat} {s : State} (h : Ok pd s) : OkO pd (execStreamRecord t c s) := by
  unfold execStreamRecord
  try dsimp only
  repeat' (first | with_reducible (first | apply ifUnit_ok | apply queueCmd_ok | apply Ok.outcome | apply Ok.fault | apply command_ok | apply onRegion_ok | apply onRegions_ok | apply OkO.ite) | with_reducible (intro _) | with_reducible (first | assumption | apply setConv_ok | apply at_ok | apply ifUnit_ok | apply arrive_ok | apply tokenFirst_ok | apply Ok.ite | apply Ok.foldl | apply Ok.elim | apply Ok.ite_fst | apply Ok.ite_snd | apply Ok.foldl_fst) | fail_if_no_progress (with_reducible apply Ok.frame <;> first | rfl | skip) | split)

theorem execStreamFetchStall_ok {pd : List Instr} {t : Nat} {ds : Nat} {s : State} (h : Ok pd s) : OkO pd (execStreamFetchStall t ds s) := by
  unfold execStreamFetchStall
  try dsimp only
  repeat' (first | with_reducible (first | apply ifUnit_ok | apply queueCmd_ok | apply Ok.outcome | apply Ok.fault | apply command_ok | apply onRegion_ok | apply onRegions_ok | apply OkO.ite) | with_reducible (intro _) | with_reducible (first | assumption | apply setDs_ok | apply at_ok | apply log_ok | apply ifUnit_ok | apply Ok.ite | apply Ok.foldl | apply Ok.elim | apply Ok.ite_fst | apply Ok.ite_snd | apply Ok.foldl_fst) | fail_if_no_progress (with_reducible apply Ok.frame <;> first | rfl | skip) | split)

theorem bodyStreamOpen_ok {pd : List Instr} {cmd : Instr} {slot : Nat} {a : Bytes} {s : State} (h : Ok pd s) : Ok pd (bodyStreamOpen cmd slot a s) := by
  unfold bodyStreamOpen
  try dsimp only
  repeat' (first | (intro _) | with_reducible (first | assumption | apply setDs_ok | apply setConv_ok | apply finalObj_ok | apply final_ok | apply onRegions_ok | apply stage_ok | apply Ok.ite | apply Ok.foldl | apply Ok.elim | apply Ok.ite_fst | apply Ok.ite_snd | apply Ok.foldl_fst) | fail_if_no_progress (with_reducible apply Ok.frame <;> first | rfl | skip) | split)

theorem execStreamOpen_ok {pd : List Instr} {d : Desc} {s : State} (h : Ok pd s) : OkO pd (execStreamOpen d s) := by
  unfold execStreamOpen
  try dsimp only
  repeat' (first | with_reducible (first | apply ifUnit_ok | apply queueCmd_ok | apply Ok.outcome | apply Ok.fault | apply command_ok | apply onRegion_ok | apply onRegions_ok | apply OkO.ite) | with_reducible (intro _) | with_reducible (first | assumption | apply command_ok | apply queueCmd_ok | apply bodyStreamOpen_ok | apply Ok.ite | apply Ok.foldl | apply Ok.elim | apply Ok.ite_fst | apply Ok.ite_snd | apply Ok.foldl_fst) | fail_if_no_progress (with_reducible apply Ok.frame <;> first | rfl | skip) | split)

theorem closeStep_ok {pd : List Instr} {s : State} {n : Nat} (h : Ok pd s) : Ok pd (State.closeStep s n) := by
  unfold State.closeStep
  try dsimp only
  repeat' (first | (intro _) | with_reducible (first | assumption | apply setDs_ok | apply bumpN_ok | apply release_ok | apply final_ok | apply stage_ok | apply writeFill_ok | apply endBuf_ok | apply drainAll_ok | apply Ok.ite | apply Ok.foldl | apply Ok.elim | apply Ok.ite_fst | apply Ok.ite_snd | apply Ok.foldl_fst) | fail_if_no_progress (with_reducible apply Ok.frame <;> first | rfl | skip) | split)

theorem execFlushInterval_ok {pd : List Instr} {t : Nat} {ds : Nat} {s : State} (h : Ok pd s) : OkO pd (execFlushInterval t ds s) := by
  unfold execFlushInterval
  try dsimp only
  repeat' (first | with_reducible (first | apply ifUnit_ok | apply queueCmd_ok | apply Ok.outcome | apply Ok.fault | apply command_ok | apply onRegion_ok | apply onRegions_ok | apply OkO.ite) | with_reducible (intro _) | with_reducible (first | assumption | apply at_ok | apply ifUnit_ok | apply endBuf_ok | apply drainAll_ok | apply closeStep_ok | apply Ok.ite | apply Ok.foldl | apply Ok.elim | apply Ok.ite_fst | apply Ok.ite_snd | apply Ok.foldl_fst) | fail_if_no_progress (with_reducible apply Ok.frame <;> first | rfl | skip) | split)

theorem bodyStreamClose_ok {pd : List Instr} {slot : Nat} {a : Bytes} {s : State} (h : Ok pd s) : Ok pd (bodyStreamClose slot a s) := by
  unfold bodyStreamClose
  try dsimp only
  repeat' (first | (intro _) | with_reducible (first | assumption | apply setDs_ok | apply final_ok | apply setWork_ok | apply closeStep_ok | apply Ok.ite | apply Ok.foldl | apply Ok.elim | apply Ok.ite_fst | apply Ok.ite_snd | apply Ok.foldl_fst) | fail_if_no_progress (with_reducible apply Ok.frame <;> first | rfl | skip) | split)

theorem execStreamClose_ok {pd : List Instr} {d : Desc} {s : State} (h : Ok pd s) : OkO pd (execStreamClose d s) := by
  unfold execStreamClose
  try dsimp only
  repeat' (first | with_reducible (first | apply ifUnit_ok | apply queueCmd_ok | apply Ok.outcome | apply Ok.fault | apply command_ok | apply onRegion_ok | apply onRegions_ok | apply OkO.ite) | with_reducible (intro _) | with_reducible (first | assumption | apply command_ok | apply queueCmd_ok | apply bodyStreamClose_ok | apply Ok.ite | apply Ok.foldl | apply Ok.elim | apply Ok.ite_fst | apply Ok.ite_snd | apply Ok.foldl_fst) | fail_if_no_progress (with_reducible apply Ok.frame <;> first | rfl | skip) | split)

theorem badDoorbell_ok {pd : List Instr} {s : State} {off : Nat} {value : Nat} {width : Nat} (h : Ok pd s) : Ok pd (State.badDoorbell s off value width) := by
  unfold State.badDoorbell
  try dsimp only
  repeat' (first | (intro _) | with_reducible (first | assumption | apply log_ok | apply Ok.ite | apply Ok.foldl | apply Ok.elim | apply Ok.ite_fst | apply Ok.ite_snd | apply Ok.foldl_fst) | fail_if_no_progress (with_reducible apply Ok.frame <;> first | rfl | skip) | split)

theorem meDrain_ok {pd : List Instr} (n : Nat) (s : State) (h : Ok pd s) : Ok pd (State.meDrain n s) := by
  induction n generalizing s with
  | zero => exact h
  | succ n ih =>
    rw [State.meDrain]
    dsimp only
    split
    · exact h
    · rename_i e l he
      refine Ok.ite h (ih _ (meWrite_ok (h.me ?_)))
      have := h.2.2.2.2.2.2.1
      rw [he] at this
      exact Nat.le_of_succ_le this

theorem meHead_ok {pd : List Instr} {s : State} {v : Nat} (h : Ok pd s) : Ok pd (State.meHead s v) := by
  unfold State.meHead
  try dsimp only
  repeat' (first | (intro _) | with_reducible (first | assumption | apply meDrain_ok | apply Ok.ite | apply Ok.foldl | apply Ok.elim | apply Ok.ite_fst | apply Ok.ite_snd | apply Ok.foldl_fst) | fail_if_no_progress (with_reducible apply Ok.frame <;> first | rfl | skip) | split)

-- RECURSIVE?
theorem sqTail_ok {pd : List Instr} {s : State} {q : Nat} {v : Nat} (h : Ok pd s) : Ok pd (State.sqTail s q v) := by
  unfold State.sqTail
  try dsimp only
  repeat' (first | (intro _) | with_reducible (first | assumption | apply setCq_ok | apply Ok.ite | apply Ok.foldl | apply Ok.elim | apply Ok.ite_fst | apply Ok.ite_snd | apply Ok.foldl_fst) | fail_if_no_progress (with_reducible apply Ok.frame <;> first | rfl | skip) | split)

-- RECURSIVE?
theorem cqHead_ok {pd : List Instr} {s : State} {q : Nat} {v : Nat} (h : Ok pd s) : Ok pd (State.cqHead s q v) := by
  unfold State.cqHead
  try dsimp only
  repeat' (first | (intro _) | with_reducible (first | assumption | apply setCq_ok | apply Ok.ite | apply Ok.foldl | apply Ok.elim | apply Ok.ite_fst | apply Ok.ite_snd | apply Ok.foldl_fst) | fail_if_no_progress (with_reducible apply Ok.frame <;> first | rfl | skip) | split)

-- RECURSIVE?
theorem bufTail_ok {pd : List Instr} {s : State} {n : Nat} {v : Nat} {descs : List Bytes} (h : Ok pd s) : Ok pd (State.bufTail s n v descs) := by
  unfold State.bufTail
  try dsimp only
  repeat' (first | (intro _) | with_reducible (first | assumption | apply setDs_ok | apply drainAll_ok | apply closeStep_ok | apply Ok.ite | apply Ok.foldl | apply Ok.elim | apply Ok.ite_fst | apply Ok.ite_snd | apply Ok.foldl_fst) | fail_if_no_progress (with_reducible apply Ok.frame <;> first | rfl | skip) | split)

-- RECURSIVE?
theorem evtHead_ok {pd : List Instr} {s : State} {n : Nat} {v : Nat} (h : Ok pd s) : Ok pd (State.evtHead s n v) := by
  unfold State.evtHead
  try dsimp only
  repeat' (first | (intro _) | with_reducible (first | assumption | apply setDs_ok | apply drainAll_ok | apply closeStep_ok | apply Ok.ite | apply Ok.foldl | apply Ok.elim | apply Ok.ite_fst | apply Ok.ite_snd | apply Ok.foldl_fst) | fail_if_no_progress (with_reducible apply Ok.frame <;> first | rfl | skip) | split)

theorem doorAct_ok {pd : List Instr} {s : State} {off : Nat} {v : Nat} {descs : List Bytes} (h : Ok pd s) : Ok pd (State.doorAct s off v descs) := by
  unfold State.doorAct
  try dsimp only
  repeat' (first | (intro _) | with_reducible (first | assumption | apply meHead_ok | apply sqTail_ok | apply cqHead_ok | apply bufTail_ok | apply evtHead_ok | apply Ok.ite | apply Ok.foldl | apply Ok.elim | apply Ok.ite_fst | apply Ok.ite_snd | apply Ok.foldl_fst) | fail_if_no_progress (with_reducible apply Ok.frame <;> first | rfl | skip) | split)

theorem doorbell4_ok {pd : List Instr} {s : State} {off : Nat} {value : Nat} {width : Nat} {descs : List Bytes} (h : Ok pd s) : Ok pd (State.doorbell4 s off value width descs) := by
  unfold State.doorbell4
  try dsimp only
  repeat' (first | (intro _) | with_reducible (first | assumption | apply badDoorbell_ok | apply doorAct_ok | apply Ok.ite | apply Ok.foldl | apply Ok.elim | apply Ok.ite_fst | apply Ok.ite_snd | apply Ok.foldl_fst) | fail_if_no_progress (with_reducible apply Ok.frame <;> first | rfl | skip) | split)

theorem haltStream_ok {pd : List Instr} {s : State} {n : Nat} (h : Ok pd s) : Ok pd (State.haltStream s n) := by
  unfold State.haltStream
  try dsimp only
  repeat' (first | (intro _) | with_reducible (first | assumption | apply setDs_ok | apply endBuf_ok | apply Ok.ite | apply Ok.foldl | apply Ok.elim | apply Ok.ite_fst | apply Ok.ite_snd | apply Ok.foldl_fst) | fail_if_no_progress (with_reducible apply Ok.frame <;> first | rfl | skip) | split)

theorem haltWrite_ok {pd : List Instr} {s : State} {v : Nat} {width : Nat} (h : Ok pd s) : Ok pd (State.haltWrite s v width) := by
  unfold State.haltWrite
  try dsimp only
  repeat' (first | (intro _) | with_reducible (first | assumption | apply setDs_ok | apply setConv_ok | apply log_ok | apply bump_ok | apply clearSource_ok | apply dacHalt_ok | apply drainAll_ok | apply badDoorbell_ok | apply haltStream_ok | apply Ok.ite | apply Ok.foldl | apply Ok.elim | apply Ok.ite_fst | apply Ok.ite_snd | apply Ok.foldl_fst) | fail_if_no_progress (with_reducible apply Ok.frame <;> first | rfl | skip) | split)

theorem execHalt_ok {pd : List Instr} {t : Nat} {value : BitVec 64} {width : Nat} {s : State} (h : Ok pd s) : OkO pd (execHalt t value width s) := by
  unfold execHalt
  try dsimp only
  repeat' (first | with_reducible (first | apply ifUnit_ok | apply queueCmd_ok | apply Ok.outcome | apply Ok.fault | apply command_ok | apply onRegion_ok | apply onRegions_ok | apply OkO.ite) | with_reducible (intro _) | with_reducible (first | assumption | apply at_ok | apply haltWrite_ok | apply Ok.ite | apply Ok.foldl | apply Ok.elim | apply Ok.ite_fst | apply Ok.ite_snd | apply Ok.foldl_fst) | fail_if_no_progress (with_reducible apply Ok.frame <;> first | rfl | skip) | split)

theorem execRelease_ok {pd : List Instr} {t : Nat} {value : BitVec 64} {width : Nat} {s : State} (h : Ok pd s) : OkO pd (execRelease t value width s) := by
  unfold execRelease
  try dsimp only
  repeat' (first | with_reducible (first | apply ifUnit_ok | apply queueCmd_ok | apply Ok.outcome | apply Ok.fault | apply command_ok | apply onRegion_ok | apply onRegions_ok | apply OkO.ite) | with_reducible (intro _) | with_reducible (first | assumption | apply at_ok | apply haltWrite_ok | apply Ok.ite | apply Ok.foldl | apply Ok.elim | apply Ok.ite_fst | apply Ok.ite_snd | apply Ok.foldl_fst) | fail_if_no_progress (with_reducible apply Ok.frame <;> first | rfl | skip) | split)

theorem execMgmtEventRingHead_ok {pd : List Instr} {t : Nat} {value : Word} {width : Nat} {s : State} (h : Ok pd s) : OkO pd (execMgmtEventRingHead t value width s) := by
  unfold execMgmtEventRingHead
  try dsimp only
  repeat' (first | with_reducible (first | apply ifUnit_ok | apply queueCmd_ok | apply Ok.outcome | apply Ok.fault | apply command_ok | apply onRegion_ok | apply onRegions_ok | apply OkO.ite) | with_reducible (intro _) | with_reducible (first | assumption | apply at_ok | apply doorbell4_ok | apply Ok.ite | apply Ok.foldl | apply Ok.elim | apply Ok.ite_fst | apply Ok.ite_snd | apply Ok.foldl_fst) | fail_if_no_progress (with_reducible apply Ok.frame <;> first | rfl | skip) | split)

theorem execSubmissionTail_ok {pd : List Instr} {t : Nat} {q : Nat} {value : Word} {width : Nat} {s : State} (h : Ok pd s) : OkO pd (execSubmissionTail t q value width s) := by
  unfold execSubmissionTail
  try dsimp only
  repeat' (first | with_reducible (first | apply ifUnit_ok | apply queueCmd_ok | apply Ok.outcome | apply Ok.fault | apply command_ok | apply onRegion_ok | apply onRegions_ok | apply OkO.ite) | with_reducible (intro _) | with_reducible (first | assumption | apply at_ok | apply ifUnit_ok | apply doorbell4_ok | apply Ok.ite | apply Ok.foldl | apply Ok.elim | apply Ok.ite_fst | apply Ok.ite_snd | apply Ok.foldl_fst) | fail_if_no_progress (with_reducible apply Ok.frame <;> first | rfl | skip) | split)

theorem execCompletionHead_ok {pd : List Instr} {t : Nat} {q : Nat} {value : Word} {width : Nat} {s : State} (h : Ok pd s) : OkO pd (execCompletionHead t q value width s) := by
  unfold execCompletionHead
  try dsimp only
  repeat' (first | with_reducible (first | apply ifUnit_ok | apply queueCmd_ok | apply Ok.outcome | apply Ok.fault | apply command_ok | apply onRegion_ok | apply onRegions_ok | apply OkO.ite) | with_reducible (intro _) | with_reducible (first | assumption | apply at_ok | apply ifUnit_ok | apply doorbell4_ok | apply Ok.ite | apply Ok.foldl | apply Ok.elim | apply Ok.ite_fst | apply Ok.ite_snd | apply Ok.foldl_fst) | fail_if_no_progress (with_reducible apply Ok.frame <;> first | rfl | skip) | split)

theorem execBufferRingTail_ok {pd : List Instr} {t : Nat} {ds : Nat} {value : Word} {width : Nat} {descs : List Bytes} {s : State} (h : Ok pd s) : OkO pd (execBufferRingTail t ds value width descs s) := by
  unfold execBufferRingTail
  try dsimp only
  repeat' (first | with_reducible (first | apply ifUnit_ok | apply queueCmd_ok | apply Ok.outcome | apply Ok.fault | apply command_ok | apply onRegion_ok | apply onRegions_ok | apply OkO.ite) | with_reducible (intro _) | with_reducible (first | assumption | apply at_ok | apply ifUnit_ok | apply doorbell4_ok | apply Ok.ite | apply Ok.foldl | apply Ok.elim | apply Ok.ite_fst | apply Ok.ite_snd | apply Ok.foldl_fst) | fail_if_no_progress (with_reducible apply Ok.frame <;> first | rfl | skip) | split)

theorem execEventRingHead_ok {pd : List Instr} {t : Nat} {ds : Nat} {value : Word} {width : Nat} {s : State} (h : Ok pd s) : OkO pd (execEventRingHead t ds value width s) := by
  unfold execEventRingHead
  try dsimp only
  repeat' (first | with_reducible (first | apply ifUnit_ok | apply queueCmd_ok | apply Ok.outcome | apply Ok.fault | apply command_ok | apply onRegion_ok | apply onRegions_ok | apply OkO.ite) | with_reducible (intro _) | with_reducible (first | assumption | apply at_ok | apply ifUnit_ok | apply doorbell4_ok | apply Ok.ite | apply Ok.foldl | apply Ok.elim | apply Ok.ite_fst | apply Ok.ite_snd | apply Ok.foldl_fst) | fail_if_no_progress (with_reducible apply Ok.frame <;> first | rfl | skip) | split)

theorem writeCqctl_ok {pd : List Instr} {s : State} {q : Nat} {v : Nat} (h : Ok pd s) : Ok pd (State.writeCqctl s q v) := by
  unfold State.writeCqctl
  try dsimp only
  repeat' (first | (intro _) | with_reducible (first | assumption | apply setCq_ok | apply sqTail_ok | apply cqHead_ok | apply Ok.ite | apply Ok.foldl | apply Ok.elim | apply Ok.ite_fst | apply Ok.ite_snd | apply Ok.foldl_fst) | fail_if_no_progress (with_reducible apply Ok.frame <;> first | rfl | skip) | split)

theorem writeDsctl_ok {pd : List Instr} {s : State} {n : Nat} {v : Nat} (h : Ok pd s) : Ok pd (State.writeDsctl s n v) := by
  unfold State.writeDsctl
  try dsimp only
  repeat' (first | (intro _) | with_reducible (first | assumption | apply setDs_ok | apply bufTail_ok | apply evtHead_ok | apply Ok.ite | apply Ok.foldl | apply Ok.elim | apply Ok.ite_fst | apply Ok.ite_snd | apply Ok.foldl_fst) | fail_if_no_progress (with_reducible apply Ok.frame <;> first | rfl | skip) | split)

theorem writeMectl_ok {pd : List Instr} {s : State} {v : Nat} (h : Ok pd s) : Ok pd (State.writeMectl s v) := by
  unfold State.writeMectl
  refine h.me ?_
  have := h.2.2.2.2.2.2.1
  dsimp only
  repeat' split
  all_goals first | exact this | exact Nat.zero_le _

theorem mgmtReg_ok {pd : List Instr} {s : State} {off : Nat} {v : Nat} {f : State → State} (h : Ok pd s) (hf_f : ∀ y0, Ok pd y0 → Ok pd (f y0)) : Ok pd (State.mgmtReg s off v f) := by
  unfold State.mgmtReg
  try dsimp only
  repeat' (first | (intro _) | with_reducible (first | assumption | apply hf_f | apply Ok.ite | apply Ok.foldl | apply Ok.elim | apply Ok.ite_fst | apply Ok.ite_snd | apply Ok.foldl_fst) | fail_if_no_progress (with_reducible apply Ok.frame <;> first | rfl | skip) | split)

theorem execCqEnable_ok {pd : List Instr} {t : Nat} {q : Nat} {value : Word} {s : State} (h : Ok pd s) : OkO pd (execCqEnable t q value s) := by
  unfold execCqEnable
  try dsimp only
  repeat' (first | with_reducible (first | apply ifUnit_ok | apply queueCmd_ok | apply Ok.outcome | apply Ok.fault | apply command_ok | apply onRegion_ok | apply onRegions_ok | apply OkO.ite) | with_reducible (intro _) | with_reducible (first | assumption | apply at_ok | apply ifUnit_ok | apply writeCqctl_ok | apply mgmtReg_ok | apply Ok.ite | apply Ok.foldl | apply Ok.elim | apply Ok.ite_fst | apply Ok.ite_snd | apply Ok.foldl_fst) | fail_if_no_progress (with_reducible apply Ok.frame <;> first | rfl | skip) | split)

theorem execCqDisable_ok {pd : List Instr} {t : Nat} {q : Nat} {value : Word} {s : State} (h : Ok pd s) : OkO pd (execCqDisable t q value s) := by
  unfold execCqDisable
  try dsimp only
  repeat' (first | with_reducible (first | apply ifUnit_ok | apply queueCmd_ok | apply Ok.outcome | apply Ok.fault | apply command_ok | apply onRegion_ok | apply onRegions_ok | apply OkO.ite) | with_reducible (intro _) | with_reducible (first | assumption | apply at_ok | apply ifUnit_ok | apply writeCqctl_ok | apply mgmtReg_ok | apply Ok.ite | apply Ok.foldl | apply Ok.elim | apply Ok.ite_fst | apply Ok.ite_snd | apply Ok.foldl_fst) | fail_if_no_progress (with_reducible apply Ok.frame <;> first | rfl | skip) | split)

theorem execDsEnable_ok {pd : List Instr} {t : Nat} {ds : Nat} {value : Word} {s : State} (h : Ok pd s) : OkO pd (execDsEnable t ds value s) := by
  unfold execDsEnable
  try dsimp only
  repeat' (first | with_reducible (first | apply ifUnit_ok | apply queueCmd_ok | apply Ok.outcome | apply Ok.fault | apply command_ok | apply onRegion_ok | apply onRegions_ok | apply OkO.ite) | with_reducible (intro _) | with_reducible (first | assumption | apply at_ok | apply ifUnit_ok | apply writeDsctl_ok | apply Ok.ite | apply Ok.foldl | apply Ok.elim | apply Ok.ite_fst | apply Ok.ite_snd | apply Ok.foldl_fst) | fail_if_no_progress (with_reducible apply Ok.frame <;> first | rfl | skip) | split)

theorem execDsDisable_ok {pd : List Instr} {t : Nat} {ds : Nat} {value : Word} {s : State} (h : Ok pd s) : OkO pd (execDsDisable t ds value s) := by
  unfold execDsDisable
  try dsimp only
  repeat' (first | with_reducible (first | apply ifUnit_ok | apply queueCmd_ok | apply Ok.outcome | apply Ok.fault | apply command_ok | apply onRegion_ok | apply onRegions_ok | apply OkO.ite) | with_reducible (intro _) | with_reducible (first | assumption | apply at_ok | apply ifUnit_ok | apply writeDsctl_ok | apply Ok.ite | apply Ok.foldl | apply Ok.elim | apply Ok.ite_fst | apply Ok.ite_snd | apply Ok.foldl_fst) | fail_if_no_progress (with_reducible apply Ok.frame <;> first | rfl | skip) | split)

theorem execMeEnable_ok {pd : List Instr} {t : Nat} {value : Word} {s : State} (h : Ok pd s) : OkO pd (execMeEnable t value s) := by
  unfold execMeEnable
  try dsimp only
  repeat' (first | with_reducible (first | apply ifUnit_ok | apply queueCmd_ok | apply Ok.outcome | apply Ok.fault | apply command_ok | apply onRegion_ok | apply onRegions_ok | apply OkO.ite) | with_reducible (intro _) | with_reducible (first | assumption | apply at_ok | apply writeMectl_ok | apply mgmtReg_ok | apply Ok.ite | apply Ok.foldl | apply Ok.elim | apply Ok.ite_fst | apply Ok.ite_snd | apply Ok.foldl_fst) | fail_if_no_progress (with_reducible apply Ok.frame <;> first | rfl | skip) | split)

theorem execMeDisable_ok {pd : List Instr} {t : Nat} {value : Word} {s : State} (h : Ok pd s) : OkO pd (execMeDisable t value s) := by
  unfold execMeDisable
  try dsimp only
  repeat' (first | with_reducible (first | apply ifUnit_ok | apply queueCmd_ok | apply Ok.outcome | apply Ok.fault | apply command_ok | apply onRegion_ok | apply onRegions_ok | apply OkO.ite) | with_reducible (intro _) | with_reducible (first | assumption | apply at_ok | apply writeMectl_ok | apply mgmtReg_ok | apply Ok.ite | apply Ok.foldl | apply Ok.elim | apply Ok.ite_fst | apply Ok.ite_snd | apply Ok.foldl_fst) | fail_if_no_progress (with_reducible apply Ok.frame <;> first | rfl | skip) | split)

theorem execQueueStalled_ok {pd : List Instr} {t : Nat} {q : Nat} {s : State} (h : Ok pd s) : OkO pd (execQueueStalled t q s) := by
  unfold execQueueStalled
  try dsimp only
  repeat' (first | with_reducible (first | apply ifUnit_ok | apply queueCmd_ok | apply Ok.outcome | apply Ok.fault | apply command_ok | apply onRegion_ok | apply onRegions_ok | apply OkO.ite) | with_reducible (intro _) | with_reducible (first | assumption | apply setCq_ok | apply at_ok | apply log_ok | apply bump_ok | apply ifUnit_ok | apply sqTail_ok | apply Ok.ite | apply Ok.foldl | apply Ok.elim | apply Ok.ite_fst | apply Ok.ite_snd | apply Ok.foldl_fst) | fail_if_no_progress (with_reducible apply Ok.frame <;> first | rfl | skip) | split)

theorem execMsixMessage_ok {pd : List Instr} {t : Nat} {v : Nat} {s : State} (h : Ok pd s) : OkO pd (execMsixMessage t v s) := by
  unfold execMsixMessage
  try dsimp only
  repeat' (first | with_reducible (first | apply ifUnit_ok | apply queueCmd_ok | apply Ok.outcome | apply Ok.fault | apply command_ok | apply onRegion_ok | apply onRegions_ok | apply OkO.ite) | with_reducible (intro _) | with_reducible (first | assumption | apply at_ok | apply emit_ok | apply ifUnit_ok | apply Ok.ite | apply Ok.foldl | apply Ok.elim | apply Ok.ite_fst | apply Ok.ite_snd | apply Ok.foldl_fst) | fail_if_no_progress (with_reducible apply Ok.frame <;> first | rfl | skip) | split)

end Sys2Proof.Machine
end

