-- ==== Sys2Proof/Laws/OkFabric.lean ====
section
/-! SUPPORT. Every operation of Machine/Fabric.lean keeps the queue and every bounded field. -/

namespace Sys2Proof.Machine

set_option linter.unusedTactic false
set_option linter.unreachableTactic false

theorem spWordBE_ok {pd : List Instr} {s : State} {a : Nat} {be : Nat} {v : Nat} (h : Ok pd s) : Ok pd (State.spWordBE s a be v) := by
  unfold State.spWordBE
  try dsimp only
  repeat' (first | (intro _) | with_reducible (first | assumption | apply spWrite_ok | apply Ok.ite | apply Ok.foldl | apply Ok.elim | apply Ok.ite_fst | apply Ok.ite_snd | apply Ok.foldl_fst) | fail_if_no_progress (with_reducible apply Ok.frame <;> first | rfl | skip) | split)

theorem spPut_ok {pd : List Instr} {s : State} {a : Nat} {v : Nat} (h : Ok pd s) : Ok pd (State.spPut s a v) := by
  unfold State.spPut
  try dsimp only
  repeat' (first | (intro _) | with_reducible (first | assumption | apply spWrite_ok | apply Ok.ite | apply Ok.foldl | apply Ok.elim | apply Ok.ite_fst | apply Ok.ite_snd | apply Ok.foldl_fst) | fail_if_no_progress (with_reducible apply Ok.frame <;> first | rfl | skip) | split)

theorem spCorrected_ok {pd : List Instr} {s : State} {a : Nat} (h : Ok pd s) : Ok pd (State.spCorrected s a) := by
  unfold State.spCorrected
  try dsimp only
  repeat' (first | (intro _) | with_reducible (first | assumption | apply bump_ok | apply Ok.ite | apply Ok.foldl | apply Ok.elim | apply Ok.ite_fst | apply Ok.ite_snd | apply Ok.foldl_fst) | fail_if_no_progress (with_reducible apply Ok.frame <;> first | rfl | skip) | split)

theorem spUncorrectable_ok {pd : List Instr} {s : State} {a : Nat} (h : Ok pd s) : Ok pd (State.spUncorrectable s a) := by
  unfold State.spUncorrectable
  try dsimp only
  repeat' (first | (intro _) | with_reducible (first | assumption | apply log_ok | apply bump_ok | apply Ok.ite | apply Ok.foldl | apply Ok.elim | apply Ok.ite_fst | apply Ok.ite_snd | apply Ok.foldl_fst) | fail_if_no_progress (with_reducible apply Ok.frame <;> first | rfl | skip) | split)

theorem fabReply_ok {pd : List Instr} {s : State} {b : Nat} {rdata : Nat} {err : Bool} (h : Ok pd s) : Ok pd (State.fabReply s b rdata err) := by
  unfold State.fabReply
  try dsimp only
  repeat' (first | (intro _) | with_reducible (first | assumption | apply emit_ok | apply Ok.ite | apply Ok.foldl | apply Ok.elim | apply Ok.ite_fst | apply Ok.ite_snd | apply Ok.foldl_fst) | fail_if_no_progress (with_reducible apply Ok.frame <;> first | rfl | skip) | split)

theorem fabReplyFree_ok {pd : List Instr} {s : State} {b : Nat} {err : Bool} (h : Ok pd s) : Ok pd (State.fabReplyFree s b err) := by
  unfold State.fabReplyFree
  try dsimp only
  repeat' (first | (intro _) | with_reducible (first | assumption | apply fresh_ok | apply fabReply_ok | apply Ok.ite | apply Ok.foldl | apply Ok.elim | apply Ok.ite_fst | apply Ok.ite_snd | apply Ok.foldl_fst) | fail_if_no_progress (with_reducible apply Ok.frame <;> first | rfl | skip) | split)

theorem fabServe_ok {pd : List Instr} {s : State} {b : Nat} {op : Nat} {addr : Nat} {be : Nat} {wdata : Nat} {ecc : Nat} (h : Ok pd s) : Ok pd (State.fabServe s b op addr be wdata ecc) := by
  unfold State.fabServe
  try dsimp only
  repeat' (first | (intro _) | with_reducible (first | assumption | apply bump_ok | apply spWordBE_ok | apply spPut_ok | apply spCorrected_ok | apply spUncorrectable_ok | apply fabReply_ok | apply fabReplyFree_ok | apply Ok.ite | apply Ok.foldl | apply Ok.elim | apply Ok.ite_fst | apply Ok.ite_snd | apply Ok.foldl_fst) | fail_if_no_progress (with_reducible apply Ok.frame <;> first | rfl | skip) | split)

theorem execScratchpadFabricRequest_ok {pd : List Instr} {t : Nat} {b : Nat} {op : Nat} {addr : Nat} {be : Nat} {wdata : Word} {ecc : Nat} {s : State} (h : Ok pd s) : OkO pd (execScratchpadFabricRequest t b op addr be wdata ecc s) := by
  unfold execScratchpadFabricRequest
  try dsimp only
  repeat' (first | with_reducible (first | apply ifUnit_ok | apply queueCmd_ok | apply Ok.outcome | apply Ok.fault | apply command_ok | apply onRegion_ok | apply onRegions_ok | apply OkO.ite) | with_reducible (intro _) | with_reducible (first | assumption | apply at_ok | apply ifUnit_ok | apply fabServe_ok | apply Ok.ite | apply Ok.foldl | apply Ok.elim | apply Ok.ite_fst | apply Ok.ite_snd | apply Ok.foldl_fst) | fail_if_no_progress (with_reducible apply Ok.frame <;> first | rfl | skip) | split)

theorem execScrubWriteback_ok {pd : List Instr} {t : Nat} {b : Nat} {s : State} (h : Ok pd s) : OkO pd (execScrubWriteback t b s) := by
  unfold execScrubWriteback
  try dsimp only
  repeat' (first | with_reducible (first | apply ifUnit_ok | apply queueCmd_ok | apply Ok.outcome | apply Ok.fault | apply command_ok | apply onRegion_ok | apply onRegions_ok | apply OkO.ite) | with_reducible (intro _) | with_reducible (first | assumption | apply at_ok | apply ifUnit_ok | apply spPut_ok | apply Ok.ite | apply Ok.foldl | apply Ok.elim | apply Ok.ite_fst | apply Ok.ite_snd | apply Ok.foldl_fst) | fail_if_no_progress (with_reducible apply Ok.frame <;> first | rfl | skip) | split)

theorem countDma_ok {pd : List Instr} {s : State} {a : Nat} {len : Nat} (h : Ok pd s) : Ok pd (State.countDma s a len) := by
  unfold State.countDma
  try dsimp only
  repeat' (first | (intro _) | with_reducible (first | assumption | apply bumpN_ok | apply Ok.ite | apply Ok.foldl | apply Ok.elim | apply Ok.ite_fst | apply Ok.ite_snd | apply Ok.foldl_fst) | fail_if_no_progress (with_reducible apply Ok.frame <;> first | rfl | skip) | split)

theorem memGo_ok {pd : List Instr} {s : State} {slot : Nat} {cmd : Instr} {a : Nat} {len : Nat} {done : Nat} {granted : Nat} {bad : Option Nat} {move : Nat → State → State} (h : Ok pd s) (hf_move : ∀ y0 y1, Ok pd y1 → Ok pd (move y0 y1)) : Ok pd (State.memGo s slot cmd a len done granted bad move) := by
  unfold State.memGo
  try dsimp only
  repeat' (first | (intro _) | with_reducible (first | assumption | apply hf_move | apply final_ok | apply setWork_ok | apply spUncorrectable_ok | apply countDma_ok | apply Ok.ite | apply Ok.foldl | apply Ok.elim | apply Ok.ite_fst | apply Ok.ite_snd | apply Ok.foldl_fst) | fail_if_no_progress (with_reducible apply Ok.frame <;> first | rfl | skip) | split)

theorem memRun_ok {pd : List Instr} {s : State} {slot : Nat} {a : Bytes} {cmd : Instr} {done : Nat} (h : Ok pd s) : Ok pd (State.memRun s slot a cmd done) := by
  unfold State.memRun
  try dsimp only
  repeat' (first | (intro _) | with_reducible (first | assumption | apply spWrite_ok | apply hostWrite_ok | apply bump_ok | apply final_ok | apply setWork_ok | apply spPut_ok | apply spCorrected_ok | apply spUncorrectable_ok | apply memGo_ok | apply Ok.ite | apply Ok.foldl | apply Ok.elim | apply Ok.ite_fst | apply Ok.ite_snd | apply Ok.foldl_fst) | fail_if_no_progress (with_reducible apply Ok.frame <;> first | rfl | skip) | split)

theorem memNext_ok {pd : List Instr} {s : State} (h : Ok pd s) : Ok pd (State.memNext s) := by
  unfold State.memNext
  try dsimp only
  repeat' (first | (intro _) | with_reducible (first | assumption | apply memRun_ok | apply Ok.ite | apply Ok.foldl | apply Ok.elim | apply Ok.ite_fst | apply Ok.ite_snd | apply Ok.foldl_fst) | fail_if_no_progress (with_reducible apply Ok.frame <;> first | rfl | skip) | split)

theorem bodyMemCopy_ok {pd : List Instr} {cmd : Instr} {slot : Nat} {a : Bytes} {s : State} (h : Ok pd s) : Ok pd (bodyMemCopy cmd slot a s) := by
  unfold bodyMemCopy
  try dsimp only
  repeat' (first | (intro _) | with_reducible (first | assumption | apply final_ok | apply memRun_ok | apply memNext_ok | apply Ok.ite | apply Ok.foldl | apply Ok.elim | apply Ok.ite_fst | apply Ok.ite_snd | apply Ok.foldl_fst) | fail_if_no_progress (with_reducible apply Ok.frame <;> first | rfl | skip) | split)

theorem execMemCopyIn_ok {pd : List Instr} {d : Desc} {data : Bytes} {granted : Nat} {s : State} (h : Ok pd s) : OkO pd (execMemCopyIn d data granted s) := by
  unfold execMemCopyIn
  try dsimp only
  repeat' (first | with_reducible (first | apply ifUnit_ok | apply queueCmd_ok | apply Ok.outcome | apply Ok.fault | apply command_ok | apply onRegion_ok | apply onRegions_ok | apply OkO.ite) | with_reducible (intro _) | with_reducible (first | assumption | apply command_ok | apply queueCmd_ok | apply bodyMemCopy_ok | apply Ok.ite | apply Ok.foldl | apply Ok.elim | apply Ok.ite_fst | apply Ok.ite_snd | apply Ok.foldl_fst) | fail_if_no_progress (with_reducible apply Ok.frame <;> first | rfl | skip) | split)

theorem execMemCopyOut_ok {pd : List Instr} {d : Desc} {granted : Nat} {bad : Option Nat} {fixed : List Nat} {s : State} (h : Ok pd s) : OkO pd (execMemCopyOut d granted bad fixed s) := by
  unfold execMemCopyOut
  try dsimp only
  repeat' (first | with_reducible (first | apply ifUnit_ok | apply queueCmd_ok | apply Ok.outcome | apply Ok.fault | apply command_ok | apply onRegion_ok | apply onRegions_ok | apply OkO.ite) | with_reducible (intro _) | with_reducible (first | assumption | apply command_ok | apply queueCmd_ok | apply bodyMemCopy_ok | apply Ok.ite | apply Ok.foldl | apply Ok.elim | apply Ok.ite_fst | apply Ok.ite_snd | apply Ok.foldl_fst) | fail_if_no_progress (with_reducible apply Ok.frame <;> first | rfl | skip) | split)

theorem bodyMemAtomic_ok {pd : List Instr} {cmd : Instr} {slot : Nat} {a : Bytes} {s : State} (h : Ok pd s) : Ok pd (bodyMemAtomic cmd slot a s) := by
  unfold bodyMemAtomic
  try dsimp only
  repeat' (first | (intro _) | with_reducible (first | assumption | apply final_ok | apply memRun_ok | apply memNext_ok | apply Ok.ite | apply Ok.foldl | apply Ok.elim | apply Ok.ite_fst | apply Ok.ite_snd | apply Ok.foldl_fst) | fail_if_no_progress (with_reducible apply Ok.frame <;> first | rfl | skip) | split)

theorem execMemAtomic_ok {pd : List Instr} {d : Desc} {granted : Bool} {ecc : Nat} {s : State} (h : Ok pd s) : OkO pd (execMemAtomic d granted ecc s) := by
  unfold execMemAtomic
  try dsimp only
  repeat' (first | with_reducible (first | apply ifUnit_ok | apply queueCmd_ok | apply Ok.outcome | apply Ok.fault | apply command_ok | apply onRegion_ok | apply onRegions_ok | apply OkO.ite) | with_reducible (intro _) | with_reducible (first | assumption | apply command_ok | apply queueCmd_ok | apply bodyMemAtomic_ok | apply Ok.ite | apply Ok.foldl | apply Ok.elim | apply Ok.ite_fst | apply Ok.ite_snd | apply Ok.foldl_fst) | fail_if_no_progress (with_reducible apply Ok.frame <;> first | rfl | skip) | split)

theorem execDmaTimeout_ok {pd : List Instr} {t : Nat} {slot : Nat} {s : State} (h : Ok pd s) : OkO pd (execDmaTimeout t slot s) := by
  unfold execDmaTimeout
  try dsimp only
  repeat' (first | with_reducible (first | apply ifUnit_ok | apply queueCmd_ok | apply Ok.outcome | apply Ok.fault | apply command_ok | apply onRegion_ok | apply onRegions_ok | apply OkO.ite) | with_reducible (intro _) | with_reducible (first | assumption | apply at_ok | apply log_ok | apply bump_ok | apply final_ok | apply memNext_ok | apply Ok.ite | apply Ok.foldl | apply Ok.elim | apply Ok.ite_fst | apply Ok.ite_snd | apply Ok.foldl_fst) | fail_if_no_progress (with_reducible apply Ok.frame <;> first | rfl | skip) | split)

theorem memResume_ok {pd : List Instr} {s : State} {b : Nat} (h : Ok pd s) : Ok pd (State.memResume s b) := by
  unfold State.memResume
  try dsimp only
  repeat' (first | (intro _) | with_reducible (first | assumption | apply fabServe_ok | apply memNext_ok | apply Ok.ite | apply Ok.foldl | apply Ok.elim | apply Ok.ite_fst | apply Ok.ite_snd | apply Ok.foldl_fst) | fail_if_no_progress (with_reducible apply Ok.frame <;> first | rfl | skip) | split)

theorem startReadback_ok {pd : List Instr} {s : State} {id : Nat} {scope : Nat} {idx : Nat} {time : Nat} {addr : Nat} (h : Ok pd s) : Ok pd (State.startReadback s id scope idx time addr) := by
  unfold State.startReadback
  try dsimp only
  repeat' (first | (intro _) | with_reducible (first | assumption | apply Ok.ite | apply Ok.foldl | apply Ok.elim | apply Ok.ite_fst | apply Ok.ite_snd | apply Ok.foldl_fst) | fail_if_no_progress (with_reducible apply Ok.frame <;> first | rfl | skip) | split)

theorem bodyReadback_ok {pd : List Instr} {slot : Nat} {a : Bytes} {s : State} (h : Ok pd s) : Ok pd (bodyReadback slot a s) := by
  unfold bodyReadback
  try dsimp only
  repeat' (first | (intro _) | with_reducible (first | assumption | apply final_ok | apply setWork_ok | apply startReadback_ok | apply Ok.ite | apply Ok.foldl | apply Ok.elim | apply Ok.ite_fst | apply Ok.ite_snd | apply Ok.foldl_fst) | fail_if_no_progress (with_reducible apply Ok.frame <;> first | rfl | skip) | split)

theorem execReadback_ok {pd : List Instr} {d : Desc} {s : State} (h : Ok pd s) : OkO pd (execReadback d s) := by
  unfold execReadback
  try dsimp only
  repeat' (first | with_reducible (first | apply ifUnit_ok | apply queueCmd_ok | apply Ok.outcome | apply Ok.fault | apply command_ok | apply onRegion_ok | apply onRegions_ok | apply OkO.ite) | with_reducible (intro _) | with_reducible (first | assumption | apply command_ok | apply queueCmd_ok | apply bodyReadback_ok | apply Ok.ite | apply Ok.foldl | apply Ok.elim | apply Ok.ite_fst | apply Ok.ite_snd | apply Ok.foldl_fst) | fail_if_no_progress (with_reducible apply Ok.frame <;> first | rfl | skip) | split)

theorem setReadback_ok {pd : List Instr} {s : State} {id : Nat} {v : Option Readback} (h : Ok pd s) : Ok pd (State.setReadback s id v) := by
  unfold State.setReadback
  try dsimp only
  repeat' (first | (intro _) | with_reducible (first | assumption | apply Ok.ite | apply Ok.foldl | apply Ok.elim | apply Ok.ite_fst | apply Ok.ite_snd | apply Ok.foldl_fst) | fail_if_no_progress (with_reducible apply Ok.frame <;> first | rfl | skip) | split)

theorem stopNext_ok {pd : List Instr} {s : State} {r : Readback} {regions : List Nat} (h : Ok pd s) : Ok pd (State.stopNext s r regions) := by
  unfold State.stopNext
  try dsimp only
  repeat' (first | (intro _) | with_reducible (first | assumption | apply setBlock_ok | apply Ok.ite | apply Ok.foldl | apply Ok.elim | apply Ok.ite_fst | apply Ok.ite_snd | apply Ok.foldl_fst) | fail_if_no_progress (with_reducible apply Ok.frame <;> first | rfl | skip) | split)

theorem copyTree_ok {pd : List Instr} {s : State} {blocks : List Nat} {g : Nat} (h : Ok pd s) : Ok pd (State.copyTree s blocks g) := by
  unfold State.copyTree
  try dsimp only
  repeat' (first | (intro _) | with_reducible (first | assumption | apply Ok.ite | apply Ok.foldl | apply Ok.elim | apply Ok.ite_fst | apply Ok.ite_snd | apply Ok.foldl_fst) | fail_if_no_progress (with_reducible apply Ok.frame <;> first | rfl | skip) | split)

theorem runLogic_ok {pd : List Instr} {s : State} {r : Readback} {edges : List (Nat × Nat × List (Nat × Nat))} (h : Ok pd s) : Ok pd (State.runLogic s r edges) := by
  unfold State.runLogic
  try dsimp only
  repeat' (first | (intro _) | with_reducible (first | assumption | apply clockEdge_ok | apply copyTree_ok | apply Ok.ite | apply Ok.foldl | apply Ok.elim | apply Ok.ite_fst | apply Ok.ite_snd | apply Ok.foldl_fst) | fail_if_no_progress (with_reducible apply Ok.frame <;> first | rfl | skip) | split)

theorem execReadbackCapture_ok {pd : List Instr} {t : Nat} {id : Nat} {edges : List (Nat × Nat × List (Nat × Nat))} {s : State} (h : Ok pd s) : OkO pd (execReadbackCapture t id edges s) := by
  unfold execReadbackCapture
  try dsimp only
  repeat' (first | with_reducible (first | apply ifUnit_ok | apply queueCmd_ok | apply Ok.outcome | apply Ok.fault | apply command_ok | apply onRegion_ok | apply onRegions_ok | apply OkO.ite) | with_reducible (intro _) | with_reducible (first | assumption | apply at_ok | apply setReadback_ok | apply stopNext_ok | apply runLogic_ok | apply Ok.ite | apply Ok.foldl | apply Ok.elim | apply Ok.ite_fst | apply Ok.ite_snd | apply Ok.foldl_fst) | fail_if_no_progress (with_reducible apply Ok.frame <;> first | rfl | skip) | split)

theorem execReadbackBlockDone_ok {pd : List Instr} {t : Nat} {id : Nat} {b : Nat} {s : State} (h : Ok pd s) : OkO pd (execReadbackBlockDone t id b s) := by
  unfold execReadbackBlockDone
  try dsimp only
  repeat' (first | with_reducible (first | apply ifUnit_ok | apply queueCmd_ok | apply Ok.outcome | apply Ok.fault | apply command_ok | apply onRegion_ok | apply onRegions_ok | apply OkO.ite) | with_reducible (intro _) | with_reducible (first | assumption | apply setBlock_ok | apply at_ok | apply emit_ok | apply hostWrite_ok | apply final_ok | apply memResume_ok | apply setReadback_ok | apply stopNext_ok | apply Ok.ite | apply Ok.foldl | apply Ok.elim | apply Ok.ite_fst | apply Ok.ite_snd | apply Ok.foldl_fst) | fail_if_no_progress (with_reducible apply Ok.frame <;> first | rfl | skip) | split)

theorem lcArg_ok {pd : List Instr} {s : State} {l : Option Nat} (h : Ok pd s) : Ok pd (State.lcArg s l).2 := by
  unfold State.lcArg
  try dsimp only
  repeat' (first | (intro _) | with_reducible (first | assumption | apply fresh_ok | apply Ok.ite | apply Ok.foldl | apply Ok.elim | apply Ok.ite_fst | apply Ok.ite_snd | apply Ok.foldl_fst) | fail_if_no_progress (with_reducible apply Ok.frame <;> first | rfl | skip) | split)

theorem execFabricContention_ok {pd : List Instr} {t : Nat} {k : Nat} {wire : Nat} {s : State} (h : Ok pd s) : OkO pd (execFabricContention t k wire s) := by
  unfold execFabricContention
  try dsimp only
  repeat' (first | with_reducible (first | apply ifUnit_ok | apply queueCmd_ok | apply Ok.outcome | apply Ok.fault | apply command_ok | apply onRegion_ok | apply onRegions_ok | apply OkO.ite) | with_reducible (intro _) | with_reducible (first | assumption | apply at_ok | apply log_ok | apply bump_ok | apply ifUnit_ok | apply setLed_ok | apply lcArg_ok | apply Ok.ite | apply Ok.foldl | apply Ok.elim | apply Ok.ite_fst | apply Ok.ite_snd | apply Ok.foldl_fst) | fail_if_no_progress (with_reducible apply Ok.frame <;> first | rfl | skip) | split)

end Sys2Proof.Machine
end

