-- ==== Sys2Proof/Laws/OkClocks.lean ====
section
/-! SUPPORT. Every operation of Machine/Clocks.lean keeps the queue and every bounded field. -/

namespace Sys2Proof.Machine

set_option linter.unusedTactic false
set_option linter.unreachableTactic false

theorem treesChanged_ok {pd : List Instr} {old s : State} (h : Ok pd s) : Ok pd (State.treesChanged old s) := by
  unfold State.treesChanged
  exact busStopped_ok h

theorem writeUpll_ok {pd : List Instr} {s : State} {n : Nat} {v : Nat} (h : Ok pd s) : Ok pd (State.writeUpll s n v) := by
  unfold State.writeUpll
  try dsimp only
  repeat' (first | (intro _) | with_reducible (first | assumption | apply setUpll_ok | apply treesChanged_ok | apply Ok.ite | apply Ok.foldl | apply Ok.elim | apply Ok.ite_fst | apply Ok.ite_snd | apply Ok.foldl_fst) | fail_if_no_progress (with_reducible apply Ok.frame <;> first | rfl | skip) | split)

theorem execUpllEnable_ok {pd : List Instr} {t : Nat} {n : Nat} {value : Word} {s : State} (h : Ok pd s) : OkO pd (execUpllEnable t n value s) := by
  unfold execUpllEnable
  try dsimp only
  repeat' (first | with_reducible (first | apply ifUnit_ok | apply queueCmd_ok | apply Ok.outcome | apply Ok.fault | apply command_ok | apply onRegion_ok | apply onRegions_ok | apply OkO.ite) | with_reducible (intro _) | with_reducible (first | assumption | apply at_ok | apply ifUnit_ok | apply writeUpll_ok | apply Ok.ite | apply Ok.foldl | apply Ok.elim | apply Ok.ite_fst | apply Ok.ite_snd | apply Ok.foldl_fst) | fail_if_no_progress (with_reducible apply Ok.frame <;> first | rfl | skip) | split)

theorem execUpllLock_ok {pd : List Instr} {t : Nat} {n : Nat} {s : State} (h : Ok pd s) : OkO pd (execUpllLock t n s) := by
  unfold execUpllLock
  try dsimp only
  repeat' (first | with_reducible (first | apply ifUnit_ok | apply queueCmd_ok | apply Ok.outcome | apply Ok.fault | apply command_ok | apply onRegion_ok | apply onRegions_ok | apply OkO.ite) | with_reducible (intro _) | with_reducible (first | assumption | apply setUpll_ok | apply at_ok | apply ifUnit_ok | apply Ok.ite | apply Ok.foldl | apply Ok.elim | apply Ok.ite_fst | apply Ok.ite_snd | apply Ok.foldl_fst) | fail_if_no_progress (with_reducible apply Ok.frame <;> first | rfl | skip) | split)

theorem writeGckctl_ok {pd : List Instr} {s : State} {g : Nat} {v : Nat} (h : Ok pd s) : Ok pd (State.writeGckctl s g v) := by
  unfold State.writeGckctl
  try dsimp only
  repeat' (first | (intro _) | with_reducible (first | assumption | apply setGck_ok | apply treesChanged_ok | apply Ok.ite | apply Ok.foldl | apply Ok.elim | apply Ok.ite_fst | apply Ok.ite_snd | apply Ok.foldl_fst) | fail_if_no_progress (with_reducible apply Ok.frame <;> first | rfl | skip) | split)

theorem writeGckfreq_ok {pd : List Instr} {s : State} {g : Nat} {v : Nat} (h : Ok pd s) : Ok pd (State.writeGckfreq s g v) := by
  unfold State.writeGckfreq
  try dsimp only
  repeat' (first | (intro _) | with_reducible (first | assumption | apply setGck_ok | apply Ok.ite | apply Ok.foldl | apply Ok.elim | apply Ok.ite_fst | apply Ok.ite_snd | apply Ok.foldl_fst) | fail_if_no_progress (with_reducible apply Ok.frame <;> first | rfl | skip) | split)

theorem execGckSetup_ok {pd : List Instr} {t : Nat} {g : Nat} {freqReg : Bool} {value : Word} {s : State} (h : Ok pd s) : OkO pd (execGckSetup t g freqReg value s) := by
  unfold execGckSetup
  try dsimp only
  repeat' (first | with_reducible (first | apply ifUnit_ok | apply queueCmd_ok | apply Ok.outcome | apply Ok.fault | apply command_ok | apply onRegion_ok | apply onRegions_ok | apply OkO.ite) | with_reducible (intro _) | with_reducible (first | assumption | apply at_ok | apply ifUnit_ok | apply writeGckctl_ok | apply writeGckfreq_ok | apply Ok.ite | apply Ok.foldl | apply Ok.elim | apply Ok.ite_fst | apply Ok.ite_snd | apply Ok.foldl_fst) | fail_if_no_progress (with_reducible apply Ok.frame <;> first | rfl | skip) | split)

theorem execGckLoss_ok {pd : List Instr} {t : Nat} {g : Nat} {khz : Nat} {s : State} (h : Ok pd s) : OkO pd (execGckLoss t g khz s) := by
  unfold execGckLoss
  try dsimp only
  repeat' (first | with_reducible (first | apply ifUnit_ok | apply queueCmd_ok | apply Ok.outcome | apply Ok.fault | apply command_ok | apply onRegion_ok | apply onRegions_ok | apply OkO.ite) | with_reducible (intro _) | with_reducible (first | assumption | apply setGck_ok | apply at_ok | apply log_ok | apply bump_ok | apply ifUnit_ok | apply treesChanged_ok | apply Ok.ite | apply Ok.foldl | apply Ok.elim | apply Ok.ite_fst | apply Ok.ite_snd | apply Ok.foldl_fst) | fail_if_no_progress (with_reducible apply Ok.frame <;> first | rfl | skip) | split)

theorem execGckRestored_ok {pd : List Instr} {t : Nat} {g : Nat} {khz : Nat} {s : State} (h : Ok pd s) : OkO pd (execGckRestored t g khz s) := by
  unfold execGckRestored
  try dsimp only
  repeat' (first | with_reducible (first | apply ifUnit_ok | apply queueCmd_ok | apply Ok.outcome | apply Ok.fault | apply command_ok | apply onRegion_ok | apply onRegions_ok | apply OkO.ite) | with_reducible (intro _) | with_reducible (first | assumption | apply setGck_ok | apply at_ok | apply log_ok | apply ifUnit_ok | apply Ok.ite | apply Ok.foldl | apply Ok.elim | apply Ok.ite_fst | apply Ok.ite_snd | apply Ok.foldl_fst) | fail_if_no_progress (with_reducible apply Ok.frame <;> first | rfl | skip) | split)

theorem execResetTreeAssert_ok {pd : List Instr} {t : Nat} {g : Nat} {s : State} (h : Ok pd s) : OkO pd (execResetTreeAssert t g s) := by
  unfold execResetTreeAssert
  try dsimp only
  repeat' (first | with_reducible (first | apply ifUnit_ok | apply queueCmd_ok | apply Ok.outcome | apply Ok.fault | apply command_ok | apply onRegion_ok | apply onRegions_ok | apply OkO.ite) | with_reducible (intro _) | with_reducible (first | assumption | apply setGck_ok | apply at_ok | apply ifUnit_ok | apply setFF_ok | apply Ok.ite | apply Ok.foldl | apply Ok.elim | apply Ok.ite_fst | apply Ok.ite_snd | apply Ok.foldl_fst) | fail_if_no_progress (with_reducible apply Ok.frame <;> first | rfl | skip) | split)

theorem execResetTreeDeassert_ok {pd : List Instr} {t : Nat} {g : Nat} {s : State} (h : Ok pd s) : OkO pd (execResetTreeDeassert t g s) := by
  unfold execResetTreeDeassert
  try dsimp only
  repeat' (first | with_reducible (first | apply ifUnit_ok | apply queueCmd_ok | apply Ok.outcome | apply Ok.fault | apply command_ok | apply onRegion_ok | apply onRegions_ok | apply OkO.ite) | with_reducible (intro _) | with_reducible (first | assumption | apply setGck_ok | apply at_ok | apply ifUnit_ok | apply Ok.ite | apply Ok.foldl | apply Ok.elim | apply Ok.ite_fst | apply Ok.ite_snd | apply Ok.foldl_fst) | fail_if_no_progress (with_reducible apply Ok.frame <;> first | rfl | skip) | split)

theorem writeRefctl_ok {pd : List Instr} {s : State} {v : Nat} (h : Ok pd s) : Ok pd (State.writeRefctl s v) := by
  unfold State.writeRefctl
  by_cases c : 1 < bits v 0 2
  · rw [if_pos c]; exact h
  · rw [if_neg c]
    refine treesChanged_ok (Ok.foldl (h.clk h.2.2.2.2.2.2.2.2.2.2.2.2.1 (Nat.le_of_not_lt c)) fun s n hs => ?_)
    exact setUpll_ok hs

theorem execReferenceSelect_ok {pd : List Instr} {t : Nat} {value : Word} {s : State} (h : Ok pd s) : OkO pd (execReferenceSelect t value s) := by
  unfold execReferenceSelect
  try dsimp only
  repeat' (first | with_reducible (first | apply ifUnit_ok | apply queueCmd_ok | apply Ok.outcome | apply Ok.fault | apply command_ok | apply onRegion_ok | apply onRegions_ok | apply OkO.ite) | with_reducible (intro _) | with_reducible (first | assumption | apply at_ok | apply writeRefctl_ok | apply Ok.ite | apply Ok.foldl | apply Ok.elim | apply Ok.ite_fst | apply Ok.ite_snd | apply Ok.foldl_fst) | fail_if_no_progress (with_reducible apply Ok.frame <;> first | rfl | skip) | split)

theorem loseRef_ok {pd : List Instr} {s : State} (h : Ok pd s) : Ok pd (State.loseRef s) := by
  unfold State.loseRef
  try dsimp only
  repeat' (first | (intro _) | with_reducible (first | assumption | apply log_ok | apply bump_ok | apply Ok.ite | apply Ok.foldl | apply Ok.elim | apply Ok.ite_fst | apply Ok.ite_snd | apply Ok.foldl_fst) | fail_if_no_progress (with_reducible apply Ok.frame <;> first | rfl | skip) | split)

theorem execRefLost_ok {pd : List Instr} {t : Nat} {s : State} (h : Ok pd s) : OkO pd (execRefLost t s) := by
  unfold execRefLost
  try dsimp only
  repeat' (first | with_reducible (first | apply ifUnit_ok | apply queueCmd_ok | apply Ok.outcome | apply Ok.fault | apply command_ok | apply onRegion_ok | apply onRegions_ok | apply OkO.ite) | with_reducible (intro _) | with_reducible (first | assumption | apply at_ok | apply loseRef_ok | apply Ok.ite | apply Ok.foldl | apply Ok.elim | apply Ok.ite_fst | apply Ok.ite_snd | apply Ok.foldl_fst) | fail_if_no_progress (with_reducible apply Ok.frame <;> first | rfl | skip) | split)

theorem execRefRestored_ok {pd : List Instr} {t : Nat} {s : State} (h : Ok pd s) : OkO pd (execRefRestored t s) := by
  unfold execRefRestored
  try dsimp only
  repeat' (first | with_reducible (first | apply ifUnit_ok | apply queueCmd_ok | apply Ok.outcome | apply Ok.fault | apply command_ok | apply onRegion_ok | apply onRegions_ok | apply OkO.ite) | with_reducible (intro _) | with_reducible (first | assumption | apply at_ok | apply Ok.ite | apply Ok.foldl | apply Ok.elim | apply Ok.ite_fst | apply Ok.ite_snd | apply Ok.foldl_fst) | fail_if_no_progress (with_reducible apply Ok.frame <;> first | rfl | skip) | split)

theorem execTimebaseUpdate_ok {pd : List Instr} {t : Nat} {s : State} (h : Ok pd s) : OkO pd (execTimebaseUpdate t s) := by
  unfold execTimebaseUpdate
  try dsimp only
  repeat' (first | with_reducible (first | apply ifUnit_ok | apply queueCmd_ok | apply Ok.outcome | apply Ok.fault | apply command_ok | apply onRegion_ok | apply onRegions_ok | apply OkO.ite) | with_reducible (intro _) | with_reducible (first | assumption | apply at_ok | apply Ok.ite | apply Ok.foldl | apply Ok.elim | apply Ok.ite_fst | apply Ok.ite_snd | apply Ok.foldl_fst) | fail_if_no_progress (with_reducible apply Ok.frame <;> first | rfl | skip) | split)

theorem stepped_ok {pd : List Instr} {s : State} {old : Nat} (h : Ok pd s) : Ok pd (State.stepped s old) := by
  unfold State.stepped
  try dsimp only
  repeat' (first | (intro _) | with_reducible (first | assumption | apply setConv_ok | apply setDac_ok | apply setCmp_ok | apply Ok.ite | apply Ok.foldl | apply Ok.elim | apply Ok.ite_fst | apply Ok.ite_snd | apply Ok.foldl_fst) | fail_if_no_progress (with_reducible apply Ok.frame <;> first | rfl | skip) | split)

theorem loadTb_ok {pd : List Instr} {s : State} (h : Ok pd s) : Ok pd (State.loadTb s).1 := by
  have h1 : Ok pd { s with
      time := { s.time with timebase := (s.clk.tbPreset + Config.syncLatency) % 2 ^ 64 },
      clk := { s.clk with syncLast := (s.clk.tbPreset + Config.syncLatency) % 2 ^ 64 } } :=
    (h.time (c := { s.time with timebase := (s.clk.tbPreset + Config.syncLatency) % 2 ^ 64 }) (Nat.mod_lt _ (by decide)) h.2.2.1).frame
      rfl rfl rfl rfl rfl rfl rfl rfl rfl rfl rfl rfl rfl rfl
  exact Ok.ite h1 (stepped_ok h1)

theorem checkSync_ok {pd : List Instr} {s : State} (h : Ok pd s) : Ok pd (State.checkSync s) := by
  unfold State.checkSync
  try dsimp only
  repeat' (first | (intro _) | with_reducible (first | assumption | apply log_ok | apply bump_ok | apply Ok.ite | apply Ok.foldl | apply Ok.elim | apply Ok.ite_fst | apply Ok.ite_snd | apply Ok.foldl_fst) | fail_if_no_progress (with_reducible apply Ok.frame <;> first | rfl | skip) | split)

theorem execSyncInEdge_ok {pd : List Instr} {t : Nat} {s : State} (h : Ok pd s) : OkO pd (execSyncInEdge t s) := by
  have h1 : Ok pd (s.at t) := at_ok h
  unfold execSyncInEdge
  refine Ok.outcome (Ok.ite h1 (Ok.ite (Ok.ite (checkSync_ok h1) (log_ok ?_)) ?_))
  · exact (loadTb_ok h1).frame rfl rfl rfl rfl rfl rfl rfl rfl rfl rfl rfl rfl rfl rfl
  · have h2 := loadTb_ok h1
    dsimp only
    split
    · have h3 := h2.clk (c := { (s.at t).loadTb.1.clk with syncMode := 2 }) (Nat.le_refl 2) h2.2.2.2.2.2.2.2.2.2.2.2.2.2
      exact Ok.ite h3 (log_ok h3)
    · exact checkSync_ok h1
    · exact h1

theorem execSyncInMissing_ok {pd : List Instr} {t : Nat} {s : State} (h : Ok pd s) : OkO pd (execSyncInMissing t s) := by
  unfold execSyncInMissing
  try dsimp only
  repeat' (first | with_reducible (first | apply ifUnit_ok | apply queueCmd_ok | apply Ok.outcome | apply Ok.fault | apply command_ok | apply onRegion_ok | apply onRegions_ok | apply OkO.ite) | with_reducible (intro _) | with_reducible (first | assumption | apply at_ok | apply log_ok | apply bump_ok | apply Ok.ite | apply Ok.foldl | apply Ok.elim | apply Ok.ite_fst | apply Ok.ite_snd | apply Ok.foldl_fst) | fail_if_no_progress (with_reducible apply Ok.frame <;> first | rfl | skip) | split)

theorem execTimebaseRephase_ok {pd : List Instr} {t : Nat} {s : State} (h : Ok pd s) : OkO pd (execTimebaseRephase t s) := by
  unfold execTimebaseRephase
  try dsimp only
  repeat' (first | with_reducible (first | apply ifUnit_ok | apply queueCmd_ok | apply Ok.outcome | apply Ok.fault | apply command_ok | apply onRegion_ok | apply onRegions_ok | apply OkO.ite) | with_reducible (intro _) | with_reducible (first | assumption | apply setConv_ok | apply at_ok | apply settleConv_ok | apply Ok.ite | apply Ok.foldl | apply Ok.elim | apply Ok.ite_fst | apply Ok.ite_snd | apply Ok.foldl_fst) | fail_if_no_progress (with_reducible apply Ok.frame <;> first | rfl | skip) | split)

theorem writeSyncctl_ok {pd : List Instr} {s : State} {v : Nat} (h : Ok pd s) : Ok pd (State.writeSyncctl s v) := by
  unfold State.writeSyncctl
  by_cases c : 2 < bits v 0 2
  · rw [if_pos c]; exact h
  · rw [if_neg c]; exact h.clk (Nat.le_of_not_lt c) h.2.2.2.2.2.2.2.2.2.2.2.2.2

theorem execSyncModeWrite_ok {pd : List Instr} {t : Nat} {value : Word} {s : State} (h : Ok pd s) : OkO pd (execSyncModeWrite t value s) := by
  unfold execSyncModeWrite
  try dsimp only
  repeat' (first | with_reducible (first | apply ifUnit_ok | apply queueCmd_ok | apply Ok.outcome | apply Ok.fault | apply command_ok | apply onRegion_ok | apply onRegions_ok | apply OkO.ite) | with_reducible (intro _) | with_reducible (first | assumption | apply at_ok | apply writeSyncctl_ok | apply Ok.ite | apply Ok.foldl | apply Ok.elim | apply Ok.ite_fst | apply Ok.ite_snd | apply Ok.foldl_fst) | fail_if_no_progress (with_reducible apply Ok.frame <;> first | rfl | skip) | split)

theorem execTimebaseCompare_ok {pd : List Instr} {t : Nat} {u : Nat} {s : State} (h : Ok pd s) : OkO pd (execTimebaseCompare t u s) := by
  unfold execTimebaseCompare
  try dsimp only
  repeat' (first | with_reducible (first | apply ifUnit_ok | apply queueCmd_ok | apply Ok.outcome | apply Ok.fault | apply command_ok | apply onRegion_ok | apply onRegions_ok | apply OkO.ite) | with_reducible (intro _) | with_reducible (first | assumption | apply setCmp_ok | apply at_ok | apply emit_ok | apply ifUnit_ok | apply Ok.ite | apply Ok.foldl | apply Ok.elim | apply Ok.ite_fst | apply Ok.ite_snd | apply Ok.foldl_fst) | fail_if_no_progress (with_reducible apply Ok.frame <;> first | rfl | skip) | split)

theorem holdLo_ok {pd : List Instr} {s : State} {hi : Nat} {v : Nat} (h : Ok pd s) : Ok pd (State.holdLo s hi v) := by
  unfold State.holdLo
  try dsimp only
  repeat' (first | (intro _) | with_reducible (first | assumption | apply Ok.ite | apply Ok.foldl | apply Ok.elim | apply Ok.ite_fst | apply Ok.ite_snd | apply Ok.foldl_fst) | fail_if_no_progress (with_reducible apply Ok.frame <;> first | rfl | skip) | split)

theorem writeCmpLo_ok {pd : List Instr} {s : State} {u : Nat} {v : Nat} (h : Ok pd s) : Ok pd (State.writeCmpLo s u v) := by
  unfold State.writeCmpLo
  try dsimp only
  repeat' (first | (intro _) | with_reducible (first | assumption | apply setCmp_ok | apply holdLo_ok | apply Ok.ite | apply Ok.foldl | apply Ok.elim | apply Ok.ite_fst | apply Ok.ite_snd | apply Ok.foldl_fst) | fail_if_no_progress (with_reducible apply Ok.frame <;> first | rfl | skip) | split)

theorem writeCmpHi_ok {pd : List Instr} {s : State} {u : Nat} {v : Nat} (h : Ok pd s) : Ok pd (State.writeCmpHi s u v) := by
  unfold State.writeCmpHi
  try dsimp only
  repeat' (first | (intro _) | with_reducible (first | assumption | apply setCmp_ok | apply Ok.ite | apply Ok.foldl | apply Ok.elim | apply Ok.ite_fst | apply Ok.ite_snd | apply Ok.foldl_fst) | fail_if_no_progress (with_reducible apply Ok.frame <;> first | rfl | skip) | split)

theorem writeCmpPeriod_ok {pd : List Instr} {s : State} {u : Nat} {v : Nat} (h : Ok pd s) : Ok pd (State.writeCmpPeriod s u v) := by
  unfold State.writeCmpPeriod
  try dsimp only
  repeat' (first | (intro _) | with_reducible (first | assumption | apply setCmp_ok | apply Ok.ite | apply Ok.foldl | apply Ok.elim | apply Ok.ite_fst | apply Ok.ite_snd | apply Ok.foldl_fst) | fail_if_no_progress (with_reducible apply Ok.frame <;> first | rfl | skip) | split)

theorem writeCmpArm_ok {pd : List Instr} {s : State} {reg : Nat} {v : Nat} (h : Ok pd s) : Ok pd (State.writeCmpArm s reg v) := by
  unfold State.writeCmpArm
  try dsimp only
  repeat' (first | (intro _) | with_reducible (first | assumption | apply setCmp_ok | apply Ok.ite | apply Ok.foldl | apply Ok.elim | apply Ok.ite_fst | apply Ok.ite_snd | apply Ok.foldl_fst) | fail_if_no_progress (with_reducible apply Ok.frame <;> first | rfl | skip) | split)

theorem execCmpLoWrite_ok {pd : List Instr} {t : Nat} {u : Nat} {value : Word} {s : State} (h : Ok pd s) : OkO pd (execCmpLoWrite t u value s) := by
  unfold execCmpLoWrite
  try dsimp only
  repeat' (first | with_reducible (first | apply ifUnit_ok | apply queueCmd_ok | apply Ok.outcome | apply Ok.fault | apply command_ok | apply onRegion_ok | apply onRegions_ok | apply OkO.ite) | with_reducible (intro _) | with_reducible (first | assumption | apply at_ok | apply ifUnit_ok | apply writeCmpLo_ok | apply Ok.ite | apply Ok.foldl | apply Ok.elim | apply Ok.ite_fst | apply Ok.ite_snd | apply Ok.foldl_fst) | fail_if_no_progress (with_reducible apply Ok.frame <;> first | rfl | skip) | split)

theorem execCmpHiWrite_ok {pd : List Instr} {t : Nat} {u : Nat} {value : Word} {s : State} (h : Ok pd s) : OkO pd (execCmpHiWrite t u value s) := by
  unfold execCmpHiWrite
  try dsimp only
  repeat' (first | with_reducible (first | apply ifUnit_ok | apply queueCmd_ok | apply Ok.outcome | apply Ok.fault | apply command_ok | apply onRegion_ok | apply onRegions_ok | apply OkO.ite) | with_reducible (intro _) | with_reducible (first | assumption | apply at_ok | apply ifUnit_ok | apply writeCmpHi_ok | apply Ok.ite | apply Ok.foldl | apply Ok.elim | apply Ok.ite_fst | apply Ok.ite_snd | apply Ok.foldl_fst) | fail_if_no_progress (with_reducible apply Ok.frame <;> first | rfl | skip) | split)

theorem execCmpPeriodWrite_ok {pd : List Instr} {t : Nat} {u : Nat} {value : Word} {s : State} (h : Ok pd s) : OkO pd (execCmpPeriodWrite t u value s) := by
  unfold execCmpPeriodWrite
  try dsimp only
  repeat' (first | with_reducible (first | apply ifUnit_ok | apply queueCmd_ok | apply Ok.outcome | apply Ok.fault | apply command_ok | apply onRegion_ok | apply onRegions_ok | apply OkO.ite) | with_reducible (intro _) | with_reducible (first | assumption | apply at_ok | apply ifUnit_ok | apply writeCmpPeriod_ok | apply Ok.ite | apply Ok.foldl | apply Ok.elim | apply Ok.ite_fst | apply Ok.ite_snd | apply Ok.foldl_fst) | fail_if_no_progress (with_reducible apply Ok.frame <;> first | rfl | skip) | split)

theorem execCmpDisarm_ok {pd : List Instr} {t : Nat} {reg : Nat} {value : Word} {s : State} (h : Ok pd s) : OkO pd (execCmpDisarm t reg value s) := by
  unfold execCmpDisarm
  try dsimp only
  repeat' (first | with_reducible (first | apply ifUnit_ok | apply queueCmd_ok | apply Ok.outcome | apply Ok.fault | apply command_ok | apply onRegion_ok | apply onRegions_ok | apply OkO.ite) | with_reducible (intro _) | with_reducible (first | assumption | apply at_ok | apply ifUnit_ok | apply writeCmpArm_ok | apply Ok.ite | apply Ok.foldl | apply Ok.elim | apply Ok.ite_fst | apply Ok.ite_snd | apply Ok.foldl_fst) | fail_if_no_progress (with_reducible apply Ok.frame <;> first | rfl | skip) | split)

theorem injectNext_ok {pd : List Instr} {s : State} (h : Ok pd s) : Ok pd (State.injectNext s) := by
  unfold State.injectNext
  try dsimp only
  repeat' (first | (intro _) | with_reducible (first | assumption | apply Ok.ite | apply Ok.foldl | apply Ok.elim | apply Ok.ite_fst | apply Ok.ite_snd | apply Ok.foldl_fst) | fail_if_no_progress (with_reducible apply Ok.frame <;> first | rfl | skip) | split)

theorem bodySnapshot_ok {pd : List Instr} {slot : Nat} {a : Bytes} {s : State} (h : Ok pd s) : Ok pd (bodySnapshot slot a s) := by
  unfold bodySnapshot
  try dsimp only
  repeat' (first | (intro _) | with_reducible (first | assumption | apply final_ok | apply setWork_ok | apply injectNext_ok | apply Ok.ite | apply Ok.foldl | apply Ok.elim | apply Ok.ite_fst | apply Ok.ite_snd | apply Ok.foldl_fst) | fail_if_no_progress (with_reducible apply Ok.frame <;> first | rfl | skip) | split)

theorem execSnapshot_ok {pd : List Instr} {d : Desc} {s : State} (h : Ok pd s) : OkO pd (execSnapshot d s) := by
  unfold execSnapshot
  try dsimp only
  repeat' (first | with_reducible (first | apply ifUnit_ok | apply queueCmd_ok | apply Ok.outcome | apply Ok.fault | apply command_ok | apply onRegion_ok | apply onRegions_ok | apply OkO.ite) | with_reducible (intro _) | with_reducible (first | assumption | apply command_ok | apply queueCmd_ok | apply bodySnapshot_ok | apply Ok.ite | apply Ok.foldl | apply Ok.elim | apply Ok.ite_fst | apply Ok.ite_snd | apply Ok.foldl_fst) | fail_if_no_progress (with_reducible apply Ok.frame <;> first | rfl | skip) | split)

theorem execSheafToken_ok {pd : List Instr} {t : Nat} {u : Nat} {s : State} (h : Ok pd s) : OkO pd (execSheafToken t u s) := by
  unfold execSheafToken
  try dsimp only
  repeat' (first | with_reducible (first | apply ifUnit_ok | apply queueCmd_ok | apply Ok.outcome | apply Ok.fault | apply command_ok | apply onRegion_ok | apply onRegions_ok | apply OkO.ite) | with_reducible (intro _) | with_reducible (first | assumption | apply at_ok | apply ifUnit_ok | apply cutUnit_ok | apply Ok.ite | apply Ok.foldl | apply Ok.elim | apply Ok.ite_fst | apply Ok.ite_snd | apply Ok.foldl_fst) | fail_if_no_progress (with_reducible apply Ok.frame <;> first | rfl | skip) | split)

theorem endSnapshot_ok {pd : List Instr} {s : State} {p : Snap} {status : Nat} (h : Ok pd s) : Ok pd (State.endSnapshot s p status) := by
  unfold State.endSnapshot
  try dsimp only
  repeat' (first | (intro _) | with_reducible (first | assumption | apply hostWrite_ok | apply final_ok | apply injectNext_ok | apply Ok.ite | apply Ok.foldl | apply Ok.elim | apply Ok.ite_fst | apply Ok.ite_snd | apply Ok.foldl_fst) | fail_if_no_progress (with_reducible apply Ok.frame <;> first | rfl | skip) | split)

theorem execSnapshotComplete_ok {pd : List Instr} {t : Nat} {s : State} (h : Ok pd s) : OkO pd (execSnapshotComplete t s) := by
  unfold execSnapshotComplete
  try dsimp only
  repeat' (first | with_reducible (first | apply ifUnit_ok | apply queueCmd_ok | apply Ok.outcome | apply Ok.fault | apply command_ok | apply onRegion_ok | apply onRegions_ok | apply OkO.ite) | with_reducible (intro _) | with_reducible (first | assumption | apply at_ok | apply endSnapshot_ok | apply Ok.ite | apply Ok.foldl | apply Ok.elim | apply Ok.ite_fst | apply Ok.ite_snd | apply Ok.foldl_fst) | fail_if_no_progress (with_reducible apply Ok.frame <;> first | rfl | skip) | split)

theorem execSheafTimeout_ok {pd : List Instr} {t : Nat} {s : State} (h : Ok pd s) : OkO pd (execSheafTimeout t s) := by
  unfold execSheafTimeout
  try dsimp only
  repeat' (first | with_reducible (first | apply ifUnit_ok | apply queueCmd_ok | apply Ok.outcome | apply Ok.fault | apply command_ok | apply onRegion_ok | apply onRegions_ok | apply OkO.ite) | with_reducible (intro _) | with_reducible (first | assumption | apply at_ok | apply log_ok | apply bump_ok | apply endSnapshot_ok | apply Ok.ite | apply Ok.foldl | apply Ok.elim | apply Ok.ite_fst | apply Ok.ite_snd | apply Ok.foldl_fst) | fail_if_no_progress (with_reducible apply Ok.frame <;> first | rfl | skip) | split)

end Sys2Proof.Machine
end

