-- ==== Sys2Proof/Laws/OkPins.lean ====
section
/-! SUPPORT. Every operation of Machine/Pins.lean keeps the queue and every bounded field. -/

namespace Sys2Proof.Machine

set_option linter.unusedTactic false
set_option linter.unreachableTactic false

theorem syncTI_ok {pd : List Instr} {s : State} {gs : List Nat} (h : Ok pd s) : Ok pd (State.syncTI s gs) := by
  unfold State.syncTI
  try dsimp only
  repeat' (first | (intro _) | with_reducible (first | assumption | apply setCtl_ok | apply Ok.ite | apply Ok.foldl | apply Ok.elim | apply Ok.ite_fst | apply Ok.ite_snd | apply Ok.foldl_fst) | fail_if_no_progress (with_reducible apply Ok.frame <;> first | rfl | skip) | split)

theorem switchPin_ok {pd : List Instr} {s : State} {p : Nat} {m : Option PinMapE} (h : Ok pd s) : Ok pd (State.switchPin s p m) := by
  unfold State.switchPin
  try dsimp only
  repeat' (first | (intro _) | with_reducible (first | assumption | apply setPinS_ok | apply forceGuards_ok | apply syncTI_ok | apply Ok.ite | apply Ok.foldl | apply Ok.elim | apply Ok.ite_fst | apply Ok.ite_snd | apply Ok.foldl_fst) | fail_if_no_progress (with_reducible apply Ok.frame <;> first | rfl | skip) | split)

theorem reswitch_ok {pd : List Instr} {s : State} {ps : List Nat} (h : Ok pd s) : Ok pd (State.reswitch s ps) := by
  unfold State.reswitch
  try dsimp only
  repeat' (first | (intro _) | with_reducible (first | assumption | apply Ok.ite | apply Ok.foldl | apply Ok.elim | apply Ok.ite_fst | apply Ok.ite_snd | apply Ok.foldl_fst) | fail_if_no_progress (with_reducible apply Ok.frame <;> first | rfl | skip) | split)

theorem queueMaps_ok {pd : List Instr} {s : State} {slot : Option Nat} {l : List (Nat × PinMapE)} (h : Ok pd s) : Ok pd (State.queueMaps s slot l) := by
  unfold State.queueMaps
  try dsimp only
  repeat' (first | (intro _) | with_reducible (first | assumption | apply Ok.ite | apply Ok.foldl | apply Ok.elim | apply Ok.ite_fst | apply Ok.ite_snd | apply Ok.foldl_fst) | fail_if_no_progress (with_reducible apply Ok.frame <;> first | rfl | skip) | split)

theorem endPinMap_ok {pd : List Instr} {s : State} {slot : Option Nat} {ps : List Nat} {status : Nat} (h : Ok pd s) : Ok pd (State.endPinMap s slot ps status) := by
  unfold State.endPinMap
  try dsimp only
  repeat' (first | (intro _) | with_reducible (first | assumption | apply fresh_ok | apply log_ok | apply final_ok | apply Ok.ite | apply Ok.foldl | apply Ok.elim | apply Ok.ite_fst | apply Ok.ite_snd | apply Ok.foldl_fst) | fail_if_no_progress (with_reducible apply Ok.frame <;> first | rfl | skip) | split)

theorem stopPinMap_ok {pd : List Instr} {s : State} {slot : Nat} {status : Nat} (h : Ok pd s) : Ok pd (State.stopPinMap s slot status) := by
  unfold State.stopPinMap
  try dsimp only
  repeat' (first | (intro _) | with_reducible (first | assumption | apply endPinMap_ok | apply Ok.ite | apply Ok.foldl | apply Ok.elim | apply Ok.ite_fst | apply Ok.ite_snd | apply Ok.foldl_fst) | fail_if_no_progress (with_reducible apply Ok.frame <;> first | rfl | skip) | split)

theorem execFunctionSwitch_ok {pd : List Instr} {t : Nat} {s : State} (h : Ok pd s) : OkO pd (execFunctionSwitch t s) := by
  unfold execFunctionSwitch
  try dsimp only
  repeat' (first | with_reducible (first | apply ifUnit_ok | apply queueCmd_ok | apply Ok.outcome | apply Ok.fault | apply command_ok | apply onRegion_ok | apply onRegions_ok | apply OkO.ite) | with_reducible (intro _) | with_reducible (first | assumption | apply at_ok | apply switchPin_ok | apply endPinMap_ok | apply Ok.ite | apply Ok.foldl | apply Ok.elim | apply Ok.ite_fst | apply Ok.ite_snd | apply Ok.foldl_fst) | fail_if_no_progress (with_reducible apply Ok.frame <;> first | rfl | skip) | split)

theorem pinsToConfig_ok {pd : List Instr} {s : State} {p : PinMapE → Bool} {keep : Bool} (h : Ok pd s) : Ok pd (State.pinsToConfig s p keep) := by
  unfold State.pinsToConfig
  try dsimp only
  repeat' (first | (intro _) | with_reducible (first | assumption | apply setPinS_ok | apply syncTI_ok | apply Ok.ite | apply Ok.foldl | apply Ok.elim | apply Ok.ite_fst | apply Ok.ite_snd | apply Ok.foldl_fst) | fail_if_no_progress (with_reducible apply Ok.frame <;> first | rfl | skip) | split)

theorem bodyPinMap_ok {pd : List Instr} {entries : Bytes} {slot : Nat} {a : Bytes} {s : State} (h : Ok pd s) : Ok pd (bodyPinMap entries slot a s) := by
  unfold bodyPinMap
  try dsimp only
  repeat' (first | (intro _) | with_reducible (first | assumption | apply final_ok | apply setWork_ok | apply queueMaps_ok | apply Ok.ite | apply Ok.foldl | apply Ok.elim | apply Ok.ite_fst | apply Ok.ite_snd | apply Ok.foldl_fst) | fail_if_no_progress (with_reducible apply Ok.frame <;> first | rfl | skip) | split)

theorem execPinMap_ok {pd : List Instr} {d : Desc} {entries : Bytes} {s : State} (h : Ok pd s) : OkO pd (execPinMap d entries s) := by
  unfold execPinMap
  try dsimp only
  repeat' (first | with_reducible (first | apply ifUnit_ok | apply queueCmd_ok | apply Ok.outcome | apply Ok.fault | apply command_ok | apply onRegion_ok | apply onRegions_ok | apply OkO.ite) | with_reducible (intro _) | with_reducible (first | assumption | apply command_ok | apply queueCmd_ok | apply bodyPinMap_ok | apply Ok.ite | apply Ok.foldl | apply Ok.elim | apply Ok.ite_fst | apply Ok.ite_snd | apply Ok.foldl_fst) | fail_if_no_progress (with_reducible apply Ok.frame <;> first | rfl | skip) | split)

theorem maskedOut_ok {pd : List Instr} {s : State} {b : Nat} {word : Nat} (h : Ok pd s) : Ok pd (State.maskedOut s b word) := by
  unfold State.maskedOut
  try dsimp only
  repeat' (first | (intro _) | with_reducible (first | assumption | apply setBank_ok | apply Ok.ite | apply Ok.foldl | apply Ok.elim | apply Ok.ite_fst | apply Ok.ite_snd | apply Ok.foldl_fst) | fail_if_no_progress (with_reducible apply Ok.frame <;> first | rfl | skip) | split)

theorem bodyGpio_ok {pd : List Instr} {slot : Nat} {a : Bytes} {s : State} (h : Ok pd s) : Ok pd (bodyGpio slot a s) := by
  unfold bodyGpio
  try dsimp only
  repeat' (first | (intro _) | with_reducible (first | assumption | apply final_ok | apply maskedOut_ok | apply Ok.ite | apply Ok.foldl | apply Ok.elim | apply Ok.ite_fst | apply Ok.ite_snd | apply Ok.foldl_fst) | fail_if_no_progress (with_reducible apply Ok.frame <;> first | rfl | skip) | split)

theorem execGpioWriteMasked_ok {pd : List Instr} {d : Desc} {s : State} (h : Ok pd s) : OkO pd (execGpioWriteMasked d s) := by
  unfold execGpioWriteMasked
  try dsimp only
  repeat' (first | with_reducible (first | apply ifUnit_ok | apply queueCmd_ok | apply Ok.outcome | apply Ok.fault | apply command_ok | apply onRegion_ok | apply onRegions_ok | apply OkO.ite) | with_reducible (intro _) | with_reducible (first | assumption | apply command_ok | apply queueCmd_ok | apply bodyGpio_ok | apply Ok.ite | apply Ok.foldl | apply Ok.elim | apply Ok.ite_fst | apply Ok.ite_snd | apply Ok.foldl_fst) | fail_if_no_progress (with_reducible apply Ok.frame <;> first | rfl | skip) | split)

theorem writePinOut_ok {pd : List Instr} {s : State} {b : Nat} {v : Nat} (h : Ok pd s) : Ok pd (State.writePinOut s b v) := by
  unfold State.writePinOut
  try dsimp only
  repeat' (first | (intro _) | with_reducible (first | assumption | apply setBank_ok | apply Ok.ite | apply Ok.foldl | apply Ok.elim | apply Ok.ite_fst | apply Ok.ite_snd | apply Ok.foldl_fst) | fail_if_no_progress (with_reducible apply Ok.frame <;> first | rfl | skip) | split)

theorem execPinOut_ok {pd : List Instr} {t : Nat} {b : Nat} {value : Word} {s : State} (h : Ok pd s) : OkO pd (execPinOut t b value s) := by
  unfold execPinOut
  try dsimp only
  repeat' (first | with_reducible (first | apply ifUnit_ok | apply queueCmd_ok | apply Ok.outcome | apply Ok.fault | apply command_ok | apply onRegion_ok | apply onRegions_ok | apply OkO.ite) | with_reducible (intro _) | with_reducible (first | assumption | apply at_ok | apply ifUnit_ok | apply writePinOut_ok | apply Ok.ite | apply Ok.foldl | apply Ok.elim | apply Ok.ite_fst | apply Ok.ite_snd | apply Ok.foldl_fst) | fail_if_no_progress (with_reducible apply Ok.frame <;> first | rfl | skip) | split)

theorem execPinOutMasked_ok {pd : List Instr} {t : Nat} {b : Nat} {value : Word} {s : State} (h : Ok pd s) : OkO pd (execPinOutMasked t b value s) := by
  unfold execPinOutMasked
  try dsimp only
  repeat' (first | with_reducible (first | apply ifUnit_ok | apply queueCmd_ok | apply Ok.outcome | apply Ok.fault | apply command_ok | apply onRegion_ok | apply onRegions_ok | apply OkO.ite) | with_reducible (intro _) | with_reducible (first | assumption | apply at_ok | apply ifUnit_ok | apply maskedOut_ok | apply Ok.ite | apply Ok.foldl | apply Ok.elim | apply Ok.ite_fst | apply Ok.ite_snd | apply Ok.foldl_fst) | fail_if_no_progress (with_reducible apply Ok.frame <;> first | rfl | skip) | split)

theorem writeBank_ok {pd : List Instr} {s : State} {b : Nat} {v : Nat} (h : Ok pd s) : Ok pd (State.writeBank s b v) := by
  unfold State.writeBank
  try dsimp only
  repeat' (first | (intro _) | with_reducible (first | assumption | apply setBank_ok | apply reswitch_ok | apply Ok.ite | apply Ok.foldl | apply Ok.elim | apply Ok.ite_fst | apply Ok.ite_snd | apply Ok.foldl_fst) | fail_if_no_progress (with_reducible apply Ok.frame <;> first | rfl | skip) | split)

theorem execPinBankVccio_ok {pd : List Instr} {t : Nat} {b : Nat} {value : Word} {s : State} (h : Ok pd s) : OkO pd (execPinBankVccio t b value s) := by
  unfold execPinBankVccio
  try dsimp only
  repeat' (first | with_reducible (first | apply ifUnit_ok | apply queueCmd_ok | apply Ok.outcome | apply Ok.fault | apply command_ok | apply onRegion_ok | apply onRegions_ok | apply OkO.ite) | with_reducible (intro _) | with_reducible (first | assumption | apply at_ok | apply ifUnit_ok | apply writeBank_ok | apply Ok.ite | apply Ok.foldl | apply Ok.elim | apply Ok.ite_fst | apply Ok.ite_snd | apply Ok.foldl_fst) | fail_if_no_progress (with_reducible apply Ok.frame <;> first | rfl | skip) | split)

theorem writeDiff_ok {pd : List Instr} {s : State} {k : Nat} {v : Nat} (h : Ok pd s) : Ok pd (State.writeDiff s k v) := by
  unfold State.writeDiff
  try dsimp only
  repeat' (first | (intro _) | with_reducible (first | assumption | apply reswitch_ok | apply Ok.ite | apply Ok.foldl | apply Ok.elim | apply Ok.ite_fst | apply Ok.ite_snd | apply Ok.foldl_fst) | fail_if_no_progress (with_reducible apply Ok.frame <;> first | rfl | skip) | split)

theorem execPinDiff_ok {pd : List Instr} {t : Nat} {k : Nat} {value : Word} {s : State} (h : Ok pd s) : OkO pd (execPinDiff t k value s) := by
  unfold execPinDiff
  try dsimp only
  repeat' (first | with_reducible (first | apply ifUnit_ok | apply queueCmd_ok | apply Ok.outcome | apply Ok.fault | apply command_ok | apply onRegion_ok | apply onRegions_ok | apply OkO.ite) | with_reducible (intro _) | with_reducible (first | assumption | apply at_ok | apply ifUnit_ok | apply writeDiff_ok | apply Ok.ite | apply Ok.foldl | apply Ok.elim | apply Ok.ite_fst | apply Ok.ite_snd | apply Ok.foldl_fst) | fail_if_no_progress (with_reducible apply Ok.frame <;> first | rfl | skip) | split)

theorem execBankSupplyFault_ok {pd : List Instr} {t : Nat} {b : Nat} {mv : Nat} {s : State} (h : Ok pd s) : OkO pd (execBankSupplyFault t b mv s) := by
  unfold execBankSupplyFault
  try dsimp only
  repeat' (first | with_reducible (first | apply ifUnit_ok | apply queueCmd_ok | apply Ok.outcome | apply Ok.fault | apply command_ok | apply onRegion_ok | apply onRegions_ok | apply OkO.ite) | with_reducible (intro _) | with_reducible (first | assumption | apply setBank_ok | apply setPinS_ok | apply at_ok | apply log_ok | apply ifUnit_ok | apply syncTI_ok | apply Ok.ite | apply Ok.foldl | apply Ok.elim | apply Ok.ite_fst | apply Ok.ite_snd | apply Ok.foldl_fst) | fail_if_no_progress (with_reducible apply Ok.frame <;> first | rfl | skip) | split)

theorem execBankSupplyRestored_ok {pd : List Instr} {t : Nat} {b : Nat} {mv : Nat} {s : State} (h : Ok pd s) : OkO pd (execBankSupplyRestored t b mv s) := by
  unfold execBankSupplyRestored
  try dsimp only
  repeat' (first | with_reducible (first | apply ifUnit_ok | apply queueCmd_ok | apply Ok.outcome | apply Ok.fault | apply command_ok | apply onRegion_ok | apply onRegions_ok | apply OkO.ite) | with_reducible (intro _) | with_reducible (first | assumption | apply setBank_ok | apply setPinS_ok | apply at_ok | apply ifUnit_ok | apply reswitch_ok | apply Ok.ite | apply Ok.foldl | apply Ok.elim | apply Ok.ite_fst | apply Ok.ite_snd | apply Ok.foldl_fst) | fail_if_no_progress (with_reducible apply Ok.frame <;> first | rfl | skip) | split)

theorem execPinInputChange_ok {pd : List Instr} {t : Nat} {p : Nat} {level : Bool} {s : State} (h : Ok pd s) : OkO pd (execPinInputChange t p level s) := by
  unfold execPinInputChange
  try dsimp only
  repeat' (first | with_reducible (first | apply ifUnit_ok | apply queueCmd_ok | apply Ok.outcome | apply Ok.fault | apply command_ok | apply onRegion_ok | apply onRegions_ok | apply OkO.ite) | with_reducible (intro _) | with_reducible (first | assumption | apply setPinS_ok | apply at_ok | apply emit_ok | apply ifUnit_ok | apply level_ok | apply Ok.ite | apply Ok.foldl | apply Ok.elim | apply Ok.ite_fst | apply Ok.ite_snd | apply Ok.foldl_fst) | fail_if_no_progress (with_reducible apply Ok.frame <;> first | rfl | skip) | split)

theorem portReply_ok {pd : List Instr} {s : State} {k : Nat} {data : Nat} {err : Bool} (h : Ok pd s) : Ok pd (State.portReply s k data err) := by
  unfold State.portReply
  try dsimp only
  repeat' (first | (intro _) | with_reducible (first | assumption | apply setPort_ok | apply emit_ok | apply Ok.ite | apply Ok.foldl | apply Ok.elim | apply Ok.ite_fst | apply Ok.ite_snd | apply Ok.foldl_fst) | fail_if_no_progress (with_reducible apply Ok.frame <;> first | rfl | skip) | split)

theorem portErr_ok {pd : List Instr} {s : State} {k : Nat} (h : Ok pd s) : Ok pd (State.portErr s k) := by
  unfold State.portErr
  try dsimp only
  repeat' (first | (intro _) | with_reducible (first | assumption | apply fresh_ok | apply portReply_ok | apply Ok.ite | apply Ok.foldl | apply Ok.elim | apply Ok.ite_fst | apply Ok.ite_snd | apply Ok.foldl_fst) | fail_if_no_progress (with_reducible apply Ok.frame <;> first | rfl | skip) | split)

theorem portReq_ok {pd : List Instr} {s : State} {k : Nat} {f : State → State} (h : Ok pd s) (hf_f : ∀ y0, Ok pd y0 → Ok pd (f y0)) : OkO pd (State.portReq s k f) := by
  unfold State.portReq
  try dsimp only
  repeat' (first | with_reducible (first | apply ifUnit_ok | apply queueCmd_ok | apply Ok.outcome | apply Ok.fault | apply command_ok | apply onRegion_ok | apply onRegions_ok | apply OkO.ite) | with_reducible (intro _) | with_reducible (first | assumption | apply hf_f | apply ifUnit_ok | apply portErr_ok | apply Ok.ite | apply Ok.foldl | apply Ok.elim | apply Ok.ite_fst | apply Ok.ite_snd | apply Ok.foldl_fst) | fail_if_no_progress (with_reducible apply Ok.frame <;> first | rfl | skip) | split)

theorem execPortStatus_ok {pd : List Instr} {t : Nat} {k : Nat} {s : State} (h : Ok pd s) : OkO pd (execPortStatus t k s) := by
  unfold execPortStatus
  try dsimp only
  repeat' (first | with_reducible (first | apply ifUnit_ok | apply queueCmd_ok | apply Ok.outcome | apply Ok.fault | apply command_ok | apply onRegion_ok | apply onRegions_ok | apply portReq_ok | apply OkO.ite) | with_reducible (intro _) | with_reducible (first | assumption | apply setPort_ok | apply at_ok | apply portReply_ok | apply portReq_ok | apply Ok.ite | apply Ok.foldl | apply Ok.elim | apply Ok.ite_fst | apply Ok.ite_snd | apply Ok.foldl_fst) | fail_if_no_progress (with_reducible apply Ok.frame <;> first | rfl | skip) | split)

theorem execPortTx_ok {pd : List Instr} {t : Nat} {k : Nat} {wdata : Nat} {s : State} (h : Ok pd s) : OkO pd (execPortTx t k wdata s) := by
  unfold execPortTx
  try dsimp only
  repeat' (first | with_reducible (first | apply ifUnit_ok | apply queueCmd_ok | apply Ok.outcome | apply Ok.fault | apply command_ok | apply onRegion_ok | apply onRegions_ok | apply portReq_ok | apply OkO.ite) | with_reducible (intro _) | with_reducible (first | assumption | apply setPort_ok | apply at_ok | apply portReply_ok | apply portErr_ok | apply portReq_ok | apply Ok.ite | apply Ok.foldl | apply Ok.elim | apply Ok.ite_fst | apply Ok.ite_snd | apply Ok.foldl_fst) | fail_if_no_progress (with_reducible apply Ok.frame <;> first | rfl | skip) | split)

theorem execPortRx_ok {pd : List Instr} {t : Nat} {k : Nat} {s : State} (h : Ok pd s) : OkO pd (execPortRx t k s) := by
  unfold execPortRx
  try dsimp only
  repeat' (first | with_reducible (first | apply ifUnit_ok | apply queueCmd_ok | apply Ok.outcome | apply Ok.fault | apply command_ok | apply onRegion_ok | apply onRegions_ok | apply portReq_ok | apply OkO.ite) | with_reducible (intro _) | with_reducible (first | assumption | apply setPort_ok | apply at_ok | apply portReply_ok | apply portErr_ok | apply portReq_ok | apply Ok.ite | apply Ok.foldl | apply Ok.elim | apply Ok.ite_fst | apply Ok.ite_snd | apply Ok.foldl_fst) | fail_if_no_progress (with_reducible apply Ok.frame <;> first | rfl | skip) | split)

theorem execPortControl_ok {pd : List Instr} {t : Nat} {k : Nat} {wdata : Nat} {s : State} (h : Ok pd s) : OkO pd (execPortControl t k wdata s) := by
  unfold execPortControl
  try dsimp only
  repeat' (first | with_reducible (first | apply ifUnit_ok | apply queueCmd_ok | apply Ok.outcome | apply Ok.fault | apply command_ok | apply onRegion_ok | apply onRegions_ok | apply portReq_ok | apply OkO.ite) | with_reducible (intro _) | with_reducible (first | assumption | apply setPort_ok | apply at_ok | apply portReply_ok | apply portErr_ok | apply portReq_ok | apply Ok.ite | apply Ok.foldl | apply Ok.elim | apply Ok.ite_fst | apply Ok.ite_snd | apply Ok.foldl_fst) | fail_if_no_progress (with_reducible apply Ok.frame <;> first | rfl | skip) | split)

theorem execPortByteReceived_ok {pd : List Instr} {t : Nat} {k : Nat} {byte : Nat} {err : Bool} {s : State} (h : Ok pd s) : OkO pd (execPortByteReceived t k byte err s) := by
  unfold execPortByteReceived
  try dsimp only
  repeat' (first | with_reducible (first | apply ifUnit_ok | apply queueCmd_ok | apply Ok.outcome | apply Ok.fault | apply command_ok | apply onRegion_ok | apply onRegions_ok | apply portReq_ok | apply OkO.ite) | with_reducible (intro _) | with_reducible (first | assumption | apply setPort_ok | apply at_ok | apply ifUnit_ok | apply Ok.ite | apply Ok.foldl | apply Ok.elim | apply Ok.ite_fst | apply Ok.ite_snd | apply Ok.foldl_fst) | fail_if_no_progress (with_reducible apply Ok.frame <;> first | rfl | skip) | split)

theorem execPortByteSent_ok {pd : List Instr} {t : Nat} {k : Nat} {arbLost : Bool} {nack : Bool} {s : State} (h : Ok pd s) : OkO pd (execPortByteSent t k arbLost nack s) := by
  unfold execPortByteSent
  try dsimp only
  repeat' (first | with_reducible (first | apply ifUnit_ok | apply queueCmd_ok | apply Ok.outcome | apply Ok.fault | apply command_ok | apply onRegion_ok | apply onRegions_ok | apply portReq_ok | apply OkO.ite) | with_reducible (intro _) | with_reducible (first | assumption | apply setPort_ok | apply at_ok | apply emit_ok | apply ifUnit_ok | apply Ok.ite | apply Ok.foldl | apply Ok.elim | apply Ok.ite_fst | apply Ok.ite_snd | apply Ok.foldl_fst) | fail_if_no_progress (with_reducible apply Ok.frame <;> first | rfl | skip) | split)

theorem execSmbusTimeout_ok {pd : List Instr} {t : Nat} {k : Nat} {s : State} (h : Ok pd s) : OkO pd (execSmbusTimeout t k s) := by
  unfold execSmbusTimeout
  try dsimp only
  repeat' (first | with_reducible (first | apply ifUnit_ok | apply queueCmd_ok | apply Ok.outcome | apply Ok.fault | apply command_ok | apply onRegion_ok | apply onRegions_ok | apply portReq_ok | apply OkO.ite) | with_reducible (intro _) | with_reducible (first | assumption | apply setPort_ok | apply at_ok | apply ifUnit_ok | apply Ok.ite | apply Ok.foldl | apply Ok.elim | apply Ok.ite_fst | apply Ok.ite_snd | apply Ok.foldl_fst) | fail_if_no_progress (with_reducible apply Ok.frame <;> first | rfl | skip) | split)

theorem writeUlctl_ok {pd : List Instr} {s : State} {l : Nat} {v : Nat} (h : Ok pd s) : Ok pd (State.writeUlctl s l v) := by
  unfold State.writeUlctl
  try dsimp only
  repeat' (first | (intro _) | with_reducible (first | assumption | apply setLane_ok | apply Ok.ite | apply Ok.foldl | apply Ok.elim | apply Ok.ite_fst | apply Ok.ite_snd | apply Ok.foldl_fst) | fail_if_no_progress (with_reducible apply Ok.frame <;> first | rfl | skip) | split)

theorem execUlEnable_ok {pd : List Instr} {t : Nat} {l : Nat} {value : Word} {s : State} (h : Ok pd s) : OkO pd (execUlEnable t l value s) := by
  unfold execUlEnable
  try dsimp only
  repeat' (first | with_reducible (first | apply ifUnit_ok | apply queueCmd_ok | apply Ok.outcome | apply Ok.fault | apply command_ok | apply onRegion_ok | apply onRegions_ok | apply portReq_ok | apply OkO.ite) | with_reducible (intro _) | with_reducible (first | assumption | apply at_ok | apply ifUnit_ok | apply writeUlctl_ok | apply Ok.ite | apply Ok.foldl | apply Ok.elim | apply Ok.ite_fst | apply Ok.ite_snd | apply Ok.foldl_fst) | fail_if_no_progress (with_reducible apply Ok.frame <;> first | rfl | skip) | split)

theorem execUlTxBlock_ok {pd : List Instr} {t : Nat} {l : Nat} {blk : BitVec 66} {ready : Bool} {s : State} (h : Ok pd s) : OkO pd (execUlTxBlock t l blk ready s) := by
  unfold execUlTxBlock
  try dsimp only
  repeat' (first | with_reducible (first | apply ifUnit_ok | apply queueCmd_ok | apply Ok.outcome | apply Ok.fault | apply command_ok | apply onRegion_ok | apply onRegions_ok | apply portReq_ok | apply OkO.ite) | with_reducible (intro _) | with_reducible (first | assumption | apply at_ok | apply emit_ok | apply log_ok | apply ifUnit_ok | apply Ok.ite | apply Ok.foldl | apply Ok.elim | apply Ok.ite_fst | apply Ok.ite_snd | apply Ok.foldl_fst) | fail_if_no_progress (with_reducible apply Ok.frame <;> first | rfl | skip) | split)

theorem execUlRxBlock_ok {pd : List Instr} {t : Nat} {l : Nat} {blk : BitVec 66} {s : State} (h : Ok pd s) : OkO pd (execUlRxBlock t l blk s) := by
  unfold execUlRxBlock
  try dsimp only
  repeat' (first | with_reducible (first | apply ifUnit_ok | apply queueCmd_ok | apply Ok.outcome | apply Ok.fault | apply command_ok | apply onRegion_ok | apply onRegions_ok | apply portReq_ok | apply OkO.ite) | with_reducible (intro _) | with_reducible (first | assumption | apply setLane_ok | apply at_ok | apply emit_ok | apply log_ok | apply ifUnit_ok | apply Ok.ite | apply Ok.foldl | apply Ok.elim | apply Ok.ite_fst | apply Ok.ite_snd | apply Ok.foldl_fst) | fail_if_no_progress (with_reducible apply Ok.frame <;> first | rfl | skip) | split)

theorem execUlRxOverflow_ok {pd : List Instr} {t : Nat} {l : Nat} {s : State} (h : Ok pd s) : OkO pd (execUlRxOverflow t l s) := by
  unfold execUlRxOverflow
  try dsimp only
  repeat' (first | with_reducible (first | apply ifUnit_ok | apply queueCmd_ok | apply Ok.outcome | apply Ok.fault | apply command_ok | apply onRegion_ok | apply onRegions_ok | apply portReq_ok | apply OkO.ite) | with_reducible (intro _) | with_reducible (first | assumption | apply at_ok | apply log_ok | apply ifUnit_ok | apply Ok.ite | apply Ok.foldl | apply Ok.elim | apply Ok.ite_fst | apply Ok.ite_snd | apply Ok.foldl_fst) | fail_if_no_progress (with_reducible apply Ok.frame <;> first | rfl | skip) | split)

theorem execUlLock_ok {pd : List Instr} {t : Nat} {l : Nat} {s : State} (h : Ok pd s) : OkO pd (execUlLock t l s) := by
  unfold execUlLock
  try dsimp only
  repeat' (first | with_reducible (first | apply ifUnit_ok | apply queueCmd_ok | apply Ok.outcome | apply Ok.fault | apply command_ok | apply onRegion_ok | apply onRegions_ok | apply portReq_ok | apply OkO.ite) | with_reducible (intro _) | with_reducible (first | assumption | apply setLane_ok | apply at_ok | apply ifUnit_ok | apply Ok.ite | apply Ok.foldl | apply Ok.elim | apply Ok.ite_fst | apply Ok.ite_snd | apply Ok.foldl_fst) | fail_if_no_progress (with_reducible apply Ok.frame <;> first | rfl | skip) | split)

theorem execUlLockLost_ok {pd : List Instr} {t : Nat} {l : Nat} {s : State} (h : Ok pd s) : OkO pd (execUlLockLost t l s) := by
  unfold execUlLockLost
  try dsimp only
  repeat' (first | with_reducible (first | apply ifUnit_ok | apply queueCmd_ok | apply Ok.outcome | apply Ok.fault | apply command_ok | apply onRegion_ok | apply onRegions_ok | apply portReq_ok | apply OkO.ite) | with_reducible (intro _) | with_reducible (first | assumption | apply setLane_ok | apply at_ok | apply ifUnit_ok | apply Ok.ite | apply Ok.foldl | apply Ok.elim | apply Ok.ite_fst | apply Ok.ite_snd | apply Ok.foldl_fst) | fail_if_no_progress (with_reducible apply Ok.frame <;> first | rfl | skip) | split)

end Sys2Proof.Machine
end

