-- ==== Sys2Proof/Laws/OkLoadOps.lean ====
section
/-! SUPPORT. Every operation of Machine/LoadOps.lean keeps the queue and every bounded field. -/

namespace Sys2Proof.Machine

set_option linter.unusedTactic false
set_option linter.unreachableTactic false

theorem logLoad_ok {pd : List Instr} {s : State} {w : Nat} {l : Load} {code : Nat} {a1 : Nat} (h : Ok pd s) : Ok pd (State.logLoad s w l code a1) := by
  unfold State.logLoad
  try dsimp only
  repeat' (first | (intro _) | with_reducible (first | assumption | apply log_ok | apply Ok.ite | apply Ok.foldl | apply Ok.elim | apply Ok.ite_fst | apply Ok.ite_snd | apply Ok.foldl_fst) | fail_if_no_progress (with_reducible apply Ok.frame <;> first | rfl | skip) | split)

theorem pinsDown_ok {pd : List Instr} {s : State} (h : Ok pd s) : Ok pd (State.pinsDown s) := by
  unfold State.pinsDown
  try dsimp only
  repeat' (first | (intro _) | with_reducible (first | assumption | apply pinsToConfig_ok | apply Ok.ite | apply Ok.foldl | apply Ok.elim | apply Ok.ite_fst | apply Ok.ite_snd | apply Ok.foldl_fst) | fail_if_no_progress (with_reducible apply Ok.frame <;> first | rfl | skip) | split)

theorem signalsLow_ok {pd : List Instr} {s : State} (h : Ok pd s) : Ok pd (State.signalsLow s) := by
  unfold State.signalsLow
  try dsimp only
  repeat' (first | (intro _) | with_reducible (first | assumption | apply setCtl_ok | apply Ok.ite | apply Ok.foldl | apply Ok.elim | apply Ok.ite_fst | apply Ok.ite_snd | apply Ok.foldl_fst) | fail_if_no_progress (with_reducible apply Ok.frame <;> first | rfl | skip) | split)

theorem noPersona_ok {pd : List Instr} {s : State} (h : Ok pd s) : Ok pd (State.noPersona s) := by
  unfold State.noPersona
  refine h.step ?_ rfl rfl rfl rfl rfl rfl rfl rfl rfl rfl rfl rfl rfl
  have := h.2.2.1
  dsimp only
  omega

theorem stopPersona_ok {pd : List Instr} {s : State} (h : Ok pd s) : Ok pd (State.stopPersona s) := by
  unfold State.stopPersona
  try dsimp only
  repeat' (first | (intro _) | with_reducible (first | assumption | apply setDac_ok | apply log_ok | apply clearGuarded_ok | apply removeGraph_ok | apply pinsDown_ok | apply signalsLow_ok | apply noPersona_ok | apply Ok.ite | apply Ok.foldl | apply Ok.elim | apply Ok.ite_fst | apply Ok.ite_snd | apply Ok.foldl_fst) | fail_if_no_progress (with_reducible apply Ok.frame <;> first | rfl | skip) | split)

theorem enterFallow_ok {pd : List Instr} {s : State} {image : Nat} {reason : Nat} (h : Ok pd s) : Ok pd (State.enterFallow s image reason) := by
  unfold State.enterFallow
  try dsimp only
  repeat' (first | (intro _) | with_reducible (first | assumption | apply log_ok | apply initFFs_ok | apply dacFault_ok | apply pinsDown_ok | apply signalsLow_ok | apply noPersona_ok | apply Ok.ite | apply Ok.foldl | apply Ok.elim | apply Ok.ite_fst | apply Ok.ite_snd | apply Ok.foldl_fst) | fail_if_no_progress (with_reducible apply Ok.frame <;> first | rfl | skip) | split)

theorem failRegion_ok {pd : List Instr} {s : State} {r : Nat} {l : Load} {reason : Nat} (h : Ok pd s) : Ok pd (State.failRegion s r l reason) := by
  unfold State.failRegion
  try dsimp only
  repeat' (first | (intro _) | with_reducible (first | assumption | apply setRegion_ok | apply setLoad_ok | apply final_ok | apply stage_ok | apply busStopped_ok | apply logLoad_ok | apply Ok.ite | apply Ok.foldl | apply Ok.elim | apply Ok.ite_fst | apply Ok.ite_snd | apply Ok.foldl_fst) | fail_if_no_progress (with_reducible apply Ok.frame <;> first | rfl | skip) | split)

theorem retrySlots_ok {pd : List Instr} {s : State} (h : Ok pd s) : Ok pd (State.retrySlots s) := by
  unfold State.retrySlots
  try dsimp only
  repeat' (first | (intro _) | with_reducible (first | assumption | apply Ok.ite | apply Ok.foldl | apply Ok.elim | apply Ok.ite_fst | apply Ok.ite_snd | apply Ok.foldl_fst) | fail_if_no_progress (with_reducible apply Ok.frame <;> first | rfl | skip) | split)

theorem nextSlot_ok {pd : List Instr} {s : State} {l : Load} {reason : Nat} (h : Ok pd s) : Ok pd (State.nextSlot s l reason) := by
  unfold State.nextSlot
  try dsimp only
  repeat' (first | (intro _) | with_reducible (first | assumption | apply enterFallow_ok | apply Ok.ite | apply Ok.foldl | apply Ok.elim | apply Ok.ite_fst | apply Ok.ite_snd | apply Ok.foldl_fst) | fail_if_no_progress (with_reducible apply Ok.frame <;> first | rfl | skip) | split)

theorem failFull_ok {pd : List Instr} {s : State} {l : Load} {reason : Nat} (h : Ok pd s) : Ok pd (State.failFull s l reason) := by
  unfold State.failFull
  try dsimp only
  repeat' (first | (intro _) | with_reducible (first | assumption | apply setLoad_ok | apply final_ok | apply enterFallow_ok | apply retrySlots_ok | apply nextSlot_ok | apply Ok.ite | apply Ok.foldl | apply Ok.elim | apply Ok.ite_fst | apply Ok.ite_snd | apply Ok.foldl_fst) | fail_if_no_progress (with_reducible apply Ok.frame <;> first | rfl | skip) | split)

theorem failLoad_ok {pd : List Instr} {s : State} {w : Nat} {reason : Nat} (h : Ok pd s) : Ok pd (State.failLoad s w reason) := by
  unfold State.failLoad
  try dsimp only
  repeat' (first | (intro _) | with_reducible (first | assumption | apply failRegion_ok | apply failFull_ok | apply Ok.ite | apply Ok.foldl | apply Ok.elim | apply Ok.ite_fst | apply Ok.ite_snd | apply Ok.foldl_fst) | fail_if_no_progress (with_reducible apply Ok.frame <;> first | rfl | skip) | split)

theorem stopLoad_ok {pd : List Instr} {s : State} {w : Nat} {st : Nat} (h : Ok pd s) : Ok pd (State.stopLoad s w st).1 := by
  unfold State.stopLoad
  try dsimp only
  repeat' (first | (intro _) | with_reducible (first | assumption | apply setLoad_ok | apply final_ok | apply failRegion_ok | apply Ok.ite | apply Ok.foldl | apply Ok.elim | apply Ok.ite_fst | apply Ok.ite_snd | apply Ok.foldl_fst) | fail_if_no_progress (with_reducible apply Ok.frame <;> first | rfl | skip) | split)

theorem beginLoad_ok {pd : List Instr} {s : State} {w : Nat} {l0 : Load} {b : Bytes} (h : Ok pd s) : Ok pd (State.beginLoad s w l0 b) := by
  unfold State.beginLoad
  try dsimp only
  repeat' (first | (intro _) | with_reducible (first | assumption | apply setLoad_ok | apply stage_ok | apply logLoad_ok | apply failLoad_ok | apply Ok.ite | apply Ok.foldl | apply Ok.elim | apply Ok.ite_fst | apply Ok.ite_snd | apply Ok.foldl_fst) | fail_if_no_progress (with_reducible apply Ok.frame <;> first | rfl | skip) | split)

end Sys2Proof.Machine
end

