-- ==== Sys2Proof/Laws/OkGeneric.lean ====
section
/-! SUPPORT. Every operation of Machine/Generic.lean keeps the queue and every bounded field. -/

namespace Sys2Proof.Machine

set_option linter.unusedTactic false
set_option linter.unreachableTactic false

theorem bodyNop_ok {pd : List Instr} {slot : Nat} {a : Bytes} {s : State} (h : Ok pd s) : Ok pd (bodyNop slot a s) := by
  unfold bodyNop
  try dsimp only
  repeat' (first | (intro _) | with_reducible (first | assumption | apply final_ok | apply setWork_ok | apply Ok.ite | apply Ok.foldl | apply Ok.elim | apply Ok.ite_fst | apply Ok.ite_snd | apply Ok.foldl_fst) | fail_if_no_progress (with_reducible apply Ok.frame <;> first | rfl | skip) | split)

theorem execNop_ok {pd : List Instr} {d : Desc} {s : State} (h : Ok pd s) : OkO pd (execNop d s) := by
  unfold execNop
  try dsimp only
  repeat' (first | with_reducible (first | apply ifUnit_ok | apply queueCmd_ok | apply Ok.outcome | apply Ok.fault | apply command_ok | apply onRegion_ok | apply onRegions_ok | apply portReq_ok | apply OkO.ite) | with_reducible (intro _) | with_reducible (first | assumption | apply command_ok | apply queueCmd_ok | apply bodyNop_ok | apply Ok.ite | apply Ok.foldl | apply Ok.elim | apply Ok.ite_fst | apply Ok.ite_snd | apply Ok.foldl_fst) | fail_if_no_progress (with_reducible apply Ok.frame <;> first | rfl | skip) | split)

theorem execNopDelayPassed_ok {pd : List Instr} {t : Nat} {slot : Nat} {s : State} (h : Ok pd s) : OkO pd (execNopDelayPassed t slot s) := by
  unfold execNopDelayPassed
  try dsimp only
  repeat' (first | with_reducible (first | apply ifUnit_ok | apply queueCmd_ok | apply Ok.outcome | apply Ok.fault | apply command_ok | apply onRegion_ok | apply onRegions_ok | apply portReq_ok | apply OkO.ite) | with_reducible (intro _) | with_reducible (first | assumption | apply at_ok | apply final_ok | apply Ok.ite | apply Ok.foldl | apply Ok.elim | apply Ok.ite_fst | apply Ok.ite_snd | apply Ok.foldl_fst) | fail_if_no_progress (with_reducible apply Ok.frame <;> first | rfl | skip) | split)

theorem answer_ok {pd : List Instr} {s : State} {slot : Nat} {addr : Nat} {len : Nat} {b : Bytes} {r0 : Nat} {r1 : Nat} (h : Ok pd s) : Ok pd (State.answer s slot addr len b r0 r1) := by
  unfold State.answer
  try dsimp only
  repeat' (first | (intro _) | with_reducible (first | assumption | apply hostWrite_ok | apply final_ok | apply Ok.ite | apply Ok.foldl | apply Ok.elim | apply Ok.ite_fst | apply Ok.ite_snd | apply Ok.foldl_fst) | fail_if_no_progress (with_reducible apply Ok.frame <;> first | rfl | skip) | split)

theorem queryHandle_ok {pd : List Instr} {s : State} {slot : Nat} {v : Nat} {addr : Nat} {len : Nat} (h : Ok pd s) : Ok pd (State.queryHandle s slot v addr len) := by
  unfold State.queryHandle
  try dsimp only
  repeat' (first | (intro _) | with_reducible (first | assumption | apply fresh_ok | apply final_ok | apply answer_ok | apply Ok.ite | apply Ok.foldl | apply Ok.elim | apply Ok.ite_fst | apply Ok.ite_snd | apply Ok.foldl_fst) | fail_if_no_progress (with_reducible apply Ok.frame <;> first | rfl | skip) | split)

theorem bodyQuery_ok {pd : List Instr} {slot : Nat} {a : Bytes} {s : State} (h : Ok pd s) : Ok pd (bodyQuery slot a s) := by
  unfold bodyQuery
  try dsimp only
  repeat' (first | (intro _) | with_reducible (first | assumption | apply final_ok | apply answer_ok | apply queryHandle_ok | apply Ok.ite | apply Ok.foldl | apply Ok.elim | apply Ok.ite_fst | apply Ok.ite_snd | apply Ok.foldl_fst) | fail_if_no_progress (with_reducible apply Ok.frame <;> first | rfl | skip) | split)

theorem execQuery_ok {pd : List Instr} {d : Desc} {s : State} (h : Ok pd s) : OkO pd (execQuery d s) := by
  unfold execQuery
  try dsimp only
  repeat' (first | with_reducible (first | apply ifUnit_ok | apply queueCmd_ok | apply Ok.outcome | apply Ok.fault | apply command_ok | apply onRegion_ok | apply onRegions_ok | apply portReq_ok | apply OkO.ite) | with_reducible (intro _) | with_reducible (first | assumption | apply command_ok | apply queueCmd_ok | apply bodyQuery_ok | apply Ok.ite | apply Ok.foldl | apply Ok.elim | apply Ok.ite_fst | apply Ok.ite_snd | apply Ok.foldl_fst) | fail_if_no_progress (with_reducible apply Ok.frame <;> first | rfl | skip) | split)

theorem stopSyscal_ok {pd : List Instr} {s : State} {c : Nat} {slot : Nat} {st : Nat} (h : Ok pd s) : Ok pd (State.stopSyscal s c slot st) := by
  unfold State.stopSyscal
  try dsimp only
  repeat' (first | (intro _) | with_reducible (first | assumption | apply final_ok | apply dropMeas_ok | apply Ok.ite | apply Ok.foldl | apply Ok.elim | apply Ok.ite_fst | apply Ok.ite_snd | apply Ok.foldl_fst) | fail_if_no_progress (with_reducible apply Ok.frame <;> first | rfl | skip) | split)

theorem stopTune_ok {pd : List Instr} {s : State} {gs : Nat} {slot : Nat} {st : Nat} (h : Ok pd s) : Ok pd (State.stopTune s gs slot st).1 := by
  unfold State.stopTune
  try dsimp only
  repeat' (first | (intro _) | with_reducible (first | assumption | apply final_ok | apply revertGraph_ok | apply withdraw_ok | apply Ok.ite | apply Ok.foldl | apply Ok.elim | apply Ok.ite_fst | apply Ok.ite_snd | apply Ok.foldl_fst) | fail_if_no_progress (with_reducible apply Ok.frame <;> first | rfl | skip) | split)

theorem stopPin_ok {pd : List Instr} {s : State} {gs : Nat} {slot : Nat} {moved : Nat} {st : Nat} (h : Ok pd s) : Ok pd (State.stopPin s gs slot moved st).1 := by
  unfold State.stopPin
  try dsimp only
  repeat' (first | (intro _) | with_reducible (first | assumption | apply final_ok | apply revertGraph_ok | apply withdraw_ok | apply Ok.ite | apply Ok.foldl | apply Ok.elim | apply Ok.ite_fst | apply Ok.ite_snd | apply Ok.foldl_fst) | fail_if_no_progress (with_reducible apply Ok.frame <;> first | rfl | skip) | split)

theorem stopCal_ok {pd : List Instr} {s : State} {slot : Nat} {left : Nat} {done : Nat} {failed : Nat} {st : Nat} (h : Ok pd s) : Ok pd (State.stopCal s slot left done failed st).1 := by
  unfold State.stopCal
  try dsimp only
  repeat' (first | (intro _) | with_reducible (first | assumption | apply final_ok | apply setWork_ok | apply reportCals_ok | apply Ok.ite | apply Ok.foldl | apply Ok.elim | apply Ok.ite_fst | apply Ok.ite_snd | apply Ok.foldl_fst) | fail_if_no_progress (with_reducible apply Ok.frame <;> first | rfl | skip) | split)

theorem stopRef_ok {pd : List Instr} {s : State} {slot : Nat} {st : Nat} (h : Ok pd s) : Ok pd (State.stopRef s slot st) := by
  unfold State.stopRef
  try dsimp only
  repeat' (first | (intro _) | with_reducible (first | assumption | apply setConv_ok | apply final_ok | apply Ok.ite | apply Ok.foldl | apply Ok.elim | apply Ok.ite_fst | apply Ok.ite_snd | apply Ok.foldl_fst) | fail_if_no_progress (with_reducible apply Ok.frame <;> first | rfl | skip) | split)

theorem stopCmd_ok {pd : List Instr} {s : State} {slot : Nat} {st : Nat} (h : Ok pd s) : Ok pd (State.stopCmd s slot st).1 := by
  unfold State.stopCmd
  try dsimp only
  repeat' (first | (intro _) | with_reducible (first | assumption | apply setConv_ok | apply final_ok | apply abandonMove_ok | apply stopPlace_ok | apply stopDac_ok | apply setReadback_ok | apply stopPinMap_ok | apply stopLoad_ok | apply stopSyscal_ok | apply stopTune_ok | apply stopPin_ok | apply stopCal_ok | apply stopRef_ok | apply Ok.ite | apply Ok.foldl | apply Ok.elim | apply Ok.ite_fst | apply Ok.ite_snd | apply Ok.foldl_fst) | fail_if_no_progress (with_reducible apply Ok.frame <;> first | rfl | skip) | split)

theorem bodyAbort_ok {pd : List Instr} {slot : Nat} {a : Bytes} {s : State} (h : Ok pd s) : Ok pd (bodyAbort slot a s) := by
  unfold bodyAbort
  try dsimp only
  repeat' (first | (intro _) | with_reducible (first | assumption | apply setWork_ok | apply cellsFreed_ok | apply resume_ok | apply memNext_ok | apply stopCmd_ok | apply Ok.ite | apply Ok.foldl | apply Ok.elim | apply Ok.ite_fst | apply Ok.ite_snd | apply Ok.foldl_fst) | fail_if_no_progress (with_reducible apply Ok.frame <;> first | rfl | skip) | split)

theorem execAbort_ok {pd : List Instr} {d : Desc} {s : State} (h : Ok pd s) : OkO pd (execAbort d s) := by
  unfold execAbort
  try dsimp only
  repeat' (first | with_reducible (first | apply ifUnit_ok | apply queueCmd_ok | apply Ok.outcome | apply Ok.fault | apply command_ok | apply onRegion_ok | apply onRegions_ok | apply portReq_ok | apply OkO.ite) | with_reducible (intro _) | with_reducible (first | assumption | apply command_ok | apply queueCmd_ok | apply bodyAbort_ok | apply Ok.ite | apply Ok.foldl | apply Ok.elim | apply Ok.ite_fst | apply Ok.ite_snd | apply Ok.foldl_fst) | fail_if_no_progress (with_reducible apply Ok.frame <;> first | rfl | skip) | split)

theorem bodyLogDrain_ok {pd : List Instr} {slot : Nat} {a : Bytes} {s : State} (h : Ok pd s) : Ok pd (bodyLogDrain slot a s) := by
  unfold bodyLogDrain
  try dsimp only
  repeat' (first | (intro _) | with_reducible (first | assumption | apply hostWrite_ok | apply log_ok | apply final_ok | apply Ok.ite | apply Ok.foldl | apply Ok.elim | apply Ok.ite_fst | apply Ok.ite_snd | apply Ok.foldl_fst) | fail_if_no_progress (with_reducible apply Ok.frame <;> first | rfl | skip) | split)

theorem execLogDrain_ok {pd : List Instr} {d : Desc} {s : State} (h : Ok pd s) : OkO pd (execLogDrain d s) := by
  unfold execLogDrain
  try dsimp only
  repeat' (first | with_reducible (first | apply ifUnit_ok | apply queueCmd_ok | apply Ok.outcome | apply Ok.fault | apply command_ok | apply onRegion_ok | apply onRegions_ok | apply portReq_ok | apply OkO.ite) | with_reducible (intro _) | with_reducible (first | assumption | apply command_ok | apply queueCmd_ok | apply bodyLogDrain_ok | apply Ok.ite | apply Ok.foldl | apply Ok.elim | apply Ok.ite_fst | apply Ok.ite_snd | apply Ok.foldl_fst) | fail_if_no_progress (with_reducible apply Ok.frame <;> first | rfl | skip) | split)

theorem resizeRegion_ok {pd : List Instr} {s : State} {r : Nat} (h : Ok pd s) : Ok pd (State.resizeRegion s r) := by
  unfold State.resizeRegion
  try dsimp only
  repeat' (first | (intro _) | with_reducible (first | assumption | apply refill_ok | apply shrinkPool_ok | apply Ok.ite | apply Ok.foldl | apply Ok.elim | apply Ok.ite_fst | apply Ok.ite_snd | apply Ok.foldl_fst) | fail_if_no_progress (with_reducible apply Ok.frame <;> first | rfl | skip) | split)

theorem resizePool_ok {pd : List Instr} {s : State} (h : Ok pd s) : Ok pd (State.resizePool s) := by
  unfold State.resizePool
  try dsimp only
  repeat' (first | (intro _) | with_reducible (first | assumption | apply resizeRegion_ok | apply Ok.ite | apply Ok.foldl | apply Ok.elim | apply Ok.ite_fst | apply Ok.ite_snd | apply Ok.foldl_fst) | fail_if_no_progress (with_reducible apply Ok.frame <;> first | rfl | skip) | split)

theorem bodyStolonPolicy_ok {pd : List Instr} {slot : Nat} {a : Bytes} {s : State} (h : Ok pd s) : Ok pd (bodyStolonPolicy slot a s) := by
  unfold bodyStolonPolicy
  try dsimp only
  repeat' (first | (intro _) | with_reducible (first | assumption | apply final_ok | apply resizePool_ok | apply Ok.ite | apply Ok.foldl | apply Ok.elim | apply Ok.ite_fst | apply Ok.ite_snd | apply Ok.foldl_fst) | fail_if_no_progress (with_reducible apply Ok.frame <;> first | rfl | skip) | split)

theorem execStolonPolicy_ok {pd : List Instr} {d : Desc} {s : State} (h : Ok pd s) : OkO pd (execStolonPolicy d s) := by
  unfold execStolonPolicy
  try dsimp only
  repeat' (first | with_reducible (first | apply ifUnit_ok | apply queueCmd_ok | apply Ok.outcome | apply Ok.fault | apply command_ok | apply onRegion_ok | apply onRegions_ok | apply portReq_ok | apply OkO.ite) | with_reducible (intro _) | with_reducible (first | assumption | apply command_ok | apply queueCmd_ok | apply bodyStolonPolicy_ok | apply Ok.ite | apply Ok.foldl | apply Ok.elim | apply Ok.ite_fst | apply Ok.ite_snd | apply Ok.foldl_fst) | fail_if_no_progress (with_reducible apply Ok.frame <;> first | rfl | skip) | split)

end Sys2Proof.Machine
end

