-- ==== Sys2Proof/Laws/OkStraw.lean ====
section
/-! SUPPORT. Every operation of Machine/Straw.lean keeps the queue and every bounded field. -/

namespace Sys2Proof.Machine

set_option linter.unusedTactic false
set_option linter.unreachableTactic false


end Sys2Proof.Machine
end

