-- ==== Sys2Proof/Laws/OkPersona.lean ====
section
/-! SUPPORT. Every operation of Machine/Persona.lean keeps the queue and every bounded field. -/

namespace Sys2Proof.Machine

set_option linter.unusedTactic false
set_option linter.unreachableTactic false

theorem readSlot_ok {pd : List Instr} {s : State} {source : Nat} {slot : Nat} (h : Ok pd s) : Ok pd (State.readSlot s source slot) := by
  unfold State.readSlot
  try dsimp only
  repeat' (first | (intro _) | with_reducible (first | assumption | apply emit_ok | apply Ok.ite | apply Ok.foldl | apply Ok.elim | apply Ok.ite_fst | apply Ok.ite_snd | apply Ok.foldl_fst) | fail_if_no_progress (with_reducible apply Ok.frame <;> first | rfl | skip) | split)

theorem bodyPersonaLoad_ok {pd : List Instr} {header : Bytes} {slot : Nat} {a : Bytes} {s : State} (h : Ok pd s) : Ok pd (bodyPersonaLoad header slot a s) := by
  unfold bodyPersonaLoad
  try dsimp only
  repeat' (first | (intro _) | with_reducible (first | assumption | apply final_ok | apply setWork_ok | apply beginLoad_ok | apply readSlot_ok | apply Ok.ite | apply Ok.foldl | apply Ok.elim | apply Ok.ite_fst | apply Ok.ite_snd | apply Ok.foldl_fst) | fail_if_no_progress (with_reducible apply Ok.frame <;> first | rfl | skip) | split)

theorem execPersonaLoad_ok {pd : List Instr} {d : Desc} {header : Bytes} {s : State} (h : Ok pd s) : OkO pd (execPersonaLoad d header s) := by
  unfold execPersonaLoad
  try dsimp only
  repeat' (first | with_reducible (first | apply ifUnit_ok | apply queueCmd_ok | apply Ok.outcome | apply Ok.fault | apply command_ok | apply onRegion_ok | apply onRegions_ok | apply portReq_ok | apply OkO.ite) | with_reducible (intro _) | with_reducible (first | assumption | apply command_ok | apply queueCmd_ok | apply bodyPersonaLoad_ok | apply Ok.ite | apply Ok.foldl | apply Ok.elim | apply Ok.ite_fst | apply Ok.ite_snd | apply Ok.foldl_fst) | fail_if_no_progress (with_reducible apply Ok.frame <;> first | rfl | skip) | split)

theorem bodyRegionLoad_ok {pd : List Instr} {header : Bytes} {cmd : Instr} {slot : Nat} {a : Bytes} {s : State} (h : Ok pd s) : Ok pd (bodyRegionLoad header cmd slot a s) := by
  unfold bodyRegionLoad
  try dsimp only
  repeat' (first | (intro _) | with_reducible (first | assumption | apply setRegion_ok | apply final_ok | apply setWork_ok | apply onRegion_ok | apply beginLoad_ok | apply readSlot_ok | apply Ok.ite | apply Ok.foldl | apply Ok.elim | apply Ok.ite_fst | apply Ok.ite_snd | apply Ok.foldl_fst) | fail_if_no_progress (with_reducible apply Ok.frame <;> first | rfl | skip) | split)

theorem execRegionLoad_ok {pd : List Instr} {d : Desc} {header : Bytes} {s : State} (h : Ok pd s) : OkO pd (execRegionLoad d header s) := by
  unfold execRegionLoad
  try dsimp only
  repeat' (first | with_reducible (first | apply ifUnit_ok | apply queueCmd_ok | apply Ok.outcome | apply Ok.fault | apply command_ok | apply onRegion_ok | apply onRegions_ok | apply portReq_ok | apply OkO.ite) | with_reducible (intro _) | with_reducible (first | assumption | apply command_ok | apply queueCmd_ok | apply bodyRegionLoad_ok | apply Ok.ite | apply Ok.foldl | apply Ok.elim | apply Ok.ite_fst | apply Ok.ite_snd | apply Ok.foldl_fst) | fail_if_no_progress (with_reducible apply Ok.frame <;> first | rfl | skip) | split)

theorem skipSlots_ok {pd : List Instr} (n : Nat) (s : State) (h : Ok pd s) : Ok pd (State.skipSlots n s) := by
  induction n generalizing s with
  | zero => exact h
  | succ n ih =>
    rw [State.skipSlots]
    try dsimp only
    repeat' (first | (intro _) | with_reducible (first | assumption | apply ih | apply Ok.ite | apply Ok.foldl | apply Ok.elim | apply Ok.ite_fst | apply Ok.ite_snd | apply Ok.foldl_fst) | fail_if_no_progress (with_reducible apply Ok.frame <;> first | rfl | skip) | split)

theorem execPersonaSlotTry_ok {pd : List Instr} {t : Nat} {header : Bytes} {s : State} (h : Ok pd s) : OkO pd (execPersonaSlotTry t header s) := by
  unfold execPersonaSlotTry
  try dsimp only
  repeat' (first | with_reducible (first | apply ifUnit_ok | apply queueCmd_ok | apply Ok.outcome | apply Ok.fault | apply command_ok | apply onRegion_ok | apply onRegions_ok | apply portReq_ok | apply OkO.ite) | with_reducible (intro _) | with_reducible (first | assumption | apply at_ok | apply log_ok | apply enterFallow_ok | apply beginLoad_ok | apply readSlot_ok | apply skipSlots_ok | apply Ok.ite | apply Ok.foldl | apply Ok.elim | apply Ok.ite_fst | apply Ok.ite_snd | apply Ok.foldl_fst) | fail_if_no_progress (with_reducible apply Ok.frame <;> first | rfl | skip) | split)

-- RECURSIVE?
theorem evacuate_ok {pd : List Instr} {s : State} {fns : List (Nat × Nat)} (h : Ok pd s) : Ok pd (State.evacuate s fns) := by
  unfold State.evacuate
  try dsimp only
  repeat' (first | (intro _) | with_reducible (first | assumption | apply setMoves_ok | apply pumpMoves_ok | apply Ok.ite | apply Ok.foldl | apply Ok.elim | apply Ok.ite_fst | apply Ok.ite_snd | apply Ok.foldl_fst) | fail_if_no_progress (with_reducible apply Ok.frame <;> first | rfl | skip) | split)

theorem execSignatureVerified_ok {pd : List Instr} {t : Nat} {w : Nat} {ed : Bool} {ml : Bool} {taken : List Nat} {s : State} (h : Ok pd s) : OkO pd (execSignatureVerified t w ed ml taken s) := by
  unfold execSignatureVerified
  try dsimp only
  repeat' (first | with_reducible (first | apply ifUnit_ok | apply queueCmd_ok | apply Ok.outcome | apply Ok.fault | apply command_ok | apply onRegion_ok | apply onRegions_ok | apply portReq_ok | apply OkO.ite) | with_reducible (intro _) | with_reducible (first | assumption | apply setLoad_ok | apply at_ok | apply stage_ok | apply yieldTest_ok | apply logLoad_ok | apply failLoad_ok | apply evacuate_ok | apply Ok.ite | apply Ok.foldl | apply Ok.elim | apply Ok.ite_fst | apply Ok.ite_snd | apply Ok.foldl_fst) | fail_if_no_progress (with_reducible apply Ok.frame <;> first | rfl | skip) | split)

theorem execPersonaEpoch_ok {pd : List Instr} {t : Nat} {w : Nat} {stored : Bytes} {s : State} (h : Ok pd s) : OkO pd (execPersonaEpoch t w stored s) := by
  unfold execPersonaEpoch
  try dsimp only
  repeat' (first | with_reducible (first | apply ifUnit_ok | apply queueCmd_ok | apply Ok.outcome | apply Ok.fault | apply command_ok | apply onRegion_ok | apply onRegions_ok | apply portReq_ok | apply OkO.ite) | with_reducible (intro _) | with_reducible (first | assumption | apply setLoad_ok | apply at_ok | apply stage_ok | apply logLoad_ok | apply failLoad_ok | apply Ok.ite | apply Ok.foldl | apply Ok.elim | apply Ok.ite_fst | apply Ok.ite_snd | apply Ok.foldl_fst) | fail_if_no_progress (with_reducible apply Ok.frame <;> first | rfl | skip) | split)

theorem dropDrivers_ok {pd : List Instr} {s : State} {f : Nat} {b : Bytes} (h : Ok pd s) : Ok pd (State.dropDrivers s f b).1 := by
  unfold State.dropDrivers
  try dsimp only
  repeat' (first | (intro _) | with_reducible (first | assumption | apply log_ok | apply lcArg_ok | apply Ok.ite | apply Ok.foldl | apply Ok.elim | apply Ok.ite_fst | apply Ok.ite_snd | apply Ok.foldl_fst) | fail_if_no_progress (with_reducible apply Ok.frame <;> first | rfl | skip) | split)

theorem writeFrame_ok {pd : List Instr} {s : State} {f : Nat} {b : Bytes} (h : Ok pd s) : Ok pd (State.writeFrame s f b) := by
  unfold State.writeFrame
  try dsimp only
  repeat' (first | (intro _) | with_reducible (first | assumption | apply spWrite_ok | apply log_ok | apply setFrame_ok | apply forceGuards_ok | apply dropDrivers_ok | apply Ok.ite | apply Ok.foldl | apply Ok.elim | apply Ok.ite_fst | apply Ok.ite_snd | apply Ok.foldl_fst) | fail_if_no_progress (with_reducible apply Ok.frame <;> first | rfl | skip) | split)

theorem clearFrames_ok {pd : List Instr} {s : State} {r : Nat} (h : Ok pd s) : Ok pd (State.clearFrames s r) := by
  unfold State.clearFrames
  try dsimp only
  repeat' (first | (intro _) | with_reducible (first | assumption | apply Ok.ite | apply Ok.foldl | apply Ok.elim | apply Ok.ite_fst | apply Ok.ite_snd | apply Ok.foldl_fst) | fail_if_no_progress (with_reducible apply Ok.frame <;> first | rfl | skip) | split)

theorem retestGroups_ok {pd : List Instr} {s : State} {p : Nat → Bool} (h : Ok pd s) : Ok pd (State.retestGroups s p) := by
  unfold State.retestGroups
  try dsimp only
  repeat' (first | (intro _) | with_reducible (first | assumption | apply fresh_ok | apply setLed_ok | apply Ok.ite | apply Ok.foldl | apply Ok.elim | apply Ok.ite_fst | apply Ok.ite_snd | apply Ok.foldl_fst) | fail_if_no_progress (with_reducible apply Ok.frame <;> first | rfl | skip) | split)

theorem badRecord_ok {pd : List Instr} {s : State} {w : Nat} {l : Load} {a1 : Nat} (h : Ok pd s) : Ok pd (State.badRecord s w l a1) := by
  unfold State.badRecord
  try dsimp only
  repeat' (first | (intro _) | with_reducible (first | assumption | apply logLoad_ok | apply failLoad_ok | apply Ok.ite | apply Ok.foldl | apply Ok.elim | apply Ok.ite_fst | apply Ok.ite_snd | apply Ok.foldl_fst) | fail_if_no_progress (with_reducible apply Ok.frame <;> first | rfl | skip) | split)

theorem takeRecord_ok {pd : List Instr} {s : State} {w : Nat} {ty : Nat} {len : Bytes → Nat} {rec : Bytes} {f : Load → Bytes → State → State} (h : Ok pd s) (hf_f : ∀ y0 y1 y2, Ok pd y2 → Ok pd (f y0 y1 y2)) : Ok pd (State.takeRecord s w ty len rec f) := by
  unfold State.takeRecord
  try dsimp only
  repeat' (first | (intro _) | with_reducible (first | assumption | apply hf_f | apply stage_ok | apply badRecord_ok | apply Ok.ite | apply Ok.foldl | apply Ok.elim | apply Ok.ite_fst | apply Ok.ite_snd | apply Ok.foldl_fst) | fail_if_no_progress (with_reducible apply Ok.frame <;> first | rfl | skip) | split)

theorem execFrame_ok {pd : List Instr} {t : Nat} {w : Nat} {rec : Bytes} {s : State} (h : Ok pd s) : OkO pd (execFrame t w rec s) := by
  unfold execFrame
  try dsimp only
  repeat' (first | with_reducible (first | apply ifUnit_ok | apply queueCmd_ok | apply Ok.outcome | apply Ok.fault | apply command_ok | apply onRegion_ok | apply onRegions_ok | apply portReq_ok | apply OkO.ite) | with_reducible (intro _) | with_reducible (first | assumption | apply setLoad_ok | apply at_ok | apply logLoad_ok | apply failLoad_ok | apply writeFrame_ok | apply badRecord_ok | apply takeRecord_ok | apply Ok.ite | apply Ok.foldl | apply Ok.elim | apply Ok.ite_fst | apply Ok.ite_snd | apply Ok.foldl_fst) | fail_if_no_progress (with_reducible apply Ok.frame <;> first | rfl | skip) | split)

theorem execRepeatRecord_ok {pd : List Instr} {t : Nat} {w : Nat} {rec : Bytes} {s : State} (h : Ok pd s) : OkO pd (execRepeatRecord t w rec s) := by
  unfold execRepeatRecord
  try dsimp only
  repeat' (first | with_reducible (first | apply ifUnit_ok | apply queueCmd_ok | apply Ok.outcome | apply Ok.fault | apply command_ok | apply onRegion_ok | apply onRegions_ok | apply portReq_ok | apply OkO.ite) | with_reducible (intro _) | with_reducible (first | assumption | apply setLoad_ok | apply at_ok | apply logLoad_ok | apply failLoad_ok | apply writeFrame_ok | apply badRecord_ok | apply takeRecord_ok | apply Ok.ite | apply Ok.foldl | apply Ok.elim | apply Ok.ite_fst | apply Ok.ite_snd | apply Ok.foldl_fst) | fail_if_no_progress (with_reducible apply Ok.frame <;> first | rfl | skip) | split)

theorem execRegionMark_ok {pd : List Instr} {t : Nat} {w : Nat} {rec : Bytes} {s : State} (h : Ok pd s) : OkO pd (execRegionMark t w rec s) := by
  unfold execRegionMark
  try dsimp only
  repeat' (first | with_reducible (first | apply ifUnit_ok | apply queueCmd_ok | apply Ok.outcome | apply Ok.fault | apply command_ok | apply onRegion_ok | apply onRegions_ok | apply portReq_ok | apply OkO.ite) | with_reducible (intro _) | with_reducible (first | assumption | apply setLoad_ok | apply at_ok | apply stopPersona_ok | apply clearFrames_ok | apply retestGroups_ok | apply badRecord_ok | apply takeRecord_ok | apply Ok.ite | apply Ok.foldl | apply Ok.elim | apply Ok.ite_fst | apply Ok.ite_snd | apply Ok.foldl_fst) | fail_if_no_progress (with_reducible apply Ok.frame <;> first | rfl | skip) | split)

theorem strawData_ok {pd : List Instr} {s : State} {r : Nat} (h : Ok pd s) : Ok pd (State.strawData s r) := by
  unfold State.strawData
  try dsimp only
  repeat' (first | (intro _) | with_reducible (first | assumption | apply setFrame_ok | apply Ok.ite | apply Ok.foldl | apply Ok.elim | apply Ok.ite_fst | apply Ok.ite_snd | apply Ok.foldl_fst) | fail_if_no_progress (with_reducible apply Ok.frame <;> first | rfl | skip) | split)

theorem imagePassed_ok {pd : List Instr} {s : State} {l : Load} (h : Ok pd s) : Ok pd (State.imagePassed s l) := by
  unfold State.imagePassed
  dsimp only
  have h0 : Ok pd (if decide (l.source = 2) && decide (l.imgSlot = 1) then (List.range 8).foldl (fun s r => s.strawData r) s else s) :=
    Ok.ite (Ok.foldl h fun s r hs => strawData_ok hs) h
  generalize (if decide (l.source = 2) && decide (l.imgSlot = 1) then (List.range 8).foldl (fun (s : State) r => s.strawData r) s else s) = s0 at h0 ⊢
  have h1 : Ok pd ((List.range 8).foldl (fun s r => s.setRegion r { s.region r with isolated := false, fallow := false }) (s0.setLoad 8 none)) :=
    Ok.foldl (setLoad_ok h0) fun s r hs => setRegion_ok hs
  generalize (List.range 8).foldl (fun (s : State) r => s.setRegion r { s.region r with isolated := false, fallow := false }) (s0.setLoad 8 none) = s1
    at h1 ⊢
  exact h1.step ⟨Nat.le_of_ble_eq_true rfl, Nat.le_of_ble_eq_true rfl⟩ rfl rfl rfl rfl rfl rfl rfl rfl rfl rfl rfl rfl rfl

theorem execEndRecord_ok {pd : List Instr} {t : Nat} {w : Nat} {rec : Bytes} {s : State} (h : Ok pd s) : OkO pd (execEndRecord t w rec s) := by
  unfold execEndRecord
  try dsimp only
  repeat' (first | with_reducible (first | apply ifUnit_ok | apply queueCmd_ok | apply Ok.outcome | apply Ok.fault | apply command_ok | apply onRegion_ok | apply onRegions_ok | apply portReq_ok | apply OkO.ite) | with_reducible (intro _) | with_reducible (first | assumption | apply setLoad_ok | apply at_ok | apply stage_ok | apply logLoad_ok | apply failLoad_ok | apply badRecord_ok | apply takeRecord_ok | apply imagePassed_ok | apply Ok.ite | apply Ok.foldl | apply Ok.elim | apply Ok.ite_fst | apply Ok.ite_snd | apply Ok.foldl_fst) | fail_if_no_progress (with_reducible apply Ok.frame <;> first | rfl | skip) | split)

theorem execPersonaEarlyEnd_ok {pd : List Instr} {t : Nat} {w : Nat} {s : State} (h : Ok pd s) : OkO pd (execPersonaEarlyEnd t w s) := by
  unfold execPersonaEarlyEnd
  try dsimp only
  repeat' (first | with_reducible (first | apply ifUnit_ok | apply queueCmd_ok | apply Ok.outcome | apply Ok.fault | apply command_ok | apply onRegion_ok | apply onRegions_ok | apply portReq_ok | apply OkO.ite) | with_reducible (intro _) | with_reducible (first | assumption | apply at_ok | apply logLoad_ok | apply failLoad_ok | apply Ok.ite | apply Ok.foldl | apply Ok.elim | apply Ok.ite_fst | apply Ok.ite_snd | apply Ok.foldl_fst) | fail_if_no_progress (with_reducible apply Ok.frame <;> first | rfl | skip) | split)

theorem execPersonaTimeout_ok {pd : List Instr} {t : Nat} {w : Nat} {s : State} (h : Ok pd s) : OkO pd (execPersonaTimeout t w s) := by
  unfold execPersonaTimeout
  try dsimp only
  repeat' (first | with_reducible (first | apply ifUnit_ok | apply queueCmd_ok | apply Ok.outcome | apply Ok.fault | apply command_ok | apply onRegion_ok | apply onRegions_ok | apply portReq_ok | apply OkO.ite) | with_reducible (intro _) | with_reducible (first | assumption | apply at_ok | apply logLoad_ok | apply failLoad_ok | apply Ok.ite | apply Ok.foldl | apply Ok.elim | apply Ok.ite_fst | apply Ok.ite_snd | apply Ok.foldl_fst) | fail_if_no_progress (with_reducible apply Ok.frame <;> first | rfl | skip) | split)

end Sys2Proof.Machine
end

