-- ==== Sys2Proof/Laws/OkDataArea.lean ====
section
/-! SUPPORT. Every operation of Machine/DataArea.lean keeps the queue and every bounded field. -/

namespace Sys2Proof.Machine

set_option linter.unusedTactic false
set_option linter.unreachableTactic false

theorem skipItem_ok {pd : List Instr} {s : State} {off : Nat} {status : Nat} (h : Ok pd s) : Ok pd (State.skipItem s off status) := by
  unfold State.skipItem
  try dsimp only
  repeat' (first | (intro _) | with_reducible (first | assumption | apply log_ok | apply Ok.ite | apply Ok.foldl | apply Ok.elim | apply Ok.ite_fst | apply Ok.ite_snd | apply Ok.foldl_fst) | fail_if_no_progress (with_reducible apply Ok.frame <;> first | rfl | skip) | split)

theorem asItem_ok {pd : List Instr} {s : State} {f : State → State} (h : Ok pd s) (hf_f : ∀ y0, Ok pd y0 → Ok pd (f y0)) : Ok pd (State.asItem s f).1 := by
  unfold State.asItem
  try dsimp only
  repeat' (first | (intro _) | with_reducible (first | assumption | apply hf_f | apply Ok.ite | apply Ok.foldl | apply Ok.elim | apply Ok.ite_fst | apply Ok.ite_snd | apply Ok.foldl_fst) | fail_if_no_progress (with_reducible apply Ok.frame <;> first | rfl | skip) | split)

theorem tryItem_ok {pd : List Instr} {s : State} {off : Nat} {f : State → State} (h : Ok pd s) (hf_f : ∀ y0, Ok pd y0 → Ok pd (f y0)) : Ok pd (State.tryItem s off f) := by
  unfold State.tryItem
  try dsimp only
  repeat' (first | (intro _) | with_reducible (first | assumption | apply hf_f | apply skipItem_ok | apply asItem_ok | apply Ok.ite | apply Ok.foldl | apply Ok.elim | apply Ok.ite_fst | apply Ok.ite_snd | apply Ok.foldl_fst) | fail_if_no_progress (with_reducible apply Ok.frame <;> first | rfl | skip) | split)

theorem itemFail_ok {pd : List Instr} {s : State} {status : Nat} (h : Ok pd s) : Ok pd (State.itemFail s status) := by
  unfold State.itemFail
  try dsimp only
  repeat' (first | (intro _) | with_reducible (first | assumption | apply final_ok | apply Ok.ite | apply Ok.foldl | apply Ok.elim | apply Ok.ite_fst | apply Ok.ite_snd | apply Ok.foldl_fst) | fail_if_no_progress (with_reducible apply Ok.frame <;> first | rfl | skip) | split)

theorem itemPinMap_ok {pd : List Instr} {only : Option Nat} {b : Bytes} {s : State} (h : Ok pd s) : Ok pd (itemPinMap only b s) := by
  unfold itemPinMap
  try dsimp only
  repeat' (first | (intro _) | with_reducible (first | assumption | apply queueMaps_ok | apply itemFail_ok | apply Ok.ite | apply Ok.foldl | apply Ok.elim | apply Ok.ite_fst | apply Ok.ite_snd | apply Ok.foldl_fst) | fail_if_no_progress (with_reducible apply Ok.frame <;> first | rfl | skip) | split)

theorem itemConverter_ok {pd : List Instr} {only : Option Nat} {b : Bytes} {s : State} (h : Ok pd s) : Ok pd (itemConverter only b s) := by
  unfold itemConverter
  try dsimp only
  repeat' (first | (intro _) | with_reducible (first | assumption | apply queueConv_ok | apply itemFail_ok | apply Ok.ite | apply Ok.foldl | apply Ok.elim | apply Ok.ite_fst | apply Ok.ite_snd | apply Ok.foldl_fst) | fail_if_no_progress (with_reducible apply Ok.frame <;> first | rfl | skip) | split)

theorem itemDac_ok {pd : List Instr} {only : Option Nat} {b : Bytes} {s : State} (h : Ok pd s) : Ok pd (itemDac only b s) := by
  unfold itemDac
  try dsimp only
  repeat' (first | (intro _) | with_reducible (first | assumption | apply bodyDacRange_ok | apply itemFail_ok | apply Ok.ite | apply Ok.foldl | apply Ok.elim | apply Ok.ite_fst | apply Ok.ite_snd | apply Ok.foldl_fst) | fail_if_no_progress (with_reducible apply Ok.frame <;> first | rfl | skip) | split)

theorem itemDds_ok {pd : List Instr} {only : Option Nat} {b : Bytes} {s : State} (h : Ok pd s) : Ok pd (itemDds only b s) := by
  unfold itemDds
  try dsimp only
  repeat' (first | (intro _) | with_reducible (first | assumption | apply bodyDdsConfig_ok | apply itemFail_ok | apply Ok.ite | apply Ok.foldl | apply Ok.elim | apply Ok.ite_fst | apply Ok.ite_snd | apply Ok.foldl_fst) | fail_if_no_progress (with_reducible apply Ok.frame <;> first | rfl | skip) | split)

theorem installGraph_ok {pd : List Instr} {s : State} {slot : Nat} {g0 : Graph} (h : Ok pd s) : Ok pd (State.installGraph s slot g0) := by
  unfold State.installGraph
  try dsimp only
  repeat' (first | (intro _) | with_reducible (first | assumption | apply markCell_ok | apply controls_ok | apply takeNets_ok | apply makeDue_ok | apply claim_ok | apply builtCell_ok | apply Ok.ite | apply Ok.foldl | apply Ok.elim | apply Ok.ite_fst | apply Ok.ite_snd | apply Ok.foldl_fst) | fail_if_no_progress (with_reducible apply Ok.frame <;> first | rfl | skip) | split)

theorem newItemGraph_ok {pd : List Instr} {s : State} {off : Nat} {img : Bytes} {meas : List Measured} (h : Ok pd s) : Ok pd (State.newItemGraph s off img meas) := by
  unfold State.newItemGraph
  try dsimp only
  repeat' (first | (intro _) | with_reducible (first | assumption | apply setHnd_ok | apply log_ok | apply bump_ok | apply skipItem_ok | apply installGraph_ok | apply Ok.ite | apply Ok.foldl | apply Ok.elim | apply Ok.ite_fst | apply Ok.ite_snd | apply Ok.foldl_fst) | fail_if_no_progress (with_reducible apply Ok.frame <;> first | rfl | skip) | split)

theorem takeOverGraph_ok {pd : List Instr} {s : State} {off : Nat} {slot : Nat} {img : Bytes} {meas : List Measured} (h : Ok pd s) : Ok pd (State.takeOverGraph s off slot img meas) := by
  unfold State.takeOverGraph
  try dsimp only
  repeat' (first | (intro _) | with_reducible (first | assumption | apply setGraph_ok | apply log_ok | apply unclaim_ok | apply skipItem_ok | apply installGraph_ok | apply Ok.ite | apply Ok.foldl | apply Ok.elim | apply Ok.ite_fst | apply Ok.ite_snd | apply Ok.foldl_fst) | fail_if_no_progress (with_reducible apply Ok.frame <;> first | rfl | skip) | split)

theorem graphItems_ok {pd : List Instr} {s : State} {only : Option Nat} {taken : List Nat} {items : List (Nat × Nat × Bytes)} {meas : List (List Measured)} (h : Ok pd s) : Ok pd (State.graphItems s only taken items meas) := by
  unfold State.graphItems
  try dsimp only
  repeat' (first | (intro _) | with_reducible (first | assumption | apply skipItem_ok | apply newItemGraph_ok | apply takeOverGraph_ok | apply Ok.ite | apply Ok.foldl | apply Ok.elim | apply Ok.ite_fst | apply Ok.ite_snd | apply Ok.foldl_fst) | fail_if_no_progress (with_reducible apply Ok.frame <;> first | rfl | skip) | split)

theorem applyItems_ok {pd : List Instr} {s : State} {only : Option Nat} {taken : List Nat} {items : List (Nat × Nat × Bytes)} {meas : List (List Measured)} (h : Ok pd s) : Ok pd (State.applyItems s only taken items meas) := by
  unfold State.applyItems
  try dsimp only
  repeat' (first | (intro _) | with_reducible (first | assumption | apply skipItem_ok | apply tryItem_ok | apply itemConverter_ok | apply itemDac_ok | apply itemDds_ok | apply graphItems_ok | apply Ok.ite | apply Ok.foldl | apply Ok.elim | apply Ok.ite_fst | apply Ok.ite_snd | apply Ok.foldl_fst) | fail_if_no_progress (with_reducible apply Ok.frame <;> first | rfl | skip) | split)

theorem pinItems_ok {pd : List Instr} {s : State} {only : Option Nat} {items : List (Nat × Nat × Bytes)} (h : Ok pd s) : Ok pd (State.pinItems s only items) := by
  unfold State.pinItems
  try dsimp only
  repeat' (first | (intro _) | with_reducible (first | assumption | apply tryItem_ok | apply itemPinMap_ok | apply Ok.ite | apply Ok.foldl | apply Ok.elim | apply Ok.ite_fst | apply Ok.ite_snd | apply Ok.foldl_fst) | fail_if_no_progress (with_reducible apply Ok.frame <;> first | rfl | skip) | split)

end Sys2Proof.Machine
end

