-- ==== Sys2Proof/Laws/OkRegionLoad.lean ====
section
/-! SUPPORT. Every operation of Machine/RegionLoad.lean keeps the queue and every bounded field. -/

namespace Sys2Proof.Machine

set_option linter.unusedTactic false
set_option linter.unreachableTactic false

theorem signalTo_ok {pd : List Instr} {s : State} {n : Nat} {level : Bool} (h : Ok pd s) : Ok pd (State.signalTo s n level) := by
  unfold State.signalTo
  try dsimp only
  repeat' (first | (intro _) | with_reducible (first | assumption | apply setCtl_ok | apply acceptTrig_ok | apply level_ok | apply Ok.ite | apply Ok.foldl | apply Ok.elim | apply Ok.ite_fst | apply Ok.ite_snd | apply Ok.foldl_fst) | fail_if_no_progress (with_reducible apply Ok.frame <;> first | rfl | skip) | split)

theorem setLatch_ok {pd : List Instr} {s : State} {i : Nat} {v : Bool} (h : Ok pd s) : Ok pd (State.setLatch s i v) := by
  unfold State.setLatch
  try dsimp only
  repeat' (first | (intro _) | with_reducible (first | assumption | apply Ok.ite | apply Ok.foldl | apply Ok.elim | apply Ok.ite_fst | apply Ok.ite_snd | apply Ok.foldl_fst) | fail_if_no_progress (with_reducible apply Ok.frame <;> first | rfl | skip) | split)

theorem latchSignals_ok {pd : List Instr} {s : State} {r : Nat} (h : Ok pd s) : Ok pd (State.latchSignals s r) := by
  unfold State.latchSignals
  try dsimp only
  repeat' (first | (intro _) | with_reducible (first | assumption | apply signalTo_ok | apply setLatch_ok | apply Ok.ite | apply Ok.foldl | apply Ok.elim | apply Ok.ite_fst | apply Ok.ite_snd | apply Ok.foldl_fst) | fail_if_no_progress (with_reducible apply Ok.frame <;> first | rfl | skip) | split)

theorem latchWires_ok {pd : List Instr} {s : State} {r : Nat} (h : Ok pd s) : Ok pd (State.latchWires s r) := by
  unfold State.latchWires
  try dsimp only
  repeat' (first | (intro _) | with_reducible (first | assumption | apply fresh_ok | apply setLatch_ok | apply Ok.ite | apply Ok.foldl | apply Ok.elim | apply Ok.ite_fst | apply Ok.ite_snd | apply Ok.foldl_fst) | fail_if_no_progress (with_reducible apply Ok.frame <;> first | rfl | skip) | split)

theorem releaseLatches_ok {pd : List Instr} {s : State} {r : Nat} (h : Ok pd s) : Ok pd (State.releaseLatches s r) := by
  unfold State.releaseLatches
  try dsimp only
  repeat' (first | (intro _) | with_reducible (first | assumption | apply Ok.ite | apply Ok.foldl | apply Ok.elim | apply Ok.ite_fst | apply Ok.ite_snd | apply Ok.foldl_fst) | fail_if_no_progress (with_reducible apply Ok.frame <;> first | rfl | skip) | split)

theorem dropRepair_ok {pd : List Instr} {s : State} {slot : Nat} {i : Nat} (h : Ok pd s) : Ok pd (State.dropRepair s slot i) := by
  unfold State.dropRepair
  try dsimp only
  repeat' (first | (intro _) | with_reducible (first | assumption | apply setRegion_ok | apply calEnded_ok | apply giveBack_ok | apply dropTracks_ok | apply Ok.ite | apply Ok.foldl | apply Ok.elim | apply Ok.ite_fst | apply Ok.ite_snd | apply Ok.foldl_fst) | fail_if_no_progress (with_reducible apply Ok.frame <;> first | rfl | skip) | split)

theorem suspend_ok {pd : List Instr} {s : State} {slot : Nat} {i : Nat} (h : Ok pd s) : Ok pd (State.suspend s slot i) := by
  unfold State.suspend
  try dsimp only
  repeat' (first | (intro _) | with_reducible (first | assumption | apply setGraph_ok | apply freeCell_ok | apply forgetCal_ok | apply abandonMove_ok | apply startHeld_ok | apply dropRepair_ok | apply Ok.ite | apply Ok.foldl | apply Ok.elim | apply Ok.ite_fst | apply Ok.ite_snd | apply Ok.foldl_fst) | fail_if_no_progress (with_reducible apply Ok.frame <;> first | rfl | skip) | split)

theorem execRegionIsolation_ok {pd : List Instr} {t : Nat} {r : Nat} {s : State} (h : Ok pd s) : OkO pd (execRegionIsolation t r s) := by
  unfold execRegionIsolation
  try dsimp only
  repeat' (first | with_reducible (first | apply ifUnit_ok | apply queueCmd_ok | apply Ok.outcome | apply Ok.fault | apply command_ok | apply onRegion_ok | apply onRegions_ok | apply portReq_ok | apply OkO.ite) | with_reducible (intro _) | with_reducible (first | assumption | apply setDac_ok | apply setGraph_ok | apply setRegion_ok | apply setLoad_ok | apply at_ok | apply ifUnit_ok | apply clearGuarded_ok | apply stage_ok | apply pinsToConfig_ok | apply latchSignals_ok | apply latchWires_ok | apply suspend_ok | apply Ok.ite | apply Ok.foldl | apply Ok.elim | apply Ok.ite_fst | apply Ok.ite_snd | apply Ok.foldl_fst) | fail_if_no_progress (with_reducible apply Ok.frame <;> first | rfl | skip) | split)

theorem placeAgain_ok {pd : List Instr} {s : State} {slot : Nat} {i : Nat} {x : Graph} (h : Ok pd s) : Ok pd (State.placeAgain s slot i x) := by
  unfold State.placeAgain
  try dsimp only
  repeat' (first | (intro _) | with_reducible (first | assumption | apply takeCell_ok | apply makeDue_ok | apply swapPlaces_ok | apply configPrim_ok | apply yieldCell_ok | apply yieldSegs_ok | apply builtCell_ok | apply endHeld_ok | apply Ok.ite | apply Ok.foldl | apply Ok.elim | apply Ok.ite_fst | apply Ok.ite_snd | apply Ok.foldl_fst) | fail_if_no_progress (with_reducible apply Ok.frame <;> first | rfl | skip) | split)

theorem restoreGraph_ok {pd : List Instr} {s : State} {slot : Nat} {meas : Measured} (h : Ok pd s) : Ok pd (State.restoreGraph s slot meas) := by
  unfold State.restoreGraph
  try dsimp only
  repeat' (first | (intro _) | with_reducible (first | assumption | apply setGraph_ok | apply reevalBy_ok | apply placeAgain_ok | apply Ok.ite | apply Ok.foldl | apply Ok.elim | apply Ok.ite_fst | apply Ok.ite_snd | apply Ok.foldl_fst) | fail_if_no_progress (with_reducible apply Ok.frame <;> first | rfl | skip) | split)

theorem placeSuspended_ok {pd : List Instr} {s : State} {l : Load} {meas : List (List Measured)} (h : Ok pd s) : Ok pd (State.placeSuspended s l meas) := by
  unfold State.placeSuspended
  try dsimp only
  repeat' (first | (intro _) | with_reducible (first | assumption | apply restoreGraph_ok | apply Ok.ite | apply Ok.foldl | apply Ok.elim | apply Ok.ite_fst | apply Ok.ite_snd | apply Ok.foldl_fst) | fail_if_no_progress (with_reducible apply Ok.frame <;> first | rfl | skip) | split)

theorem endRegion_ok {pd : List Instr} {s : State} {r : Nat} {l : Load} (h : Ok pd s) : Ok pd (State.endRegion s r l) := by
  unfold State.endRegion
  try dsimp only
  repeat' (first | (intro _) | with_reducible (first | assumption | apply setRegion_ok | apply setLoad_ok | apply final_ok | apply Ok.ite | apply Ok.foldl | apply Ok.elim | apply Ok.ite_fst | apply Ok.ite_snd | apply Ok.foldl_fst) | fail_if_no_progress (with_reducible apply Ok.frame <;> first | rfl | skip) | split)

theorem execRegionClockRelease_ok {pd : List Instr} {t : Nat} {r : Nat} {meas : List (List Measured)} {s : State} (h : Ok pd s) : OkO pd (execRegionClockRelease t r meas s) := by
  unfold execRegionClockRelease
  try dsimp only
  repeat' (first | with_reducible (first | apply ifUnit_ok | apply queueCmd_ok | apply Ok.outcome | apply Ok.fault | apply command_ok | apply onRegion_ok | apply onRegions_ok | apply portReq_ok | apply OkO.ite) | with_reducible (intro _) | with_reducible (first | assumption | apply setDac_ok | apply setRegion_ok | apply at_ok | apply ifUnit_ok | apply initFFs_ok | apply stage_ok | apply cellsFreed_ok | apply resume_ok | apply reswitch_ok | apply applyItems_ok | apply pinItems_ok | apply releaseLatches_ok | apply placeSuspended_ok | apply endRegion_ok | apply Ok.ite | apply Ok.foldl | apply Ok.elim | apply Ok.ite_fst | apply Ok.ite_snd | apply Ok.foldl_fst) | fail_if_no_progress (with_reducible apply Ok.frame <;> first | rfl | skip) | split)

end Sys2Proof.Machine
end

