-- ==== Sys2Proof/Laws/OkHusk.lean ====
section
/-! SUPPORT. Every operation of Machine/Husk.lean keeps the queue and every bounded field. -/

namespace Sys2Proof.Machine

set_option linter.unusedTactic false
set_option linter.unreachableTactic false

theorem captureLog_ok {pd : List Instr} {s : State} (h : Ok pd s) : Ok pd (State.captureLog s) := by
  unfold State.captureLog
  try dsimp only
  repeat' (first | (intro _) | with_reducible (first | assumption | apply log_ok | apply Ok.ite | apply Ok.foldl | apply Ok.elim | apply Ok.ite_fst | apply Ok.ite_snd | apply Ok.foldl_fst) | fail_if_no_progress (with_reducible apply Ok.frame <;> first | rfl | skip) | split)

theorem alarmCmds_ok {pd : List Instr} {s : State} (h : Ok pd s) : Ok pd (State.alarmCmds s) := by
  unfold State.alarmCmds
  try dsimp only
  repeat' (first | (intro _) | with_reducible (first | assumption | apply setLoad_ok | apply final_ok | apply stage_ok | apply enterFallow_ok | apply failLoad_ok | apply stopCmd_ok | apply Ok.ite | apply Ok.foldl | apply Ok.elim | apply Ok.ite_fst | apply Ok.ite_snd | apply Ok.foldl_fst) | fail_if_no_progress (with_reducible apply Ok.frame <;> first | rfl | skip) | split)

theorem haltPersona_ok {pd : List Instr} {s : State} (h : Ok pd s) : Ok pd (State.haltPersona s) := by
  unfold State.haltPersona
  try dsimp only
  repeat' (first | (intro _) | with_reducible (first | assumption | apply clearGuarded_ok | apply dacFault_ok | apply pinsDown_ok | apply alarmCmds_ok | apply Ok.ite | apply Ok.foldl | apply Ok.elim | apply Ok.ite_fst | apply Ok.ite_snd | apply Ok.foldl_fst) | fail_if_no_progress (with_reducible apply Ok.frame <;> first | rfl | skip) | split)

theorem alarmActions_ok {pd : List Instr} {s : State} {was : Nat} {c : Nat} (h : Ok pd s) : Ok pd (State.alarmActions s was c) := by
  unfold State.alarmActions
  try dsimp only
  repeat' (first | (intro _) | with_reducible (first | assumption | apply haltPersona_ok | apply Ok.ite | apply Ok.foldl | apply Ok.elim | apply Ok.ite_fst | apply Ok.ite_snd | apply Ok.foldl_fst) | fail_if_no_progress (with_reducible apply Ok.frame <;> first | rfl | skip) | split)

theorem raiseAlarm_ok {pd : List Instr} {s : State} {sensor : Nat} {cls : Nat} {detail : Nat} (h : Ok pd s) : Ok pd (State.raiseAlarm s sensor cls detail) := by
  unfold State.raiseAlarm
  try dsimp only
  repeat' (first | (intro _) | with_reducible (first | assumption | apply log_ok | apply bump_ok | apply resume_ok | apply captureLog_ok | apply alarmActions_ok | apply Ok.ite | apply Ok.foldl | apply Ok.elim | apply Ok.ite_fst | apply Ok.ite_snd | apply Ok.foldl_fst) | fail_if_no_progress (with_reducible apply Ok.frame <;> first | rfl | skip) | split)

theorem execHuskAlarm_ok {pd : List Instr} {t : Nat} {sensor : Nat} {detail : Nat} {s : State} (h : Ok pd s) : OkO pd (execHuskAlarm t sensor detail s) := by
  unfold execHuskAlarm
  try dsimp only
  repeat' (first | with_reducible (first | apply ifUnit_ok | apply queueCmd_ok | apply Ok.outcome | apply Ok.fault | apply command_ok | apply onRegion_ok | apply onRegions_ok | apply portReq_ok | apply OkO.ite) | with_reducible (intro _) | with_reducible (first | assumption | apply at_ok | apply ifUnit_ok | apply raiseAlarm_ok | apply Ok.ite | apply Ok.foldl | apply Ok.elim | apply Ok.ite_fst | apply Ok.ite_snd | apply Ok.foldl_fst) | fail_if_no_progress (with_reducible apply Ok.frame <;> first | rfl | skip) | split)

theorem execSensorInactive_ok {pd : List Instr} {t : Nat} {sensor : Nat} {s : State} (h : Ok pd s) : OkO pd (execSensorInactive t sensor s) := by
  unfold execSensorInactive
  try dsimp only
  repeat' (first | with_reducible (first | apply ifUnit_ok | apply queueCmd_ok | apply Ok.outcome | apply Ok.fault | apply command_ok | apply onRegion_ok | apply onRegions_ok | apply portReq_ok | apply OkO.ite) | with_reducible (intro _) | with_reducible (first | assumption | apply at_ok | apply ifUnit_ok | apply Ok.ite | apply Ok.foldl | apply Ok.elim | apply Ok.ite_fst | apply Ok.ite_snd | apply Ok.foldl_fst) | fail_if_no_progress (with_reducible apply Ok.frame <;> first | rfl | skip) | split)

theorem execTamperLatch_ok {pd : List Instr} {t : Nat} {sensor : Nat} {s : State} (h : Ok pd s) : OkO pd (execTamperLatch t sensor s) := by
  unfold execTamperLatch
  try dsimp only
  repeat' (first | with_reducible (first | apply ifUnit_ok | apply queueCmd_ok | apply Ok.outcome | apply Ok.fault | apply command_ok | apply onRegion_ok | apply onRegions_ok | apply portReq_ok | apply OkO.ite) | with_reducible (intro _) | with_reducible (first | assumption | apply at_ok | apply ifUnit_ok | apply Ok.ite | apply Ok.foldl | apply Ok.elim | apply Ok.ite_fst | apply Ok.ite_snd | apply Ok.foldl_fst) | fail_if_no_progress (with_reducible apply Ok.frame <;> first | rfl | skip) | split)

theorem raiseLatched_ok {pd : List Instr} {s : State} (h : Ok pd s) : Ok pd (State.raiseLatched s) := by
  unfold State.raiseLatched
  try dsimp only
  repeat' (first | (intro _) | with_reducible (first | assumption | apply raiseAlarm_ok | apply Ok.ite | apply Ok.foldl | apply Ok.elim | apply Ok.ite_fst | apply Ok.ite_snd | apply Ok.foldl_fst) | fail_if_no_progress (with_reducible apply Ok.frame <;> first | rfl | skip) | split)

theorem execKeyKillBurn_ok {pd : List Instr} {t : Nat} {s : State} (h : Ok pd s) : OkO pd (execKeyKillBurn t s) := by
  unfold execKeyKillBurn
  try dsimp only
  repeat' (first | with_reducible (first | apply ifUnit_ok | apply queueCmd_ok | apply Ok.outcome | apply Ok.fault | apply command_ok | apply onRegion_ok | apply onRegions_ok | apply portReq_ok | apply OkO.ite) | with_reducible (intro _) | with_reducible (first | assumption | apply at_ok | apply Ok.ite | apply Ok.foldl | apply Ok.elim | apply Ok.ite_fst | apply Ok.ite_snd | apply Ok.foldl_fst) | fail_if_no_progress (with_reducible apply Ok.frame <;> first | rfl | skip) | split)

theorem execCheckpointWrite_ok {pd : List Instr} {t : Nat} {s : State} (h : Ok pd s) : OkO pd (execCheckpointWrite t s) := by
  unfold execCheckpointWrite
  try dsimp only
  repeat' (first | with_reducible (first | apply ifUnit_ok | apply queueCmd_ok | apply Ok.outcome | apply Ok.fault | apply command_ok | apply onRegion_ok | apply onRegions_ok | apply portReq_ok | apply OkO.ite) | with_reducible (intro _) | with_reducible (first | assumption | apply at_ok | apply Ok.ite | apply Ok.foldl | apply Ok.elim | apply Ok.ite_fst | apply Ok.ite_snd | apply Ok.foldl_fst) | fail_if_no_progress (with_reducible apply Ok.frame <;> first | rfl | skip) | split)

theorem applyPolicy_ok {pd : List Instr} {s : State} {p : AlarmPolicy} (h : Ok pd s) : Ok pd (State.applyPolicy s p) := by
  unfold State.applyPolicy
  try dsimp only
  repeat' (first | (intro _) | with_reducible (first | assumption | apply Ok.ite | apply Ok.foldl | apply Ok.elim | apply Ok.ite_fst | apply Ok.ite_snd | apply Ok.foldl_fst) | fail_if_no_progress (with_reducible apply Ok.frame <;> first | rfl | skip) | split)

theorem loadPolicy_ok {pd : List Instr} {s : State} {ok : Bool} (h : Ok pd s) : Ok pd (State.loadPolicy s ok) := by
  unfold State.loadPolicy
  try dsimp only
  repeat' (first | (intro _) | with_reducible (first | assumption | apply log_ok | apply applyPolicy_ok | apply Ok.ite | apply Ok.foldl | apply Ok.elim | apply Ok.ite_fst | apply Ok.ite_snd | apply Ok.foldl_fst) | fail_if_no_progress (with_reducible apply Ok.frame <;> first | rfl | skip) | split)

theorem bodyAlarmPolicy_ok {pd : List Instr} {image : Bytes} {cr : Crypto} {verified : Bool} {slot : Nat} {a : Bytes} {s : State} (h : Ok pd s) : Ok pd (bodyAlarmPolicy image cr verified slot a s) := by
  unfold bodyAlarmPolicy
  try dsimp only
  repeat' (first | (intro _) | with_reducible (first | assumption | apply final_ok | apply applyPolicy_ok | apply Ok.ite | apply Ok.foldl | apply Ok.elim | apply Ok.ite_fst | apply Ok.ite_snd | apply Ok.foldl_fst) | fail_if_no_progress (with_reducible apply Ok.frame <;> first | rfl | skip) | split)

theorem execAlarmPolicy_ok {pd : List Instr} {d : Desc} {image : Bytes} {cr : Crypto} {verified : Bool} {s : State} (h : Ok pd s) : OkO pd (execAlarmPolicy d image cr verified s) := by
  unfold execAlarmPolicy
  try dsimp only
  repeat' (first | with_reducible (first | apply ifUnit_ok | apply queueCmd_ok | apply Ok.outcome | apply Ok.fault | apply command_ok | apply onRegion_ok | apply onRegions_ok | apply portReq_ok | apply OkO.ite) | with_reducible (intro _) | with_reducible (first | assumption | apply command_ok | apply queueCmd_ok | apply bodyAlarmPolicy_ok | apply Ok.ite | apply Ok.foldl | apply Ok.elim | apply Ok.ite_fst | apply Ok.ite_snd | apply Ok.foldl_fst) | fail_if_no_progress (with_reducible apply Ok.frame <;> first | rfl | skip) | split)

theorem setFuses_ok {pd : List Instr} {s : State} {f : Fuses → Fuses} (h : Ok pd s) : Ok pd (State.setFuses s f) := by
  unfold State.setFuses
  try dsimp only
  repeat' (first | (intro _) | with_reducible (first | assumption | apply Ok.ite | apply Ok.foldl | apply Ok.elim | apply Ok.ite_fst | apply Ok.ite_snd | apply Ok.foldl_fst) | fail_if_no_progress (with_reducible apply Ok.frame <;> first | rfl | skip) | split)

theorem setKey_ok {pd : List Instr} {s : State} {k : Nat} {v : Option Bytes} (h : Ok pd s) : Ok pd (State.setKey s k v) := by
  unfold State.setKey
  try dsimp only
  repeat' (first | (intro _) | with_reducible (first | assumption | apply Ok.ite | apply Ok.foldl | apply Ok.elim | apply Ok.ite_fst | apply Ok.ite_snd | apply Ok.foldl_fst) | fail_if_no_progress (with_reducible apply Ok.frame <;> first | rfl | skip) | split)

theorem commitKey_ok {pd : List Instr} {s : State} {slot : Nat} {i : Nat} {staged : Option Bytes} {payload : Bytes} {cr : Crypto} (h : Ok pd s) : Ok pd (State.commitKey s slot i staged payload cr) := by
  unfold State.commitKey
  try dsimp only
  repeat' (first | (intro _) | with_reducible (first | assumption | apply final_ok | apply setFuses_ok | apply Ok.ite | apply Ok.foldl | apply Ok.elim | apply Ok.ite_fst | apply Ok.ite_snd | apply Ok.foldl_fst) | fail_if_no_progress (with_reducible apply Ok.frame <;> first | rfl | skip) | split)

theorem provision_ok {pd : List Instr} {s : State} {slot : Nat} {key : Nat} {flags : Nat} {b : Bytes} {staged : Option Bytes} {cr : Crypto} (h : Ok pd s) : Ok pd (State.provision s slot key flags b staged cr) := by
  unfold State.provision
  try dsimp only
  repeat' (first | (intro _) | with_reducible (first | assumption | apply final_ok | apply setFuses_ok | apply setKey_ok | apply commitKey_ok | apply Ok.ite | apply Ok.foldl | apply Ok.elim | apply Ok.ite_fst | apply Ok.ite_snd | apply Ok.foldl_fst) | fail_if_no_progress (with_reducible apply Ok.frame <;> first | rfl | skip) | split)

theorem bodyKeyProvision_ok {pd : List Instr} {blob : Bytes} {cr : Crypto} {slot : Nat} {a : Bytes} {s0 : State} (h : Ok pd s0) : Ok pd (bodyKeyProvision blob cr slot a s0) := by
  unfold bodyKeyProvision
  try dsimp only
  repeat' (first | (intro _) | with_reducible (first | assumption | apply hostWrite_ok | apply final_ok | apply provision_ok | apply Ok.ite | apply Ok.foldl | apply Ok.elim | apply Ok.ite_fst | apply Ok.ite_snd | apply Ok.foldl_fst) | fail_if_no_progress (with_reducible apply Ok.frame <;> first | rfl | skip) | split)

theorem execKeyProvision_ok {pd : List Instr} {d : Desc} {blob : Bytes} {cr : Crypto} {s : State} (h : Ok pd s) : OkO pd (execKeyProvision d blob cr s) := by
  unfold execKeyProvision
  try dsimp only
  repeat' (first | with_reducible (first | apply ifUnit_ok | apply queueCmd_ok | apply Ok.outcome | apply Ok.fault | apply command_ok | apply onRegion_ok | apply onRegions_ok | apply portReq_ok | apply OkO.ite) | with_reducible (intro _) | with_reducible (first | assumption | apply command_ok | apply queueCmd_ok | apply bodyKeyProvision_ok | apply Ok.ite | apply Ok.foldl | apply Ok.elim | apply Ok.ite_fst | apply Ok.ite_snd | apply Ok.foldl_fst) | fail_if_no_progress (with_reducible apply Ok.frame <;> first | rfl | skip) | split)

theorem bodyAttest_ok {pd : List Instr} {sig : Bytes} {slot : Nat} {a : Bytes} {s : State} (h : Ok pd s) : Ok pd (bodyAttest sig slot a s) := by
  unfold bodyAttest
  try dsimp only
  repeat' (first | (intro _) | with_reducible (first | assumption | apply hostWrite_ok | apply final_ok | apply Ok.ite | apply Ok.foldl | apply Ok.elim | apply Ok.ite_fst | apply Ok.ite_snd | apply Ok.foldl_fst) | fail_if_no_progress (with_reducible apply Ok.frame <;> first | rfl | skip) | split)

theorem execAttest_ok {pd : List Instr} {d : Desc} {sig : Bytes} {s : State} (h : Ok pd s) : OkO pd (execAttest d sig s) := by
  unfold execAttest
  try dsimp only
  repeat' (first | with_reducible (first | apply ifUnit_ok | apply queueCmd_ok | apply Ok.outcome | apply Ok.fault | apply command_ok | apply onRegion_ok | apply onRegions_ok | apply portReq_ok | apply OkO.ite) | with_reducible (intro _) | with_reducible (first | assumption | apply command_ok | apply queueCmd_ok | apply bodyAttest_ok | apply Ok.ite | apply Ok.foldl | apply Ok.elim | apply Ok.ite_fst | apply Ok.ite_snd | apply Ok.foldl_fst) | fail_if_no_progress (with_reducible apply Ok.frame <;> first | rfl | skip) | split)

end Sys2Proof.Machine
end

