-- ==== Sys2Proof/Laws/OkBoot.lean ====
section
/-! SUPPORT. Every operation of Machine/Boot.lean keeps the queue and every bounded field. -/

namespace Sys2Proof.Machine

set_option linter.unusedTactic false
set_option linter.unreachableTactic false

theorem resetFlash_ok {pd : List Instr} {s : State} (h : Ok pd s) : Ok pd (State.resetFlash s) := by
  unfold State.resetFlash
  try dsimp only
  repeat' (first | (intro _) | with_reducible (first | assumption | apply emit_ok | apply Ok.ite | apply Ok.foldl | apply Ok.elim | apply Ok.ite_fst | apply Ok.ite_snd | apply Ok.foldl_fst) | fail_if_no_progress (with_reducible apply Ok.frame <;> first | rfl | skip) | split)

theorem powerOn_ok {pd : List Instr} {s : State} {cause : Nat} {cfgPull hostSel vrefSel : Bool} (h : Ok pd s) :
    Ok pd (State.powerOn s cause cfgPull hostSel vrefSel) :=
  raiseLatched_ok (resetFlash_ok ⟨h.1, Nat.le_of_ble_eq_true rfl, ⟨Nat.le_of_ble_eq_true rfl, Nat.le_of_ble_eq_true rfl⟩, rfl, Nat.le_of_ble_eq_true rfl, Nat.le_of_ble_eq_true rfl, Nat.le_of_ble_eq_true rfl, ⟨Nat.le_of_ble_eq_true rfl, Nat.le_of_ble_eq_true rfl⟩, ⟨Nat.le_of_ble_eq_true rfl, Nat.le_of_ble_eq_true rfl⟩, ⟨Nat.le_of_ble_eq_true rfl, Nat.le_of_ble_eq_true rfl⟩, ⟨Nat.le_of_ble_eq_true rfl, Nat.le_of_ble_eq_true rfl⟩, Nat.le_of_ble_eq_true rfl, Nat.le_of_ble_eq_true rfl, Nat.le_of_ble_eq_true rfl⟩)

theorem execPor_ok {pd : List Instr} {t : Nat} {cfgPull : Bool} {hostSel : Bool} {vrefSel : Bool} {s : State} (h : Ok pd s) : OkO pd (execPor t cfgPull hostSel vrefSel s) := by
  unfold execPor
  try dsimp only
  repeat' (first | with_reducible (first | apply ifUnit_ok | apply queueCmd_ok | apply Ok.outcome | apply Ok.fault | apply command_ok | apply onRegion_ok | apply onRegions_ok | apply portReq_ok | apply OkO.ite) | with_reducible (intro _) | with_reducible (first | assumption | apply at_ok | apply powerOn_ok | apply Ok.ite | apply Ok.foldl | apply Ok.elim | apply Ok.ite_fst | apply Ok.ite_snd | apply Ok.foldl_fst) | fail_if_no_progress (with_reducible apply Ok.frame <;> first | rfl | skip) | split)

theorem execBrownout_ok {pd : List Instr} {t : Nat} {cfgPull : Bool} {hostSel : Bool} {vrefSel : Bool} {s : State} (h : Ok pd s) : OkO pd (execBrownout t cfgPull hostSel vrefSel s) := by
  unfold execBrownout
  try dsimp only
  repeat' (first | with_reducible (first | apply ifUnit_ok | apply queueCmd_ok | apply Ok.outcome | apply Ok.fault | apply command_ok | apply onRegion_ok | apply onRegions_ok | apply portReq_ok | apply OkO.ite) | with_reducible (intro _) | with_reducible (first | assumption | apply at_ok | apply powerOn_ok | apply Ok.ite | apply Ok.foldl | apply Ok.elim | apply Ok.ite_fst | apply Ok.ite_snd | apply Ok.foldl_fst) | fail_if_no_progress (with_reducible apply Ok.frame <;> first | rfl | skip) | split)

theorem addCause_ok {pd : List Instr} {s : State} {i : Nat} (h : Ok pd s) : Ok pd (State.addCause s i) := by
  unfold State.addCause
  try dsimp only
  repeat' (first | (intro _) | with_reducible (first | assumption | apply Ok.ite | apply Ok.foldl | apply Ok.elim | apply Ok.ite_fst | apply Ok.ite_snd | apply Ok.foldl_fst) | fail_if_no_progress (with_reducible apply Ok.frame <;> first | rfl | skip) | split)

theorem warmHost_ok {pd : List Instr} {s : State} (h : Ok pd s) : Ok pd (State.warmHost s) := by
  unfold State.warmHost
  refine Ok.foldl ?_ fun s e hs => logAll_ok _ _ _ hs
  obtain ⟨hp, h1, h2, h3, h4, -, -, -, -, h9, h10, h11, h12, h13⟩ := h
  exact ⟨hp, h1, h2, h3, h4, Nat.le_of_ble_eq_true rfl, Nat.le_of_ble_eq_true rfl, ⟨Nat.le_of_ble_eq_true rfl, Nat.le_of_ble_eq_true rfl⟩, ⟨Nat.le_of_ble_eq_true rfl, Nat.le_of_ble_eq_true rfl⟩, h9, h10, h11, h12, h13⟩

theorem warmClear_ok {pd : List Instr} {s : State} (h : Ok pd s) : Ok pd (State.warmClear s) := by
  unfold State.warmClear
  refine Ok.foldl (Ok.foldl (Ok.foldl ?_ fun s g hs => setGck_ok hs) fun s b hs => setBank_ok hs) fun s n hs => setDac_ok hs
  exact h.step ⟨Nat.le_of_ble_eq_true rfl, Nat.le_of_ble_eq_true rfl⟩ rfl rfl rfl rfl rfl rfl rfl rfl rfl rfl rfl rfl rfl

theorem warm_ok {pd : List Instr} {s : State} {cause : Nat} (h : Ok pd s) : Ok pd (State.warm s cause) := by
  unfold State.warm
  try dsimp only
  repeat' (first | (intro _) | with_reducible (first | assumption | apply enterFallow_ok | apply addCause_ok | apply warmHost_ok | apply warmClear_ok | apply Ok.ite | apply Ok.foldl | apply Ok.elim | apply Ok.ite_fst | apply Ok.ite_snd | apply Ok.foldl_fst) | fail_if_no_progress (with_reducible apply Ok.frame <;> first | rfl | skip) | split)

theorem execResetN_ok {pd : List Instr} {t : Nat} {lowNs : Nat} {s : State} (h : Ok pd s) : OkO pd (execResetN t lowNs s) := by
  unfold execResetN
  try dsimp only
  repeat' (first | with_reducible (first | apply ifUnit_ok | apply queueCmd_ok | apply Ok.outcome | apply Ok.fault | apply command_ok | apply onRegion_ok | apply onRegions_ok | apply portReq_ok | apply OkO.ite) | with_reducible (intro _) | with_reducible (first | assumption | apply at_ok | apply warm_ok | apply Ok.ite | apply Ok.foldl | apply Ok.elim | apply Ok.ite_fst | apply Ok.ite_snd | apply Ok.foldl_fst) | fail_if_no_progress (with_reducible apply Ok.frame <;> first | rfl | skip) | split)

theorem writeResetCtl_ok {pd : List Instr} {s : State} {v : Nat} (h : Ok pd s) : Ok pd (State.writeResetCtl s v) := by
  unfold State.writeResetCtl
  try dsimp only
  repeat' (first | (intro _) | with_reducible (first | assumption | apply warm_ok | apply Ok.ite | apply Ok.foldl | apply Ok.elim | apply Ok.ite_fst | apply Ok.ite_snd | apply Ok.foldl_fst) | fail_if_no_progress (with_reducible apply Ok.frame <;> first | rfl | skip) | split)

theorem execWarmReset_ok {pd : List Instr} {t : Nat} {value : Word} {s : State} (h : Ok pd s) : OkO pd (execWarmReset t value s) := by
  unfold execWarmReset
  try dsimp only
  repeat' (first | with_reducible (first | apply ifUnit_ok | apply queueCmd_ok | apply Ok.outcome | apply Ok.fault | apply command_ok | apply onRegion_ok | apply onRegions_ok | apply portReq_ok | apply OkO.ite) | with_reducible (intro _) | with_reducible (first | assumption | apply at_ok | apply writeResetCtl_ok | apply Ok.ite | apply Ok.foldl | apply Ok.elim | apply Ok.ite_fst | apply Ok.ite_snd | apply Ok.foldl_fst) | fail_if_no_progress (with_reducible apply Ok.frame <;> first | rfl | skip) | split)

theorem discardAll_ok {pd : List Instr} {s : State} (h : Ok pd s) : Ok pd (State.discardAll s) := by
  unfold State.discardAll
  try dsimp only
  repeat' (first | (intro _) | with_reducible (first | assumption | apply setHnd_ok | apply Ok.ite | apply Ok.foldl | apply Ok.elim | apply Ok.ite_fst | apply Ok.ite_snd | apply Ok.foldl_fst) | fail_if_no_progress (with_reducible apply Ok.frame <;> first | rfl | skip) | split)

theorem resetHost_ok {pd : List Instr} {s : State} (h : Ok pd s) : Ok pd (State.resetHost s) := by
  have h1 : Ok pd (s.addCause 4).discardAll := discardAll_ok (addCause_ok h)
  unfold State.resetHost
  dsimp only
  generalize (s.addCause 4).discardAll = s1 at h1 ⊢
  refine resume_ok (cellsFreed_ok (Ok.foldl (Ok.foldl (Ok.foldl ?_ fun s _ hs => final_ok hs) fun s _ hs => release_ok hs) fun s _ hs => removeGraph_ok hs))
  exact h1.host (Nat.le_of_ble_eq_true rfl) ⟨Nat.le_of_ble_eq_true rfl, Nat.le_of_ble_eq_true rfl⟩ ⟨Nat.le_of_ble_eq_true rfl, Nat.le_of_ble_eq_true rfl⟩

theorem execPerst_ok {pd : List Instr} {t : Nat} {s : State} (h : Ok pd s) : OkO pd (execPerst t s) := by
  unfold execPerst
  try dsimp only
  repeat' (first | with_reducible (first | apply ifUnit_ok | apply queueCmd_ok | apply Ok.outcome | apply Ok.fault | apply command_ok | apply onRegion_ok | apply onRegions_ok | apply portReq_ok | apply OkO.ite) | with_reducible (intro _) | with_reducible (first | assumption | apply at_ok | apply resetHost_ok | apply Ok.ite | apply Ok.foldl | apply Ok.elim | apply Ok.ite_fst | apply Ok.ite_snd | apply Ok.foldl_fst) | fail_if_no_progress (with_reducible apply Ok.frame <;> first | rfl | skip) | split)

theorem execLinkTrained_ok {pd : List Instr} {t : Nat} {speed : Nat} {width : Nat} {s : State} (h : Ok pd s) : OkO pd (execLinkTrained t speed width s) := by
  unfold execLinkTrained
  try dsimp only
  repeat' (first | with_reducible (first | apply ifUnit_ok | apply queueCmd_ok | apply Ok.outcome | apply Ok.fault | apply command_ok | apply onRegion_ok | apply onRegions_ok | apply portReq_ok | apply OkO.ite) | with_reducible (intro _) | with_reducible (first | assumption | apply at_ok | apply Ok.ite | apply Ok.foldl | apply Ok.elim | apply Ok.ite_fst | apply Ok.ite_snd | apply Ok.foldl_fst) | fail_if_no_progress (with_reducible apply Ok.frame <;> first | rfl | skip) | split)

theorem execLinkRetraining_ok {pd : List Instr} {t : Nat} {s : State} (h : Ok pd s) : OkO pd (execLinkRetraining t s) := by
  unfold execLinkRetraining
  try dsimp only
  repeat' (first | with_reducible (first | apply ifUnit_ok | apply queueCmd_ok | apply Ok.outcome | apply Ok.fault | apply command_ok | apply onRegion_ok | apply onRegions_ok | apply portReq_ok | apply OkO.ite) | with_reducible (intro _) | with_reducible (first | assumption | apply at_ok | apply Ok.ite | apply Ok.foldl | apply Ok.elim | apply Ok.ite_fst | apply Ok.ite_snd | apply Ok.foldl_fst) | fail_if_no_progress (with_reducible apply Ok.frame <;> first | rfl | skip) | split)

theorem execSuppliesValid_ok {pd : List Instr} {t : Nat} {s : State} (h : Ok pd s) : OkO pd (execSuppliesValid t s) := by
  have h1 : Ok pd (s.at t) := at_ok h
  unfold execSuppliesValid
  refine Ok.outcome (Ok.foldl (Ok.ite ?_ h1) fun s n hs => ?_)
  · exact h1.step ⟨Nat.le_of_ble_eq_true rfl, Nat.le_of_ble_eq_true rfl⟩ rfl rfl rfl rfl rfl rfl rfl rfl rfl rfl rfl rfl rfl
  · exact Ok.ite (setDac_ok hs) hs

theorem startTimebase_ok {pd : List Instr} {s : State} {refKHz : Nat} (h : Ok pd s) : Ok pd (State.startTimebase s refKHz) := by
  have h1 : Ok pd { s with time := { s.time with timebase := 0, running := true }, clk := { s.clk with lock := 15 } } :=
    (h.time (c := { s.time with timebase := 0, running := true }) (Nat.le_of_ble_eq_true rfl) h.2.2.1).frame
      rfl rfl rfl rfl rfl rfl rfl rfl rfl rfl rfl rfl rfl rfl
  have h2 := fun f : State → Nat → State => fun hf : ∀ s n, Ok pd s → Ok pd (f s n) => Ok.foldl (l := List.range 64) (f := f) h1 hf
  unfold State.startTimebase
  dsimp only
  split
  · refine (h2 _ fun s n hs => ?_).frame rfl rfl rfl rfl rfl rfl rfl rfl rfl rfl rfl rfl rfl rfl
    exact setDac_ok hs
  · refine loseRef_ok (h2 _ fun s n hs => ?_)
    exact setDac_ok hs

theorem failSelfTest_ok {pd : List Instr} {s : State} {arg : Nat} (h : Ok pd s) : Ok pd (State.failSelfTest s arg) := by
  unfold State.failSelfTest
  try dsimp only
  repeat' (first | (intro _) | with_reducible (first | assumption | apply log_ok | apply Ok.ite | apply Ok.foldl | apply Ok.elim | apply Ok.ite_fst | apply Ok.ite_snd | apply Ok.foldl_fst) | fail_if_no_progress (with_reducible apply Ok.frame <;> first | rfl | skip) | split)

theorem execPllLock_ok {pd : List Instr} {t refKHz : Nat} {fuseOk : Bool} {s : State} (h : Ok pd s) : OkO pd (execPllLock t refKHz fuseOk s) := by
  have h1 : Ok pd (s.at t) := at_ok h
  have h4 : ∀ u, Ok pd u → Ok pd { u with time := { u.time with step := 4 }, clk := { u.clk with bootSync := false } } := fun u hu =>
    hu.step ⟨Nat.le_of_ble_eq_true rfl, Nat.le_of_ble_eq_true rfl⟩ rfl rfl rfl rfl rfl rfl rfl rfl rfl rfl rfl rfl rfl
  unfold execPllLock
  refine Ok.outcome (Ok.ite h1 ?_)
  have h2 : Ok pd ((s.at t).setFuses fun f => if f.keyKillPending then { f with keyKill := 7, keyKillPending := false } else f) := setFuses_ok h1
  have h3 := h4 _ (Ok.ite (c := ((s.at t).setFuses fun f => if f.keyKillPending then { f with keyKill := 7, keyKillPending := false } else f).time.running = true) h2 (startTimebase_ok (refKHz := refKHz) h2))
  exact Ok.ite h3 (failSelfTest_ok h3)

theorem measureBanks_ok {pd : List Instr} {s : State} {vccio : List Nat} (h : Ok pd s) : Ok pd (State.measureBanks s vccio) := by
  unfold State.measureBanks
  try dsimp only
  repeat' (first | (intro _) | with_reducible (first | assumption | apply setBank_ok | apply Ok.ite | apply Ok.foldl | apply Ok.elim | apply Ok.ite_fst | apply Ok.ite_snd | apply Ok.foldl_fst) | fail_if_no_progress (with_reducible apply Ok.frame <;> first | rfl | skip) | split)

theorem storedScale_ok {pd : List Instr} {s : State} (h : Ok pd s) : Ok pd (State.storedScale s) := by
  unfold State.storedScale
  try dsimp only
  repeat' (first | (intro _) | with_reducible (first | assumption | apply setConv_ok | apply setDac_ok | apply Ok.ite | apply Ok.foldl | apply Ok.elim | apply Ok.ite_fst | apply Ok.ite_snd | apply Ok.foldl_fst) | fail_if_no_progress (with_reducible apply Ok.frame <;> first | rfl | skip) | split)

theorem loseKeyRam_ok {pd : List Instr} {s : State} (h : Ok pd s) : Ok pd (State.loseKeyRam s) := by
  unfold State.loseKeyRam
  try dsimp only
  repeat' (first | (intro _) | with_reducible (first | assumption | apply log_ok | apply Ok.ite | apply Ok.foldl | apply Ok.elim | apply Ok.ite_fst | apply Ok.ite_snd | apply Ok.foldl_fst) | fail_if_no_progress (with_reducible apply Ok.frame <;> first | rfl | skip) | split)

theorem enterStep4_ok {pd : List Instr} {s : State} {vccio : List Nat} {policyOk keyLost : Bool} (h : Ok pd s) :
    Ok pd (State.enterStep4 s vccio policyOk keyLost) := by
  unfold State.enterStep4
  have h1 : Ok pd ((s.loadKeep.storedScale).measureBanks vccio) := measureBanks_ok (storedScale_ok (loadKeep_ok h))
  have h2 := fun s (hs : Ok pd s) => Ok.foldl (l := List.range 8)
    (f := fun s r => (s.setRegion r { s.region r with covStart := s.now }).refill r) hs fun s r hs => refill_ok (setRegion_ok hs)
  dsimp only at h2 ⊢
  refine (fun t (ht : Ok pd t) => ht.step (time := { t.time with step := 5, step4 := t.now }) (boot := { t.boot with hostWaiting := t.boot.hostFirst, trying := !t.boot.hostFirst, tryNext := 0 }) ⟨Nat.le_of_ble_eq_true rfl, Nat.le_of_ble_eq_true rfl⟩ rfl rfl rfl rfl rfl rfl rfl rfl rfl rfl rfl rfl rfl) _ (h2 _ (loadPolicy_ok (Ok.ite (loseKeyRam_ok h1) h1)))

theorem execSelfTest_ok {pd : List Instr} {t : Nat} {fail : Nat} {vccio : List Nat} {policyOk : Bool} {keyLost : Bool} {s : State} (h : Ok pd s) : OkO pd (execSelfTest t fail vccio policyOk keyLost s) := by
  unfold execSelfTest
  try dsimp only
  repeat' (first | with_reducible (first | apply ifUnit_ok | apply queueCmd_ok | apply Ok.outcome | apply Ok.fault | apply command_ok | apply onRegion_ok | apply onRegions_ok | apply portReq_ok | apply OkO.ite) | with_reducible (intro _) | with_reducible (first | assumption | apply at_ok | apply fresh_ok | apply log_ok | apply failSelfTest_ok | apply enterStep4_ok | apply Ok.ite | apply Ok.foldl | apply Ok.elim | apply Ok.ite_fst | apply Ok.ite_snd | apply Ok.foldl_fst) | fail_if_no_progress (with_reducible apply Ok.frame <;> first | rfl | skip) | split)

theorem endHostWait_ok {pd : List Instr} {s : State} (h : Ok pd s) : Ok pd (State.endHostWait s) := by
  unfold State.endHostWait
  try dsimp only
  repeat' (first | (intro _) | with_reducible (first | assumption | apply Ok.ite | apply Ok.foldl | apply Ok.elim | apply Ok.ite_fst | apply Ok.ite_snd | apply Ok.foldl_fst) | fail_if_no_progress (with_reducible apply Ok.frame <;> first | rfl | skip) | split)

theorem execHostWaitExpiry_ok {pd : List Instr} {t : Nat} {s : State} (h : Ok pd s) : OkO pd (execHostWaitExpiry t s) := by
  unfold execHostWaitExpiry
  try dsimp only
  repeat' (first | with_reducible (first | apply ifUnit_ok | apply queueCmd_ok | apply Ok.outcome | apply Ok.fault | apply command_ok | apply onRegion_ok | apply onRegions_ok | apply portReq_ok | apply OkO.ite) | with_reducible (intro _) | with_reducible (first | assumption | apply at_ok | apply endHostWait_ok | apply Ok.ite | apply Ok.foldl | apply Ok.elim | apply Ok.ite_fst | apply Ok.ite_snd | apply Ok.foldl_fst) | fail_if_no_progress (with_reducible apply Ok.frame <;> first | rfl | skip) | split)

theorem bootGo_ok {pd : List Instr} {s : State} {header : Bytes} (h : Ok pd s) : Ok pd (State.bootGo s header) := by
  unfold State.bootGo
  try dsimp only
  repeat' (first | (intro _) | with_reducible (first | assumption | apply beginLoad_ok | apply endHostWait_ok | apply Ok.ite | apply Ok.foldl | apply Ok.elim | apply Ok.ite_fst | apply Ok.ite_snd | apply Ok.foldl_fst) | fail_if_no_progress (with_reducible apply Ok.frame <;> first | rfl | skip) | split)

theorem writeGo_ok {pd : List Instr} {s : State} {v : Nat} {header : Bytes} (h : Ok pd s) : Ok pd (State.writeGo s v header) := by
  unfold State.writeGo
  try dsimp only
  repeat' (first | (intro _) | with_reducible (first | assumption | apply bootGo_ok | apply Ok.ite | apply Ok.foldl | apply Ok.elim | apply Ok.ite_fst | apply Ok.ite_snd | apply Ok.foldl_fst) | fail_if_no_progress (with_reducible apply Ok.frame <;> first | rfl | skip) | split)

theorem execBootGo_ok {pd : List Instr} {t : Nat} {value : Word} {header : Bytes} {s : State} (h : Ok pd s) : OkO pd (execBootGo t value header s) := by
  unfold execBootGo
  try dsimp only
  repeat' (first | with_reducible (first | apply ifUnit_ok | apply queueCmd_ok | apply Ok.outcome | apply Ok.fault | apply command_ok | apply onRegion_ok | apply onRegions_ok | apply portReq_ok | apply OkO.ite) | with_reducible (intro _) | with_reducible (first | assumption | apply at_ok | apply writeGo_ok | apply Ok.ite | apply Ok.foldl | apply Ok.elim | apply Ok.ite_fst | apply Ok.ite_snd | apply Ok.foldl_fst) | fail_if_no_progress (with_reducible apply Ok.frame <;> first | rfl | skip) | split)

theorem startTrees_ok {pd : List Instr} {s : State} (h : Ok pd s) : Ok pd (State.startTrees s) :=
  h.step ⟨Nat.le_of_ble_eq_true rfl, Nat.le_of_ble_eq_true rfl⟩ rfl rfl rfl rfl rfl rfl rfl rfl rfl rfl rfl rfl rfl

theorem execDoneHigh_ok {pd : List Instr} {t : Nat} {s : State} (h : Ok pd s) : OkO pd (execDoneHigh t s) := by
  unfold execDoneHigh
  try dsimp only
  repeat' (first | with_reducible (first | apply ifUnit_ok | apply queueCmd_ok | apply Ok.outcome | apply Ok.fault | apply command_ok | apply onRegion_ok | apply onRegions_ok | apply portReq_ok | apply OkO.ite) | with_reducible (intro _) | with_reducible (first | assumption | apply at_ok | apply startTrees_ok | apply Ok.ite | apply Ok.foldl | apply Ok.elim | apply Ok.ite_fst | apply Ok.ite_snd | apply Ok.foldl_fst) | fail_if_no_progress (with_reducible apply Ok.frame <;> first | rfl | skip) | split)

theorem execDoneTimeout_ok {pd : List Instr} {t : Nat} {s : State} (h : Ok pd s) : OkO pd (execDoneTimeout t s) := by
  unfold execDoneTimeout
  try dsimp only
  repeat' (first | with_reducible (first | apply ifUnit_ok | apply queueCmd_ok | apply Ok.outcome | apply Ok.fault | apply command_ok | apply onRegion_ok | apply onRegions_ok | apply portReq_ok | apply OkO.ite) | with_reducible (intro _) | with_reducible (first | assumption | apply at_ok | apply log_ok | apply startTrees_ok | apply Ok.ite | apply Ok.foldl | apply Ok.elim | apply Ok.ite_fst | apply Ok.ite_snd | apply Ok.foldl_fst) | fail_if_no_progress (with_reducible apply Ok.frame <;> first | rfl | skip) | split)

theorem deassertTrees_ok {pd : List Instr} {s : State} (h : Ok pd s) : Ok pd (State.deassertTrees s) := by
  unfold State.deassertTrees
  try dsimp only
  repeat' (first | (intro _) | with_reducible (first | assumption | apply setDac_ok | apply setGck_ok | apply initFFs_ok | apply Ok.ite | apply Ok.foldl | apply Ok.elim | apply Ok.ite_fst | apply Ok.ite_snd | apply Ok.foldl_fst) | fail_if_no_progress (with_reducible apply Ok.frame <;> first | rfl | skip) | split)

theorem releaseReset_ok {pd : List Instr} {s : State} (h : Ok pd s) : Ok pd (State.releaseReset s) := by
  unfold State.releaseReset
  have h3 := deassertTrees_ok h
  generalize s.deassertTrees = s3 at h3 ⊢
  have h4 : Ok pd { s3 with fab := { s3.fab with forcedLow := false }, time := { s3.time with step := 9 } } :=
    h3.step ⟨Nat.le_of_ble_eq_true rfl, Nat.le_of_ble_eq_true rfl⟩ rfl rfl rfl rfl rfl rfl rfl rfl rfl rfl rfl rfl rfl
  dsimp only at h4 ⊢
  split
  · exact h4
  · exact (final_ok h4).frame rfl rfl rfl rfl rfl rfl rfl rfl rfl rfl rfl rfl rfl rfl

theorem execResetRelease_ok {pd : List Instr} {t : Nat} {s : State} (h : Ok pd s) : OkO pd (execResetRelease t s) := by
  unfold execResetRelease
  try dsimp only
  repeat' (first | with_reducible (first | apply ifUnit_ok | apply queueCmd_ok | apply Ok.outcome | apply Ok.fault | apply command_ok | apply onRegion_ok | apply onRegions_ok | apply portReq_ok | apply OkO.ite) | with_reducible (intro _) | with_reducible (first | assumption | apply at_ok | apply releaseReset_ok | apply Ok.ite | apply Ok.foldl | apply Ok.elim | apply Ok.ite_fst | apply Ok.ite_snd | apply Ok.foldl_fst) | fail_if_no_progress (with_reducible apply Ok.frame <;> first | rfl | skip) | split)

theorem execOutputEnable_ok {pd : List Instr} {t : Nat} {s : State} (h : Ok pd s) : OkO pd (execOutputEnable t s) := by
  have h1 : Ok pd (s.at t) := at_ok h
  unfold execOutputEnable
  refine Ok.outcome (Ok.ite ?_ h1)
  exact (pinItems_ok h1).step ⟨Nat.le_of_ble_eq_true rfl, Nat.le_of_ble_eq_true rfl⟩ rfl rfl rfl rfl rfl rfl rfl rfl rfl rfl rfl rfl rfl

theorem banner_ok {pd : List Instr} {s : State} (h : Ok pd s) : Ok pd (State.banner s) := by
  unfold State.banner
  try dsimp only
  repeat' (first | (intro _) | with_reducible (first | assumption | apply emit_ok | apply Ok.ite | apply Ok.foldl | apply Ok.elim | apply Ok.ite_fst | apply Ok.ite_snd | apply Ok.foldl_fst) | fail_if_no_progress (with_reducible apply Ok.frame <;> first | rfl | skip) | split)

theorem completeStart_ok {pd : List Instr} {s : State} (h : Ok pd s) : Ok pd (State.completeStart s) := by
  unfold State.completeStart
  try dsimp only
  repeat' (first | (intro _) | with_reducible (first | assumption | apply log_ok | apply startRef_ok | apply banner_ok | apply Ok.ite | apply Ok.foldl | apply Ok.elim | apply Ok.ite_fst | apply Ok.ite_snd | apply Ok.foldl_fst) | fail_if_no_progress (with_reducible apply Ok.frame <;> first | rfl | skip) | split)

theorem execDataAreaApply_ok {pd : List Instr} {t : Nat} {meas : List (List Measured)} {s : State} (h : Ok pd s) : OkO pd (execDataAreaApply t meas s) := by
  unfold execDataAreaApply
  try dsimp only
  repeat' (first | with_reducible (first | apply ifUnit_ok | apply queueCmd_ok | apply Ok.outcome | apply Ok.fault | apply command_ok | apply onRegion_ok | apply onRegions_ok | apply portReq_ok | apply OkO.ite) | with_reducible (intro _) | with_reducible (first | assumption | apply at_ok | apply applyItems_ok | apply completeStart_ok | apply Ok.ite | apply Ok.foldl | apply Ok.elim | apply Ok.ite_fst | apply Ok.ite_snd | apply Ok.foldl_fst) | fail_if_no_progress (with_reducible apply Ok.frame <;> first | rfl | skip) | split)

theorem execStrawBanner_ok {pd : List Instr} {t : Nat} {s : State} (h : Ok pd s) : OkO pd (execStrawBanner t s) := by
  unfold execStrawBanner
  try dsimp only
  repeat' (first | with_reducible (first | apply ifUnit_ok | apply queueCmd_ok | apply Ok.outcome | apply Ok.fault | apply command_ok | apply onRegion_ok | apply onRegions_ok | apply portReq_ok | apply OkO.ite) | with_reducible (intro _) | with_reducible (first | assumption | apply at_ok | apply banner_ok | apply Ok.ite | apply Ok.foldl | apply Ok.elim | apply Ok.ite_fst | apply Ok.ite_snd | apply Ok.foldl_fst) | fail_if_no_progress (with_reducible apply Ok.frame <;> first | rfl | skip) | split)

end Sys2Proof.Machine
end

