-- ==== Sys2Proof/Laws/OkConfigPort.lean ====
section
/-! SUPPORT. Every operation of Machine/ConfigPort.lean keeps the queue and every bounded field. -/

namespace Sys2Proof.Machine

set_option linter.unusedTactic false
set_option linter.unreachableTactic false

theorem dropReadback_ok {pd : List Instr} {s : State} {r : Readback} (h : Ok pd s) : Ok pd (State.dropReadback s r) := by
  unfold State.dropReadback
  try dsimp only
  repeat' (first | (intro _) | with_reducible (first | assumption | apply setBlock_ok | apply memResume_ok | apply Ok.ite | apply Ok.foldl | apply Ok.elim | apply Ok.ite_fst | apply Ok.ite_snd | apply Ok.foldl_fst) | fail_if_no_progress (with_reducible apply Ok.frame <;> first | rfl | skip) | split)

theorem dropPortReadback_ok {pd : List Instr} {s : State} (h : Ok pd s) : Ok pd (State.dropPortReadback s) := by
  unfold State.dropPortReadback
  try dsimp only
  repeat' (first | (intro _) | with_reducible (first | assumption | apply dropReadback_ok | apply Ok.ite | apply Ok.foldl | apply Ok.elim | apply Ok.ite_fst | apply Ok.ite_snd | apply Ok.foldl_fst) | fail_if_no_progress (with_reducible apply Ok.frame <;> first | rfl | skip) | split)

theorem cfgEnd_ok {pd : List Instr} {s : State} {r : Nat} (h : Ok pd s) : Ok pd (State.cfgEnd s r) := by
  unfold State.cfgEnd
  try dsimp only
  repeat' (first | (intro _) | with_reducible (first | assumption | apply Ok.ite | apply Ok.foldl | apply Ok.elim | apply Ok.ite_fst | apply Ok.ite_snd | apply Ok.foldl_fst) | fail_if_no_progress (with_reducible apply Ok.frame <;> first | rfl | skip) | split)

theorem cfgImage_ok {pd : List Instr} {s : State} {len : Nat} {max_ : Nat} {l : Load} {header : Bytes} (h : Ok pd s) : Ok pd (State.cfgImage s len max_ l header) := by
  unfold State.cfgImage
  try dsimp only
  repeat' (first | (intro _) | with_reducible (first | assumption | apply beginLoad_ok | apply dropPortReadback_ok | apply cfgEnd_ok | apply Ok.ite | apply Ok.foldl | apply Ok.elim | apply Ok.ite_fst | apply Ok.ite_snd | apply Ok.foldl_fst) | fail_if_no_progress (with_reducible apply Ok.frame <;> first | rfl | skip) | split)

theorem execCfgLoad_ok {pd : List Instr} {t : Nat} {len : Nat} {header : Bytes} {s : State} (h : Ok pd s) : OkO pd (execCfgLoad t len header s) := by
  unfold execCfgLoad
  try dsimp only
  repeat' (first | with_reducible (first | apply ifUnit_ok | apply queueCmd_ok | apply Ok.outcome | apply Ok.fault | apply command_ok | apply onRegion_ok | apply onRegions_ok | apply portReq_ok | apply OkO.ite) | with_reducible (intro _) | with_reducible (first | assumption | apply at_ok | apply cfgImage_ok | apply Ok.ite | apply Ok.foldl | apply Ok.elim | apply Ok.ite_fst | apply Ok.ite_snd | apply Ok.foldl_fst) | fail_if_no_progress (with_reducible apply Ok.frame <;> first | rfl | skip) | split)

theorem execProgramFallback_ok {pd : List Instr} {t : Nat} {len : Nat} {header : Bytes} {s : State} (h : Ok pd s) : OkO pd (execProgramFallback t len header s) := by
  unfold execProgramFallback
  try dsimp only
  repeat' (first | with_reducible (first | apply ifUnit_ok | apply queueCmd_ok | apply Ok.outcome | apply Ok.fault | apply command_ok | apply onRegion_ok | apply onRegions_ok | apply portReq_ok | apply OkO.ite) | with_reducible (intro _) | with_reducible (first | assumption | apply at_ok | apply cfgImage_ok | apply Ok.ite | apply Ok.foldl | apply Ok.elim | apply Ok.ite_fst | apply Ok.ite_snd | apply Ok.foldl_fst) | fail_if_no_progress (with_reducible apply Ok.frame <;> first | rfl | skip) | split)

theorem execCfgReadback_ok {pd : List Instr} {t : Nat} {scope : Nat} {index : Nat} {time : Nat} {s : State} (h : Ok pd s) : OkO pd (execCfgReadback t scope index time s) := by
  unfold execCfgReadback
  try dsimp only
  repeat' (first | with_reducible (first | apply ifUnit_ok | apply queueCmd_ok | apply Ok.outcome | apply Ok.fault | apply command_ok | apply onRegion_ok | apply onRegions_ok | apply portReq_ok | apply OkO.ite) | with_reducible (intro _) | with_reducible (first | assumption | apply at_ok | apply startReadback_ok | apply dropPortReadback_ok | apply cfgEnd_ok | apply Ok.ite | apply Ok.foldl | apply Ok.elim | apply Ok.ite_fst | apply Ok.ite_snd | apply Ok.foldl_fst) | fail_if_no_progress (with_reducible apply Ok.frame <;> first | rfl | skip) | split)

theorem execCfgStatus_ok {pd : List Instr} {t : Nat} {s : State} (h : Ok pd s) : OkO pd (execCfgStatus t s) := by
  unfold execCfgStatus
  try dsimp only
  repeat' (first | with_reducible (first | apply ifUnit_ok | apply queueCmd_ok | apply Ok.outcome | apply Ok.fault | apply command_ok | apply onRegion_ok | apply onRegions_ok | apply portReq_ok | apply OkO.ite) | with_reducible (intro _) | with_reducible (first | assumption | apply at_ok | apply emit_ok | apply Ok.ite | apply Ok.foldl | apply Ok.elim | apply Ok.ite_fst | apply Ok.ite_snd | apply Ok.foldl_fst) | fail_if_no_progress (with_reducible apply Ok.frame <;> first | rfl | skip) | split)

theorem execIdentify_ok {pd : List Instr} {t : Nat} {s : State} (h : Ok pd s) : OkO pd (execIdentify t s) := by
  unfold execIdentify
  try dsimp only
  repeat' (first | with_reducible (first | apply ifUnit_ok | apply queueCmd_ok | apply Ok.outcome | apply Ok.fault | apply command_ok | apply onRegion_ok | apply onRegions_ok | apply portReq_ok | apply OkO.ite) | with_reducible (intro _) | with_reducible (first | assumption | apply at_ok | apply emit_ok | apply Ok.ite | apply Ok.foldl | apply Ok.elim | apply Ok.ite_fst | apply Ok.ite_snd | apply Ok.foldl_fst) | fail_if_no_progress (with_reducible apply Ok.frame <;> first | rfl | skip) | split)

theorem execCfgTransactionGap_ok {pd : List Instr} {t : Nat} {s : State} (h : Ok pd s) : OkO pd (execCfgTransactionGap t s) := by
  unfold execCfgTransactionGap
  try dsimp only
  repeat' (first | with_reducible (first | apply ifUnit_ok | apply queueCmd_ok | apply Ok.outcome | apply Ok.fault | apply command_ok | apply onRegion_ok | apply onRegions_ok | apply portReq_ok | apply OkO.ite) | with_reducible (intro _) | with_reducible (first | assumption | apply at_ok | apply logLoad_ok | apply failLoad_ok | apply dropPortReadback_ok | apply Ok.ite | apply Ok.foldl | apply Ok.elim | apply Ok.ite_fst | apply Ok.ite_snd | apply Ok.foldl_fst) | fail_if_no_progress (with_reducible apply Ok.frame <;> first | rfl | skip) | split)

theorem tapLoad_ok {pd : List Instr} {s : State} {code : Nat} (h : Ok pd s) : Ok pd (State.tapLoad s code) := by
  unfold State.tapLoad
  try dsimp only
  repeat' (first | (intro _) | with_reducible (first | assumption | apply Ok.ite | apply Ok.foldl | apply Ok.elim | apply Ok.ite_fst | apply Ok.ite_snd | apply Ok.foldl_fst) | fail_if_no_progress (with_reducible apply Ok.frame <;> first | rfl | skip) | split)

theorem tapDrive_ok {pd : List Instr} {s : State} {code : Nat} (h : Ok pd s) : Ok pd (State.tapDrive s code) := by
  unfold State.tapDrive
  try dsimp only
  repeat' (first | (intro _) | with_reducible (first | assumption | apply tapLoad_ok | apply Ok.ite | apply Ok.foldl | apply Ok.elim | apply Ok.ite_fst | apply Ok.ite_snd | apply Ok.foldl_fst) | fail_if_no_progress (with_reducible apply Ok.frame <;> first | rfl | skip) | split)

theorem execExtest_ok {pd : List Instr} {t : Nat} {s : State} (h : Ok pd s) : OkO pd (execExtest t s) := by
  unfold execExtest
  try dsimp only
  repeat' (first | with_reducible (first | apply ifUnit_ok | apply queueCmd_ok | apply Ok.outcome | apply Ok.fault | apply command_ok | apply onRegion_ok | apply onRegions_ok | apply portReq_ok | apply OkO.ite) | with_reducible (intro _) | with_reducible (first | assumption | apply at_ok | apply tapDrive_ok | apply Ok.ite | apply Ok.foldl | apply Ok.elim | apply Ok.ite_fst | apply Ok.ite_snd | apply Ok.foldl_fst) | fail_if_no_progress (with_reducible apply Ok.frame <;> first | rfl | skip) | split)

theorem scanCapture_ok {pd : List Instr} {s : State} (h : Ok pd s) (n : Nat) : Ok pd (State.scanCapture s n).1 := by
  induction n with
  | zero => exact h
  | succ n ih =>
    rw [State.scanCapture]
    dsimp only
    split
    · exact ih
    · exact fresh_ok ih

theorem execSamplePreload_ok {pd : List Instr} {t : Nat} {bits_ : List Bool} {s : State} (h : Ok pd s) : OkO pd (execSamplePreload t bits_ s) := by
  unfold execSamplePreload
  try dsimp only
  repeat' (first | with_reducible (first | apply ifUnit_ok | apply queueCmd_ok | apply Ok.outcome | apply Ok.fault | apply command_ok | apply onRegion_ok | apply onRegions_ok | apply portReq_ok | apply OkO.ite) | with_reducible (intro _) | with_reducible (first | assumption | apply at_ok | apply emit_ok | apply tapLoad_ok | apply scanCapture_ok | apply Ok.ite | apply Ok.foldl | apply Ok.elim | apply Ok.ite_fst | apply Ok.ite_snd | apply Ok.foldl_fst) | fail_if_no_progress (with_reducible apply Ok.frame <;> first | rfl | skip) | split)

theorem execIdcode_ok {pd : List Instr} {t : Nat} {s : State} (h : Ok pd s) : OkO pd (execIdcode t s) := by
  unfold execIdcode
  try dsimp only
  repeat' (first | with_reducible (first | apply ifUnit_ok | apply queueCmd_ok | apply Ok.outcome | apply Ok.fault | apply command_ok | apply onRegion_ok | apply onRegions_ok | apply portReq_ok | apply OkO.ite) | with_reducible (intro _) | with_reducible (first | assumption | apply at_ok | apply emit_ok | apply tapLoad_ok | apply Ok.ite | apply Ok.foldl | apply Ok.elim | apply Ok.ite_fst | apply Ok.ite_snd | apply Ok.foldl_fst) | fail_if_no_progress (with_reducible apply Ok.frame <;> first | rfl | skip) | split)

theorem execHighz_ok {pd : List Instr} {t : Nat} {s : State} (h : Ok pd s) : OkO pd (execHighz t s) := by
  unfold execHighz
  try dsimp only
  repeat' (first | with_reducible (first | apply ifUnit_ok | apply queueCmd_ok | apply Ok.outcome | apply Ok.fault | apply command_ok | apply onRegion_ok | apply onRegions_ok | apply portReq_ok | apply OkO.ite) | with_reducible (intro _) | with_reducible (first | assumption | apply at_ok | apply tapDrive_ok | apply Ok.ite | apply Ok.foldl | apply Ok.elim | apply Ok.ite_fst | apply Ok.ite_snd | apply Ok.foldl_fst) | fail_if_no_progress (with_reducible apply Ok.frame <;> first | rfl | skip) | split)

theorem execClamp_ok {pd : List Instr} {t : Nat} {s : State} (h : Ok pd s) : OkO pd (execClamp t s) := by
  unfold execClamp
  try dsimp only
  repeat' (first | with_reducible (first | apply ifUnit_ok | apply queueCmd_ok | apply Ok.outcome | apply Ok.fault | apply command_ok | apply onRegion_ok | apply onRegions_ok | apply portReq_ok | apply OkO.ite) | with_reducible (intro _) | with_reducible (first | assumption | apply at_ok | apply tapDrive_ok | apply Ok.ite | apply Ok.foldl | apply Ok.elim | apply Ok.ite_fst | apply Ok.ite_snd | apply Ok.foldl_fst) | fail_if_no_progress (with_reducible apply Ok.frame <;> first | rfl | skip) | split)

theorem execBypass_ok {pd : List Instr} {t : Nat} {code : Nat} {s : State} (h : Ok pd s) : OkO pd (execBypass t code s) := by
  unfold execBypass
  try dsimp only
  repeat' (first | with_reducible (first | apply ifUnit_ok | apply queueCmd_ok | apply Ok.outcome | apply Ok.fault | apply command_ok | apply onRegion_ok | apply onRegions_ok | apply portReq_ok | apply OkO.ite) | with_reducible (intro _) | with_reducible (first | assumption | apply at_ok | apply tapLoad_ok | apply Ok.ite | apply Ok.foldl | apply Ok.elim | apply Ok.ite_fst | apply Ok.ite_snd | apply Ok.foldl_fst) | fail_if_no_progress (with_reducible apply Ok.frame <;> first | rfl | skip) | split)

end Sys2Proof.Machine
end

