-- ==== Sys2Proof/Laws/OkRecovery.lean ====
section
/-! SUPPORT. Every operation of Machine/Recovery.lean keeps the queue and every bounded field. -/

namespace Sys2Proof.Machine

set_option linter.unusedTactic false
set_option linter.unreachableTactic false

theorem supersedeCells_ok {pd : List Instr} {s : State} {b : Nat} {code : Nat} (h : Ok pd s) : Ok pd (State.supersedeCells s b code) := by
  unfold State.supersedeCells
  try dsimp only
  repeat' (first | (intro _) | with_reducible (first | assumption | apply log_ok | apply Ok.ite | apply Ok.foldl | apply Ok.elim | apply Ok.ite_fst | apply Ok.ite_snd | apply Ok.foldl_fst) | fail_if_no_progress (with_reducible apply Ok.frame <;> first | rfl | skip) | split)

theorem supersedeBlock_ok {pd : List Instr} {s : State} {b : Nat} {code : Nat} (h : Ok pd s) : Ok pd (State.supersedeBlock s b code) := by
  unfold State.supersedeBlock
  try dsimp only
  repeat' (first | (intro _) | with_reducible (first | assumption | apply log_ok | apply supersedeCells_ok | apply Ok.ite | apply Ok.foldl | apply Ok.elim | apply Ok.ite_fst | apply Ok.ite_snd | apply Ok.foldl_fst) | fail_if_no_progress (with_reducible apply Ok.frame <;> first | rfl | skip) | split)

theorem execArbRecovery_ok {pd : List Instr} {t : Nat} {b : Nat} {holder : Nat} {s : State} (h : Ok pd s) : OkO pd (execArbRecovery t b holder s) := by
  unfold execArbRecovery
  try dsimp only
  repeat' (first | with_reducible (first | apply ifUnit_ok | apply queueCmd_ok | apply Ok.outcome | apply Ok.fault | apply command_ok | apply onRegion_ok | apply onRegions_ok | apply portReq_ok | apply OkO.ite) | with_reducible (intro _) | with_reducible (first | assumption | apply setBlock_ok | apply at_ok | apply log_ok | apply bump_ok | apply ifUnit_ok | apply fabReplyFree_ok | apply supersedeCells_ok | apply Ok.ite | apply Ok.foldl | apply Ok.elim | apply Ok.ite_fst | apply Ok.ite_snd | apply Ok.foldl_fst) | fail_if_no_progress (with_reducible apply Ok.frame <;> first | rfl | skip) | split)

theorem dropSpares_ok {pd : List Instr} {s : State} {b : Nat} (h : Ok pd s) : Ok pd (State.dropSpares s b) := by
  unfold State.dropSpares
  try dsimp only
  repeat' (first | (intro _) | with_reducible (first | assumption | apply freeCell_ok | apply setSpares_ok | apply Ok.ite | apply Ok.foldl | apply Ok.elim | apply Ok.ite_fst | apply Ok.ite_snd | apply Ok.foldl_fst) | fail_if_no_progress (with_reducible apply Ok.frame <;> first | rfl | skip) | split)

theorem breakOff_ok {pd : List Instr} {s : State} {m : Move} {reason : Nat} (h : Ok pd s) : Ok pd (State.breakOff s m reason) := by
  unfold State.breakOff
  try dsimp only
  repeat' (first | (intro _) | with_reducible (first | assumption | apply withdraw_ok | apply abandonMove_ok | apply requeue_ok | apply Ok.ite | apply Ok.foldl | apply Ok.elim | apply Ok.ite_fst | apply Ok.ite_snd | apply Ok.foldl_fst) | fail_if_no_progress (with_reducible apply Ok.frame <;> first | rfl | skip) | split)

theorem leaveBlock_ok {pd : List Instr} {s : State} {b : Nat} (h : Ok pd s) : Ok pd (State.leaveBlock s b) := by
  unfold State.leaveBlock
  try dsimp only
  repeat' (first | (intro _) | with_reducible (first | assumption | apply faultRepair_ok | apply breakOff_ok | apply Ok.ite | apply Ok.foldl | apply Ok.elim | apply Ok.ite_fst | apply Ok.ite_snd | apply Ok.foldl_fst) | fail_if_no_progress (with_reducible apply Ok.frame <;> first | rfl | skip) | split)

theorem quarantineBlock_ok {pd : List Instr} {s : State} {b : Nat} {why : Nat} (h : Ok pd s) : Ok pd (State.quarantineBlock s b why) := by
  unfold State.quarantineBlock
  try dsimp only
  repeat' (first | (intro _) | with_reducible (first | assumption | apply setBlock_ok | apply log_ok | apply updLeds_ok | apply quarantineCell_ok | apply yieldCell_ok | apply cellsFreed_ok | apply resume_ok | apply memResume_ok | apply evacuate_ok | apply supersedeCells_ok | apply dropSpares_ok | apply leaveBlock_ok | apply Ok.ite | apply Ok.foldl | apply Ok.elim | apply Ok.ite_fst | apply Ok.ite_snd | apply Ok.foldl_fst) | fail_if_no_progress (with_reducible apply Ok.frame <;> first | rfl | skip) | split)

theorem execBlockQuarantine_ok {pd : List Instr} {t : Nat} {b : Nat} {why : Nat} {s : State} (h : Ok pd s) : OkO pd (execBlockQuarantine t b why s) := by
  unfold execBlockQuarantine
  try dsimp only
  repeat' (first | with_reducible (first | apply ifUnit_ok | apply queueCmd_ok | apply Ok.outcome | apply Ok.fault | apply command_ok | apply onRegion_ok | apply onRegions_ok | apply portReq_ok | apply OkO.ite) | with_reducible (intro _) | with_reducible (first | assumption | apply at_ok | apply ifUnit_ok | apply quarantineBlock_ok | apply Ok.ite | apply Ok.foldl | apply Ok.elim | apply Ok.ite_fst | apply Ok.ite_snd | apply Ok.foldl_fst) | fail_if_no_progress (with_reducible apply Ok.frame <;> first | rfl | skip) | split)

theorem moveOut_ok {pd : List Instr} {s : State} {r : Nat} (h : Ok pd s) : Ok pd (State.moveOut s r).1 := by
  unfold State.moveOut
  try dsimp only
  repeat' (first | (intro _) | with_reducible (first | assumption | apply setRegion_ok | apply giveBack_ok | apply dropTracks_ok | apply queueRepair_ok | apply Ok.ite | apply Ok.foldl | apply Ok.elim | apply Ok.ite_fst | apply Ok.ite_snd | apply Ok.foldl_fst) | fail_if_no_progress (with_reducible apply Ok.frame <;> first | rfl | skip) | split)

theorem failMove_ok {pd : List Instr} {s : State} {m : Move} (h : Ok pd s) : Ok pd (State.failMove s m) := by
  unfold State.failMove
  try dsimp only
  repeat' (first | (intro _) | with_reducible (first | assumption | apply final_ok | apply revertGraph_ok | apply withdraw_ok | apply evacuate_ok | apply breakOff_ok | apply Ok.ite | apply Ok.foldl | apply Ok.elim | apply Ok.ite_fst | apply Ok.ite_snd | apply Ok.foldl_fst) | fail_if_no_progress (with_reducible apply Ok.frame <;> first | rfl | skip) | split)

theorem regionFails_ok {pd : List Instr} {s : State} {r : Nat} {reason : Nat} (h : Ok pd s) : Ok pd (State.regionFails s r reason) := by
  unfold State.regionFails
  try dsimp only
  repeat' (first | (intro _) | with_reducible (first | assumption | apply setRegion_ok | apply log_ok | apply final_ok | apply reportCals_ok | apply cellsFreed_ok | apply stopPlace_ok | apply resume_ok | apply dropRuns_ok | apply evacuate_ok | apply moveOut_ok | apply failMove_ok | apply Ok.ite | apply Ok.foldl | apply Ok.elim | apply Ok.ite_fst | apply Ok.ite_snd | apply Ok.foldl_fst) | fail_if_no_progress (with_reducible apply Ok.frame <;> first | rfl | skip) | split)

theorem restartRegion_ok {pd : List Instr} {s : State} {r : Nat} (h : Ok pd s) : Ok pd (State.restartRegion s r) := by
  unfold State.restartRegion
  try dsimp only
  repeat' (first | (intro _) | with_reducible (first | assumption | apply setRegion_ok | apply log_ok | apply cellsFreed_ok | apply resume_ok | apply dropRuns_ok | apply failLoad_ok | apply supersedeBlock_ok | apply breakOff_ok | apply moveOut_ok | apply Ok.ite | apply Ok.foldl | apply Ok.elim | apply Ok.ite_fst | apply Ok.ite_snd | apply Ok.foldl_fst) | fail_if_no_progress (with_reducible apply Ok.frame <;> first | rfl | skip) | split)

theorem execRegionWatchdog_ok {pd : List Instr} {t : Nat} {r : Nat} {s : State} (h : Ok pd s) : OkO pd (execRegionWatchdog t r s) := by
  unfold execRegionWatchdog
  try dsimp only
  repeat' (first | with_reducible (first | apply ifUnit_ok | apply queueCmd_ok | apply Ok.outcome | apply Ok.fault | apply command_ok | apply onRegion_ok | apply onRegions_ok | apply portReq_ok | apply OkO.ite) | with_reducible (intro _) | with_reducible (first | assumption | apply setRegion_ok | apply at_ok | apply bump_ok | apply ifUnit_ok | apply regionFails_ok | apply restartRegion_ok | apply Ok.ite | apply Ok.foldl | apply Ok.elim | apply Ok.ite_fst | apply Ok.ite_snd | apply Ok.foldl_fst) | fail_if_no_progress (with_reducible apply Ok.frame <;> first | rfl | skip) | split)

theorem rerun_ok {pd : List Instr} {s : State} {slot : Nat} {a : Bytes} {cmd : Instr} (h : Ok pd s) : Ok pd (State.rerun s slot a cmd) := by
  unfold State.rerun
  try dsimp only
  repeat' (first | (intro _) | with_reducible (first | assumption | apply bodyGraphRemove_ok | apply bodyGraphTune_ok | apply bodyGraphPin_ok | apply bodyTransplant_ok | apply bodyConvConfig_ok | apply bodySeqLoad_ok | apply bodySyscal_ok | apply bodySysCommit_ok | apply bodyCalRun_ok | apply bodyDacSet_ok | apply bodyDacRange_ok | apply bodyDdsConfig_ok | apply bodySlewConfig_ok | apply bodyStreamOpen_ok | apply bodyRegionLoad_ok | apply Ok.ite | apply Ok.foldl | apply Ok.elim | apply Ok.ite_fst | apply Ok.ite_snd | apply Ok.foldl_fst) | fail_if_no_progress (with_reducible apply Ok.frame <;> first | rfl | skip) | split)

theorem regionBack_ok {pd : List Instr} {s : State} {r : Nat} (h : Ok pd s) : Ok pd (State.regionBack s r) := by
  unfold State.regionBack
  try dsimp only
  repeat' (first | (intro _) | with_reducible (first | assumption | apply setRegion_ok | apply log_ok | apply setWork_ok | apply cellsFreed_ok | apply resume_ok | apply startRef_ok | apply resizeRegion_ok | apply rerun_ok | apply Ok.ite | apply Ok.foldl | apply Ok.elim | apply Ok.ite_fst | apply Ok.ite_snd | apply Ok.foldl_fst) | fail_if_no_progress (with_reducible apply Ok.frame <;> first | rfl | skip) | split)

theorem execRegionReady_ok {pd : List Instr} {t : Nat} {r : Nat} {ed : Bool} {ml : Bool} {s : State} (h : Ok pd s) : OkO pd (execRegionReady t r ed ml s) := by
  unfold execRegionReady
  try dsimp only
  repeat' (first | with_reducible (first | apply ifUnit_ok | apply queueCmd_ok | apply Ok.outcome | apply Ok.fault | apply command_ok | apply onRegion_ok | apply onRegions_ok | apply portReq_ok | apply OkO.ite) | with_reducible (intro _) | with_reducible (first | assumption | apply setRegion_ok | apply at_ok | apply log_ok | apply ifUnit_ok | apply regionBack_ok | apply Ok.ite | apply Ok.foldl | apply Ok.elim | apply Ok.ite_fst | apply Ok.ite_snd | apply Ok.foldl_fst) | fail_if_no_progress (with_reducible apply Ok.frame <;> first | rfl | skip) | split)

theorem execRegionFailed_ok {pd : List Instr} {t : Nat} {r : Nat} {s : State} (h : Ok pd s) : OkO pd (execRegionFailed t r s) := by
  unfold execRegionFailed
  try dsimp only
  repeat' (first | with_reducible (first | apply ifUnit_ok | apply queueCmd_ok | apply Ok.outcome | apply Ok.fault | apply command_ok | apply onRegion_ok | apply onRegions_ok | apply portReq_ok | apply OkO.ite) | with_reducible (intro _) | with_reducible (first | assumption | apply at_ok | apply ifUnit_ok | apply regionFails_ok | apply Ok.ite | apply Ok.foldl | apply Ok.elim | apply Ok.ite_fst | apply Ok.ite_snd | apply Ok.foldl_fst) | fail_if_no_progress (with_reducible apply Ok.frame <;> first | rfl | skip) | split)

theorem execRegionRestartRetry_ok {pd : List Instr} {t : Nat} {r : Nat} {s : State} (h : Ok pd s) : OkO pd (execRegionRestartRetry t r s) := by
  unfold execRegionRestartRetry
  try dsimp only
  repeat' (first | with_reducible (first | apply ifUnit_ok | apply queueCmd_ok | apply Ok.outcome | apply Ok.fault | apply command_ok | apply onRegion_ok | apply onRegions_ok | apply portReq_ok | apply OkO.ite) | with_reducible (intro _) | with_reducible (first | assumption | apply setRegion_ok | apply at_ok | apply ifUnit_ok | apply Ok.ite | apply Ok.foldl | apply Ok.elim | apply Ok.ite_fst | apply Ok.ite_snd | apply Ok.foldl_fst) | fail_if_no_progress (with_reducible apply Ok.frame <;> first | rfl | skip) | split)

theorem coreStops_ok {pd : List Instr} {s : State} (h : Ok pd s) : Ok pd (State.coreStops s) := by
  unfold State.coreStops
  try dsimp only
  repeat' (first | (intro _) | with_reducible (first | assumption | apply dropGraph_ok | apply unclaim_ok | apply failLoad_ok | apply dropReadback_ok | apply Ok.ite | apply Ok.foldl | apply Ok.elim | apply Ok.ite_fst | apply Ok.ite_snd | apply Ok.foldl_fst) | fail_if_no_progress (with_reducible apply Ok.frame <;> first | rfl | skip) | split)

theorem supersedeRegions_ok {pd : List Instr} {s : State} (h : Ok pd s) : Ok pd (State.supersedeRegions s) := by
  unfold State.supersedeRegions
  try dsimp only
  repeat' (first | (intro _) | with_reducible (first | assumption | apply log_ok | apply supersedeBlock_ok | apply Ok.ite | apply Ok.foldl | apply Ok.elim | apply Ok.ite_fst | apply Ok.ite_snd | apply Ok.foldl_fst) | fail_if_no_progress (with_reducible apply Ok.frame <;> first | rfl | skip) | split)

theorem execMgmtWatchdog_ok {pd : List Instr} {t : Nat} {s : State} (h : Ok pd s) : OkO pd (execMgmtWatchdog t s) := by
  unfold execMgmtWatchdog
  try dsimp only
  repeat' (first | with_reducible (first | apply ifUnit_ok | apply queueCmd_ok | apply Ok.outcome | apply Ok.fault | apply command_ok | apply onRegion_ok | apply onRegions_ok | apply portReq_ok | apply OkO.ite) | with_reducible (intro _) | with_reducible (first | assumption | apply at_ok | apply log_ok | apply bump_ok | apply coreStops_ok | apply supersedeRegions_ok | apply Ok.ite | apply Ok.foldl | apply Ok.elim | apply Ok.ite_fst | apply Ok.ite_snd | apply Ok.foldl_fst) | fail_if_no_progress (with_reducible apply Ok.frame <;> first | rfl | skip) | split)

theorem faultCmd_ok {pd : List Instr} {s : State} {e : Nat × Hnd} {held : List (Nat × Nat × Nat × Nat)} (h : Ok pd s) : Ok pd (State.faultCmd s e held) := by
  unfold State.faultCmd
  try dsimp only
  repeat' (first | (intro _) | with_reducible (first | assumption | apply setDs_ok | apply final1_ok | apply Ok.ite | apply Ok.foldl | apply Ok.elim | apply Ok.ite_fst | apply Ok.ite_snd | apply Ok.foldl_fst) | fail_if_no_progress (with_reducible apply Ok.frame <;> first | rfl | skip) | split)

theorem deferredWrite_ok {pd : List Instr} {s : State} {off : Nat} {v : Nat} (h : Ok pd s) : Ok pd (State.deferredWrite s off v) := by
  unfold State.deferredWrite
  try dsimp only
  repeat' (first | (intro _) | with_reducible (first | assumption | apply writeCqctl_ok | apply writeMectl_ok | apply Ok.ite | apply Ok.foldl | apply Ok.elim | apply Ok.ite_fst | apply Ok.ite_snd | apply Ok.foldl_fst) | fail_if_no_progress (with_reducible apply Ok.frame <;> first | rfl | skip) | split)

theorem deferredBell_ok {pd : List Instr} {s : State} {e : Nat × Nat × List Bytes} (h : Ok pd s) : Ok pd (State.deferredBell s e) := by
  unfold State.deferredBell
  try dsimp only
  repeat' (first | (intro _) | with_reducible (first | assumption | apply doorAct_ok | apply bootGo_ok | apply Ok.ite | apply Ok.foldl | apply Ok.elim | apply Ok.ite_fst | apply Ok.ite_snd | apply Ok.foldl_fst) | fail_if_no_progress (with_reducible apply Ok.frame <;> first | rfl | skip) | split)

theorem coreUp_ok {pd : List Instr} {s : State} (h : Ok pd s) : Ok pd (State.coreUp s) := by
  obtain ⟨hp, h1, h2, h3, h4, -, h6⟩ := h
  exact ⟨hp, h1, h2, h3, h4, Nat.zero_le _, h6⟩

theorem rebuildSlots_ok {pd : List Instr} {s : State} (h : Ok pd s) : Ok pd (State.rebuildSlots s) := by
  unfold State.rebuildSlots
  exact Ok.frame h rfl rfl rfl rfl rfl rfl rfl rfl rfl rfl rfl rfl rfl rfl

theorem coreBack_ok {pd : List Instr} {s : State} (h : Ok pd s) : Ok pd (State.coreBack s) := by
  unfold State.coreBack
  try dsimp only
  repeat' (first | (intro _) | with_reducible (first | assumption | apply setRegion_ok | apply logAll_ok | apply log_ok | apply finalObj_ok | apply parseNext_ok | apply resume_ok | apply storeWaited_ok | apply faultCmd_ok | apply deferredWrite_ok | apply deferredBell_ok | apply coreUp_ok | apply rebuildSlots_ok | apply Ok.ite | apply Ok.foldl | apply Ok.elim | apply Ok.ite_fst | apply Ok.ite_snd | apply Ok.foldl_fst) | fail_if_no_progress (with_reducible apply Ok.frame <;> first | rfl | skip) | split)

theorem execMgmtRestartEnd_ok {pd : List Instr} {t : Nat} {s : State} (h : Ok pd s) : OkO pd (execMgmtRestartEnd t s) := by
  unfold execMgmtRestartEnd
  try dsimp only
  repeat' (first | with_reducible (first | apply ifUnit_ok | apply queueCmd_ok | apply Ok.outcome | apply Ok.fault | apply command_ok | apply onRegion_ok | apply onRegions_ok | apply portReq_ok | apply OkO.ite) | with_reducible (intro _) | with_reducible (first | assumption | apply at_ok | apply coreBack_ok | apply Ok.ite | apply Ok.foldl | apply Ok.elim | apply Ok.ite_fst | apply Ok.ite_snd | apply Ok.foldl_fst) | fail_if_no_progress (with_reducible apply Ok.frame <;> first | rfl | skip) | split)

theorem readSupply_ok {pd : List Instr} {s : State} {which : Nat} {mv : Int} (h : Ok pd s) : Ok pd (State.readSupply s which mv) := by
  unfold State.readSupply
  try dsimp only
  repeat' (first | (intro _) | with_reducible (first | assumption | apply Ok.ite | apply Ok.foldl | apply Ok.elim | apply Ok.ite_fst | apply Ok.ite_snd | apply Ok.foldl_fst) | fail_if_no_progress (with_reducible apply Ok.frame <;> first | rfl | skip) | split)

theorem execSupplyFault_ok {pd : List Instr} {t : Nat} {which : Nat} {mv : Int} {s : State} (h : Ok pd s) : OkO pd (execSupplyFault t which mv s) := by
  unfold execSupplyFault
  try dsimp only
  repeat' (first | with_reducible (first | apply ifUnit_ok | apply queueCmd_ok | apply Ok.outcome | apply Ok.fault | apply command_ok | apply onRegion_ok | apply onRegions_ok | apply portReq_ok | apply OkO.ite) | with_reducible (intro _) | with_reducible (first | assumption | apply at_ok | apply log_ok | apply ifUnit_ok | apply dropRuns_ok | apply readSupply_ok | apply Ok.ite | apply Ok.foldl | apply Ok.elim | apply Ok.ite_fst | apply Ok.ite_snd | apply Ok.foldl_fst) | fail_if_no_progress (with_reducible apply Ok.frame <;> first | rfl | skip) | split)

theorem execSupplyRestored_ok {pd : List Instr} {t : Nat} {which : Nat} {mv : Int} {s : State} (h : Ok pd s) : OkO pd (execSupplyRestored t which mv s) := by
  unfold execSupplyRestored
  try dsimp only
  repeat' (first | with_reducible (first | apply ifUnit_ok | apply queueCmd_ok | apply Ok.outcome | apply Ok.fault | apply command_ok | apply onRegion_ok | apply onRegions_ok | apply portReq_ok | apply OkO.ite) | with_reducible (intro _) | with_reducible (first | assumption | apply at_ok | apply log_ok | apply ifUnit_ok | apply allDue_ok | apply readSupply_ok | apply Ok.ite | apply Ok.foldl | apply Ok.elim | apply Ok.ite_fst | apply Ok.ite_snd | apply Ok.foldl_fst) | fail_if_no_progress (with_reducible apply Ok.frame <;> first | rfl | skip) | split)

end Sys2Proof.Machine
end

