-- ==== Sys2Proof/Laws/OkRegisters.lean ====
section
/-! SUPPORT. Every operation of Machine/Registers.lean keeps the queue and every bounded field. -/

namespace Sys2Proof.Machine

set_option linter.unusedTactic false
set_option linter.unreachableTactic false

theorem write64_ok {pd : List Instr} {s : State} {off : Nat} {hiOff : Nat} {v : Nat} {f : State → Nat → State} (h : Ok pd s) (hf_f : ∀ y0 y1, Ok pd y0 → Ok pd (f y0 y1)) : Ok pd (State.write64 s off hiOff v f) := by
  unfold State.write64
  try dsimp only
  repeat' (first | (intro _) | with_reducible (first | assumption | apply hf_f | apply holdLo_ok | apply Ok.ite | apply Ok.foldl | apply Ok.elim | apply Ok.ite_fst | apply Ok.ite_snd | apply Ok.foldl_fst) | fail_if_no_progress (with_reducible apply Ok.frame <;> first | rfl | skip) | split)

theorem writeCqGroup_ok {pd : List Instr} {s : State} {q : Nat} {k : Nat} {off : Nat} {v : Nat} (h : Ok pd s) : Ok pd (State.writeCqGroup s q k off v) := by
  unfold State.writeCqGroup
  try dsimp only
  repeat' (first | (intro _) | with_reducible (first | assumption | apply setCq_ok | apply writeCqctl_ok | apply mgmtReg_ok | apply write64_ok | apply Ok.ite | apply Ok.foldl | apply Ok.elim | apply Ok.ite_fst | apply Ok.ite_snd | apply Ok.foldl_fst) | fail_if_no_progress (with_reducible apply Ok.frame <;> first | rfl | skip) | split)

theorem writeDsGroup_ok {pd : List Instr} {s : State} {n : Nat} {k : Nat} {off : Nat} {v : Nat} (h : Ok pd s) : Ok pd (State.writeDsGroup s n k off v) := by
  unfold State.writeDsGroup
  try dsimp only
  repeat' (first | (intro _) | with_reducible (first | assumption | apply setDs_ok | apply writeDsctl_ok | apply write64_ok | apply Ok.ite | apply Ok.foldl | apply Ok.elim | apply Ok.ite_fst | apply Ok.ite_snd | apply Ok.foldl_fst) | fail_if_no_progress (with_reducible apply Ok.frame <;> first | rfl | skip) | split)

theorem writeChip_ok {pd : List Instr} {s : State} {off : Nat} {v : Nat} (h : Ok pd s) : Ok pd (State.writeChip s off v) := by
  unfold State.writeChip
  try dsimp only
  repeat' (first | (intro _) | with_reducible (first | assumption | apply writeResetCtl_ok | apply Ok.ite | apply Ok.foldl | apply Ok.elim | apply Ok.ite_fst | apply Ok.ite_snd | apply Ok.foldl_fst) | fail_if_no_progress (with_reducible apply Ok.frame <;> first | rfl | skip) | split)

theorem writeHost_ok {pd : List Instr} {s : State} {off : Nat} {v : Nat} (h : Ok pd s) : Ok pd (State.writeHost s off v) := by
  have hl := h.2
  unfold Legal at hl
  unfold State.writeHost
  refine Ok.ite ?_ (Ok.ite (Ok.ite h (write64_ok h ?_)) (Ok.ite (mgmtReg_ok h ?_) (Ok.ite (writeCqGroup_ok h) (Ok.ite (writeDsGroup_ok h)
    (Ok.ite (Ok.ite h ?_) h)))))
  · by_cases c : bits v 0 5 = 0 ∨ 16 < bits v 0 5
    · rw [if_pos c]; exact h
    · rw [if_neg c]; exact h.host hl.2.2.2.2.2.1 (by dsimp only; omega) hl.2.2.2.2.2.2.2.1
  · intro s b h; exact h.frame rfl rfl rfl rfl rfl rfl rfl rfl rfl rfl rfl rfl rfl rfl
  · intro s h; exact writeMectl_ok h
  · exact h.frame rfl rfl rfl rfl rfl rfl rfl rfl rfl rfl rfl rfl rfl rfl

theorem writeClk_ok {pd : List Instr} {s : State} {off : Nat} {v : Nat} (h : Ok pd s) : Ok pd (State.writeClk s off v) := by
  unfold State.writeClk
  try dsimp only
  repeat' (first | (intro _) | with_reducible (first | assumption | apply writeUpll_ok | apply writeGckctl_ok | apply writeGckfreq_ok | apply writeRefctl_ok | apply writeSyncctl_ok | apply writeCmpLo_ok | apply writeCmpHi_ok | apply writeCmpPeriod_ok | apply writeCmpArm_ok | apply writeUlctl_ok | apply write64_ok | apply Ok.ite | apply Ok.foldl | apply Ok.elim | apply Ok.ite_fst | apply Ok.ite_snd | apply Ok.foldl_fst) | fail_if_no_progress (with_reducible apply Ok.frame <;> first | rfl | skip) | split)

theorem writePin_ok {pd : List Instr} {s : State} {off : Nat} {v : Nat} (h : Ok pd s) : Ok pd (State.writePin s off v) := by
  unfold State.writePin
  try dsimp only
  repeat' (first | (intro _) | with_reducible (first | assumption | apply maskedOut_ok | apply writePinOut_ok | apply writeBank_ok | apply writeDiff_ok | apply Ok.ite | apply Ok.foldl | apply Ok.elim | apply Ok.ite_fst | apply Ok.ite_snd | apply Ok.foldl_fst) | fail_if_no_progress (with_reducible apply Ok.frame <;> first | rfl | skip) | split)

theorem writeBoot_ok {pd : List Instr} {s : State} {off : Nat} {v : Nat} (h : Ok pd s) : Ok pd (State.writeBoot s off v) := by
  have hl := h.2
  unfold Legal at hl
  obtain ⟨-, -, -, -, -, -, -, -, h9, h10, h11, -⟩ := hl
  unfold State.writeBoot
  dsimp only
  refine Ok.ite ?_ (Ok.ite ?_ (Ok.ite ?_ (Ok.ite (write64_ok h ?_) (Ok.ite ?_ (Ok.ite (writeGo_ok h) (Ok.ite ?_ (Ok.ite ?_ h)))))))
  · exact h.frame rfl rfl rfl rfl rfl rfl rfl rfl rfl rfl rfl rfl rfl rfl
  · by_cases c : bits v 0 16 = 0 ∨ 60000 < bits v 0 16
    · rw [if_pos c]; exact h
    · rw [if_neg c]; exact h.boot (by dsimp only; omega) h10 h11
  · by_cases c : bits v 0 16 < 10 ∨ 60000 < bits v 0 16
    · rw [if_pos c]; exact h
    · rw [if_neg c]; exact h.boot h9 (by dsimp only; omega) h11
  · intro s b h; exact h.frame rfl rfl rfl rfl rfl rfl rfl rfl rfl rfl rfl rfl rfl rfl
  · by_cases c : v = 0 ∨ 33554432 < v
    · rw [if_pos c]; exact h
    · rw [if_neg c]; exact h.boot h9 h10 (by dsimp only; omega)
  · exact h.frame rfl rfl rfl rfl rfl rfl rfl rfl rfl rfl rfl rfl rfl rfl
  · exact h.frame rfl rfl rfl rfl rfl rfl rfl rfl rfl rfl rfl rfl rfl rfl

theorem writeLocal_ok {pd : List Instr} {s : State} {off : Nat} {v : Nat} (h : Ok pd s) : Ok pd (State.writeLocal s off v) := by
  have hl := h.2
  unfold Legal at hl
  unfold State.writeLocal
  dsimp only
  by_cases c : off ≠ 0x3004 ∨ s.anyRing = true ∨ 7 < bits v 0 4 ∨ bits v 4 4 = 0 ∨ 8 < bits v 0 4 + bits v 4 4
  · rw [if_pos c]; exact h
  · rw [if_neg c]; exact h.host hl.2.2.2.2.2.1 hl.2.2.2.2.2.2.1 (by dsimp only; omega)

theorem writeMsix_ok {pd : List Instr} {s : State} {off : Nat} {v : Nat} (h : Ok pd s) : Ok pd (State.writeMsix s off v) := by
  unfold State.writeMsix
  try dsimp only
  repeat' (first | (intro _) | with_reducible (first | assumption | apply setMsix_ok | apply Ok.ite | apply Ok.foldl | apply Ok.elim | apply Ok.ite_fst | apply Ok.ite_snd | apply Ok.foldl_fst) | fail_if_no_progress (with_reducible apply Ok.frame <;> first | rfl | skip) | split)

theorem regWrite_ok {pd : List Instr} {s : State} {off : Nat} {v : Nat} (h : Ok pd s) : Ok pd (State.regWrite s off v) := by
  unfold State.regWrite
  try dsimp only
  repeat' (first | (intro _) | with_reducible (first | assumption | apply writeChip_ok | apply writeHost_ok | apply writeClk_ok | apply writePin_ok | apply writeBoot_ok | apply writeLocal_ok | apply writeMsix_ok | apply Ok.ite | apply Ok.foldl | apply Ok.elim | apply Ok.ite_fst | apply Ok.ite_snd | apply Ok.foldl_fst) | fail_if_no_progress (with_reducible apply Ok.frame <;> first | rfl | skip) | split)

theorem readMon_ok {pd : List Instr} {s : State} {off : Nat} (h : Ok pd s) : Ok pd (State.readMon s off).1 := by
  unfold State.readMon
  try dsimp only
  repeat' (first | (intro _) | with_reducible (first | assumption | apply fresh_ok | apply Ok.ite | apply Ok.foldl | apply Ok.elim | apply Ok.ite_fst | apply Ok.ite_snd | apply Ok.foldl_fst) | fail_if_no_progress (with_reducible apply Ok.frame <;> first | rfl | skip) | split)

theorem regNow_ok {pd : List Instr} {s : State} {off : Nat} (h : Ok pd s) : Ok pd (State.regNow s off).1 := by
  unfold State.regNow
  try dsimp only
  repeat' (first | (intro _) | with_reducible (first | assumption | apply readMon_ok | apply Ok.ite | apply Ok.foldl | apply Ok.elim | apply Ok.ite_fst | apply Ok.ite_snd | apply Ok.foldl_fst) | fail_if_no_progress (with_reducible apply Ok.frame <;> first | rfl | skip) | split)

theorem regRead_ok {pd : List Instr} {s : State} {off : Nat} (h : Ok pd s) : Ok pd (State.regRead s off).1 := by
  unfold State.regRead
  try dsimp only
  repeat' (first | (intro _) | with_reducible (first | assumption | apply regNow_ok | apply Ok.ite | apply Ok.foldl | apply Ok.elim | apply Ok.ite_fst | apply Ok.ite_snd | apply Ok.foldl_fst) | fail_if_no_progress (with_reducible apply Ok.frame <;> first | rfl | skip) | split)

theorem execRegisterWrite_ok {pd : List Instr} {t : Nat} {off : Nat} {value : Word} {width : Nat} {s : State} (h : Ok pd s) : OkO pd (execRegisterWrite t off value width s) := by
  unfold execRegisterWrite
  try dsimp only
  repeat' (first | with_reducible (first | apply ifUnit_ok | apply queueCmd_ok | apply Ok.outcome | apply Ok.fault | apply command_ok | apply onRegion_ok | apply onRegions_ok | apply portReq_ok | apply OkO.ite) | with_reducible (intro _) | with_reducible (first | assumption | apply at_ok | apply regWrite_ok | apply Ok.ite | apply Ok.foldl | apply Ok.elim | apply Ok.ite_fst | apply Ok.ite_snd | apply Ok.foldl_fst) | fail_if_no_progress (with_reducible apply Ok.frame <;> first | rfl | skip) | split)

theorem execLoRead_ok {pd : List Instr} {t : Nat} {off : Nat} {s : State} (h : Ok pd s) : OkO pd (execLoRead t off s) := by
  unfold execLoRead
  try dsimp only
  repeat' (first | with_reducible (first | apply ifUnit_ok | apply queueCmd_ok | apply Ok.outcome | apply Ok.fault | apply command_ok | apply onRegion_ok | apply onRegions_ok | apply portReq_ok | apply OkO.ite) | with_reducible (intro _) | with_reducible (first | assumption | apply at_ok | apply emit_ok | apply regRead_ok | apply Ok.ite | apply Ok.foldl | apply Ok.elim | apply Ok.ite_fst | apply Ok.ite_snd | apply Ok.foldl_fst) | fail_if_no_progress (with_reducible apply Ok.frame <;> first | rfl | skip) | split)

theorem badLocal_ok {pd : List Instr} {s : State} {addr : Nat} {op : Nat} (h : Ok pd s) : Ok pd (State.badLocal s addr op) := by
  unfold State.badLocal
  try dsimp only
  repeat' (first | (intro _) | with_reducible (first | assumption | apply log_ok | apply Ok.ite | apply Ok.foldl | apply Ok.elim | apply Ok.ite_fst | apply Ok.ite_snd | apply Ok.foldl_fst) | fail_if_no_progress (with_reducible apply Ok.frame <;> first | rfl | skip) | split)

theorem execSpiWriteRingArea_ok {pd : List Instr} {t : Nat} {addr : Nat} {data : Bytes} {s : State} (h : Ok pd s) : OkO pd (execSpiWriteRingArea t addr data s) := by
  unfold execSpiWriteRingArea
  try dsimp only
  repeat' (first | with_reducible (first | apply ifUnit_ok | apply queueCmd_ok | apply Ok.outcome | apply Ok.fault | apply command_ok | apply onRegion_ok | apply onRegions_ok | apply portReq_ok | apply OkO.ite) | with_reducible (intro _) | with_reducible (first | assumption | apply at_ok | apply spWrite_ok | apply badLocal_ok | apply Ok.ite | apply Ok.foldl | apply Ok.elim | apply Ok.ite_fst | apply Ok.ite_snd | apply Ok.foldl_fst) | fail_if_no_progress (with_reducible apply Ok.frame <;> first | rfl | skip) | split)

theorem execSpiReadRingArea_ok {pd : List Instr} {t : Nat} {addr : Nat} {len : Nat} {s : State} (h : Ok pd s) : OkO pd (execSpiReadRingArea t addr len s) := by
  unfold execSpiReadRingArea
  try dsimp only
  repeat' (first | with_reducible (first | apply ifUnit_ok | apply queueCmd_ok | apply Ok.outcome | apply Ok.fault | apply command_ok | apply onRegion_ok | apply onRegions_ok | apply portReq_ok | apply OkO.ite) | with_reducible (intro _) | with_reducible (first | assumption | apply at_ok | apply emit_ok | apply badLocal_ok | apply Ok.ite | apply Ok.foldl | apply Ok.elim | apply Ok.ite_fst | apply Ok.ite_snd | apply Ok.foldl_fst) | fail_if_no_progress (with_reducible apply Ok.frame <;> first | rfl | skip) | split)

theorem execSpiWriteSetupRegister_ok {pd : List Instr} {t : Nat} {off : Nat} {value : Word} {s : State} (h : Ok pd s) : OkO pd (execSpiWriteSetupRegister t off value s) := by
  unfold execSpiWriteSetupRegister
  try dsimp only
  repeat' (first | with_reducible (first | apply ifUnit_ok | apply queueCmd_ok | apply Ok.outcome | apply Ok.fault | apply command_ok | apply onRegion_ok | apply onRegions_ok | apply portReq_ok | apply OkO.ite) | with_reducible (intro _) | with_reducible (first | assumption | apply at_ok | apply regWrite_ok | apply Ok.ite | apply Ok.foldl | apply Ok.elim | apply Ok.ite_fst | apply Ok.ite_snd | apply Ok.foldl_fst) | fail_if_no_progress (with_reducible apply Ok.frame <;> first | rfl | skip) | split)

theorem execSpiReadSetupRegister_ok {pd : List Instr} {t : Nat} {off : Nat} {s : State} (h : Ok pd s) : OkO pd (execSpiReadSetupRegister t off s) := by
  unfold execSpiReadSetupRegister
  try dsimp only
  repeat' (first | with_reducible (first | apply ifUnit_ok | apply queueCmd_ok | apply Ok.outcome | apply Ok.fault | apply command_ok | apply onRegion_ok | apply onRegions_ok | apply portReq_ok | apply OkO.ite) | with_reducible (intro _) | with_reducible (first | assumption | apply at_ok | apply emit_ok | apply regRead_ok | apply Ok.ite | apply Ok.foldl | apply Ok.elim | apply Ok.ite_fst | apply Ok.ite_snd | apply Ok.foldl_fst) | fail_if_no_progress (with_reducible apply Ok.frame <;> first | rfl | skip) | split)

theorem execSpiWriteDoorbell_ok {pd : List Instr} {t : Nat} {off : Nat} {data : Bytes} {s : State} (h : Ok pd s) : OkO pd (execSpiWriteDoorbell t off data s) := by
  unfold execSpiWriteDoorbell
  try dsimp only
  repeat' (first | with_reducible (first | apply ifUnit_ok | apply queueCmd_ok | apply Ok.outcome | apply Ok.fault | apply command_ok | apply onRegion_ok | apply onRegions_ok | apply portReq_ok | apply OkO.ite) | with_reducible (intro _) | with_reducible (first | assumption | apply at_ok | apply doorbell4_ok | apply haltWrite_ok | apply Ok.ite | apply Ok.foldl | apply Ok.elim | apply Ok.ite_fst | apply Ok.ite_snd | apply Ok.foldl_fst) | fail_if_no_progress (with_reducible apply Ok.frame <;> first | rfl | skip) | split)

theorem execSpiReadClearPending_ok {pd : List Instr} {t : Nat} {s : State} (h : Ok pd s) : OkO pd (execSpiReadClearPending t s) := by
  unfold execSpiReadClearPending
  try dsimp only
  repeat' (first | with_reducible (first | apply ifUnit_ok | apply queueCmd_ok | apply Ok.outcome | apply Ok.fault | apply command_ok | apply onRegion_ok | apply onRegions_ok | apply portReq_ok | apply OkO.ite) | with_reducible (intro _) | with_reducible (first | assumption | apply at_ok | apply emit_ok | apply Ok.ite | apply Ok.foldl | apply Ok.elim | apply Ok.ite_fst | apply Ok.ite_snd | apply Ok.foldl_fst) | fail_if_no_progress (with_reducible apply Ok.frame <;> first | rfl | skip) | split)

end Sys2Proof.Machine
end

