-- ==== Sys2Proof/Laws/Quiet.lean ====
section
/-! SUPPORT. What time, counters, the log, the rings and completions leave alone: one relation, one lemma per operation, and
its fields as simp lemmas. -/

namespace Sys2Proof.Machine

/-- The parts of the state that no log entry, ring entry, counter or completion touches. -/
structure Quiet (s t : State) : Prop where
  time : t.time = s.time
  clk : t.clk = s.clk
  sheaf : t.sheaf = s.sheaf
  til : t.til = s.til
  convs : t.convs = s.convs
  dacs : t.dacs = s.dacs
  cal : t.cal = s.cal
  keep : t.keep = s.keep
  husk : t.husk = s.husk
  pin : t.pin = s.pin
  mon : t.mon = s.mon
  pending : t.pending = s.pending

theorem Quiet.refl (s : State) : Quiet s s := ⟨rfl, rfl, rfl, rfl, rfl, rfl, rfl, rfl, rfl, rfl, rfl, rfl⟩

theorem Quiet.trans {s t u : State} (h : Quiet s t) (k : Quiet t u) : Quiet s u :=
  ⟨k.time.trans h.time, k.clk.trans h.clk, k.sheaf.trans h.sheaf, k.til.trans h.til, k.convs.trans h.convs, k.dacs.trans h.dacs,
   k.cal.trans h.cal, k.keep.trans h.keep, k.husk.trans h.husk, k.pin.trans h.pin, k.mon.trans h.mon, k.pending.trans h.pending⟩

theorem Quiet.ite {s a b : State} {c : Prop} [Decidable c] (ha : Quiet s a) (hb : Quiet s b) : Quiet s (if c then a else b) := by
  split
  · exact ha
  · exact hb

theorem Quiet.foldl {α : Type} {f : State → α → State} {l : List α} (s : State) (hf : ∀ s x, Quiet s (f s x)) : Quiet s (l.foldl f s) := by
  induction l generalizing s with
  | nil => exact .refl s
  | cons x l ih => exact (hf s x).trans (ih _)

theorem spWrite_quiet (s : State) (a : Nat) (b : Bytes) : Quiet s (s.spWrite a b) := ⟨rfl, rfl, rfl, rfl, rfl, rfl, rfl, rfl, rfl, rfl, rfl, rfl⟩

theorem setCq_quiet (s : State) (q : Nat) (c : Cq) : Quiet s (s.setCq q c) := ⟨rfl, rfl, rfl, rfl, rfl, rfl, rfl, rfl, rfl, rfl, rfl, rfl⟩

theorem setHnd_quiet (s : State) (n : Nat) (v : Hnd) : Quiet s (s.setHnd n v) := ⟨rfl, rfl, rfl, rfl, rfl, rfl, rfl, rfl, rfl, rfl, rfl, rfl⟩

theorem setWork_quiet (s : State) (n : Nat) (w : Work) : Quiet s (s.setWork n w) := Quiet.ite (setHnd_quiet ..) (.refl s)

theorem emit_quiet (s : State) (m : OutMsg) : Quiet s (s.emit m) := ⟨rfl, rfl, rfl, rfl, rfl, rfl, rfl, rfl, rfl, rfl, rfl, rfl⟩

theorem hostWrite_quiet (s : State) (a : Nat) (b : Bytes) : Quiet s (s.hostWrite a b) := by
  unfold State.hostWrite
  exact Quiet.ite (.refl s) (Quiet.ite (Quiet.ite (spWrite_quiet ..) (.refl s)) (emit_quiet ..))

theorem raiseVec_quiet (s : State) (v : Nat) : Quiet s (s.raiseVec v) := by
  unfold State.raiseVec
  exact Quiet.ite (.refl s) ⟨rfl, rfl, rfl, rfl, rfl, rfl, rfl, rfl, rfl, rfl, rfl, rfl⟩

theorem bumpRaw_quiet (s : State) (u k n : Nat) : Quiet s (s.bumpRaw u k n).1 := ⟨rfl, rfl, rfl, rfl, rfl, rfl, rfl, rfl, rfl, rfl, rfl, rfl⟩

theorem host_quiet (s : State) (v : HostIf) : Quiet s { s with host := v } := ⟨rfl, rfl, rfl, rfl, rfl, rfl, rfl, rfl, rfl, rfl, rfl, rfl⟩

theorem chip_quiet (s : State) (v : Chip) : Quiet s { s with chip := v } := ⟨rfl, rfl, rfl, rfl, rfl, rfl, rfl, rfl, rfl, rfl, rfl, rfl⟩

theorem meWrite_quiet (s : State) (e : LogEntry) : Quiet s (s.meWrite e) :=
  ((hostWrite_quiet s _ _).trans (host_quiet _ _)).trans (raiseVec_quiet _ _)

theorem meRaise_quiet (s : State) (e : LogEntry) : Quiet s (s.meRaise e) := by
  unfold State.meRaise
  exact Quiet.ite (.refl s) (Quiet.ite (meWrite_quiet ..) (Quiet.ite (host_quiet ..) (host_quiet ..)))

theorem logPush_quiet (s : State) (e : LogEntry) : Quiet s (s.logPush e) := by
  unfold State.logPush
  exact Quiet.ite (chip_quiet ..) (Quiet.ite ((bumpRaw_quiet s 0 5 1).trans (chip_quiet ..)) (chip_quiet ..))

theorem logWrite_quiet (s : State) (e : LogEntry) : Quiet s (s.logWrite e).1 := by
  have h := (logPush_quiet s e).trans (bumpRaw_quiet _ 0 2 1)
  unfold State.logWrite
  dsimp only
  by_cases c : e.raised = true
  · rw [if_pos c]; exact (h.trans (meRaise_quiet _ e)).trans (bumpRaw_quiet _ 0 3 1)
  · rw [if_neg c]; exact h

theorem logAll_quiet (n : Nat) (l : List LogEntry) (s : State) : Quiet s (State.logAll n l s) := by
  induction n generalizing l s with
  | zero => cases l <;> exact .refl s
  | succ n ih =>
    cases l with
    | nil => exact .refl s
    | cons e es => exact (logWrite_quiet s e).trans (ih _ _)

theorem logEntry_quiet (s : State) (e : LogEntry) : Quiet s (s.logEntry e) := by
  unfold State.logEntry
  exact Quiet.ite (.refl s) (Quiet.ite (Quiet.ite (chip_quiet ..) ((bumpRaw_quiet s 0 5 1).trans (chip_quiet ..))) (logAll_quiet ..))

theorem log_quiet (s : State) (code level idx a0 a1 : Nat) : Quiet s (s.log code level idx a0 a1) := logEntry_quiet s _

theorem bumpN_quiet (s : State) (u k n : Nat) : Quiet s (s.bumpN u k n) := by
  unfold State.bumpN
  exact Quiet.ite ((bumpRaw_quiet s u k n).trans (log_quiet ..)) (bumpRaw_quiet s u k n)

theorem bump_quiet (s : State) (u k : Nat) : Quiet s (s.bump u k) := bumpN_quiet s u k 1

theorem post_quiet (s : State) (q tag handle kind status r0 r1 : Nat) (irq : Bool) : Quiet s (s.post q tag handle kind status r0 r1 irq) := by
  unfold State.post
  have h := fun a b c => (hostWrite_quiet s a b).trans (setCq_quiet (s.hostWrite a b) q c)
  exact Quiet.ite ((h _ _ _).trans (raiseVec_quiet ..)) (h _ _ _)

theorem reject_quiet (s : State) (d : Desc) (status r0 : Nat) : Quiet s (s.reject d status r0) := (bump_quiet ..).trans (post_quiet ..)

theorem accept_quiet (s : State) (d : Desc) (a : Bytes) (slot : Nat) : Quiet s (s.accept d a slot) := by
  unfold State.accept
  exact ((((setHnd_quiet s _ _).trans (chip_quiet _ _)).trans (setCq_quiet _ _ _)).trans ((bump_quiet _ _ _).trans (bump_quiet _ _ _))).trans (post_quiet ..)

theorem release_quiet (s : State) (slot : Nat) : Quiet s (s.release slot) := (setHnd_quiet ..).trans (chip_quiet ..)

theorem final1_quiet (s : State) (slot obj status r0 r1 : Nat) : Quiet s (s.final1 slot obj status r0 r1) := by
  unfold State.final1
  dsimp only
  have h := fun (s1 : State) (h1 : Quiet s s1) => Quiet.ite (c := (s.hnd slot).discard = true) h1 (h1.trans (setCq_quiet s1 (s.hnd slot).queue
    ((s1.cq (s.hnd slot).queue).ended slot)))
  have h2 := h _ (Quiet.ite (c := (s.hnd slot).discard = true) (.refl s) (post_quiet s (s.hnd slot).queue (s.hnd slot).tag ((s.hnd slot).value slot) 2 status
    (r0 % 2 ^ 64) (r1 % 2 ^ 64) (bit (s.hnd slot).flags 1)))
  exact Quiet.ite (h2.trans (release_quiet ..)) (h2.trans (setHnd_quiet ..))

theorem finalWaiters_quiet (n slot status : Nat) (s : State) : Quiet s (State.finalWaiters n slot status s) := by
  induction n generalizing slot status s with
  | zero => exact .refl s
  | succ n ih => exact Quiet.foldl s fun s w => (final1_quiet s w 0 stOK status 0).trans (ih ..)

theorem countSysFail_quiet (s : State) (slot status : Nat) : Quiet s (s.countSysFail slot status) := by
  unfold State.countSysFail
  exact Quiet.ite (bump_quiet ..) (.refl s)

theorem finalObj_quiet (s : State) (slot obj status r0 r1 : Nat) : Quiet s (s.finalObj slot obj status r0 r1) := by
  have h := countSysFail_quiet s slot status
  unfold State.finalObj
  exact Quiet.ite ⟨rfl, rfl, rfl, rfl, rfl, rfl, rfl, rfl, rfl, rfl, rfl, rfl⟩ (Quiet.ite (.refl s) (Quiet.ite (h.trans (chip_quiet ..))
    ((h.trans (final1_quiet ..)).trans (finalWaiters_quiet ..))))

theorem final_quiet (s : State) (slot status r0 r1 : Nat) : Quiet s (s.final slot status r0 r1) := finalObj_quiet ..

@[simp] theorem setCq_time (s : State) (q : Nat) (c : Cq) : (s.setCq q c).time = s.time := (setCq_quiet s q c).time
@[simp] theorem setCq_clk (s : State) (q : Nat) (c : Cq) : (s.setCq q c).clk = s.clk := (setCq_quiet s q c).clk
@[simp] theorem setCq_sheaf (s : State) (q : Nat) (c : Cq) : (s.setCq q c).sheaf = s.sheaf := (setCq_quiet s q c).sheaf
@[simp] theorem setCq_til (s : State) (q : Nat) (c : Cq) : (s.setCq q c).til = s.til := (setCq_quiet s q c).til
@[simp] theorem setCq_convs (s : State) (q : Nat) (c : Cq) : (s.setCq q c).convs = s.convs := (setCq_quiet s q c).convs
@[simp] theorem setCq_dacs (s : State) (q : Nat) (c : Cq) : (s.setCq q c).dacs = s.dacs := (setCq_quiet s q c).dacs
@[simp] theorem setCq_cal (s : State) (q : Nat) (c : Cq) : (s.setCq q c).cal = s.cal := (setCq_quiet s q c).cal
@[simp] theorem setCq_keep (s : State) (q : Nat) (c : Cq) : (s.setCq q c).keep = s.keep := (setCq_quiet s q c).keep
@[simp] theorem setCq_husk (s : State) (q : Nat) (c : Cq) : (s.setCq q c).husk = s.husk := (setCq_quiet s q c).husk
@[simp] theorem setCq_pin (s : State) (q : Nat) (c : Cq) : (s.setCq q c).pin = s.pin := (setCq_quiet s q c).pin
@[simp] theorem setCq_mon (s : State) (q : Nat) (c : Cq) : (s.setCq q c).mon = s.mon := (setCq_quiet s q c).mon
@[simp] theorem setCq_pending (s : State) (q : Nat) (c : Cq) : (s.setCq q c).pending = s.pending := (setCq_quiet s q c).pending

@[simp] theorem setHnd_time (s : State) (n : Nat) (v : Hnd) : (s.setHnd n v).time = s.time := (setHnd_quiet s n v).time
@[simp] theorem setHnd_clk (s : State) (n : Nat) (v : Hnd) : (s.setHnd n v).clk = s.clk := (setHnd_quiet s n v).clk
@[simp] theorem setHnd_sheaf (s : State) (n : Nat) (v : Hnd) : (s.setHnd n v).sheaf = s.sheaf := (setHnd_quiet s n v).sheaf
@[simp] theorem setHnd_til (s : State) (n : Nat) (v : Hnd) : (s.setHnd n v).til = s.til := (setHnd_quiet s n v).til
@[simp] theorem setHnd_convs (s : State) (n : Nat) (v : Hnd) : (s.setHnd n v).convs = s.convs := (setHnd_quiet s n v).convs
@[simp] theorem setHnd_dacs (s : State) (n : Nat) (v : Hnd) : (s.setHnd n v).dacs = s.dacs := (setHnd_quiet s n v).dacs
@[simp] theorem setHnd_cal (s : State) (n : Nat) (v : Hnd) : (s.setHnd n v).cal = s.cal := (setHnd_quiet s n v).cal
@[simp] theorem setHnd_keep (s : State) (n : Nat) (v : Hnd) : (s.setHnd n v).keep = s.keep := (setHnd_quiet s n v).keep
@[simp] theorem setHnd_husk (s : State) (n : Nat) (v : Hnd) : (s.setHnd n v).husk = s.husk := (setHnd_quiet s n v).husk
@[simp] theorem setHnd_pin (s : State) (n : Nat) (v : Hnd) : (s.setHnd n v).pin = s.pin := (setHnd_quiet s n v).pin
@[simp] theorem setHnd_mon (s : State) (n : Nat) (v : Hnd) : (s.setHnd n v).mon = s.mon := (setHnd_quiet s n v).mon
@[simp] theorem setHnd_pending (s : State) (n : Nat) (v : Hnd) : (s.setHnd n v).pending = s.pending := (setHnd_quiet s n v).pending

@[simp] theorem setWork_time (s : State) (n : Nat) (w : Work) : (s.setWork n w).time = s.time := (setWork_quiet s n w).time
@[simp] theorem setWork_clk (s : State) (n : Nat) (w : Work) : (s.setWork n w).clk = s.clk := (setWork_quiet s n w).clk
@[simp] theorem setWork_sheaf (s : State) (n : Nat) (w : Work) : (s.setWork n w).sheaf = s.sheaf := (setWork_quiet s n w).sheaf
@[simp] theorem setWork_til (s : State) (n : Nat) (w : Work) : (s.setWork n w).til = s.til := (setWork_quiet s n w).til
@[simp] theorem setWork_convs (s : State) (n : Nat) (w : Work) : (s.setWork n w).convs = s.convs := (setWork_quiet s n w).convs
@[simp] theorem setWork_dacs (s : State) (n : Nat) (w : Work) : (s.setWork n w).dacs = s.dacs := (setWork_quiet s n w).dacs
@[simp] theorem setWork_cal (s : State) (n : Nat) (w : Work) : (s.setWork n w).cal = s.cal := (setWork_quiet s n w).cal
@[simp] theorem setWork_keep (s : State) (n : Nat) (w : Work) : (s.setWork n w).keep = s.keep := (setWork_quiet s n w).keep
@[simp] theorem setWork_husk (s : State) (n : Nat) (w : Work) : (s.setWork n w).husk = s.husk := (setWork_quiet s n w).husk
@[simp] theorem setWork_pin (s : State) (n : Nat) (w : Work) : (s.setWork n w).pin = s.pin := (setWork_quiet s n w).pin
@[simp] theorem setWork_mon (s : State) (n : Nat) (w : Work) : (s.setWork n w).mon = s.mon := (setWork_quiet s n w).mon
@[simp] theorem setWork_pending (s : State) (n : Nat) (w : Work) : (s.setWork n w).pending = s.pending := (setWork_quiet s n w).pending

@[simp] theorem emit_time (s : State) (m : OutMsg) : (s.emit m).time = s.time := (emit_quiet s m).time
@[simp] theorem emit_clk (s : State) (m : OutMsg) : (s.emit m).clk = s.clk := (emit_quiet s m).clk
@[simp] theorem emit_sheaf (s : State) (m : OutMsg) : (s.emit m).sheaf = s.sheaf := (emit_quiet s m).sheaf
@[simp] theorem emit_til (s : State) (m : OutMsg) : (s.emit m).til = s.til := (emit_quiet s m).til
@[simp] theorem emit_convs (s : State) (m : OutMsg) : (s.emit m).convs = s.convs := (emit_quiet s m).convs
@[simp] theorem emit_dacs (s : State) (m : OutMsg) : (s.emit m).dacs = s.dacs := (emit_quiet s m).dacs
@[simp] theorem emit_cal (s : State) (m : OutMsg) : (s.emit m).cal = s.cal := (emit_quiet s m).cal
@[simp] theorem emit_keep (s : State) (m : OutMsg) : (s.emit m).keep = s.keep := (emit_quiet s m).keep
@[simp] theorem emit_husk (s : State) (m : OutMsg) : (s.emit m).husk = s.husk := (emit_quiet s m).husk
@[simp] theorem emit_pin (s : State) (m : OutMsg) : (s.emit m).pin = s.pin := (emit_quiet s m).pin
@[simp] theorem emit_mon (s : State) (m : OutMsg) : (s.emit m).mon = s.mon := (emit_quiet s m).mon
@[simp] theorem emit_pending (s : State) (m : OutMsg) : (s.emit m).pending = s.pending := (emit_quiet s m).pending

@[simp] theorem hostWrite_time (s : State) (a : Nat) (b : Bytes) : (s.hostWrite a b).time = s.time := (hostWrite_quiet s a b).time
@[simp] theorem hostWrite_clk (s : State) (a : Nat) (b : Bytes) : (s.hostWrite a b).clk = s.clk := (hostWrite_quiet s a b).clk
@[simp] theorem hostWrite_sheaf (s : State) (a : Nat) (b : Bytes) : (s.hostWrite a b).sheaf = s.sheaf := (hostWrite_quiet s a b).sheaf
@[simp] theorem hostWrite_til (s : State) (a : Nat) (b : Bytes) : (s.hostWrite a b).til = s.til := (hostWrite_quiet s a b).til
@[simp] theorem hostWrite_convs (s : State) (a : Nat) (b : Bytes) : (s.hostWrite a b).convs = s.convs := (hostWrite_quiet s a b).convs
@[simp] theorem hostWrite_dacs (s : State) (a : Nat) (b : Bytes) : (s.hostWrite a b).dacs = s.dacs := (hostWrite_quiet s a b).dacs
@[simp] theorem hostWrite_cal (s : State) (a : Nat) (b : Bytes) : (s.hostWrite a b).cal = s.cal := (hostWrite_quiet s a b).cal
@[simp] theorem hostWrite_keep (s : State) (a : Nat) (b : Bytes) : (s.hostWrite a b).keep = s.keep := (hostWrite_quiet s a b).keep
@[simp] theorem hostWrite_husk (s : State) (a : Nat) (b : Bytes) : (s.hostWrite a b).husk = s.husk := (hostWrite_quiet s a b).husk
@[simp] theorem hostWrite_pin (s : State) (a : Nat) (b : Bytes) : (s.hostWrite a b).pin = s.pin := (hostWrite_quiet s a b).pin
@[simp] theorem hostWrite_mon (s : State) (a : Nat) (b : Bytes) : (s.hostWrite a b).mon = s.mon := (hostWrite_quiet s a b).mon
@[simp] theorem hostWrite_pending (s : State) (a : Nat) (b : Bytes) : (s.hostWrite a b).pending = s.pending := (hostWrite_quiet s a b).pending

@[simp] theorem raiseVec_time (s : State) (v : Nat) : (s.raiseVec v).time = s.time := (raiseVec_quiet s v).time
@[simp] theorem raiseVec_clk (s : State) (v : Nat) : (s.raiseVec v).clk = s.clk := (raiseVec_quiet s v).clk
@[simp] theorem raiseVec_sheaf (s : State) (v : Nat) : (s.raiseVec v).sheaf = s.sheaf := (raiseVec_quiet s v).sheaf
@[simp] theorem raiseVec_til (s : State) (v : Nat) : (s.raiseVec v).til = s.til := (raiseVec_quiet s v).til
@[simp] theorem raiseVec_convs (s : State) (v : Nat) : (s.raiseVec v).convs = s.convs := (raiseVec_quiet s v).convs
@[simp] theorem raiseVec_dacs (s : State) (v : Nat) : (s.raiseVec v).dacs = s.dacs := (raiseVec_quiet s v).dacs
@[simp] theorem raiseVec_cal (s : State) (v : Nat) : (s.raiseVec v).cal = s.cal := (raiseVec_quiet s v).cal
@[simp] theorem raiseVec_keep (s : State) (v : Nat) : (s.raiseVec v).keep = s.keep := (raiseVec_quiet s v).keep
@[simp] theorem raiseVec_husk (s : State) (v : Nat) : (s.raiseVec v).husk = s.husk := (raiseVec_quiet s v).husk
@[simp] theorem raiseVec_pin (s : State) (v : Nat) : (s.raiseVec v).pin = s.pin := (raiseVec_quiet s v).pin
@[simp] theorem raiseVec_mon (s : State) (v : Nat) : (s.raiseVec v).mon = s.mon := (raiseVec_quiet s v).mon
@[simp] theorem raiseVec_pending (s : State) (v : Nat) : (s.raiseVec v).pending = s.pending := (raiseVec_quiet s v).pending

@[simp] theorem log_time (s : State) (code level idx a0 a1 : Nat) : (s.log code level idx a0 a1).time = s.time := (log_quiet s code level idx a0 a1).time
@[simp] theorem log_clk (s : State) (code level idx a0 a1 : Nat) : (s.log code level idx a0 a1).clk = s.clk := (log_quiet s code level idx a0 a1).clk
@[simp] theorem log_sheaf (s : State) (code level idx a0 a1 : Nat) : (s.log code level idx a0 a1).sheaf = s.sheaf := (log_quiet s code level idx a0 a1).sheaf
@[simp] theorem log_til (s : State) (code level idx a0 a1 : Nat) : (s.log code level idx a0 a1).til = s.til := (log_quiet s code level idx a0 a1).til
@[simp] theorem log_convs (s : State) (code level idx a0 a1 : Nat) : (s.log code level idx a0 a1).convs = s.convs := (log_quiet s code level idx a0 a1).convs
@[simp] theorem log_dacs (s : State) (code level idx a0 a1 : Nat) : (s.log code level idx a0 a1).dacs = s.dacs := (log_quiet s code level idx a0 a1).dacs
@[simp] theorem log_cal (s : State) (code level idx a0 a1 : Nat) : (s.log code level idx a0 a1).cal = s.cal := (log_quiet s code level idx a0 a1).cal
@[simp] theorem log_keep (s : State) (code level idx a0 a1 : Nat) : (s.log code level idx a0 a1).keep = s.keep := (log_quiet s code level idx a0 a1).keep
@[simp] theorem log_husk (s : State) (code level idx a0 a1 : Nat) : (s.log code level idx a0 a1).husk = s.husk := (log_quiet s code level idx a0 a1).husk
@[simp] theorem log_pin (s : State) (code level idx a0 a1 : Nat) : (s.log code level idx a0 a1).pin = s.pin := (log_quiet s code level idx a0 a1).pin
@[simp] theorem log_mon (s : State) (code level idx a0 a1 : Nat) : (s.log code level idx a0 a1).mon = s.mon := (log_quiet s code level idx a0 a1).mon
@[simp] theorem log_pending (s : State) (code level idx a0 a1 : Nat) : (s.log code level idx a0 a1).pending = s.pending := (log_quiet s code level idx a0 a1).pending

@[simp] theorem bumpN_time (s : State) (u k n : Nat) : (s.bumpN u k n).time = s.time := (bumpN_quiet s u k n).time
@[simp] theorem bumpN_clk (s : State) (u k n : Nat) : (s.bumpN u k n).clk = s.clk := (bumpN_quiet s u k n).clk
@[simp] theorem bumpN_sheaf (s : State) (u k n : Nat) : (s.bumpN u k n).sheaf = s.sheaf := (bumpN_quiet s u k n).sheaf
@[simp] theorem bumpN_til (s : State) (u k n : Nat) : (s.bumpN u k n).til = s.til := (bumpN_quiet s u k n).til
@[simp] theorem bumpN_convs (s : State) (u k n : Nat) : (s.bumpN u k n).convs = s.convs := (bumpN_quiet s u k n).convs
@[simp] theorem bumpN_dacs (s : State) (u k n : Nat) : (s.bumpN u k n).dacs = s.dacs := (bumpN_quiet s u k n).dacs
@[simp] theorem bumpN_cal (s : State) (u k n : Nat) : (s.bumpN u k n).cal = s.cal := (bumpN_quiet s u k n).cal
@[simp] theorem bumpN_keep (s : State) (u k n : Nat) : (s.bumpN u k n).keep = s.keep := (bumpN_quiet s u k n).keep
@[simp] theorem bumpN_husk (s : State) (u k n : Nat) : (s.bumpN u k n).husk = s.husk := (bumpN_quiet s u k n).husk
@[simp] theorem bumpN_pin (s : State) (u k n : Nat) : (s.bumpN u k n).pin = s.pin := (bumpN_quiet s u k n).pin
@[simp] theorem bumpN_mon (s : State) (u k n : Nat) : (s.bumpN u k n).mon = s.mon := (bumpN_quiet s u k n).mon
@[simp] theorem bumpN_pending (s : State) (u k n : Nat) : (s.bumpN u k n).pending = s.pending := (bumpN_quiet s u k n).pending

@[simp] theorem bump_time (s : State) (u k : Nat) : (s.bump u k).time = s.time := (bump_quiet s u k).time
@[simp] theorem bump_clk (s : State) (u k : Nat) : (s.bump u k).clk = s.clk := (bump_quiet s u k).clk
@[simp] theorem bump_sheaf (s : State) (u k : Nat) : (s.bump u k).sheaf = s.sheaf := (bump_quiet s u k).sheaf
@[simp] theorem bump_til (s : State) (u k : Nat) : (s.bump u k).til = s.til := (bump_quiet s u k).til
@[simp] theorem bump_convs (s : State) (u k : Nat) : (s.bump u k).convs = s.convs := (bump_quiet s u k).convs
@[simp] theorem bump_dacs (s : State) (u k : Nat) : (s.bump u k).dacs = s.dacs := (bump_quiet s u k).dacs
@[simp] theorem bump_cal (s : State) (u k : Nat) : (s.bump u k).cal = s.cal := (bump_quiet s u k).cal
@[simp] theorem bump_keep (s : State) (u k : Nat) : (s.bump u k).keep = s.keep := (bump_quiet s u k).keep
@[simp] theorem bump_husk (s : State) (u k : Nat) : (s.bump u k).husk = s.husk := (bump_quiet s u k).husk
@[simp] theorem bump_pin (s : State) (u k : Nat) : (s.bump u k).pin = s.pin := (bump_quiet s u k).pin
@[simp] theorem bump_mon (s : State) (u k : Nat) : (s.bump u k).mon = s.mon := (bump_quiet s u k).mon
@[simp] theorem bump_pending (s : State) (u k : Nat) : (s.bump u k).pending = s.pending := (bump_quiet s u k).pending

@[simp] theorem post_time (s : State) (q tag handle kind status r0 r1 : Nat) (irq : Bool) : (s.post q tag handle kind status r0 r1 irq).time = s.time := (post_quiet s q tag handle kind status r0 r1 irq).time
@[simp] theorem post_clk (s : State) (q tag handle kind status r0 r1 : Nat) (irq : Bool) : (s.post q tag handle kind status r0 r1 irq).clk = s.clk := (post_quiet s q tag handle kind status r0 r1 irq).clk
@[simp] theorem post_sheaf (s : State) (q tag handle kind status r0 r1 : Nat) (irq : Bool) : (s.post q tag handle kind status r0 r1 irq).sheaf = s.sheaf := (post_quiet s q tag handle kind status r0 r1 irq).sheaf
@[simp] theorem post_til (s : State) (q tag handle kind status r0 r1 : Nat) (irq : Bool) : (s.post q tag handle kind status r0 r1 irq).til = s.til := (post_quiet s q tag handle kind status r0 r1 irq).til
@[simp] theorem post_convs (s : State) (q tag handle kind status r0 r1 : Nat) (irq : Bool) : (s.post q tag handle kind status r0 r1 irq).convs = s.convs := (post_quiet s q tag handle kind status r0 r1 irq).convs
@[simp] theorem post_dacs (s : State) (q tag handle kind status r0 r1 : Nat) (irq : Bool) : (s.post q tag handle kind status r0 r1 irq).dacs = s.dacs := (post_quiet s q tag handle kind status r0 r1 irq).dacs
@[simp] theorem post_cal (s : State) (q tag handle kind status r0 r1 : Nat) (irq : Bool) : (s.post q tag handle kind status r0 r1 irq).cal = s.cal := (post_quiet s q tag handle kind status r0 r1 irq).cal
@[simp] theorem post_keep (s : State) (q tag handle kind status r0 r1 : Nat) (irq : Bool) : (s.post q tag handle kind status r0 r1 irq).keep = s.keep := (post_quiet s q tag handle kind status r0 r1 irq).keep
@[simp] theorem post_husk (s : State) (q tag handle kind status r0 r1 : Nat) (irq : Bool) : (s.post q tag handle kind status r0 r1 irq).husk = s.husk := (post_quiet s q tag handle kind status r0 r1 irq).husk
@[simp] theorem post_pin (s : State) (q tag handle kind status r0 r1 : Nat) (irq : Bool) : (s.post q tag handle kind status r0 r1 irq).pin = s.pin := (post_quiet s q tag handle kind status r0 r1 irq).pin
@[simp] theorem post_mon (s : State) (q tag handle kind status r0 r1 : Nat) (irq : Bool) : (s.post q tag handle kind status r0 r1 irq).mon = s.mon := (post_quiet s q tag handle kind status r0 r1 irq).mon
@[simp] theorem post_pending (s : State) (q tag handle kind status r0 r1 : Nat) (irq : Bool) : (s.post q tag handle kind status r0 r1 irq).pending = s.pending := (post_quiet s q tag handle kind status r0 r1 irq).pending

@[simp] theorem reject_time (s : State) (d : Desc) (status r0 : Nat) : (s.reject d status r0).time = s.time := (reject_quiet s d status r0).time
@[simp] theorem reject_clk (s : State) (d : Desc) (status r0 : Nat) : (s.reject d status r0).clk = s.clk := (reject_quiet s d status r0).clk
@[simp] theorem reject_sheaf (s : State) (d : Desc) (status r0 : Nat) : (s.reject d status r0).sheaf = s.sheaf := (reject_quiet s d status r0).sheaf
@[simp] theorem reject_til (s : State) (d : Desc) (status r0 : Nat) : (s.reject d status r0).til = s.til := (reject_quiet s d status r0).til
@[simp] theorem reject_convs (s : State) (d : Desc) (status r0 : Nat) : (s.reject d status r0).convs = s.convs := (reject_quiet s d status r0).convs
@[simp] theorem reject_dacs (s : State) (d : Desc) (status r0 : Nat) : (s.reject d status r0).dacs = s.dacs := (reject_quiet s d status r0).dacs
@[simp] theorem reject_cal (s : State) (d : Desc) (status r0 : Nat) : (s.reject d status r0).cal = s.cal := (reject_quiet s d status r0).cal
@[simp] theorem reject_keep (s : State) (d : Desc) (status r0 : Nat) : (s.reject d status r0).keep = s.keep := (reject_quiet s d status r0).keep
@[simp] theorem reject_husk (s : State) (d : Desc) (status r0 : Nat) : (s.reject d status r0).husk = s.husk := (reject_quiet s d status r0).husk
@[simp] theorem reject_pin (s : State) (d : Desc) (status r0 : Nat) : (s.reject d status r0).pin = s.pin := (reject_quiet s d status r0).pin
@[simp] theorem reject_mon (s : State) (d : Desc) (status r0 : Nat) : (s.reject d status r0).mon = s.mon := (reject_quiet s d status r0).mon
@[simp] theorem reject_pending (s : State) (d : Desc) (status r0 : Nat) : (s.reject d status r0).pending = s.pending := (reject_quiet s d status r0).pending

@[simp] theorem accept_time (s : State) (d : Desc) (a : Bytes) (slot : Nat) : (s.accept d a slot).time = s.time := (accept_quiet s d a slot).time
@[simp] theorem accept_clk (s : State) (d : Desc) (a : Bytes) (slot : Nat) : (s.accept d a slot).clk = s.clk := (accept_quiet s d a slot).clk
@[simp] theorem accept_sheaf (s : State) (d : Desc) (a : Bytes) (slot : Nat) : (s.accept d a slot).sheaf = s.sheaf := (accept_quiet s d a slot).sheaf
@[simp] theorem accept_til (s : State) (d : Desc) (a : Bytes) (slot : Nat) : (s.accept d a slot).til = s.til := (accept_quiet s d a slot).til
@[simp] theorem accept_convs (s : State) (d : Desc) (a : Bytes) (slot : Nat) : (s.accept d a slot).convs = s.convs := (accept_quiet s d a slot).convs
@[simp] theorem accept_dacs (s : State) (d : Desc) (a : Bytes) (slot : Nat) : (s.accept d a slot).dacs = s.dacs := (accept_quiet s d a slot).dacs
@[simp] theorem accept_cal (s : State) (d : Desc) (a : Bytes) (slot : Nat) : (s.accept d a slot).cal = s.cal := (accept_quiet s d a slot).cal
@[simp] theorem accept_keep (s : State) (d : Desc) (a : Bytes) (slot : Nat) : (s.accept d a slot).keep = s.keep := (accept_quiet s d a slot).keep
@[simp] theorem accept_husk (s : State) (d : Desc) (a : Bytes) (slot : Nat) : (s.accept d a slot).husk = s.husk := (accept_quiet s d a slot).husk
@[simp] theorem accept_pin (s : State) (d : Desc) (a : Bytes) (slot : Nat) : (s.accept d a slot).pin = s.pin := (accept_quiet s d a slot).pin
@[simp] theorem accept_mon (s : State) (d : Desc) (a : Bytes) (slot : Nat) : (s.accept d a slot).mon = s.mon := (accept_quiet s d a slot).mon
@[simp] theorem accept_pending (s : State) (d : Desc) (a : Bytes) (slot : Nat) : (s.accept d a slot).pending = s.pending := (accept_quiet s d a slot).pending

@[simp] theorem release_time (s : State) (slot : Nat) : (s.release slot).time = s.time := (release_quiet s slot).time
@[simp] theorem release_clk (s : State) (slot : Nat) : (s.release slot).clk = s.clk := (release_quiet s slot).clk
@[simp] theorem release_sheaf (s : State) (slot : Nat) : (s.release slot).sheaf = s.sheaf := (release_quiet s slot).sheaf
@[simp] theorem release_til (s : State) (slot : Nat) : (s.release slot).til = s.til := (release_quiet s slot).til
@[simp] theorem release_convs (s : State) (slot : Nat) : (s.release slot).convs = s.convs := (release_quiet s slot).convs
@[simp] theorem release_dacs (s : State) (slot : Nat) : (s.release slot).dacs = s.dacs := (release_quiet s slot).dacs
@[simp] theorem release_cal (s : State) (slot : Nat) : (s.release slot).cal = s.cal := (release_quiet s slot).cal
@[simp] theorem release_keep (s : State) (slot : Nat) : (s.release slot).keep = s.keep := (release_quiet s slot).keep
@[simp] theorem release_husk (s : State) (slot : Nat) : (s.release slot).husk = s.husk := (release_quiet s slot).husk
@[simp] theorem release_pin (s : State) (slot : Nat) : (s.release slot).pin = s.pin := (release_quiet s slot).pin
@[simp] theorem release_mon (s : State) (slot : Nat) : (s.release slot).mon = s.mon := (release_quiet s slot).mon
@[simp] theorem release_pending (s : State) (slot : Nat) : (s.release slot).pending = s.pending := (release_quiet s slot).pending

@[simp] theorem finalObj_time (s : State) (slot obj status r0 r1 : Nat) : (s.finalObj slot obj status r0 r1).time = s.time := (finalObj_quiet s slot obj status r0 r1).time
@[simp] theorem finalObj_clk (s : State) (slot obj status r0 r1 : Nat) : (s.finalObj slot obj status r0 r1).clk = s.clk := (finalObj_quiet s slot obj status r0 r1).clk
@[simp] theorem finalObj_sheaf (s : State) (slot obj status r0 r1 : Nat) : (s.finalObj slot obj status r0 r1).sheaf = s.sheaf := (finalObj_quiet s slot obj status r0 r1).sheaf
@[simp] theorem finalObj_til (s : State) (slot obj status r0 r1 : Nat) : (s.finalObj slot obj status r0 r1).til = s.til := (finalObj_quiet s slot obj status r0 r1).til
@[simp] theorem finalObj_convs (s : State) (slot obj status r0 r1 : Nat) : (s.finalObj slot obj status r0 r1).convs = s.convs := (finalObj_quiet s slot obj status r0 r1).convs
@[simp] theorem finalObj_dacs (s : State) (slot obj status r0 r1 : Nat) : (s.finalObj slot obj status r0 r1).dacs = s.dacs := (finalObj_quiet s slot obj status r0 r1).dacs
@[simp] theorem finalObj_cal (s : State) (slot obj status r0 r1 : Nat) : (s.finalObj slot obj status r0 r1).cal = s.cal := (finalObj_quiet s slot obj status r0 r1).cal
@[simp] theorem finalObj_keep (s : State) (slot obj status r0 r1 : Nat) : (s.finalObj slot obj status r0 r1).keep = s.keep := (finalObj_quiet s slot obj status r0 r1).keep
@[simp] theorem finalObj_husk (s : State) (slot obj status r0 r1 : Nat) : (s.finalObj slot obj status r0 r1).husk = s.husk := (finalObj_quiet s slot obj status r0 r1).husk
@[simp] theorem finalObj_pin (s : State) (slot obj status r0 r1 : Nat) : (s.finalObj slot obj status r0 r1).pin = s.pin := (finalObj_quiet s slot obj status r0 r1).pin
@[simp] theorem finalObj_mon (s : State) (slot obj status r0 r1 : Nat) : (s.finalObj slot obj status r0 r1).mon = s.mon := (finalObj_quiet s slot obj status r0 r1).mon
@[simp] theorem finalObj_pending (s : State) (slot obj status r0 r1 : Nat) : (s.finalObj slot obj status r0 r1).pending = s.pending := (finalObj_quiet s slot obj status r0 r1).pending

@[simp] theorem final_time (s : State) (slot status r0 r1 : Nat) : (s.final slot status r0 r1).time = s.time := (final_quiet s slot status r0 r1).time
@[simp] theorem final_clk (s : State) (slot status r0 r1 : Nat) : (s.final slot status r0 r1).clk = s.clk := (final_quiet s slot status r0 r1).clk
@[simp] theorem final_sheaf (s : State) (slot status r0 r1 : Nat) : (s.final slot status r0 r1).sheaf = s.sheaf := (final_quiet s slot status r0 r1).sheaf
@[simp] theorem final_til (s : State) (slot status r0 r1 : Nat) : (s.final slot status r0 r1).til = s.til := (final_quiet s slot status r0 r1).til
@[simp] theorem final_convs (s : State) (slot status r0 r1 : Nat) : (s.final slot status r0 r1).convs = s.convs := (final_quiet s slot status r0 r1).convs
@[simp] theorem final_dacs (s : State) (slot status r0 r1 : Nat) : (s.final slot status r0 r1).dacs = s.dacs := (final_quiet s slot status r0 r1).dacs
@[simp] theorem final_cal (s : State) (slot status r0 r1 : Nat) : (s.final slot status r0 r1).cal = s.cal := (final_quiet s slot status r0 r1).cal
@[simp] theorem final_keep (s : State) (slot status r0 r1 : Nat) : (s.final slot status r0 r1).keep = s.keep := (final_quiet s slot status r0 r1).keep
@[simp] theorem final_husk (s : State) (slot status r0 r1 : Nat) : (s.final slot status r0 r1).husk = s.husk := (final_quiet s slot status r0 r1).husk
@[simp] theorem final_pin (s : State) (slot status r0 r1 : Nat) : (s.final slot status r0 r1).pin = s.pin := (final_quiet s slot status r0 r1).pin
@[simp] theorem final_mon (s : State) (slot status r0 r1 : Nat) : (s.final slot status r0 r1).mon = s.mon := (final_quiet s slot status r0 r1).mon
@[simp] theorem final_pending (s : State) (slot status r0 r1 : Nat) : (s.final slot status r0 r1).pending = s.pending := (final_quiet s slot status r0 r1).pending

end Sys2Proof.Machine
end

