-- ==== Sys2Proof/Laws/Queue.lean ====
section
/-! SUPPORT. The dispatch of a queue command, said once: an admitted command whose record no check turns away is accepted. -/

namespace Sys2Proof.Machine

theorem fetched_queue (s : State) (d : Desc) : (s.fetched d).queue = d.queue := by
  unfold State.fetched
  split <;> rfl

@[simp] theorem at_chip (s : State) (t : Nat) : (s.at t).chip = s.chip := by unfold State.at; split <;> rfl
@[simp] theorem at_host (s : State) (t : Nat) : (s.at t).host = s.host := by unfold State.at; split <;> rfl
@[simp] theorem at_clk (s : State) (t : Nat) : (s.at t).clk = s.clk := by unfold State.at; split <;> rfl
@[simp] theorem at_sheaf (s : State) (t : Nat) : (s.at t).sheaf = s.sheaf := by unfold State.at; split <;> rfl
@[simp] theorem at_til (s : State) (t : Nat) : (s.at t).til = s.til := by unfold State.at; split <;> rfl
@[simp] theorem at_convs (s : State) (t : Nat) : (s.at t).convs = s.convs := by unfold State.at; split <;> rfl
@[simp] theorem at_dacs (s : State) (t : Nat) : (s.at t).dacs = s.dacs := by unfold State.at; split <;> rfl
@[simp] theorem at_cal (s : State) (t : Nat) : (s.at t).cal = s.cal := by unfold State.at; split <;> rfl
@[simp] theorem at_keep (s : State) (t : Nat) : (s.at t).keep = s.keep := by unfold State.at; split <;> rfl
@[simp] theorem at_fab (s : State) (t : Nat) : (s.at t).fab = s.fab := by unfold State.at; split <;> rfl
@[simp] theorem at_boot (s : State) (t : Nat) : (s.at t).boot = s.boot := by unfold State.at; split <;> rfl
@[simp] theorem at_husk (s : State) (t : Nat) : (s.at t).husk = s.husk := by unfold State.at; split <;> rfl
@[simp] theorem at_pin (s : State) (t : Nat) : (s.at t).pin = s.pin := by unfold State.at; split <;> rfl
@[simp] theorem at_mon (s : State) (t : Nat) : (s.at t).mon = s.mon := by unfold State.at; split <;> rfl
@[simp] theorem at_out (s : State) (t : Nat) : (s.at t).out = s.out := by unfold State.at; split <;> rfl
@[simp] theorem at_freeCtr (s : State) (t : Nat) : (s.at t).freeCtr = s.freeCtr := by unfold State.at; split <;> rfl
@[simp] theorem at_pending (s : State) (t : Nat) : (s.at t).pending = s.pending := by unfold State.at; split <;> rfl

theorem admitted_quiet (s : State) (d : Desc) (slot : Nat) (a : Bytes) : Quiet (s.at d.t) (s.admitted d slot a) :=
  (setCq_quiet ..).trans (accept_quiet ..)


@[simp] theorem admitted_clk (s : State) (d : Desc) (slot : Nat) (a : Bytes) : (s.admitted d slot a).clk = s.clk := by
  rw [(admitted_quiet s d slot a).clk, at_clk]
@[simp] theorem admitted_sheaf (s : State) (d : Desc) (slot : Nat) (a : Bytes) : (s.admitted d slot a).sheaf = s.sheaf := by
  rw [(admitted_quiet s d slot a).sheaf, at_sheaf]
@[simp] theorem admitted_til (s : State) (d : Desc) (slot : Nat) (a : Bytes) : (s.admitted d slot a).til = s.til := by
  rw [(admitted_quiet s d slot a).til, at_til]
@[simp] theorem admitted_convs (s : State) (d : Desc) (slot : Nat) (a : Bytes) : (s.admitted d slot a).convs = s.convs := by
  rw [(admitted_quiet s d slot a).convs, at_convs]
@[simp] theorem admitted_dacs (s : State) (d : Desc) (slot : Nat) (a : Bytes) : (s.admitted d slot a).dacs = s.dacs := by
  rw [(admitted_quiet s d slot a).dacs, at_dacs]
@[simp] theorem admitted_cal (s : State) (d : Desc) (slot : Nat) (a : Bytes) : (s.admitted d slot a).cal = s.cal := by
  rw [(admitted_quiet s d slot a).cal, at_cal]
@[simp] theorem admitted_keep (s : State) (d : Desc) (slot : Nat) (a : Bytes) : (s.admitted d slot a).keep = s.keep := by
  rw [(admitted_quiet s d slot a).keep, at_keep]
@[simp] theorem admitted_husk (s : State) (d : Desc) (slot : Nat) (a : Bytes) : (s.admitted d slot a).husk = s.husk := by
  rw [(admitted_quiet s d slot a).husk, at_husk]
@[simp] theorem admitted_pin (s : State) (d : Desc) (slot : Nat) (a : Bytes) : (s.admitted d slot a).pin = s.pin := by
  rw [(admitted_quiet s d slot a).pin, at_pin]
@[simp] theorem admitted_mon (s : State) (d : Desc) (slot : Nat) (a : Bytes) : (s.admitted d slot a).mon = s.mon := by
  rw [(admitted_quiet s d slot a).mon, at_mon]
@[simp] theorem admitted_pending (s : State) (d : Desc) (slot : Nat) (a : Bytes) : (s.admitted d slot a).pending = s.pending := by
  rw [(admitted_quiet s d slot a).pending, at_pending]
@[simp] theorem admitted_time (s : State) (d : Desc) (slot : Nat) (a : Bytes) : (s.admitted d slot a).time = (s.at d.t).time :=
  (admitted_quiet s d slot a).time
@[simp] theorem admitted_now (s : State) (d : Desc) (slot : Nat) (a : Bytes) : (s.admitted d slot a).now = (s.at d.t).now := by
  unfold State.now; rw [admitted_time]
@[simp] theorem admitted_conv (s : State) (d : Desc) (slot : Nat) (a : Bytes) (n : Nat) : (s.admitted d slot a).conv n = s.conv n := by
  unfold State.conv; rw [admitted_convs]
@[simp] theorem at_conv (s : State) (t n : Nat) : (s.at t).conv n = s.conv n := by unfold State.conv; rw [at_convs]
@[simp] theorem admitted_dac (s : State) (d : Desc) (slot : Nat) (a : Bytes) (n : Nat) : (s.admitted d slot a).dac n = s.dac n := by
  unfold State.dac; rw [admitted_dacs]
@[simp] theorem at_dac (s : State) (t n : Nat) : (s.at t).dac n = s.dac n := by unfold State.dac; rw [at_dacs]
@[simp] theorem admitted_cell (s : State) (d : Desc) (slot : Nat) (a : Bytes) (n : Nat) : (s.admitted d slot a).cell n = s.cell n := by
  unfold State.cell; rw [admitted_til]
@[simp] theorem at_cell (s : State) (t n : Nat) : (s.at t).cell n = s.cell n := by unfold State.cell; rw [at_til]
@[simp] theorem admitted_graph (s : State) (d : Desc) (slot : Nat) (a : Bytes) (n : Nat) : (s.admitted d slot a).graph n = s.graph n := by
  unfold State.graph; rw [admitted_til]
@[simp] theorem at_graph (s : State) (t n : Nat) : (s.at t).graph n = s.graph n := by unfold State.graph; rw [at_til]
@[simp] theorem admitted_region (s : State) (d : Desc) (slot : Nat) (a : Bytes) (n : Nat) : (s.admitted d slot a).region n = s.region n := by
  unfold State.region; rw [admitted_til]
@[simp] theorem at_region (s : State) (t n : Nat) : (s.at t).region n = s.region n := by unfold State.region; rw [at_til]
@[simp] theorem admitted_block (s : State) (d : Desc) (slot : Nat) (a : Bytes) (n : Nat) : (s.admitted d slot a).block n = s.block n := by
  unfold State.block; rw [admitted_til]
@[simp] theorem at_block (s : State) (t n : Nat) : (s.at t).block n = s.block n := by unfold State.block; rw [at_til]
@[simp] theorem admitted_gck (s : State) (d : Desc) (slot : Nat) (a : Bytes) (n : Nat) : (s.admitted d slot a).gck n = s.gck n := by
  unfold State.gck; rw [admitted_clk]
@[simp] theorem at_gck (s : State) (t n : Nat) : (s.at t).gck n = s.gck n := by unfold State.gck; rw [at_clk]
@[simp] theorem admitted_upll (s : State) (d : Desc) (slot : Nat) (a : Bytes) (n : Nat) : (s.admitted d slot a).upll n = s.upll n := by
  unfold State.upll; rw [admitted_clk]
@[simp] theorem at_upll (s : State) (t n : Nat) : (s.at t).upll n = s.upll n := by unfold State.upll; rw [at_clk]
@[simp] theorem admitted_cmp (s : State) (d : Desc) (slot : Nat) (a : Bytes) (n : Nat) : (s.admitted d slot a).cmp n = s.cmp n := by
  unfold State.cmp; rw [admitted_clk]
@[simp] theorem at_cmp (s : State) (t n : Nat) : (s.at t).cmp n = s.cmp n := by unfold State.cmp; rw [at_clk]
@[simp] theorem admitted_lane (s : State) (d : Desc) (slot : Nat) (a : Bytes) (n : Nat) : (s.admitted d slot a).lane n = s.lane n := by
  unfold State.lane; rw [admitted_clk]
@[simp] theorem at_lane (s : State) (t n : Nat) : (s.at t).lane n = s.lane n := by unfold State.lane; rw [at_clk]
@[simp] theorem admitted_bank (s : State) (d : Desc) (slot : Nat) (a : Bytes) (n : Nat) : (s.admitted d slot a).bank n = s.bank n := by
  unfold State.bank; rw [admitted_pin]
@[simp] theorem at_bank (s : State) (t n : Nat) : (s.at t).bank n = s.bank n := by unfold State.bank; rw [at_pin]
@[simp] theorem admitted_pinS (s : State) (d : Desc) (slot : Nat) (a : Bytes) (n : Nat) : (s.admitted d slot a).pinS n = s.pinS n := by
  unfold State.pinS; rw [admitted_pin]
@[simp] theorem at_pinS (s : State) (t n : Nat) : (s.at t).pinS n = s.pinS n := by unfold State.pinS; rw [at_pin]
@[simp] theorem admitted_port (s : State) (d : Desc) (slot : Nat) (a : Bytes) (n : Nat) : (s.admitted d slot a).port n = s.port n := by
  unfold State.port; rw [admitted_pin]
@[simp] theorem at_port (s : State) (t n : Nat) : (s.at t).port n = s.port n := by unfold State.port; rw [at_pin]
@[simp] theorem admitted_pair (s : State) (d : Desc) (slot : Nat) (a : Bytes) (n : Nat) : (s.admitted d slot a).pair n = s.pair n := by
  unfold State.pair; rw [admitted_mon]
@[simp] theorem at_pair (s : State) (t n : Nat) : (s.at t).pair n = s.pair n := by unfold State.pair; rw [at_mon]
@[simp] theorem admitted_sensor (s : State) (d : Desc) (slot : Nat) (a : Bytes) (n : Nat) : (s.admitted d slot a).sensor n = s.sensor n := by
  unfold State.sensor; rw [admitted_mon]
@[simp] theorem at_sensor (s : State) (t n : Nat) : (s.at t).sensor n = s.sensor n := by unfold State.sensor; rw [at_mon]
@[simp] theorem at_hnd (s : State) (t n : Nat) : (s.at t).hnd n = s.hnd n := by unfold State.hnd; rw [at_chip]
@[simp] theorem at_cq (s : State) (t n : Nat) : (s.at t).cq n = s.cq n := by unfold State.cq; rw [at_host]
@[simp] theorem at_ds (s : State) (t n : Nat) : (s.at t).ds n = s.ds n := by unfold State.ds; rw [at_host]
@[simp] theorem at_load (s : State) (t n : Nat) : (s.at t).load n = s.load n := by unfold State.load; rw [at_boot]
@[simp] theorem at_msix (s : State) (t n : Nat) : (s.at t).msix n = s.msix n := by unfold State.msix; rw [at_host]

/-- A body runs at once where the region's controller is ready. -/
theorem onRegion_ready {s : State} {r slot : Nat} {cmd : Instr} {body : State → State} (hf : (s.region r).failed = false)
    (hr : (s.region r).ready = true) : s.onRegion r slot cmd body = body s := by
  unfold State.onRegion
  rw [hf, hr]
  rfl

/-- A body runs at once where the controllers of all its regions are ready. -/
theorem onRegions_ready {s : State} {rs : List Nat} {slot : Nat} {cmd : Instr} {body : State → State}
    (h : ∀ r ∈ rs, (s.region r).failed = false ∧ (s.region r).ready = true) : s.onRegions rs slot cmd body = body s := by
  have h2 : rs.find? (fun r => !(s.region r).ready) = none := by
    rw [List.find?_eq_none]
    intro x hx
    simp [(h x hx).2]
  have h1 : (rs.any fun r => (s.region r).failed) = false := by
    rw [List.any_eq_false]
    intro r hr
    simp [(h r hr).1]
  unfold State.onRegions
  rw [h1, h2]
  rfl

/-- An admitted command that neither its record nor its own check turns away is accepted. -/
theorem dispatch_admitted {s : State} {op : Nat} {d : Desc} {bad : Bytes → Option Nat} {pre : State → Bytes → Option Nat} {slot : Nat} {a : Bytes}
    (h : Admits s op d slot a) (hk : (opcodes.any fun e => e.1 == op) = true) (hb : bad a = none)
    (hp : pre (s.consumed d) a = none) :
    s.dispatch op d bad pre = (s.admitted d slot a, some (slot, a)) := by
  obtain ⟨-, ho, hm, hd, ha, hy, hf, hh⟩ := h
  unfold State.dispatch
  dsimp only
  have e : (s.at d.t).fetched d = s.atDesc d := rfl
  rw [e, ho]
  rw [if_neg (by simp [hm]), if_neg (by simp [hk])]
  have hd' : ∀ c, ((s.at d.t).setCq (s.atDesc d).queue c).descBad (s.atDesc d) (argLen op) = none := fun _ => hd
  rw [hd']
  dsimp only
  rw [← ha, hb]
  dsimp only
  have hy' : ∀ c, ((s.at d.t).setCq (s.atDesc d).queue c).busyFor op a = false := fun _ => hy
  have hp' : pre ((s.at d.t).setCq (s.atDesc d).queue _) a = none := hp
  rw [hy', if_neg (by decide), hp']
  dsimp only
  have hf' : ∀ c, ((s.at d.t).setCq (s.atDesc d).queue c).chip.freeSlots = (s.at d.t).chip.freeSlots := fun _ => rfl
  rw [hf']
  cases hs : (s.at d.t).chip.freeSlots with
  | nil => rw [hs] at hf; cases hf
  | cons x l =>
    rw [hs] at hf
    cases hf
    dsimp only
    have hq : (s.admitted d slot a).husk.halted = false := by
      rw [(admitted_quiet s d slot a).husk, at_husk]
      exact hh
    have hq' : ((s.consumed d).accept (s.atDesc d) a slot).husk.halted = false := hq
    change (if ((s.consumed d).accept (s.atDesc d) a slot).husk.halted && _ then _ else _) = _
    rw [hq']
    rfl

/-- The body of an admitted command runs on its slot and record. -/
theorem command_admitted {s : State} {op : Nat} {d : Desc} {bad : Bytes → Option Nat} {pre : State → Bytes → Option Nat} {slot : Nat} {a : Bytes}
    {body : Nat → Bytes → State → State} (h : Admits s op d slot a) (hk : (opcodes.any fun e => e.1 == op) = true) (hb : bad a = none)
    (hp : pre (s.consumed d) a = none) :
    queueCmd d s (fun s => s.command op d bad pre body) = .next (body slot a (s.admitted d slot a)) := by
  unfold queueCmd State.command
  rw [if_pos h.1]
  dsimp only
  rw [dispatch_admitted h hk hb hp]

end Sys2Proof.Machine
end

