-- ==== Sys2Proof/Laws/State.lean ====
section
/-! SUPPORT. What each update of a part of State leaves as it was: one lemma for each field and update, true by unfolding. -/

namespace Sys2Proof.Machine

/-! ### `State.setCq` -/

@[simp] theorem State.setCq_time (s : State) (q : Nat) (v : Cq) : (s.setCq q v).time = s.time := rfl
@[simp] theorem State.setCq_chip (s : State) (q : Nat) (v : Cq) : (s.setCq q v).chip = s.chip := rfl
@[simp] theorem State.setCq_clk (s : State) (q : Nat) (v : Cq) : (s.setCq q v).clk = s.clk := rfl
@[simp] theorem State.setCq_sheaf (s : State) (q : Nat) (v : Cq) : (s.setCq q v).sheaf = s.sheaf := rfl
@[simp] theorem State.setCq_til (s : State) (q : Nat) (v : Cq) : (s.setCq q v).til = s.til := rfl
@[simp] theorem State.setCq_convs (s : State) (q : Nat) (v : Cq) : (s.setCq q v).convs = s.convs := rfl
@[simp] theorem State.setCq_dacs (s : State) (q : Nat) (v : Cq) : (s.setCq q v).dacs = s.dacs := rfl
@[simp] theorem State.setCq_cal (s : State) (q : Nat) (v : Cq) : (s.setCq q v).cal = s.cal := rfl
@[simp] theorem State.setCq_keep (s : State) (q : Nat) (v : Cq) : (s.setCq q v).keep = s.keep := rfl
@[simp] theorem State.setCq_fab (s : State) (q : Nat) (v : Cq) : (s.setCq q v).fab = s.fab := rfl
@[simp] theorem State.setCq_boot (s : State) (q : Nat) (v : Cq) : (s.setCq q v).boot = s.boot := rfl
@[simp] theorem State.setCq_husk (s : State) (q : Nat) (v : Cq) : (s.setCq q v).husk = s.husk := rfl
@[simp] theorem State.setCq_pin (s : State) (q : Nat) (v : Cq) : (s.setCq q v).pin = s.pin := rfl
@[simp] theorem State.setCq_mon (s : State) (q : Nat) (v : Cq) : (s.setCq q v).mon = s.mon := rfl
@[simp] theorem State.setCq_out (s : State) (q : Nat) (v : Cq) : (s.setCq q v).out = s.out := rfl
@[simp] theorem State.setCq_freeCtr (s : State) (q : Nat) (v : Cq) : (s.setCq q v).freeCtr = s.freeCtr := rfl
@[simp] theorem State.setCq_pending (s : State) (q : Nat) (v : Cq) : (s.setCq q v).pending = s.pending := rfl
@[simp] theorem State.setCq_host_dss (s : State) (q : Nat) (v : Cq) : (s.setCq q v).host.dss = s.host.dss := rfl
@[simp] theorem State.setCq_host_me (s : State) (q : Nat) (v : Cq) : (s.setCq q v).host.me = s.host.me := rfl
@[simp] theorem State.setCq_host_share (s : State) (q : Nat) (v : Cq) : (s.setCq q v).host.share = s.host.share := rfl
@[simp] theorem State.setCq_host_speed (s : State) (q : Nat) (v : Cq) : (s.setCq q v).host.speed = s.host.speed := rfl
@[simp] theorem State.setCq_host_width (s : State) (q : Nat) (v : Cq) : (s.setCq q v).host.width = s.host.width := rfl
@[simp] theorem State.setCq_host_coal (s : State) (q : Nat) (v : Cq) : (s.setCq q v).host.coal = s.host.coal := rfl
@[simp] theorem State.setCq_host_msix (s : State) (q : Nat) (v : Cq) : (s.setCq q v).host.msix = s.host.msix := rfl
@[simp] theorem State.setCq_host_pendVec (s : State) (q : Nat) (v : Cq) : (s.setCq q v).host.pendVec = s.host.pendVec := rfl
@[simp] theorem State.setCq_host_vecNext (s : State) (q : Nat) (v : Cq) : (s.setCq q v).host.vecNext = s.host.vecNext := rfl
@[simp] theorem State.setCq_host_haltConv (s : State) (q : Nat) (v : Cq) : (s.setCq q v).host.haltConv = s.host.haltConv := rfl
@[simp] theorem State.setCq_host_haltCmp (s : State) (q : Nat) (v : Cq) : (s.setCq q v).host.haltCmp = s.host.haltCmp := rfl
@[simp] theorem State.setCq_host_gap (s : State) (q : Nat) (v : Cq) : (s.setCq q v).host.gap = s.host.gap := rfl
@[simp] theorem State.setCq_host_areaStart (s : State) (q : Nat) (v : Cq) : (s.setCq q v).host.areaStart = s.host.areaStart := rfl
@[simp] theorem State.setCq_host_areaPages (s : State) (q : Nat) (v : Cq) : (s.setCq q v).host.areaPages = s.host.areaPages := rfl
@[simp] theorem State.setCq_host_sent (s : State) (q : Nat) (v : Cq) : (s.setCq q v).host.sent = s.host.sent := rfl
@[simp] theorem State.setCq_host_loHold (s : State) (q : Nat) (v : Cq) : (s.setCq q v).host.loHold = s.host.loHold := rfl
@[simp] theorem State.setCq_host_latch (s : State) (q : Nat) (v : Cq) : (s.setCq q v).host.latch = s.host.latch := rfl
@[simp] theorem State.setCq_host_deferred (s : State) (q : Nat) (v : Cq) : (s.setCq q v).host.deferred = s.host.deferred := rfl
@[simp] theorem State.setCq_host_deferredReg (s : State) (q : Nat) (v : Cq) : (s.setCq q v).host.deferredReg = s.host.deferredReg := rfl

/-! ### `State.setDs` -/

@[simp] theorem State.setDs_time (s : State) (n : Nat) (v : Ds) : (s.setDs n v).time = s.time := rfl
@[simp] theorem State.setDs_chip (s : State) (n : Nat) (v : Ds) : (s.setDs n v).chip = s.chip := rfl
@[simp] theorem State.setDs_clk (s : State) (n : Nat) (v : Ds) : (s.setDs n v).clk = s.clk := rfl
@[simp] theorem State.setDs_sheaf (s : State) (n : Nat) (v : Ds) : (s.setDs n v).sheaf = s.sheaf := rfl
@[simp] theorem State.setDs_til (s : State) (n : Nat) (v : Ds) : (s.setDs n v).til = s.til := rfl
@[simp] theorem State.setDs_convs (s : State) (n : Nat) (v : Ds) : (s.setDs n v).convs = s.convs := rfl
@[simp] theorem State.setDs_dacs (s : State) (n : Nat) (v : Ds) : (s.setDs n v).dacs = s.dacs := rfl
@[simp] theorem State.setDs_cal (s : State) (n : Nat) (v : Ds) : (s.setDs n v).cal = s.cal := rfl
@[simp] theorem State.setDs_keep (s : State) (n : Nat) (v : Ds) : (s.setDs n v).keep = s.keep := rfl
@[simp] theorem State.setDs_fab (s : State) (n : Nat) (v : Ds) : (s.setDs n v).fab = s.fab := rfl
@[simp] theorem State.setDs_boot (s : State) (n : Nat) (v : Ds) : (s.setDs n v).boot = s.boot := rfl
@[simp] theorem State.setDs_husk (s : State) (n : Nat) (v : Ds) : (s.setDs n v).husk = s.husk := rfl
@[simp] theorem State.setDs_pin (s : State) (n : Nat) (v : Ds) : (s.setDs n v).pin = s.pin := rfl
@[simp] theorem State.setDs_mon (s : State) (n : Nat) (v : Ds) : (s.setDs n v).mon = s.mon := rfl
@[simp] theorem State.setDs_out (s : State) (n : Nat) (v : Ds) : (s.setDs n v).out = s.out := rfl
@[simp] theorem State.setDs_freeCtr (s : State) (n : Nat) (v : Ds) : (s.setDs n v).freeCtr = s.freeCtr := rfl
@[simp] theorem State.setDs_pending (s : State) (n : Nat) (v : Ds) : (s.setDs n v).pending = s.pending := rfl
@[simp] theorem State.setDs_host_cqs (s : State) (n : Nat) (v : Ds) : (s.setDs n v).host.cqs = s.host.cqs := rfl
@[simp] theorem State.setDs_host_me (s : State) (n : Nat) (v : Ds) : (s.setDs n v).host.me = s.host.me := rfl
@[simp] theorem State.setDs_host_share (s : State) (n : Nat) (v : Ds) : (s.setDs n v).host.share = s.host.share := rfl
@[simp] theorem State.setDs_host_speed (s : State) (n : Nat) (v : Ds) : (s.setDs n v).host.speed = s.host.speed := rfl
@[simp] theorem State.setDs_host_width (s : State) (n : Nat) (v : Ds) : (s.setDs n v).host.width = s.host.width := rfl
@[simp] theorem State.setDs_host_coal (s : State) (n : Nat) (v : Ds) : (s.setDs n v).host.coal = s.host.coal := rfl
@[simp] theorem State.setDs_host_msix (s : State) (n : Nat) (v : Ds) : (s.setDs n v).host.msix = s.host.msix := rfl
@[simp] theorem State.setDs_host_pendVec (s : State) (n : Nat) (v : Ds) : (s.setDs n v).host.pendVec = s.host.pendVec := rfl
@[simp] theorem State.setDs_host_vecNext (s : State) (n : Nat) (v : Ds) : (s.setDs n v).host.vecNext = s.host.vecNext := rfl
@[simp] theorem State.setDs_host_haltConv (s : State) (n : Nat) (v : Ds) : (s.setDs n v).host.haltConv = s.host.haltConv := rfl
@[simp] theorem State.setDs_host_haltCmp (s : State) (n : Nat) (v : Ds) : (s.setDs n v).host.haltCmp = s.host.haltCmp := rfl
@[simp] theorem State.setDs_host_gap (s : State) (n : Nat) (v : Ds) : (s.setDs n v).host.gap = s.host.gap := rfl
@[simp] theorem State.setDs_host_areaStart (s : State) (n : Nat) (v : Ds) : (s.setDs n v).host.areaStart = s.host.areaStart := rfl
@[simp] theorem State.setDs_host_areaPages (s : State) (n : Nat) (v : Ds) : (s.setDs n v).host.areaPages = s.host.areaPages := rfl
@[simp] theorem State.setDs_host_sent (s : State) (n : Nat) (v : Ds) : (s.setDs n v).host.sent = s.host.sent := rfl
@[simp] theorem State.setDs_host_loHold (s : State) (n : Nat) (v : Ds) : (s.setDs n v).host.loHold = s.host.loHold := rfl
@[simp] theorem State.setDs_host_latch (s : State) (n : Nat) (v : Ds) : (s.setDs n v).host.latch = s.host.latch := rfl
@[simp] theorem State.setDs_host_deferred (s : State) (n : Nat) (v : Ds) : (s.setDs n v).host.deferred = s.host.deferred := rfl
@[simp] theorem State.setDs_host_deferredReg (s : State) (n : Nat) (v : Ds) : (s.setDs n v).host.deferredReg = s.host.deferredReg := rfl

/-! ### `State.setMsix` -/

@[simp] theorem State.setMsix_time (s : State) (n : Nat) (v : Msix) : (s.setMsix n v).time = s.time := rfl
@[simp] theorem State.setMsix_chip (s : State) (n : Nat) (v : Msix) : (s.setMsix n v).chip = s.chip := rfl
@[simp] theorem State.setMsix_clk (s : State) (n : Nat) (v : Msix) : (s.setMsix n v).clk = s.clk := rfl
@[simp] theorem State.setMsix_sheaf (s : State) (n : Nat) (v : Msix) : (s.setMsix n v).sheaf = s.sheaf := rfl
@[simp] theorem State.setMsix_til (s : State) (n : Nat) (v : Msix) : (s.setMsix n v).til = s.til := rfl
@[simp] theorem State.setMsix_convs (s : State) (n : Nat) (v : Msix) : (s.setMsix n v).convs = s.convs := rfl
@[simp] theorem State.setMsix_dacs (s : State) (n : Nat) (v : Msix) : (s.setMsix n v).dacs = s.dacs := rfl
@[simp] theorem State.setMsix_cal (s : State) (n : Nat) (v : Msix) : (s.setMsix n v).cal = s.cal := rfl
@[simp] theorem State.setMsix_keep (s : State) (n : Nat) (v : Msix) : (s.setMsix n v).keep = s.keep := rfl
@[simp] theorem State.setMsix_fab (s : State) (n : Nat) (v : Msix) : (s.setMsix n v).fab = s.fab := rfl
@[simp] theorem State.setMsix_boot (s : State) (n : Nat) (v : Msix) : (s.setMsix n v).boot = s.boot := rfl
@[simp] theorem State.setMsix_husk (s : State) (n : Nat) (v : Msix) : (s.setMsix n v).husk = s.husk := rfl
@[simp] theorem State.setMsix_pin (s : State) (n : Nat) (v : Msix) : (s.setMsix n v).pin = s.pin := rfl
@[simp] theorem State.setMsix_mon (s : State) (n : Nat) (v : Msix) : (s.setMsix n v).mon = s.mon := rfl
@[simp] theorem State.setMsix_out (s : State) (n : Nat) (v : Msix) : (s.setMsix n v).out = s.out := rfl
@[simp] theorem State.setMsix_freeCtr (s : State) (n : Nat) (v : Msix) : (s.setMsix n v).freeCtr = s.freeCtr := rfl
@[simp] theorem State.setMsix_pending (s : State) (n : Nat) (v : Msix) : (s.setMsix n v).pending = s.pending := rfl
@[simp] theorem State.setMsix_host_cqs (s : State) (n : Nat) (v : Msix) : (s.setMsix n v).host.cqs = s.host.cqs := rfl
@[simp] theorem State.setMsix_host_dss (s : State) (n : Nat) (v : Msix) : (s.setMsix n v).host.dss = s.host.dss := rfl
@[simp] theorem State.setMsix_host_me (s : State) (n : Nat) (v : Msix) : (s.setMsix n v).host.me = s.host.me := rfl
@[simp] theorem State.setMsix_host_share (s : State) (n : Nat) (v : Msix) : (s.setMsix n v).host.share = s.host.share := rfl
@[simp] theorem State.setMsix_host_speed (s : State) (n : Nat) (v : Msix) : (s.setMsix n v).host.speed = s.host.speed := rfl
@[simp] theorem State.setMsix_host_width (s : State) (n : Nat) (v : Msix) : (s.setMsix n v).host.width = s.host.width := rfl
@[simp] theorem State.setMsix_host_coal (s : State) (n : Nat) (v : Msix) : (s.setMsix n v).host.coal = s.host.coal := rfl
@[simp] theorem State.setMsix_host_pendVec (s : State) (n : Nat) (v : Msix) : (s.setMsix n v).host.pendVec = s.host.pendVec := rfl
@[simp] theorem State.setMsix_host_vecNext (s : State) (n : Nat) (v : Msix) : (s.setMsix n v).host.vecNext = s.host.vecNext := rfl
@[simp] theorem State.setMsix_host_haltConv (s : State) (n : Nat) (v : Msix) : (s.setMsix n v).host.haltConv = s.host.haltConv := rfl
@[simp] theorem State.setMsix_host_haltCmp (s : State) (n : Nat) (v : Msix) : (s.setMsix n v).host.haltCmp = s.host.haltCmp := rfl
@[simp] theorem State.setMsix_host_gap (s : State) (n : Nat) (v : Msix) : (s.setMsix n v).host.gap = s.host.gap := rfl
@[simp] theorem State.setMsix_host_areaStart (s : State) (n : Nat) (v : Msix) : (s.setMsix n v).host.areaStart = s.host.areaStart := rfl
@[simp] theorem State.setMsix_host_areaPages (s : State) (n : Nat) (v : Msix) : (s.setMsix n v).host.areaPages = s.host.areaPages := rfl
@[simp] theorem State.setMsix_host_sent (s : State) (n : Nat) (v : Msix) : (s.setMsix n v).host.sent = s.host.sent := rfl
@[simp] theorem State.setMsix_host_loHold (s : State) (n : Nat) (v : Msix) : (s.setMsix n v).host.loHold = s.host.loHold := rfl
@[simp] theorem State.setMsix_host_latch (s : State) (n : Nat) (v : Msix) : (s.setMsix n v).host.latch = s.host.latch := rfl
@[simp] theorem State.setMsix_host_deferred (s : State) (n : Nat) (v : Msix) : (s.setMsix n v).host.deferred = s.host.deferred := rfl
@[simp] theorem State.setMsix_host_deferredReg (s : State) (n : Nat) (v : Msix) : (s.setMsix n v).host.deferredReg = s.host.deferredReg := rfl

/-! ### `State.setHnd` -/

@[simp] theorem State.setHnd_time (s : State) (n : Nat) (v : Hnd) : (s.setHnd n v).time = s.time := rfl
@[simp] theorem State.setHnd_host (s : State) (n : Nat) (v : Hnd) : (s.setHnd n v).host = s.host := rfl
@[simp] theorem State.setHnd_clk (s : State) (n : Nat) (v : Hnd) : (s.setHnd n v).clk = s.clk := rfl
@[simp] theorem State.setHnd_sheaf (s : State) (n : Nat) (v : Hnd) : (s.setHnd n v).sheaf = s.sheaf := rfl
@[simp] theorem State.setHnd_til (s : State) (n : Nat) (v : Hnd) : (s.setHnd n v).til = s.til := rfl
@[simp] theorem State.setHnd_convs (s : State) (n : Nat) (v : Hnd) : (s.setHnd n v).convs = s.convs := rfl
@[simp] theorem State.setHnd_dacs (s : State) (n : Nat) (v : Hnd) : (s.setHnd n v).dacs = s.dacs := rfl
@[simp] theorem State.setHnd_cal (s : State) (n : Nat) (v : Hnd) : (s.setHnd n v).cal = s.cal := rfl
@[simp] theorem State.setHnd_keep (s : State) (n : Nat) (v : Hnd) : (s.setHnd n v).keep = s.keep := rfl
@[simp] theorem State.setHnd_fab (s : State) (n : Nat) (v : Hnd) : (s.setHnd n v).fab = s.fab := rfl
@[simp] theorem State.setHnd_boot (s : State) (n : Nat) (v : Hnd) : (s.setHnd n v).boot = s.boot := rfl
@[simp] theorem State.setHnd_husk (s : State) (n : Nat) (v : Hnd) : (s.setHnd n v).husk = s.husk := rfl
@[simp] theorem State.setHnd_pin (s : State) (n : Nat) (v : Hnd) : (s.setHnd n v).pin = s.pin := rfl
@[simp] theorem State.setHnd_mon (s : State) (n : Nat) (v : Hnd) : (s.setHnd n v).mon = s.mon := rfl
@[simp] theorem State.setHnd_out (s : State) (n : Nat) (v : Hnd) : (s.setHnd n v).out = s.out := rfl
@[simp] theorem State.setHnd_freeCtr (s : State) (n : Nat) (v : Hnd) : (s.setHnd n v).freeCtr = s.freeCtr := rfl
@[simp] theorem State.setHnd_pending (s : State) (n : Nat) (v : Hnd) : (s.setHnd n v).pending = s.pending := rfl
@[simp] theorem State.setHnd_chip_restarting (s : State) (n : Nat) (v : Hnd) : (s.setHnd n v).chip.restarting = s.chip.restarting := rfl
@[simp] theorem State.setHnd_chip_failed (s : State) (n : Nat) (v : Hnd) : (s.setHnd n v).chip.failed = s.chip.failed := rfl
@[simp] theorem State.setHnd_chip_restartFrom (s : State) (n : Nat) (v : Hnd) : (s.setHnd n v).chip.restartFrom = s.chip.restartFrom := rfl
@[simp] theorem State.setHnd_chip_dogs (s : State) (n : Nat) (v : Hnd) : (s.setHnd n v).chip.dogs = s.chip.dogs := rfl
@[simp] theorem State.setHnd_chip_mgmtFw (s : State) (n : Nat) (v : Hnd) : (s.setHnd n v).chip.mgmtFw = s.chip.mgmtFw := rfl
@[simp] theorem State.setHnd_chip_regionFw (s : State) (n : Nat) (v : Hnd) : (s.setHnd n v).chip.regionFw = s.chip.regionFw := rfl
@[simp] theorem State.setHnd_chip_serial (s : State) (n : Nat) (v : Hnd) : (s.setHnd n v).chip.serial = s.chip.serial := rfl
@[simp] theorem State.setHnd_chip_persona (s : State) (n : Nat) (v : Hnd) : (s.setHnd n v).chip.persona = s.chip.persona := rfl
@[simp] theorem State.setHnd_chip_sparesWarm (s : State) (n : Nat) (v : Hnd) : (s.setHnd n v).chip.sparesWarm = s.chip.sparesWarm := rfl
@[simp] theorem State.setHnd_chip_resetCause (s : State) (n : Nat) (v : Hnd) : (s.setHnd n v).chip.resetCause = s.chip.resetCause := rfl
@[simp] theorem State.setHnd_chip_log (s : State) (n : Nat) (v : Hnd) : (s.setHnd n v).chip.log = s.chip.log := rfl
@[simp] theorem State.setHnd_chip_drained (s : State) (n : Nat) (v : Hnd) : (s.setHnd n v).chip.drained = s.chip.drained := rfl
@[simp] theorem State.setHnd_chip_lostUndrained (s : State) (n : Nat) (v : Hnd) : (s.setHnd n v).chip.lostUndrained = s.chip.lostUndrained := rfl
@[simp] theorem State.setHnd_chip_afterLoss (s : State) (n : Nat) (v : Hnd) : (s.setHnd n v).chip.afterLoss = s.chip.afterLoss := rfl
@[simp] theorem State.setHnd_chip_heldLog (s : State) (n : Nat) (v : Hnd) : (s.setHnd n v).chip.heldLog = s.chip.heldLog := rfl
@[simp] theorem State.setHnd_chip_heldFinals (s : State) (n : Nat) (v : Hnd) : (s.setHnd n v).chip.heldFinals = s.chip.heldFinals := rfl
@[simp] theorem State.setHnd_chip_counters (s : State) (n : Nat) (v : Hnd) : (s.setHnd n v).chip.counters = s.chip.counters := rfl
@[simp] theorem State.setHnd_chip_freeSlots (s : State) (n : Nat) (v : Hnd) : (s.setHnd n v).chip.freeSlots = s.chip.freeSlots := rfl
@[simp] theorem State.setHnd_chip_accSeq (s : State) (n : Nat) (v : Hnd) : (s.setHnd n v).chip.accSeq = s.chip.accSeq := rfl

/-! ### `State.setCtr` -/

@[simp] theorem State.setCtr_time (s : State) (u k : Nat) (v : Ctr) : (s.setCtr u k v).time = s.time := rfl
@[simp] theorem State.setCtr_host (s : State) (u k : Nat) (v : Ctr) : (s.setCtr u k v).host = s.host := rfl
@[simp] theorem State.setCtr_clk (s : State) (u k : Nat) (v : Ctr) : (s.setCtr u k v).clk = s.clk := rfl
@[simp] theorem State.setCtr_sheaf (s : State) (u k : Nat) (v : Ctr) : (s.setCtr u k v).sheaf = s.sheaf := rfl
@[simp] theorem State.setCtr_til (s : State) (u k : Nat) (v : Ctr) : (s.setCtr u k v).til = s.til := rfl
@[simp] theorem State.setCtr_convs (s : State) (u k : Nat) (v : Ctr) : (s.setCtr u k v).convs = s.convs := rfl
@[simp] theorem State.setCtr_dacs (s : State) (u k : Nat) (v : Ctr) : (s.setCtr u k v).dacs = s.dacs := rfl
@[simp] theorem State.setCtr_cal (s : State) (u k : Nat) (v : Ctr) : (s.setCtr u k v).cal = s.cal := rfl
@[simp] theorem State.setCtr_keep (s : State) (u k : Nat) (v : Ctr) : (s.setCtr u k v).keep = s.keep := rfl
@[simp] theorem State.setCtr_fab (s : State) (u k : Nat) (v : Ctr) : (s.setCtr u k v).fab = s.fab := rfl
@[simp] theorem State.setCtr_boot (s : State) (u k : Nat) (v : Ctr) : (s.setCtr u k v).boot = s.boot := rfl
@[simp] theorem State.setCtr_husk (s : State) (u k : Nat) (v : Ctr) : (s.setCtr u k v).husk = s.husk := rfl
@[simp] theorem State.setCtr_pin (s : State) (u k : Nat) (v : Ctr) : (s.setCtr u k v).pin = s.pin := rfl
@[simp] theorem State.setCtr_mon (s : State) (u k : Nat) (v : Ctr) : (s.setCtr u k v).mon = s.mon := rfl
@[simp] theorem State.setCtr_out (s : State) (u k : Nat) (v : Ctr) : (s.setCtr u k v).out = s.out := rfl
@[simp] theorem State.setCtr_freeCtr (s : State) (u k : Nat) (v : Ctr) : (s.setCtr u k v).freeCtr = s.freeCtr := rfl
@[simp] theorem State.setCtr_pending (s : State) (u k : Nat) (v : Ctr) : (s.setCtr u k v).pending = s.pending := rfl
@[simp] theorem State.setCtr_chip_restarting (s : State) (u k : Nat) (v : Ctr) : (s.setCtr u k v).chip.restarting = s.chip.restarting := rfl
@[simp] theorem State.setCtr_chip_failed (s : State) (u k : Nat) (v : Ctr) : (s.setCtr u k v).chip.failed = s.chip.failed := rfl
@[simp] theorem State.setCtr_chip_restartFrom (s : State) (u k : Nat) (v : Ctr) : (s.setCtr u k v).chip.restartFrom = s.chip.restartFrom := rfl
@[simp] theorem State.setCtr_chip_dogs (s : State) (u k : Nat) (v : Ctr) : (s.setCtr u k v).chip.dogs = s.chip.dogs := rfl
@[simp] theorem State.setCtr_chip_mgmtFw (s : State) (u k : Nat) (v : Ctr) : (s.setCtr u k v).chip.mgmtFw = s.chip.mgmtFw := rfl
@[simp] theorem State.setCtr_chip_regionFw (s : State) (u k : Nat) (v : Ctr) : (s.setCtr u k v).chip.regionFw = s.chip.regionFw := rfl
@[simp] theorem State.setCtr_chip_serial (s : State) (u k : Nat) (v : Ctr) : (s.setCtr u k v).chip.serial = s.chip.serial := rfl
@[simp] theorem State.setCtr_chip_persona (s : State) (u k : Nat) (v : Ctr) : (s.setCtr u k v).chip.persona = s.chip.persona := rfl
@[simp] theorem State.setCtr_chip_sparesWarm (s : State) (u k : Nat) (v : Ctr) : (s.setCtr u k v).chip.sparesWarm = s.chip.sparesWarm := rfl
@[simp] theorem State.setCtr_chip_resetCause (s : State) (u k : Nat) (v : Ctr) : (s.setCtr u k v).chip.resetCause = s.chip.resetCause := rfl
@[simp] theorem State.setCtr_chip_log (s : State) (u k : Nat) (v : Ctr) : (s.setCtr u k v).chip.log = s.chip.log := rfl
@[simp] theorem State.setCtr_chip_drained (s : State) (u k : Nat) (v : Ctr) : (s.setCtr u k v).chip.drained = s.chip.drained := rfl
@[simp] theorem State.setCtr_chip_lostUndrained (s : State) (u k : Nat) (v : Ctr) : (s.setCtr u k v).chip.lostUndrained = s.chip.lostUndrained := rfl
@[simp] theorem State.setCtr_chip_afterLoss (s : State) (u k : Nat) (v : Ctr) : (s.setCtr u k v).chip.afterLoss = s.chip.afterLoss := rfl
@[simp] theorem State.setCtr_chip_heldLog (s : State) (u k : Nat) (v : Ctr) : (s.setCtr u k v).chip.heldLog = s.chip.heldLog := rfl
@[simp] theorem State.setCtr_chip_heldFinals (s : State) (u k : Nat) (v : Ctr) : (s.setCtr u k v).chip.heldFinals = s.chip.heldFinals := rfl
@[simp] theorem State.setCtr_chip_handles (s : State) (u k : Nat) (v : Ctr) : (s.setCtr u k v).chip.handles = s.chip.handles := rfl
@[simp] theorem State.setCtr_chip_freeSlots (s : State) (u k : Nat) (v : Ctr) : (s.setCtr u k v).chip.freeSlots = s.chip.freeSlots := rfl
@[simp] theorem State.setCtr_chip_accSeq (s : State) (u k : Nat) (v : Ctr) : (s.setCtr u k v).chip.accSeq = s.chip.accSeq := rfl

/-! ### `State.setGck` -/

@[simp] theorem State.setGck_time (s : State) (n : Nat) (v : Gck) : (s.setGck n v).time = s.time := rfl
@[simp] theorem State.setGck_chip (s : State) (n : Nat) (v : Gck) : (s.setGck n v).chip = s.chip := rfl
@[simp] theorem State.setGck_host (s : State) (n : Nat) (v : Gck) : (s.setGck n v).host = s.host := rfl
@[simp] theorem State.setGck_sheaf (s : State) (n : Nat) (v : Gck) : (s.setGck n v).sheaf = s.sheaf := rfl
@[simp] theorem State.setGck_til (s : State) (n : Nat) (v : Gck) : (s.setGck n v).til = s.til := rfl
@[simp] theorem State.setGck_convs (s : State) (n : Nat) (v : Gck) : (s.setGck n v).convs = s.convs := rfl
@[simp] theorem State.setGck_dacs (s : State) (n : Nat) (v : Gck) : (s.setGck n v).dacs = s.dacs := rfl
@[simp] theorem State.setGck_cal (s : State) (n : Nat) (v : Gck) : (s.setGck n v).cal = s.cal := rfl
@[simp] theorem State.setGck_keep (s : State) (n : Nat) (v : Gck) : (s.setGck n v).keep = s.keep := rfl
@[simp] theorem State.setGck_fab (s : State) (n : Nat) (v : Gck) : (s.setGck n v).fab = s.fab := rfl
@[simp] theorem State.setGck_boot (s : State) (n : Nat) (v : Gck) : (s.setGck n v).boot = s.boot := rfl
@[simp] theorem State.setGck_husk (s : State) (n : Nat) (v : Gck) : (s.setGck n v).husk = s.husk := rfl
@[simp] theorem State.setGck_pin (s : State) (n : Nat) (v : Gck) : (s.setGck n v).pin = s.pin := rfl
@[simp] theorem State.setGck_mon (s : State) (n : Nat) (v : Gck) : (s.setGck n v).mon = s.mon := rfl
@[simp] theorem State.setGck_out (s : State) (n : Nat) (v : Gck) : (s.setGck n v).out = s.out := rfl
@[simp] theorem State.setGck_freeCtr (s : State) (n : Nat) (v : Gck) : (s.setGck n v).freeCtr = s.freeCtr := rfl
@[simp] theorem State.setGck_pending (s : State) (n : Nat) (v : Gck) : (s.setGck n v).pending = s.pending := rfl
@[simp] theorem State.setGck_clk_refSource (s : State) (n : Nat) (v : Gck) : (s.setGck n v).clk.refSource = s.clk.refSource := rfl
@[simp] theorem State.setGck_clk_refFreq (s : State) (n : Nat) (v : Gck) : (s.setGck n v).clk.refFreq = s.clk.refFreq := rfl
@[simp] theorem State.setGck_clk_refLost (s : State) (n : Nat) (v : Gck) : (s.setGck n v).clk.refLost = s.clk.refLost := rfl
@[simp] theorem State.setGck_clk_lock (s : State) (n : Nat) (v : Gck) : (s.setGck n v).clk.lock = s.clk.lock := rfl
@[simp] theorem State.setGck_clk_upll (s : State) (n : Nat) (v : Gck) : (s.setGck n v).clk.upll = s.clk.upll := rfl
@[simp] theorem State.setGck_clk_syncMode (s : State) (n : Nat) (v : Gck) : (s.setGck n v).clk.syncMode = s.clk.syncMode := rfl
@[simp] theorem State.setGck_clk_syncPeriod (s : State) (n : Nat) (v : Gck) : (s.setGck n v).clk.syncPeriod = s.clk.syncPeriod := rfl
@[simp] theorem State.setGck_clk_syncLast (s : State) (n : Nat) (v : Gck) : (s.setGck n v).clk.syncLast = s.clk.syncLast := rfl
@[simp] theorem State.setGck_clk_bootSync (s : State) (n : Nat) (v : Gck) : (s.setGck n v).clk.bootSync = s.clk.bootSync := rfl
@[simp] theorem State.setGck_clk_tbPreset (s : State) (n : Nat) (v : Gck) : (s.setGck n v).clk.tbPreset = s.clk.tbPreset := rfl
@[simp] theorem State.setGck_clk_lanes (s : State) (n : Nat) (v : Gck) : (s.setGck n v).clk.lanes = s.clk.lanes := rfl
@[simp] theorem State.setGck_clk_cmp (s : State) (n : Nat) (v : Gck) : (s.setGck n v).clk.cmp = s.clk.cmp := rfl
@[simp] theorem State.setGck_clk_rephasing (s : State) (n : Nat) (v : Gck) : (s.setGck n v).clk.rephasing = s.clk.rephasing := rfl

/-! ### `State.setUpll` -/

@[simp] theorem State.setUpll_time (s : State) (n : Nat) (v : Upll) : (s.setUpll n v).time = s.time := rfl
@[simp] theorem State.setUpll_chip (s : State) (n : Nat) (v : Upll) : (s.setUpll n v).chip = s.chip := rfl
@[simp] theorem State.setUpll_host (s : State) (n : Nat) (v : Upll) : (s.setUpll n v).host = s.host := rfl
@[simp] theorem State.setUpll_sheaf (s : State) (n : Nat) (v : Upll) : (s.setUpll n v).sheaf = s.sheaf := rfl
@[simp] theorem State.setUpll_til (s : State) (n : Nat) (v : Upll) : (s.setUpll n v).til = s.til := rfl
@[simp] theorem State.setUpll_convs (s : State) (n : Nat) (v : Upll) : (s.setUpll n v).convs = s.convs := rfl
@[simp] theorem State.setUpll_dacs (s : State) (n : Nat) (v : Upll) : (s.setUpll n v).dacs = s.dacs := rfl
@[simp] theorem State.setUpll_cal (s : State) (n : Nat) (v : Upll) : (s.setUpll n v).cal = s.cal := rfl
@[simp] theorem State.setUpll_keep (s : State) (n : Nat) (v : Upll) : (s.setUpll n v).keep = s.keep := rfl
@[simp] theorem State.setUpll_fab (s : State) (n : Nat) (v : Upll) : (s.setUpll n v).fab = s.fab := rfl
@[simp] theorem State.setUpll_boot (s : State) (n : Nat) (v : Upll) : (s.setUpll n v).boot = s.boot := rfl
@[simp] theorem State.setUpll_husk (s : State) (n : Nat) (v : Upll) : (s.setUpll n v).husk = s.husk := rfl
@[simp] theorem State.setUpll_pin (s : State) (n : Nat) (v : Upll) : (s.setUpll n v).pin = s.pin := rfl
@[simp] theorem State.setUpll_mon (s : State) (n : Nat) (v : Upll) : (s.setUpll n v).mon = s.mon := rfl
@[simp] theorem State.setUpll_out (s : State) (n : Nat) (v : Upll) : (s.setUpll n v).out = s.out := rfl
@[simp] theorem State.setUpll_freeCtr (s : State) (n : Nat) (v : Upll) : (s.setUpll n v).freeCtr = s.freeCtr := rfl
@[simp] theorem State.setUpll_pending (s : State) (n : Nat) (v : Upll) : (s.setUpll n v).pending = s.pending := rfl
@[simp] theorem State.setUpll_clk_refSource (s : State) (n : Nat) (v : Upll) : (s.setUpll n v).clk.refSource = s.clk.refSource := rfl
@[simp] theorem State.setUpll_clk_refFreq (s : State) (n : Nat) (v : Upll) : (s.setUpll n v).clk.refFreq = s.clk.refFreq := rfl
@[simp] theorem State.setUpll_clk_refLost (s : State) (n : Nat) (v : Upll) : (s.setUpll n v).clk.refLost = s.clk.refLost := rfl
@[simp] theorem State.setUpll_clk_lock (s : State) (n : Nat) (v : Upll) : (s.setUpll n v).clk.lock = s.clk.lock := rfl
@[simp] theorem State.setUpll_clk_syncMode (s : State) (n : Nat) (v : Upll) : (s.setUpll n v).clk.syncMode = s.clk.syncMode := rfl
@[simp] theorem State.setUpll_clk_syncPeriod (s : State) (n : Nat) (v : Upll) : (s.setUpll n v).clk.syncPeriod = s.clk.syncPeriod := rfl
@[simp] theorem State.setUpll_clk_syncLast (s : State) (n : Nat) (v : Upll) : (s.setUpll n v).clk.syncLast = s.clk.syncLast := rfl
@[simp] theorem State.setUpll_clk_bootSync (s : State) (n : Nat) (v : Upll) : (s.setUpll n v).clk.bootSync = s.clk.bootSync := rfl
@[simp] theorem State.setUpll_clk_tbPreset (s : State) (n : Nat) (v : Upll) : (s.setUpll n v).clk.tbPreset = s.clk.tbPreset := rfl
@[simp] theorem State.setUpll_clk_gck (s : State) (n : Nat) (v : Upll) : (s.setUpll n v).clk.gck = s.clk.gck := rfl
@[simp] theorem State.setUpll_clk_lanes (s : State) (n : Nat) (v : Upll) : (s.setUpll n v).clk.lanes = s.clk.lanes := rfl
@[simp] theorem State.setUpll_clk_cmp (s : State) (n : Nat) (v : Upll) : (s.setUpll n v).clk.cmp = s.clk.cmp := rfl
@[simp] theorem State.setUpll_clk_rephasing (s : State) (n : Nat) (v : Upll) : (s.setUpll n v).clk.rephasing = s.clk.rephasing := rfl

/-! ### `State.setCmp` -/

@[simp] theorem State.setCmp_time (s : State) (n : Nat) (v : Cmp) : (s.setCmp n v).time = s.time := rfl
@[simp] theorem State.setCmp_chip (s : State) (n : Nat) (v : Cmp) : (s.setCmp n v).chip = s.chip := rfl
@[simp] theorem State.setCmp_host (s : State) (n : Nat) (v : Cmp) : (s.setCmp n v).host = s.host := rfl
@[simp] theorem State.setCmp_sheaf (s : State) (n : Nat) (v : Cmp) : (s.setCmp n v).sheaf = s.sheaf := rfl
@[simp] theorem State.setCmp_til (s : State) (n : Nat) (v : Cmp) : (s.setCmp n v).til = s.til := rfl
@[simp] theorem State.setCmp_convs (s : State) (n : Nat) (v : Cmp) : (s.setCmp n v).convs = s.convs := rfl
@[simp] theorem State.setCmp_dacs (s : State) (n : Nat) (v : Cmp) : (s.setCmp n v).dacs = s.dacs := rfl
@[simp] theorem State.setCmp_cal (s : State) (n : Nat) (v : Cmp) : (s.setCmp n v).cal = s.cal := rfl
@[simp] theorem State.setCmp_keep (s : State) (n : Nat) (v : Cmp) : (s.setCmp n v).keep = s.keep := rfl
@[simp] theorem State.setCmp_fab (s : State) (n : Nat) (v : Cmp) : (s.setCmp n v).fab = s.fab := rfl
@[simp] theorem State.setCmp_boot (s : State) (n : Nat) (v : Cmp) : (s.setCmp n v).boot = s.boot := rfl
@[simp] theorem State.setCmp_husk (s : State) (n : Nat) (v : Cmp) : (s.setCmp n v).husk = s.husk := rfl
@[simp] theorem State.setCmp_pin (s : State) (n : Nat) (v : Cmp) : (s.setCmp n v).pin = s.pin := rfl
@[simp] theorem State.setCmp_mon (s : State) (n : Nat) (v : Cmp) : (s.setCmp n v).mon = s.mon := rfl
@[simp] theorem State.setCmp_out (s : State) (n : Nat) (v : Cmp) : (s.setCmp n v).out = s.out := rfl
@[simp] theorem State.setCmp_freeCtr (s : State) (n : Nat) (v : Cmp) : (s.setCmp n v).freeCtr = s.freeCtr := rfl
@[simp] theorem State.setCmp_pending (s : State) (n : Nat) (v : Cmp) : (s.setCmp n v).pending = s.pending := rfl
@[simp] theorem State.setCmp_clk_refSource (s : State) (n : Nat) (v : Cmp) : (s.setCmp n v).clk.refSource = s.clk.refSource := rfl
@[simp] theorem State.setCmp_clk_refFreq (s : State) (n : Nat) (v : Cmp) : (s.setCmp n v).clk.refFreq = s.clk.refFreq := rfl
@[simp] theorem State.setCmp_clk_refLost (s : State) (n : Nat) (v : Cmp) : (s.setCmp n v).clk.refLost = s.clk.refLost := rfl
@[simp] theorem State.setCmp_clk_lock (s : State) (n : Nat) (v : Cmp) : (s.setCmp n v).clk.lock = s.clk.lock := rfl
@[simp] theorem State.setCmp_clk_upll (s : State) (n : Nat) (v : Cmp) : (s.setCmp n v).clk.upll = s.clk.upll := rfl
@[simp] theorem State.setCmp_clk_syncMode (s : State) (n : Nat) (v : Cmp) : (s.setCmp n v).clk.syncMode = s.clk.syncMode := rfl
@[simp] theorem State.setCmp_clk_syncPeriod (s : State) (n : Nat) (v : Cmp) : (s.setCmp n v).clk.syncPeriod = s.clk.syncPeriod := rfl
@[simp] theorem State.setCmp_clk_syncLast (s : State) (n : Nat) (v : Cmp) : (s.setCmp n v).clk.syncLast = s.clk.syncLast := rfl
@[simp] theorem State.setCmp_clk_bootSync (s : State) (n : Nat) (v : Cmp) : (s.setCmp n v).clk.bootSync = s.clk.bootSync := rfl
@[simp] theorem State.setCmp_clk_tbPreset (s : State) (n : Nat) (v : Cmp) : (s.setCmp n v).clk.tbPreset = s.clk.tbPreset := rfl
@[simp] theorem State.setCmp_clk_gck (s : State) (n : Nat) (v : Cmp) : (s.setCmp n v).clk.gck = s.clk.gck := rfl
@[simp] theorem State.setCmp_clk_lanes (s : State) (n : Nat) (v : Cmp) : (s.setCmp n v).clk.lanes = s.clk.lanes := rfl
@[simp] theorem State.setCmp_clk_rephasing (s : State) (n : Nat) (v : Cmp) : (s.setCmp n v).clk.rephasing = s.clk.rephasing := rfl

/-! ### `State.setLane` -/

@[simp] theorem State.setLane_time (s : State) (n : Nat) (v : Lane) : (s.setLane n v).time = s.time := rfl
@[simp] theorem State.setLane_chip (s : State) (n : Nat) (v : Lane) : (s.setLane n v).chip = s.chip := rfl
@[simp] theorem State.setLane_host (s : State) (n : Nat) (v : Lane) : (s.setLane n v).host = s.host := rfl
@[simp] theorem State.setLane_sheaf (s : State) (n : Nat) (v : Lane) : (s.setLane n v).sheaf = s.sheaf := rfl
@[simp] theorem State.setLane_til (s : State) (n : Nat) (v : Lane) : (s.setLane n v).til = s.til := rfl
@[simp] theorem State.setLane_convs (s : State) (n : Nat) (v : Lane) : (s.setLane n v).convs = s.convs := rfl
@[simp] theorem State.setLane_dacs (s : State) (n : Nat) (v : Lane) : (s.setLane n v).dacs = s.dacs := rfl
@[simp] theorem State.setLane_cal (s : State) (n : Nat) (v : Lane) : (s.setLane n v).cal = s.cal := rfl
@[simp] theorem State.setLane_keep (s : State) (n : Nat) (v : Lane) : (s.setLane n v).keep = s.keep := rfl
@[simp] theorem State.setLane_fab (s : State) (n : Nat) (v : Lane) : (s.setLane n v).fab = s.fab := rfl
@[simp] theorem State.setLane_boot (s : State) (n : Nat) (v : Lane) : (s.setLane n v).boot = s.boot := rfl
@[simp] theorem State.setLane_husk (s : State) (n : Nat) (v : Lane) : (s.setLane n v).husk = s.husk := rfl
@[simp] theorem State.setLane_pin (s : State) (n : Nat) (v : Lane) : (s.setLane n v).pin = s.pin := rfl
@[simp] theorem State.setLane_mon (s : State) (n : Nat) (v : Lane) : (s.setLane n v).mon = s.mon := rfl
@[simp] theorem State.setLane_out (s : State) (n : Nat) (v : Lane) : (s.setLane n v).out = s.out := rfl
@[simp] theorem State.setLane_freeCtr (s : State) (n : Nat) (v : Lane) : (s.setLane n v).freeCtr = s.freeCtr := rfl
@[simp] theorem State.setLane_pending (s : State) (n : Nat) (v : Lane) : (s.setLane n v).pending = s.pending := rfl
@[simp] theorem State.setLane_clk_refSource (s : State) (n : Nat) (v : Lane) : (s.setLane n v).clk.refSource = s.clk.refSource := rfl
@[simp] theorem State.setLane_clk_refFreq (s : State) (n : Nat) (v : Lane) : (s.setLane n v).clk.refFreq = s.clk.refFreq := rfl
@[simp] theorem State.setLane_clk_refLost (s : State) (n : Nat) (v : Lane) : (s.setLane n v).clk.refLost = s.clk.refLost := rfl
@[simp] theorem State.setLane_clk_lock (s : State) (n : Nat) (v : Lane) : (s.setLane n v).clk.lock = s.clk.lock := rfl
@[simp] theorem State.setLane_clk_upll (s : State) (n : Nat) (v : Lane) : (s.setLane n v).clk.upll = s.clk.upll := rfl
@[simp] theorem State.setLane_clk_syncMode (s : State) (n : Nat) (v : Lane) : (s.setLane n v).clk.syncMode = s.clk.syncMode := rfl
@[simp] theorem State.setLane_clk_syncPeriod (s : State) (n : Nat) (v : Lane) : (s.setLane n v).clk.syncPeriod = s.clk.syncPeriod := rfl
@[simp] theorem State.setLane_clk_syncLast (s : State) (n : Nat) (v : Lane) : (s.setLane n v).clk.syncLast = s.clk.syncLast := rfl
@[simp] theorem State.setLane_clk_bootSync (s : State) (n : Nat) (v : Lane) : (s.setLane n v).clk.bootSync = s.clk.bootSync := rfl
@[simp] theorem State.setLane_clk_tbPreset (s : State) (n : Nat) (v : Lane) : (s.setLane n v).clk.tbPreset = s.clk.tbPreset := rfl
@[simp] theorem State.setLane_clk_gck (s : State) (n : Nat) (v : Lane) : (s.setLane n v).clk.gck = s.clk.gck := rfl
@[simp] theorem State.setLane_clk_cmp (s : State) (n : Nat) (v : Lane) : (s.setLane n v).clk.cmp = s.clk.cmp := rfl
@[simp] theorem State.setLane_clk_rephasing (s : State) (n : Nat) (v : Lane) : (s.setLane n v).clk.rephasing = s.clk.rephasing := rfl

/-! ### `State.setCell` -/

@[simp] theorem State.setCell_time (s : State) (n : Nat) (v : Cell) : (s.setCell n v).time = s.time := rfl
@[simp] theorem State.setCell_chip (s : State) (n : Nat) (v : Cell) : (s.setCell n v).chip = s.chip := rfl
@[simp] theorem State.setCell_host (s : State) (n : Nat) (v : Cell) : (s.setCell n v).host = s.host := rfl
@[simp] theorem State.setCell_clk (s : State) (n : Nat) (v : Cell) : (s.setCell n v).clk = s.clk := rfl
@[simp] theorem State.setCell_sheaf (s : State) (n : Nat) (v : Cell) : (s.setCell n v).sheaf = s.sheaf := rfl
@[simp] theorem State.setCell_convs (s : State) (n : Nat) (v : Cell) : (s.setCell n v).convs = s.convs := rfl
@[simp] theorem State.setCell_dacs (s : State) (n : Nat) (v : Cell) : (s.setCell n v).dacs = s.dacs := rfl
@[simp] theorem State.setCell_cal (s : State) (n : Nat) (v : Cell) : (s.setCell n v).cal = s.cal := rfl
@[simp] theorem State.setCell_keep (s : State) (n : Nat) (v : Cell) : (s.setCell n v).keep = s.keep := rfl
@[simp] theorem State.setCell_fab (s : State) (n : Nat) (v : Cell) : (s.setCell n v).fab = s.fab := rfl
@[simp] theorem State.setCell_boot (s : State) (n : Nat) (v : Cell) : (s.setCell n v).boot = s.boot := rfl
@[simp] theorem State.setCell_husk (s : State) (n : Nat) (v : Cell) : (s.setCell n v).husk = s.husk := rfl
@[simp] theorem State.setCell_pin (s : State) (n : Nat) (v : Cell) : (s.setCell n v).pin = s.pin := rfl
@[simp] theorem State.setCell_mon (s : State) (n : Nat) (v : Cell) : (s.setCell n v).mon = s.mon := rfl
@[simp] theorem State.setCell_out (s : State) (n : Nat) (v : Cell) : (s.setCell n v).out = s.out := rfl
@[simp] theorem State.setCell_freeCtr (s : State) (n : Nat) (v : Cell) : (s.setCell n v).freeCtr = s.freeCtr := rfl
@[simp] theorem State.setCell_pending (s : State) (n : Nat) (v : Cell) : (s.setCell n v).pending = s.pending := rfl
@[simp] theorem State.setCell_til_ledger (s : State) (n : Nat) (v : Cell) : (s.setCell n v).til.ledger = s.til.ledger := rfl
@[simp] theorem State.setCell_til_graphs (s : State) (n : Nat) (v : Cell) : (s.setCell n v).til.graphs = s.til.graphs := rfl
@[simp] theorem State.setCell_til_queue (s : State) (n : Nat) (v : Cell) : (s.setCell n v).til.queue = s.til.queue := rfl
@[simp] theorem State.setCell_til_moves (s : State) (n : Nat) (v : Cell) : (s.setCell n v).til.moves = s.til.moves := rfl
@[simp] theorem State.setCell_til_regions (s : State) (n : Nat) (v : Cell) : (s.setCell n v).til.regions = s.til.regions := rfl
@[simp] theorem State.setCell_til_blocks (s : State) (n : Nat) (v : Cell) : (s.setCell n v).til.blocks = s.til.blocks := rfl
@[simp] theorem State.setCell_til_policy (s : State) (n : Nat) (v : Cell) : (s.setCell n v).til.policy = s.til.policy := rfl
@[simp] theorem State.setCell_til_sparesCold (s : State) (n : Nat) (v : Cell) : (s.setCell n v).til.sparesCold = s.til.sparesCold := rfl
@[simp] theorem State.setCell_til_stranded (s : State) (n : Nat) (v : Cell) : (s.setCell n v).til.stranded = s.til.stranded := rfl
@[simp] theorem State.setCell_til_ctl (s : State) (n : Nat) (v : Cell) : (s.setCell n v).til.ctl = s.til.ctl := rfl

/-! ### `State.setGraph` -/

@[simp] theorem State.setGraph_time (s : State) (n : Nat) (v : Option Graph) : (s.setGraph n v).time = s.time := rfl
@[simp] theorem State.setGraph_chip (s : State) (n : Nat) (v : Option Graph) : (s.setGraph n v).chip = s.chip := rfl
@[simp] theorem State.setGraph_host (s : State) (n : Nat) (v : Option Graph) : (s.setGraph n v).host = s.host := rfl
@[simp] theorem State.setGraph_clk (s : State) (n : Nat) (v : Option Graph) : (s.setGraph n v).clk = s.clk := rfl
@[simp] theorem State.setGraph_sheaf (s : State) (n : Nat) (v : Option Graph) : (s.setGraph n v).sheaf = s.sheaf := rfl
@[simp] theorem State.setGraph_convs (s : State) (n : Nat) (v : Option Graph) : (s.setGraph n v).convs = s.convs := rfl
@[simp] theorem State.setGraph_dacs (s : State) (n : Nat) (v : Option Graph) : (s.setGraph n v).dacs = s.dacs := rfl
@[simp] theorem State.setGraph_cal (s : State) (n : Nat) (v : Option Graph) : (s.setGraph n v).cal = s.cal := rfl
@[simp] theorem State.setGraph_keep (s : State) (n : Nat) (v : Option Graph) : (s.setGraph n v).keep = s.keep := rfl
@[simp] theorem State.setGraph_fab (s : State) (n : Nat) (v : Option Graph) : (s.setGraph n v).fab = s.fab := rfl
@[simp] theorem State.setGraph_boot (s : State) (n : Nat) (v : Option Graph) : (s.setGraph n v).boot = s.boot := rfl
@[simp] theorem State.setGraph_husk (s : State) (n : Nat) (v : Option Graph) : (s.setGraph n v).husk = s.husk := rfl
@[simp] theorem State.setGraph_pin (s : State) (n : Nat) (v : Option Graph) : (s.setGraph n v).pin = s.pin := rfl
@[simp] theorem State.setGraph_mon (s : State) (n : Nat) (v : Option Graph) : (s.setGraph n v).mon = s.mon := rfl
@[simp] theorem State.setGraph_out (s : State) (n : Nat) (v : Option Graph) : (s.setGraph n v).out = s.out := rfl
@[simp] theorem State.setGraph_freeCtr (s : State) (n : Nat) (v : Option Graph) : (s.setGraph n v).freeCtr = s.freeCtr := rfl
@[simp] theorem State.setGraph_pending (s : State) (n : Nat) (v : Option Graph) : (s.setGraph n v).pending = s.pending := rfl
@[simp] theorem State.setGraph_til_ledger (s : State) (n : Nat) (v : Option Graph) : (s.setGraph n v).til.ledger = s.til.ledger := rfl
@[simp] theorem State.setGraph_til_cells (s : State) (n : Nat) (v : Option Graph) : (s.setGraph n v).til.cells = s.til.cells := rfl
@[simp] theorem State.setGraph_til_queue (s : State) (n : Nat) (v : Option Graph) : (s.setGraph n v).til.queue = s.til.queue := rfl
@[simp] theorem State.setGraph_til_moves (s : State) (n : Nat) (v : Option Graph) : (s.setGraph n v).til.moves = s.til.moves := rfl
@[simp] theorem State.setGraph_til_regions (s : State) (n : Nat) (v : Option Graph) : (s.setGraph n v).til.regions = s.til.regions := rfl
@[simp] theorem State.setGraph_til_blocks (s : State) (n : Nat) (v : Option Graph) : (s.setGraph n v).til.blocks = s.til.blocks := rfl
@[simp] theorem State.setGraph_til_policy (s : State) (n : Nat) (v : Option Graph) : (s.setGraph n v).til.policy = s.til.policy := rfl
@[simp] theorem State.setGraph_til_sparesCold (s : State) (n : Nat) (v : Option Graph) : (s.setGraph n v).til.sparesCold = s.til.sparesCold := rfl
@[simp] theorem State.setGraph_til_stranded (s : State) (n : Nat) (v : Option Graph) : (s.setGraph n v).til.stranded = s.til.stranded := rfl
@[simp] theorem State.setGraph_til_ctl (s : State) (n : Nat) (v : Option Graph) : (s.setGraph n v).til.ctl = s.til.ctl := rfl

/-! ### `State.setRegion` -/

@[simp] theorem State.setRegion_time (s : State) (n : Nat) (v : Region) : (s.setRegion n v).time = s.time := rfl
@[simp] theorem State.setRegion_chip (s : State) (n : Nat) (v : Region) : (s.setRegion n v).chip = s.chip := rfl
@[simp] theorem State.setRegion_host (s : State) (n : Nat) (v : Region) : (s.setRegion n v).host = s.host := rfl
@[simp] theorem State.setRegion_clk (s : State) (n : Nat) (v : Region) : (s.setRegion n v).clk = s.clk := rfl
@[simp] theorem State.setRegion_sheaf (s : State) (n : Nat) (v : Region) : (s.setRegion n v).sheaf = s.sheaf := rfl
@[simp] theorem State.setRegion_convs (s : State) (n : Nat) (v : Region) : (s.setRegion n v).convs = s.convs := rfl
@[simp] theorem State.setRegion_dacs (s : State) (n : Nat) (v : Region) : (s.setRegion n v).dacs = s.dacs := rfl
@[simp] theorem State.setRegion_cal (s : State) (n : Nat) (v : Region) : (s.setRegion n v).cal = s.cal := rfl
@[simp] theorem State.setRegion_keep (s : State) (n : Nat) (v : Region) : (s.setRegion n v).keep = s.keep := rfl
@[simp] theorem State.setRegion_fab (s : State) (n : Nat) (v : Region) : (s.setRegion n v).fab = s.fab := rfl
@[simp] theorem State.setRegion_boot (s : State) (n : Nat) (v : Region) : (s.setRegion n v).boot = s.boot := rfl
@[simp] theorem State.setRegion_husk (s : State) (n : Nat) (v : Region) : (s.setRegion n v).husk = s.husk := rfl
@[simp] theorem State.setRegion_pin (s : State) (n : Nat) (v : Region) : (s.setRegion n v).pin = s.pin := rfl
@[simp] theorem State.setRegion_mon (s : State) (n : Nat) (v : Region) : (s.setRegion n v).mon = s.mon := rfl
@[simp] theorem State.setRegion_out (s : State) (n : Nat) (v : Region) : (s.setRegion n v).out = s.out := rfl
@[simp] theorem State.setRegion_freeCtr (s : State) (n : Nat) (v : Region) : (s.setRegion n v).freeCtr = s.freeCtr := rfl
@[simp] theorem State.setRegion_pending (s : State) (n : Nat) (v : Region) : (s.setRegion n v).pending = s.pending := rfl
@[simp] theorem State.setRegion_til_ledger (s : State) (n : Nat) (v : Region) : (s.setRegion n v).til.ledger = s.til.ledger := rfl
@[simp] theorem State.setRegion_til_cells (s : State) (n : Nat) (v : Region) : (s.setRegion n v).til.cells = s.til.cells := rfl
@[simp] theorem State.setRegion_til_graphs (s : State) (n : Nat) (v : Region) : (s.setRegion n v).til.graphs = s.til.graphs := rfl
@[simp] theorem State.setRegion_til_queue (s : State) (n : Nat) (v : Region) : (s.setRegion n v).til.queue = s.til.queue := rfl
@[simp] theorem State.setRegion_til_moves (s : State) (n : Nat) (v : Region) : (s.setRegion n v).til.moves = s.til.moves := rfl
@[simp] theorem State.setRegion_til_blocks (s : State) (n : Nat) (v : Region) : (s.setRegion n v).til.blocks = s.til.blocks := rfl
@[simp] theorem State.setRegion_til_policy (s : State) (n : Nat) (v : Region) : (s.setRegion n v).til.policy = s.til.policy := rfl
@[simp] theorem State.setRegion_til_sparesCold (s : State) (n : Nat) (v : Region) : (s.setRegion n v).til.sparesCold = s.til.sparesCold := rfl
@[simp] theorem State.setRegion_til_stranded (s : State) (n : Nat) (v : Region) : (s.setRegion n v).til.stranded = s.til.stranded := rfl
@[simp] theorem State.setRegion_til_ctl (s : State) (n : Nat) (v : Region) : (s.setRegion n v).til.ctl = s.til.ctl := rfl

/-! ### `State.setBlock` -/

@[simp] theorem State.setBlock_time (s : State) (n : Nat) (v : Block) : (s.setBlock n v).time = s.time := rfl
@[simp] theorem State.setBlock_chip (s : State) (n : Nat) (v : Block) : (s.setBlock n v).chip = s.chip := rfl
@[simp] theorem State.setBlock_host (s : State) (n : Nat) (v : Block) : (s.setBlock n v).host = s.host := rfl
@[simp] theorem State.setBlock_clk (s : State) (n : Nat) (v : Block) : (s.setBlock n v).clk = s.clk := rfl
@[simp] theorem State.setBlock_sheaf (s : State) (n : Nat) (v : Block) : (s.setBlock n v).sheaf = s.sheaf := rfl
@[simp] theorem State.setBlock_convs (s : State) (n : Nat) (v : Block) : (s.setBlock n v).convs = s.convs := rfl
@[simp] theorem State.setBlock_dacs (s : State) (n : Nat) (v : Block) : (s.setBlock n v).dacs = s.dacs := rfl
@[simp] theorem State.setBlock_cal (s : State) (n : Nat) (v : Block) : (s.setBlock n v).cal = s.cal := rfl
@[simp] theorem State.setBlock_keep (s : State) (n : Nat) (v : Block) : (s.setBlock n v).keep = s.keep := rfl
@[simp] theorem State.setBlock_fab (s : State) (n : Nat) (v : Block) : (s.setBlock n v).fab = s.fab := rfl
@[simp] theorem State.setBlock_boot (s : State) (n : Nat) (v : Block) : (s.setBlock n v).boot = s.boot := rfl
@[simp] theorem State.setBlock_husk (s : State) (n : Nat) (v : Block) : (s.setBlock n v).husk = s.husk := rfl
@[simp] theorem State.setBlock_pin (s : State) (n : Nat) (v : Block) : (s.setBlock n v).pin = s.pin := rfl
@[simp] theorem State.setBlock_mon (s : State) (n : Nat) (v : Block) : (s.setBlock n v).mon = s.mon := rfl
@[simp] theorem State.setBlock_out (s : State) (n : Nat) (v : Block) : (s.setBlock n v).out = s.out := rfl
@[simp] theorem State.setBlock_freeCtr (s : State) (n : Nat) (v : Block) : (s.setBlock n v).freeCtr = s.freeCtr := rfl
@[simp] theorem State.setBlock_pending (s : State) (n : Nat) (v : Block) : (s.setBlock n v).pending = s.pending := rfl
@[simp] theorem State.setBlock_til_ledger (s : State) (n : Nat) (v : Block) : (s.setBlock n v).til.ledger = s.til.ledger := rfl
@[simp] theorem State.setBlock_til_cells (s : State) (n : Nat) (v : Block) : (s.setBlock n v).til.cells = s.til.cells := rfl
@[simp] theorem State.setBlock_til_graphs (s : State) (n : Nat) (v : Block) : (s.setBlock n v).til.graphs = s.til.graphs := rfl
@[simp] theorem State.setBlock_til_queue (s : State) (n : Nat) (v : Block) : (s.setBlock n v).til.queue = s.til.queue := rfl
@[simp] theorem State.setBlock_til_moves (s : State) (n : Nat) (v : Block) : (s.setBlock n v).til.moves = s.til.moves := rfl
@[simp] theorem State.setBlock_til_regions (s : State) (n : Nat) (v : Block) : (s.setBlock n v).til.regions = s.til.regions := rfl
@[simp] theorem State.setBlock_til_policy (s : State) (n : Nat) (v : Block) : (s.setBlock n v).til.policy = s.til.policy := rfl
@[simp] theorem State.setBlock_til_sparesCold (s : State) (n : Nat) (v : Block) : (s.setBlock n v).til.sparesCold = s.til.sparesCold := rfl
@[simp] theorem State.setBlock_til_stranded (s : State) (n : Nat) (v : Block) : (s.setBlock n v).til.stranded = s.til.stranded := rfl
@[simp] theorem State.setBlock_til_ctl (s : State) (n : Nat) (v : Block) : (s.setBlock n v).til.ctl = s.til.ctl := rfl

/-! ### `State.setLed` -/

@[simp] theorem State.setLed_time (s : State) (n : Nat) (v : Led) : (s.setLed n v).time = s.time := rfl
@[simp] theorem State.setLed_chip (s : State) (n : Nat) (v : Led) : (s.setLed n v).chip = s.chip := rfl
@[simp] theorem State.setLed_host (s : State) (n : Nat) (v : Led) : (s.setLed n v).host = s.host := rfl
@[simp] theorem State.setLed_clk (s : State) (n : Nat) (v : Led) : (s.setLed n v).clk = s.clk := rfl
@[simp] theorem State.setLed_sheaf (s : State) (n : Nat) (v : Led) : (s.setLed n v).sheaf = s.sheaf := rfl
@[simp] theorem State.setLed_convs (s : State) (n : Nat) (v : Led) : (s.setLed n v).convs = s.convs := rfl
@[simp] theorem State.setLed_dacs (s : State) (n : Nat) (v : Led) : (s.setLed n v).dacs = s.dacs := rfl
@[simp] theorem State.setLed_cal (s : State) (n : Nat) (v : Led) : (s.setLed n v).cal = s.cal := rfl
@[simp] theorem State.setLed_keep (s : State) (n : Nat) (v : Led) : (s.setLed n v).keep = s.keep := rfl
@[simp] theorem State.setLed_fab (s : State) (n : Nat) (v : Led) : (s.setLed n v).fab = s.fab := rfl
@[simp] theorem State.setLed_boot (s : State) (n : Nat) (v : Led) : (s.setLed n v).boot = s.boot := rfl
@[simp] theorem State.setLed_husk (s : State) (n : Nat) (v : Led) : (s.setLed n v).husk = s.husk := rfl
@[simp] theorem State.setLed_pin (s : State) (n : Nat) (v : Led) : (s.setLed n v).pin = s.pin := rfl
@[simp] theorem State.setLed_mon (s : State) (n : Nat) (v : Led) : (s.setLed n v).mon = s.mon := rfl
@[simp] theorem State.setLed_out (s : State) (n : Nat) (v : Led) : (s.setLed n v).out = s.out := rfl
@[simp] theorem State.setLed_freeCtr (s : State) (n : Nat) (v : Led) : (s.setLed n v).freeCtr = s.freeCtr := rfl
@[simp] theorem State.setLed_pending (s : State) (n : Nat) (v : Led) : (s.setLed n v).pending = s.pending := rfl
@[simp] theorem State.setLed_til_cells (s : State) (n : Nat) (v : Led) : (s.setLed n v).til.cells = s.til.cells := rfl
@[simp] theorem State.setLed_til_graphs (s : State) (n : Nat) (v : Led) : (s.setLed n v).til.graphs = s.til.graphs := rfl
@[simp] theorem State.setLed_til_queue (s : State) (n : Nat) (v : Led) : (s.setLed n v).til.queue = s.til.queue := rfl
@[simp] theorem State.setLed_til_moves (s : State) (n : Nat) (v : Led) : (s.setLed n v).til.moves = s.til.moves := rfl
@[simp] theorem State.setLed_til_regions (s : State) (n : Nat) (v : Led) : (s.setLed n v).til.regions = s.til.regions := rfl
@[simp] theorem State.setLed_til_blocks (s : State) (n : Nat) (v : Led) : (s.setLed n v).til.blocks = s.til.blocks := rfl
@[simp] theorem State.setLed_til_policy (s : State) (n : Nat) (v : Led) : (s.setLed n v).til.policy = s.til.policy := rfl
@[simp] theorem State.setLed_til_sparesCold (s : State) (n : Nat) (v : Led) : (s.setLed n v).til.sparesCold = s.til.sparesCold := rfl
@[simp] theorem State.setLed_til_stranded (s : State) (n : Nat) (v : Led) : (s.setLed n v).til.stranded = s.til.stranded := rfl
@[simp] theorem State.setLed_til_ctl (s : State) (n : Nat) (v : Led) : (s.setLed n v).til.ctl = s.til.ctl := rfl

/-! ### `State.setConv` -/

@[simp] theorem State.setConv_time (s : State) (n : Nat) (v : Conv) : (s.setConv n v).time = s.time := rfl
@[simp] theorem State.setConv_chip (s : State) (n : Nat) (v : Conv) : (s.setConv n v).chip = s.chip := rfl
@[simp] theorem State.setConv_host (s : State) (n : Nat) (v : Conv) : (s.setConv n v).host = s.host := rfl
@[simp] theorem State.setConv_clk (s : State) (n : Nat) (v : Conv) : (s.setConv n v).clk = s.clk := rfl
@[simp] theorem State.setConv_sheaf (s : State) (n : Nat) (v : Conv) : (s.setConv n v).sheaf = s.sheaf := rfl
@[simp] theorem State.setConv_til (s : State) (n : Nat) (v : Conv) : (s.setConv n v).til = s.til := rfl
@[simp] theorem State.setConv_dacs (s : State) (n : Nat) (v : Conv) : (s.setConv n v).dacs = s.dacs := rfl
@[simp] theorem State.setConv_cal (s : State) (n : Nat) (v : Conv) : (s.setConv n v).cal = s.cal := rfl
@[simp] theorem State.setConv_keep (s : State) (n : Nat) (v : Conv) : (s.setConv n v).keep = s.keep := rfl
@[simp] theorem State.setConv_fab (s : State) (n : Nat) (v : Conv) : (s.setConv n v).fab = s.fab := rfl
@[simp] theorem State.setConv_boot (s : State) (n : Nat) (v : Conv) : (s.setConv n v).boot = s.boot := rfl
@[simp] theorem State.setConv_husk (s : State) (n : Nat) (v : Conv) : (s.setConv n v).husk = s.husk := rfl
@[simp] theorem State.setConv_pin (s : State) (n : Nat) (v : Conv) : (s.setConv n v).pin = s.pin := rfl
@[simp] theorem State.setConv_mon (s : State) (n : Nat) (v : Conv) : (s.setConv n v).mon = s.mon := rfl
@[simp] theorem State.setConv_out (s : State) (n : Nat) (v : Conv) : (s.setConv n v).out = s.out := rfl
@[simp] theorem State.setConv_freeCtr (s : State) (n : Nat) (v : Conv) : (s.setConv n v).freeCtr = s.freeCtr := rfl
@[simp] theorem State.setConv_pending (s : State) (n : Nat) (v : Conv) : (s.setConv n v).pending = s.pending := rfl

/-! ### `State.setDac` -/

@[simp] theorem State.setDac_time (s : State) (n : Nat) (v : Dac) : (s.setDac n v).time = s.time := rfl
@[simp] theorem State.setDac_chip (s : State) (n : Nat) (v : Dac) : (s.setDac n v).chip = s.chip := rfl
@[simp] theorem State.setDac_host (s : State) (n : Nat) (v : Dac) : (s.setDac n v).host = s.host := rfl
@[simp] theorem State.setDac_clk (s : State) (n : Nat) (v : Dac) : (s.setDac n v).clk = s.clk := rfl
@[simp] theorem State.setDac_sheaf (s : State) (n : Nat) (v : Dac) : (s.setDac n v).sheaf = s.sheaf := rfl
@[simp] theorem State.setDac_til (s : State) (n : Nat) (v : Dac) : (s.setDac n v).til = s.til := rfl
@[simp] theorem State.setDac_convs (s : State) (n : Nat) (v : Dac) : (s.setDac n v).convs = s.convs := rfl
@[simp] theorem State.setDac_cal (s : State) (n : Nat) (v : Dac) : (s.setDac n v).cal = s.cal := rfl
@[simp] theorem State.setDac_keep (s : State) (n : Nat) (v : Dac) : (s.setDac n v).keep = s.keep := rfl
@[simp] theorem State.setDac_fab (s : State) (n : Nat) (v : Dac) : (s.setDac n v).fab = s.fab := rfl
@[simp] theorem State.setDac_boot (s : State) (n : Nat) (v : Dac) : (s.setDac n v).boot = s.boot := rfl
@[simp] theorem State.setDac_husk (s : State) (n : Nat) (v : Dac) : (s.setDac n v).husk = s.husk := rfl
@[simp] theorem State.setDac_pin (s : State) (n : Nat) (v : Dac) : (s.setDac n v).pin = s.pin := rfl
@[simp] theorem State.setDac_mon (s : State) (n : Nat) (v : Dac) : (s.setDac n v).mon = s.mon := rfl
@[simp] theorem State.setDac_out (s : State) (n : Nat) (v : Dac) : (s.setDac n v).out = s.out := rfl
@[simp] theorem State.setDac_freeCtr (s : State) (n : Nat) (v : Dac) : (s.setDac n v).freeCtr = s.freeCtr := rfl
@[simp] theorem State.setDac_pending (s : State) (n : Nat) (v : Dac) : (s.setDac n v).pending = s.pending := rfl

/-! ### `State.setBank` -/

@[simp] theorem State.setBank_time (s : State) (n : Nat) (v : Bank) : (s.setBank n v).time = s.time := rfl
@[simp] theorem State.setBank_chip (s : State) (n : Nat) (v : Bank) : (s.setBank n v).chip = s.chip := rfl
@[simp] theorem State.setBank_host (s : State) (n : Nat) (v : Bank) : (s.setBank n v).host = s.host := rfl
@[simp] theorem State.setBank_clk (s : State) (n : Nat) (v : Bank) : (s.setBank n v).clk = s.clk := rfl
@[simp] theorem State.setBank_sheaf (s : State) (n : Nat) (v : Bank) : (s.setBank n v).sheaf = s.sheaf := rfl
@[simp] theorem State.setBank_til (s : State) (n : Nat) (v : Bank) : (s.setBank n v).til = s.til := rfl
@[simp] theorem State.setBank_convs (s : State) (n : Nat) (v : Bank) : (s.setBank n v).convs = s.convs := rfl
@[simp] theorem State.setBank_dacs (s : State) (n : Nat) (v : Bank) : (s.setBank n v).dacs = s.dacs := rfl
@[simp] theorem State.setBank_cal (s : State) (n : Nat) (v : Bank) : (s.setBank n v).cal = s.cal := rfl
@[simp] theorem State.setBank_keep (s : State) (n : Nat) (v : Bank) : (s.setBank n v).keep = s.keep := rfl
@[simp] theorem State.setBank_fab (s : State) (n : Nat) (v : Bank) : (s.setBank n v).fab = s.fab := rfl
@[simp] theorem State.setBank_boot (s : State) (n : Nat) (v : Bank) : (s.setBank n v).boot = s.boot := rfl
@[simp] theorem State.setBank_husk (s : State) (n : Nat) (v : Bank) : (s.setBank n v).husk = s.husk := rfl
@[simp] theorem State.setBank_mon (s : State) (n : Nat) (v : Bank) : (s.setBank n v).mon = s.mon := rfl
@[simp] theorem State.setBank_out (s : State) (n : Nat) (v : Bank) : (s.setBank n v).out = s.out := rfl
@[simp] theorem State.setBank_freeCtr (s : State) (n : Nat) (v : Bank) : (s.setBank n v).freeCtr = s.freeCtr := rfl
@[simp] theorem State.setBank_pending (s : State) (n : Nat) (v : Bank) : (s.setBank n v).pending = s.pending := rfl
@[simp] theorem State.setBank_pin_pins (s : State) (n : Nat) (v : Bank) : (s.setBank n v).pin.pins = s.pin.pins := rfl
@[simp] theorem State.setBank_pin_diff (s : State) (n : Nat) (v : Bank) : (s.setBank n v).pin.diff = s.pin.diff := rfl
@[simp] theorem State.setBank_pin_switches (s : State) (n : Nat) (v : Bank) : (s.setBank n v).pin.switches = s.pin.switches := rfl
@[simp] theorem State.setBank_pin_ports (s : State) (n : Nat) (v : Bank) : (s.setBank n v).pin.ports = s.pin.ports := rfl
@[simp] theorem State.setBank_pin_tapInstr (s : State) (n : Nat) (v : Bank) : (s.setBank n v).pin.tapInstr = s.pin.tapInstr := rfl
@[simp] theorem State.setBank_pin_bsr (s : State) (n : Nat) (v : Bank) : (s.setBank n v).pin.bsr = s.pin.bsr := rfl

/-! ### `State.setPinS` -/

@[simp] theorem State.setPinS_time (s : State) (n : Nat) (v : PinS) : (s.setPinS n v).time = s.time := rfl
@[simp] theorem State.setPinS_chip (s : State) (n : Nat) (v : PinS) : (s.setPinS n v).chip = s.chip := rfl
@[simp] theorem State.setPinS_host (s : State) (n : Nat) (v : PinS) : (s.setPinS n v).host = s.host := rfl
@[simp] theorem State.setPinS_clk (s : State) (n : Nat) (v : PinS) : (s.setPinS n v).clk = s.clk := rfl
@[simp] theorem State.setPinS_sheaf (s : State) (n : Nat) (v : PinS) : (s.setPinS n v).sheaf = s.sheaf := rfl
@[simp] theorem State.setPinS_til (s : State) (n : Nat) (v : PinS) : (s.setPinS n v).til = s.til := rfl
@[simp] theorem State.setPinS_convs (s : State) (n : Nat) (v : PinS) : (s.setPinS n v).convs = s.convs := rfl
@[simp] theorem State.setPinS_dacs (s : State) (n : Nat) (v : PinS) : (s.setPinS n v).dacs = s.dacs := rfl
@[simp] theorem State.setPinS_cal (s : State) (n : Nat) (v : PinS) : (s.setPinS n v).cal = s.cal := rfl
@[simp] theorem State.setPinS_keep (s : State) (n : Nat) (v : PinS) : (s.setPinS n v).keep = s.keep := rfl
@[simp] theorem State.setPinS_fab (s : State) (n : Nat) (v : PinS) : (s.setPinS n v).fab = s.fab := rfl
@[simp] theorem State.setPinS_boot (s : State) (n : Nat) (v : PinS) : (s.setPinS n v).boot = s.boot := rfl
@[simp] theorem State.setPinS_husk (s : State) (n : Nat) (v : PinS) : (s.setPinS n v).husk = s.husk := rfl
@[simp] theorem State.setPinS_mon (s : State) (n : Nat) (v : PinS) : (s.setPinS n v).mon = s.mon := rfl
@[simp] theorem State.setPinS_out (s : State) (n : Nat) (v : PinS) : (s.setPinS n v).out = s.out := rfl
@[simp] theorem State.setPinS_freeCtr (s : State) (n : Nat) (v : PinS) : (s.setPinS n v).freeCtr = s.freeCtr := rfl
@[simp] theorem State.setPinS_pending (s : State) (n : Nat) (v : PinS) : (s.setPinS n v).pending = s.pending := rfl
@[simp] theorem State.setPinS_pin_banks (s : State) (n : Nat) (v : PinS) : (s.setPinS n v).pin.banks = s.pin.banks := rfl
@[simp] theorem State.setPinS_pin_diff (s : State) (n : Nat) (v : PinS) : (s.setPinS n v).pin.diff = s.pin.diff := rfl
@[simp] theorem State.setPinS_pin_switches (s : State) (n : Nat) (v : PinS) : (s.setPinS n v).pin.switches = s.pin.switches := rfl
@[simp] theorem State.setPinS_pin_ports (s : State) (n : Nat) (v : PinS) : (s.setPinS n v).pin.ports = s.pin.ports := rfl
@[simp] theorem State.setPinS_pin_tapInstr (s : State) (n : Nat) (v : PinS) : (s.setPinS n v).pin.tapInstr = s.pin.tapInstr := rfl
@[simp] theorem State.setPinS_pin_bsr (s : State) (n : Nat) (v : PinS) : (s.setPinS n v).pin.bsr = s.pin.bsr := rfl

/-! ### `State.setPort` -/

@[simp] theorem State.setPort_time (s : State) (n : Nat) (v : Port) : (s.setPort n v).time = s.time := rfl
@[simp] theorem State.setPort_chip (s : State) (n : Nat) (v : Port) : (s.setPort n v).chip = s.chip := rfl
@[simp] theorem State.setPort_host (s : State) (n : Nat) (v : Port) : (s.setPort n v).host = s.host := rfl
@[simp] theorem State.setPort_clk (s : State) (n : Nat) (v : Port) : (s.setPort n v).clk = s.clk := rfl
@[simp] theorem State.setPort_sheaf (s : State) (n : Nat) (v : Port) : (s.setPort n v).sheaf = s.sheaf := rfl
@[simp] theorem State.setPort_til (s : State) (n : Nat) (v : Port) : (s.setPort n v).til = s.til := rfl
@[simp] theorem State.setPort_convs (s : State) (n : Nat) (v : Port) : (s.setPort n v).convs = s.convs := rfl
@[simp] theorem State.setPort_dacs (s : State) (n : Nat) (v : Port) : (s.setPort n v).dacs = s.dacs := rfl
@[simp] theorem State.setPort_cal (s : State) (n : Nat) (v : Port) : (s.setPort n v).cal = s.cal := rfl
@[simp] theorem State.setPort_keep (s : State) (n : Nat) (v : Port) : (s.setPort n v).keep = s.keep := rfl
@[simp] theorem State.setPort_fab (s : State) (n : Nat) (v : Port) : (s.setPort n v).fab = s.fab := rfl
@[simp] theorem State.setPort_boot (s : State) (n : Nat) (v : Port) : (s.setPort n v).boot = s.boot := rfl
@[simp] theorem State.setPort_husk (s : State) (n : Nat) (v : Port) : (s.setPort n v).husk = s.husk := rfl
@[simp] theorem State.setPort_mon (s : State) (n : Nat) (v : Port) : (s.setPort n v).mon = s.mon := rfl
@[simp] theorem State.setPort_out (s : State) (n : Nat) (v : Port) : (s.setPort n v).out = s.out := rfl
@[simp] theorem State.setPort_freeCtr (s : State) (n : Nat) (v : Port) : (s.setPort n v).freeCtr = s.freeCtr := rfl
@[simp] theorem State.setPort_pending (s : State) (n : Nat) (v : Port) : (s.setPort n v).pending = s.pending := rfl
@[simp] theorem State.setPort_pin_pins (s : State) (n : Nat) (v : Port) : (s.setPort n v).pin.pins = s.pin.pins := rfl
@[simp] theorem State.setPort_pin_banks (s : State) (n : Nat) (v : Port) : (s.setPort n v).pin.banks = s.pin.banks := rfl
@[simp] theorem State.setPort_pin_diff (s : State) (n : Nat) (v : Port) : (s.setPort n v).pin.diff = s.pin.diff := rfl
@[simp] theorem State.setPort_pin_switches (s : State) (n : Nat) (v : Port) : (s.setPort n v).pin.switches = s.pin.switches := rfl
@[simp] theorem State.setPort_pin_tapInstr (s : State) (n : Nat) (v : Port) : (s.setPort n v).pin.tapInstr = s.pin.tapInstr := rfl
@[simp] theorem State.setPort_pin_bsr (s : State) (n : Nat) (v : Port) : (s.setPort n v).pin.bsr = s.pin.bsr := rfl

/-! ### `State.setPair` -/

@[simp] theorem State.setPair_time (s : State) (n : Nat) (v : AinPair) : (s.setPair n v).time = s.time := rfl
@[simp] theorem State.setPair_chip (s : State) (n : Nat) (v : AinPair) : (s.setPair n v).chip = s.chip := rfl
@[simp] theorem State.setPair_host (s : State) (n : Nat) (v : AinPair) : (s.setPair n v).host = s.host := rfl
@[simp] theorem State.setPair_clk (s : State) (n : Nat) (v : AinPair) : (s.setPair n v).clk = s.clk := rfl
@[simp] theorem State.setPair_sheaf (s : State) (n : Nat) (v : AinPair) : (s.setPair n v).sheaf = s.sheaf := rfl
@[simp] theorem State.setPair_til (s : State) (n : Nat) (v : AinPair) : (s.setPair n v).til = s.til := rfl
@[simp] theorem State.setPair_convs (s : State) (n : Nat) (v : AinPair) : (s.setPair n v).convs = s.convs := rfl
@[simp] theorem State.setPair_dacs (s : State) (n : Nat) (v : AinPair) : (s.setPair n v).dacs = s.dacs := rfl
@[simp] theorem State.setPair_cal (s : State) (n : Nat) (v : AinPair) : (s.setPair n v).cal = s.cal := rfl
@[simp] theorem State.setPair_keep (s : State) (n : Nat) (v : AinPair) : (s.setPair n v).keep = s.keep := rfl
@[simp] theorem State.setPair_fab (s : State) (n : Nat) (v : AinPair) : (s.setPair n v).fab = s.fab := rfl
@[simp] theorem State.setPair_boot (s : State) (n : Nat) (v : AinPair) : (s.setPair n v).boot = s.boot := rfl
@[simp] theorem State.setPair_husk (s : State) (n : Nat) (v : AinPair) : (s.setPair n v).husk = s.husk := rfl
@[simp] theorem State.setPair_pin (s : State) (n : Nat) (v : AinPair) : (s.setPair n v).pin = s.pin := rfl
@[simp] theorem State.setPair_out (s : State) (n : Nat) (v : AinPair) : (s.setPair n v).out = s.out := rfl
@[simp] theorem State.setPair_freeCtr (s : State) (n : Nat) (v : AinPair) : (s.setPair n v).freeCtr = s.freeCtr := rfl
@[simp] theorem State.setPair_pending (s : State) (n : Nat) (v : AinPair) : (s.setPair n v).pending = s.pending := rfl
@[simp] theorem State.setPair_mon_sensors (s : State) (n : Nat) (v : AinPair) : (s.setPair n v).mon.sensors = s.mon.sensors := rfl
@[simp] theorem State.setPair_mon_supplies (s : State) (n : Nat) (v : AinPair) : (s.setPair n v).mon.supplies = s.mon.supplies := rfl
@[simp] theorem State.setPair_mon_supplyBad (s : State) (n : Nat) (v : AinPair) : (s.setPair n v).mon.supplyBad = s.mon.supplyBad := rfl
@[simp] theorem State.setPair_mon_supplyOut (s : State) (n : Nat) (v : AinPair) : (s.setPair n v).mon.supplyOut = s.mon.supplyOut := rfl
@[simp] theorem State.setPair_mon_supplySince (s : State) (n : Nat) (v : AinPair) : (s.setPair n v).mon.supplySince = s.mon.supplySince := rfl
@[simp] theorem State.setPair_mon_supplyIvs (s : State) (n : Nat) (v : AinPair) : (s.setPair n v).mon.supplyIvs = s.mon.supplyIvs := rfl
@[simp] theorem State.setPair_mon_huskTemp (s : State) (n : Nat) (v : AinPair) : (s.setPair n v).mon.huskTemp = s.mon.huskTemp := rfl

/-! ### `State.setSensor` -/

@[simp] theorem State.setSensor_time (s : State) (n : Nat) (v : TempSensor) : (s.setSensor n v).time = s.time := rfl
@[simp] theorem State.setSensor_chip (s : State) (n : Nat) (v : TempSensor) : (s.setSensor n v).chip = s.chip := rfl
@[simp] theorem State.setSensor_host (s : State) (n : Nat) (v : TempSensor) : (s.setSensor n v).host = s.host := rfl
@[simp] theorem State.setSensor_clk (s : State) (n : Nat) (v : TempSensor) : (s.setSensor n v).clk = s.clk := rfl
@[simp] theorem State.setSensor_sheaf (s : State) (n : Nat) (v : TempSensor) : (s.setSensor n v).sheaf = s.sheaf := rfl
@[simp] theorem State.setSensor_til (s : State) (n : Nat) (v : TempSensor) : (s.setSensor n v).til = s.til := rfl
@[simp] theorem State.setSensor_convs (s : State) (n : Nat) (v : TempSensor) : (s.setSensor n v).convs = s.convs := rfl
@[simp] theorem State.setSensor_dacs (s : State) (n : Nat) (v : TempSensor) : (s.setSensor n v).dacs = s.dacs := rfl
@[simp] theorem State.setSensor_cal (s : State) (n : Nat) (v : TempSensor) : (s.setSensor n v).cal = s.cal := rfl
@[simp] theorem State.setSensor_keep (s : State) (n : Nat) (v : TempSensor) : (s.setSensor n v).keep = s.keep := rfl
@[simp] theorem State.setSensor_fab (s : State) (n : Nat) (v : TempSensor) : (s.setSensor n v).fab = s.fab := rfl
@[simp] theorem State.setSensor_boot (s : State) (n : Nat) (v : TempSensor) : (s.setSensor n v).boot = s.boot := rfl
@[simp] theorem State.setSensor_husk (s : State) (n : Nat) (v : TempSensor) : (s.setSensor n v).husk = s.husk := rfl
@[simp] theorem State.setSensor_pin (s : State) (n : Nat) (v : TempSensor) : (s.setSensor n v).pin = s.pin := rfl
@[simp] theorem State.setSensor_out (s : State) (n : Nat) (v : TempSensor) : (s.setSensor n v).out = s.out := rfl
@[simp] theorem State.setSensor_freeCtr (s : State) (n : Nat) (v : TempSensor) : (s.setSensor n v).freeCtr = s.freeCtr := rfl
@[simp] theorem State.setSensor_pending (s : State) (n : Nat) (v : TempSensor) : (s.setSensor n v).pending = s.pending := rfl
@[simp] theorem State.setSensor_mon_supplies (s : State) (n : Nat) (v : TempSensor) : (s.setSensor n v).mon.supplies = s.mon.supplies := rfl
@[simp] theorem State.setSensor_mon_supplyBad (s : State) (n : Nat) (v : TempSensor) : (s.setSensor n v).mon.supplyBad = s.mon.supplyBad := rfl
@[simp] theorem State.setSensor_mon_supplyOut (s : State) (n : Nat) (v : TempSensor) : (s.setSensor n v).mon.supplyOut = s.mon.supplyOut := rfl
@[simp] theorem State.setSensor_mon_supplySince (s : State) (n : Nat) (v : TempSensor) : (s.setSensor n v).mon.supplySince = s.mon.supplySince := rfl
@[simp] theorem State.setSensor_mon_supplyIvs (s : State) (n : Nat) (v : TempSensor) : (s.setSensor n v).mon.supplyIvs = s.mon.supplyIvs := rfl
@[simp] theorem State.setSensor_mon_huskTemp (s : State) (n : Nat) (v : TempSensor) : (s.setSensor n v).mon.huskTemp = s.mon.huskTemp := rfl
@[simp] theorem State.setSensor_mon_pairs (s : State) (n : Nat) (v : TempSensor) : (s.setSensor n v).mon.pairs = s.mon.pairs := rfl

/-! ### `State.setLoad` -/

@[simp] theorem State.setLoad_time (s : State) (n : Nat) (v : Option Load) : (s.setLoad n v).time = s.time := rfl
@[simp] theorem State.setLoad_chip (s : State) (n : Nat) (v : Option Load) : (s.setLoad n v).chip = s.chip := rfl
@[simp] theorem State.setLoad_host (s : State) (n : Nat) (v : Option Load) : (s.setLoad n v).host = s.host := rfl
@[simp] theorem State.setLoad_clk (s : State) (n : Nat) (v : Option Load) : (s.setLoad n v).clk = s.clk := rfl
@[simp] theorem State.setLoad_sheaf (s : State) (n : Nat) (v : Option Load) : (s.setLoad n v).sheaf = s.sheaf := rfl
@[simp] theorem State.setLoad_til (s : State) (n : Nat) (v : Option Load) : (s.setLoad n v).til = s.til := rfl
@[simp] theorem State.setLoad_convs (s : State) (n : Nat) (v : Option Load) : (s.setLoad n v).convs = s.convs := rfl
@[simp] theorem State.setLoad_dacs (s : State) (n : Nat) (v : Option Load) : (s.setLoad n v).dacs = s.dacs := rfl
@[simp] theorem State.setLoad_cal (s : State) (n : Nat) (v : Option Load) : (s.setLoad n v).cal = s.cal := rfl
@[simp] theorem State.setLoad_keep (s : State) (n : Nat) (v : Option Load) : (s.setLoad n v).keep = s.keep := rfl
@[simp] theorem State.setLoad_fab (s : State) (n : Nat) (v : Option Load) : (s.setLoad n v).fab = s.fab := rfl
@[simp] theorem State.setLoad_husk (s : State) (n : Nat) (v : Option Load) : (s.setLoad n v).husk = s.husk := rfl
@[simp] theorem State.setLoad_pin (s : State) (n : Nat) (v : Option Load) : (s.setLoad n v).pin = s.pin := rfl
@[simp] theorem State.setLoad_mon (s : State) (n : Nat) (v : Option Load) : (s.setLoad n v).mon = s.mon := rfl
@[simp] theorem State.setLoad_out (s : State) (n : Nat) (v : Option Load) : (s.setLoad n v).out = s.out := rfl
@[simp] theorem State.setLoad_freeCtr (s : State) (n : Nat) (v : Option Load) : (s.setLoad n v).freeCtr = s.freeCtr := rfl
@[simp] theorem State.setLoad_pending (s : State) (n : Nat) (v : Option Load) : (s.setLoad n v).pending = s.pending := rfl
@[simp] theorem State.setLoad_boot_slotSkip (s : State) (n : Nat) (v : Option Load) : (s.setLoad n v).boot.slotSkip = s.boot.slotSkip := rfl
@[simp] theorem State.setLoad_boot_hostFirst (s : State) (n : Nat) (v : Option Load) : (s.setLoad n v).boot.hostFirst = s.boot.hostFirst := rfl
@[simp] theorem State.setLoad_boot_doneAction (s : State) (n : Nat) (v : Option Load) : (s.setLoad n v).boot.doneAction = s.boot.doneAction := rfl
@[simp] theorem State.setLoad_boot_hostWait (s : State) (n : Nat) (v : Option Load) : (s.setLoad n v).boot.hostWait = s.boot.hostWait := rfl
@[simp] theorem State.setLoad_boot_doneTimeout (s : State) (n : Nat) (v : Option Load) : (s.setLoad n v).boot.doneTimeout = s.boot.doneTimeout := rfl
@[simp] theorem State.setLoad_boot_imgAddr (s : State) (n : Nat) (v : Option Load) : (s.setLoad n v).boot.imgAddr = s.boot.imgAddr := rfl
@[simp] theorem State.setLoad_boot_imgLen (s : State) (n : Nat) (v : Option Load) : (s.setLoad n v).boot.imgLen = s.boot.imgLen := rfl
@[simp] theorem State.setLoad_boot_qspiDummy (s : State) (n : Nat) (v : Option Load) : (s.setLoad n v).boot.qspiDummy = s.boot.qspiDummy := rfl
@[simp] theorem State.setLoad_boot_qspiDelay (s : State) (n : Nat) (v : Option Load) : (s.setLoad n v).boot.qspiDelay = s.boot.qspiDelay := rfl
@[simp] theorem State.setLoad_boot_qspiDiv (s : State) (n : Nat) (v : Option Load) : (s.setLoad n v).boot.qspiDiv = s.boot.qspiDiv := rfl
@[simp] theorem State.setLoad_boot_doneLate (s : State) (n : Nat) (v : Option Load) : (s.setLoad n v).boot.doneLate = s.boot.doneLate := rfl
@[simp] theorem State.setLoad_boot_doneHigh (s : State) (n : Nat) (v : Option Load) : (s.setLoad n v).boot.doneHigh = s.boot.doneHigh := rfl
@[simp] theorem State.setLoad_boot_doneDriven (s : State) (n : Nat) (v : Option Load) : (s.setLoad n v).boot.doneDriven = s.boot.doneDriven := rfl
@[simp] theorem State.setLoad_boot_doneReleasedAt (s : State) (n : Nat) (v : Option Load) : (s.setLoad n v).boot.doneReleasedAt = s.boot.doneReleasedAt := rfl
@[simp] theorem State.setLoad_boot_lastReason (s : State) (n : Nat) (v : Option Load) : (s.setLoad n v).boot.lastReason = s.boot.lastReason := rfl
@[simp] theorem State.setLoad_boot_lastSlot (s : State) (n : Nat) (v : Option Load) : (s.setLoad n v).boot.lastSlot = s.boot.lastSlot := rfl
@[simp] theorem State.setLoad_boot_hostWaiting (s : State) (n : Nat) (v : Option Load) : (s.setLoad n v).boot.hostWaiting = s.boot.hostWaiting := rfl
@[simp] theorem State.setLoad_boot_tryNext (s : State) (n : Nat) (v : Option Load) : (s.setLoad n v).boot.tryNext = s.boot.tryNext := rfl
@[simp] theorem State.setLoad_boot_trying (s : State) (n : Nat) (v : Option Load) : (s.setLoad n v).boot.trying = s.boot.trying := rfl
@[simp] theorem State.setLoad_boot_fallow (s : State) (n : Nat) (v : Option Load) : (s.setLoad n v).boot.fallow = s.boot.fallow := rfl
@[simp] theorem State.setLoad_boot_loaded (s : State) (n : Nat) (v : Option Load) : (s.setLoad n v).boot.loaded = s.boot.loaded := rfl
@[simp] theorem State.setLoad_boot_doneSlot (s : State) (n : Nat) (v : Option Load) : (s.setLoad n v).boot.doneSlot = s.boot.doneSlot := rfl
@[simp] theorem State.setLoad_boot_doneFrames (s : State) (n : Nat) (v : Option Load) : (s.setLoad n v).boot.doneFrames = s.boot.doneFrames := rfl
@[simp] theorem State.setLoad_boot_fallback (s : State) (n : Nat) (v : Option Load) : (s.setLoad n v).boot.fallback = s.boot.fallback := rfl
@[simp] theorem State.setLoad_boot_itemResult (s : State) (n : Nat) (v : Option Load) : (s.setLoad n v).boot.itemResult = s.boot.itemResult := rfl
@[simp] theorem State.setLoad_boot_cfgOpen (s : State) (n : Nat) (v : Option Load) : (s.setLoad n v).boot.cfgOpen = s.boot.cfgOpen := rfl
@[simp] theorem State.setLoad_boot_cfgResult (s : State) (n : Nat) (v : Option Load) : (s.setLoad n v).boot.cfgResult = s.boot.cfgResult := rfl
@[simp] theorem State.setLoad_boot_cfgFrames (s : State) (n : Nat) (v : Option Load) : (s.setLoad n v).boot.cfgFrames = s.boot.cfgFrames := rfl
@[simp] theorem State.setLoad_boot_bannerAt (s : State) (n : Nat) (v : Option Load) : (s.setLoad n v).boot.bannerAt = s.boot.bannerAt := rfl

/-! ### `State.spWrite` -/

@[simp] theorem State.spWrite_time (s : State) (a : Nat) (b : Bytes) : (s.spWrite a b).time = s.time := rfl
@[simp] theorem State.spWrite_chip (s : State) (a : Nat) (b : Bytes) : (s.spWrite a b).chip = s.chip := rfl
@[simp] theorem State.spWrite_host (s : State) (a : Nat) (b : Bytes) : (s.spWrite a b).host = s.host := rfl
@[simp] theorem State.spWrite_clk (s : State) (a : Nat) (b : Bytes) : (s.spWrite a b).clk = s.clk := rfl
@[simp] theorem State.spWrite_sheaf (s : State) (a : Nat) (b : Bytes) : (s.spWrite a b).sheaf = s.sheaf := rfl
@[simp] theorem State.spWrite_til (s : State) (a : Nat) (b : Bytes) : (s.spWrite a b).til = s.til := rfl
@[simp] theorem State.spWrite_convs (s : State) (a : Nat) (b : Bytes) : (s.spWrite a b).convs = s.convs := rfl
@[simp] theorem State.spWrite_dacs (s : State) (a : Nat) (b : Bytes) : (s.spWrite a b).dacs = s.dacs := rfl
@[simp] theorem State.spWrite_cal (s : State) (a : Nat) (b : Bytes) : (s.spWrite a b).cal = s.cal := rfl
@[simp] theorem State.spWrite_keep (s : State) (a : Nat) (b : Bytes) : (s.spWrite a b).keep = s.keep := rfl
@[simp] theorem State.spWrite_boot (s : State) (a : Nat) (b : Bytes) : (s.spWrite a b).boot = s.boot := rfl
@[simp] theorem State.spWrite_husk (s : State) (a : Nat) (b : Bytes) : (s.spWrite a b).husk = s.husk := rfl
@[simp] theorem State.spWrite_pin (s : State) (a : Nat) (b : Bytes) : (s.spWrite a b).pin = s.pin := rfl
@[simp] theorem State.spWrite_mon (s : State) (a : Nat) (b : Bytes) : (s.spWrite a b).mon = s.mon := rfl
@[simp] theorem State.spWrite_out (s : State) (a : Nat) (b : Bytes) : (s.spWrite a b).out = s.out := rfl
@[simp] theorem State.spWrite_freeCtr (s : State) (a : Nat) (b : Bytes) : (s.spWrite a b).freeCtr = s.freeCtr := rfl
@[simp] theorem State.spWrite_pending (s : State) (a : Nat) (b : Bytes) : (s.spWrite a b).pending = s.pending := rfl
@[simp] theorem State.spWrite_fab_scrub (s : State) (a : Nat) (b : Bytes) : (s.spWrite a b).fab.scrub = s.fab.scrub := rfl
@[simp] theorem State.spWrite_fab_frames (s : State) (a : Nat) (b : Bytes) : (s.spWrite a b).fab.frames = s.fab.frames := rfl
@[simp] theorem State.spWrite_fab_ff (s : State) (a : Nat) (b : Bytes) : (s.spWrite a b).fab.ff = s.fab.ff := rfl
@[simp] theorem State.spWrite_fab_shadow (s : State) (a : Nat) (b : Bytes) : (s.spWrite a b).fab.shadow = s.fab.shadow := rfl
@[simp] theorem State.spWrite_fab_guarded (s : State) (a : Nat) (b : Bytes) : (s.spWrite a b).fab.guarded = s.fab.guarded := rfl
@[simp] theorem State.spWrite_fab_latch (s : State) (a : Nat) (b : Bytes) : (s.spWrite a b).fab.latch = s.fab.latch := rfl
@[simp] theorem State.spWrite_fab_disabled (s : State) (a : Nat) (b : Bytes) : (s.spWrite a b).fab.disabled = s.fab.disabled := rfl
@[simp] theorem State.spWrite_fab_ports (s : State) (a : Nat) (b : Bytes) : (s.spWrite a b).fab.ports = s.fab.ports := rfl
@[simp] theorem State.spWrite_fab_readbacks (s : State) (a : Nat) (b : Bytes) : (s.spWrite a b).fab.readbacks = s.fab.readbacks := rfl
@[simp] theorem State.spWrite_fab_gated (s : State) (a : Nat) (b : Bytes) : (s.spWrite a b).fab.gated = s.fab.gated := rfl
@[simp] theorem State.spWrite_fab_forcedLow (s : State) (a : Nat) (b : Bytes) : (s.spWrite a b).fab.forcedLow = s.fab.forcedLow := rfl

/-! ### `State.setFrame` -/

@[simp] theorem State.setFrame_time (s : State) (f : Nat) (b : Bytes) : (s.setFrame f b).time = s.time := rfl
@[simp] theorem State.setFrame_chip (s : State) (f : Nat) (b : Bytes) : (s.setFrame f b).chip = s.chip := rfl
@[simp] theorem State.setFrame_host (s : State) (f : Nat) (b : Bytes) : (s.setFrame f b).host = s.host := rfl
@[simp] theorem State.setFrame_clk (s : State) (f : Nat) (b : Bytes) : (s.setFrame f b).clk = s.clk := rfl
@[simp] theorem State.setFrame_sheaf (s : State) (f : Nat) (b : Bytes) : (s.setFrame f b).sheaf = s.sheaf := rfl
@[simp] theorem State.setFrame_til (s : State) (f : Nat) (b : Bytes) : (s.setFrame f b).til = s.til := rfl
@[simp] theorem State.setFrame_convs (s : State) (f : Nat) (b : Bytes) : (s.setFrame f b).convs = s.convs := rfl
@[simp] theorem State.setFrame_dacs (s : State) (f : Nat) (b : Bytes) : (s.setFrame f b).dacs = s.dacs := rfl
@[simp] theorem State.setFrame_cal (s : State) (f : Nat) (b : Bytes) : (s.setFrame f b).cal = s.cal := rfl
@[simp] theorem State.setFrame_keep (s : State) (f : Nat) (b : Bytes) : (s.setFrame f b).keep = s.keep := rfl
@[simp] theorem State.setFrame_boot (s : State) (f : Nat) (b : Bytes) : (s.setFrame f b).boot = s.boot := rfl
@[simp] theorem State.setFrame_husk (s : State) (f : Nat) (b : Bytes) : (s.setFrame f b).husk = s.husk := rfl
@[simp] theorem State.setFrame_pin (s : State) (f : Nat) (b : Bytes) : (s.setFrame f b).pin = s.pin := rfl
@[simp] theorem State.setFrame_mon (s : State) (f : Nat) (b : Bytes) : (s.setFrame f b).mon = s.mon := rfl
@[simp] theorem State.setFrame_out (s : State) (f : Nat) (b : Bytes) : (s.setFrame f b).out = s.out := rfl
@[simp] theorem State.setFrame_freeCtr (s : State) (f : Nat) (b : Bytes) : (s.setFrame f b).freeCtr = s.freeCtr := rfl
@[simp] theorem State.setFrame_pending (s : State) (f : Nat) (b : Bytes) : (s.setFrame f b).pending = s.pending := rfl
@[simp] theorem State.setFrame_fab_spad (s : State) (f : Nat) (b : Bytes) : (s.setFrame f b).fab.spad = s.fab.spad := rfl
@[simp] theorem State.setFrame_fab_scrub (s : State) (f : Nat) (b : Bytes) : (s.setFrame f b).fab.scrub = s.fab.scrub := rfl
@[simp] theorem State.setFrame_fab_ff (s : State) (f : Nat) (b : Bytes) : (s.setFrame f b).fab.ff = s.fab.ff := rfl
@[simp] theorem State.setFrame_fab_shadow (s : State) (f : Nat) (b : Bytes) : (s.setFrame f b).fab.shadow = s.fab.shadow := rfl
@[simp] theorem State.setFrame_fab_guarded (s : State) (f : Nat) (b : Bytes) : (s.setFrame f b).fab.guarded = s.fab.guarded := rfl
@[simp] theorem State.setFrame_fab_latch (s : State) (f : Nat) (b : Bytes) : (s.setFrame f b).fab.latch = s.fab.latch := rfl
@[simp] theorem State.setFrame_fab_disabled (s : State) (f : Nat) (b : Bytes) : (s.setFrame f b).fab.disabled = s.fab.disabled := rfl
@[simp] theorem State.setFrame_fab_ports (s : State) (f : Nat) (b : Bytes) : (s.setFrame f b).fab.ports = s.fab.ports := rfl
@[simp] theorem State.setFrame_fab_readbacks (s : State) (f : Nat) (b : Bytes) : (s.setFrame f b).fab.readbacks = s.fab.readbacks := rfl
@[simp] theorem State.setFrame_fab_gated (s : State) (f : Nat) (b : Bytes) : (s.setFrame f b).fab.gated = s.fab.gated := rfl
@[simp] theorem State.setFrame_fab_forcedLow (s : State) (f : Nat) (b : Bytes) : (s.setFrame f b).fab.forcedLow = s.fab.forcedLow := rfl

/-! ### `State.setFF` -/

@[simp] theorem State.setFF_time (s : State) (n v : Nat) : (s.setFF n v).time = s.time := rfl
@[simp] theorem State.setFF_chip (s : State) (n v : Nat) : (s.setFF n v).chip = s.chip := rfl
@[simp] theorem State.setFF_host (s : State) (n v : Nat) : (s.setFF n v).host = s.host := rfl
@[simp] theorem State.setFF_clk (s : State) (n v : Nat) : (s.setFF n v).clk = s.clk := rfl
@[simp] theorem State.setFF_sheaf (s : State) (n v : Nat) : (s.setFF n v).sheaf = s.sheaf := rfl
@[simp] theorem State.setFF_til (s : State) (n v : Nat) : (s.setFF n v).til = s.til := rfl
@[simp] theorem State.setFF_convs (s : State) (n v : Nat) : (s.setFF n v).convs = s.convs := rfl
@[simp] theorem State.setFF_dacs (s : State) (n v : Nat) : (s.setFF n v).dacs = s.dacs := rfl
@[simp] theorem State.setFF_cal (s : State) (n v : Nat) : (s.setFF n v).cal = s.cal := rfl
@[simp] theorem State.setFF_keep (s : State) (n v : Nat) : (s.setFF n v).keep = s.keep := rfl
@[simp] theorem State.setFF_boot (s : State) (n v : Nat) : (s.setFF n v).boot = s.boot := rfl
@[simp] theorem State.setFF_husk (s : State) (n v : Nat) : (s.setFF n v).husk = s.husk := rfl
@[simp] theorem State.setFF_pin (s : State) (n v : Nat) : (s.setFF n v).pin = s.pin := rfl
@[simp] theorem State.setFF_mon (s : State) (n v : Nat) : (s.setFF n v).mon = s.mon := rfl
@[simp] theorem State.setFF_out (s : State) (n v : Nat) : (s.setFF n v).out = s.out := rfl
@[simp] theorem State.setFF_freeCtr (s : State) (n v : Nat) : (s.setFF n v).freeCtr = s.freeCtr := rfl
@[simp] theorem State.setFF_pending (s : State) (n v : Nat) : (s.setFF n v).pending = s.pending := rfl
@[simp] theorem State.setFF_fab_spad (s : State) (n v : Nat) : (s.setFF n v).fab.spad = s.fab.spad := rfl
@[simp] theorem State.setFF_fab_scrub (s : State) (n v : Nat) : (s.setFF n v).fab.scrub = s.fab.scrub := rfl
@[simp] theorem State.setFF_fab_frames (s : State) (n v : Nat) : (s.setFF n v).fab.frames = s.fab.frames := rfl
@[simp] theorem State.setFF_fab_shadow (s : State) (n v : Nat) : (s.setFF n v).fab.shadow = s.fab.shadow := rfl
@[simp] theorem State.setFF_fab_guarded (s : State) (n v : Nat) : (s.setFF n v).fab.guarded = s.fab.guarded := rfl
@[simp] theorem State.setFF_fab_latch (s : State) (n v : Nat) : (s.setFF n v).fab.latch = s.fab.latch := rfl
@[simp] theorem State.setFF_fab_disabled (s : State) (n v : Nat) : (s.setFF n v).fab.disabled = s.fab.disabled := rfl
@[simp] theorem State.setFF_fab_ports (s : State) (n v : Nat) : (s.setFF n v).fab.ports = s.fab.ports := rfl
@[simp] theorem State.setFF_fab_readbacks (s : State) (n v : Nat) : (s.setFF n v).fab.readbacks = s.fab.readbacks := rfl
@[simp] theorem State.setFF_fab_gated (s : State) (n v : Nat) : (s.setFF n v).fab.gated = s.fab.gated := rfl
@[simp] theorem State.setFF_fab_forcedLow (s : State) (n v : Nat) : (s.setFF n v).fab.forcedLow = s.fab.forcedLow := rfl

/-! ### `State.emit` -/

@[simp] theorem State.emit_time (s : State) (m : OutMsg) : (s.emit m).time = s.time := rfl
@[simp] theorem State.emit_chip (s : State) (m : OutMsg) : (s.emit m).chip = s.chip := rfl
@[simp] theorem State.emit_host (s : State) (m : OutMsg) : (s.emit m).host = s.host := rfl
@[simp] theorem State.emit_clk (s : State) (m : OutMsg) : (s.emit m).clk = s.clk := rfl
@[simp] theorem State.emit_sheaf (s : State) (m : OutMsg) : (s.emit m).sheaf = s.sheaf := rfl
@[simp] theorem State.emit_til (s : State) (m : OutMsg) : (s.emit m).til = s.til := rfl
@[simp] theorem State.emit_convs (s : State) (m : OutMsg) : (s.emit m).convs = s.convs := rfl
@[simp] theorem State.emit_dacs (s : State) (m : OutMsg) : (s.emit m).dacs = s.dacs := rfl
@[simp] theorem State.emit_cal (s : State) (m : OutMsg) : (s.emit m).cal = s.cal := rfl
@[simp] theorem State.emit_keep (s : State) (m : OutMsg) : (s.emit m).keep = s.keep := rfl
@[simp] theorem State.emit_fab (s : State) (m : OutMsg) : (s.emit m).fab = s.fab := rfl
@[simp] theorem State.emit_boot (s : State) (m : OutMsg) : (s.emit m).boot = s.boot := rfl
@[simp] theorem State.emit_husk (s : State) (m : OutMsg) : (s.emit m).husk = s.husk := rfl
@[simp] theorem State.emit_pin (s : State) (m : OutMsg) : (s.emit m).pin = s.pin := rfl
@[simp] theorem State.emit_mon (s : State) (m : OutMsg) : (s.emit m).mon = s.mon := rfl
@[simp] theorem State.emit_freeCtr (s : State) (m : OutMsg) : (s.emit m).freeCtr = s.freeCtr := rfl
@[simp] theorem State.emit_pending (s : State) (m : OutMsg) : (s.emit m).pending = s.pending := rfl

end Sys2Proof.Machine
end

