-- ==== Sys2Proof/Tests/Slice0.lean ====
section
/-! SUPPORT. Tests of the model: the well-formedness check on ill-formed commands, the spec's worked examples, and for every
statement with hypotheses one theorem meets_<Name> that shows states and operands meeting the hypotheses of each clause. -/

namespace Sys2Proof.Tests

open Sys2Proof Sys2Proof.Machine

set_option Elab.async false

/-- A record of `n` bytes with fields (offset, width, value). -/
def fill (n : Nat) (fs : List (Nat × Nat × Nat)) : Bytes :=
  (List.range n).map fun i => BitVec.ofNat 8 (fs.map fun f => if f.1 ≤ i ∧ i < f.1 + f.2.1 then f.2.2 / 256 ^ (i - f.1) % 256 else 0).sum

/-- A descriptor on queue 0 with its record inline. -/
def cmd (op : Nat) (a : Bytes) : Desc :=
  { t := 0, queue := 0, opcode := op, flags := 8, tag := 7, argAddr := 0, inl := a ++ List.replicate (48 - a.length) 0, args := [] }

/-- Start-up is complete, queue 0 holds one descriptor, three handle slots are free. -/
def ready : State := { State.reset with
  time := { timebase := 1000, running := true, step := 10, done := true }
  chip := { persona := 1, freeSlots := [0, 1, 2] }
  fab := { gated := false }
  host := { cqs := [(0, { enable := true, sqTail := 1, sqSize := 4, cqSize := 4 })] } }

/-- A graph image with one buffer, driven by input pair 0 (03 R56-R60). -/
def img : Bytes := fill 128 [(0, 4, 0x47524C54), (4, 2, 1), (6, 2, 64), (8, 1, 1), (10, 2, 1), (20, 4, 128), (24, 4, 64), (28, 4, 96),
  (42, 1, 255), (64, 1, 1), (97, 1, 1), (99, 1, 1)]

/-- The graph of `img`. -/
def graph0 : Graph := { phase := 2, prims := [{ ty := 1, mode := 0, flags := 0, par := List.replicate 7 0 }], nets := [{ drvKind := 1, drv := 0, loads := [0] }] }

/-- Cell 0 for its buffer. -/
def place0 : PlaceP := { prim := 0, c0 := 0, bias := 1023 }

/-- `graph0` placed there, with the tracks of its net. -/
def placed : Graph := { graph0 with
  phase := 7, regions := [0], prims := graph0.prims.map fun p => { p with c0 := 0, bias := 1023 }, nets := graph0.nets.map fun n => { n with segs := [4096, 16] } }

/-- `placed` with its output on converter 5 as well. -/
def placed1 : Graph := { placed with nets := placed.nets ++ [{ drvKind := 0, drv := 0, loads := [2 ^ 14 + 5], segs := [0] }] }

/-- `ready` with a graph behind handle 0x1005. -/
def holding (g : Graph) : State := { ready with
  chip := { ready.chip with handles := [(5, { st := 2, gen := 1, kind := 1 })] }
  til := { graphs := [(5, some g)] } }

/-- Two settings of the timebase that cannot meet, whatever the synchroniser latency is. -/
theorem latency_ne : (5 + Config.syncLatency) % 2 ^ 64 ≠ (1000 + Config.syncLatency) % 2 ^ 64 := by omega

/-- An image header and signature block (13 R361-R363): flags, region and revision mask as given. -/
def head (flags region mask : Nat) : Bytes := fill 160 [(0, 4, 0x4150484C), (4, 2, 1), (6, 2, 128), (8, 2, 0x4C48), (10, 2, 0x8640),
  (12, 1, 0xB5), (13, 1, mask), (14, 2, flags), (16, 1, region), (20, 4, 400), (24, 4, 1), (28, 4, 128), (32, 4, 3520), (128, 4, 0x4753484C),
  (132, 2, 3392)] ++ List.replicate 3360 0

/-- A load at a stage, from external slot 3 with the verification key of that header. -/
def load0 (stage : Nat) : Load := { mode := 0, source := 1, imgSlot := 3, head := head 0 0xFF 0xF0, hdr := readHdr (head 0 0xFF 0xF0), stage := stage }

/-- SHA-384 of no bytes (FIPS 180-4). -/
def noBytes : Bytes := toBE 48 0x38B060A751AC96384CD9327EB1B1E36A21FDB71114BE07434C0CC7BF63F6E1DA274EDEBFE76F65FBD51AD2F14898B95B

/-- `ready` with a load of target `w`, verification key 0 and the keys of key RAM slot 0. -/
def loading (w : Nat) (l : Load) : State := { ready with
  boot := { ready.boot with loads := [(w, some l)] }
  husk := { ready.husk with fuses := { digests := [(0, some noBytes)] }, flashKeys := [(0, some [])], keyValid := 1, keyRam := [(0, some [])],
                            keyCheck := [(0, some (Config.keyCheck []))] } }

/-- CRC-32C of a frame payload of zeros (13 R366), worked out 32 bytes at a time. -/
theorem crc_chunks : (List.replicate 32 0).foldl crcByte 0xFFFFFFFF = 0x756EC955 ∧
    (List.replicate 32 0).foldl crcByte 0x756EC955 = 0xFC371498 ∧
    (List.replicate 32 0).foldl crcByte 0xFC371498 = 0xAE0DFB54 ∧
    (List.replicate 32 0).foldl crcByte 0xAE0DFB54 = 0xF7D89B24 ∧
    (List.replicate 32 0).foldl crcByte 0xF7D89B24 = 0x1C545C65 ∧
    (List.replicate 32 0).foldl crcByte 0x1C545C65 = 0x8BCA87CF ∧
    (List.replicate 32 0).foldl crcByte 0x8BCA87CF = 0xB7050EE9 ∧
    (List.replicate 32 0).foldl crcByte 0xB7050EE9 = 0x478D4E6F := by decide +kernel

theorem crc_run {m : Nat} (n : Nat) {c d : Nat} (hm : m = 32 + n) (h : (List.replicate 32 0).foldl crcByte c = d) :
    (List.replicate m 0).foldl crcByte c = (List.replicate n 0).foldl crcByte d := by
  rw [hm, ← h, ← List.foldl_append, List.replicate_append_replicate]

theorem crc32c_of {b : Bytes} {c : Nat} (h : b.foldl crcByte 0xFFFFFFFF = c) : crc32c b = Nat.xor c 0xFFFFFFFF := by rw [crc32c, h]

theorem crc_zeros : crc32c (List.replicate 256 0) = 0xB872B190 := by
  obtain ⟨h0, h1, h2, h3, h4, h5, h6, h7⟩ := crc_chunks
  have h := (crc_run 224 rfl h0).trans ((crc_run 192 rfl h1).trans ((crc_run 160 rfl h2).trans ((crc_run 128 rfl h3).trans
    ((crc_run 96 rfl h4).trans ((crc_run 64 rfl h5).trans ((crc_run 32 rfl h6).trans h7))))))
  exact (crc32c_of h).trans (by decide +kernel)

/-- A FRAME record of zeros for address 98303 with CRC `c`. -/
def frameRec (c : Nat) : Bytes := fill 268 [(0, 1, 1), (4, 4, 98303), (264, 4, c)]

theorem frame_zeros : slice (frameRec 0xB872B190) 8 256 = List.replicate 256 0 ∧ slice (frameRec 0) 8 256 = List.replicate 256 0 := by decide +kernel

/-- An ALARM_POLICY image with the filters of the built-in policy (15 R408, R414). -/
def policyImage : Bytes := fill 160 ([(0, 4, 0x4C50484C), (4, 2, 1), (6, 2, 128), (8, 1, 8), (9, 1, 1), (12, 4, 3), (128, 4, 0x4753484C), (132, 2, 3392)] ++
  (List.range 8).map (fun n => (64 + 8 * n, 1, n)) ++ (List.range 8).map (fun n => (68 + 8 * n, 4, [1, 1, 2, 1000, 2, 100, 100, 10000].getD n 0))) ++
  List.replicate 3360 0

/-! ### Well-formed commands -/

/-- A well-formed descriptor. -/
def okDesc : Desc := { t := 0, queue := 15, opcode := 1, flags := 8, tag := 7, argAddr := 0, inl := List.replicate 48 0, args := [] }

/-- Each field of a descriptor is checked. -/
theorem test_wf_desc : okDesc.wf = true ∧ [{ okDesc with t := 2 ^ 64 }, { okDesc with queue := 16 }, { okDesc with opcode := 2 ^ 16 },
    { okDesc with flags := 2 ^ 16 }, { okDesc with tag := 2 ^ 32 }, { okDesc with argAddr := 2 ^ 64 }, { okDesc with inl := [] }].all (!·.wf) = true := by decide +kernel

/-- One well-formed command for each arm of the check. -/
def wellFormed0 : List Instr :=
  [.nop okDesc, .graphPlace okDesc [], .graphTune okDesc [] [], .graphPin okDesc [], .transplant okDesc, .attest okDesc [],
   .memAtomic okDesc true 0, .partition 0 0, .cellSelection 0 0, .buildAndMeasure 0 0 [[2 ^ 32 - 1]], .evaluate 0 0, .halt 0 0 4,
   .submissionTail 0 0 0 4, .bufferRingTail 0 0 0 4 [], .eventRingHead 0 0 0 4, .spiWriteRingArea 0 0 [], .spiReadRingArea 0 0 0,
   .spiWriteSetupRegister 0 0 0, .spiWriteDoorbell 0 0 [], .registerWrite 0 0 0 4, .spiReadClearPending 0, .cfgLoad 0 0 [],
   .programFallback 0 0 [], .cfgReadback 0 0 0 0, .bypass 0 0, .warmReset 0 0, .cqEnable 0 0 0, .dsEnable 0 0 0, .upllEnable 0 0 0,
   .upllLock 0 0, .gckSetup 0 0 true 0, .gckLoss 0 0 0, .cmpLoWrite 0 0 0, .timebaseCompare 0 0, .cmpDisarm 0 0 0, .ulEnable 0 0 0,
   .ulTxBlock 0 0 0 true, .ulRxOverflow 0 0, .pinBankVccio 0 0 0, .bankSupplyFault 0 0 0]

def wellFormed1 : List Instr :=
  [.bankSupplyRestored 0 0 0, .pinDiff 0 0 0, .por 0 true true true, .resetN 0 0, .pllLock 0 0 true,
   .selfTest 0 0 (List.replicate 12 0) true true, .personaSlotTry 0 [], .signatureVerified 0 0 true true [4095], .personaEpoch 0 0 [],
   .frame 0 0 [], .personaEarlyEnd 0 0, .dataAreaApply 0 [[[]]], .regionIsolation 0 0, .regionClockRelease 0 0 [], .outputInstant 0 0 0 0,
   .triggerAccept 0 0 0 true, .loopOverload 0 0, .flushInterval 0 0, .queueStalled 0 0, .msixMessage 0 0, .dacUpdate 0 0,
   .dacBusCapture 0 0 0 true, .dacSenseOpen 0 0 0, .fabricContention 0 38208 0, .scratchpadFabricRequest 0 0 0 0 0 0 0, .scrubWriteback 0 0,
   .readbackCapture 0 4096 [(2 ^ 64 - 1, 7, [(7, 65535)])], .readbackBlockDone 0 0 0, .sheafToken 0 0, .cellControlEdge 0 1 1023 true, .cellControlEdge 0 2 31 true, .cellControlEdge 0 3 63 true, .cellControlEdge 0 4 127 true, .idacCompliance 0 0 0,
   .matchingRound 0 0 0 0 0 0 [], .crossoverComplete 0 0 0 [], .ainOverrange 0 0 0, .ainOverrangeClear 0 0, .cellFault 0 0 1, .spareWarm 0 0,
   .cellReset 0 0 true, .stolonTestStart 0 0 [5439], .repairDestination 0 0, .repairTakeover 0 0 []]

def wellFormed2 : List Instr :=
  [.stolonTestEnd 0 0 [] [] [] true, .stolonYielded 0 0 1, .arbRecovery 0 0 1, .blockQuarantine 0 0 1, .regionWatchdog 0 0, .regionFailed 0 7,
   .regionReady 0 0 true true, .temperatureReading 0 0 (List.replicate 8 0), .calIntervalDue 0 0 0, .calibrationRunStart 0 0 0 0,
   .calibrationRunEnd 0 0 0 default, .refcalMeasurement 0 [], .keepStoreWrite 0 0 0, .supplyFault 0 0 0, .pinInputChange 0 0 true,
   .portStatus 0 0, .portTx 0 0 0, .portByteReceived 0 0 0 true, .portByteSent 0 0 true true, .huskAlarm 0 0 0, .tamperLatch 0 0,
   .linkTrained 0 0 0]

theorem test_wf_accepts : (wellFormed0 ++ wellFormed1 ++ wellFormed2).all Instr.wf = true := by decide +kernel

/-- An ill-formed command for each condition of each arm. -/
def illFormed0 : List Instr :=
  [.nop { okDesc with queue := 16 }, .graphPlace { okDesc with queue := 16 } [], .graphTune { okDesc with queue := 16 } [] [],
   .graphTune okDesc [] [2 ^ 32], .graphPin { okDesc with queue := 16 } [],
   .transplant { okDesc with queue := 16 }, .attest { okDesc with queue := 16 } [], .keyProvision { okDesc with queue := 16 } [] default,
   .alarmPolicy { okDesc with queue := 16 } [] default true,
   .memAtomic { okDesc with queue := 16 } true 0, .memAtomic okDesc true 3, .partition (2 ^ 64) 0, .partition 0 4096,
   .cellSelection (2 ^ 64) 0, .cellSelection 0 4096, .buildAndMeasure (2 ^ 64) 0 [], .buildAndMeasure 0 4096 [],
   .buildAndMeasure 0 0 [[0], [2 ^ 32]], .evaluate (2 ^ 64) 0, .evaluate 0 4096, .halt (2 ^ 64) 0 4, .halt 0 0 3,
   .submissionTail (2 ^ 64) 0 0 4, .submissionTail 0 16 0 4, .submissionTail 0 0 0 3, .bufferRingTail (2 ^ 64) 0 0 4 [],
   .bufferRingTail 0 64 0 4 [], .bufferRingTail 0 0 0 3 [], .bufferRingTail 0 0 0 4 [[]], .eventRingHead (2 ^ 64) 0 0 4,
   .eventRingHead 0 64 0 4, .eventRingHead 0 0 0 3, .spiWriteRingArea (2 ^ 64) 0 [], .spiWriteRingArea 0 0x200000 [],
   .spiReadRingArea (2 ^ 64) 0 0, .spiReadRingArea 0 0x200000 0]

def illFormed1 : List Instr :=
  [.spiReadRingArea 0 0 2097153, .spiWriteSetupRegister (2 ^ 64) 0 0, .spiWriteSetupRegister 0 0x10000 0, .spiWriteDoorbell (2 ^ 64) 0 [],
   .spiWriteDoorbell 0 (2 ^ 24) [], .spiWriteDoorbell 0 0 (List.replicate 9 0), .registerWrite (2 ^ 64) 0 0 4, .registerWrite 0 0x10000 0 4,
   .registerWrite 0 0 0 3, .spiReadClearPending (2 ^ 64), .cfgLoad (2 ^ 64) 0 [], .cfgLoad 0 (2 ^ 32) [], .programFallback (2 ^ 64) 0 [],
   .programFallback 0 (2 ^ 32) [], .cfgReadback (2 ^ 64) 0 0 0, .cfgReadback 0 256 0 0, .cfgReadback 0 0 65536 0,
   .cfgReadback 0 0 0 (2 ^ 64), .bypass (2 ^ 64) 0, .bypass 0 256, .warmReset (2 ^ 64) 0, .cqEnable (2 ^ 64) 0 0, .cqEnable 0 16 0,
   .dsEnable (2 ^ 64) 0 0, .dsEnable 0 64 0, .upllEnable (2 ^ 64) 0 0, .upllEnable 0 4 0, .upllLock (2 ^ 64) 0, .upllLock 0 4,
   .gckSetup (2 ^ 64) 0 true 0, .gckSetup 0 8 true 0, .gckLoss (2 ^ 64) 0 0, .gckLoss 0 8 0, .cmpLoWrite (2 ^ 64) 0 0, .cmpLoWrite 0 64 0,
   .timebaseCompare (2 ^ 64) 0, .timebaseCompare 0 64, .cmpDisarm (2 ^ 64) 0 0, .cmpDisarm 0 2 0, .ulEnable (2 ^ 64) 0 0]

def illFormed2 : List Instr :=
  [.ulEnable 0 8 0, .ulTxBlock (2 ^ 64) 0 0 true, .ulTxBlock 0 8 0 true, .ulRxOverflow (2 ^ 64) 0, .ulRxOverflow 0 8,
   .pinBankVccio (2 ^ 64) 0 0, .pinBankVccio 0 12 0, .bankSupplyFault (2 ^ 64) 0 0, .bankSupplyFault 0 12 0,
   .bankSupplyRestored (2 ^ 64) 0 0, .bankSupplyRestored 0 12 0, .pinDiff (2 ^ 64) 0 0, .pinDiff 0 4 0, .por (2 ^ 64) true true true,
   .resetN (2 ^ 64) 0, .pllLock (2 ^ 64) 0 true, .pllLock 0 (2 ^ 32) true, .selfTest (2 ^ 64) 0 (List.replicate 12 0) true true,
   .selfTest 0 1 (List.replicate 12 0) true true, .selfTest 0 0 (List.replicate 13 0) true true, .personaSlotTry (2 ^ 64) [],
   .signatureVerified (2 ^ 64) 0 true true [], .signatureVerified 0 9 true true [],
   .signatureVerified 0 0 true true [4096], .personaEpoch (2 ^ 64) 0 [], .personaEpoch 0 9 [], .frame (2 ^ 64) 0 [], .frame 0 9 [], .personaEarlyEnd (2 ^ 64) 0,
   .personaEarlyEnd 0 9, .dataAreaApply (2 ^ 64) [],
   .dataAreaApply 0 [[[2 ^ 32]]],
   .regionIsolation (2 ^ 64) 0, .regionIsolation 0 8, .regionClockRelease (2 ^ 64) 0 [], .regionClockRelease 0 8 [],
   .regionClockRelease 0 0 [[[2 ^ 32]]],
   .outputInstant (2 ^ 64) 0 0 0, .outputInstant 0 192 0 0]

def illFormed3 : List Instr :=
  [.triggerAccept (2 ^ 64) 0 0 true, .triggerAccept 0 256 0 true, .triggerAccept 0 0 (2 ^ 16) true, .loopOverload (2 ^ 64) 0,
   .loopOverload 0 192, .flushInterval (2 ^ 64) 0, .flushInterval 0 64, .queueStalled (2 ^ 64) 0, .queueStalled 0 16,
   .msixMessage (2 ^ 64) 0, .msixMessage 0 64, .dacUpdate (2 ^ 64) 0, .dacUpdate 0 64, .dacBusCapture (2 ^ 64) 0 0 true,
   .dacBusCapture 0 64 0 true, .dacBusCapture 0 0 (2 ^ 20) true, .dacSenseOpen (2 ^ 64) 0 0, .dacSenseOpen 0 64 0,
   .fabricContention (2 ^ 64) 38208 0, .fabricContention 0 38207 0, .fabricContention 0 49152 0, .fabricContention 0 38208 8,
   .scratchpadFabricRequest (2 ^ 64) 0 0 0 0 0 0, .scratchpadFabricRequest 0 64 0 0 0 0 0, .scratchpadFabricRequest 0 0 8 0 0 0 0,
   .scratchpadFabricRequest 0 0 0 (2 ^ 15) 0 0 0, .scratchpadFabricRequest 0 0 0 0 16 0 0, .scratchpadFabricRequest 0 0 0 0 0 0 3,
   .scrubWriteback (2 ^ 64) 0, .scrubWriteback 0 64, .readbackCapture (2 ^ 64) 0 [], .readbackCapture 0 4097 [],
   .readbackCapture 0 0 [(2 ^ 64, 0, [])], .readbackCapture 0 0 [(0, 8, [])], .readbackCapture 0 0 [(0, 0, [(8, 0)])],
   .readbackCapture 0 0 [(0, 0, [(0, 65536)])], .readbackBlockDone (2 ^ 64) 0 0, .readbackBlockDone 0 4097 0,
   .readbackBlockDone 0 0 64, .sheafToken (2 ^ 64) 0, .sheafToken 0 417, .cellControlEdge (2 ^ 64) 1 0 true]

def illFormed4 : List Instr :=
  [.cellControlEdge 0 0 0 true, .cellControlEdge 0 5 0 true, .cellControlEdge 0 1 1024 true, .cellControlEdge 0 2 32 true,
   .cellControlEdge 0 3 64 true, .cellControlEdge 0 4 128 true, .idacCompliance (2 ^ 64) 0 0, .idacCompliance 0 4096 0,
   .idacCompliance 0 0 256, .matchingRound (2 ^ 64) 0 0 0 0 0 [], .matchingRound 0 4096 0 0 0 0 [], .matchingRound 0 0 256 0 0 0 [],
   .crossoverComplete (2 ^ 64) 0 0 [], .crossoverComplete 0 4096 0 [], .crossoverComplete 0 0 256 [], .crossoverComplete 0 0 0 [2 ^ 32],
   .ainOverrange (2 ^ 64) 0 0, .ainOverrange 0 128 0, .ainOverrange 0 0 2, .ainOverrangeClear (2 ^ 64) 0, .ainOverrangeClear 0 128,
   .cellFault (2 ^ 64) 0 1, .cellFault 0 1024 1, .cellFault 0 0 0, .cellFault 0 0 6, .spareWarm (2 ^ 64) 0, .spareWarm 0 1024,
   .cellReset (2 ^ 64) 0 true, .cellReset 0 1024 true, .repairDestination (2 ^ 64) 0, .repairDestination 0 8, .stolonTestStart (2 ^ 64) 0 [], .stolonTestStart 0 8 [],
   .stolonTestStart 0 0 [5440], .repairTakeover (2 ^ 64) 0 [], .repairTakeover 0 8 [],
   .repairTakeover 0 0 [2 ^ 32], .stolonTestEnd (2 ^ 64) 0 [] [] [] true, .stolonTestEnd 0 8 [] [] [] true,
   .stolonTestEnd 0 0 [256] [] [] true, .stolonTestEnd 0 0 [] [4096] [] true, .stolonTestEnd 0 0 [] [] [256] true, .stolonYielded (2 ^ 64) 0 1, .stolonYielded 0 8 1, .stolonYielded 0 0 0]

def illFormed5 : List Instr :=
  [.stolonYielded 0 0 5, .arbRecovery (2 ^ 64) 0 1, .arbRecovery 0 64 1, .arbRecovery 0 0 0, .arbRecovery 0 0 4,
   .blockQuarantine (2 ^ 64) 0 1, .blockQuarantine 0 64 1, .blockQuarantine 0 0 0, .blockQuarantine 0 0 3,
   .regionWatchdog (2 ^ 64) 0, .regionWatchdog 0 8, .regionFailed (2 ^ 64) 0, .regionFailed 0 8, .regionReady (2 ^ 64) 0 true true, .regionReady 0 8 true true,
   .temperatureReading (2 ^ 64) 0 (List.replicate 8 0), .temperatureReading 0 8 (List.replicate 8 0),
   .temperatureReading 0 0 (List.replicate 9 0),
   .calIntervalDue (2 ^ 64) 0 0, .calIntervalDue 0 3 0, .calIntervalDue 0 0 1024, .calIntervalDue 0 1 192, .calIntervalDue 0 2 64,
   .calibrationRunStart (2 ^ 64) 0 0 0, .calibrationRunStart 0 8 0 0, .calibrationRunStart 0 0 3 0, .calibrationRunStart 0 0 0 1024,
   .calibrationRunStart 0 0 1 192, .calibrationRunStart 0 0 2 64, .calibrationRunEnd (2 ^ 64) 0 0 default, .calibrationRunEnd 0 3 0 default,
   .calibrationRunEnd 0 0 1024 default, .calibrationRunEnd 0 1 192 default, .calibrationRunEnd 0 2 64 default,
   .refcalMeasurement (2 ^ 64) [], .refcalMeasurement 0 (List.replicate 9 default), .keepStoreWrite (2 ^ 64) 0 0, .keepStoreWrite 0 8 0,
   .supplyFault (2 ^ 64) 0 0]

def illFormed6 : List Instr :=
  [.supplyFault 0 3 0, .pinInputChange (2 ^ 64) 0 true, .pinInputChange 0 192 true, .portStatus (2 ^ 64) 0, .portStatus 0 6,
   .portTx (2 ^ 64) 0 0, .portTx 0 6 0, .portTx 0 0 (2 ^ 16), .portByteReceived (2 ^ 64) 0 0 true, .portByteReceived 0 6 0 true,
   .portByteReceived 0 0 256 true, .portByteSent (2 ^ 64) 0 true true, .portByteSent 0 6 true true, .huskAlarm (2 ^ 64) 0 0,
   .huskAlarm 0 8 0, .huskAlarm 0 0 (2 ^ 16), .tamperLatch (2 ^ 64) 0, .tamperLatch 0 8, .linkTrained (2 ^ 64) 0 0, .linkTrained 0 8 0,
   .linkTrained 0 0 32]

theorem test_wf_refuses : (illFormed0 ++ illFormed1 ++ illFormed2 ++ illFormed3 ++ illFormed4 ++ illFormed5 ++ illFormed6).all (!·.wf) = true := by decide +kernel

/-- The table gives no row bits, so no word spells a command. -/
theorem test_no_word_spells : decodeTableWord 64 0 = none ∧ State.reset.withFetchWord 64 0 = State.reset := ⟨rfl, rfl⟩

/-! ### The spec's worked examples -/

/-- Rows 1,638 and 1,639 of the sine table and the DDS of DA12, 100 us after its start (07_outputs_dds.md, the example after R185). -/
theorem test_sine_table : sineTable 1638 = 308103 ∧ sineTable 1639 = 308266 := by
  constructor <;> simp [sineTable, sinSeries, piFix]

theorem test_dds_code :
    ({ running := true, ref := 0, phase := 0, ftw := 1125899907, amp := 524287, offset := 0 } : Dds).acc 25000 = 28147497675000 ∧
    sine 28147497675000 = 308168 := by
  constructor
  · decide +kernel
  · simp [sine, bits, test_sine_table]

/-- The system calibration of PM41 (05_precision_conversion.md, the example at the end of system calibration): the offset for the gain
it holds, and the readings. -/
theorem test_syscal_offset : roundTie (0 * 2 ^ 30 * 1000 - 1024756711 * 13108900000) (2 ^ 30 * 1000) = -12510860 := by decide +kernel

theorem test_syscal_half :
    let v : Conv := { sys := [{ entry := 16, gcode := 1, gain := 1024756711, offset := -12510860, owner := 0x1A, conv := 41 }] }
    (v.system 16 1 1060910600 - 1000000000).natAbs ≤ 1 ∧ (v.system 16 1 2108712300 - 2000000000).natAbs ≤ 1 ∧ (v.system 16 1 13108900).natAbs ≤ 1 := by
  decide +kernel

/-- Settling of the vibration channel on WM003 (06_wideband_conversion.md, its example): 13 samples after the configuration,
574 after the tune of its notch, whose analogue settle is 4.4 Q / fc. -/
theorem test_settling :
    let e : SeqStep := readStep 67 [0x10, 1, 8, 0, 0xFF, 0xFF, 0, 0] 0
    settleCount 67 e (gainSettle 67 1, 1) = 13 ∧ settleCount 67 e (44 * 5 * 250000000, 10 * 2450) = 574 := by decide +kernel

/-- The bridge-sensor chain (03_tiller_placement.md, Worked placements): its image of 304 bytes. -/
def bridge : Bytes := fill 304 [(0, 4, 0x47524C54), (4, 2, 1), (6, 2, 64), (8, 1, 2), (10, 2, 3), (12, 2, 5), (20, 4, 304), (24, 4, 64), (28, 4, 128), (32, 4, 224),
  (42, 1, 255), (64, 1, 3), (68, 4, 0x43FA0000), (96, 1, 4), (99, 1, 1), (100, 4, 0x41200000), (104, 4, 0x3F3504F3), (108, 4, 0x3F800000),
  (129, 1, 1), (130, 1, 0x53), (131, 1, 1), (160, 1, 1), (163, 1, 1), (168, 2, 0x0100), (192, 1, 2), (194, 1, 1), (195, 1, 1), (200, 2, 0x4029),
  (225, 1, 1), (227, 1, 1), (228, 4, 0x41100000), (236, 1, 1), (241, 1, 2), (243, 1, 1), (244, 4, 0x3F800000), (252, 1, 1), (257, 1, 12), (258, 1, 2),
  (272, 1, 1), (273, 1, 6), (275, 1, 1), (276, 4, 0x3DCCCCCD), (284, 1, 1), (288, 1, 1), (289, 1, 12), (290, 1, 2)]
def bridgeIna : Prim := { ty := 3, mode := 0, flags := 0, par := [0x43FA0000, 0, 0, 0, 0, 0, 0], c0 := 672, c1 := 673, bias := 913 }
def bridgeBiq : Prim := { ty := 4, mode := 0, flags := 0, par := [0x41200000, 0x3F3504F3, 0x3F800000, 0, 0, 0, 0], c0 := 674, c1 := 675, bias := 15 }

/-- Its records, the first load of each net, and its specification records. -/
theorem test_bridge_image :
    (match parseGraph bridge 304 272 with
     | .ok g => decide (g.prims.map (fun p => (p.ty, p.mode, p.par)) = [(bridgeIna.ty, 0, bridgeIna.par), (bridgeBiq.ty, 0, bridgeBiq.par)]) &&
       decide (g.nets.map (fun n => (n.drvKind, n.drv, n.loads)) = [(1, 0x53, [0]), (0, 0, [0x0100]), (0, 1, [0x4029])]) &&
       decide (g.specs.map (fun r => (r.prim, r.code, r.kind, r.cond)) = [(0, 1, 0, 1), (0, 2, 0, 1), (0, 12, 2, 0), (1, 6, 0, 1), (1, 12, 2, 0)])
     | .error _ => false) = true := by decide +kernel

/-- Its report needs 272 bytes; the INA is chopped at 384 kHz, code 5, the BIQ at 24 kHz, code 1, with n = 11; their powers. -/
theorem test_bridge_report : reportLen 2 5 3 = 272 ∧ scExponent bridgeBiq = 11 ∧
    primPower bridgeIna / 256 = 11138 ∧ (primPower bridgeBiq + 128) / 256 = 1492 := by decide +kernel

/-- Ledger entry 32257, e = 1 of AC0672 (03_tiller_placement.md, the example after R92). -/
theorem test_ledger_word :
    let l : Led := { state := 1, owner := 0x1A, ownerValid := true, health := 244, rank := 49, tested := some 100, detail := 2 ^ 17 + 3 * 128 + 126 }
    ({ State.reset with time := { State.reset.time with timebase := 100 + 7 * 15000000000 }, til := { State.reset.til with ledger := [(32257, some l)] } }).ledWord 32257 =
      0x406BD00C41C601FE := by decide +kernel

/-- Straw's line for pair 83 at 1.4 s (14_startup_defaults.md, the example of R407). -/
theorem test_straw_line : strawLine 83 6472650 0 350000000 = ascii "AIN083 +0.0123456 00 000000001400" ++ [13, 10] := by decide +kernel

/-- HOST_CQCTL of the example of 18_setup_registers.md, and the same with a misaligned base. -/
def cqWritten (base : Nat) : State :=
  [(0x440, base), (0x444, 0), (0x448, 0x10000), (0x44C, 0), (0x450, 0x00018801)].foldl (fun (s : State) w => s.regWrite w.1 w.2) { State.reset with time := { State.reset.time with step := 10 } }

theorem test_cqctl : ((cqWritten 0x8000).regRead 0x450).2 = 0x00018801 ∧ ((cqWritten 0x8008).regRead 0x450).2 = 0x00018802 := by decide +kernel

/-- The check value of CRC-32C (13_personas.md R366 names the polynomial, the bit order and the initial and final values). -/
theorem test_crc32c : crc32c ([0x31, 0x32, 0x33, 0x34, 0x35, 0x36, 0x37, 0x38, 0x39] : Bytes) = 0xE3069283 := by decide +kernel

/-- SHA-384 of no bytes and of "abc" (FIPS 180-4). -/
theorem test_sha384 : sha384 [] = noBytes ∧ sha384 (ascii "abc") =
    toBE 48 0xCB00753F45A35E8BB5A03D699AC65007272C32AB0EDED1631A8B605A43FF5BED8086072BA1E7CC2358BAECA134C825A7 := by decide +kernel

/-- AES-256-GCM: test case 13 of the algorithm's own specification. -/
theorem test_gcm : gcmTag (zeros 32) (zeros 12) [] [] = toBE 16 0x530F8AFBC74536B9A963B4F1C4CB738B := by decide +kernel

/-- A look-up table in both modes, and the carry logic (09_fabric_memory.md R240, R242). -/
theorem test_logic : lutIndex (· == 5) = 32 ∧ lutFa (2 ^ 37) false 37 = true ∧ lutFb (2 ^ 37) false 37 = true ∧ lutFa (2 ^ 37) true 37 = false ∧
    lutFb (2 ^ 37) true 37 = true ∧ carrySum true true = false ∧ carryOut true false true = true ∧ carryOut false true false = true := by decide +kernel

/-! ### The hypotheses of the statements can be met -/

theorem meets_StepRunsTheFrontCommand :
    (∃ (c : Instr) (s : State) (rest : _), s.pending = c :: rest) :=
  ⟨.idcode 0, { ready with pending := [.idcode 0] }, [], by decide +kernel⟩

theorem meets_EmptyQueueTicks :
    (∃ (s : State), s.pending = [] ∧ s.time.running = true ∧ s.time.timebase + 1 < 2 ^ 64) ∧
    (∃ (s : State), s.pending = [] ∧ s.time.running = false) :=
  ⟨⟨ready, by decide +kernel⟩,
   ⟨State.reset, by decide +kernel⟩⟩

theorem meets_EveryStepKeepsLegal :
    (∃ (s : State) (t : State), Legal s ∧ step s = .next t) :=
  ⟨State.reset, State.reset, by unfold Legal; exact ⟨by decide +kernel, rfl⟩⟩

theorem meets_StepTakesOnlyTheFront :
    (∃ (s : State) (t : State), step s = .next t) :=
  ⟨State.reset, State.reset, by rfl⟩

theorem meets_CommandsNeverRefused : (∃ (c : Instr), c.wf = true) := ⟨.nop okDesc, by decide +kernel⟩

theorem meets_AbsentUnitsFault :
    (∃ (d : Desc), 16 ≤ d.queue) ∧
    (∃ (x : Nat), 16 ≤ x) ∧
    (∃ (x : Nat), 192 ≤ x) ∧
    (∃ (x : Nat), 64 ≤ x) ∧
    (∃ (x : Nat), 8 ≤ x) ∧
    (∃ (x : Nat), 4 ≤ x) ∧
    (∃ (x : Nat), 12 ≤ x) ∧
    (∃ (x : Nat), 6 ≤ x) :=
  ⟨⟨{ cmd 1 [] with queue := 16 }, by decide +kernel⟩,
   ⟨16, by decide +kernel⟩,
   ⟨192, by decide +kernel⟩,
   ⟨64, by decide +kernel⟩,
   ⟨8, by decide +kernel⟩,
   ⟨4, by decide +kernel⟩,
   ⟨12, by decide +kernel⟩,
   ⟨6, by decide +kernel⟩⟩

theorem meets_RejectionsOfEveryCommand :
    (∃ (s : State) (d : Desc), (s.at d.t).mayDispatch (s.atDesc d) = false) ∧
    (∃ (s : State) (d : Desc), (s.at d.t).mayDispatch (s.atDesc d) = true ∧ (opcodes.any fun e => e.1 == (s.atDesc d).opcode) = false) ∧
    (∃ (s : State) (op : Nat) (d : Desc) (o : _), (s.at d.t).mayDispatch (s.atDesc d) = true ∧ (s.atDesc d).opcode = op ∧
        (opcodes.any fun e => e.1 == op) = true ∧ (s.at d.t).descBad (s.atDesc d) (argLen op) = some o) ∧
    (∃ (s : State) (op : Nat) (d : Desc) (bad : Bytes → Option Nat) (a : Bytes) (o : _), Judged s op d a ∧ (opcodes.any fun e => e.1 == op) = true ∧
        bad a = some o) ∧
    (∃ (s : State) (op : Nat) (d : Desc) (bad : Bytes → Option Nat) (a : Bytes), Judged s op d a ∧ (opcodes.any fun e => e.1 == op) = true ∧
        bad a = none ∧ (s.at d.t).busyFor op a = true) ∧
    (∃ (s : State) (op : Nat) (d : Desc) (bad : Bytes → Option Nat) (pre : State → Bytes → Option Nat) (a : Bytes) (st : _), Judged s op d a ∧
        (opcodes.any fun e => e.1 == op) = true ∧ bad a = none ∧ (s.at d.t).busyFor op a = false ∧ pre (s.consumed d) a = some st) ∧
    (∃ (s : State) (op : Nat) (d : Desc) (bad : Bytes → Option Nat) (pre : State → Bytes → Option Nat) (a : Bytes), Judged s op d a ∧
        (opcodes.any fun e => e.1 == op) = true ∧ bad a = none ∧ (s.at d.t).busyFor op a = false ∧ pre (s.consumed d) a = none ∧
        s.chip.freeSlots = []) ∧
    (∃ (s : State) (op : Nat) (d : Desc) (bad : Bytes → Option Nat) (pre : State → Bytes → Option Nat) (a : Bytes) (slot : Nat) (rest : _),
        Judged s op d a ∧ (opcodes.any fun e => e.1 == op) = true ∧ bad a = none ∧ (s.at d.t).busyFor op a = false ∧ pre (s.consumed d) a = none ∧
        s.chip.freeSlots = slot :: rest ∧ s.husk.halted = false) :=
  ⟨⟨State.reset, cmd 1 (fill 8 []), by decide +kernel⟩,
   ⟨ready, cmd 3 (fill 8 []), by decide +kernel⟩,
   ⟨ready, 1, { cmd 1 (fill 8 []) with flags := 256 + 8 }, 3, by decide +kernel⟩,
   ⟨ready, 1, cmd 1 (fill 8 []), fun _ => some 4, (fill 8 []), 4, by unfold Judged; decide +kernel⟩,
   ⟨{ ready with time := { ready.time with done := false } }, 0x0100, cmd 0x0100 (fill 32 []), fun _ => none, (fill 32 []),
        by unfold Judged; decide +kernel⟩,
   ⟨ready, 1, cmd 1 (fill 8 []), fun _ => none, fun _ _ => some 0x13, (fill 8 []), 0x13, by unfold Judged; decide +kernel⟩,
   ⟨{ ready with chip := { ready.chip with freeSlots := [] } }, 1, cmd 1 (fill 8 []), fun _ => none, fun _ _ => none, (fill 8 []),
        by unfold Judged; decide +kernel⟩,
   ⟨ready, 1, cmd 1 (fill 8 []), fun _ => none, fun _ _ => none, (fill 8 []), 0, [1, 2], by unfold Judged; decide +kernel⟩⟩

theorem meets_BusyDuringPersonaLoad :
    (∃ (s : State) (op : Nat) (d : Desc) (bad : Bytes → Option Nat) (a : Bytes) (e : _), Judged s op d a ∧ (opcodes.any fun e => e.1 == op) = true ∧
        bad a = none ∧ e ∈ s.inFlight ∧ e.2.opcode = 0x0600 ∧ s.time.selftestFail = false ∧ op ≠ 0x0001 ∧ op ≠ 0x0002 ∧ op ≠ 0x0105 ∧ op ≠ 0x0700 ∧
        op ≠ 0x0701 ∧ op ≠ 0x0800 ∧ op ≠ 0x0F00) ∧
    (∃ (s : State) (op : Nat) (d : Desc) (bad : Bytes → Option Nat) (a : Bytes) (e : _), Judged s op d a ∧ (opcodes.any fun e => e.1 == op) = true ∧
        bad a = none ∧ e ∈ s.inFlight ∧ e.2.opcode = 0x0600 ∧ s.time.selftestFail = false ∧
        (op = 0x0001 ∨ op = 0x0002 ∨ op = 0x0105 ∨ op = 0x0700 ∨ op = 0x0701 ∨ op = 0x0800 ∨ op = 0x0F00)) ∧
    (∃ (s : State) (d : Desc), d.queue < 16 ∧ (s.atDesc d).opcode = 0x0600 ∧ s.inFlight ≠ []) :=
  ⟨⟨{ ready with chip := { ready.chip with handles := [(5, { st := 1, opcode := 0x0600 })] } }, 0x0100, cmd 0x0100 (fill 32 []), fun _ => none,
        (fill 32 []), (5, { st := 1, opcode := 0x0600 }), by unfold Judged; decide +kernel⟩,
   ⟨{ ready with chip := { ready.chip with handles := [(5, { st := 1, opcode := 0x0600 })] } }, 0x0F00, cmd 0x0F00 (fill 8 []), fun _ => none,
        (fill 8 []), (5, { st := 1, opcode := 0x0600 }), by unfold Judged; decide +kernel⟩,
   ⟨{ ready with chip := { ready.chip with handles := [(5, { st := 1, opcode := 0x0600 })] } }, cmd 0x0600 (fill 16 []), by decide +kernel⟩⟩

theorem meets_LockedInAlarm :
    (∃ (s : State) (op : Nat) (d : Desc) (bad : Bytes → Option Nat) (pre : State → Bytes → Option Nat) (a : Bytes) (slot : Nat) (rest : _),
        Judged s op d a ∧ (opcodes.any fun e => e.1 == op) = true ∧ bad a = none ∧ (s.at d.t).busyFor op a = false ∧ pre (s.consumed d) a = none ∧
        s.chip.freeSlots = slot :: rest ∧ s.husk.halted = true ∧ op ∈ [0x0100, 0x0102, 0x0103, 0x0104, 0x0200, 0x0201, 0x0202, 0x0203, 0x0204,
        0x0205, 0x0300, 0x0301, 0x0302, 0x0304, 0x0500, 0x0600, 0x0601, 0x0602, 0x0900, 0x0901, 0x0A00, 0x0A01, 0x0A02, 0x0801]) ∧
    (∃ (s : State) (op : Nat) (d : Desc) (bad : Bytes → Option Nat) (pre : State → Bytes → Option Nat) (a : Bytes) (slot : Nat) (rest : _),
        Judged s op d a ∧ (opcodes.any fun e => e.1 == op) = true ∧ bad a = none ∧ (s.at d.t).busyFor op a = false ∧ pre (s.consumed d) a = none ∧
        s.chip.freeSlots = slot :: rest ∧ s.husk.halted = true ∧ op ∈ [0x0001, 0x0002, 0x0101, 0x0105, 0x0303, 0x0400, 0x0401, 0x0402, 0x0501,
        0x0700, 0x0701, 0x0702, 0x0800, 0x0802, 0x0F00]) :=
  ⟨⟨{ ready with husk := { ready.husk with halted := true } }, 0x0801, cmd 0x0801 (fill 16 []), fun _ => none, fun _ _ => none, (fill 16 []), 0, [1,
        2], by unfold Judged; decide +kernel⟩,
   ⟨{ ready with husk := { ready.husk with halted := true } }, 0x0F00, cmd 0x0F00 (fill 8 []), fun _ => none, fun _ _ => none, (fill 8 []), 0, [1,
        2], by unfold Judged; decide +kernel⟩⟩

theorem meets_StaleHandlesRejected :
    (∃ (s : State) (d : Desc) (a : Bytes), Judged s 0x0002 d a ∧ firstBad a (rsv 1 1 ++ (if (fld a 8 8 = 0) then rsv 4 4 else [])) = none ∧
        (s.at d.t).busyFor 0x0002 a = false ∧ byteAt a 0 = 1 ∧ s.names (fld a 2 2) = false) ∧
    (∃ (s : State) (d : Desc) (a : Bytes), Judged s 0x0F00 d a ∧ firstBad a (rsv 2 6) = none ∧ (s.at d.t).busyFor 0x0F00 a = false ∧
        s.names (fld a 0 2) = false) ∧
    (∃ (s : State) (d : Desc) (a : Bytes), Judged s 0x0101 d a ∧ firstBad a (rsv 2 6) = none ∧ (s.at d.t).busyFor 0x0101 a = false ∧
        s.names (fld a 0 2) = false) ∧
    (∃ (s : State) (d : Desc) (a : Bytes), Judged s 0x0102 d a ∧
        firstBad a (rsv 2 2 ++ (if (fld a 16 8 = 0) then rsv 24 4 else []) ++ rsv 28 4) = none ∧ (s.at d.t).busyFor 0x0102 a = false ∧
        s.names (fld a 0 2) = false) ∧
    (∃ (s : State) (d : Desc) (a : Bytes), Judged s 0x0103 d a ∧ firstBad a (rsv 3 5) = none ∧ (s.at d.t).busyFor 0x0103 a = false ∧
        s.names (fld a 0 2) = false) ∧
    (∃ (s : State) (d : Desc) (a : Bytes), Judged s 0x0104 d a ∧ firstBad a (rsv 3 1 ++ rsv 6 2 ++ rsv 13 3) = none ∧
        (s.at d.t).busyFor 0x0104 a = false ∧ s.names (fld a 0 2) = false) ∧
    (∃ (s : State) (d : Desc) (a : Bytes), Judged s 0x0501 d a ∧ firstBad a (rsv 2 6) = none ∧ (s.at d.t).busyFor 0x0501 a = false ∧
        s.names (fld a 0 2) = false) ∧
    (∃ (s : State) (d : Desc) (a : Bytes), Judged s 0x0401 d a ∧ byteAt a 0 = 1 ∧ firstBad a (rsv 1 1 ++ rsv 4 12) = none ∧
        (s.at d.t).busyFor 0x0401 a = false ∧ s.names (fld a 2 2) = false) :=
  ⟨⟨ready, cmd 2 (fill 16 [(0, 1, 1)]), fill 16 [(0, 1, 1)], by unfold Judged; decide +kernel⟩,
   ⟨ready, cmd 0x0F00 (fill 8 [(0, 2, 4097)]), fill 8 [(0, 2, 4097)], by unfold Judged; decide +kernel⟩,
   ⟨ready, cmd 0x0101 (fill 8 [(0, 2, 4097)]), fill 8 [(0, 2, 4097)], by unfold Judged; decide +kernel⟩,
   ⟨ready, cmd 0x0102 (fill 32 [(0, 2, 4097), (16, 8, 8), (24, 4, 1)]), fill 32 [(0, 2, 4097), (16, 8, 8), (24, 4, 1)], by unfold Judged; decide +kernel⟩,
   ⟨ready, cmd 0x0103 (fill 16 [(0, 2, 4097)]), fill 16 [(0, 2, 4097)], by unfold Judged; decide +kernel⟩,
   ⟨ready, cmd 0x0104 (fill 16 [(0, 2, 4097)]), fill 16 [(0, 2, 4097)], by unfold Judged; decide +kernel⟩,
   ⟨ready, cmd 0x0501 (fill 8 [(0, 2, 4097)]), fill 8 [(0, 2, 4097)], by unfold Judged; decide +kernel⟩,
   ⟨ready, cmd 0x0401 (fill 48 [(0, 1, 1)]), fill 48 [(0, 1, 1)], by unfold Judged; decide +kernel⟩⟩

theorem meets_HandlesAndSlots :
    (∃ (s : State), Tbl.wf {} s.chip.handles = true) ∧
    (∃ (slot : Nat), slot < 4095) :=
  ⟨⟨ready, by decide +kernel⟩,
   ⟨4094, by decide +kernel⟩⟩

theorem meets_CompletionEntryLayout :
    (∃ (s : State) (q : _) (tag : _) (handle : _) (kind : _) (status : _) (r0 : _) (r1 : _), s.time.localMode = false ∧ q < 256 ∧ tag < 2 ^ 32 ∧
        handle < 2 ^ 16 ∧ kind < 256 ∧ status < 256 ∧ r0 < 2 ^ 64 ∧ r1 < 2 ^ 64 ∧ (s.cq q).sqHead < 4096) ∧
    (∃ (s : State) (slot : Nat), (s.hnd slot).discard = false) ∧
    (∃ (s : State), s.time.localMode = false) :=
  ⟨⟨ready, 15, 2 ^ 32 - 1, 65535, 4, 0x60, 2 ^ 64 - 1, 2 ^ 64 - 1, by decide +kernel⟩,
   ⟨ready, 0, by decide +kernel⟩,
   ⟨ready, by decide +kernel⟩⟩

theorem meets_QueueCountersCount :
    (∃ (s : State) (d : Desc), (s.atDesc d).queue < 16 ∧ Tbl.wf {} s.chip.counters = true) ∧
    (∃ (s : State) (d : Desc), (s.atDesc d).queue < 16 ∧ Tbl.wf {} s.chip.counters = true) :=
  ⟨⟨ready, cmd 1 (fill 8 []), by decide +kernel⟩,
   ⟨ready, cmd 1 (fill 8 []), by decide +kernel⟩⟩

theorem meets_CountersWrapAndSaturate :
    (∃ (s : State) (u : _) (k : _) (n : _), Tbl.wf {} s.chip.counters = true ∧ isErrCtr u k = false ∧ (s.ctr u k).val + n < 2 ^ 48) ∧
    (∃ (s : State) (u : _) (k : _) (n : _), Tbl.wf {} s.chip.counters = true ∧ isErrCtr u k = false ∧ 2 ^ 48 ≤ (s.ctr u k).val + n) ∧
    (∃ (s : State) (u : _) (k : _), Tbl.wf {} s.chip.counters = true ∧ isErrCtr u k = true) ∧
    (∃ (s : State) (u : _) (k : _), Tbl.wf {} s.chip.counters = true ∧ isErrCtr u k = true ∧ (s.ctr u k).flag = true) ∧
    (∃ (s : State) (u : _) (k : _) (n : _), Tbl.wf {} s.chip.counters = true ∧ isErrCtr u k = true ∧ 0 < n ∧ 65535 ≤ (s.ctr u k).val + n) ∧
    (∃ (c : Ctr) (n : _), c.val < 2 ^ 48 ∧ n < 2 ^ 48) :=
  ⟨⟨ready, 0, 0, 2 ^ 48 - 1, by decide +kernel⟩,
   ⟨ready, 0, 0, 2 ^ 48, by decide +kernel⟩,
   ⟨ready, 0, 4, by decide +kernel⟩,
   ⟨{ ready with chip := { ready.chip with counters := [(4, { flag := true })] } }, 0, 4, by decide +kernel⟩,
   ⟨ready, 0, 4, 65535, by decide +kernel⟩,
   ⟨{ val := 2 ^ 48 - 1 }, 2 ^ 48 - 1, by decide +kernel⟩⟩

theorem meets_LogKeepsTheNewest :
    (∃ (s : State), s.chip.log.length < 8192) ∧
    (∃ (s : State), s.chip.log.length = 8192 ∧ s.chip.drained = 0 ∧ Tbl.wf {} s.chip.counters = true) ∧
    (∃ (s : State), s.chip.log.length = 8192 ∧ 0 < s.chip.drained) ∧
    (∃ (s : State), s.chip.failed = true) ∧
    (∃ (s : State), s.chip.failed = false ∧ s.chip.restarting = true ∧ s.chip.heldLog.length < 256) :=
  ⟨⟨ready, by decide +kernel⟩,
   ⟨{ ready with chip := { ready.chip with drained := 0, log := List.replicate 8192 (wrapEntry 0 0 0) } }, by decide +kernel⟩,
   ⟨{ ready with chip := { ready.chip with drained := 1, log := List.replicate 8192 (wrapEntry 0 0 0) } }, by decide +kernel⟩,
   ⟨{ ready with chip := { ready.chip with failed := true } }, by decide +kernel⟩,
   ⟨{ ready with chip := { ready.chip with restarting := true } }, by decide +kernel⟩⟩

theorem meets_ManagementEventsHeld :
    (∃ (s : State), s.host.me.enable = true ∧ s.host.me.full = true ∧ s.host.me.held.length < 64) ∧
    (∃ (s : State), s.host.me.enable = true ∧ s.host.me.held.length = 64) ∧
    (∃ (s : State), s.time.localMode = false) ∧
    (∃ (s : State) (e : LogEntry), e.raised = true ∧ Tbl.wf {} s.chip.counters = true) :=
  ⟨⟨{ ready with host := { ready.host with me := { enable := true, size := 4, tail := 15, held := List.replicate 63 (wrapEntry 0 0 0) } } },
        by decide +kernel⟩,
   ⟨{ ready with host := { ready.host with me := { enable := true, size := 4, tail := 15, held := List.replicate 64 (wrapEntry 0 0 0) } } },
        by decide +kernel⟩,
   ⟨ready, by decide +kernel⟩,
   ⟨ready, wrapEntry 0 0 0, by decide +kernel⟩⟩

theorem meets_MemCopyWritesItsBytesOnly :
    (∃ (s : State) (d : Desc) (data : Bytes) (granted : Nat) (slot : Nat) (a : Bytes), Admits s 0x0A00 d slot a ∧ fld a 0 8 % 4 = 0 ∧
        (fld a 8 4) % 4 = 0 ∧ (fld a 12 4) % 4 = 0 ∧ s.time.localMode = false ∧ (fld a 12 4) ≠ 0 ∧ (fld a 8 4) + (fld a 12 4) ≤ 2097152 ∧
        (fld a 12 4) ≤ 4 * granted ∧ Tbl.wf 0 s.fab.spad = true ∧ data.length = (fld a 12 4) ∧ (∀ e ∈ s.inFlight, ∀ x y z, e.2.work ≠ .mem x y z) ∧
        (∀ b, (fld a 8 4) / 32768 ≤ b → 32768 * b < (fld a 8 4) + (fld a 12 4) → (s.block b).quarantined = false ∧ (s.block b).stopped = false)) ∧
    (∃ (s : State) (d : Desc) (slot : Nat) (a : Bytes), Admits s 0x0A02 d slot a ∧ firstBad a (rsv 1 3 ++ rsv 12 4) = none ∧ byteAt a 0 ≤ 1 ∧
        (fld a 4 4) % 4 = 0 ∧ (fld a 4 4) + 4 ≤ 2097152 ∧ (∀ e ∈ s.inFlight, ∀ x y z, e.2.work ≠ .mem x y z) ∧ s.time.localMode = false ∧
        (s.block ((fld a 4 4) / 32768)).quarantined = false ∧ (s.block ((fld a 4 4) / 32768)).stopped = false) :=
  ⟨⟨ready, cmd 0x0A00 (fill 16 [(0, 8, 4096), (8, 4, 2097148), (12, 4, 4)]), [1, 2, 3, 4], 1, 0, fill 16 [(0, 8, 4096), (8, 4, 2097148), (12, 4, 4)],
        by unfold Admits; decide +kernel, by decide +kernel, by decide +kernel, by decide +kernel, rfl, by decide +kernel, by decide +kernel,
        by decide +kernel, rfl, by decide +kernel, by simp [ready, State.inFlight, State.reset], fun b _ _ => ⟨rfl, rfl⟩⟩,
   ⟨ready, cmd 0x0A02 (fill 16 [(0, 1, 1), (4, 4, 2097148)]), 0, fill 16 [(0, 1, 1), (4, 4, 2097148)], by unfold Admits; decide +kernel,
        by decide +kernel, by decide +kernel, by decide +kernel, by decide +kernel, by simp [ready, State.inFlight, State.reset], rfl, rfl, rfl⟩⟩

theorem meets_NopCompletesAndChangesNothing :
    (∃ (s : State) (d : Desc) (a : Bytes) (o : _), Judged s 0x0001 d a ∧ firstBad a (rsv 4 4) = some o) ∧
    (∃ (s : State) (d : Desc) (slot : Nat) (a : Bytes), Admits s 0x0001 d slot a ∧ firstBad a (rsv 4 4) = none ∧ 1000000 < fld a 0 4) ∧
    (∃ (s : State) (d : Desc) (slot : Nat) (a : Bytes), Admits s 0x0001 d slot a ∧ firstBad a (rsv 4 4) = none ∧ fld a 0 4 ≤ 1000000) ∧
    (∃ (s : State) (t : Nat) (slot : Nat) (due : _), (s.hnd slot).work = .delay due ∧ (s.at t).now < due) ∧
    (∃ (s : State) (t : Nat) (slot : Nat) (due : _), (s.hnd slot).work = .delay due ∧ due ≤ (s.at t).now) ∧
    (∃ (s : State) (u : State) (d : Desc) (t : Nat) (slot : Nat), (exec (.nop d) s = .next u ∨ exec (.nopDelayPassed t slot) s = .next u)) :=
  ⟨⟨ready, cmd 1 (fill 8 [(7, 1, 1)]), (fill 8 [(7, 1, 1)]), 7, by unfold Judged; decide +kernel⟩,
   ⟨ready, cmd 1 (fill 8 [(0, 4, 1000001)]), 0, (fill 8 [(0, 4, 1000001)]), by unfold Admits; decide +kernel⟩,
   ⟨ready, cmd 1 (fill 8 [(0, 4, 1000000)]), 0, (fill 8 [(0, 4, 1000000)]), by unfold Admits; decide +kernel⟩,
   ⟨{ ready with chip := { ready.chip with handles := [(0, { st := 1, work := .delay 1001 })] } }, 1000, 0, 1001, by decide +kernel⟩,
   ⟨{ ready with chip := { ready.chip with handles := [(0, { st := 1, work := .delay 1000 })] } }, 1000, 0, 1000, by decide +kernel⟩,
   ⟨State.reset, State.reset, cmd 1 [], 0, 0, by exact Or.inr rfl⟩⟩

theorem meets_PinDiffWrites :
    (∃ (s : State) (t : Nat) (k : _) (v : Word) (i : _), k < 4 ∧ (s.at t).hostUp = true ∧ i < 8 ∧
        (2 < bits v.toNat (4 * i) 2 ∨ diffInOk (bits v.toNat (4 * i) 2) (s.bank k).vccio = false)) ∧
    (∃ (s : State) (t : Nat) (k : _) (v : Word) (j : _), k < 4 ∧ (s.at t).hostUp = true ∧ Tbl.wf 0 s.pin.diff = true ∧ (∀ i < 8,
        bits v.toNat (4 * i) 2 ≤ 2 ∧ diffInOk (bits v.toNat (4 * i) 2) (s.bank k).vccio = true) ∧ j ≠ k) :=
  ⟨⟨ready, 0, 3, 0x30000000#32, 7, by decide +kernel⟩,
   ⟨ready, 0, 3, 0x11111111#32, 2, by decide +kernel⟩⟩

theorem meets_LocalRingArea :
    (∃ (s : State), s.anyRing = true) ∧
    (∃ (s : State), s.time.localMode = false) ∧
    (∃ (s : State) (t : Nat) (n : _) (k : _), (s.at t).spiUp = true ∧ n < 64 ∧ Tbl.wf {} s.host.msix = true ∧ k ≠ n) :=
  ⟨⟨ready, by decide +kernel⟩,
   ⟨ready, by decide +kernel⟩,
   ⟨{ ready with time := { ready.time with localMode := true } }, 0, 63, 62, by decide +kernel⟩⟩

/-- A load whose body is encrypted under key RAM slot 31. -/
def keyed : Load := { mode := 0, source := 1, imgSlot := 0, stage := 3, hdr := { flags := 2, keySource := 1, keySlot := 31, epochCode := 0, stored := 1 } }

theorem meets_AbsentKeysFailTheFirstEpoch :
    (∃ (s : State) (w : Nat) (l : Load), s.load w = some l ∧ l.stage = 3 ∧ l.encrypted = true ∧ l.epoch = 0 ∧ 0 < l.epochs ∧ ((l.hdr.keySource = 1 ∧
        (Tbl.get none l.hdr.keySlot s.husk.keyRam = none ∨ bit s.husk.keyValid l.hdr.keySlot = false)) ∨ (l.hdr.keySource ≠ 1 ∧
        s.husk.fuses.keyKill ≠ 0))) ∧
    (∃ (s : State) (w : Nat) (stored : Bytes) (l : Load) (k : Bytes), s.load w = some l ∧ l.stage = 3 ∧ l.encrypted = true ∧ l.epoch = 0 ∧
        0 < l.epochs ∧ l.epochGiven = true ∧ s.bodyKey l = some k ∧ gcmOpen (l.nextKey k 0) (l.iv 0) (l.aad 0) stored = none) :=
  ⟨⟨loading 8 keyed, 8, keyed, by decide +kernel⟩,
   ⟨{ loading 8 keyed with husk := { ready.husk with keyValid := 2 ^ 31, keyRam := [(31, some [])], keyCheck := [(31, some (Config.keyCheck []))] } },
        8, [], keyed, [], by decide +kernel, rfl, by decide +kernel, rfl, by decide +kernel, by decide +kernel,
        by (simp [State.bodyKey, State.ramKey, keyed, Tbl.get, bit]; decide +kernel), by decide +kernel⟩⟩

/-- `placed` behind handle 0x1005, as GRAPH_PLACE left it. -/
def holding1 : State := { holding placed with chip := { (holding placed).chip with handles := [(5, { st := 2, gen := 1, kind := 1, opcode := 0x0100 })] } }

theorem meets_GenericCommandsComplete :
    (∃ (s : State) (d : Desc) (slot : Nat) (a : Bytes), Admits s 0x0001 d slot a ∧ firstBad a (rsv 4 4) = none ∧ fld a 0 4 ≤ 1000000) ∧
    (∃ (s : State) (t : Nat) (slot : Nat) (due : _), (s.hnd slot).work = .delay due ∧ due ≤ (s.at t).now) ∧
    (∃ (s : State) (d : Desc) (slot : Nat) (a : Bytes) (b : _) (r0 : _) (r1 : _), Admits s 0x0002 d slot a ∧ firstBad a (rsv 1 1) = none ∧
        byteAt a 0 ≠ 1 ∧ (byteAt a 0 = 2 → fld a 2 2 < 192) ∧ (s.admitted d slot a).queryReply (byteAt a 0) (fld a 2 2) = some (b, r0, r1) ∧
        fld a 8 8 % 8 = 0 ∧ b.length ≤ fld a 4 4 ∧ (s.admitted d slot a).bufOk (fld a 8 8) (fld a 4 4) = true) ∧
    (∃ (s : State) (d : Desc) (slot : Nat) (a : Bytes), Admits s 0x0002 d slot a ∧ firstBad a (rsv 1 1) = none ∧ byteAt a 0 = 1 ∧ fld a 4 4 = 0 ∧
        fld a 8 8 = 0 ∧ (s.consumed d).names (fld a 2 2) = true ∧ ((s.admitted d slot a).hnd (fld a 2 2 % 4096)).st = 1) ∧
    (∃ (s : State) (d : Desc) (slot : Nat) (a : Bytes) (g : Graph), Admits s 0x0002 d slot a ∧ firstBad a (rsv 1 1) = none ∧ byteAt a 0 = 1 ∧
        fld a 8 8 ≠ 0 ∧ fld a 8 8 % 8 = 0 ∧ (s.consumed d).names (fld a 2 2) = true ∧ ((s.admitted d slot a).hnd (fld a 2 2 % 4096)).st = 2 ∧
        ((s.admitted d slot a).hnd (fld a 2 2 % 4096)).kind = 1 ∧ ((s.admitted d slot a).hnd (fld a 2 2 % 4096)).opcode = 0x0100 ∧
        ((s.admitted d slot a).hnd (fld a 2 2 % 4096)).queue < 16 ∧ (s.admitted d slot a).graph (fld a 2 2 % 4096) = some g ∧
        (reportBytes ({ (s.admitted d slot a).evaluate g with outcome := outcomeOf ((s.admitted d slot a).evaluate g), temp := (s.admitted d slot a).graphTemp g }) (((s.admitted d slot a).hnd (fld a 2 2 % 4096)).value (fld a 2 2 % 4096)) false).length ≤ fld a 4 4 ∧
        (s.admitted d slot a).bufOk (fld a 8 8) (fld a 4 4) = true) ∧
    (∃ (s : State) (d : Desc) (slot : Nat) (a : Bytes), Admits s 0x0701 d slot a ∧ firstBad a ((0, 0xFE) :: rsv 1 3) = none ∧ 1 ≤ fld a 4 4 ∧
        fld a 4 4 ≤ 8192 ∧ fld a 8 8 % 8 = 0 ∧ (s.admitted d slot a).bufOk (fld a 8 8) (32 * fld a 4 4) = true ∧ bit (byteAt a 0) 0 = false) ∧
    (∃ (s : State) (d : Desc) (slot : Nat) (a : Bytes), Admits s 0x0701 d slot a ∧ firstBad a ((0, 0xFE) :: rsv 1 3) = none ∧ 1 ≤ fld a 4 4 ∧
        fld a 4 4 ≤ 8192 ∧ fld a 8 8 % 8 = 0 ∧ (s.admitted d slot a).bufOk (fld a 8 8) (32 * fld a 4 4) = true ∧ bit (byteAt a 0) 0 = true) ∧
    (∃ (s : State) (d : Desc) (slot : Nat) (a : Bytes), Admits s 0x0702 d slot a ∧ firstBad a ((0, 0xFC) :: rsv 10 6) = none ∧ 2 ≤ byteAt a 1 ∧
        byteAt a 1 ≤ 40 ∧ fld a 2 2 ≤ 256 ∧ 60 ≤ fld a 4 4 ∧ fld a 4 4 ≤ 86400 ∧ 4 ≤ fld a 8 2 ∧ fld a 8 2 ≤ 256) ∧
    (∃ (s : State) (d : Desc) (slot : Nat) (a : Bytes) (due : _), Admits s 0x0F00 d slot a ∧ firstBad a (rsv 2 6) = none ∧
        (s.consumed d).names (fld a 0 2) = true ∧ ((s.consumed d).hnd (fld a 0 2 % 4096)).st = 1 ∧ (fld a 0 2 % 4096) ≠ slot ∧
        ((s.consumed d).hnd (fld a 0 2 % 4096)).work = .delay due ∧ ((s.consumed d).hnd (fld a 0 2 % 4096)).opcode = 0x0001) ∧
    (∃ (s : State) (d : Desc) (slot : Nat) (a : Bytes), Admits s 0x0F00 d slot a ∧ firstBad a (rsv 2 6) = none ∧
        (s.consumed d).names (fld a 0 2) = true ∧ ((s.consumed d).hnd (fld a 0 2 % 4096)).st = 1 ∧ (fld a 0 2 % 4096) ≠ slot ∧
        ((s.consumed d).hnd (fld a 0 2 % 4096)).opcode ≠ 0x0F00) ∧
    (∃ (s : State) (d : Desc) (slot : Nat) (a : Bytes), Admits s 0x0F00 d slot a ∧ firstBad a (rsv 2 6) = none ∧
        (s.consumed d).names (fld a 0 2) = true ∧ ((s.consumed d).hnd (fld a 0 2 % 4096)).st = 1 ∧ (fld a 0 2 % 4096) ≠ slot ∧
        ((s.consumed d).hnd (fld a 0 2 % 4096)).opcode = 0x0F00) :=
  ⟨⟨ready, cmd 1 (fill 8 [(0, 4, 1000000)]), 0, fill 8 [(0, 4, 1000000)], by unfold Admits; decide +kernel⟩,
   ⟨{ ready with chip := { ready.chip with handles := [(0, { st := 1, work := .delay 1000 })] } }, 1000, 0, 1000, by decide +kernel⟩,
   ⟨ready, cmd 2 (fill 16 [(4, 4, 4096), (8, 8, 64)]), 0, fill 16 [(4, 4, 4096), (8, 8, 64)], (((ready.admitted (cmd 2 (fill 16 [(4, 4, 4096), (8, 8,
        64)])) 0 (fill 16 [(4, 4, 4096), (8, 8, 64)])).queryReply 0 0).getD ([], 0, 0)).1, (((ready.admitted (cmd 2 (fill 16 [(4, 4, 4096), (8, 8,
        64)])) 0 (fill 16 [(4, 4, 4096), (8, 8, 64)])).queryReply 0 0).getD ([], 0, 0)).2.1, (((ready.admitted (cmd 2 (fill 16 [(4, 4, 4096), (8, 8,
        64)])) 0 (fill 16 [(4, 4, 4096), (8, 8, 64)])).queryReply 0 0).getD ([], 0, 0)).2.2, by unfold Admits; decide +kernel⟩,
   ⟨{ ready with chip := { ready.chip with handles := [(5, { st := 1, gen := 1, opcode := 1, work := .delay 2000 })] } }, cmd 2 (fill 16 [(0, 1, 1), (2,
        2, 4101)]), 0, fill 16 [(0, 1, 1), (2, 2, 4101)], by unfold Admits; decide +kernel⟩,
   ⟨holding1, cmd 2 (fill 16 [(0, 1, 1), (2, 2, 4101), (4, 4, 4096), (8, 8, 64)]), 0, fill 16 [(0, 1, 1), (2, 2, 4101), (4, 4, 4096), (8, 8, 64)],
        placed, by unfold Admits; decide +kernel⟩,
   ⟨ready, cmd 0x0701 (fill 16 [(4, 4, 8192), (8, 8, 64)]), 0, fill 16 [(4, 4, 8192), (8, 8, 64)], by unfold Admits; decide +kernel⟩,
   ⟨ready, cmd 0x0701 (fill 16 [(0, 1, 1), (4, 4, 1), (8, 8, 64)]), 0, fill 16 [(0, 1, 1), (4, 4, 1), (8, 8, 64)], by unfold Admits; decide +kernel⟩,
   ⟨ready, cmd 0x0702 (fill 16 [(1, 1, 40), (2, 2, 256), (4, 4, 60), (8, 2, 4)]), 0, fill 16 [(1, 1, 40), (2, 2, 256), (4, 4, 60), (8, 2, 4)],
        by unfold Admits; decide +kernel⟩,
   ⟨{ ready with chip := { ready.chip with handles := [(5, { st := 1, gen := 1, opcode := 1, work := .delay 2000 })] } }, cmd 0x0F00 (fill 8 [(0, 2,
        4101)]), 0, fill 8 [(0, 2, 4101)], 2000, by unfold Admits; decide +kernel⟩,
   ⟨{ ready with chip := { ready.chip with handles := [(5, { st := 1, gen := 1, opcode := 0x0A00, work := .mem 0 0 (.memCopyIn okDesc [] 0) })] } },
        cmd 0x0F00 (fill 8 [(0, 2, 4101)]), 0, fill 8 [(0, 2, 4101)], by unfold Admits; decide +kernel⟩,
   ⟨{ ready with chip := { ready.chip with handles := [(5, { st := 1, gen := 1, opcode := 0x0F00, work := .abort 6 })] } }, cmd 0x0F00 (fill 8 [(0, 2,
        4101)]), 0, fill 8 [(0, 2, 4101)], by unfold Admits; decide +kernel⟩⟩

/-- A record of `pinned`'s buffer: offset at placement, at most 1.0; its achieved value `w`. -/
def specOf (w : Nat) : SpecRec := { prim := 0, code := 2, kind := 0, cond := 1, target := 0x3F800000, freq := 0, hard := false, achieved := w }

/-- `graph0`, its buffer pinned to cell 0, in phase `ph`, driving excitation ball `ball` beside its other nets where one is named. -/
def pinned (ph : Nat) (balls : List Nat) : Graph := { graph0 with
  phase := ph, regions := [0], prims := graph0.prims.map fun p => { p with pin := some { scope := 2, num := 0, require := true } }
  nets := graph0.nets ++ balls.map fun b => { drvKind := 0, drv := 0, loads := [2 ^ 15 + b] } }

/-- A claimed placement on cell `n` that measures worse than it was predicted (03 R71). -/
def built (n : Nat) : Graph := { pinned 5 [] with prims := (pinned 5 []).prims.map fun p => { p with c0 := n, bias := 1023 }, specs := [specOf 0] }

/-- A graph behind handle 0x1005 that waits for its phase 2. -/
def waiting (g : Graph) : State := { holding g with til := { (holding g).til with queue := [5] } }

/-- `holding g` with region 0 in some state. -/
def withRegion (g : Graph) (r : Region) : State := { holding g with til := { (holding g).til with regions := [(0, r)] } }

theorem meets_PlacementPhasesComplete :
    (∃ (s : State) (d : Desc) (image : Bytes) (slot : Nat) (a : Bytes) (g : Graph), Admits s 0x0100 d slot a ∧
        firstBad a (rsv 12 4 ++ rsv 28 4) = none ∧ s.til.queue = [] ∧ slot < 4096 ∧ fld a 0 8 % 8 = 0 ∧ fld a 16 8 % 8 = 0 ∧ a.length = 32 ∧
        (s.admitted d slot a).bufOk (fld a 0 8) (fld a 8 4) = true ∧ (s.admitted d slot a).bufOk (fld a 16 8) (fld a 24 4) = true ∧
        parseGraph ((s.admitted d slot a).hostRead (fld a 0 8) (min (fld a 8 4) 32768) image) (fld a 8 4) (fld a 24 4) = .ok g) ∧
    (∃ (s : State) (d : Desc) (image : Bytes) (slot : Nat) (a : Bytes) (st : Nat), Admits s 0x0100 d slot a ∧
        firstBad a (rsv 12 4 ++ rsv 28 4) = none ∧ s.til.queue = [] ∧ slot < 4096 ∧ fld a 0 8 % 8 = 0 ∧ fld a 16 8 % 8 = 0 ∧ a.length = 32 ∧
        (s.admitted d slot a).bufOk (fld a 0 8) (fld a 8 4) = true ∧ (s.admitted d slot a).bufOk (fld a 16 8) (fld a 24 4) = true ∧
        parseGraph ((s.admitted d slot a).hostRead (fld a 0 8) (min (fld a 8 4) 32768) image) (fld a 8 4) (fld a 24 4) = .error st ∧
        Tbl.wf none s.til.graphs = true) ∧
    (∃ (s : State) (t : Nat) (slot : Nat) (g : Graph) (x : _), (s.at t).graph slot = some g ∧ s.til.queue = [slot] ∧ g.phase = 2 ∧
        s.chip.restarting = false ∧ s.chip.failed = false ∧ (∀ r < 8, (s.region r).test = none) ∧ (s.at t).portsTaken slot g = false ∧
        (s.at t).best {} g = some x) ∧
    (∃ (s : State) (t : Nat) (slot : Nat) (g : Graph), (s.at t).graph slot = some g ∧ s.til.queue = [slot] ∧ g.phase = 2 ∧
        s.chip.restarting = false ∧ s.chip.failed = false ∧ (∀ r < 8, (s.region r).test = none) ∧
        ((s.at t).portsTaken slot g = true ∨ (s.at t).best {} g = none) ∧ g.reportOnly = false) ∧
    (∃ (s : State) (t : Nat) (slot : Nat) (g : Graph), (s.at t).graph slot = some g ∧ s.til.queue = [slot] ∧ g.phase = 2 ∧
        s.chip.restarting = false ∧ s.chip.failed = false ∧ (∀ r < 8, (s.region r).test = none) ∧
        ((s.at t).portsTaken slot g = true ∨ (s.at t).best {} g = none) ∧ g.reportOnly = true) ∧
    (∃ (s : State) (t : Nat) (slot : Nat) (g : Graph) (x : _), (s.at t).graph slot = some g ∧ g.phase = 4 ∧ (s.at t).ctrlState g.regions = 0 ∧
        (s.at t).placeIn g 1 [] = some x ∧ g.reportOnly = true) ∧
    (∃ (s : State) (t : Nat) (slot : Nat) (g : Graph) (x : _), (s.at t).graph slot = some g ∧ g.phase = 4 ∧ (s.at t).ctrlState g.regions = 0 ∧
        (s.at t).placeIn g 1 [] = some x ∧ g.reportOnly = false ∧ (s.at t).ctrlState (x.prims.map fun p => cellRegion p.c0) = 0) ∧
    (∃ (s : State) (t : Nat) (slot : Nat) (g : Graph), (s.at t).graph slot = some g ∧ g.phase = 4 ∧ (s.at t).ctrlState g.regions = 0 ∧
        (s.at t).placeIn g 1 [] = none ∧ g.reportOnly = false) ∧
    (∃ (s : State) (t : Nat) (slot : Nat) (g : Graph), (s.at t).graph slot = some g ∧ g.phase = 4 ∧ (s.at t).ctrlState g.regions = 1) ∧
    (∃ (s : State) (t : Nat) (slot : Nat) (g : Graph), (s.at t).graph slot = some g ∧ g.phase = 4 ∧ (s.at t).ctrlState g.regions = 2) ∧
    (∃ (s : State) (t : Nat) (slot : Nat) (m : Measured) (g : Graph), (s.at t).graph slot = some g ∧ g.phase = 5 ∧ (s.at t).ctrlState g.regions = 0 ∧
        shortLt (worst g) (worst ((s.at t).measured g m)) = false) ∧
    (∃ (s : State) (t : Nat) (slot : Nat) (m : Measured) (ms : List Measured) (g : Graph), (s.at t).graph slot = some g ∧ g.phase = 5 ∧
        (s.at t).ctrlState g.regions = 0 ∧ shortLt (worst g) (worst ((s.at t).measured g m)) = true ∧
        ((((s.at t).unclaim g).setGraph slot (some g.bare)).further g.bare (ms.take 2) 2 [g.cells] ((s.at t).measured g m)).cells = ((s.at t).measured g m).cells) ∧
    (∃ (s : State) (t : Nat) (slot : Nat) (m : Measured) (ms : List Measured) (g : Graph), (s.at t).graph slot = some g ∧ g.phase = 5 ∧
        (s.at t).ctrlState g.regions = 0 ∧ shortLt (worst g) (worst ((s.at t).measured g m)) = true ∧
        ((((s.at t).unclaim g).setGraph slot (some g.bare)).further g.bare (ms.take 2) 2 [g.cells] ((s.at t).measured g m)).cells ≠ ((s.at t).measured g m).cells) ∧
    (∃ (s : State) (t : Nat) (slot : Nat) (g : Graph), (s.at t).graph slot = some g ∧ g.phase = 6 ∧ s.chip.restarting = false ∧ s.chip.failed = false) :=
  ⟨⟨ready, cmd 0x0100 (fill 32 [(0, 8, 64), (8, 4, 128), (16, 8, 256), (24, 4, 96)]), img, 0, fill 32 [(0, 8, 64), (8, 4, 128), (16, 8, 256), (24, 4,
        96)], graph0, by unfold Admits; decide +kernel, by decide +kernel, rfl, by decide, by decide +kernel, by decide +kernel, by decide +kernel,
        by decide +kernel, by decide +kernel, rfl⟩,
   ⟨ready, cmd 0x0100 (fill 32 [(0, 8, 64), (8, 4, 128), (16, 8, 256), (24, 4, 96)]), [], 0, fill 32 [(0, 8, 64), (8, 4, 128), (16, 8, 256), (24, 4,
        96)], stBAD_ARG, by unfold Admits; decide +kernel, by decide +kernel, rfl, by decide, by decide +kernel, by decide +kernel, by decide +kernel,
         by decide +kernel, by decide +kernel, rfl, rfl⟩,
   ⟨waiting (pinned 2 []), 0, 5, pinned 2 [], _, rfl, rfl, rfl, rfl, rfl, by decide +kernel, by decide +kernel,
        Option.eq_some_of_isSome (by decide +kernel)⟩,
   ⟨{ waiting (pinned 2 []) with til := { (waiting (pinned 2 [])).til with graphs := [(5, some (pinned 2 [])), (6, some placed)] } }, 0, 5, pinned 2 [],
        by decide +kernel⟩,
   ⟨{ waiting (pinned 2 []) with til := { (waiting (pinned 2 [])).til with graphs := [(5, some { pinned 2 [] with reportOnly := true }), (6, some placed)] } },
        0, 5, { pinned 2 [] with reportOnly := true }, by decide +kernel⟩,
   ⟨holding { pinned 4 [] with reportOnly := true }, 0, 5, { pinned 4 [] with reportOnly := true }, _, rfl, rfl, by decide +kernel,
        Option.eq_some_of_isSome (by decide +kernel), rfl⟩,
   ⟨holding (pinned 4 []), 0, 5, pinned 4 [], _, rfl, rfl, by decide +kernel, Option.eq_some_of_isSome (by decide +kernel), rfl, by decide +kernel⟩,
   ⟨holding (pinned 4 [127]), 0, 5, pinned 4 [127], by decide +kernel⟩,
   ⟨withRegion (pinned 4 []) { ready := false }, 0, 5, pinned 4 [], by decide +kernel⟩,
   ⟨withRegion (pinned 4 []) { failed := true }, 0, 5, pinned 4 [], by decide +kernel⟩,
   ⟨holding (built 0), 0, 5, [0], built 0, by decide +kernel⟩,
   ⟨holding (built 0), 0, 5, [0x40000000], [[0]], built 0, by decide +kernel⟩,
   ⟨holding (built 7), 0, 5, [0x40000000], [[0x3F800000]], built 7, by decide +kernel⟩,
   ⟨holding { graph0 with phase := 6 }, 0, 5, { graph0 with phase := 6 }, by decide +kernel⟩⟩

/-- A graph of one primitive that no cell carries. -/
def bare1 (p : Prim) : Graph := { placed with prims := [p] }

/-- A low-pass BIQ at 100 Hz with ANTI_ALIAS. -/
def biq100 : Prim := { ty := 4, mode := 0, flags := 1, par := [0x42C80000, 0x3F3504F3, 0x3F800000, 0, 0, 0, 0] }

/-- `placed` on cell 2, which breaks the REQUIRE pin that it has for cell `n`. -/
def astray (n : Nat) : Graph := { placed with prims := placed.prims.map fun p => { p with c0 := 2, pin := some { scope := 2, num := n, require := true } } }

/-- The same, driving an excitation ball of region 7 as well. -/
def astrayBall : Graph := { astray 0 with nets := (pinned 7 [127]).nets }

/-- A placed graph behind handle 0x1005, with cell `n` reserved for it. -/
def reserving (g : Graph) (n : Nat) : State := { holding g with til := { (holding g).til with cells := [(n, { use := .reserved 5 })] } }

theorem some_pair {α β : Type} {o : Option (α × β)} (h : o.isSome = true) : o = some ((o.get h).1, (o.get h).2) := by
  cases o with
  | none => cases h
  | some x => rfl

/-- The tune of `astray 0` that names no primitive and has ALLOW_MOVE, and its plan. -/
def awayArgs : Bytes := fill 32 [(0, 2, 4101), (4, 4, 16), (8, 8, 64)]
def awayPlan : Option TunePlan := ((reserving (astray 0) 0).admitted (cmd 0x0102 awayArgs) (0) (awayArgs)).tunePlan (fld (awayArgs) 0 2 % 4096) ((tuned (astray 0) ([] : List (Nat × Prim)) ([] : List SpecRec) (0)).measure (((reserving (astray 0) 0).admitted (cmd 0x0102 awayArgs) (0) (awayArgs)).primTemp (tuned (astray 0) ([] : List (Nat × Prim)) ([] : List SpecRec) (0))) ([]) (fun (r : SpecRec) => ((([] : List (Nat × Prim)).map (·.1) ++ ([] : List SpecRec).map fun (r : SpecRec) => r.prim).eraseDups).contains r.prim)) ((([] : List (Nat × Prim)).map (·.1) ++ ([] : List SpecRec).map fun (r : SpecRec) => r.prim).eraseDups) (true)
theorem away_some : awayPlan.isSome = true := by decide +kernel

/-- Every region's controller restarts. -/
def allRestart (s : State) : State := { s with til := { s.til with regions := (List.range 8).map fun r => (r, { ready := false }) } }

theorem meets_GraphCommandsComplete :
    (∃ (s : State) (d : Desc) (slot : Nat) (a : Bytes) (g : Graph), Admits s 0x0101 d slot a ∧ firstBad a (rsv 2 6) = none ∧
        (s.consumed d).namesObj (fld a 0 2) 1 = true ∧ (s.admitted d slot a).graph (fld a 0 2 % 4096) = some g ∧ (∀ r ∈ g.homes,
        ((s.admitted d slot a).region r).failed = false ∧ ((s.admitted d slot a).region r).ready = true)) ∧
    (∃ (s : State) (d : Desc) (image : Bytes) (ms : Measured) (slot : Nat) (a : Bytes) (g : Graph) (ps : List (Nat × Prim)) (ss : List SpecRec) (degrade : Nat) (allow : Bool),
        Admits s 0x0102 d slot a ∧ firstBad a (rsv 2 2 ++ (if fld a 16 8 = 0 then rsv 24 4 else []) ++ rsv 28 4) = none ∧
        (s.consumed d).namesObj (fld a 0 2) 1 = true ∧ (s.admitted d slot a).graph (fld a 0 2 % 4096) = some g ∧ fld a 8 8 % 8 = 0 ∧
        fld a 16 8 % 8 = 0 ∧ (s.admitted d slot a).bufOk (fld a 8 8) (fld a 4 4) = true ∧
        (s.admitted d slot a).graphBusy (fld a 0 2 % 4096) slot = false ∧
        parseTune ((s.admitted d slot a).hostRead (fld a 8 8) (min (fld a 4 4) 32768) image) (fld a 4 4) g = .ok (ps, ss, degrade, allow) ∧
        (∀ r ∈ g.homes, ((s.admitted d slot a).region r).failed = false ∧ ((s.admitted d slot a).region r).ready = true) ∧
        (fld a 16 8 ≠ 0 → (s.admitted d slot a).bufOk (fld a 16 8) (fld a 24 4) = true ∧
        reportLen g.prims.length g.specs.length g.nets.length ≤ fld a 24 4 ∧
        reportLen (tuned g ps ss degrade).prims.length (tuned g ps ss degrade).specs.length (tuned g ps ss degrade).nets.length ≤ fld a 24 4) ∧
        (s.admitted d slot a).tunePlan (fld a 0 2 % 4096) ((tuned g ps ss degrade).measure ((s.admitted d slot a).primTemp (tuned g ps ss degrade)) ms (fun r => ((ps.map (·.1) ++ ss.map fun r => r.prim).eraseDups).contains r.prim)) ((ps.map (·.1) ++ ss.map fun r => r.prim).eraseDups) allow = none) ∧
    (∃ (s : State) (d : Desc) (image : Bytes) (ms : Measured) (slot : Nat) (a : Bytes) (g : Graph) (ps : List (Nat × Prim)) (ss : List SpecRec) (degrade : Nat) (allow : Bool) (x : Graph) (ds : List PlaceP),
        Admits s 0x0102 d slot a ∧ firstBad a (rsv 2 2 ++ (if fld a 16 8 = 0 then rsv 24 4 else []) ++ rsv 28 4) = none ∧
        (s.consumed d).namesObj (fld a 0 2) 1 = true ∧ (s.admitted d slot a).graph (fld a 0 2 % 4096) = some g ∧ fld a 8 8 % 8 = 0 ∧
        fld a 16 8 % 8 = 0 ∧ (s.admitted d slot a).bufOk (fld a 8 8) (fld a 4 4) = true ∧
        (s.admitted d slot a).graphBusy (fld a 0 2 % 4096) slot = false ∧
        parseTune ((s.admitted d slot a).hostRead (fld a 8 8) (min (fld a 4 4) 32768) image) (fld a 4 4) g = .ok (ps, ss, degrade, allow) ∧
        (∀ r ∈ g.homes, ((s.admitted d slot a).region r).failed = false ∧ ((s.admitted d slot a).region r).ready = true) ∧
        (fld a 16 8 ≠ 0 → (s.admitted d slot a).bufOk (fld a 16 8) (fld a 24 4) = true ∧
        reportLen g.prims.length g.specs.length g.nets.length ≤ fld a 24 4 ∧
        reportLen (tuned g ps ss degrade).prims.length (tuned g ps ss degrade).specs.length (tuned g ps ss degrade).nets.length ≤ fld a 24 4) ∧
        (s.admitted d slot a).tunePlan (fld a 0 2 % 4096) ((tuned g ps ss degrade).measure ((s.admitted d slot a).primTemp (tuned g ps ss degrade)) ms (fun r => ((ps.map (·.1) ++ ss.map fun r => r.prim).eraseDups).contains r.prim)) ((ps.map (·.1) ++ ss.map fun r => r.prim).eraseDups) allow = some (x,
        ds) ∧ 2 ≤ outcomeOf x) ∧
    (∃ (s : State) (d : Desc) (image : Bytes) (ms : Measured) (slot : Nat) (a : Bytes) (g : Graph) (ps : List (Nat × Prim)) (ss : List SpecRec) (degrade : Nat) (allow : Bool) (x : Graph) (ds : List PlaceP),
        Admits s 0x0102 d slot a ∧ firstBad a (rsv 2 2 ++ (if fld a 16 8 = 0 then rsv 24 4 else []) ++ rsv 28 4) = none ∧
        (s.consumed d).namesObj (fld a 0 2) 1 = true ∧ (s.admitted d slot a).graph (fld a 0 2 % 4096) = some g ∧ fld a 8 8 % 8 = 0 ∧
        fld a 16 8 % 8 = 0 ∧ (s.admitted d slot a).bufOk (fld a 8 8) (fld a 4 4) = true ∧
        (s.admitted d slot a).graphBusy (fld a 0 2 % 4096) slot = false ∧
        parseTune ((s.admitted d slot a).hostRead (fld a 8 8) (min (fld a 4 4) 32768) image) (fld a 4 4) g = .ok (ps, ss, degrade, allow) ∧
        (∀ r ∈ g.homes, ((s.admitted d slot a).region r).failed = false ∧ ((s.admitted d slot a).region r).ready = true) ∧
        (fld a 16 8 ≠ 0 → (s.admitted d slot a).bufOk (fld a 16 8) (fld a 24 4) = true ∧
        reportLen g.prims.length g.specs.length g.nets.length ≤ fld a 24 4 ∧
        reportLen (tuned g ps ss degrade).prims.length (tuned g ps ss degrade).specs.length (tuned g ps ss degrade).nets.length ≤ fld a 24 4) ∧
        (s.admitted d slot a).tunePlan (fld a 0 2 % 4096) ((tuned g ps ss degrade).measure ((s.admitted d slot a).primTemp (tuned g ps ss degrade)) ms (fun r => ((ps.map (·.1) ++ ss.map fun r => r.prim).eraseDups).contains r.prim)) ((ps.map (·.1) ++ ss.map fun r => r.prim).eraseDups) allow = some (x,
        ds) ∧ outcomeOf x < 2 ∧ ds = []) ∧
    (∃ (s : State) (d : Desc) (image : Bytes) (ms : Measured) (slot : Nat) (a : Bytes) (g : Graph) (ps : List (Nat × Prim)) (ss : List SpecRec) (degrade : Nat) (allow : Bool) (x : Graph) (ds : List PlaceP),
        Admits s 0x0102 d slot a ∧ firstBad a (rsv 2 2 ++ (if fld a 16 8 = 0 then rsv 24 4 else []) ++ rsv 28 4) = none ∧
        (s.consumed d).namesObj (fld a 0 2) 1 = true ∧ (s.admitted d slot a).graph (fld a 0 2 % 4096) = some g ∧ fld a 8 8 % 8 = 0 ∧
        fld a 16 8 % 8 = 0 ∧ (s.admitted d slot a).bufOk (fld a 8 8) (fld a 4 4) = true ∧
        (s.admitted d slot a).graphBusy (fld a 0 2 % 4096) slot = false ∧
        parseTune ((s.admitted d slot a).hostRead (fld a 8 8) (min (fld a 4 4) 32768) image) (fld a 4 4) g = .ok (ps, ss, degrade, allow) ∧
        (∀ r ∈ g.homes, ((s.admitted d slot a).region r).failed = false ∧ ((s.admitted d slot a).region r).ready = true) ∧
        (fld a 16 8 ≠ 0 → (s.admitted d slot a).bufOk (fld a 16 8) (fld a 24 4) = true ∧
        reportLen g.prims.length g.specs.length g.nets.length ≤ fld a 24 4 ∧
        reportLen (tuned g ps ss degrade).prims.length (tuned g ps ss degrade).specs.length (tuned g ps ss degrade).nets.length ≤ fld a 24 4) ∧
        (s.admitted d slot a).tunePlan (fld a 0 2 % 4096) ((tuned g ps ss degrade).measure ((s.admitted d slot a).primTemp (tuned g ps ss degrade)) ms (fun r => ((ps.map (·.1) ++ ss.map fun r => r.prim).eraseDups).contains r.prim)) ((ps.map (·.1) ++ ss.map fun r => r.prim).eraseDups) allow = some (x,
        ds) ∧ outcomeOf x < 2 ∧ ds ≠ []) ∧
    (∃ (s : State) (d : Desc) (pins : Bytes) (slot : Nat) (a : Bytes) (g : Graph), Admits s 0x0103 d slot a ∧ firstBad a (rsv 3 5) = none ∧
        (s.consumed d).namesObj (fld a 0 2) 1 = true ∧ (s.admitted d slot a).graph (fld a 0 2 % 4096) = some g ∧ 1 ≤ byteAt a 2 ∧ byteAt a 2 ≤ 64 ∧
        fld a 8 8 % 8 = 0 ∧ (s.admitted d slot a).bufOk (fld a 8 8) (8 * byteAt a 2) = true ∧
        (s.admitted d slot a).graphBusy (fld a 0 2 % 4096) slot = false ∧
        ((List.range (byteAt a 2)).all fun i => pinShape ((s.admitted d slot a).hostRead (fld a 8 8) (8 * byteAt a 2) pins) (8 * i) g.prims.length true) = true ∧
        nodupB (((List.range (byteAt a 2)).map (fun i => readPin ((s.admitted d slot a).hostRead (fld a 8 8) (8 * byteAt a 2) pins) (8 * i))).map (·.1)) = true ∧
        (∀ r ∈ g.homes, ((s.admitted d slot a).region r).failed = false ∧ ((s.admitted d slot a).region r).ready = true) ∧
        (s.admitted d slot a).pinsCan (fld a 0 2 % 4096) (repin g ((List.range (byteAt a 2)).map (fun i => readPin ((s.admitted d slot a).hostRead (fld a 8 8) (8 * byteAt a 2) pins) (8 * i)))) ((((List.range (byteAt a 2)).map (fun i => readPin ((s.admitted d slot a).hostRead (fld a 8 8) (8 * byteAt a 2) pins) (8 * i))).map (·.1)).filter (fun i => breaksPin ((repin g ((List.range (byteAt a 2)).map (fun i => readPin ((s.admitted d slot a).hostRead (fld a 8 8) (8 * byteAt a 2) pins) (8 * i)))).prim i))) = true) ∧
    (∃ (s : State) (d : Desc) (pins : Bytes) (slot : Nat) (a : Bytes) (g : Graph), Admits s 0x0103 d slot a ∧ firstBad a (rsv 3 5) = none ∧
        (s.consumed d).namesObj (fld a 0 2) 1 = true ∧ (s.admitted d slot a).graph (fld a 0 2 % 4096) = some g ∧ 1 ≤ byteAt a 2 ∧ byteAt a 2 ≤ 64 ∧
        fld a 8 8 % 8 = 0 ∧ (s.admitted d slot a).bufOk (fld a 8 8) (8 * byteAt a 2) = true ∧
        (s.admitted d slot a).graphBusy (fld a 0 2 % 4096) slot = false ∧
        ((List.range (byteAt a 2)).all fun i => pinShape ((s.admitted d slot a).hostRead (fld a 8 8) (8 * byteAt a 2) pins) (8 * i) g.prims.length true) = true ∧
        nodupB (((List.range (byteAt a 2)).map (fun i => readPin ((s.admitted d slot a).hostRead (fld a 8 8) (8 * byteAt a 2) pins) (8 * i))).map (·.1)) = true ∧
        (∀ r ∈ g.homes, ((s.admitted d slot a).region r).failed = false ∧ ((s.admitted d slot a).region r).ready = true) ∧
        (s.admitted d slot a).pinsCan (fld a 0 2 % 4096) (repin g ((List.range (byteAt a 2)).map (fun i => readPin ((s.admitted d slot a).hostRead (fld a 8 8) (8 * byteAt a 2) pins) (8 * i)))) ((((List.range (byteAt a 2)).map (fun i => readPin ((s.admitted d slot a).hostRead (fld a 8 8) (8 * byteAt a 2) pins) (8 * i))).map (·.1)).filter (fun i => breaksPin ((repin g ((List.range (byteAt a 2)).map (fun i => readPin ((s.admitted d slot a).hostRead (fld a 8 8) (8 * byteAt a 2) pins) (8 * i)))).prim i))) = false) ∧
    (∃ (s : State) (d : Desc) (slot : Nat) (a : Bytes) (g : Graph), Admits s 0x0104 d slot a ∧ firstBad a (rsv 3 1 ++ rsv 6 2 ++ rsv 13 3) = none ∧
        (s.consumed d).namesObj (fld a 0 2) 1 = true ∧ (s.admitted d slot a).graph (fld a 0 2 % 4096) = some g ∧ byteAt a 2 < g.prims.length ∧
        (fld a 4 2 = 0 ∨ (4 ≤ fld a 4 2 ∧ fld a 4 2 ≤ 256)) ∧ (readPin a 8).1 = byteAt a 2 ∧ pinShape (a.set 12 0) 8 g.prims.length true = true ∧
        (s.admitted d slot a).earlierOn [0x0102, 0x0103] (fld a 0 2 % 4096) slot = false ∧ 1024 ≤ (g.prim (byteAt a 2)).c0) ∧
    (∃ (s : State) (d : Desc) (slot : Nat) (a : Bytes) (g : Graph), Admits s 0x0104 d slot a ∧ firstBad a (rsv 3 1 ++ rsv 6 2 ++ rsv 13 3) = none ∧
        (s.consumed d).namesObj (fld a 0 2) 1 = true ∧ (s.admitted d slot a).graph (fld a 0 2 % 4096) = some g ∧ byteAt a 2 < g.prims.length ∧
        (fld a 4 2 = 0 ∨ (4 ≤ fld a 4 2 ∧ fld a 4 2 ≤ 256)) ∧ (readPin a 8).1 = byteAt a 2 ∧ pinShape (a.set 12 0) 8 g.prims.length true = true ∧
        (s.admitted d slot a).earlierOn [0x0102, 0x0103] (fld a 0 2 % 4096) slot = false ∧ (g.prim (byteAt a 2)).c0 < 1024 ∧
        ((s.admitted d slot a).region (cellRegion (g.prim (byteAt a 2)).c0)).failed = false ∧
        ((s.admitted d slot a).region (cellRegion (g.prim (byteAt a 2)).c0)).ready = true) ∧
    (∃ (s : State) (d : Desc) (slot : Nat) (a : Bytes) (g : Graph), Admits s 0x0102 d slot a ∧
        firstBad a (rsv 2 2 ++ (if fld a 16 8 = 0 then rsv 24 4 else []) ++ rsv 28 4) = none ∧ (s.consumed d).namesObj (fld a 0 2) 1 = true ∧
        (s.admitted d slot a).graph (fld a 0 2 % 4096) = some g ∧ fld a 8 8 % 8 = 0 ∧ fld a 16 8 % 8 = 0 ∧
        (fld a 16 8 ≠ 0 → (s.admitted d slot a).bufOk (fld a 16 8) (fld a 24 4) = true ∧
        reportLen g.prims.length g.specs.length g.nets.length ≤ fld a 24 4) ∧ (s.admitted d slot a).bufOk (fld a 8 8) (fld a 4 4) = true ∧
        (s.admitted d slot a).graphBusy (fld a 0 2 % 4096) slot = true) ∧
    (∃ (s : State) (d : Desc) (slot : Nat) (a : Bytes), Admits s 0x0105 d slot a ∧ 1 ≤ fld a 4 4 ∧ fld a 0 4 + fld a 4 4 ≤ 131072 ∧
        fld a 8 8 % 8 = 0 ∧ (s.admitted d slot a).bufOk (fld a 8 8) (8 * fld a 4 4) = true) :=
  ⟨⟨holding placed, cmd 0x0101 (fill 8 [(0, 2, 4101)]), 0, fill 8 [(0, 2, 4101)], placed, by unfold Admits; decide +kernel⟩,
   ⟨allRestart (holding (bare1 biq100)), cmd 0x0102 (fill 32 [(0, 2, 4101), (4, 4, 48), (8, 8, 64)]), fill 48 [(0, 2, 1), (2, 1, 1), (6, 2, 65535), (16, 1, 4), (18, 1, 1), (20, 4, 0x42C80000), (24, 4, 0x3F3504F3), (28, 4, 0x3F800000)], [], 0, fill 32 [(0, 2, 4101), (4, 4, 48), (8, 8, 64)], bare1 biq100, [(0, biq100)], [], 0, false, by
     refine ⟨?_, ?_, ?_, ?_, ?_, ?_, ?_, ?_, rfl, ?_, ?_, ?_⟩ <;> first | decide +kernel | (unfold Admits; decide +kernel)⟩,
   ⟨holding (bare1 biq100), cmd 0x0102 (fill 32 [(0, 2, 4101), (4, 4, 16), (8, 8, 64)]), fill 16 [(0, 2, 1), (3, 1, 0), (6, 2, 65535)], [], 0, fill 32 [(0, 2, 4101), (4, 4, 16), (8, 8, 64)], bare1 biq100, [], [], 0, false, _, _, by
     refine ⟨?_, ?_, ?_, ?_, ?_, ?_, ?_, ?_, rfl, ?_, ?_, rfl, ?_⟩ <;> first | decide +kernel | (unfold Admits; decide +kernel)⟩,
   ⟨holding placed, cmd 0x0102 (fill 32 [(0, 2, 4101), (4, 4, 16), (8, 8, 64)]), fill 16 [(0, 2, 1), (3, 1, 0), (6, 2, 65535)], [], 0, fill 32 [(0, 2, 4101), (4, 4, 16), (8, 8, 64)], placed, [], [], 0, false, _, _, by
     refine ⟨?_, ?_, ?_, ?_, ?_, ?_, ?_, ?_, rfl, ?_, ?_, rfl, ?_, ?_⟩ <;> first | decide +kernel | (unfold Admits; decide +kernel)⟩,
   ⟨reserving (astray 0) 0, cmd 0x0102 awayArgs, fill 16 [(0, 2, 1), (3, 1, 1), (6, 2, 65535)], [], 0, awayArgs, astray 0, [], [], 0, true, (awayPlan.get away_some).1, (awayPlan.get away_some).2, by
     refine ⟨?_, ?_, ?_, ?_, ?_, ?_, ?_, ?_, rfl, ?_, ?_, some_pair away_some, ?_, ?_⟩ <;> first | decide +kernel | (unfold Admits; decide +kernel)⟩,
   ⟨reserving placed 1, cmd 0x0103 (fill 16 [(0, 2, 4101), (2, 1, 1), (8, 8, 64)]), fill 8 [(1, 1, 2), (2, 2, 1), (4, 1, 1)], 0, fill 16 [(0, 2, 4101),
        (2, 1, 1), (8, 8, 64)], placed, by unfold Admits; decide +kernel⟩,
   ⟨reserving astrayBall 1, cmd 0x0103 (fill 16 [(0, 2, 4101), (2, 1, 1), (8, 8, 64)]), fill 8 [(1, 1, 2), (2, 2, 1), (4, 1, 1)], 0, fill 16 [(0, 2,
        4101), (2, 1, 1), (8, 8, 64)], astrayBall, by unfold Admits; decide +kernel⟩,
   ⟨holding (bare1 biq100), cmd 0x0104 (fill 16 [(0, 2, 4101), (4, 2, 256), (9, 1, 255)]), 0, fill 16 [(0, 2, 4101), (4, 2, 256), (9, 1, 255)],
        bare1 biq100, by unfold Admits; decide +kernel⟩,
   ⟨holding placed, cmd 0x0104 (fill 16 [(0, 2, 4101), (4, 2, 256), (9, 1, 255)]), 0, fill 16 [(0, 2, 4101), (4, 2, 256), (9, 1, 255)], placed,
        by unfold Admits; decide +kernel⟩,
   ⟨{ holding placed with til := { (holding placed).til with moves := [{ graph := 5, prim := 0, why := .host, step := 3 }] } }, cmd 0x0102 (fill 32 [(0,
        2, 4101), (4, 4, 16), (8, 8, 64)]), 0, fill 32 [(0, 2, 4101), (4, 4, 16), (8, 8, 64)], placed, by unfold Admits; decide +kernel⟩,
   ⟨ready, cmd 0x0105 (fill 16 [(0, 4, 131071), (4, 4, 1), (8, 8, 64)]), 0, fill 16 [(0, 4, 131071), (4, 4, 1), (8, 8, 64)],
        by unfold Admits; decide +kernel⟩⟩

/-- One step on entry 0 at gain 1. -/
def step0 : SeqStep := { entry := 0, gain := 0, rate := 0, filt := 0, extra := 0, count := 1 }

/-- A zero measurement of entry 3, and a full measurement at `x` with mean `x`. -/
def zero3 : Meas := { entry := 3, full := false, n := 16, target := 0, held := true }
def full3 (x : Int) : Meas := { entry := 3, full := true, n := 16, target := x, sum := 16 * x, held := true }

/-- `ready` with these held measurements of PM 5. -/
def measured5 (l : List Meas) : State := { ready with convs := [(5, { meas := l })] }

/-- All the positions for system calibration sets hold sets of converter 6. -/
def fullSets : Tbl (Option Bytes) := (List.range 1024).map fun i => (i, some [6, 0])

def fullStore (s : State) : State := { s with keep := { s.keep with sysSets := fullSets } }

theorem get_const {α : Type} (d v : α) (k : Nat) (l : List Nat) (h : k ∈ l) : Tbl.get d k (l.map fun i => (i, v)) = v := by
  induction l with
  | nil => cases h
  | cons j l ih =>
    by_cases e : j = k
    · simp [Tbl.get, e]
    · have : k ∈ l := (List.mem_cons.mp h).resolve_left (Ne.symm e)
      simp [Tbl.get, e, ih this]

theorem fullSets_get (i : Nat) (h : i < 1024) : Tbl.get none i fullSets = some [6, 0] := get_const _ _ _ _ (List.mem_range.mpr h)

theorem sysSlot_full (s : State) (c entry : Nat) (hs : s.keep.sysSets = fullSets) (h : c ≠ 6) : s.sysSlot c entry = none := by
  have p (f : Option (Nat × Nat) → Bool) (hf : f (some (6, 0)) = false) : (List.range 1024).find?
      (fun i => f ((Tbl.get none i s.keep.sysSets).map fun b => (byteAt b 0, byteAt b 1))) = none :=
    List.find?_eq_none.mpr fun i hi => by
      rw [hs, fullSets_get i (List.mem_range.mp hi)]; exact fun e => Bool.noConfusion (hf.symm.trans e)
  unfold State.sysSlot
  simp only [p (· == some (c, entry)) (by simp [Ne.symm h]), p (· == none) rfl]

theorem meets_ConversionCommandsComplete :
    (∃ (s : State) (d : Desc) (slot : Nat) (a : Bytes), Admits s 0x0200 d slot a ∧ cfgBad a = none ∧ byteAt a 0 < 192 ∧
        (s.admitted d slot a).cfgStatus (readCfg a) = stOK ∧ ((s.admitted d slot a).region (convRegion (byteAt a 0))).failed = false ∧
        ((s.admitted d slot a).region (convRegion (byteAt a 0))).ready = true) ∧
    (∃ (s : State) (d : Desc) (steps : Bytes) (slot : Nat) (a : Bytes), Admits s 0x0201 d slot a ∧ firstBad a (rsv 2 6) = none ∧ byteAt a 0 < 192 ∧
        stepsBad (byteAt a 0) ((s.at d.t).seqBytes a steps) (min (byteAt a 1) 64) = none ∧ fld a 8 8 % 8 = 0 ∧
        (s.admitted d slot a).bufOk (fld a 8 8) (8 * byteAt a 1) = true ∧
        (s.admitted d slot a).seqStatus (byteAt a 0) (byteAt a 1) ((List.range (min (byteAt a 1) 64)).map (fun i => readStep (byteAt a 0) ((s.admitted d slot a).seqBytes a steps) (8 * i))) = stOK ∧
        ((s.admitted d slot a).region (convRegion (byteAt a 0))).failed = false ∧
        ((s.admitted d slot a).region (convRegion (byteAt a 0))).ready = true) ∧
    (∃ (s : State) (d : Desc) (slot : Nat) (a : Bytes), Admits s 0x0202 d slot a ∧ maskConvs a 0 ≠ [] ∧ (∀ c ∈ maskConvs a 0,
        (s.conv c).cfg.mode = 2)) ∧
    (∃ (s : State) (d : Desc) (slot : Nat) (a : Bytes), Admits s 0x0203 d slot a ∧ sysMeasBad a = none ∧ byteAt a 0 < 192 ∧ 16 ≤ fld a 4 4 ∧
        fld a 4 4 ≤ 65536 ∧ (isWM (byteAt a 0) = true → convMin (byteAt a 0) ≤ toI 32 (fld a 8 4) ∧ toI 32 (fld a 8 4) ≤ convMax (byteAt a 0)) ∧
        (s.conv (byteAt a 0)).cfg.mode ≠ 0 ∧ (∃ e ∈ (s.conv (byteAt a 0)).steps, e.entry = byteAt a 1) ∧
        ((s.admitted d slot a).region (convRegion (byteAt a 0))).failed = false ∧
        ((s.admitted d slot a).region (convRegion (byteAt a 0))).ready = true) ∧
    (∃ (s : State) (d : Desc) (slot : Nat) (a : Bytes), Admits s 0x0204 d slot a ∧ sysMeasBad a = none ∧ byteAt a 0 < 192 ∧ 16 ≤ fld a 4 4 ∧
        fld a 4 4 ≤ 65536 ∧ (isWM (byteAt a 0) = true → convMin (byteAt a 0) ≤ toI 32 (fld a 8 4) ∧ toI 32 (fld a 8 4) ≤ convMax (byteAt a 0)) ∧
        (s.conv (byteAt a 0)).cfg.mode ≠ 0 ∧ (∃ e ∈ (s.conv (byteAt a 0)).steps, e.entry = byteAt a 1) ∧
        ((s.admitted d slot a).region (convRegion (byteAt a 0))).failed = false ∧
        ((s.admitted d slot a).region (convRegion (byteAt a 0))).ready = true) ∧
    (∃ (s : State) (d : Desc) (slot : Nat) (a : Bytes), Admits s 0x0205 d slot a ∧ firstBad a ((2, 0xF8) :: rsv 3 5) = none ∧ (byteAt a 0) < 192 ∧
        (byteAt a 1) ≤ 63 ∧ ((s.admitted d slot a).region (convRegion (byteAt a 0))).failed = false ∧
        ((s.admitted d slot a).region (convRegion (byteAt a 0))).ready = true ∧ byteAt a 2 % 8 = 4) ∧
    (∃ (s : State) (d : Desc) (slot : Nat) (a : Bytes) (z : Meas) (f : Meas), Admits s 0x0205 d slot a ∧ firstBad a ((2, 0xF8) :: rsv 3 5) = none ∧
        (byteAt a 0) < 192 ∧ (byteAt a 1) ≤ 63 ∧ ((s.admitted d slot a).region (convRegion (byteAt a 0))).failed = false ∧
        ((s.admitted d slot a).region (convRegion (byteAt a 0))).ready = true ∧ byteAt a 2 % 8 ≠ 0 ∧ byteAt a 2 % 8 ≠ 4 ∧
        (s.conv (byteAt a 0)).meas.find? (fun m => m.held && decide (m.entry = (byteAt a 1)) && !m.full) = some z ∧
        (s.conv (byteAt a 0)).meas.find? (fun m => m.held && decide (m.entry = (byteAt a 1)) && m.full) = some f ∧ sysSolve (byteAt a 0) z f = none) ∧
    (∃ (s : State) (d : Desc) (slot : Nat) (a : Bytes) (z : Meas) (f : Meas) (g : Nat) (off : Int), Admits s 0x0205 d slot a ∧ firstBad a ((2,
        0xF8) :: rsv 3 5) = none ∧ (byteAt a 0) < 192 ∧ (byteAt a 1) ≤ 63 ∧ ((s.admitted d slot a).region (convRegion (byteAt a 0))).failed = false ∧
        ((s.admitted d slot a).region (convRegion (byteAt a 0))).ready = true ∧ byteAt a 2 % 8 ≠ 0 ∧ byteAt a 2 % 8 ≠ 4 ∧
        (s.conv (byteAt a 0)).meas.find? (fun m => m.held && decide (m.entry = (byteAt a 1)) && !m.full) = some z ∧
        (s.conv (byteAt a 0)).meas.find? (fun m => m.held && decide (m.entry = (byteAt a 1)) && m.full) = some f ∧
        sysSolve (byteAt a 0) z f = some (g, off) ∧ bit (byteAt a 2) 1 = true ∧
        ((if bit (byteAt a 2) 2 then (s.admitted d slot a).sysClear (byteAt a 0) (byteAt a 1) else s.admitted d slot a)).sysSlot (byteAt a 0) (byteAt a 1) = none) ∧
    (∃ (s : State) (d : Desc) (slot : Nat) (a : Bytes) (z : Meas) (f : Meas) (g : Nat) (off : Int), Admits s 0x0205 d slot a ∧ firstBad a ((2,
        0xF8) :: rsv 3 5) = none ∧ (byteAt a 0) < 192 ∧ (byteAt a 1) ≤ 63 ∧ ((s.admitted d slot a).region (convRegion (byteAt a 0))).failed = false ∧
        ((s.admitted d slot a).region (convRegion (byteAt a 0))).ready = true ∧ byteAt a 2 % 8 ≠ 0 ∧ byteAt a 2 % 8 ≠ 4 ∧
        (s.conv (byteAt a 0)).meas.find? (fun m => m.held && decide (m.entry = (byteAt a 1)) && !m.full) = some z ∧
        (s.conv (byteAt a 0)).meas.find? (fun m => m.held && decide (m.entry = (byteAt a 1)) && m.full) = some f ∧
        sysSolve (byteAt a 0) z f = some (g, off) ∧
        (bit (byteAt a 2) 1 = true → (((if bit (byteAt a 2) 2 then (s.admitted d slot a).sysClear (byteAt a 0) (byteAt a 1) else s.admitted d slot a)).sysSlot (byteAt a 0) (byteAt a 1)).isSome = true)) ∧
    (∃ (s : State) (d : Desc) (slot : Nat) (a : Bytes), Admits s 0x0205 d slot a ∧ firstBad a ((2, 0xF8) :: rsv 3 5) = none ∧ (byteAt a 0) < 192 ∧
        (byteAt a 1) ≤ 63 ∧ ((s.admitted d slot a).region (convRegion (byteAt a 0))).failed = false ∧
        ((s.admitted d slot a).region (convRegion (byteAt a 0))).ready = true ∧ byteAt a 2 % 8 ≠ 0 ∧ bit (byteAt a 2) 2 = false ∧
        (∀ m ∈ (s.conv (byteAt a 0)).meas, m.held = true → m.entry ≠ (byteAt a 1))) ∧
    (∃ (s : State) (t : Nat) (slot : Nat) (c : Nat), (s.hnd slot).work = .syscal c ∧ (∃ m ∈ (s.conv c).meas, m.slot = slot ∧ m.held = false ∧
        m.start + 15000000000 ≤ (s.at t).now)) :=
  ⟨⟨ready, cmd 0x0200 (fill 16 [(0, 1, 191), (9, 1, 255)]), 0, fill 16 [(0, 1, 191), (9, 1, 255)], by unfold Admits; decide +kernel⟩,
   ⟨ready, cmd 0x0201 (fill 16 [(0, 1, 191), (1, 1, 1), (8, 8, 64)]), fill 8 [(4, 2, 1)], 0, fill 16 [(0, 1, 191), (1, 1, 1), (8, 8, 64)],
        by unfold Admits; decide +kernel⟩,
   ⟨{ ready with convs := [(191, { cfg := { mode := 2 } })] }, cmd 0x0202 (fill 24 [(23, 1, 128)]), 0, fill 24 [(23, 1, 128)],
        by unfold Admits; decide +kernel⟩,
   ⟨{ ready with convs := [(191, { cfg := { mode := 1 }, steps := [step0] })] }, cmd 0x0203 (fill 16 [(0, 1, 191), (1, 1, 0), (4, 4, 16)]), 0,
        fill 16 [(0, 1, 191), (1, 1, 0), (4, 4, 16)], by unfold Admits; decide +kernel⟩,
   ⟨{ ready with convs := [(191, { cfg := { mode := 1 }, steps := [step0] })] }, cmd 0x0204 (fill 16 [(0, 1, 191), (1, 1, 0), (4, 4, 65536)]), 0,
        fill 16 [(0, 1, 191), (1, 1, 0), (4, 4, 65536)], by unfold Admits; decide +kernel⟩,
   ⟨ready, cmd 0x0205 (fill 8 [(0, 1, 191), (1, 1, 63), (2, 1, 4)]), 0, fill 8 [(0, 1, 191), (1, 1, 63), (2, 1, 4)], by unfold Admits; decide +kernel⟩,
   ⟨measured5 [zero3, full3 0], cmd 0x0205 (fill 8 [(0, 1, 5), (1, 1, 3), (2, 1, 1)]), 0, fill 8 [(0, 1, 5), (1, 1, 3), (2, 1, 1)], zero3, full3 0,
        by unfold Admits; decide +kernel⟩,
   ⟨fullStore (measured5 [zero3, full3 (2 ^ 24)]), cmd 0x0205 (fill 8 [(0, 1, 5), (1, 1, 3), (2, 1, 2)]), 0, fill 8 [(0, 1, 5), (1, 1, 3), (2, 1, 2)], zero3, full3 (2 ^ 24), 2 ^ 30, 0, by
     refine ⟨?_, ?_, ?_, ?_, ?_, ?_, ?_, ?_, ?_, ?_, ?_, by decide +kernel, sysSlot_full _ _ _ (by decide +kernel) (by decide +kernel)⟩ <;> first | decide +kernel | (unfold Admits; decide +kernel)⟩,
   ⟨measured5 [zero3, full3 (2 ^ 24)], cmd 0x0205 (fill 8 [(0, 1, 5), (1, 1, 3), (2, 1, 1)]), 0, fill 8 [(0, 1, 5), (1, 1, 3), (2, 1, 1)], zero3,
        full3 (2 ^ 24), 2 ^ 30, 0, by unfold Admits; decide +kernel⟩,
   ⟨measured5 [full3 0], cmd 0x0205 (fill 8 [(0, 1, 5), (1, 1, 4), (2, 1, 1)]), 0, fill 8 [(0, 1, 5), (1, 1, 4), (2, 1, 1)],
        by unfold Admits; decide +kernel⟩,
   ⟨{ ready with time := { ready.time with timebase := 15000000000 }, chip := { ready.chip with handles := [(4, { st := 1, work := .syscal 5 })] }, convs := [(5, { meas := [{ entry := 0, full := false, n := 16, target := 0, slot := 4 }] })] },
        0, 4, 5, by decide +kernel⟩⟩

/-- Converter 191 at the time base `t`. -/
def conv191 (t : Nat) (v : Conv) : State := { ready with time := { ready.time with timebase := t }, convs := [(191, v)] }

theorem meets_ConverterEventsComplete :
    (∃ (s : State) (t : Nat) (c : Nat) (p : Nat × Nat) (e : SeqStep), c < 192 ∧ (s.conv c).rephase = false ∧ (s.at t).time.running = true ∧
        (s.at t).now = t ∧ (s.conv c).period c = some p ∧ atInstant p t = true ∧ (s.conv c).eff = some e ∧
        ((((s.at t).applyCoef c).crossAt (some c)).conv c).waits = [] ∧ ((((s.at t).applyCoef c).crossAt (some c)).conv c).eff.isSome = true) ∧
    (∃ (s : State) (t : Nat) (c : Nat) (p : Nat × Nat) (e : SeqStep), c < 192 ∧ (s.conv c).rephase = false ∧ (s.at t).time.running = true ∧
        (s.at t).now = t ∧ (s.conv c).period c = some p ∧ atInstant p t = true ∧ (s.conv c).eff = some e ∧
        ((((s.at t).applyCoef c).crossAt (some c)).conv c).waits ≠ []) ∧
    (∃ (s : State) (t : Nat) (c : Nat) (p : Nat × Nat), c < 192 ∧ (s.conv c).rephase = false ∧ (s.at t).time.running = true ∧ (s.at t).now = t ∧
        (s.conv c).period c = some p ∧ atInstant p t = true ∧ (s.conv c).eff = none ∧ (s.conv c).waits ≠ []) ∧
    (∃ (s : State) (t : Nat) (c : Nat) (p : Nat × Nat), c < 192 ∧ (s.conv c).rephase = false ∧ (s.at t).time.running = true ∧ (s.at t).now = t ∧
        (s.conv c).period c = some p ∧ atInstant p t = true ∧ (s.conv c).eff = none ∧ (s.conv c).waits = [] ∧ (s.conv c).cfg.mode ≠ 0 ∧
        (s.conv c).waiting = false) ∧
    (∃ (s : State) (t : Nat) (c : Nat) (p : Nat × Nat), c < 192 ∧ (s.conv c).rephase = false ∧ (s.at t).time.running = true ∧ (s.at t).now = t ∧
        (s.conv c).period c = some p ∧ atInstant p t = true ∧ (s.conv c).eff = none ∧ (s.conv c).waits = [] ∧ (s.conv c).cfg.mode ≠ 0 ∧
        (s.conv c).waiting = true ∧ ((s.conv c).calDone = true ∨ (s.conv c).waitUntil ≤ t)) ∧
    (∃ (s : State) (t : Nat) (c : Nat) (p : Nat × Nat), c < 192 ∧ (s.conv c).rephase = false ∧ (s.at t).time.running = true ∧ (s.at t).now = t ∧
        (s.conv c).period c = some p ∧ atInstant p t = true ∧ (s.conv c).eff = none ∧ (s.conv c).waits = [] ∧ (s.conv c).cfg.mode ≠ 0 ∧
        (s.conv c).waiting = true ∧ (s.conv c).calDone = false ∧ t < (s.conv c).waitUntil) ∧
    (∃ (s : State) (t : Nat) (c : Nat) (p : Nat × Nat), c < 192 ∧ (s.conv c).period c = some p ∧ atInstant p t = false) ∧
    (∃ (s : State) (t : Nat) (kind : Nat) (index : Nat), 2 ≤ kind ∧ kind ≤ 5 ∧ trigIndexOk kind index = true ∧ (s.at t).sourceLive kind index = true) ∧
    (∃ (s : State) (t : Nat) (index : Nat), index < 1024 ∧ (s.at t).sourceLive 1 index = true) ∧
    (∃ (s : State) (t : Nat), t % 250 = 0 ∧ (s.at t).time.running = true ∧ (s.at t).now = t) ∧
    (∃ (s : State) (c : Nat) (e : SeqStep), c < 192 ∧ (s.conv c).eff = some e ∧ (s.conv c).overload = none) ∧
    (∃ (s : State) (c : Nat) (from_ : Nat), c < 192 ∧ (s.conv c).overload = some from_) ∧
    (∃ (s : State) (t : Nat) (c : Nat), c < 192 ∧ (s.conv c).cfg.mode = 0 ∧ (s.conv c).offSince + 2500000 < (s.at t).now ∧
        (s.conv c).borrowed = false) :=
  ⟨⟨conv191 0 { eff := some step0 }, 0, 191, ratePeriod 191 0, step0, by decide +kernel⟩,
   ⟨conv191 0 { eff := some step0, waits := [(0, none, [step0])] }, 0, 191, ratePeriod 191 0, step0, by decide +kernel⟩,
   ⟨conv191 0 { cfg := { mode := 1 }, waits := [(0, none, [step0])] }, 0, 191, ratePeriod 191 0, by decide +kernel⟩,
   ⟨conv191 0 { cfg := { mode := 1 }, steps := [step0] }, 0, 191, ratePeriod 191 0, by decide +kernel⟩,
   ⟨conv191 0 { cfg := { mode := 1 }, steps := [step0], waiting := true }, 0, 191, ratePeriod 191 0, by decide +kernel⟩,
   ⟨conv191 0 { cfg := { mode := 1 }, steps := [step0], waiting := true, waitUntil := 1 }, 0, 191, ratePeriod 191 0, by decide +kernel⟩,
   ⟨conv191 0 { eff := some step0 }, 1, 191, ratePeriod 191 0, by decide +kernel⟩,
   ⟨ready, 0, 3, 63, by decide +kernel⟩,
   ⟨ready, 0, 1023, by decide +kernel⟩,
   ⟨ready, 2000, by decide +kernel⟩,
   ⟨conv191 0 { eff := some step0 }, 191, step0, by decide +kernel⟩,
   ⟨conv191 0 { overload := some 7 }, 191, 7, by decide +kernel⟩,
   ⟨ready, 2500001, 191, by decide +kernel⟩⟩

/-- `ready` with a run in progress: object `i` of kind `k`. -/
def running (k i : Nat) : State := { ready with cal := { runs := [{ kind := k, idx := i, start := 0 }] }, convs := [(5, { comp := 2 })] }

/-- A result with these steps. -/
def result (fail : Nat) (off gain : Int) : CalResult := { fail := fail, offStep := off, gainStep := gain, ranks := [], details := [], moved := [], coef := [], trims := [] }

/-- `ready` with objects due. -/
def dueFor (l : List CalDue) : State := { ready with cal := { due := l } }

/-- `ready` with an external reference declared, which a procedure measures for the regions `l`. -/
def referring (l : List Nat) : State := { ready with
  cal := { ref := { declared := 250000000, tol := 100 }, procedure := some { regions := l } }, convs := [(24, { comp := 3 })] }

/-- `ready` in an alarm of class 1. -/
def alarmed1 : State := { ready with husk := { ready.husk with cls := 1 } }

theorem meets_CalibrationComplete :
    (∃ (s : State) (d : Desc) (slot : Nat) (a : Bytes), Admits s 0x0400 d slot a ∧ firstBad a ((1,
        0xF8) :: rsv 4 4 ++ (if bit (byteAt a 1) 2 then [] else rsv 8 8)) = none ∧ byteAt a 0 ≤ 4 ∧ fld a 2 2 < calCount (byteAt a 0) ∧
        fld a 8 8 % 8 = 0 ∧
        (bit (byteAt a 1) 2 = true → (s.admitted d slot a).bufOk (fld a 8 8) (32 * ((s.admitted d slot a).calTargets (byteAt a 0) (fld a 2 2)).length) = true) ∧
        (∀ r ∈ calRegions (byteAt a 0) (fld a 2 2), (s.region r).failed = false ∧ (s.region r).ready = true) ∧
        ((s.admitted d slot a).calRunsOf ((s.admitted d slot a).calTargets (byteAt a 0) (fld a 2 2))) = [] ∧
        ((bit (byteAt a 1) 0 && decide (s.cal.ref.declared ≠ 0))) = false) ∧
    (∃ (s : State) (d : Desc) (slot : Nat) (a : Bytes), Admits s 0x0400 d slot a ∧ firstBad a ((1,
        0xF8) :: rsv 4 4 ++ (if bit (byteAt a 1) 2 then [] else rsv 8 8)) = none ∧ byteAt a 0 ≤ 4 ∧ fld a 2 2 < calCount (byteAt a 0) ∧
        fld a 8 8 % 8 = 0 ∧
        (bit (byteAt a 1) 2 = true → (s.admitted d slot a).bufOk (fld a 8 8) (32 * ((s.admitted d slot a).calTargets (byteAt a 0) (fld a 2 2)).length) = true) ∧
        (∀ r ∈ calRegions (byteAt a 0) (fld a 2 2), (s.region r).failed = false ∧ (s.region r).ready = true) ∧
        ((s.admitted d slot a).calRunsOf ((s.admitted d slot a).calTargets (byteAt a 0) (fld a 2 2))) ≠ [] ∧
        ((bit (byteAt a 1) 0 && decide (s.cal.ref.declared ≠ 0))) = false) ∧
    (∃ (s : State) (d : Desc) (slot : Nat) (a : Bytes), Admits s 0x0400 d slot a ∧ firstBad a ((1,
        0xF8) :: rsv 4 4 ++ (if bit (byteAt a 1) 2 then [] else rsv 8 8)) = none ∧ byteAt a 0 ≤ 4 ∧ fld a 2 2 < calCount (byteAt a 0) ∧
        fld a 8 8 % 8 = 0 ∧
        (bit (byteAt a 1) 2 = true → (s.admitted d slot a).bufOk (fld a 8 8) (32 * ((s.admitted d slot a).calTargets (byteAt a 0) (fld a 2 2)).length) = true) ∧
        (∀ r ∈ calRegions (byteAt a 0) (fld a 2 2), (s.region r).failed = false ∧ (s.region r).ready = true) ∧
        ((bit (byteAt a 1) 0 && decide (s.cal.ref.declared ≠ 0))) = true) ∧
    (∃ (s : State) (d : Desc) (slot : Nat) (a : Bytes), Admits s 0x0401 d slot a ∧ byteAt a 0 = 0 ∧ firstBad a ((1, 0xF8) :: rsv 14 34) = none ∧
        50 ≤ fld a 2 2 ∧ fld a 2 2 ≤ 2000 ∧ 1 ≤ fld a 4 2 ∧ fld a 4 2 ≤ 1000 ∧ 1 ≤ fld a 6 2 ∧ fld a 6 2 ≤ 10000 ∧ 1 ≤ fld a 8 2 ∧ fld a 8 2 ≤ 600 ∧
        fld a 10 4 ≤ 86400 ∧ bit (byteAt a 1) 2 = false) ∧
    (∃ (s : State) (d : Desc) (slot : Nat) (a : Bytes), Admits s 0x0401 d slot a ∧ byteAt a 0 = 0 ∧ firstBad a ((1, 0xF8) :: rsv 14 34) = none ∧
        50 ≤ fld a 2 2 ∧ fld a 2 2 ≤ 2000 ∧ 1 ≤ fld a 4 2 ∧ fld a 4 2 ≤ 1000 ∧ 1 ≤ fld a 6 2 ∧ fld a 6 2 ≤ 10000 ∧ 1 ≤ fld a 8 2 ∧ fld a 8 2 ≤ 600 ∧
        fld a 10 4 ≤ 86400 ∧ bit (byteAt a 1) 2 = true ∧ s.keepLocked = false) ∧
    (∃ (s : State) (d : Desc) (slot : Nat) (a : Bytes), Admits s 0x0401 d slot a ∧ byteAt a 0 = 0 ∧ firstBad a ((1, 0xF8) :: rsv 14 34) = none ∧
        50 ≤ fld a 2 2 ∧ fld a 2 2 ≤ 2000 ∧ 1 ≤ fld a 4 2 ∧ fld a 4 2 ≤ 1000 ∧ 1 ≤ fld a 6 2 ∧ fld a 6 2 ≤ 10000 ∧ 1 ≤ fld a 8 2 ∧ fld a 8 2 ≤ 600 ∧
        fld a 10 4 ≤ 86400 ∧ bit (byteAt a 1) 2 = true ∧ s.keepLocked = true) ∧
    (∃ (s : State) (d : Desc) (slot : Nat) (a : Bytes) (g : Graph), Admits s 0x0401 d slot a ∧ byteAt a 0 = 1 ∧
        firstBad a (rsv 1 1 ++ rsv 4 12) = none ∧ (s.consumed d).namesObj (fld a 2 2) 1 = true ∧ s.graph (fld a 2 2 % 4096) = some g) ∧
    (∃ (s : State) (d : Desc) (slot : Nat) (a : Bytes), Admits s 0x0402 d slot a ∧ firstBad a ((6, 0xF0) :: rsv 7 9) = none ∧ 100000000 ≤ fld a 0 4 ∧
        fld a 0 4 ≤ 400000000 ∧ 1 ≤ fld a 4 2 ∧ fld a 4 2 ≤ 10000 ∧ bit (byteAt a 6) 2 = false) ∧
    (∃ (s : State) (d : Desc) (slot : Nat) (a : Bytes), Admits s 0x0402 d slot a ∧ firstBad a ((6, 0xF0) :: rsv 7 9) = none ∧ 100000000 ≤ fld a 0 4 ∧
        fld a 0 4 ≤ 400000000 ∧ 1 ≤ fld a 4 2 ∧ fld a 4 2 ≤ 10000 ∧ bit (byteAt a 6) 2 = true) ∧
    (∃ (s : State) (t : Nat) (r : Nat) (kind : Nat) (idx0 : Nat) (e : CalDue),
        s.cal.due.find? (fun x => x.kind == kind && x.idx == ((s.at t).calLeader kind idx0)) = some e ∧
        objRegion kind ((s.at t).calLeader kind idx0) = r ∧ (s.at t).runReady e = true ∧ (kind ≠ 2 → ∀ x ∈ s.cal.due,
        x.kind = kind → x.idx ≠ ((s.at t).calLeader kind idx0) → objRegion x.kind x.idx = r → (s.at t).runReady x = true → (s.at t).dueBefore x e = false) ∧
        kind = 0) ∧
    (∃ (s : State) (t : Nat) (r : Nat) (kind : Nat) (idx0 : Nat) (e : CalDue),
        s.cal.due.find? (fun x => x.kind == kind && x.idx == ((s.at t).calLeader kind idx0)) = some e ∧
        objRegion kind ((s.at t).calLeader kind idx0) = r ∧ (s.at t).runReady e = true ∧ (kind ≠ 2 → ∀ x ∈ s.cal.due,
        x.kind = kind → x.idx ≠ ((s.at t).calLeader kind idx0) → objRegion x.kind x.idx = r → (s.at t).runReady x = true → (s.at t).dueBefore x e = false) ∧
        kind = 1) ∧
    (∃ (s : State) (t : Nat) (r : Nat) (kind : Nat) (idx0 : Nat) (e : CalDue),
        s.cal.due.find? (fun x => x.kind == kind && x.idx == ((s.at t).calLeader kind idx0)) = some e ∧
        objRegion kind ((s.at t).calLeader kind idx0) = r ∧ (s.at t).runReady e = true ∧ (kind ≠ 2 → ∀ x ∈ s.cal.due,
        x.kind = kind → x.idx ≠ ((s.at t).calLeader kind idx0) → objRegion x.kind x.idx = r → (s.at t).runReady x = true → (s.at t).dueBefore x e = false) ∧
        kind = 2) ∧
    (∃ (s : State) (t : Nat) (kind : Nat) (idx0 : Nat) (e : CalRun) (res : CalResult),
        s.cal.runs.find? (fun x => x.kind == kind && x.idx == ((s.at t).calLeader kind idx0)) = some e ∧ kind ≤ 2 ∧
        (s.at t).ctrlOk (objRegion kind ((s.at t).calLeader kind idx0)) = true ∧
        (s.at t).repairsIn (objRegion kind ((s.at t).calLeader kind idx0)) = false ∧
        (kind = 2 → res.fail = 0 → 64 ≤ (s.dac ((s.at t).calLeader kind idx0)).readings) ∧ e.start + (s.at t).runWindows e ≤ (s.at t).now ∧
        (kind = 1 → (s.conv ((s.at t).calLeader kind idx0)).comp = 2) ∧ (s.at t).runFails e res.fail = 0 ∧ res.offStep.natAbs ≤ e.offLimit * 100 ∧
        res.gainStep.natAbs ≤ e.gainLimit * 100) ∧
    (∃ (s : State) (t : Nat) (kind : Nat) (idx0 : Nat) (e : CalRun) (res : CalResult),
        s.cal.runs.find? (fun x => x.kind == kind && x.idx == ((s.at t).calLeader kind idx0)) = some e ∧ kind ≤ 2 ∧
        (s.at t).ctrlOk (objRegion kind ((s.at t).calLeader kind idx0)) = true ∧
        (s.at t).repairsIn (objRegion kind ((s.at t).calLeader kind idx0)) = false ∧
        (kind = 2 → res.fail = 0 → 64 ≤ (s.dac ((s.at t).calLeader kind idx0)).readings) ∧ e.start + (s.at t).runWindows e ≤ (s.at t).now ∧
        (kind = 1 → (s.conv ((s.at t).calLeader kind idx0)).comp = 2) ∧ (s.at t).runFails e res.fail = 0 ∧
        (e.offLimit * 100 < res.offStep.natAbs ∨ e.gainLimit * 100 < res.gainStep.natAbs)) ∧
    (∃ (s : State) (t : Nat) (kind : Nat) (idx0 : Nat) (e : CalRun) (res : CalResult),
        s.cal.runs.find? (fun x => x.kind == kind && x.idx == ((s.at t).calLeader kind idx0)) = some e ∧ kind ≤ 2 ∧
        (s.at t).ctrlOk (objRegion kind ((s.at t).calLeader kind idx0)) = true ∧
        (s.at t).repairsIn (objRegion kind ((s.at t).calLeader kind idx0)) = false ∧
        (kind = 2 → res.fail = 0 → 64 ≤ (s.dac ((s.at t).calLeader kind idx0)).readings) ∧ e.start + (s.at t).runWindows e ≤ (s.at t).now ∧
        (kind = 1 → (s.conv ((s.at t).calLeader kind idx0)).comp = 2) ∧ 0 < (s.at t).runFails e res.fail) ∧
    (∃ (s : State) (t : Nat) (kind : Nat) (idx : Nat), s.cal.policy.interval ≠ 0 ∧ (s.at t).dueKind kind idx = true ∧
        (s.at t).ctrlOk (objRegion kind idx) = true ∧ ((s.at t).lastRun kind idx).getD 0 + s.cal.policy.interval * 250000000 ≤ (s.at t).now) ∧
    (∃ (s : State) (p : RefProc) (ms : List RefRegion), s.cal.procedure = some p ∧ (∀ r ∈ p.regions, (s.conv (8 * r)).comp = 3) ∧ p.regions ≠ [] ∧
        ms.length = p.regions.length ∧ (∀ m ∈ ms, m.fail = 4)) ∧
    (∃ (s : State) (p : RefProc) (r : Nat) (m : RefRegion), s.cal.procedure = some p ∧ p.regions = [r] ∧ (s.conv (8 * r)).comp = 3 ∧
        (s.region r).failed = false ∧ refFail s.cal.ref m = 0 ∧ ((refScale s.cal.ref.declared [(r,
        m.mean)]).2 - s.cal.ref.scale).natAbs ≤ s.cal.policy.gainLimit * 100) ∧
    (∃ (s : State) (t : Nat) (kind : Nat) (n : Nat) (k : Keep), 5 ≤ s.time.step ∧ s.chip.restarting = false ∧ s.chip.failed = false ∧
        (s.at t).keepLocked = false ∧
        (Tbl.get 0 (keepKey kind n) s.cal.lastWrite = 0 ∨ Tbl.get 0 (keepKey kind n) s.cal.lastWrite + 15000000000 ≤ (s.at t).now) ∧ ((kind = 0 ∧
        n < 1024 ∧ s.cal.policy.store = true ∧ (s.cell n).calTime.isSome = true ∧ (s.at t).storedCal 0 n ≠ some ((s.at t).cellKeep n) ∧
        k = { s.keep with cells := Tbl.set none n (some ((s.at t).cellKeep n)) s.keep.cells }) ∨ (kind = 1 ∧ n < 64 ∧ s.cal.policy.store = true ∧
        (s.conv n).calTime.isSome = true ∧ (s.at t).storedCal 1 n ≠ some ((s.at t).convKeep n) ∧
        k = { s.keep with pms := Tbl.set none n (some ((s.at t).convKeep n)) s.keep.pms }) ∨ (kind = 1 ∧ 64 ≤ n ∧ n < 192 ∧
        s.cal.policy.store = true ∧ (s.conv n).calTime.isSome = true ∧ (s.at t).storedCal 1 n ≠ some ((s.at t).convKeep n) ∧
        k = { s.keep with wms := Tbl.set none (n - 64) (some ((s.at t).convKeep n)) s.keep.wms }) ∨ (kind = 2 ∧ n < 64 ∧ s.cal.policy.store = true ∧
        (s.dac n).calTime.isSome = true ∧ (s.at t).storedCal 2 n ≠ some ((s.at t).dacKeep n) ∧
        k = { s.keep with dacCals := Tbl.set none n (some ((s.at t).dacKeep n)) s.keep.dacCals }) ∨ (kind = 3 ∧ n < 65536 ∧ (∃ e ∈ [2 * n,
        2 * n + 1], Tbl.get (255, false) e s.keep.health ≠ (s.at t).healthNow e) ∧
        k = { s.keep with health := [2 * n, 2 * n + 1].foldl (fun h e => Tbl.set (255, false) e ((s.at t).healthNow e) h) s.keep.health }) ∨ (kind = 4 ∧
        ∃ b, (s.at t).staleRec n = some b ∧ k = { s.keep with sysSets := Tbl.set none n (some b) s.keep.sysSets }))) :=
  ⟨⟨ready, cmd 0x0400 (fill 16 [(0, 1, 3), (2, 2, 7)]), 0, fill 16 [(0, 1, 3), (2, 2, 7)], by unfold Admits; decide +kernel⟩,
   ⟨ready, cmd 0x0400 (fill 16 [(0, 1, 2), (2, 2, 63)]), 0, fill 16 [(0, 1, 2), (2, 2, 63)], by unfold Admits; decide +kernel⟩,
   ⟨referring [], cmd 0x0400 (fill 16 [(0, 1, 3), (1, 1, 1), (2, 2, 7)]), 0, fill 16 [(0, 1, 3), (1, 1, 1), (2, 2, 7)], by unfold Admits; decide +kernel⟩,
   ⟨ready, cmd 0x0401 (fill 48 [(1, 1, 0), (2, 2, 50), (4, 2, 1000), (6, 2, 1), (8, 2, 600), (10, 4, 86400)]), 0, fill 48 [(1, 1, 0), (2, 2, 50), (4, 2,
        1000), (6, 2, 1), (8, 2, 600), (10, 4, 86400)], by unfold Admits; decide +kernel⟩,
   ⟨ready, cmd 0x0401 (fill 48 [(1, 1, 4), (2, 2, 50), (4, 2, 1000), (6, 2, 1), (8, 2, 600), (10, 4, 86400)]), 0, fill 48 [(1, 1, 4), (2, 2, 50), (4, 2,
        1000), (6, 2, 1), (8, 2, 600), (10, 4, 86400)], by unfold Admits; decide +kernel⟩,
   ⟨alarmed1, cmd 0x0401 (fill 48 [(1, 1, 4), (2, 2, 50), (4, 2, 1000), (6, 2, 1), (8, 2, 600), (10, 4, 86400)]), 0, fill 48 [(1, 1, 4), (2, 2, 50), (4,
        2, 1000), (6, 2, 1), (8, 2, 600), (10, 4, 86400)], by unfold Admits; decide +kernel⟩,
   ⟨holding placed, cmd 0x0401 (fill 48 [(0, 1, 1), (2, 2, 4101)]), 0, fill 48 [(0, 1, 1), (2, 2, 4101)], placed, by unfold Admits; decide +kernel⟩,
   ⟨ready, cmd 0x0402 (fill 16 [(0, 4, 100000000), (4, 2, 10000), (6, 1, 0)]), 0, fill 16 [(0, 4, 100000000), (4, 2, 10000), (6, 1, 0)],
        by unfold Admits; decide +kernel⟩,
   ⟨ready, cmd 0x0402 (fill 16 [(0, 4, 100000000), (4, 2, 10000), (6, 1, 4)]), 0, fill 16 [(0, 4, 100000000), (4, 2, 10000), (6, 1, 4)],
        by unfold Admits; decide +kernel⟩,
   ⟨dueFor [{ kind := 0, idx := 1023, since := 0 }], 0, 7, 0, 1023, { kind := 0, idx := 1023, since := 0 }, by decide +kernel⟩,
   ⟨{ dueFor [{ kind := 1, idx := 191, since := 0 }] with convs := [(191, { cfg := { mode := 1 } })] }, 0, 7, 1, 191,
        { kind := 1, idx := 191, since := 0 }, by decide +kernel⟩,
   ⟨{ dueFor [{ kind := 2, idx := 63, since := 0 }] with dacs := [(63, { upStep := 4 })] }, 0, 7, 2, 63, { kind := 2, idx := 63, since := 0 },
        by decide +kernel⟩,
   ⟨running 1 5, 0, 1, 5, { kind := 1, idx := 5, start := 0 }, result 0 5000 20000, by decide +kernel⟩,
   ⟨running 1 5, 0, 1, 5, { kind := 1, idx := 5, start := 0 }, result 0 5001 0, by decide +kernel⟩,
   ⟨running 1 5, 0, 1, 5, { kind := 1, idx := 5, start := 0 }, result 1 0 0, by decide +kernel⟩,
   ⟨{ ready with cal := { policy := { interval := 1 } }, convs := [(5, { cfg := { mode := 1 } })] }, 250000000, 1, 5, by decide +kernel⟩,
   ⟨referring [3], { regions := [3] }, [{ fail := 4, mean := 0 }], by decide +kernel⟩,
   ⟨referring [3], { regions := [3] }, 3, { fail := 0, mean := 250000000 }, by decide +kernel⟩,
   ⟨{ ready with til := { cells := [(1023, { calTime := some 0 })] } }, 0, 0, 1023, _, by
     refine ⟨?_, ?_, ?_, ?_, ?_, Or.inl ⟨?_, ?_, ?_, ?_, ?_, rfl⟩⟩ <;> decide +kernel⟩⟩

/-- A move of primitive 0 to cell 1 at step `n`. -/
def mv (n : Nat) : Move := { graph := 5, prim := 0, why := .host, dest := { place0 with c0 := 1 }, step := n, src := place0 }

/-- `holding g` with move `m`. -/
def moved (g : Graph) (m : Move) : State := { holding g with til := { (holding g).til with moves := [m] } }

/-- Cell 7 still carries the function that the move has moved away. -/
def vacating (s : State) : State := { s with til := { s.til with cells := [(7, { use := .fn 5 0 })] } }

/-- Converter 5 in use, its companion loop for `c`. -/
def sampling5 (s : State) (c : Nat) : State := { s with convs := [(5, { cfg := { mode := 1 }, eff := some step0, comp := c })] }

theorem meets_MoveStepsComplete :
    (∃ (s : State) (t : Nat) (slot : Nat) (i : Nat) (m : Move), (s.at t).moveOf slot i = some m ∧ m.step = 1 ∧ (s.at t).planRuns m = true) ∧
    (∃ (s : State) (t : Nat) (slot : Nat) (i : Nat) (m : Move) (g : Graph), (s.at t).moveOf slot i = some m ∧ s.graph slot = some g ∧ m.step = 3 ∧
        (s.at t).planRuns m = true ∧ (∀ c ∈ (s.at t).moveLoops g m, (s.conv c).comp = 0 ∨ (s.conv c).comp = 4)) ∧
    (∃ (s : State) (t : Nat) (slot : Nat) (i : Nat) (m : Move) (g : Graph), (s.at t).moveOf slot i = some m ∧ s.graph slot = some g ∧ m.step = 3 ∧
        (s.at t).planRuns m = true ∧ (∃ c ∈ (s.at t).moveLoops g m, (s.conv c).comp ≠ 0 ∧ (s.conv c).comp ≠ 4)) ∧
    (∃ (s : State) (t : Nat) (slot : Nat) (i : Nat) (m : Move) (offIn : Nat) (offOut : Nat) (gain : Nat), (s.at t).moveOf slot i = some m ∧
        m.step = 4 ∧ (s.at t).planRuns m = true ∧ (offIn ≤ 10 ∨ offOut ≤ 1880) ∧ gain ≤ 500) ∧
    (∃ (s : State) (t : Nat) (slot : Nat) (i : Nat) (m : Move) (offIn : Nat) (offOut : Nat) (gain : Nat), (s.at t).moveOf slot i = some m ∧
        m.step = 4 ∧ (s.at t).planRuns m = true ∧ (500 < gain ∨ (10 < offIn ∧ 1880 < offOut)) ∧ m.round < 2) ∧
    (∃ (s : State) (t : Nat) (slot : Nat) (i : Nat) (m : Move) (offIn : Nat) (offOut : Nat) (gain : Nat), (s.at t).moveOf slot i = some m ∧
        m.step = 4 ∧ (s.at t).planRuns m = true ∧ (500 < gain ∨ (10 < offIn ∧ 1880 < offOut)) ∧ 2 ≤ m.round) ∧
    (∃ (s : State) (t : Nat) (slot : Nat) (i : Nat) (m : Move) (g : Graph), (s.at t).moveOf slot i = some m ∧ s.graph slot = some g ∧ m.step = 6 ∧
        m.todo = [] ∧ (∀ r ∈ reaches g i, ∀ x, (s.conv r.1).xf = some x → ¬ (x.graph = slot ∧ x.prim = i))) ∧
    (∃ (s : State) (t : Nat) (slot : Nat) (i : Nat) (m : Move), (s.at t).moveOf slot i = some m ∧ m.step = 7 ∧ (s.at t).placeOk m.dest = true ∧
        (∀ n ∈ ((s.at t).vacated slot i), (s.at t).takesPart m.why (n / 128) = true) ∧ m.why = .stolon ∧ ((s.at t).vacated slot i) ≠ []) ∧
    (∃ (s : State) (t : Nat) (slot : Nat) (i : Nat) (m : Move), (s.at t).moveOf slot i = some m ∧ m.step = 7 ∧ (s.at t).placeOk m.dest = true ∧
        (∀ n ∈ ((s.at t).vacated slot i), (s.at t).takesPart m.why (n / 128) = true) ∧ (m.why ≠ .stolon ∨ ((s.at t).vacated slot i) = []) ∧
        (m.why ≠ .host ∨ m.handle = none)) ∧
    (∃ (s : State) (t : Nat) (slot : Nat) (i : Nat) (m : Move) (h : Nat) (g : Graph), (s.at t).moveOf slot i = some m ∧ m.step = 7 ∧
        (s.at t).placeOk m.dest = true ∧ (∀ n ∈ ((s.at t).vacated slot i), (s.at t).takesPart m.why (n / 128) = true) ∧ m.why = .host ∧
        m.handle = some h ∧
        ((((s.at t).setFrozen (((s.at t).vacated slot i) ++ placeCells m.dest) false).dropMove m).giveBack slot ((s.at t).vacated slot i)).graph slot = some g) :=
  ⟨⟨moved placed (mv 1), 0, 5, 0, mv 1, by decide +kernel⟩,
   ⟨sampling5 (moved placed1 (mv 3)) 4, 0, 5, 0, mv 3, placed1, by decide +kernel⟩,
   ⟨sampling5 (moved placed1 (mv 3)) 2, 0, 5, 0, mv 3, placed1, by decide +kernel⟩,
   ⟨moved placed (mv 4), 0, 5, 0, mv 4, 10, 5000, 500, by decide +kernel⟩,
   ⟨moved placed { mv 4 with round := 1 }, 0, 5, 0, { mv 4 with round := 1 }, 11, 1881, 500, by decide +kernel⟩,
   ⟨moved placed { mv 4 with round := 2 }, 0, 5, 0, { mv 4 with round := 2 }, 0, 0, 501, by decide +kernel⟩,
   ⟨sampling5 (moved placed1 (mv 6)) 0, 0, 5, 0, mv 6, placed1, by
     refine ⟨?_, ?_, ?_, ?_, fun r hr x h => ?_⟩ <;> first | decide +kernel | skip
     have : r.1 = 5 := (by decide +kernel : ∀ r ∈ reaches placed1 0, r.1 = 5) r hr
     rw [this] at h; cases h⟩,
   ⟨vacating (moved placed { mv 7 with why := .stolon }), 0, 5, 0, { mv 7 with why := .stolon }, by decide +kernel⟩,
   ⟨vacating (moved placed (mv 7)), 0, 5, 0, mv 7, by decide +kernel⟩,
   ⟨moved placed { mv 7 with handle := some 3 }, 0, 5, 0, { mv 7 with handle := some 3 }, 3, placed, by decide +kernel⟩⟩

/-- A REPAIR of primitive 0 to cell 1 at step `n`. -/
def rp (n : Nat) : Repair := { graph := 5, prim := 0, first := 0, step := n, dest := some { place0 with c0 := 1 } }

/-- `placed` under that repair. -/
def repaired (q : Repair) : State := withRegion placed { repairs := [q] }

/-- The repair of `placed` with cell 1 reserved for it, and with every cell of region 0 in another graph's use and no other region
ready. -/
def seeking : State := { repaired { rp 2 with dest := none } with til := { (repaired { rp 2 with dest := none }).til with cells := [(1, { use := .reserved 5 })] } }
def stuck : State := { seeking with til := { seeking.til with
  cells := (List.range 128).map fun n => (n, { use := .fn 6 0 })
  regions := (0, { repairs := [{ rp 2 with dest := none }] }) :: (List.range 7).map fun r => (r + 1, { ready := false }) } }

theorem meets_RepairStepsComplete :
    (∃ (s : State) (t : Nat) (n : Nat) (m : Nat), n < 1024 ∧ (s.at t).monitorActs n m = true) ∧
    (∃ (s : State) (t : Nat) (n : Nat) (m : Nat), n < 1024 ∧ (s.at t).monitorActs n m = false) ∧
    (∃ (s : State) (t : Nat) (n : Nat), n < 1024 ∧ (s.at t).restarting (n / 128) = false ∧ (∀ x ∈ (s.cell n).resets, x + 250000000 ≤ (s.at t).now)) ∧
    (∃ (s : State) (t : Nat) (n : Nat) (ok : Bool), n < 1024 ∧ (s.at t).restarting (n / 128) = false ∧ (ok = false ∨ (∃ x ∈ (s.cell n).resets,
        (s.at t).now < x + 250000000))) ∧
    (∃ (s : State) (t : Nat) (n : Nat), n < 1024 ∧ (s.at t).restarting (n / 128) = true) ∧
    (∃ (s : State) (slot : Nat) (i : Nat) (g : Graph), s.graph slot = some g ∧ g.phase = 7 ∧ i < g.prims.length ∧ (g.prim i).ty = 10) ∧
    (∃ (s : State) (t : Nat) (r : Nat) (q : Repair) (l : List Repair) (g : Graph) (d : PlaceP), r < 8 ∧ (s.at t).ctrlOk r = true ∧
        (s.region r).repairs = q :: l ∧ s.graph q.graph = some g ∧ q.step = 2 ∧ (s.at t).chooseDest q.graph g q.prim { repair := true } = some d) ∧
    (∃ (s : State) (t : Nat) (r : Nat) (q : Repair) (l : List Repair) (g : Graph), r < 8 ∧ (s.at t).ctrlOk r = true ∧ (s.region r).repairs = q :: l ∧
        s.graph q.graph = some g ∧ q.step = 2 ∧ (s.at t).chooseDest q.graph g q.prim { repair := true } = none) ∧
    (∃ (s : State) (t : Nat) (r : Nat) (q : Repair) (l : List Repair) (d : PlaceP), r < 8 ∧ (s.at t).ctrlOk r = true ∧
        (s.region r).repairs = q :: l ∧ q.dest = some d ∧ (s.at t).placeOk d = true ∧ q.step = 3) ∧
    (∃ (s : State) (t : Nat) (r : Nat) (q : Repair) (l : List Repair) (d : PlaceP), r < 8 ∧ (s.at t).ctrlOk r = true ∧
        (s.region r).repairs = q :: l ∧ q.dest = some d ∧ (s.at t).placeOk d = true ∧ q.step = 5) ∧
    (∃ (s : State) (t : Nat) (r : Nat) (q : Repair) (l : List Repair) (d : PlaceP), r < 8 ∧ (s.at t).ctrlOk r = true ∧
        (s.region r).repairs = q :: l ∧ q.dest = some d ∧ (s.at t).placeOk d = true ∧ q.step = 6) ∧
    (∃ (s : State) (t : Nat) (r : Nat) (q : Repair) (l : List Repair) (d : PlaceP), r < 8 ∧ (s.at t).ctrlOk r = true ∧
        (s.region r).repairs = q :: l ∧ q.dest = some d ∧ (s.at t).placeOk d = true ∧ q.step = 7) ∧
    (∃ (s : State) (t : Nat) (r : Nat) (q : Repair) (l : List Repair) (d : PlaceP), r < 8 ∧ (s.at t).ctrlOk r = true ∧
        (s.region r).repairs = q :: l ∧ q.dest = some d ∧ (s.at t).placeOk d = true ∧ q.step = 8 ∧ q.cold = false ∧ t % 250 = 0 ∧ (s.at t).now = t) ∧
    (∃ (s : State) (t : Nat) (r : Nat) (q : Repair) (l : List Repair) (d : PlaceP), r < 8 ∧ (s.at t).ctrlOk r = true ∧
        (s.region r).repairs = q :: l ∧ q.dest = some d ∧ (s.at t).placeOk d = true ∧ 3 ≤ q.step ∧ q.cold = true) :=
  ⟨⟨vacating (holding placed), 0, 7, 2, by decide +kernel⟩,
   ⟨ready, 0, 1023, 2, by decide +kernel⟩,
   ⟨ready, 0, 1023, by decide +kernel⟩,
   ⟨ready, 0, 1023, false, by decide +kernel⟩,
   ⟨allRestart ready, 0, 1023, by decide +kernel⟩,
   ⟨holding (bare1 { biq100 with ty := 10 }), 5, 0, bare1 { biq100 with ty := 10 }, by decide +kernel⟩,
   ⟨seeking, 0, 0, { rp 2 with dest := none }, [], placed, _, by
     refine ⟨?_, ?_, ?_, ?_, ?_, Option.eq_some_of_isSome (by decide +kernel)⟩ <;> first | decide +kernel | (unfold Admits; decide +kernel)⟩,
   ⟨stuck, 0, 0, { rp 2 with dest := none }, [], placed, by decide +kernel⟩,
   ⟨repaired (rp 3), 0, 0, (rp 3), [], { place0 with c0 := 1 }, by decide +kernel⟩,
   ⟨repaired (rp 5), 0, 0, (rp 5), [], { place0 with c0 := 1 }, by decide +kernel⟩,
   ⟨repaired (rp 6), 0, 0, (rp 6), [], { place0 with c0 := 1 }, by decide +kernel⟩,
   ⟨repaired (rp 7), 0, 0, (rp 7), [], { place0 with c0 := 1 }, by decide +kernel⟩,
   ⟨repaired (rp 8), 1000, 0, (rp 8), [], { place0 with c0 := 1 }, by decide +kernel⟩,
   ⟨repaired { rp 3 with cold := true }, 0, 0, { rp 3 with cold := true }, [], { place0 with c0 := 1 }, by decide +kernel⟩⟩

/-- `ready` with cell 1023 in some use. -/
def cell1023 (u : CellUse) : State := { ready with til := { cells := [(1023, { use := u })] } }

/-- Stolon is disabled, and the coverage of warm cell 1023 has lapsed. -/
def lapsed (cold : Bool) : State := { ready with
  time := { ready.time with timebase := 600 * 250000000 + 1 }
  til := { policy := { enable := false }, sparesCold := cold, cells := [(1023, { warm := true, lastTest := some 0 })] } }

/-- `ready` at the end of a coverage period. -/
def covEnd (r : Region) : State := { ready with time := { ready.time with timebase := 600 * 250000000 }, til := { regions := [(7, r)] } }

theorem meets_StolonEventsComplete :
    (∃ (s : State) (t : Nat) (r : Nat) (n : Nat), r < 8 ∧ s.til.policy.enable = true ∧ (s.at t).ctrlOk r = true ∧ (s.region r).test = none ∧
        (s.region r).testQ = [] ∧ 5 ≤ s.time.step ∧ (s.at t).oldestCell r = some n ∧ (s.at t).testable n = true ∧ (∀ e ∈ s.cal.runs,
        e.kind = 0 → e.idx ∉ (s.at t).calGroup n) ∧ (∀ slot i, (s.cell n).use ≠ .fn slot i)) ∧
    (∃ (s : State) (t : Nat) (r : Nat) (n : Nat) (slot : Nat) (i : Nat), r < 8 ∧ s.til.policy.enable = true ∧ (s.at t).ctrlOk r = true ∧
        (s.region r).test = none ∧ (s.region r).testQ = [] ∧ 5 ≤ s.time.step ∧ (s.at t).oldestCell r = some n ∧ (s.at t).testable n = true ∧
        (∀ e ∈ s.cal.runs, e.kind = 0 → e.idx ∉ (s.at t).calGroup n) ∧ (s.cell n).use = .fn slot i) ∧
    (∃ (s : State) (t : Nat) (r : Nat) (scores : List Nat) (ranks : List Nat) (segScores : List Nat) (q : Test) (c : Nat), r < 8 ∧
        (s.at t).ctrlOk r = true ∧ (s.region r).test = some q ∧ q.conv = some c ∧ scores.length = 48 * q.cells.length ∧
        ranks.length = scores.length ∧ segScores.length = q.segs.length) ∧
    (∃ (r : Nat) (why : Nat), r < 8 ∧ 1 ≤ why ∧ why ≤ 4) ∧
    (∃ (s : State) (t : Nat) (r : Nat), r < 8 ∧ s.til.policy.enable = true ∧ (s.at t).ctrlOk r = true ∧
        (s.region r).covStart + s.til.policy.period * 250000000 ≤ (s.at t).now ∧ (s.region r).covTested.length < 128) ∧
    (∃ (s : State) (t : Nat) (r : Nat), r < 8 ∧ s.til.policy.enable = true ∧ (s.at t).ctrlOk r = true ∧
        (s.region r).covStart + s.til.policy.period * 250000000 ≤ (s.at t).now ∧ 128 ≤ (s.region r).covTested.length) ∧
    (∃ (s : State) (t : Nat) (n : Nat), n < 1024 ∧ ((s.cell n).use = .pool ∨ ∃ g, (s.cell n).use = .reserved g) ∧ (s.at t).ctrlOk (n / 128) = true ∧
        5 ≤ s.time.step ∧
        ((s.at t).setCell n { s.cell n with warm := true, calTime := some (s.at t).now, calTemp := (s.at t).blockTemp (n / 16), bias := 1023, lastTest := some ((s.cell n).lastTest.getD (s.at t).now), due := false, status := (s.cell n).status.completed none }).warmNow n = true ∧
        ((((s.at t).setCell n { s.cell n with warm := true, calTime := some (s.at t).now, calTemp := (s.at t).blockTemp (n / 16), bias := 1023, lastTest := some ((s.cell n).lastTest.getD (s.at t).now), due := false, status := (s.cell n).status.completed none }).dropPartner n).poolsWarm = false ∨ (((s.at t).setCell n { s.cell n with warm := true, calTime := some (s.at t).now, calTemp := (s.at t).blockTemp (n / 16), bias := 1023, lastTest := some ((s.cell n).lastTest.getD (s.at t).now), due := false, status := (s.cell n).status.completed none }).dropPartner n).chip.sparesWarm = true)) ∧
    (∃ (s : State) (t : Nat) (n : Nat), n < 1024 ∧ ((s.cell n).use = .pool ∨ ∃ g, (s.cell n).use = .reserved g) ∧ (s.at t).ctrlOk (n / 128) = true ∧
        5 ≤ s.time.step ∧
        ((s.at t).setCell n { s.cell n with warm := true, calTime := some (s.at t).now, calTemp := (s.at t).blockTemp (n / 16), bias := 1023, lastTest := some ((s.cell n).lastTest.getD (s.at t).now), due := false, status := (s.cell n).status.completed none }).warmNow n = true ∧
        (((s.at t).setCell n { s.cell n with warm := true, calTime := some (s.at t).now, calTemp := (s.at t).blockTemp (n / 16), bias := 1023, lastTest := some ((s.cell n).lastTest.getD (s.at t).now), due := false, status := (s.cell n).status.completed none }).dropPartner n).poolsWarm = true ∧
        (((s.at t).setCell n { s.cell n with warm := true, calTime := some (s.at t).now, calTemp := (s.at t).blockTemp (n / 16), bias := 1023, lastTest := some ((s.cell n).lastTest.getD (s.at t).now), due := false, status := (s.cell n).status.completed none }).dropPartner n).chip.sparesWarm = false) ∧
    (∃ (s : State) (t : Nat) (r : Nat) (l : List Nat), r < 8 ∧ s.til.policy.enable = false ∧ l ≠ [] ∧
        l = (regionCells r).filter (fun n => (s.cell n).warm && match (s.cell n).lastTest with | none => false | some x => decide (x + s.til.policy.period * 250000000 < (s.at t).now)) ∧
        s.til.sparesCold = true) ∧
    (∃ (s : State) (t : Nat) (r : Nat) (l : List Nat), r < 8 ∧ s.til.policy.enable = false ∧ l ≠ [] ∧
        l = (regionCells r).filter (fun n => (s.cell n).warm && match (s.cell n).lastTest with | none => false | some x => decide (x + s.til.policy.period * 250000000 < (s.at t).now)) ∧
        s.til.sparesCold = false) ∧
    (∃ (s : State) (t : Nat) (r : Nat) (temps : List Int), r < 8 ∧ temps.length = 8 ∧ (s.at t).ctrlOk r = true ∧ 5 ≤ s.time.step) ∧
    (∃ (s : State) (t : Nat) (p : Nat), p < 128 ∧ (s.pair p).ranged = false ∧ (∀ x, (s.pair p).lastLog = some x → x + 250000000 ≤ (s.at t).now)) ∧
    (∃ (s : State) (t : Nat) (p : Nat) (x : Nat), p < 128 ∧ (s.pair p).ranged = false ∧ (s.pair p).lastLog = some x ∧ (s.at t).now < x + 250000000) ∧
    (∃ (s : State) (p : Nat), p < 128 ∧ (s.pair p).ranged = true) ∧
    (∃ (s : State) (t : Nat) (kind : Nat) (index : Nat), kind ≠ 0 ∧ srcOk (kind * 2 ^ 28 + index) = true ∧ (s.at t).sourceLive kind index = true) :=
  ⟨⟨ready, 0, 0, 0, by
     refine ⟨?_, ?_, ?_, ?_, ?_, ?_, ?_, ?_, ?_, fun _ _ h => CellUse.noConfusion h⟩ <;> decide +kernel⟩,
   ⟨{ holding placed with til := { (holding placed).til with cells := [(0, { use := .fn 5 0 })] } }, 0, 0, 0, 5, 0, by decide +kernel⟩,
   ⟨{ ready with til := { regions := [(7, { test := some { cells := [0], segs := [5439], conv := some 0 } })] } }, 0, 7, List.replicate 48 200,
        List.replicate 48 0, [200], { cells := [0], segs := [5439], conv := some 0 }, 0, by decide +kernel⟩,
   ⟨7, 4, by decide +kernel⟩,
   ⟨covEnd {}, 0, 7, by decide +kernel⟩,
   ⟨covEnd { covTested := List.range 128 }, 0, 7, by decide +kernel⟩,
   ⟨{ cell1023 .pool with chip := { ready.chip with sparesWarm := true } }, 0, 1023, by
     refine ⟨?_, Or.inl ?_, ?_, ?_, ?_, Or.inr ?_⟩ <;> decide +kernel⟩,
   ⟨{ cell1023 (.reserved 5) with til := { (cell1023 (.reserved 5)).til with policy := { pool := 0 } } }, 0, 1023, by
     refine ⟨?_, Or.inr ⟨5, ?_⟩, ?_, ?_, ?_, ?_, ?_⟩ <;> decide +kernel⟩,
   ⟨lapsed true, 0, 7, [1023], by decide +kernel⟩,
   ⟨lapsed false, 0, 7, [1023], by decide +kernel⟩,
   ⟨ready, 0, 7, List.replicate 8 0, by decide +kernel⟩,
   ⟨ready, 0, 127, ⟨by decide, rfl, fun x h => nomatch h⟩⟩,
   ⟨{ ready with mon := { pairs := [(127, { ranged := false, lastLog := some 900 })] } }, 0, 127, 900, by decide +kernel⟩,
   ⟨{ ready with mon := { pairs := [(127, { ranged := true, lastLog := some 900 })] } }, 127, by decide +kernel⟩,
   ⟨ready, 0, 4, 127, by decide +kernel⟩⟩

/-- `ready` with DAC channel 63 as given. -/
def dac63 (d : Dac) : State := { ready with dacs := [(63, d)] }

/-- A range change of channel 63 in phase `n`. -/
def change (n : Nat) : RangeCh := { phase := n, range := 0, source := 0, bus := 0, code := 0 }

/-- The DAC_RANGE record of channel 63 that asks for range 3. -/
def rangeArgs : Bytes := fill 24 [(0, 1, 63), (1, 1, 3), (3, 1, 8), (4, 4, 4294443008), (8, 4, 250), (12, 2, 1000)]

theorem meets_DacCommandsComplete :
    (∃ (s : State) (d : Desc) (slot : Nat) (a : Bytes), Admits s 0x0300 d slot a ∧ firstBad a ((1,
        0xFC) :: rsv 3 1 ++ (if byteAt a 2 = 1 then rsv 4 4 else if byteAt a 2 = 2 then rsv 6 2 else []) ++ (if bit (byteAt a 1) 0 then [] else rsv 8 8)) = none ∧
        (byteAt a 0) < 64 ∧ (byteAt a 2) ≤ 2 ∧ ((byteAt a 2) = 0 → inRange (s.dac (byteAt a 0)).codeRange (toI 32 (fld a 4 4)) = true) ∧
        ((byteAt a 2) = 2 → fld a 4 2 < 64 ∧ fld a 4 2 / 8 = (byteAt a 0) / 8) ∧ (s.region ((byteAt a 0) / 8)).failed = false ∧
        (s.region ((byteAt a 0) / 8)).ready = true ∧ bit (byteAt a 1) 1 = false) ∧
    (∃ (s : State) (d : Desc) (slot : Nat) (a : Bytes), Admits s 0x0300 d slot a ∧ firstBad a ((1,
        0xFC) :: rsv 3 1 ++ (if byteAt a 2 = 1 then rsv 4 4 else if byteAt a 2 = 2 then rsv 6 2 else []) ++ (if bit (byteAt a 1) 0 then [] else rsv 8 8)) = none ∧
        (byteAt a 0) < 64 ∧ (byteAt a 2) ≤ 2 ∧ ((byteAt a 2) = 0 → inRange (s.dac (byteAt a 0)).codeRange (toI 32 (fld a 4 4)) = true) ∧
        ((byteAt a 2) = 2 → fld a 4 2 < 64 ∧ fld a 4 2 / 8 = (byteAt a 0) / 8) ∧ (s.region ((byteAt a 0) / 8)).failed = false ∧
        (s.region ((byteAt a 0) / 8)).ready = true ∧ bit (byteAt a 1) 1 = true) ∧
    (∃ (s : State) (d : Desc) (slot : Nat) (a : Bytes), Admits s 0x0301 d slot a ∧ firstBad a ((2, 0xFC) :: rsv 14 10) = none ∧ (byteAt a 0) < 64 ∧
        (byteAt a 1) ≤ 3 ∧ 1 ≤ byteAt a 3 ∧ byteAt a 3 ≤ 8 ∧ inRange (byteAt a 1) (toI 32 (fld a 4 4)) = true ∧ (fld a 8 4 = 0 ∨ 250 ≤ fld a 8 4) ∧
        fld a 12 2 ≤ 1000 ∧ (s.region ((byteAt a 0) / 8)).failed = false ∧ (s.region ((byteAt a 0) / 8)).ready = true ∧
        (s.dac (byteAt a 0)).rc = none ∧ ((s.dac (byteAt a 0)).enabled = false ∨ (byteAt a 1) = (s.dac (byteAt a 0)).range)) ∧
    (∃ (s : State) (d : Desc) (slot : Nat) (a : Bytes), Admits s 0x0301 d slot a ∧ firstBad a ((2, 0xFC) :: rsv 14 10) = none ∧ (byteAt a 0) < 64 ∧
        (byteAt a 1) ≤ 3 ∧ 1 ≤ byteAt a 3 ∧ byteAt a 3 ≤ 8 ∧ inRange (byteAt a 1) (toI 32 (fld a 4 4)) = true ∧ (fld a 8 4 = 0 ∨ 250 ≤ fld a 8 4) ∧
        fld a 12 2 ≤ 1000 ∧ (s.region ((byteAt a 0) / 8)).failed = false ∧ (s.region ((byteAt a 0) / 8)).ready = true ∧
        (s.dac (byteAt a 0)).rc = none ∧ (s.dac (byteAt a 0)).enabled = true ∧ (byteAt a 1) ≠ (s.dac (byteAt a 0)).range) ∧
    (∃ (s : State) (d : Desc) (slot : Nat) (a : Bytes) (q : RangeCh), Admits s 0x0301 d slot a ∧ firstBad a ((2, 0xFC) :: rsv 14 10) = none ∧
        (byteAt a 0) < 64 ∧ (byteAt a 1) ≤ 3 ∧ 1 ≤ byteAt a 3 ∧ byteAt a 3 ≤ 8 ∧ inRange (byteAt a 1) (toI 32 (fld a 4 4)) = true ∧
        (fld a 8 4 = 0 ∨ 250 ≤ fld a 8 4) ∧ fld a 12 2 ≤ 1000 ∧ (s.region ((byteAt a 0) / 8)).failed = false ∧
        (s.region ((byteAt a 0) / 8)).ready = true ∧ (s.dac (byteAt a 0)).rc = some q ∧ q.phase < 2) ∧
    (∃ (s : State) (d : Desc) (slot : Nat) (a : Bytes) (q : RangeCh), Admits s 0x0301 d slot a ∧ firstBad a ((2, 0xFC) :: rsv 14 10) = none ∧
        (byteAt a 0) < 64 ∧ (byteAt a 1) ≤ 3 ∧ 1 ≤ byteAt a 3 ∧ byteAt a 3 ≤ 8 ∧ inRange (byteAt a 1) (toI 32 (fld a 4 4)) = true ∧
        (fld a 8 4 = 0 ∨ 250 ≤ fld a 8 4) ∧ fld a 12 2 ≤ 1000 ∧ (s.region ((byteAt a 0) / 8)).failed = false ∧
        (s.region ((byteAt a 0) / 8)).ready = true ∧ (s.dac (byteAt a 0)).rc = some q ∧ q.phase = 2) ∧
    (∃ (s : State) (d : Desc) (slot : Nat) (a : Bytes) (q : RangeCh), Admits s 0x0301 d slot a ∧ firstBad a ((2, 0xFC) :: rsv 14 10) = none ∧
        (byteAt a 0) < 64 ∧ (byteAt a 1) ≤ 3 ∧ 1 ≤ byteAt a 3 ∧ byteAt a 3 ≤ 8 ∧ inRange (byteAt a 1) (toI 32 (fld a 4 4)) = true ∧
        (fld a 8 4 = 0 ∨ 250 ≤ fld a 8 4) ∧ fld a 12 2 ≤ 1000 ∧ (s.region ((byteAt a 0) / 8)).failed = false ∧
        (s.region ((byteAt a 0) / 8)).ready = true ∧ (s.dac (byteAt a 0)).rc = some q ∧ 3 ≤ q.phase ∧ (byteAt a 1) = (s.dac (byteAt a 0)).range) ∧
    (∃ (s : State) (d : Desc) (slot : Nat) (a : Bytes) (q : RangeCh), Admits s 0x0301 d slot a ∧ firstBad a ((2, 0xFC) :: rsv 14 10) = none ∧
        (byteAt a 0) < 64 ∧ (byteAt a 1) ≤ 3 ∧ 1 ≤ byteAt a 3 ∧ byteAt a 3 ≤ 8 ∧ inRange (byteAt a 1) (toI 32 (fld a 4 4)) = true ∧
        (fld a 8 4 = 0 ∨ 250 ≤ fld a 8 4) ∧ fld a 12 2 ≤ 1000 ∧ (s.region ((byteAt a 0) / 8)).failed = false ∧
        (s.region ((byteAt a 0) / 8)).ready = true ∧ (s.dac (byteAt a 0)).rc = some q ∧ 3 ≤ q.phase ∧ (byteAt a 1) ≠ (s.dac (byteAt a 0)).range) ∧
    (∃ (s : State) (d : Desc) (slot : Nat) (a : Bytes), Admits s 0x0302 d slot a ∧ firstBad a ((1,
        0xF8) :: rsv 2 2 ++ rsv 30 2 ++ (if bit (byteAt a 1) 0 then [] else rsv 32 8)) = none ∧ (byteAt a 0) < 64 ∧
        20 * fld a 4 6 * (s.dac (byteAt a 0)).period ≤ 9 * 2 ^ 48 ∧ fld a 16 4 ≤ 524287 ∧
        inRange (s.dac (byteAt a 0)).range (toI 32 (fld a 20 4)) = true ∧ (s.region ((byteAt a 0) / 8)).failed = false ∧
        (s.region ((byteAt a 0) / 8)).ready = true) ∧
    (∃ (s : State) (d : Desc) (slot : Nat) (a : Bytes) (r : NvRec), Admits s 0x0303 d slot a ∧ firstBad a ((1,
        0xFE) :: rsv 2 2 ++ (if bit (byteAt a 1) 0 then rsv 4 28 else nvReserved.map fun e => (e.1 + 4, e.2))) = none ∧ (byteAt a 0) < 64 ∧
        (bit (byteAt a 1) 0 = false → r = readNv (a.drop 4)) ∧
        (bit (byteAt a 1) 0 = true → r = { code := (s.dac (byteAt a 0)).present, range := (s.dac (byteAt a 0)).range, senseLocal := (s.dac (byteAt a 0)).senseNow, limit := (s.dac (byteAt a 0)).limit, step := (s.dac (byteAt a 0)).step, rate := (s.dac (byteAt a 0)).rate, period := (s.dac (byteAt a 0)).period, dwell := (s.dac (byteAt a 0)).dwell }) ∧
        r.ok = true ∧ s.keepLocked = true) ∧
    (∃ (s : State) (d : Desc) (slot : Nat) (a : Bytes) (r : NvRec), Admits s 0x0303 d slot a ∧ firstBad a ((1,
        0xFE) :: rsv 2 2 ++ (if bit (byteAt a 1) 0 then rsv 4 28 else nvReserved.map fun e => (e.1 + 4, e.2))) = none ∧ (byteAt a 0) < 64 ∧
        (bit (byteAt a 1) 0 = false → r = readNv (a.drop 4)) ∧
        (bit (byteAt a 1) 0 = true → r = { code := (s.dac (byteAt a 0)).present, range := (s.dac (byteAt a 0)).range, senseLocal := (s.dac (byteAt a 0)).senseNow, limit := (s.dac (byteAt a 0)).limit, step := (s.dac (byteAt a 0)).step, rate := (s.dac (byteAt a 0)).rate, period := (s.dac (byteAt a 0)).period, dwell := (s.dac (byteAt a 0)).dwell }) ∧
        r.ok = true ∧ s.keepLocked = false) ∧
    (∃ (s : State) (d : Desc) (slot : Nat) (a : Bytes) (r : NvRec), Admits s 0x0303 d slot a ∧ firstBad a ((1,
        0xFE) :: rsv 2 2 ++ (if bit (byteAt a 1) 0 then rsv 4 28 else nvReserved.map fun e => (e.1 + 4, e.2))) = none ∧ (byteAt a 0) < 64 ∧
        (bit (byteAt a 1) 0 = false → r = readNv (a.drop 4)) ∧
        (bit (byteAt a 1) 0 = true → r = { code := (s.dac (byteAt a 0)).present, range := (s.dac (byteAt a 0)).range, senseLocal := (s.dac (byteAt a 0)).senseNow, limit := (s.dac (byteAt a 0)).limit, step := (s.dac (byteAt a 0)).step, rate := (s.dac (byteAt a 0)).rate, period := (s.dac (byteAt a 0)).period, dwell := (s.dac (byteAt a 0)).dwell }) ∧
        r.ok = true ∧ s.keepLocked = false) ∧
    (∃ (s : State) (d : Desc) (slot : Nat) (a : Bytes), Admits s 0x0304 d slot a ∧ firstBad a ((1, 0xFE) :: rsv 8 8) = none ∧ (byteAt a 0) < 64 ∧
        1 ≤ fld a 2 2 ∧ 1000 ≤ fld a 4 4 ∧ fld a 4 4 ≤ 1000000 ∧ (s.region ((byteAt a 0) / 8)).failed = false ∧
        (s.region ((byteAt a 0) / 8)).ready = true) ∧
    (∃ (s : State) (d : Desc) (slot : Nat) (a : Bytes), Admits s 0x0304 d slot a ∧ firstBad a ((1, 0xFE) :: rsv 8 8) = none ∧
        (64 ≤ byteAt a 0 ∨ fld a 2 2 = 0 ∨ fld a 4 4 < 1000 ∨ 1000000 < fld a 4 4)) :=
  ⟨⟨ready, cmd 0x0300 (fill 16 [(0, 1, 63), (1, 1, 1), (2, 1, 2), (4, 2, 56), (8, 8, 2000)]), 0, fill 16 [(0, 1, 63), (1, 1, 1), (2, 1, 2), (4, 2, 56),
        (8, 8, 2000)], by unfold Admits; decide +kernel⟩,
   ⟨ready, cmd 0x0300 (fill 16 [(0, 1, 63), (1, 1, 3), (2, 1, 2), (4, 2, 56), (8, 8, 2000)]), 0, fill 16 [(0, 1, 63), (1, 1, 3), (2, 1, 2), (4, 2, 56),
        (8, 8, 2000)], by unfold Admits; decide +kernel⟩,
   ⟨dac63 { upStep := 4, range := 3 }, cmd 0x0301 rangeArgs, 0, rangeArgs, by unfold Admits; decide +kernel⟩,
   ⟨dac63 { upStep := 4, range := 1 }, cmd 0x0301 rangeArgs, 0, rangeArgs, by unfold Admits; decide +kernel⟩,
   ⟨dac63 { upStep := 4, rc := some (change 1) }, cmd 0x0301 rangeArgs, 0, rangeArgs, change 1, by unfold Admits; decide +kernel⟩,
   ⟨dac63 { upStep := 4, rc := some (change 2) }, cmd 0x0301 rangeArgs, 0, rangeArgs, change 2, by unfold Admits; decide +kernel⟩,
   ⟨dac63 { upStep := 4, rc := some (change 3) }, cmd 0x0301 rangeArgs, 0, rangeArgs, change 3, by unfold Admits; decide +kernel⟩,
   ⟨dac63 { upStep := 4, range := 1, rc := some (change 3) }, cmd 0x0301 rangeArgs, 0, rangeArgs, change 3, by unfold Admits; decide +kernel⟩,
   ⟨ready, cmd 0x0302 (fill 40 [(0, 1, 63), (4, 6, 506654958079), (16, 4, 524287), (20, 4, 4294443008)]), 0, fill 40 [(0, 1, 63), (4, 6, 506654958079),
        (16, 4, 524287), (20, 4, 4294443008)], by unfold Admits; decide +kernel⟩,
   ⟨alarmed1, cmd 0x0303 (fill 32 [(0, 1, 63), (8, 1, 3), (10, 1, 8), (12, 2, 1), (14, 4, 1000), (18, 4, 250), (22, 2, 1000)]), 0, fill 32 [(0, 1, 63), (8, 1, 3), (10, 1, 8), (12, 2, 1), (14, 4, 1000), (18, 4, 250), (22, 2, 1000)], readNv ((fill 32 [(0, 1, 63), (8, 1, 3), (10, 1, 8), (12, 2, 1), (14, 4, 1000), (18, 4, 250), (22, 2, 1000)]).drop 4), by
     refine ⟨?_, ?_, ?_, fun _ => rfl, fun h => absurd h (by decide +kernel), ?_, ?_⟩ <;> first | decide +kernel | (unfold Admits; decide +kernel)⟩,
   ⟨ready, cmd 0x0303 (fill 32 [(0, 1, 63), (8, 1, 3), (10, 1, 8), (12, 2, 1), (14, 4, 1000), (18, 4, 250), (22, 2, 1000)]), 0, fill 32 [(0, 1, 63), (8, 1, 3), (10, 1, 8), (12, 2, 1), (14, 4, 1000), (18, 4, 250), (22, 2, 1000)], readNv ((fill 32 [(0, 1, 63), (8, 1, 3), (10, 1, 8), (12, 2, 1), (14, 4, 1000), (18, 4, 250), (22, 2, 1000)]).drop 4), by
     refine ⟨?_, ?_, ?_, fun _ => rfl, fun h => absurd h (by decide +kernel), ?_, ?_⟩ <;> first | decide +kernel | (unfold Admits; decide +kernel)⟩,
   ⟨ready, cmd 0x0303 (fill 32 [(0, 1, 63), (8, 1, 3), (10, 1, 8), (12, 2, 1), (14, 4, 1000), (18, 4, 250), (22, 2, 1000)]), 0, fill 32 [(0, 1, 63), (8, 1, 3), (10, 1, 8), (12, 2, 1), (14, 4, 1000), (18, 4, 250), (22, 2, 1000)], readNv ((fill 32 [(0, 1, 63), (8, 1, 3), (10, 1, 8), (12, 2, 1), (14, 4, 1000), (18, 4, 250), (22, 2, 1000)]).drop 4), by
     refine ⟨?_, ?_, ?_, fun _ => rfl, fun h => absurd h (by decide +kernel), ?_, ?_⟩ <;> first | decide +kernel | (unfold Admits; decide +kernel)⟩,
   ⟨ready, cmd 0x0304 (fill 16 [(0, 1, 63), (2, 2, 65535), (4, 4, 1000000)]), 0, fill 16 [(0, 1, 63), (2, 2, 65535), (4, 4, 1000000)],
        by unfold Admits; decide +kernel⟩,
   ⟨ready, cmd 0x0304 (fill 16 [(0, 1, 64)]), 0, fill 16 [(0, 1, 64)], by unfold Admits; decide +kernel⟩⟩

theorem meets_DacEventsComplete :
    (∃ (s : State) (t : Nat) (n : Nat), n < 64 ∧ (s.atCount t).dacCount = t ∧ t % (s.dac n).period = 0 ∧ (s.dac n).lastConv ≠ some t ∧
        2 ≤ (s.dac n).upStep) ∧
    (∃ (s : State) (t : Nat) (n : Nat), n < 64 ∧ (s.atCount t).dacCount = t ∧ 2 ≤ (s.dac n).upStep) ∧
    (∃ (s : State) (n : Nat), n < 64 ∧ ((s.dac n).source = 2 ∨ (∃ r, (s.dac n).rc = some r ∧ r.source = 2) ∨ (∃ c ∈ (s.dac n).outs, c.source = 2)) ∧
        (s.dac n).busHeld = false) ∧
    (∃ (s : State) (n : Nat), n < 64 ∧ ((s.dac n).source = 2 ∨ (∃ r, (s.dac n).rc = some r ∧ r.source = 2) ∨ (∃ c ∈ (s.dac n).outs, c.source = 2)) ∧
        (s.dac n).busHeld = true) ∧
    (∃ (s : State) (t : Nat) (n : Nat), n < 64 ∧ (s.at t).now = t ∧ ((s.dac n).ddsAt t).wraps t = true) ∧
    (∃ (s : State) (t : Nat) (n : Nat), n < 64 ∧ (s.at t).now = t ∧ ((s.dac n).ddsAt t).matches_ t = true) ∧
    (∃ (s : State) (t : Nat) (n : Nat) (r : NvRec), n < 64 ∧ (s.dac n).upStep = 2 ∧ (s.atCount t).storedNv n = some r) ∧
    (∃ (s : State) (t : Nat) (n : Nat), n < 64 ∧ (s.dac n).upStep = 2 ∧ (s.atCount t).storedNv n = none) ∧
    (∃ (s : State) (n : Nat), n < 64 ∧ (s.dac n).upStep = 3) ∧
    (∃ (s : State) (t : Nat) (n : Nat) (r : RangeCh), n < 64 ∧ (s.dac n).rc = some r ∧ r.phase = 2 ∧ r.since + 5000 ≤ (s.atCount t).dacCount) ∧
    (∃ (s : State) (n : Nat), n < 64 ∧ (s.dac n).enabled = true ∧ (s.dac n).tripped = false ∧ (s.dac n).shortSince = none ∧ (s.dac n).short = false) ∧
    (∃ (s : State) (n : Nat), n < 64 ∧ (s.dac n).enabled = true ∧ (s.dac n).tripped = false ∧ (s.dac n).shortSince = none ∧ (s.dac n).short = true) ∧
    (∃ (n : Nat), n < 64) ∧
    (∃ (s : State) (t : Nat) (n : Nat) (from_ : Int), n < 64 ∧ (s.dac n).shortSince = some from_ ∧ (s.dac n).tripped = false ∧ (s.dac n).dwell ≠ 0 ∧
        from_ + 250000 * ((s.dac n).dwell : Int) ≤ ((s.atCount t).dacCount : Int)) ∧
    (∃ (s : State) (n : Nat) (mv : Nat), n < 64 ∧ (s.dac n).enabled = true ∧ (s.dac n).tripped = false ∧ (s.dac n).senseNow = false ∧ 1200 < mv) :=
  ⟨⟨dac63 { upStep := 2 }, 1000, 63, by decide +kernel⟩,
   ⟨dac63 { upStep := 2 }, 1000, 63, by decide +kernel⟩,
   ⟨dac63 { source := 2 }, 63, by
     refine ⟨?_, Or.inl ?_, ?_⟩ <;> decide +kernel⟩,
   ⟨dac63 { source := 2, busHeld := true }, 63, by
     refine ⟨?_, Or.inl ?_, ?_⟩ <;> decide +kernel⟩,
   ⟨dac63 { upStep := 4, dds := { running := true, ref := 999, phase := 2 ^ 48 - 1, ftw := 1 } }, 1000, 63, by decide +kernel⟩,
   ⟨dac63 { upStep := 4, dds := { running := true, ref := 999, phase := 2 ^ 48 - 1, ftw := 1 } }, 1000, 63, by decide +kernel⟩,
   ⟨{ dac63 { upStep := 2 } with keep := { dacUps := [(63, some (NvRec.bytes {}))] } }, 0, 63, {}, by decide +kernel⟩,
   ⟨dac63 { upStep := 2 }, 0, 63, by decide +kernel⟩,
   ⟨dac63 { upStep := 3 }, 63, by decide +kernel⟩,
   ⟨{ dac63 { upStep := 4, rc := some (change 2) } with time := { ready.time with timebase := 5000 } }, 0, 63, change 2, by decide +kernel⟩,
   ⟨dac63 { upStep := 4 }, 63, by decide +kernel⟩,
   ⟨dac63 { upStep := 4, short := true }, 63, by decide +kernel⟩,
   ⟨63, by decide +kernel⟩,
   ⟨{ dac63 { upStep := 4, shortSince := some 0, dwell := 1 } with time := { ready.time with timebase := 250000 } }, 0, 63, 0, by decide +kernel⟩,
   ⟨dac63 { upStep := 4, senseNow := false }, 63, 1201, by decide +kernel⟩⟩

/-- `ready` with stream 63 as given, and a record for it on converter 191's link. -/
def rec63 : Rec := { val := 1, src := 191, flags := 0, seq := 1, ts := 900, stream := 63 }
def stream63 (d : Ds) : State := { ready with host := { ready.host with dss := [(63, d)] }, convs := [(191, { link := [rec63] })] }

theorem meets_StreamsComplete :
    (∃ (s : State) (d : Desc) (slot : Nat) (a : Bytes), Admits s 0x0500 d slot a ∧ firstBad a ((1, 0xFE) :: rsv 2 2) = none ∧ (byteAt a 0) < 64 ∧
        fld a 4 4 ≤ 60000 ∧ ((s.admitted d slot a).ds (byteAt a 0)).opened = false ∧ ((s.admitted d slot a).ds (byteAt a 0)).enable = true ∧
        (∃ c ∈ (maskConvs a 8), (s.conv c).cfg.stream ≠ (byteAt a 0) ∧ (s.conv c).cfg.stream < 64 ∧ (s.ds (s.conv c).cfg.stream).opened = true)) ∧
    (∃ (s : State) (d : Desc) (slot : Nat) (a : Bytes), Admits s 0x0500 d slot a ∧ firstBad a ((1, 0xFE) :: rsv 2 2) = none ∧ (byteAt a 0) < 64 ∧
        fld a 4 4 ≤ 60000 ∧ ((s.admitted d slot a).ds (byteAt a 0)).opened = false ∧ ((s.admitted d slot a).ds (byteAt a 0)).enable = true ∧
        (∀ c ∈ (maskConvs a 8), (s.conv c).cfg.stream = (byteAt a 0) ∨ 64 ≤ (s.conv c).cfg.stream ∨ (s.ds (s.conv c).cfg.stream).opened = false) ∧
        (∀ c ∈ (maskConvs a 8), (s.region (convRegion c)).failed = false ∧ (s.region (convRegion c)).ready = true)) ∧
    (∃ (s : State) (d : Desc) (slot : Nat) (a : Bytes) (n : Nat), Admits s 0x0501 d slot a ∧ firstBad a (rsv 2 6) = none ∧
        (s.consumed d).namesObj (fld a 0 2) 2 = true ∧ (s.admitted d slot a).streamOf (fld a 0 2) = some n ∧
        ((s.admitted d slot a).ds n).closing = none) ∧
    (∃ (s : State) (t : Nat) (c : Nat) (r : Rec) (l : List Rec), c < 192 ∧ (s.conv c).link = r :: l ∧ (s.at t).olderWaits r = true) ∧
    (∃ (s : State) (t : Nat) (c : Nat) (r : Rec) (l : List Rec), c < 192 ∧ (s.conv c).link = r :: l ∧ (s.at t).olderWaits r = false ∧
        ((s.ds r.stream).opened = false ∨ (s.ds r.stream).closing ≠ none)) ∧
    (∃ (s : State) (t : Nat) (c : Nat) (r : Rec) (l : List Rec), c < 192 ∧ (s.conv c).link = r :: l ∧ (s.at t).olderWaits r = false ∧
        (s.ds r.stream).opened = true ∧ (s.ds r.stream).closing = none ∧ ((s.ds r.stream).halted = true ∨ 512 ≤ (s.ds r.stream).stage.length)) ∧
    (∃ (s : State) (t : Nat) (c : Nat) (r : Rec) (l : List Rec), c < 192 ∧ (s.conv c).link = r :: l ∧ (s.at t).olderWaits r = false ∧
        (s.ds r.stream).opened = true ∧ (s.ds r.stream).closing = none ∧ (s.ds r.stream).halted = false ∧ (s.ds r.stream).stage.length < 512) ∧
    (∃ (s : State) (t : Nat) (n : Nat) (b : Buf), n < 64 ∧ (s.ds n).cur = some b ∧ (s.ds n).flush ≠ 0 ∧ b.used ≠ 0 ∧
        b.at_ + (s.ds n).flush * 250000 ≤ (s.at t).now) ∧
    (∃ (s : State) (n : Nat), n < 64 ∧ ((s.ds n).cur = none ∨ (s.ds n).flush = 0)) ∧
    (∃ (s : State) (n : Nat) (i : Nat) (b : Bytes) (l : List (Nat × Bytes)), n < 64 ∧ (s.ds n).posted = (i, b) :: l ∧ (s.ds n).enable = true ∧
        (s.ds n).cur = none ∧ (s.ds n).fetchStalled = false) ∧
    (∃ (s : State) (t : Nat) (v : Nat), v < 64 ∧ s.time.localMode = false ∧ s.host.pendVec.contains v = true ∧ bit (s.msix v).ctrl 0 = false ∧
        Tbl.get 0 v s.host.vecNext ≤ (s.at t).now) ∧
    (∃ (s : State) (t : Nat) (v : Nat), v < 64 ∧ (s.at t).now < Tbl.get 0 v s.host.vecNext) :=
  ⟨⟨{ ready with host := { ready.host with dss := [(5, { opened := true }), (63, { enable := true })] }, convs := [(0, { cfg := { stream := 5 } })] },
        cmd 0x0500 (fill 32 [(0, 1, 63), (4, 4, 60000), (8, 1, 1)]), 0, fill 32 [(0, 1, 63), (4, 4, 60000), (8, 1, 1)],
        by unfold Admits; decide +kernel⟩,
   ⟨stream63 { enable := true }, cmd 0x0500 (fill 32 [(0, 1, 63), (4, 4, 60000), (8, 1, 1)]), 0, fill 32 [(0, 1, 63), (4, 4, 60000), (8, 1, 1)],
        by unfold Admits; decide +kernel⟩,
   ⟨{ stream63 { enable := true, opened := true, handle := 5 } with chip := { ready.chip with handles := [(5, { st := 2, gen := 1, kind := 2 })] } },
        cmd 0x0501 (fill 8 [(0, 2, 4101)]), 0, fill 8 [(0, 2, 4101)], 63, by unfold Admits; decide +kernel⟩,
   ⟨{ stream63 { opened := true } with convs := [(0, { link := [{ rec63 with seq := 0 }] }), (191, { link := [rec63] })] }, 0, 191, rec63, [],
        by decide +kernel⟩,
   ⟨stream63 {}, 0, 191, rec63, [], by decide +kernel⟩,
   ⟨stream63 { opened := true, halted := true }, 0, 191, rec63, [], by decide +kernel⟩,
   ⟨stream63 { opened := true }, 0, 191, rec63, [], by decide +kernel⟩,
   ⟨{ stream63 { cur := some { addr := 64, len := 64, used := 32, first := 0, at_ := 0, idx := 0 }, flush := 1 } with time := { ready.time with timebase := 250000 } },
        0, 63, { addr := 64, len := 64, used := 32, first := 0, at_ := 0, idx := 0 }, by decide +kernel⟩,
   ⟨ready, 63, by decide +kernel⟩,
   ⟨stream63 { enable := true, posted := [(0, fill 16 [])] }, 63, 0, fill 16 [], [], by decide +kernel⟩,
   ⟨{ ready with host := { ready.host with pendVec := [63], msix := [(63, { ctrl := 0 })], vecNext := [(63, 1000)] } }, 0, 63, by decide +kernel⟩,
   ⟨{ ready with host := { ready.host with vecNext := [(63, 1001)] } }, 0, 63, by decide +kernel⟩⟩

/-- `ready` with queue 15 as given. -/
def queue15 (q : Cq) : State := { ready with host := { ready.host with cqs := [(15, q)] } }

theorem meets_DoorbellsComplete :
    (∃ (s : State) (t : Nat) (q : Nat) (v : Word), q < 16 ∧ (s.at t).hostUp = true ∧ s.chip.restarting = false ∧ (s.cq q).enable = true ∧
        v.toNat % 65536 < 2 ^ (s.cq q).sqSize) ∧
    (∃ (s : State) (t : Nat) (q : Nat) (v : Word), q < 16 ∧ (s.at t).hostUp = true ∧ s.chip.restarting = false ∧ (s.cq q).enable = true ∧
        v.toNat % 65536 < 2 ^ (s.cq q).cqSize) ∧
    (∃ (s : State) (t : Nat) (n : Nat) (v : Word), n < 64 ∧ (s.at t).hostUp = true ∧ s.chip.restarting = false ∧ (s.ds n).enable = true ∧
        v.toNat % 65536 < 2 ^ (s.ds n).bufSize) ∧
    (∃ (s : State) (t : Nat) (n : Nat) (v : Word), n < 64 ∧ (s.at t).hostUp = true ∧ s.chip.restarting = false ∧ (s.ds n).enable = true ∧
        v.toNat % 65536 < 2 ^ (s.ds n).evtSize) ∧
    (∃ (s : State) (t : Nat) (v : Word), (s.at t).hostUp = true ∧ s.chip.restarting = false ∧ s.host.me.enable = true ∧
        v.toNat % 65536 < 2 ^ s.host.me.size) ∧
    (∃ (s : State) (t : Nat) (q : Nat) (v : Word) (w : Nat), q < 16 ∧ (s.at t).hostUp = true ∧
        (w ≠ 4 ∨ (s.cq q).enable = false ∨ 2 ^ (s.cq q).sqSize ≤ v.toNat % 65536)) ∧
    (∃ (s : State) (t : Nat) (v : BitVec 64), (s.at t).hostUp = true ∧ haltOk v.toNat = true ∧ bit v.toNat 44 = false ∧ bits v.toNat 40 4 = 1) ∧
    (∃ (s : State) (t : Nat) (v : BitVec 64), (s.at t).hostUp = true ∧ haltOk v.toNat = true ∧ bit v.toNat 44 = false) ∧
    (∃ (s : State) (t : Nat) (v : BitVec 64), (s.at t).hostUp = true ∧ haltOk v.toNat = true ∧ bit v.toNat 44 = false) ∧
    (∃ (s : State) (t : Nat) (v : BitVec 64), (s.at t).hostUp = true ∧ haltOk v.toNat = true ∧ bit v.toNat 44 = true) ∧
    (∃ (s : State) (q : Nat), q < 16 ∧ (s.cq q).enable = true ∧ (s.cq q).draining = false ∧ (s.cq q).stalled = false ∧
        (s.cq q).sqHead ≠ (s.cq q).sqTail) :=
  ⟨⟨queue15 { enable := true, sqSize := 4, cqSize := 4 }, 0, 15, 15#32, by decide +kernel⟩,
   ⟨queue15 { enable := true, sqSize := 4, cqSize := 4 }, 0, 15, 15#32, by decide +kernel⟩,
   ⟨{ ready with host := { ready.host with dss := [(63, { enable := true })] } }, 0, 63, 15#32, by decide +kernel⟩,
   ⟨{ ready with host := { ready.host with dss := [(63, { enable := true })] } }, 0, 63, 15#32, by decide +kernel⟩,
   ⟨{ ready with host := { ready.host with me := { enable := true, size := 4 } } }, 0, 15#32, by decide +kernel⟩,
   ⟨queue15 { enable := true, sqSize := 4, cqSize := 4 }, 0, 15, 16#32, 4, by decide +kernel⟩,
   ⟨ready, 0, 0x0000010180000000#64, by decide +kernel⟩,
   ⟨ready, 0, 0x0000020580000000#64, by decide +kernel⟩,
   ⟨ready, 0, 0x0000030180000000#64, by decide +kernel⟩,
   ⟨ready, 0, 0x0000130000000001#64, by decide +kernel⟩,
   ⟨queue15 { enable := true, sqSize := 4, cqSize := 4, sqTail := 1 }, 15, by decide +kernel⟩⟩

theorem meets_RingEnablesComplete :
    (∃ (s : State) (t : Nat) (q : _) (v : Word), q < 16 ∧ (s.at t).hostUp = true ∧ s.chip.restarting = false ∧ (s.cq q).enable = false ∧
        bit v.toNat 0 = true ∧ sizeOk (bits v.toNat 8 4) = true ∧ sizeOk (bits v.toNat 12 4) = true ∧
        baseOk (s.cq q).sqBase (bits v.toNat 8 4) 64 = true ∧ baseOk (s.cq q).cqBase (bits v.toNat 12 4) 32 = true) ∧
    (∃ (s : State) (t : Nat) (q : _) (v : Word), q < 16 ∧ (s.at t).hostUp = true ∧ s.chip.restarting = false ∧ (s.cq q).enable = false ∧
        bit v.toNat 0 = true ∧ sizeOk (bits v.toNat 8 4) = true ∧ sizeOk (bits v.toNat 12 4) = true ∧
        baseOk (s.cq q).sqBase (bits v.toNat 8 4) 64 = false) ∧
    (∃ (s : State) (t : Nat) (q : _) (v : Word), q < 16 ∧ (s.at t).hostUp = true ∧ s.chip.restarting = false ∧ (s.cq q).enable = true ∧
        bit v.toNat 0 = false ∧ sizeOk (bits v.toNat 8 4) = true ∧ sizeOk (bits v.toNat 12 4) = true) ∧
    (∃ (s : State) (t : Nat) (n : _) (v : Word), n < 64 ∧ (s.at t).hostUp = true ∧ (s.ds n).enable = false ∧ bit v.toNat 0 = true ∧
        sizeOk (bits v.toNat 8 4) = true ∧ sizeOk (bits v.toNat 12 4) = true ∧ baseOk (s.ds n).bufBase (bits v.toNat 8 4) 16 = true ∧
        baseOk (s.ds n).evtBase (bits v.toNat 12 4) 16 = true) ∧
    (∃ (s : State) (t : Nat) (n : _) (v : Word), n < 64 ∧ (s.at t).hostUp = true ∧ (s.ds n).enable = true ∧ bit v.toNat 0 = false ∧
        sizeOk (bits v.toNat 8 4) = true ∧ sizeOk (bits v.toNat 12 4) = true) ∧
    (∃ (s : State) (t : Nat) (v : Word), (s.at t).hostUp = true ∧ s.chip.restarting = false ∧ s.host.me.enable = false ∧ bit v.toNat 0 = true ∧
        sizeOk (bits v.toNat 8 4) = true ∧ baseOk s.host.me.base (bits v.toNat 8 4) 32 = true) ∧
    (∃ (s : State) (t : Nat) (v : Word), (s.at t).hostUp = true ∧ s.chip.restarting = false ∧ s.host.me.enable = true ∧ bit v.toNat 0 = false ∧
        sizeOk (bits v.toNat 8 4) = true) :=
  ⟨⟨{ ready with host := { ready.host with cqs := [(15, { sqBase := 4096, cqBase := 8192 })] } }, 0, 15, 0xCC01#32, by decide +kernel⟩,
   ⟨{ ready with host := { ready.host with cqs := [(15, { sqBase := 64 })] } }, 0, 15, 0x4401#32, by decide +kernel⟩,
   ⟨{ ready with host := { ready.host with cqs := [(15, { enable := true, sqSize := 4, cqSize := 4 })] } }, 0, 15, 0x4400#32, by decide +kernel⟩,
   ⟨{ ready with host := { ready.host with dss := [(63, { bufBase := 4096 })] } }, 0, 63, 0xCC01#32, by decide +kernel⟩,
   ⟨{ ready with host := { ready.host with dss := [(63, { enable := true })] } }, 0, 63, 0x4400#32, by decide +kernel⟩,
   ⟨ready, 0, 0x0401#32, by decide +kernel⟩,
   ⟨{ ready with host := { ready.host with me := { enable := true } } }, 0, 0x0400#32, by decide +kernel⟩⟩

theorem meets_MemoryCommandsComplete :
    (∃ (s : State) (d : Desc) (granted : Nat) (slot : Nat) (a : Bytes), Admits s 0x0A00 d slot a ∧ fld a 0 8 % 4 = 0 ∧ (fld a 8 4) % 4 = 0 ∧
        (fld a 12 4) % 4 = 0 ∧ (s.admitted d slot a).bufOk (fld a 0 8) (fld a 12 4) = true ∧ (fld a 12 4) ≠ 0 ∧
        (fld a 8 4) + (fld a 12 4) ≤ 2097152 ∧ (fld a 12 4) ≤ 4 * granted ∧ (s.admitted d slot a).memBehind slot = false ∧ (∀ b,
        (fld a 8 4) / 32768 ≤ b → 32768 * b < (fld a 8 4) + (fld a 12 4) → (s.block b).quarantined = false ∧ (s.block b).stopped = false)) ∧
    (∃ (s : State) (d : Desc) (granted : Nat) (slot : Nat) (a : Bytes), Admits s 0x0A00 d slot a ∧ fld a 0 8 % 4 = 0 ∧ (fld a 8 4) % 4 = 0 ∧
        (fld a 12 4) % 4 = 0 ∧ (s.admitted d slot a).bufOk (fld a 0 8) (fld a 12 4) = true ∧ (fld a 8 4) + (fld a 12 4) ≤ 2097152 ∧
        (4 * granted) < (fld a 12 4) ∧ (s.admitted d slot a).memBehind slot = false ∧ (∀ b,
        (fld a 8 4) / 32768 ≤ b → 32768 * b < (fld a 8 4) + (fld a 12 4) → (s.block b).quarantined = false ∧ (s.block b).stopped = false)) ∧
    (∃ (s : State) (d : Desc) (granted : Nat) (slot : Nat) (a : Bytes), Admits s 0x0A01 d slot a ∧ fld a 0 8 % 4 = 0 ∧ (fld a 8 4) % 4 = 0 ∧
        (fld a 12 4) % 4 = 0 ∧ (s.admitted d slot a).bufOk (fld a 0 8) (fld a 12 4) = true ∧ (fld a 12 4) ≠ 0 ∧
        (fld a 8 4) + (fld a 12 4) ≤ 2097152 ∧ (fld a 12 4) ≤ 4 * granted ∧ (s.admitted d slot a).memBehind slot = false ∧ (∀ b,
        (fld a 8 4) / 32768 ≤ b → 32768 * b < (fld a 8 4) + (fld a 12 4) → (s.block b).quarantined = false ∧ (s.block b).stopped = false)) ∧
    (∃ (s : State) (d : Desc) (granted : Nat) (slot : Nat) (a : Bytes) (x : Nat), Admits s 0x0A01 d slot a ∧ fld a 0 8 % 4 = 0 ∧
        (fld a 8 4) % 4 = 0 ∧ (fld a 12 4) % 4 = 0 ∧ (s.admitted d slot a).bufOk (fld a 0 8) (fld a 12 4) = true ∧
        (fld a 8 4) + (fld a 12 4) ≤ 2097152 ∧ (fld a 12 4) ≤ 4 * granted ∧ (s.admitted d slot a).memBehind slot = false ∧ (fld a 8 4) ≤ x ∧
        x < (fld a 8 4) + (fld a 12 4) ∧ (∀ b, (fld a 8 4) / 32768 ≤ b → 32768 * b < (fld a 8 4) + (fld a 12 4) → (s.block b).quarantined = false ∧
        (s.block b).stopped = false)) ∧
    (∃ (s : State) (d : Desc) (slot : Nat) (a : Bytes), Admits s 0x0A02 d slot a ∧ firstBad a (rsv 1 3 ++ rsv 12 4) = none ∧ byteAt a 0 ≤ 1 ∧
        (fld a 4 4) % 4 = 0 ∧ (fld a 4 4) + 4 ≤ 2097152 ∧ (s.admitted d slot a).memBehind slot = false ∧
        (s.block ((fld a 4 4) / 32768)).quarantined = false ∧ (s.block ((fld a 4 4) / 32768)).stopped = false) ∧
    (∃ (s : State) (d : Desc) (slot : Nat) (a : Bytes), Admits s 0x0A02 d slot a ∧ firstBad a (rsv 1 3 ++ rsv 12 4) = none ∧ byteAt a 0 ≤ 1 ∧
        (fld a 4 4) % 4 = 0 ∧ (fld a 4 4) + 4 ≤ 2097152 ∧ (s.admitted d slot a).memBehind slot = false ∧
        (s.block ((fld a 4 4) / 32768)).quarantined = false ∧ (s.block ((fld a 4 4) / 32768)).stopped = false) ∧
    (∃ (s : State) (t : Nat) (slot : Nat) (at_ : Nat) (done : Nat) (c : Instr), ((s.at t).hnd slot).work = .mem at_ done c ∧
        ((s.at t).hnd slot).st = 1 ∧ (s.block (at_ / 32768)).stopped = false ∧ (s.at t).memBehind slot = false) :=
  ⟨⟨ready, cmd 0x0A00 (fill 16 [(0, 8, 4096), (8, 4, 2097148), (12, 4, 4)]), 1, 0, fill 16 [(0, 8, 4096), (8, 4, 2097148), (12, 4, 4)], by
     refine ⟨?_, ?_, ?_, ?_, ?_, ?_, ?_, ?_, ?_, fun b _ _ => ⟨rfl, rfl⟩⟩ <;> first | decide +kernel | (unfold Admits; decide +kernel)⟩,
   ⟨ready, cmd 0x0A00 (fill 16 [(0, 8, 4096), (8, 4, 2097148), (12, 4, 4)]), 0, 0, fill 16 [(0, 8, 4096), (8, 4, 2097148), (12, 4, 4)], by
     refine ⟨?_, ?_, ?_, ?_, ?_, ?_, ?_, ?_, fun b _ _ => ⟨rfl, rfl⟩⟩ <;> first | decide +kernel | (unfold Admits; decide +kernel)⟩,
   ⟨ready, cmd 0x0A01 (fill 16 [(0, 8, 4096), (8, 4, 2097148), (12, 4, 4)]), 1, 0, fill 16 [(0, 8, 4096), (8, 4, 2097148), (12, 4, 4)], by
     refine ⟨?_, ?_, ?_, ?_, ?_, ?_, ?_, ?_, ?_, fun b _ _ => ⟨rfl, rfl⟩⟩ <;> first | decide +kernel | (unfold Admits; decide +kernel)⟩,
   ⟨ready, cmd 0x0A01 (fill 16 [(0, 8, 4096), (8, 4, 2097148), (12, 4, 4)]), 1, 0, fill 16 [(0, 8, 4096), (8, 4, 2097148), (12, 4, 4)], 2097148, by
     refine ⟨?_, ?_, ?_, ?_, ?_, ?_, ?_, ?_, ?_, ?_, fun b _ _ => ⟨rfl, rfl⟩⟩ <;> first | decide +kernel | (unfold Admits; decide +kernel)⟩,
   ⟨ready, cmd 0x0A02 (fill 16 [(0, 1, 1), (4, 4, 2097148)]), 0, fill 16 [(0, 1, 1), (4, 4, 2097148)], by unfold Admits; decide +kernel⟩,
   ⟨ready, cmd 0x0A02 (fill 16 [(0, 1, 1), (4, 4, 2097148)]), 0, fill 16 [(0, 1, 1), (4, 4, 2097148)], by unfold Admits; decide +kernel⟩,
   ⟨{ ready with chip := { ready.chip with handles := [(5, { st := 1, work := .mem 4096 0 (.memCopyIn (cmd 0x0A00 []) [] 0) })] } }, 0, 5, 4096, 0,
        .memCopyIn (cmd 0x0A00 []) [] 0, by decide +kernel⟩⟩

theorem meets_FabricPortsComplete :
    (∃ (s : State) (b : Nat), b < 64 ∧ (s.block b).stopped = false ∧ s.clocksGated (b / 8) = false ∧ (s.block b).quarantined = false ∧
        s.time.localMode = false ∧ (Tbl.get {} b s.fab.ports).req = none) ∧
    (∃ (s : State) (b : Nat) (op : Nat), b < 64 ∧ op < 4 ∧ (s.block b).stopped = true ∧ s.clocksGated (b / 8) = false ∧
        (Tbl.get {} b s.fab.ports).req = none) ∧
    (∃ (s : State) (b : Nat) (op : Nat), b < 64 ∧ (op = 0 ∨ op = 2 ∨ op = 3) ∧ (s.block b).stopped = false ∧ s.clocksGated (b / 8) = false ∧
        (s.block b).quarantined = false ∧ s.time.localMode = false ∧ (Tbl.get {} b s.fab.ports).req = none) ∧
    (∃ (s : State) (b : Nat) (op : Nat), b < 64 ∧ op < 4 ∧ (Tbl.get {} b s.fab.ports).req = none ∧ (s.block b).stopped = false ∧
        s.clocksGated (b / 8) = false ∧ (s.block b).quarantined = true) ∧
    (∃ (s : State) (b : Nat) (e : Nat × Nat), b < 64 ∧ (s.block b).stopped = false ∧ s.fab.scrub.find? (fun x => x.1 == b) = some e) ∧
    (∃ (s : State) (k : Nat) (w : Nat), 38208 ≤ k ∧ k < 49152 ∧ w < 8 ∧ 2 ≤ (s.drivers k w).length) :=
  ⟨⟨ready, 63, by decide +kernel⟩,
   ⟨{ ready with til := { blocks := [(63, { stopped := true })] } }, 63, 3, by decide +kernel⟩,
   ⟨ready, 63, 3, by decide +kernel⟩,
   ⟨{ ready with til := { blocks := [(63, { quarantined := true })] } }, 63, 3, by decide +kernel⟩,
   ⟨{ ready with fab := { ready.fab with scrub := [(63, 2097148)] } }, 63, (63, 2097148), by decide +kernel⟩,
   ⟨{ ready with fab := { ready.fab with frames := [(groupFrame 49151, fill 4 [])] } }, 49151, 0, by decide +kernel⟩⟩

/-- `ready` with a read-back of some blocks, block 63 stopped for it. -/
def reading (r : Readback) : State := { ready with fab := { ready.fab with readbacks := [r] }, til := { ready.til with blocks := [(63, { stopped := true })] } }

theorem meets_ReadbackComplete :
    (∃ (s : State) (d : Desc) (slot : Nat) (a : Bytes), Admits s 0x0602 d slot a ∧ firstBad a ((1,
        0xFE) :: rsv 4 4 ++ (if bit (byteAt a 1) 0 then [] else rsv 8 8) ++ rsv 28 4) = none ∧ s.scopeLoading (byteAt a 0) (fld a 2 2) = false ∧
        s.husk.debugLocked = false ∧ s.husk.fuses.debugDisable = false ∧ scopeOk (byteAt a 0) (fld a 2 2) = true ∧ fld a 16 8 % 8 = 0 ∧
        144 * (scopeBlocks (byteAt a 0) (fld a 2 2)).length ≤ fld a 24 4 ∧ (s.admitted d slot a).bufOk (fld a 16 8) (fld a 24 4) = true) ∧
    (∃ (s : State) (t : Nat) (id : Nat) (r : Readback), s.fab.readbacks.find? (fun r => r.id == id) = some r ∧ r.captured = false ∧
        r.time ≤ (s.at t).now ∧ s.fab.readbacks.any (fun x => x.captured) = false) ∧
    (∃ (s : State) (t : Nat) (id : Nat) (r : Readback), s.fab.readbacks.find? (fun r => r.id == id) = some r ∧ r.captured = false ∧
        r.time ≤ (s.at t).now ∧ s.fab.readbacks.any (fun x => x.captured) = false ∧ Tbl.wf 0 s.fab.ff = true) ∧
    (∃ (s : State) (t : Nat) (id : Nat) (b : Nat) (r : Readback), s.fab.readbacks.find? (fun r => r.id == id) = some r ∧ r.captured = true ∧
        r.blocks.contains b = true ∧ (s.block b).stopped = true ∧ r.recs.any (fun e => e.1 == b) = false ∧
        ({ r with recs := Tbl.set [] b ((s.at t).ffRecord r b) r.recs }).recs.length < r.blocks.length) ∧
    (∃ (s : State) (t : Nat) (id : Nat) (b : Nat) (r : Readback), s.fab.readbacks.find? (fun r => r.id == id) = some r ∧ r.captured = true ∧
        r.blocks.contains b = true ∧ (s.block b).stopped = true ∧ r.recs.any (fun e => e.1 == b) = false ∧
        r.blocks.length ≤ ({ r with recs := Tbl.set [] b ((s.at t).ffRecord r b) r.recs }).recs.length ∧ id ≠ 0x1000) ∧
    (∃ (s : State) (t : Nat) (id : Nat) (b : Nat) (r : Readback), s.fab.readbacks.find? (fun r => r.id == id) = some r ∧ r.captured = true ∧
        r.blocks.contains b = true ∧ (s.block b).stopped = true ∧ r.recs.any (fun e => e.1 == b) = false ∧
        r.blocks.length ≤ ({ r with recs := Tbl.set [] b ((s.at t).ffRecord r b) r.recs }).recs.length ∧ id = 0x1000) :=
  ⟨⟨ready, cmd 0x0602 (fill 32 [(2, 2, 63), (16, 8, 64), (24, 4, 144)]), 0, fill 32 [(2, 2, 63), (16, 8, 64), (24, 4, 144)],
        by unfold Admits; decide +kernel⟩,
   ⟨reading { id := 5, blocks := [63], time := 1000, addr := 64 }, 0, 5, { id := 5, blocks := [63], time := 1000, addr := 64 }, by decide +kernel⟩,
   ⟨reading { id := 5, blocks := [63], time := 1000, addr := 64 }, 0, 5, { id := 5, blocks := [63], time := 1000, addr := 64 }, by decide +kernel⟩,
   ⟨reading { id := 5, blocks := [63, 62], time := 1000, addr := 64, captured := true }, 0, 5, 63,
        { id := 5, blocks := [63, 62], time := 1000, addr := 64, captured := true }, by decide +kernel⟩,
   ⟨reading { id := 5, blocks := [63], time := 1000, addr := 64, captured := true }, 0, 5, 63,
        { id := 5, blocks := [63], time := 1000, addr := 64, captured := true }, by decide +kernel⟩,
   ⟨reading { id := 0x1000, blocks := [63], time := 1000, addr := 64, captured := true }, 0, 0x1000, 63,
        { id := 0x1000, blocks := [63], time := 1000, addr := 64, captured := true }, by decide +kernel⟩⟩

theorem meets_UserClocksComplete :
    (∃ (s : State) (t : Nat) (n : _) (v : Word) (p : Upll), n < 4 ∧ (s.at t).hostUp = true ∧ 8 ≤ bits v.toNat 4 8 ∧
        p = { s.upll n with mul := bits v.toNat 4 8, prediv := bits v.toNat 12 4, postdiv := bits v.toNat 16 7 } ∧ bit v.toNat 0 = true ∧
        p.ok s.refKHz = true) ∧
    (∃ (s : State) (t : Nat) (n : _) (v : Word) (p : Upll), n < 4 ∧ (s.at t).hostUp = true ∧ 8 ≤ bits v.toNat 4 8 ∧
        p = { s.upll n with mul := bits v.toNat 4 8, prediv := bits v.toNat 12 4, postdiv := bits v.toNat 16 7 } ∧ bit v.toNat 0 = true ∧
        p.ok s.refKHz = false) ∧
    (∃ (s : State) (t : Nat) (n : _) (v : Word) (p : Upll), n < 4 ∧ (s.at t).hostUp = true ∧ 8 ≤ bits v.toNat 4 8 ∧
        p = { s.upll n with mul := bits v.toNat 4 8, prediv := bits v.toNat 12 4, postdiv := bits v.toNat 16 7 } ∧ bit v.toNat 0 = false) ∧
    (∃ (s : State) (n : _), n < 4 ∧ (s.upll n).enable = true ∧ (s.upll n).ok s.refKHz = true) ∧
    (∃ (s : State) (t : Nat) (g : Nat) (v : Word), g < 8 ∧ (s.at t).hostUp = true ∧ gckIndexOk (bits v.toNat 1 3) (bits v.toNat 4 10) = true ∧
        v.toNat % 2 = (s.gck g).mode) ∧
    (∃ (s : State) (t : Nat) (g : Nat) (v : Word), g < 8 ∧ (s.at t).hostUp = true ∧ 1 ≤ bits v.toNat 0 19 ∧ bits v.toNat 0 19 ≤ 350000) ∧
    (∃ (s : State) (g : Nat) (khz : _), g < 8 ∧ (s.gck g).mode = 0 ∧ (s.gck g).lost = false ∧
        (10 * khz < 9 * (s.gck g).khz ∨ 11 * (s.gck g).khz < 10 * khz)) ∧
    (∃ (s : State) (g : Nat) (khz : _), g < 8 ∧ (s.gck g).mode = 0 ∧ (s.gck g).lost = true ∧ 9 * (s.gck g).khz ≤ 10 * khz ∧
        10 * khz ≤ 11 * (s.gck g).khz) ∧
    (∃ (s : State) (t : Nat) (g : Nat) (u : State), g < 8 ∧ (s.gck g).mode = 1 ∧ (s.gck g).asserted = false ∧
        u = (s.at t).setGck g { s.gck g with asserted := true }) ∧
    (∃ (s : State) (t : Nat) (g : Nat), g < 8 ∧ (s.gck g).mode = 1 ∧ 9 ≤ s.time.step ∧ (s.at t).treeRuns (s.gck g).deassert = true) :=
  ⟨⟨ready, 0, 3, 0x701C1#32, { ready.upll 3 with mul := 28, prediv := 0, postdiv := 7 }, by decide +kernel⟩,
   ⟨ready, 0, 3, 0x701D1#32, { ready.upll 3 with mul := 29, prediv := 0, postdiv := 7 }, by decide +kernel⟩,
   ⟨ready, 0, 3, 0x80#32, { ready.upll 3 with mul := 8, prediv := 0, postdiv := 0 }, by decide +kernel⟩,
   ⟨{ ready with clk := { ready.clk with upll := [(3, { enable := true, mul := 10, postdiv := 7 })] } }, 3, by decide +kernel⟩,
   ⟨ready, 0, 7, 0x76#32, by decide +kernel⟩,
   ⟨ready, 0, 7, 350000#32, by decide +kernel⟩,
   ⟨{ ready with clk := { ready.clk with gck := [(7, { khz := 1000 })] } }, 7, 899, by decide +kernel⟩,
   ⟨{ ready with clk := { ready.clk with gck := [(7, { khz := 1000, lost := true })] } }, 7, 1100, by decide +kernel⟩,
   ⟨{ ready with clk := { ready.clk with gck := [(7, { mode := 1, asserted := false })] } }, 0, 7,
        ({ ready with clk := { ready.clk with gck := [(7, { mode := 1, asserted := false })] } }).setGck 7 { ({ ready with clk := { ready.clk with gck := [(7, { mode := 1, asserted := false })] } }).gck 7 with asserted := true }, by decide +kernel⟩,
   ⟨{ ready with clk := { ready.clk with gck := [(7, { mode := 1, deassert := 0 })] } }, 0, 7, by decide +kernel⟩⟩

theorem meets_TimebaseEventsComplete :
    (∃ (s : State) (t : Nat) (v : Word), (s.at t).hostUp = true ∧ bits v.toNat 0 2 ≤ 1) ∧
    (∃ (s : State) (t : Nat) (v : Word), (s.at t).hostUp = true ∧ bits v.toNat 0 2 ≤ 2) ∧
    (∃ (s : State), s.clk.refLost = false ∧ s.time.running = true) ∧
    (∃ (s : State), s.time.running = true ∧ s.clk.refLost = true) ∧
    (∃ (s : State) (t : Nat) (new : _), s.time.running = true ∧ 7 ≤ s.time.step ∧ s.clk.syncMode = 1 ∧
        new = (s.clk.tbPreset + Config.syncLatency) % 2 ^ 64 ∧ new ≠ ((s.at t).now + Config.syncLatency) % 2 ^ 64) ∧
    (∃ (s : State) (t : Nat) (new : _), s.time.running = true ∧ 7 ≤ s.time.step ∧ s.clk.syncMode = 1 ∧
        new = (s.clk.tbPreset + Config.syncLatency) % 2 ^ 64 ∧ new = ((s.at t).now + Config.syncLatency) % 2 ^ 64) ∧
    (∃ (s : State) (t : Nat), s.time.running = true ∧ 7 ≤ s.time.step ∧ s.clk.syncMode = 2 ∧ (s.at t).now ≤ s.clk.tbPreset + 1 ∧
        s.clk.tbPreset ≤ (s.at t).now + 1) ∧
    (∃ (s : State) (t : Nat), s.time.running = true ∧ 7 ≤ s.time.step ∧ s.clk.syncMode = 2 ∧
        ((s.at t).now > s.clk.tbPreset + 1 ∨ s.clk.tbPreset > (s.at t).now + 1)) ∧
    (∃ (s : State), s.time.running = true ∧ 7 ≤ s.time.step ∧ s.clk.syncMode = 0) ∧
    (∃ (s : State) (t : Nat), s.time.running = true ∧ 7 ≤ s.time.step ∧ s.clk.syncMode = 2 ∧ s.clk.syncPeriod ≠ 0 ∧
        2 * s.clk.syncLast + 3 * s.clk.syncPeriod ≤ 2 * (s.at t).now) ∧
    (∃ (s : State), s.clk.rephasing = true ∧ (∀ c < 192, (s.conv c).rephase = false)) :=
  ⟨⟨ready, 0, 1#32, by decide +kernel⟩,
   ⟨ready, 0, 2#32, by decide +kernel⟩,
   ⟨ready, by decide +kernel⟩,
   ⟨{ ready with clk := { ready.clk with refLost := true } }, by decide +kernel⟩,
   ⟨{ ready with clk := { ready.clk with syncMode := 1, tbPreset := 5 } }, 0, (5 + Config.syncLatency) % 2 ^ 64, by exact ⟨rfl, by decide, rfl, rfl,
        latency_ne⟩⟩,
   ⟨{ ready with clk := { ready.clk with syncMode := 1, tbPreset := 1000 } }, 0, (1000 + Config.syncLatency) % 2 ^ 64, by exact ⟨rfl, by decide, rfl,
        rfl, rfl⟩⟩,
   ⟨{ ready with clk := { ready.clk with syncMode := 2, tbPreset := 1001 } }, 0, by decide +kernel⟩,
   ⟨{ ready with clk := { ready.clk with syncMode := 2, tbPreset := 1002 } }, 0, by decide +kernel⟩,
   ⟨ready, by decide +kernel⟩,
   ⟨{ ready with clk := { ready.clk with syncMode := 2, syncPeriod := 100, syncLast := 850 } }, 0, by decide +kernel⟩,
   ⟨{ ready with clk := { ready.clk with rephasing := true } }, by decide +kernel⟩⟩

theorem meets_CompareUnitsComplete :
    (∃ (s : State) (t : Nat) (u : _), u < 64 ∧ (s.at t).hostUp = true) ∧
    (∃ (s : State) (t : Nat) (u : _) (v : Word) (x : _), u < 64 ∧ (s.at t).hostUp = true ∧
        x = Tbl.get 0 (0x1104 + 12 * u) s.host.loHold + 2 ^ 32 * v.toNat ∧ (s.at t).now < x) ∧
    (∃ (s : State) (t : Nat) (u : _) (v : Word) (x : _), u < 64 ∧ (s.at t).hostUp = true ∧
        x = Tbl.get 0 (0x1104 + 12 * u) s.host.loHold + 2 ^ 32 * v.toNat ∧ x ≤ (s.at t).now ∧ (s.cmp u).period = 0) ∧
    (∃ (s : State) (t : Nat) (u : _) (v : Word) (x : _), u < 64 ∧ (s.at t).hostUp = true ∧
        x = Tbl.get 0 (0x1104 + 12 * u) s.host.loHold + 2 ^ 32 * v.toNat ∧ x ≤ (s.at t).now ∧ (s.cmp u).period ≠ 0) ∧
    (∃ (s : State) (t : Nat) (r : Nat) (i : _), r < 2 ∧ (s.at t).hostUp = true ∧ Tbl.wf {} s.clk.cmp = true ∧ i < 32) ∧
    (∃ (s : State) (t : Nat) (u : _) (c : Cmp), u < 64 ∧ (s.cmp u).armed = true ∧ s.time.running = true ∧ (s.at t).now = (s.cmp u).value ∧
        c = (if ((s.cmp u).period = 0) then { s.cmp u with armed := false } else { s.cmp u with value := (s.cmp u).value + (s.cmp u).period }) ∧
        u ≠ 63) ∧
    (∃ (s : State) (t : Nat) (u : _) (c : Cmp), u < 64 ∧ (s.cmp u).armed = true ∧ s.time.running = true ∧ (s.at t).now = (s.cmp u).value ∧
        c = (if ((s.cmp u).period = 0) then { s.cmp u with armed := false } else { s.cmp u with value := (s.cmp u).value + (s.cmp u).period }) ∧
        u = 63) ∧
    (∃ (s : State) (t : Nat) (u : _), u < 64 ∧ (s.at t).now ≠ (s.cmp u).value) :=
  ⟨⟨ready, 0, 63, by decide +kernel⟩,
   ⟨{ ready with host := { ready.host with loHold := [(0x1104 + 12 * 63, 1001)] }, clk := { ready.clk with cmp := [(63, { value := 1 })] } }, 0, 63,
        0#32, 1001, by decide +kernel⟩,
   ⟨{ ready with host := { ready.host with loHold := [(0x1104 + 12 * 63, 1000)] }, clk := { ready.clk with cmp := [(63, { value := 1 })] } }, 0, 63,
        0#32, 1000, by decide +kernel⟩,
   ⟨{ ready with host := { ready.host with loHold := [(0x1104 + 12 * 63, 1000)] }, clk := { ready.clk with cmp := [(63, { period := 1 })] } }, 0, 63,
        0#32, 1000, by decide +kernel⟩,
   ⟨ready, 0, 1, 31, by decide +kernel⟩,
   ⟨{ ready with clk := { ready.clk with cmp := [(62, { value := 1000, armed := true })] } }, 0, 62, { value := 1000 }, by decide +kernel⟩,
   ⟨{ ready with clk := { ready.clk with cmp := [(63, { value := 1000, period := 7, armed := true })] } }, 0, 63,
        { value := 1007, period := 7, armed := true }, by decide +kernel⟩,
   ⟨ready, 0, 63, by decide +kernel⟩⟩

theorem meets_SnapshotsComplete :
    (∃ (s : State) (d : Desc) (slot : Nat) (a : Bytes) (e : Nat), Admits s 0x0700 d slot a ∧ firstBad a ((0, 0xFC) :: rsv 1 3) = none ∧
        53440 ≤ fld a 4 4 ∧ fld a 8 8 % 8 = 0 ∧ (s.admitted d slot a).bufOk (fld a 8 8) (fld a 4 4) = true ∧ e = (s.sheaf.epoch + 1) % 2 ^ 32 ∧
        s.sheaf.run = none ∧ s.sheaf.wait = []) ∧
    (∃ (s : State) (d : Desc) (slot : Nat) (a : Bytes) (e : Nat), Admits s 0x0700 d slot a ∧ firstBad a ((0, 0xFC) :: rsv 1 3) = none ∧
        53440 ≤ fld a 4 4 ∧ fld a 8 8 % 8 = 0 ∧ (s.admitted d slot a).bufOk (fld a 8 8) (fld a 4 4) = true ∧ e = (s.sheaf.epoch + 1) % 2 ^ 32 ∧
        s.sheaf.run ≠ none ∧ s.sheaf.wait.length < 16) ∧
    (∃ (s : State) (u : _) (p : Snap), u < 417 ∧ s.sheaf.run = some p ∧ p.cut.contains u = false ∧ p.absent.contains u = false ∧
        s.unitStopped u = false ∧ s.unitGated u = true) ∧
    (∃ (s : State) (u : _) (p : Snap) (k : _), u < 417 ∧ s.sheaf.run = some p ∧ p.cut.contains u = false ∧ p.absent.contains u = false ∧
        s.unitStopped u = false ∧ s.unitGated u = false ∧ Tbl.wf {} p.shadow = true ∧ Tbl.wf {} s.chip.counters = true ∧ k < (unitSlots u).1) ∧
    (∃ (s : State) (r : Rec) (p : Snap), s.sheaf.run = some p ∧ r.epoch = p.epoch ∧ r.epoch ≠ 0 ∧ p.cut.contains (uDs r.stream) = false) ∧
    (∃ (s : State) (r : Rec) (p : Snap), s.sheaf.run = some p ∧ r.epoch ≠ p.epoch) ∧
    (∃ (s : State) (p : Snap), s.sheaf.run = some p ∧ p.missing = [] ∧ s.chip.restarting = false ∧ s.chip.failed = false) ∧
    (∃ (s : State) (t : Nat) (p : Snap), s.sheaf.run = some p ∧ p.missing ≠ [] ∧ p.injected + 250000 ≤ (s.at t).now ∧ s.chip.restarting = false ∧
        s.chip.failed = false) :=
  ⟨⟨ready, cmd 0x0700 (fill 16 [(4, 4, 53440), (8, 8, 64)]), 0, (fill 16 [(4, 4, 53440), (8, 8, 64)]), 1, by unfold Admits; decide +kernel⟩,
   ⟨{ ready with sheaf := { run := some { slot := 5, epoch := 1, flags := 0, addr := 64, injected := 0 } } }, cmd 0x0700 (fill 16 [(4, 4, 53440), (8,
        8, 64)]), 0, (fill 16 [(4, 4, 53440), (8, 8, 64)]), 1, by unfold Admits; decide +kernel⟩,
   ⟨{ ready with sheaf := { run := some { slot := 5, epoch := 1, flags := 0, addr := 64, injected := 0 } }, convs := [(191, { gated := true })] },
        272, { slot := 5, epoch := 1, flags := 0, addr := 64, injected := 0 }, by decide +kernel⟩,
   ⟨{ ready with sheaf := { run := some { slot := 5, epoch := 1, flags := 0, addr := 64, injected := 0 } } }, 416,
        { slot := 5, epoch := 1, flags := 0, addr := 64, injected := 0 }, 0, by decide +kernel⟩,
   ⟨{ ready with sheaf := { run := some { slot := 5, epoch := 1, flags := 0, addr := 64, injected := 0 } } },
        { val := 0, src := 0, flags := 0, seq := 0, ts := 0, stream := 63, epoch := 1 }, { slot := 5, epoch := 1, flags := 0, addr := 64, injected := 0 },
        by decide +kernel⟩,
   ⟨{ ready with sheaf := { run := some { slot := 5, epoch := 1, flags := 0, addr := 64, injected := 0 } } },
        { val := 0, src := 0, flags := 0, seq := 0, ts := 0, stream := 63 }, { slot := 5, epoch := 1, flags := 0, addr := 64, injected := 0 },
        by decide +kernel⟩,
   ⟨{ ready with sheaf := { run := some { slot := 5, epoch := 1, flags := 0, addr := 64, injected := 0, cut := List.range 417 } } },
        { slot := 5, epoch := 1, flags := 0, addr := 64, injected := 0, cut := List.range 417 }, by decide +kernel⟩,
   ⟨{ ready with sheaf := { run := some { slot := 5, epoch := 1, flags := 0, addr := 64, injected := 0 } }, time := { ready.time with timebase := 250000 } }, 0, { slot := 5, epoch := 1, flags := 0, addr := 64, injected := 0 }, by decide +kernel⟩⟩

theorem meets_PinCommandsComplete :
    (∃ (s : State) (d : Desc) (es : Bytes) (slot : Nat) (a : Bytes) (n : _) (b : Bytes) (l : List (Nat × PinMapE)), Admits s 0x0900 d slot a ∧
        firstBad a (rsv 1 7) = none ∧ n = byteAt a 0 ∧ 1 ≤ n ∧ n ≤ 64 ∧ fld a 8 8 % 8 = 0 ∧ (s.admitted d slot a).bufOk (fld a 8 8) (8 * n) = true ∧
        b = (s.admitted d slot a).hostRead (fld a 8 8) (8 * n) es ∧ l = (List.range n).map (fun i => readPinMap b i) ∧ entriesBad b n = false ∧
        s.mapsStatus l = stOK) ∧
    (∃ (s : State) (d : Desc) (es : Bytes) (slot : Nat) (a : Bytes) (n : _) (b : Bytes) (l : List (Nat × PinMapE)), Admits s 0x0900 d slot a ∧
        firstBad a (rsv 1 7) = none ∧ n = byteAt a 0 ∧ 1 ≤ n ∧ n ≤ 64 ∧ fld a 8 8 % 8 = 0 ∧ (s.admitted d slot a).bufOk (fld a 8 8) (8 * n) = true ∧
        b = (s.admitted d slot a).hostRead (fld a 8 8) (8 * n) es ∧ l = (List.range n).map (fun i => readPinMap b i) ∧ entriesBad b n = false ∧
        s.mapsStatus l ≠ stOK) ∧
    (∃ (s : State) (d : Desc) (slot : Nat) (a : Bytes) (b : _) (w : Nat) (m : Nat) (u : State), Admits s 0x0901 d slot a ∧
        firstBad a (rsv 1 3) = none ∧ b = byteAt a 0 ∧ b < 12 ∧ w = fld a 4 4 ∧ m = s.gpioMask b w ∧
        u = (s.admitted d slot a).setBank b { s.bank b with out := (s.bank b).out - Nat.land (s.bank b).out m + Nat.land (w % 65536) m }) ∧
    (∃ (s : State) (t : Nat) (b : _), b < 12 ∧ (s.at t).hostUp = true) ∧
    (∃ (s : State) (t : Nat) (b : _) (v : Word) (m : Nat), b < 12 ∧ (s.at t).hostUp = true ∧ m = s.gpioMask b v.toNat) ∧
    (∃ (s : State) (t : Nat) (p : _) (level : Bool) (u : State), p < 192 ∧ (s.pinS p).level ≠ level ∧
        (level = true → (s.bank (p / 16)).powered = true) ∧ u = (s.at t).setPinS p { s.pinS p with level := level } ∧
        (u.sigsOf (s.pinS p).own).find? (fun g => decide (g < 32) && decide (u.sigPin g = some p)) = none) ∧
    (∃ (s : State) (t : Nat) (p : _) (level : Bool) (u : State) (g : Nat), p < 192 ∧ (s.pinS p).level ≠ level ∧
        (level = true → (s.bank (p / 16)).powered = true) ∧ u = (s.at t).setPinS p { s.pinS p with level := level } ∧
        (u.sigsOf (s.pinS p).own).find? (fun g => decide (g < 32) && decide (u.sigPin g = some p)) = some g) ∧
    (∃ (s : State) (t : Nat) (e : PinSwitch) (rest : _) (u : State), s.pin.switches = e :: rest ∧
        u = State.switchPin { s.at t with pin := { s.pin with switches := rest } } e.pin e.map ∧ e.group = []) ∧
    (∃ (s : State) (t : Nat) (e : PinSwitch) (rest : _) (u : State) (h : _), s.pin.switches = e :: rest ∧
        u = State.switchPin { s.at t with pin := { s.pin with switches := rest } } e.pin e.map ∧ e.group ≠ [] ∧ e.slot = some h ∧
        u.dupSigs e.group = []) :=
  ⟨⟨ready, cmd 0x0900 (fill 16 [(0, 1, 1), (8, 8, 64)]), (fill 8 [(0, 1, 191), (1, 1, 1), (2, 2, 1023), (4, 1, 1)]), 0, (fill 16 [(0, 1, 1), (8, 8,
        64)]), 1, (fill 8 [(0, 1, 191), (1, 1, 1), (2, 2, 1023), (4, 1, 1)]), [(191, { fn := 1, idx := 1023, flags := 1 })],
        by unfold Admits; decide +kernel⟩,
   ⟨ready, cmd 0x0900 (fill 16 [(0, 1, 1), (8, 8, 64)]), (fill 8 [(0, 1, 192), (1, 1, 1), (2, 2, 1023), (4, 1, 1)]), 0, (fill 16 [(0, 1, 1), (8, 8,
        64)]), 1, (fill 8 [(0, 1, 192), (1, 1, 1), (2, 2, 1023), (4, 1, 1)]), [(192, { fn := 1, idx := 1023, flags := 1 })],
        by unfold Admits; decide +kernel⟩,
   ⟨ready, cmd 0x0901 (fill 8 [(0, 1, 11), (4, 4, 0x80008000)]), 0, (fill 8 [(0, 1, 11), (4, 4, 0x80008000)]), 11, 0x80008000, 0,
        (ready.admitted (cmd 0x0901 (fill 8 [(0, 1, 11), (4, 4, 0x80008000)])) 0 (fill 8 [(0, 1, 11), (4, 4,
        0x80008000)])).setBank 11 (ready.bank 11), by refine ⟨by (unfold Admits; decide +kernel), by decide +kernel, by decide +kernel,
        by decide +kernel, by decide +kernel, by decide +kernel, rfl⟩⟩,
   ⟨ready, 0, 11, by decide +kernel⟩,
   ⟨ready, 0, 11, 0x80008000#32, 0, by decide +kernel⟩,
   ⟨{ ready with pin := { pins := [(191, {  })], banks := [(11, { powered := true })] } }, 0, 191, true,
        ({ ready with pin := { pins := [(191, {  })], banks := [(11, { powered := true })] } }).setPinS 191 { ({ ready with pin := { pins := [(191, {  })], banks := [(11, { powered := true })] } }).pinS 191 with level := true }, by decide +kernel⟩,
   ⟨{ ready with pin := { pins := [(191, { own := some { fn := 3, idx := 31 }, mapped := true })], banks := [(11, { powered := true })] } }, 0, 191,
        true, ({ ready with pin := { pins := [(191, { own := some { fn := 3, idx := 31 }, mapped := true })], banks := [(11, { powered := true })] } }).setPinS 191 { ({ ready with pin := { pins := [(191, { own := some { fn := 3, idx := 31 }, mapped := true })], banks := [(11, { powered := true })] } }).pinS 191 with level := true }, 31, by decide +kernel⟩,
   ⟨{ ready with pin := { switches := [{ slot := none, pin := 191, map := none }] } }, 0, { slot := none, pin := 191, map := none }, [],
        State.switchPin { ready with pin := { switches := [] } } 191 none, by decide +kernel⟩,
   ⟨{ ready with pin := { switches := [{ slot := some 4, pin := 191, map := none, group := [191] }] } }, 0,
        { slot := some 4, pin := 191, map := none, group := [191] }, [], State.switchPin { ready with pin := { switches := [] } } 191 none, 4,
        by decide +kernel⟩⟩

theorem meets_BankEventsComplete :
    (∃ (s : State) (t : Nat) (b : _) (v : Word) (u : State), b < 12 ∧ (s.at t).hostUp = true ∧ bits v.toNat 0 3 ≤ 4 ∧
        u = (s.at t).setBank b { s.bank b with vccio := bits v.toNat 0 3, cfgPull := bits v.toNat 4 2 }) ∧
    (∃ (s : State) (t : Nat) (k : _) (v : Word) (n : Nat), k < 4 ∧ (s.at t).hostUp = true ∧ (∀ i < 8, bits v.toNat (4 * i) 2 ≤ 2 ∧
        diffInOk (bits v.toNat (4 * i) 2) (s.bank k).vccio = true) ∧ n = ((List.range 8).map fun i => bits v.toNat (4 * i) 3 * 2 ^ (4 * i)).sum) ∧
    (∃ (s : State) (b : _) (mv : _) (p : _), b < 12 ∧ (s.bank b).powered = true ∧ (s.bank b).fault = false ∧ (s.bank b).near mv = false ∧
        p ∈ s.bankPins b) ∧
    (∃ (s : State) (b : _) (mv : _) (k : _), b < 12 ∧ (s.bank b).fault = true ∧ (s.bank b).near mv = true ∧ Tbl.wf {} s.pin.banks = true ∧ k ≠ b) :=
  ⟨⟨ready, 0, 11, 0x24#32, ready.setBank 11 { ready.bank 11 with vccio := 4, cfgPull := 2 }, by decide +kernel⟩,
   ⟨ready, 0, 3, 0x11111111#32, 0x11111111, by decide +kernel⟩,
   ⟨{ ready with pin := { banks := [(11, { powered := true, vccio := 4 })] } }, 11, 2969, 176, by decide +kernel⟩,
   ⟨{ ready with pin := { banks := [(11, { powered := true, fault := true, vccio := 4 })] } }, 11, 2970, 0, by decide +kernel⟩⟩

theorem meets_PortsComplete :
    (∃ (s : State) (t : Nat) (k : _), k < 6 ∧ s.clocksGated k = false ∧ (s.at t).portOwned k = false) ∧
    (∃ (s : State) (t : Nat) (k : _), k < 6 ∧ s.clocksGated k = false ∧ (s.at t).portOwned k = false ∧ (s.port k).tx.length < 32) ∧
    (∃ (s : State) (t : Nat) (k : _), k < 6 ∧ s.clocksGated k = false ∧ (s.at t).portOwned k = false ∧ 32 ≤ (s.port k).tx.length) ∧
    (∃ (s : State) (t : Nat) (k : _) (e : _) (l : _), k < 6 ∧ s.clocksGated k = false ∧ (s.at t).portOwned k = false ∧ (s.port k).rx = e :: l) ∧
    (∃ (s : State) (t : Nat) (k : _), k < 6 ∧ s.clocksGated k = false ∧ (s.at t).portOwned k = false ∧ (s.port k).rx = []) ∧
    (∃ (s : State) (t : Nat) (k : _) (w : _) (p : Port), k < 6 ∧ s.clocksGated k = false ∧ (s.at t).portOwned k = false ∧
        (s.port k).control k (w % 65536) = some p) ∧
    (∃ (s : State) (t : Nat) (k : _) (w : _), k < 6 ∧ s.clocksGated k = false ∧ (s.at t).portOwned k = false ∧
        (s.port k).control k (w % 65536) = none) ∧
    (∃ (s : State) (t : Nat) (k : _) (byte : _) (b : Nat), k < 6 ∧ (s.port k).enabled = true ∧ (s.at t).portOwned k = false ∧
        b = (if (portKind k = 2 ∧ bit (s.port k).mode 3 = true) then byte % 128 else byte % 256) ∧ (s.port k).rx.length < 32) ∧
    (∃ (s : State) (t : Nat) (k : _) (byte : _) (b : Nat), k < 6 ∧ (s.port k).enabled = true ∧ (s.at t).portOwned k = false ∧
        b = (if (portKind k = 2 ∧ bit (s.port k).mode 3 = true) then byte % 128 else byte % 256) ∧ 32 ≤ (s.port k).rx.length) ∧
    (∃ (s : State) (t : Nat) (k : _) (w : _) (rest : _), k < 6 ∧ portKind k ≠ 1 ∧ (s.port k).enabled = true ∧ (s.at t).portOwned k = false ∧
        (s.port k).tx = w :: rest ∧ (portKind k = 0 ∨ bit w 8 = false)) ∧
    (∃ (s : State) (t : Nat) (k : _) (w : _) (rest : _), k < 6 ∧ portKind k = 1 ∧ (s.port k).enabled = true ∧ (s.at t).portOwned k = false ∧
        (s.port k).tx = w :: rest) ∧
    (∃ (s : State) (k : _), k < 6 ∧ portKind k = 1 ∧ (s.port k).enabled = true ∧ bit (s.port k).mode 2 = true) :=
  ⟨⟨ready, 0, 5, by decide +kernel⟩,
   ⟨{ ready with pin := { ports := [(5, { tx := List.replicate 31 0 })] } }, 0, 5, by decide +kernel⟩,
   ⟨{ ready with pin := { ports := [(5, { tx := List.replicate 32 0 })] } }, 0, 5, by decide +kernel⟩,
   ⟨{ ready with pin := { ports := [(5, { rx := [(7, false)] })] } }, 0, 5, (7, false), [], by decide +kernel⟩,
   ⟨ready, 0, 5, by decide +kernel⟩,
   ⟨ready, 0, 5, 0x7E, { mode := 0x7E }, by decide +kernel⟩,
   ⟨ready, 0, 5, 0xF000, by decide +kernel⟩,
   ⟨{ ready with pin := { ports := [(5, { mode := 16, rx := List.replicate 31 (0, false) })] } }, 0, 5, 255, 255, by decide +kernel⟩,
   ⟨{ ready with pin := { ports := [(5, { mode := 24, rx := List.replicate 32 (0, false) })] } }, 0, 5, 255, 127, by decide +kernel⟩,
   ⟨{ ready with pin := { ports := [(5, { mode := 16, tx := [255] })] } }, 0, 5, 255, [], by decide +kernel⟩,
   ⟨{ ready with pin := { ports := [(3, { mode := 16, tx := [511] })] } }, 0, 3, 511, [], by decide +kernel⟩,
   ⟨{ ready with pin := { ports := [(3, { mode := 20 })] } }, 3, by decide +kernel⟩⟩

theorem meets_UserLanesComplete :
    (∃ (s : State) (t : Nat) (l : _) (v : Word) (same : _), l < 8 ∧ (s.at t).hostUp = true ∧ 8 ≤ bits v.toNat 1 8 ∧ bits v.toNat 1 8 ≤ 128 ∧
        same = (bit v.toNat 0 && (s.lane l).enable && decide (bits v.toNat 1 8 = (s.lane l).rate))) ∧
    (∃ (s : State) (l : _), l < 8 ∧ (s.lane l).enable = true) ∧
    (∃ (l : _), l < 8) ∧
    (∃ (s : State) (t : Nat) (l : _) (r : Bool), l < 8 ∧ (s.at t).laneClock l (s.lane l).txTree = true ∧ r = true ∧ (s.lane l).enable = true) ∧
    (∃ (s : State) (t : Nat) (l : _) (r : Bool), l < 8 ∧ (s.at t).laneClock l (s.lane l).txTree = true ∧ (r = false ∨ (s.lane l).enable = false)) ∧
    (∃ (s : State) (t : Nat) (l : _), l < 8 ∧ (s.lane l).enable = true ∧ (s.lane l).lock = true ∧ (s.at t).laneClock l (s.lane l).rxTree = true) ∧
    (∃ (s : State) (t : Nat) (l : _), l < 8 ∧ (s.lane l).enable = true ∧ (s.lane l).lock = true ∧ (s.at t).laneClock l (s.lane l).rxTree = false ∧
        (s.lane l).rxBuf.length < 8) ∧
    (∃ (s : State) (t : Nat) (l : _), l < 8 ∧ (s.lane l).enable = true ∧ (s.lane l).lock = true ∧ (s.at t).laneClock l (s.lane l).rxTree = false ∧
        8 ≤ (s.lane l).rxBuf.length) ∧
    (∃ (s : State) (l : _), l < 8 ∧ (s.lane l).enable = true ∧ (s.lane l).lock = true) :=
  ⟨⟨ready, 0, 7, 0x101#32, false, by decide +kernel⟩,
   ⟨{ ready with clk := { ready.clk with lanes := [(7, { enable := true })] } }, 7, by decide +kernel⟩,
   ⟨7, by decide +kernel⟩,
   ⟨{ ready with clk := { ready.clk with lanes := [(7, { enable := true })] } }, 0, 7, true, by decide +kernel⟩,
   ⟨ready, 0, 7, true, by decide +kernel⟩,
   ⟨{ ready with clk := { ready.clk with lanes := [(7, { enable := true, lock := true })] } }, 0, 7, by decide +kernel⟩,
   ⟨{ ready with clk := { ready.clk with lanes := [(7, { enable := true, lock := true, rxTree := 1, rxBuf := List.replicate 7 0 })], gck := [(1, { mode := 1 })] } }, 0, 7, by decide +kernel⟩,
   ⟨{ ready with clk := { ready.clk with lanes := [(7, { enable := true, lock := true, rxTree := 1, rxBuf := List.replicate 8 0 })], gck := [(1, { mode := 1 })] } }, 0, 7, by decide +kernel⟩,
   ⟨{ ready with clk := { ready.clk with lanes := [(7, { enable := true, lock := true })] } }, 7, by decide +kernel⟩⟩

theorem meets_LoadsBegin :
    (∃ (s : State) (d : Desc) (h : _) (slot : Nat) (a : Bytes) (so : _) (n : _) (b : _) (u : State) (l : Load), Admits s 0x0600 d slot a ∧
        loadBad false a = none ∧ s.load 8 = none ∧ so = byteAt a 0 ∧ n = byteAt a 1 ∧ loadRange so n (fld a 4 4) = true ∧
        (s.admitted d slot a).imageOk a = true ∧ b = (s.admitted d slot a).headerOf so n (fld a 8 8) (fld a 4 4) h ∧ 3520 ≤ b.length ∧
        l = { mode := 2, source := so, imgSlot := n, slot := some slot, len := imageLen a, head := slice b 0 3520, hdr := readHdr b, stage := 1, start := (s.at d.t).now } ∧ u = (((s.admitted d slot a).setWork slot (.load 8)).readSlot so n).setLoad 8 (some l) ∧ headerOk b 0xFF (imageMax so n) = true ∧ identityOk b = true) ∧
    (∃ (s : State) (d : Desc) (h : _) (slot : Nat) (a : Bytes) (so : _) (n : _) (b : _) (u : State) (l : Load), Admits s 0x0600 d slot a ∧
        loadBad false a = none ∧ s.load 8 = none ∧ so = byteAt a 0 ∧ n = byteAt a 1 ∧ loadRange so n (fld a 4 4) = true ∧
        (s.admitted d slot a).imageOk a = true ∧ b = (s.admitted d slot a).headerOf so n (fld a 8 8) (fld a 4 4) h ∧ 3520 ≤ b.length ∧
        l = { mode := 2, source := so, imgSlot := n, slot := some slot, len := imageLen a, head := slice b 0 3520, hdr := readHdr b, stage := 1, start := (s.at d.t).now } ∧ u = (((s.admitted d slot a).setWork slot (.load 8)).readSlot so n).setLoad 8 (some l) ∧ headerOk b 0xFF (imageMax so n) = false) ∧
    (∃ (s : State) (d : Desc) (h : _) (slot : Nat) (a : Bytes) (so : _) (r : _) (n : _) (b : _) (v : State) (l : Load), Admits s 0x0601 d slot a ∧
        loadBad true a = none ∧ so = byteAt a 0 ∧ r = byteAt a 1 ∧ n = byteAt a 2 ∧ r < 8 ∧ (s.region r).loading = false ∧
        (s.region r).failed = false ∧ (s.region r).ready = true ∧ loadRange so n (fld a 4 4) = true ∧ (s.admitted d slot a).imageOk a = true ∧
        v = (s.admitted d slot a).setRegion r { s.region r with loading := true } ∧ b = v.headerOf so n (fld a 8 8) (fld a 4 4) h ∧ 3520 ≤ b.length ∧
        l = { mode := 5, source := so, imgSlot := n, slot := some slot, len := imageLen a, head := slice b 0 3520, hdr := readHdr b, stage := 1, start := (s.at d.t).now } ∧ headerOk b r (imageMax so n) = true ∧ identityOk b = true) ∧
    (∃ (s : State) (t : Nat) (h : _) (k : _) (so : _) (n : _) (b : _) (l : Load), s.time.step = 5 ∧ s.time.selftestFail = false ∧
        s.boot.trying = true ∧ s.boot.hostWaiting = false ∧ s.load 8 = none ∧ s.husk.halted = false ∧ s.chip.restarting = false ∧
        s.chip.failed = false ∧ k = s.boot.tryNext ∧ k < 6 ∧ (k < 5 → bit s.boot.slotSkip k = false) ∧ (so, n) = slotOrder.getD k (2, 1) ∧
        b = (s.at t).headerOf so n 0 0 h ∧ fld b 0 4 = 0x4150484C ∧ 3520 ≤ b.length ∧ headerOk b 0xFF (imageMax so n) = true ∧ identityOk b = true ∧
        l = { mode := 0, source := so, imgSlot := n, head := slice b 0 3520, hdr := readHdr b, stage := 1, start := (s.at t).now }) ∧
    (∃ (s : State) (t : Nat) (h : _) (k : _) (so : _) (n : _) (b : _), s.time.step = 5 ∧ s.time.selftestFail = false ∧ s.boot.trying = true ∧
        s.boot.hostWaiting = false ∧ s.load 8 = none ∧ s.husk.halted = false ∧ s.chip.restarting = false ∧ s.chip.failed = false ∧
        k = s.boot.tryNext ∧ k < 6 ∧ (k < 5 → bit s.boot.slotSkip k = false) ∧ (so, n) = slotOrder.getD k (2, 1) ∧ b = (s.at t).headerOf so n 0 0 h ∧
        fld b 0 4 ≠ 0x4150484C ∧ k < 5) :=
  ⟨⟨ready, cmd 0x0600 (fill 16 [(0, 1, 1), (1, 1, 3)]), head 0 0xFF 0xF0, 0, (fill 16 [(0, 1, 1), (1, 1, 3)]), _, _, _, _, _,
        by unfold Admits; decide +kernel, by decide +kernel, by decide +kernel, rfl, rfl, by decide +kernel, by decide +kernel, rfl,
        by decide +kernel, rfl, rfl, by decide +kernel, by decide +kernel⟩,
   ⟨ready, cmd 0x0600 (fill 16 [(0, 1, 1), (1, 1, 3)]), head 0 7 0xFF ++ [0], 0, (fill 16 [(0, 1, 1), (1, 1, 3)]), _, _, _, _, _,
        by unfold Admits; decide +kernel, by decide +kernel, by decide +kernel, rfl, rfl, by decide +kernel, by decide +kernel, rfl,
        by decide +kernel, rfl, rfl, by decide +kernel⟩,
   ⟨{ ready with til := { regions := [(7, { ready := true })] } }, cmd 0x0601 (fill 16 [(0, 1, 1), (1, 1, 7), (2, 1, 3)]), head 4 7 0xF0, 0,
        (fill 16 [(0, 1, 1), (1, 1, 7), (2, 1, 3)]), _, _, _, _, _, _, by unfold Admits; decide +kernel, by decide +kernel, rfl, rfl, rfl,
        by decide +kernel, by decide +kernel, by decide +kernel, by decide +kernel, by decide +kernel, by decide +kernel, rfl, rfl,
        by decide +kernel, rfl, by decide +kernel, by decide +kernel⟩,
   ⟨{ ready with time := { ready.time with step := 5, done := false }, boot := { ready.boot with trying := true, tryNext := 3, slotSkip := 7 } }, 0,
        head 0 0xFF 0xF0, _, _, _, _, _, by decide +kernel, by decide +kernel, by decide +kernel, by decide +kernel, by decide +kernel,
        by decide +kernel, by decide +kernel, by decide +kernel, rfl, by decide +kernel, by decide +kernel, rfl, rfl, by decide +kernel,
        by decide +kernel, by decide +kernel, by decide +kernel, rfl⟩,
   ⟨{ ready with time := { ready.time with step := 5, done := false }, boot := { ready.boot with trying := true, tryNext := 4, slotSkip := 7 } }, 0,
        [], _, _, _, _, by decide +kernel, by decide +kernel, by decide +kernel, by decide +kernel, by decide +kernel, by decide +kernel,
        by decide +kernel, by decide +kernel, rfl, by decide +kernel, by decide +kernel, rfl, rfl, by decide +kernel, by decide +kernel⟩⟩

/-- An encrypted load with one epoch of no bytes behind its first, and the tag of that epoch under its key, of zeros. -/
def epoch1 : Load := { load0 3 with head := [], hdr := { flags := 2, stored := 8224 }, epoch := 1, key := zeros 32 }
def epochTag : Bytes := gcmTag (zeros 32) (epoch1.iv 1) (epoch1.aad 1) []

theorem gcmOpen_tag {key iv aad b : Bytes} (h : b.length = 16) : gcmOpen key iv aad b = if gcmTag key iv aad [] = b then some (gcmCrypt key iv []) else none := by
  simp [gcmOpen, h]

theorem meets_LoadChecksComplete :
    (∃ (s : State) (w : Nat) (l : Load), s.load w = some l ∧ l.stage = 1 ∧ sigBlockOk l.head 128 = true ∧ s.verifyKey l = true ∧ 8 ≤ w) ∧
    (∃ (s : State) (w : Nat) (ed : Bool) (ml : Bool) (l : Load), s.load w = some l ∧ l.stage = 1 ∧ sigBlockOk l.head 128 = true ∧
        s.verifyKey l = true ∧ (ed = false ∨ ml = false)) ∧
    (∃ (s : State) (w : Nat) (l : Load), s.load w = some l ∧ l.stage = 1 ∧ sigBlockOk l.head 128 = true ∧ s.verifyKey l = true ∧ w < 8) ∧
    (∃ (s : State) (w : Nat) (l : Load), s.load w = some l ∧ l.stage = 1 ∧ (sigBlockOk l.head 128 = false ∨ s.verifyKey l = false)) ∧
    (∃ (s : State) (w : Nat) (l : Load) (stored : Bytes) (key : Bytes) (p : Bytes), s.load w = some l ∧ l.stage = 3 ∧ l.encrypted = true ∧
        l.epoch < l.epochs ∧ ((l.epoch = 0 ∧ ∃ k, s.bodyKey l = some k ∧ key = l.nextKey k 0) ∨ (l.epoch ≠ 0 ∧ key = l.key)) ∧
        l.epochGiven = true ∧ gcmOpen key (l.iv l.epoch) (l.aad l.epoch) stored = some p) ∧
    (∃ (s : State) (w : Nat) (l : Load) (stored : Bytes) (key : Bytes), s.load w = some l ∧ l.stage = 3 ∧ l.encrypted = true ∧ l.epoch < l.epochs ∧
        ((l.epoch = 0 ∧ ∃ k, s.bodyKey l = some k ∧ key = l.nextKey k 0) ∨ (l.epoch ≠ 0 ∧ key = l.key)) ∧
        l.epochGiven = true ∧ gcmOpen key (l.iv l.epoch) (l.aad l.epoch) stored = none) ∧
    (∃ (s : State) (w : Nat) (l : Load) (key : Bytes), s.load w = some l ∧ l.stage = 3 ∧ l.encrypted = true ∧ l.epoch < l.epochs ∧
        ((l.epoch = 0 ∧ ∃ k, s.bodyKey l = some k ∧ key = l.nextKey k 0) ∨ (l.epoch ≠ 0 ∧ key = l.key)) ∧ l.epochGiven = false) ∧
    (∃ (s : State) (w : Nat) (l : Load), s.load w = some l ∧ 1 ≤ l.stage ∧ l.stage ≤ 3) ∧
    (∃ (s : State) (t : Nat) (w : Nat) (l : Load), s.load w = some l ∧ 1 ≤ l.stage ∧ l.stage ≤ 3 ∧ l.start + 1250000000 ≤ (s.at t).now) ∧
    (∃ (s : State) (t : Nat) (w : Nat) (l : Load), s.load w = some l ∧ 1 ≤ l.stage ∧ l.stage ≤ 3 ∧ (s.at t).now < l.start + 1250000000) :=
  ⟨⟨loading 8 (load0 1), 8, load0 1, by
     refine ⟨rfl, ?_, ?_, ?_, ?_⟩ <;> first | decide +kernel | (unfold Admits; decide +kernel)⟩,
   ⟨loading 8 (load0 1), 8, true, false, load0 1, by
     refine ⟨rfl, ?_, ?_, ?_, ?_⟩ <;> first | decide +kernel | (unfold Admits; decide +kernel)⟩,
   ⟨loading 7 (load0 1), 7, load0 1, by
     refine ⟨rfl, ?_, ?_, ?_, ?_⟩ <;> first | decide +kernel | (unfold Admits; decide +kernel)⟩,
   ⟨loading 7 { load0 1 with head := [] }, 7, { load0 1 with head := [] }, by
     refine ⟨rfl, ?_, ?_⟩ <;> first | decide +kernel | (unfold Admits; decide +kernel)⟩,
   ⟨loading 8 epoch1, 8, epoch1, epochTag, zeros 32, [], by
     refine ⟨rfl, ?_, ?_, ?_, Or.inr ⟨?_, rfl⟩, ?_, (gcmOpen_tag ?_).trans ((if_pos rfl).trans rfl)⟩ <;> decide +kernel⟩,
   ⟨loading 8 epoch1, 8, epoch1, [], zeros 32, by
     refine ⟨rfl, ?_, ?_, ?_, Or.inr ⟨?_, rfl⟩, ?_, ?_⟩ <;> decide +kernel⟩,
   ⟨loading 8 { epoch1 with len := 11743 }, 8, { epoch1 with len := 11743 }, zeros 32, by
     refine ⟨rfl, ?_, ?_, ?_, Or.inr ⟨?_, rfl⟩, ?_⟩ <;> decide +kernel⟩,
   ⟨loading 8 (load0 3), 8, load0 3, by
     refine ⟨rfl, ?_, ?_⟩ <;> first | decide +kernel | (unfold Admits; decide +kernel)⟩,
   ⟨{ loading 8 (load0 3) with time := { ready.time with timebase := 1250000000 } }, 0, 8, load0 3, by
     refine ⟨rfl, ?_, ?_, ?_⟩ <;> first | decide +kernel | (unfold Admits; decide +kernel)⟩,
   ⟨{ loading 8 (load0 3) with time := { ready.time with timebase := 1249999999 } }, 0, 8, load0 3, by
     refine ⟨rfl, ?_, ?_, ?_⟩ <;> first | decide +kernel | (unfold Admits; decide +kernel)⟩⟩

/-- A load at its END record, and that record with digest `d`. -/
def endHead : Bytes := fill 12 [(0, 1, 15), (4, 4, 1), (8, 4, 2)]
def ending (sect : Nat) : Load := { load0 3 with used := (load0 3).total - 60, written := 1, records := 2, sect := some sect, secWant := 12288, secGot := 12288 }

/-- The same, its header holding the digest that END confirms. -/
def endDigest : Bytes := ((ending 7).took endHead 12).sha.digest
def digested (sect : Nat) : Load := { ending sect with hdr := { (ending sect).hdr with frames := 1, digest := endDigest } }

/-- A REPEAT record of frames 98303 and 86016 from 98302, and a load in which that frame had the CRC `k`. -/
def repeatRec : Bytes := fill 16 [(0, 1, 2), (2, 2, 2), (4, 4, 98302), (8, 4, 98303), (12, 4, 86016)]
def repeating (mode k : Nat) : Load := { load0 3 with mode := mode, sect := some 7, hdr := { (load0 3).hdr with flags := 1 }, crcs := [(98302, some k)] }

theorem meets_RecordsComplete :
    (∃ (s : State) (w : Nat) (rec : Bytes) (l : Load) (x : Bytes) (r : Bytes) (a : Nat) (b : Bytes), s.load w = some l ∧ l.stage = 3 ∧
        x = (if l.encrypted = true then l.plain else rec) ∧ l.used + 268 ≤ l.avail ∧ byteAt x 0 = 1 ∧ r = slice x 0 268 ∧
        firstBad r (rsv 1 3) = none ∧ a = fld r 4 4 ∧ b = slice r 8 256 ∧ l.addrOk a = true ∧ crc32c b = fld r 264 4) ∧
    (∃ (s : State) (w : Nat) (rec : Bytes) (l : Load) (x : Bytes) (r : Bytes) (a : Nat) (b : Bytes), s.load w = some l ∧ l.stage = 3 ∧
        x = (if l.encrypted = true then l.plain else rec) ∧ l.used + 268 ≤ l.avail ∧ byteAt x 0 = 1 ∧ r = slice x 0 268 ∧
        firstBad r (rsv 1 3) = none ∧ a = fld r 4 4 ∧ b = slice r 8 256 ∧ l.addrOk a = true ∧ crc32c b ≠ fld r 264 4) ∧
    (∃ (s : State) (w : Nat) (rec : Bytes) (l : Load) (x : Bytes) (r : Bytes) (n : Nat) (c : Nat) (src : Nat) (dst : List Nat) (k : Nat),
        s.load w = some l ∧ l.stage = 3 ∧ x = (if l.encrypted = true then l.plain else rec) ∧ byteAt x 0 = 2 ∧ n = 8 + 4 * fld x 2 2 ∧
        l.used + n ≤ l.avail ∧ r = slice x 0 n ∧ c = fld r 2 2 ∧ byteAt r 1 = 0 ∧ src = fld r 4 4 ∧
        dst = (List.range c).map (fun i => fld r (8 + 4 * i) 4) ∧ 1 ≤ c ∧ c ≤ 1024 ∧ l.compressed = true ∧ (∀ y ∈ dst, l.addrOk y = true) ∧
        nodupB dst = true ∧ Tbl.get none src l.crcs = some k ∧ l.writes = true ∧ crc32c (s.readFrame src) = k) ∧
    (∃ (s : State) (w : Nat) (rec : Bytes) (l : Load) (x : Bytes) (r : Bytes) (n : Nat) (c : Nat) (src : Nat) (dst : List Nat) (k : Nat),
        s.load w = some l ∧ l.stage = 3 ∧ x = (if l.encrypted = true then l.plain else rec) ∧ byteAt x 0 = 2 ∧ n = 8 + 4 * fld x 2 2 ∧
        l.used + n ≤ l.avail ∧ r = slice x 0 n ∧ c = fld r 2 2 ∧ byteAt r 1 = 0 ∧ src = fld r 4 4 ∧
        dst = (List.range c).map (fun i => fld r (8 + 4 * i) 4) ∧ 1 ≤ c ∧ c ≤ 1024 ∧ l.compressed = true ∧ (∀ y ∈ dst, l.addrOk y = true) ∧
        nodupB dst = true ∧ Tbl.get none src l.crcs = some k ∧ l.writes = true ∧ crc32c (s.readFrame src) ≠ k) ∧
    (∃ (s : State) (w : Nat) (rec : Bytes) (l : Load) (x : Bytes) (r : Bytes) (n : Nat) (c : Nat) (src : Nat) (dst : List Nat) (k : Nat),
        s.load w = some l ∧ l.stage = 3 ∧ x = (if l.encrypted = true then l.plain else rec) ∧ byteAt x 0 = 2 ∧ n = 8 + 4 * fld x 2 2 ∧
        l.used + n ≤ l.avail ∧ r = slice x 0 n ∧ c = fld r 2 2 ∧ byteAt r 1 = 0 ∧ src = fld r 4 4 ∧
        dst = (List.range c).map (fun i => fld r (8 + 4 * i) 4) ∧ 1 ≤ c ∧ c ≤ 1024 ∧ l.compressed = true ∧ (∀ y ∈ dst, l.addrOk y = true) ∧
        nodupB dst = true ∧ Tbl.get none src l.crcs = some k ∧ l.writes = false) ∧
    (∃ (s : State) (w : Nat) (rec : Bytes) (l : Load) (x : Bytes) (r : Bytes) (n : Nat), s.load w = some l ∧ l.stage = 3 ∧
        x = (if l.encrypted = true then l.plain else rec) ∧ l.used + 8 ≤ l.avail ∧ byteAt x 0 = 3 ∧ r = slice x 0 8 ∧ firstBad r (rsv 2 2) = none ∧
        n = byteAt r 1 ∧ l.nextSection w = some n ∧ l.writes = false) ∧
    (∃ (s : State) (w : Nat) (rec : Bytes) (l : Load) (x : Bytes) (r : Bytes) (n : Nat), s.load w = some l ∧ l.stage = 3 ∧
        x = (if l.encrypted = true then l.plain else rec) ∧ l.used + 8 ≤ l.avail ∧ byteAt x 0 = 3 ∧ r = slice x 0 8 ∧ firstBad r (rsv 2 2) = none ∧
        n = byteAt r 1 ∧ l.nextSection w = some n ∧ w < 8 ∧ l.writes = true) ∧
    (∃ (s : State) (w : Nat) (rec : Bytes) (l : Load) (x : Bytes) (r : Bytes) (n : Nat), s.load w = some l ∧ l.stage = 3 ∧
        x = (if l.encrypted = true then l.plain else rec) ∧ l.used + 8 ≤ l.avail ∧ byteAt x 0 = 3 ∧ r = slice x 0 8 ∧ firstBad r (rsv 2 2) = none ∧
        n = byteAt r 1 ∧ l.nextSection w = some n ∧ 8 ≤ w ∧ l.writes = true ∧ l.begun = true) ∧
    (∃ (s : State) (t : Nat) (w : Nat) (rec : Bytes) (l : Load) (x : Bytes) (r : Bytes) (n : Nat), s.load w = some l ∧ l.stage = 3 ∧
        x = (if l.encrypted = true then l.plain else rec) ∧ l.used + 8 ≤ l.avail ∧ byteAt x 0 = 3 ∧ r = slice x 0 8 ∧ firstBad r (rsv 2 2) = none ∧
        n = byteAt r 1 ∧ l.nextSection w = some n ∧ 8 ≤ w ∧ l.writes = true ∧ l.begun = false ∧
        ((s.at t).retestGroups (fun _ => true)).boot.loaded.valid = true) ∧
    (∃ (s : State) (t : Nat) (w : Nat) (rec : Bytes) (l : Load) (x : Bytes) (r : Bytes) (n : Nat), s.load w = some l ∧ l.stage = 3 ∧
        x = (if l.encrypted = true then l.plain else rec) ∧ l.used + 8 ≤ l.avail ∧ byteAt x 0 = 3 ∧ r = slice x 0 8 ∧ firstBad r (rsv 2 2) = none ∧
        n = byteAt r 1 ∧ l.nextSection w = some n ∧ 8 ≤ w ∧ l.writes = true ∧ l.begun = false ∧
        ((s.at t).retestGroups (fun _ => true)).boot.loaded.valid = false) ∧
    (∃ (s : State) (w : Nat) (rec : Bytes) (l : Load) (x : Bytes) (r : Bytes) (d : Bytes), s.load w = some l ∧ l.stage = 3 ∧
        x = (if l.encrypted = true then l.plain else rec) ∧ l.used + 60 = l.total ∧ l.used + 60 ≤ l.avail ∧ byteAt x 0 = 15 ∧ r = slice x 0 60 ∧
        firstBad r (rsv 1 3) = none ∧ l.sect = some (if (w < 8) then w else 7) ∧ fld r 4 4 = l.written ∧ l.hdr.frames = l.written ∧
        fld r 8 4 = l.records ∧ l.sectionBad = false ∧ d = slice r 12 48 ∧ (l.took r 12).sha.digest = d ∧ d = l.hdr.digest ∧ w < 8) ∧
    (∃ (s : State) (w : Nat) (rec : Bytes) (l : Load) (x : Bytes) (r : Bytes) (d : Bytes), s.load w = some l ∧ l.stage = 3 ∧
        x = (if l.encrypted = true then l.plain else rec) ∧ l.used + 60 = l.total ∧ l.used + 60 ≤ l.avail ∧ byteAt x 0 = 15 ∧ r = slice x 0 60 ∧
        firstBad r (rsv 1 3) = none ∧ l.sect = some (if (w < 8) then w else 7) ∧ fld r 4 4 = l.written ∧ l.hdr.frames = l.written ∧
        fld r 8 4 = l.records ∧ l.sectionBad = false ∧ d = slice r 12 48 ∧ (l.took r 12).sha.digest = d ∧ d = l.hdr.digest ∧ 8 ≤ w ∧ l.writes = false) ∧
    (∃ (s : State) (w : Nat) (rec : Bytes) (l : Load) (x : Bytes) (r : Bytes) (d : Bytes), s.load w = some l ∧ l.stage = 3 ∧
        x = (if l.encrypted = true then l.plain else rec) ∧ l.used + 60 = l.total ∧ l.used + 60 ≤ l.avail ∧ byteAt x 0 = 15 ∧ r = slice x 0 60 ∧
        firstBad r (rsv 1 3) = none ∧ l.sect = some (if (w < 8) then w else 7) ∧ fld r 4 4 = l.written ∧ l.hdr.frames = l.written ∧
        fld r 8 4 = l.records ∧ l.sectionBad = false ∧ d = slice r 12 48 ∧ (l.took r 12).sha.digest = d ∧ d = l.hdr.digest ∧ 8 ≤ w ∧ l.writes = true) ∧
    (∃ (s : State) (w : Nat) (rec : Bytes) (l : Load) (x : Bytes) (r : Bytes) (d : Bytes), s.load w = some l ∧ l.stage = 3 ∧
        x = (if l.encrypted = true then l.plain else rec) ∧ l.used + 60 = l.total ∧ l.used + 60 ≤ l.avail ∧ byteAt x 0 = 15 ∧ r = slice x 0 60 ∧
        firstBad r (rsv 1 3) = none ∧ l.sect = some (if (w < 8) then w else 7) ∧ fld r 4 4 = l.written ∧ l.hdr.frames = l.written ∧
        fld r 8 4 = l.records ∧ l.sectionBad = false ∧ d = slice r 12 48 ∧ ((l.took r 12).sha.digest ≠ d ∨ d ≠ l.hdr.digest)) :=
  ⟨⟨loading 8 { load0 3 with sect := some 7 }, 8, frameRec 0xB872B190, { load0 3 with sect := some 7 }, frameRec 0xB872B190, slice (frameRec 0xB872B190) 0 268, 98303, List.replicate 256 0, by
     refine ⟨rfl, ?_, ?_, ?_, ?_, ?_, ?_, ?_, ?_, ?_, crc_zeros.trans ?_⟩ <;> decide +kernel⟩,
   ⟨loading 8 { load0 3 with sect := some 7 }, 8, frameRec 0, { load0 3 with sect := some 7 }, frameRec 0, slice (frameRec 0) 0 268, 98303, List.replicate 256 0, by
     refine ⟨rfl, ?_, ?_, ?_, ?_, ?_, ?_, ?_, ?_, ?_, fun e => absurd (crc_zeros.symm.trans e) ?_⟩ <;> decide +kernel⟩,
   ⟨loading 8 (repeating 0 0xB872B190), 8, repeatRec, repeating 0 0xB872B190, repeatRec, repeatRec, 16, 2, 98302, [98303, 86016], 0xB872B190, by
     refine ⟨rfl, ?_, ?_, ?_, ?_, ?_, ?_, ?_, ?_, ?_, ?_, ?_, by decide +kernel, ?_, ?_, ?_, ?_, ?_, (congrArg crc32c (show _ = List.replicate 256 0 by decide +kernel)).trans crc_zeros⟩ <;> decide +kernel⟩,
   ⟨loading 8 (repeating 0 0), 8, repeatRec, repeating 0 0, repeatRec, repeatRec, 16, 2, 98302, [98303, 86016], 0, by
     refine ⟨rfl, ?_, ?_, ?_, ?_, ?_, ?_, ?_, ?_, ?_, ?_, ?_, by decide +kernel, ?_, ?_, ?_, ?_, ?_, fun e => absurd (((congrArg crc32c (show _ = List.replicate 256 0 by decide +kernel)).trans crc_zeros).symm.trans e) ?_⟩ <;> decide +kernel⟩,
   ⟨loading 8 (repeating 4 0), 8, repeatRec, repeating 4 0, repeatRec, repeatRec, 16, 2, 98302, [98303, 86016], 0, by
     refine ⟨rfl, ?_, ?_, ?_, ?_, ?_, ?_, ?_, ?_, ?_, ?_, ?_, by decide +kernel, ?_, ?_, ?_, ?_, ?_⟩ <;> first | decide +kernel | (unfold Admits; decide +kernel)⟩,
   ⟨loading 7 ({ load0 3 with mode := 4 }), 7, fill 8 [(0, 1, 3), (1, 1, 7), (4, 4, 12288)], { load0 3 with mode := 4 }, fill 8 [(0, 1, 3), (1, 1, 7), (4, 4, 12288)], fill 8 [(0, 1, 3), (1, 1, 7), (4, 4, 12288)], 7, by
     refine ⟨rfl, ?_, ?_, ?_, ?_, ?_, ?_, ?_, ?_, ?_⟩ <;> first | decide +kernel | (unfold Admits; decide +kernel)⟩,
   ⟨loading 7 (load0 3), 7, fill 8 [(0, 1, 3), (1, 1, 7), (4, 4, 12288)], load0 3, fill 8 [(0, 1, 3), (1, 1, 7), (4, 4, 12288)], fill 8 [(0, 1, 3), (1, 1, 7), (4, 4, 12288)], 7, by
     refine ⟨rfl, ?_, ?_, ?_, ?_, ?_, ?_, ?_, ?_, ?_, ?_⟩ <;> first | decide +kernel | (unfold Admits; decide +kernel)⟩,
   ⟨loading 8 ({ load0 3 with sect := some 6, begun := true }), 8, fill 8 [(0, 1, 3), (1, 1, 7), (4, 4, 12288)], { load0 3 with sect := some 6, begun := true }, fill 8 [(0, 1, 3), (1, 1, 7), (4, 4, 12288)], fill 8 [(0, 1, 3), (1, 1, 7), (4, 4, 12288)], 7, by
     refine ⟨rfl, ?_, ?_, ?_, ?_, ?_, ?_, ?_, ?_, ?_, ?_, ?_⟩ <;> first | decide +kernel | (unfold Admits; decide +kernel)⟩,
   ⟨{ loading 8 (load0 3) with boot := { (loading 8 (load0 3)).boot with loaded := { valid := true } } }, 0, 8, fill 8 [(0, 1, 3), (1, 1, 0), (4, 4, 12288)], load0 3, fill 8 [(0, 1, 3), (1, 1, 0), (4, 4, 12288)], fill 8 [(0, 1, 3), (1, 1, 0), (4, 4, 12288)], 0, by
     refine ⟨rfl, ?_, ?_, ?_, ?_, ?_, ?_, ?_, ?_, ?_, ?_, ?_, by decide +kernel⟩ <;> first | decide +kernel | (unfold Admits; decide +kernel)⟩,
   ⟨loading 8 (load0 3), 0, 8, fill 8 [(0, 1, 3), (1, 1, 0), (4, 4, 12288)], load0 3, fill 8 [(0, 1, 3), (1, 1, 0), (4, 4, 12288)], fill 8 [(0, 1, 3), (1, 1, 0), (4, 4, 12288)], 0, by
     refine ⟨rfl, ?_, ?_, ?_, ?_, ?_, ?_, ?_, ?_, ?_, ?_, ?_, by decide +kernel⟩ <;> first | decide +kernel | (unfold Admits; decide +kernel)⟩,
   ⟨loading 6 (digested 6), 6, endHead ++ endDigest, digested 6, endHead ++ endDigest, endHead ++ endDigest, endDigest, by
     refine ⟨rfl, ?_, ?_, ?_, ?_, ?_, ?_, ?_, ?_, ?_, ?_, ?_, by decide +kernel, ?_, ?_, ?_, ?_⟩ <;> first | decide +kernel | (unfold Admits; decide +kernel)⟩,
   ⟨loading 8 ({ digested 7 with mode := 4 }), 8, endHead ++ endDigest, { digested 7 with mode := 4 }, endHead ++ endDigest, endHead ++ endDigest, endDigest, by
     refine ⟨rfl, ?_, ?_, ?_, ?_, ?_, ?_, ?_, ?_, ?_, ?_, ?_, by decide +kernel, ?_, ?_, ?_, ?_, ?_⟩ <;> first | decide +kernel | (unfold Admits; decide +kernel)⟩,
   ⟨loading 8 (digested 7), 8, endHead ++ endDigest, digested 7, endHead ++ endDigest, endHead ++ endDigest, endDigest, by
     refine ⟨rfl, ?_, ?_, ?_, ?_, ?_, ?_, ?_, ?_, ?_, ?_, ?_, by decide +kernel, ?_, ?_, ?_, ?_, ?_⟩ <;> first | decide +kernel | (unfold Admits; decide +kernel)⟩,
   ⟨loading 8 ({ digested 7 with hdr := { (digested 7).hdr with digest := [] } }), 8, endHead ++ endDigest, { digested 7 with hdr := { (digested 7).hdr with digest := [] } }, endHead ++ endDigest, endHead ++ endDigest, endDigest, by
     refine ⟨rfl, ?_, ?_, ?_, ?_, ?_, ?_, ?_, ?_, ?_, ?_, ?_, by decide +kernel, ?_, ?_⟩ <;> first | decide +kernel | (unfold Admits; decide +kernel)⟩⟩

theorem meets_RegionReleaseComplete :
    (∃ (s : State) (r : Nat) (l : Load), r < 8 ∧ s.load r = some l ∧ l.stage = 2 ∧ s.evacuations r = [] ∧ s.ctrlOk r = true) ∧
    (∃ (s : State) (t : Nat) (r : Nat) (l : Load) (n : Nat), r < 8 ∧ s.load r = some l ∧ (s.ctrlOk r = true ∨ (s.region r).failed = true) ∧
        l.stage = 6 ∧
        n = (((((List.range 64).foldl (fun s n => if n / 8 = r then s.setDac n { s.dac n with busHeld := false } else s) ((((s.at t).setRegion r { s.region r with isolated := false, fallow := false }).initFFs r).releaseLatches r)).reswitch ((((List.range 64).foldl (fun s n => if n / 8 = r then s.setDac n { s.dac n with busHeld := false } else s) ((((s.at t).setRegion r { s.region r with isolated := false, fallow := false }).initFFs r).releaseLatches r)).pin.pins.filter fun e => e.2.own.any (mapsRegion r)).map (·.1))).items r).filter fun e => decide (e.2.1 = 1)).length) ∧
    (∃ (s : State) (r : Nat) (l : Load), r < 8 ∧ s.load r = some l ∧ (s.ctrlOk r = true ∨ (s.region r).failed = true) ∧ l.stage = 7) ∧
    (∃ (s : State), s.time.step = 10 ∧ s.time.done = false ∧ s.husk.halted = false ∧ s.chip.restarting = false ∧ s.chip.failed = false ∧ (∀ r < 8,
        (s.region r).ready = true ∨ (s.region r).failed = true)) :=
  ⟨⟨{ loading 7 (load0 2) with til := { regions := [(7, { ready := true })] } }, 7, load0 2, by decide +kernel⟩,
   ⟨{ loading 7 (load0 6) with til := { regions := [(7, { failed := true })] } }, 0, 7, load0 6, _, by
     refine ⟨?_, ?_, ?_, ?_, rfl⟩ <;> first | decide +kernel | (unfold Admits; decide +kernel)⟩,
   ⟨{ loading 7 (load0 7) with til := { regions := [(7, { ready := true })] } }, 7, load0 7, by decide +kernel⟩,
   ⟨{ ready with time := { ready.time with done := false }, til := { regions := (List.range 7).map (fun r => (r, { failed := true })) ++ [(7, { ready := true })] } },
         by decide +kernel⟩⟩

/-- `ready` with verification key 0 of no bytes, and with a persona seed of no bytes as well. -/
def vault : State := { ready with husk := (loading 8 (load0 1)).husk }
def vaultSeed : State := vault.setFuses fun f => { f with personaSeed := some [] }

/-- A signature block (13 R363), and a provisioning blob (15 R420): slot, flags and payload. -/
def sigBlock : Bytes := fill 6 [(0, 4, 0x4753484C), (4, 2, 3392)] ++ List.replicate 3386 0
def blobHead (slot flags : Nat) (p : Bytes) : Bytes :=
  fill 32 [(0, 4, 0x4B42484C), (4, 2, 1), (6, 1, slot), (7, 1, flags), (8, 4, p.length)] ++ p ++ zeros (padded p.length - p.length)
def blobOf (slot flags : Nat) (p : Bytes) : Bytes := blobHead slot flags p ++ sigBlock

theorem byteAt_append {x s : Bytes} (i : Nat) : byteAt (x ++ s) (x.length + i) = byteAt s i := by
  simp [byteAt, List.getElem?_append_right]
theorem fld_append {x s : Bytes} (i n : Nat) : fld (x ++ s) (x.length + i) n = fld s i n := by
  simp [fld, List.drop_append, List.drop_eq_nil_of_le]
theorem firstBad_none {b : Bytes} {l : List (Nat × Nat)} (h : ∀ e ∈ l, Nat.land (byteAt b e.1) e.2 = 0) : firstBad b l = none := by
  induction l with
  | nil => rfl
  | cons e l ih => rw [firstBad, if_neg fun hn => hn (h e (by simp)), ih fun e he => h e (by simp [he])]

theorem byteAt_zeros (n i : Nat) : byteAt (List.replicate n (0 : Byte)) i = 0 := by
  by_cases h : i < n <;> simp [byteAt, h]

theorem sigBlock_append (x : Bytes) : sigBlockOk (x ++ sigBlock) x.length = true ∧ byteAt (x ++ sigBlock) (x.length + 6) = 0 := by
  have hz (i : Nat) : byteAt (x ++ sigBlock) (x.length + (6 + i)) = 0 :=
    (byteAt_append _).trans ((byteAt_append (x := fill 6 [(0, 4, 0x4753484C), (4, 2, 3392)]) i).trans (byteAt_zeros _ _))
  have f1 : fld (x ++ sigBlock) x.length 4 = 0x4753484C := (fld_append 0 4).trans (by decide +kernel)
  have f2 : fld (x ++ sigBlock) (x.length + 4) 2 = 3392 := (fld_append 4 2).trans (by decide +kernel)
  have f3 : firstBad (x ++ sigBlock) (rsv (x.length + 7) 1 ++ rsv (x.length + 3381) 11) = none := firstBad_none fun e he => by
    simp only [rsv, List.mem_append, List.mem_map, List.mem_range] at he
    obtain ⟨i, -, rfl⟩ | ⟨i, -, rfl⟩ := he
    · simp only [show x.length + 7 + i = x.length + (6 + (1 + i)) by omega, hz]; rfl
    · simp only [show x.length + 3381 + i = x.length + (6 + (3375 + i)) by omega, hz]; rfl
  exact ⟨by simp [sigBlockOk, f1, f2, f3, hz 0], hz 0⟩

theorem blobOf_ok {s : State} {slot flags slot' flags' : Nat} {p : Bytes} (h0 : slot = slot') (h1 : flags = flags') (hp : p.length = payloadLen slot flags)
    (hl : (blobHead slot flags p).length = 32 + padded p.length)
    (h : (decide (fld (blobOf slot flags p) 0 4 = 0x4B42484C) && decide (fld (blobOf slot flags p) 4 2 = 1) && decide (byteAt (blobOf slot flags p) 6 = slot) &&
      decide (byteAt (blobOf slot flags p) 7 = flags) && decide (fld (blobOf slot flags p) 8 4 = p.length) &&
      (firstBad (blobOf slot flags p) (rsv 12 4 ++ rsv 24 8 ++ rsv (32 + p.length) (padded p.length - p.length))).isNone &&
      decide (fld (blobOf slot flags p) 16 8 = 0)) = true) : s.blobOk (blobOf slot flags p) slot' flags' = true := by
  subst h0 h1
  have hs := sigBlock_append (blobHead slot flags p)
  rw [hl] at hs
  have hb : (blobOf slot flags p).length = 32 + padded p.length + 3392 := by
    simp only [blobOf, hl, sigBlock, fill, List.length_append, List.length_map, List.length_range, List.length_replicate]
  unfold State.blobOk
  simp only [Bool.and_eq_true, decide_eq_true_eq] at h
  simp only [← hp, h, hb, Bool.and_eq_true, decide_eq_true_eq, Bool.or_eq_true]
  exact ⟨⟨⟨⟨⟨⟨⟨⟨⟨trivial, trivial⟩, trivial⟩, trivial⟩, trivial⟩, trivial⟩, trivial⟩, Or.inl trivial⟩, hs.1⟩, hs.2⟩
/-- The KEY_PROVISION record of that blob. -/
def provision (slot flags len : Nat) : Bytes := fill 16 [(0, 1, slot), (1, 1, flags), (2, 2, len), (8, 8, 64)]

/-- A staged record of key 1. -/
def staged1 : Bytes := fill 7 [(6, 1, 1)]

/-- The wrapping key that a seed of no bytes gives, and the payload that it wraps: a nonce and a ciphertext of zeros with their tag. -/
def wrapKey : Bytes := toBE 32 0x2AA4B102735D55AB56DDD0581524889E0788B5E69643F3AC068BB3FF886C6473
def wrapTag : Bytes := toBE 16 0xF44F71941977B26CC96A99285E137B8B
def wrapped (tag : Bytes) : Bytes := zeros 44 ++ tag
theorem wrap_tag : gcmTag wrapKey (zeros 12) ((blobOf 7 0 (wrapped wrapTag)).take 32) (zeros 32) = wrapTag := by decide +kernel

theorem hostRead_all {s : State} {a n : Nat} {b : Bytes} (h : s.time.localMode = false) (hb : b.length = n) : b = s.hostRead a n b := by
  simp [State.hostRead, slice, zeros, h, ← hb]

theorem policy_ok : policyLayout policyImage = true ∧ policyRange policyImage = true ∧ policyImage.length = 3520 := by decide +kernel

theorem gcmOpen_append {key iv iv' aad aad' b c x : Bytes} (t : Bytes) (hi : iv = iv') (ha : aad = aad') (hb : b = c ++ t) (h : t.length = 16)
    (ht : gcmTag key iv' aad' c = x) : gcmOpen key iv aad b = if x = t then some (gcmCrypt key iv' c) else none := by
  subst hi ha hb
  simp [gcmOpen, h, ht]

theorem meets_HuskCommandsComplete :
    (∃ (s : State) (d : Desc) (slot : Nat) (a : Bytes), Admits s 0x0800 d slot a ∧ firstBad a (rsv 44 4) = none ∧ fld a 32 8 % 8 = 0 ∧
        4096 ≤ fld a 40 4 ∧ (s.admitted d slot a).bufOk (fld a 32 8) (fld a 40 4) = true ∧ s.husk.fuses.keyKill = 0 ∧ s.husk.idErased = false) ∧
    (∃ (s : State) (d : Desc) (slot : Nat) (a : Bytes), Admits s 0x0800 d slot a ∧ firstBad a (rsv 44 4) = none ∧ fld a 32 8 % 8 = 0 ∧
        4096 ≤ fld a 40 4 ∧ (s.admitted d slot a).bufOk (fld a 32 8) (fld a 40 4) = true ∧ (s.husk.fuses.keyKill ≠ 0 ∨ s.husk.idErased = true)) ∧
    (∃ (s : State) (d : Desc) (blob : Bytes) (slot : Nat) (a : Bytes) (b : Bytes) (p : Bytes) (u : State) (r : Bytes), Admits s 0x0801 d slot a ∧
        firstBad a ((1, 0xF0) :: rsv 4 4) = none ∧ 1 ≤ (fld a 2 2) ∧ (fld a 2 2) ≤ 4096 ∧ fld a 8 8 % 8 = 0 ∧
        (s.admitted d slot a).bufOk (fld a 8 8) (fld a 2 2) = true ∧ provisionOk (byteAt a 0) (byteAt a 1) = true ∧
        s.provisionLocked (byteAt a 0) = false ∧ u = { s.admitted d slot a with husk := { s.husk with staged := none } } ∧
        b = u.hostRead (fld a 8 8) (fld a 2 2) blob ∧ p = slice b 32 (payloadLen (byteAt a 0) (byteAt a 1)) ∧ (byteAt a 1) = 2 ∧
        u.exported (byteAt a 0) = some r ∧ r.length ≤ (fld a 2 2)) ∧
    (∃ (s : State) (d : Desc) (blob : Bytes) (slot : Nat) (a : Bytes) (b : Bytes) (p : Bytes) (u : State), Admits s 0x0801 d slot a ∧ firstBad a ((1,
        0xF0) :: rsv 4 4) = none ∧ 1 ≤ (fld a 2 2) ∧ (fld a 2 2) ≤ 4096 ∧ fld a 8 8 % 8 = 0 ∧
        (s.admitted d slot a).bufOk (fld a 8 8) (fld a 2 2) = true ∧ provisionOk (byteAt a 0) (byteAt a 1) = true ∧
        s.provisionLocked (byteAt a 0) = false ∧ u = { s.admitted d slot a with husk := { s.husk with staged := none } } ∧
        b = u.hostRead (fld a 8 8) (fld a 2 2) blob ∧ p = slice b 32 (payloadLen (byteAt a 0) (byteAt a 1)) ∧ (byteAt a 1) = 1 ∧
        stagedOk b ((byteAt a 0) - 0x10) = true) ∧
    (∃ (s : State) (d : Desc) (blob : Bytes) (cr : Crypto) (slot : Nat) (a : Bytes) (b : Bytes) (p : Bytes) (u : State) (r : Bytes),
        Admits s 0x0801 d slot a ∧ firstBad a ((1, 0xF0) :: rsv 4 4) = none ∧ 1 ≤ (fld a 2 2) ∧ (fld a 2 2) ≤ 4096 ∧ fld a 8 8 % 8 = 0 ∧
        (s.admitted d slot a).bufOk (fld a 8 8) (fld a 2 2) = true ∧ provisionOk (byteAt a 0) (byteAt a 1) = true ∧
        s.provisionLocked (byteAt a 0) = false ∧ u = { s.admitted d slot a with husk := { s.husk with staged := none } } ∧
        b = u.hostRead (fld a 8 8) (fld a 2 2) blob ∧ p = slice b 32 (payloadLen (byteAt a 0) (byteAt a 1)) ∧
        u.blobOk b (byteAt a 0) (byteAt a 1) = true ∧ cr.ed = true ∧ cr.ml = true ∧ (byteAt a 1) = 0 ∧ 0x10 ≤ (byteAt a 0) ∧ (byteAt a 0) < 0x14 ∧
        s.husk.staged = some r ∧ byteAt r 6 = (byteAt a 0) - 0x10 ∧ sha384 r = p ∧
        (Tbl.get none ((byteAt a 0) - 0x10) s.husk.fuses.digests = some p ∨ Tbl.get none ((byteAt a 0) - 0x10) s.husk.fuses.digests = none) ∧
        (s.keyUsable 0 = true ∨ ((byteAt a 0) = 0x10 ∧ Tbl.get none 0 s.husk.fuses.digests = none))) ∧
    (∃ (s : State) (d : Desc) (blob : Bytes) (cr : Crypto) (slot : Nat) (a : Bytes) (b : Bytes) (p : Bytes) (u : State), Admits s 0x0801 d slot a ∧
        firstBad a ((1, 0xF0) :: rsv 4 4) = none ∧ 1 ≤ (fld a 2 2) ∧ (fld a 2 2) ≤ 4096 ∧ fld a 8 8 % 8 = 0 ∧
        (s.admitted d slot a).bufOk (fld a 8 8) (fld a 2 2) = true ∧ provisionOk (byteAt a 0) (byteAt a 1) = true ∧
        s.provisionLocked (byteAt a 0) = false ∧ u = { s.admitted d slot a with husk := { s.husk with staged := none } } ∧
        b = u.hostRead (fld a 8 8) (fld a 2 2) blob ∧ p = slice b 32 (payloadLen (byteAt a 0) (byteAt a 1)) ∧
        u.blobOk b (byteAt a 0) (byteAt a 1) = true ∧ cr.ed = true ∧ cr.ml = true ∧ s.keyUsable 0 = true ∧ (byteAt a 1) = 8) ∧
    (∃ (s : State) (d : Desc) (blob : Bytes) (cr : Crypto) (slot : Nat) (a : Bytes) (b : Bytes) (p : Bytes) (u : State) (w : Bytes) (k : Bytes),
        Admits s 0x0801 d slot a ∧ firstBad a ((1, 0xF0) :: rsv 4 4) = none ∧ 1 ≤ (fld a 2 2) ∧ (fld a 2 2) ≤ 4096 ∧ fld a 8 8 % 8 = 0 ∧
        (s.admitted d slot a).bufOk (fld a 8 8) (fld a 2 2) = true ∧ provisionOk (byteAt a 0) (byteAt a 1) = true ∧
        s.provisionLocked (byteAt a 0) = false ∧ u = { s.admitted d slot a with husk := { s.husk with staged := none } } ∧
        b = u.hostRead (fld a 8 8) (fld a 2 2) blob ∧ p = slice b 32 (payloadLen (byteAt a 0) (byteAt a 1)) ∧
        u.blobOk b (byteAt a 0) (byteAt a 1) = true ∧ cr.ed = true ∧ cr.ml = true ∧ s.keyUsable 0 = true ∧ (byteAt a 1) = 0 ∧ (byteAt a 0) < 8 ∧
        u.seedKey "LH8640 wrap" = some w ∧ gcmOpen w (p.take 12) (slice b 0 32) (p.drop 12) = some k) ∧
    (∃ (s : State) (d : Desc) (blob : Bytes) (cr : Crypto) (slot : Nat) (a : Bytes) (b : Bytes) (p : Bytes) (u : State) (w : Bytes),
        Admits s 0x0801 d slot a ∧ firstBad a ((1, 0xF0) :: rsv 4 4) = none ∧ 1 ≤ (fld a 2 2) ∧ (fld a 2 2) ≤ 4096 ∧ fld a 8 8 % 8 = 0 ∧
        (s.admitted d slot a).bufOk (fld a 8 8) (fld a 2 2) = true ∧ provisionOk (byteAt a 0) (byteAt a 1) = true ∧
        s.provisionLocked (byteAt a 0) = false ∧ u = { s.admitted d slot a with husk := { s.husk with staged := none } } ∧
        b = u.hostRead (fld a 8 8) (fld a 2 2) blob ∧ p = slice b 32 (payloadLen (byteAt a 0) (byteAt a 1)) ∧
        u.blobOk b (byteAt a 0) (byteAt a 1) = true ∧ cr.ed = true ∧ cr.ml = true ∧ s.keyUsable 0 = true ∧ (byteAt a 1) = 0 ∧ (byteAt a 0) < 8 ∧
        u.seedKey "LH8640 wrap" = some w ∧ gcmOpen w (p.take 12) (slice b 0 32) (p.drop 12) = none) ∧
    (∃ (s : State) (d : Desc) (blob : Bytes) (cr : Crypto) (slot : Nat) (a : Bytes) (b : Bytes) (p : Bytes) (u : State), Admits s 0x0801 d slot a ∧
        firstBad a ((1, 0xF0) :: rsv 4 4) = none ∧ 1 ≤ (fld a 2 2) ∧ (fld a 2 2) ≤ 4096 ∧ fld a 8 8 % 8 = 0 ∧
        (s.admitted d slot a).bufOk (fld a 8 8) (fld a 2 2) = true ∧ provisionOk (byteAt a 0) (byteAt a 1) = true ∧
        s.provisionLocked (byteAt a 0) = false ∧ u = { s.admitted d slot a with husk := { s.husk with staged := none } } ∧
        b = u.hostRead (fld a 8 8) (fld a 2 2) blob ∧ p = slice b 32 (payloadLen (byteAt a 0) (byteAt a 1)) ∧
        u.blobOk b (byteAt a 0) (byteAt a 1) = true ∧ cr.ed = true ∧ cr.ml = true ∧ s.keyUsable 0 = true ∧ (byteAt a 1) = 4) ∧
    (∃ (s : State) (d : Desc) (blob : Bytes) (cr : Crypto) (slot : Nat) (a : Bytes) (b : Bytes) (p : Bytes) (u : State), Admits s 0x0801 d slot a ∧
        firstBad a ((1, 0xF0) :: rsv 4 4) = none ∧ 1 ≤ (fld a 2 2) ∧ (fld a 2 2) ≤ 4096 ∧ fld a 8 8 % 8 = 0 ∧
        (s.admitted d slot a).bufOk (fld a 8 8) (fld a 2 2) = true ∧ provisionOk (byteAt a 0) (byteAt a 1) = true ∧
        s.provisionLocked (byteAt a 0) = false ∧ u = { s.admitted d slot a with husk := { s.husk with staged := none } } ∧
        b = u.hostRead (fld a 8 8) (fld a 2 2) blob ∧ p = slice b 32 (payloadLen (byteAt a 0) (byteAt a 1)) ∧
        u.blobOk b (byteAt a 0) (byteAt a 1) = true ∧ cr.ed = true ∧ cr.ml = true ∧ s.keyUsable 0 = true ∧ (byteAt a 1) = 0 ∧ (byteAt a 0) = 0x20) ∧
    (∃ (s : State) (d : Desc) (blob : Bytes) (cr : Crypto) (slot : Nat) (a : Bytes) (b : Bytes) (p : Bytes) (u : State), Admits s 0x0801 d slot a ∧
        firstBad a ((1, 0xF0) :: rsv 4 4) = none ∧ 1 ≤ (fld a 2 2) ∧ (fld a 2 2) ≤ 4096 ∧ fld a 8 8 % 8 = 0 ∧
        (s.admitted d slot a).bufOk (fld a 8 8) (fld a 2 2) = true ∧ provisionOk (byteAt a 0) (byteAt a 1) = true ∧
        s.provisionLocked (byteAt a 0) = false ∧ u = { s.admitted d slot a with husk := { s.husk with staged := none } } ∧
        b = u.hostRead (fld a 8 8) (fld a 2 2) blob ∧ p = slice b 32 (payloadLen (byteAt a 0) (byteAt a 1)) ∧
        u.blobOk b (byteAt a 0) (byteAt a 1) = true ∧ cr.ed = true ∧ cr.ml = true ∧ s.keyUsable 0 = true ∧ (byteAt a 1) = 0 ∧ (byteAt a 0) = 0x28 ∧
        firstBad b ((32, 0xFE) :: rsv 33 3) = none) ∧
    (∃ (s : State) (d : Desc) (blob : Bytes) (cr : Crypto) (slot : Nat) (a : Bytes) (b : Bytes) (p : Bytes) (u : State), Admits s 0x0801 d slot a ∧
        firstBad a ((1, 0xF0) :: rsv 4 4) = none ∧ 1 ≤ (fld a 2 2) ∧ (fld a 2 2) ≤ 4096 ∧ fld a 8 8 % 8 = 0 ∧
        (s.admitted d slot a).bufOk (fld a 8 8) (fld a 2 2) = true ∧ provisionOk (byteAt a 0) (byteAt a 1) = true ∧
        s.provisionLocked (byteAt a 0) = false ∧ u = { s.admitted d slot a with husk := { s.husk with staged := none } } ∧
        b = u.hostRead (fld a 8 8) (fld a 2 2) blob ∧ p = slice b 32 (payloadLen (byteAt a 0) (byteAt a 1)) ∧
        u.blobOk b (byteAt a 0) (byteAt a 1) = true ∧ (cr.ed = false ∨ cr.ml = false ∨ s.keyUsable 0 = false) ∧
        ((byteAt a 1) = 4 ∨ (byteAt a 1) = 8 ∨ ((byteAt a 1) = 0 ∧ ((byteAt a 0) < 8 ∨ (byteAt a 0) = 0x20)))) ∧
    (∃ (s : State) (d : Desc) (image : Bytes) (cr : Crypto) (slot : Nat) (a : Bytes) (b : Bytes) (u : State), Admits s 0x0802 d slot a ∧
        firstBad a ((0, 0xFE) :: rsv 1 1 ++ rsv 4 4) = none ∧ 1 ≤ (fld a 2 2) ∧ (fld a 2 2) ≤ 4096 ∧ fld a 8 8 % 8 = 0 ∧
        (s.admitted d slot a).bufOk (fld a 8 8) (fld a 2 2) = true ∧ b = (s.admitted d slot a).hostRead (fld a 8 8) (fld a 2 2) image ∧
        policyLayout b = true ∧ policyRange b = true ∧ s.husk.fuses.policyLock = false ∧ s.keepLocked = false ∧
        u = State.applyPolicy { s.admitted d slot a with keep := { s.keep with alarm := some b } } (readAlarmPolicy b) ∧
        (s.keyUsable 0 = false ∨ cr.ed = false ∨ cr.ml = false)) ∧
    (∃ (s : State) (d : Desc) (image : Bytes) (cr : Crypto) (slot : Nat) (a : Bytes) (b : Bytes) (u : State), Admits s 0x0802 d slot a ∧
        firstBad a ((0, 0xFE) :: rsv 1 1 ++ rsv 4 4) = none ∧ 1 ≤ (fld a 2 2) ∧ (fld a 2 2) ≤ 4096 ∧ fld a 8 8 % 8 = 0 ∧
        (s.admitted d slot a).bufOk (fld a 8 8) (fld a 2 2) = true ∧ b = (s.admitted d slot a).hostRead (fld a 8 8) (fld a 2 2) image ∧
        policyLayout b = true ∧ policyRange b = true ∧ s.husk.fuses.policyLock = false ∧ s.keepLocked = false ∧
        u = State.applyPolicy { s.admitted d slot a with keep := { s.keep with alarm := some b } } (readAlarmPolicy b) ∧ s.keyUsable 0 = true ∧
        cr.ed = true ∧ cr.ml = true) ∧
    (∃ (s : State) (d : Desc) (image : Bytes) (cr : Crypto) (slot : Nat) (a : Bytes) (b : Bytes) (u : State), Admits s 0x0802 d slot a ∧
        firstBad a ((0, 0xFE) :: rsv 1 1 ++ rsv 4 4) = none ∧ 1 ≤ (fld a 2 2) ∧ (fld a 2 2) ≤ 4096 ∧ fld a 8 8 % 8 = 0 ∧
        (s.admitted d slot a).bufOk (fld a 8 8) (fld a 2 2) = true ∧ b = (s.admitted d slot a).hostRead (fld a 8 8) (fld a 2 2) image ∧
        policyLayout b = true ∧ policyRange b = true ∧ s.husk.fuses.policyLock = false ∧ s.keepLocked = false ∧
        u = State.applyPolicy { s.admitted d slot a with keep := { s.keep with alarm := some b } } (readAlarmPolicy b) ∧ s.keyUsable 0 = true ∧
        cr.ed = true ∧ cr.ml = true ∧ bit (byteAt a 0) 0 = false) ∧
    (∃ (s : State) (d : Desc) (image : Bytes) (cr : Crypto) (slot : Nat) (a : Bytes) (b : Bytes) (u : State), Admits s 0x0802 d slot a ∧
        firstBad a ((0, 0xFE) :: rsv 1 1 ++ rsv 4 4) = none ∧ 1 ≤ (fld a 2 2) ∧ (fld a 2 2) ≤ 4096 ∧ fld a 8 8 % 8 = 0 ∧
        (s.admitted d slot a).bufOk (fld a 8 8) (fld a 2 2) = true ∧ b = (s.admitted d slot a).hostRead (fld a 8 8) (fld a 2 2) image ∧
        policyLayout b = true ∧ policyRange b = true ∧ s.husk.fuses.policyLock = false ∧ s.keepLocked = false ∧
        u = State.applyPolicy { s.admitted d slot a with keep := { s.keep with alarm := some b } } (readAlarmPolicy b) ∧ s.keyUsable 0 = true ∧
        cr.ed = true ∧ cr.ml = true ∧ bit (byteAt a 0) 0 = true) :=
  ⟨⟨ready, cmd 0x0800 (fill 48 [(32, 8, 64), (40, 4, 4096)]), 0, fill 48 [(32, 8, 64), (40, 4, 4096)], by unfold Admits; decide +kernel⟩,
   ⟨{ ready with husk := { ready.husk with idErased := true } }, cmd 0x0800 (fill 48 [(32, 8, 64), (40, 4, 4096)]), 0, fill 48 [(32, 8, 64), (40, 4,
        4096)], by unfold Admits; decide +kernel⟩,
   ⟨{ ready with husk := { ready.husk with flashKeys := [(2, some [1, 2, 3])] } }, cmd 0x0801 (provision 0x12 2 3), [], 0, provision 0x12 2 3, _, _, _, [1, 2, 3], by
     refine ⟨?_, ?_, ?_, ?_, ?_, ?_, ?_, ?_, rfl, rfl, rfl, ?_, ?_, ?_⟩ <;> first | decide +kernel | (unfold Admits; decide +kernel)⟩,
   ⟨ready, cmd 0x0801 (provision 0x13 1 1992), fill 1992 [(0, 4, 0x4B56484C), (4, 2, 1), (6, 1, 3)], 0, provision 0x13 1 1992, fill 1992 [(0, 4, 0x4B56484C), (4, 2, 1), (6, 1, 3)], _, _, by
     refine ⟨?_, ?_, ?_, ?_, ?_, ?_, ?_, ?_, rfl, hostRead_all rfl ?_, rfl, ?_, ?_⟩ <;> first | decide +kernel | (unfold Admits; decide +kernel)⟩,
   ⟨{ vault with husk := { vault.husk with staged := some staged1 } }, cmd 0x0801 (provision 0x11 0 3472), blobOf 0x11 0 (sha384 staged1), { ed := true, ml := true }, 0, provision 0x11 0 3472, blobOf 0x11 0 (sha384 staged1), sha384 staged1, _, staged1, by
     refine ⟨?_, ?_, ?_, ?_, ?_, ?_, ?_, ?_, rfl, hostRead_all rfl ?_, ?_, blobOf_ok ?_ ?_ ?_ ?_ ?_, ?_, ?_, ?_, ?_, ?_, ?_, ?_, ?_, Or.inr ?_, Or.inl ?_⟩ <;> first | decide +kernel | (unfold Admits; decide +kernel)⟩,
   ⟨vaultSeed, cmd 0x0801 (provision 7 8 3424), blobOf 7 8 ([]), { ed := true, ml := true }, 0, provision 7 8 3424, blobOf 7 8 ([]), [], _, by
     refine ⟨?_, ?_, ?_, ?_, ?_, ?_, ?_, ?_, rfl, hostRead_all rfl ?_, ?_, blobOf_ok ?_ ?_ ?_ ?_ ?_, ?_, ?_, ?_, ?_⟩ <;> first | decide +kernel | (unfold Admits; decide +kernel)⟩,
   ⟨vaultSeed, cmd 0x0801 (provision 7 0 3488), blobOf 7 0 (wrapped wrapTag), { ed := true, ml := true }, 0, provision 7 0 3488, blobOf 7 0 (wrapped wrapTag), wrapped wrapTag, _, wrapKey, gcmCrypt wrapKey (zeros 12) (zeros 32), by
     refine ⟨?_, ?_, ?_, ?_, ?_, ?_, ?_, ?_, rfl, hostRead_all rfl ?_, ?_, blobOf_ok ?_ ?_ ?_ ?_ ?_, ?_, ?_, ?_, ?_, ?_, ?_, (gcmOpen_append wrapTag ?_ ?_ ?_ ?_ wrap_tag).trans (if_pos rfl)⟩ <;> first | decide +kernel | (unfold Admits; decide +kernel)⟩,
   ⟨vaultSeed, cmd 0x0801 (provision 7 0 3488), blobOf 7 0 (wrapped (zeros 16)), { ed := true, ml := true }, 0, provision 7 0 3488, blobOf 7 0 (wrapped (zeros 16)), wrapped (zeros 16), _, wrapKey, by
     refine ⟨?_, ?_, ?_, ?_, ?_, ?_, ?_, ?_, rfl, hostRead_all rfl ?_, ?_, blobOf_ok ?_ ?_ ?_ ?_ ?_, ?_, ?_, ?_, ?_, ?_, ?_, (gcmOpen_append (zeros 16) ?_ ?_ ?_ ?_ wrap_tag).trans (if_neg ?_)⟩ <;> first | decide +kernel | (unfold Admits; decide +kernel)⟩,
   ⟨vault, cmd 0x0801 (provision 0x11 4 3424), blobOf 0x11 4 ([]), { ed := true, ml := true }, 0, provision 0x11 4 3424, blobOf 0x11 4 ([]), [], _, by
     refine ⟨?_, ?_, ?_, ?_, ?_, ?_, ?_, ?_, rfl, hostRead_all rfl ?_, ?_, blobOf_ok ?_ ?_ ?_ ?_ ?_, ?_, ?_, ?_, ?_⟩ <;> first | decide +kernel | (unfold Admits; decide +kernel)⟩,
   ⟨vault, cmd 0x0801 (provision 0x20 0 3456), blobOf 0x20 0 (zeros 32), { ed := true, ml := true }, 0, provision 0x20 0 3456, blobOf 0x20 0 (zeros 32), zeros 32, _, by
     refine ⟨?_, ?_, ?_, ?_, ?_, ?_, ?_, ?_, rfl, hostRead_all rfl ?_, ?_, blobOf_ok ?_ ?_ ?_ ?_ ?_, ?_, ?_, ?_, ?_, ?_⟩ <;> first | decide +kernel | (unfold Admits; decide +kernel)⟩,
   ⟨vault, cmd 0x0801 (provision 0x28 0 3432), blobOf 0x28 0 ([1, 0, 0, 0]), { ed := true, ml := true }, 0, provision 0x28 0 3432, blobOf 0x28 0 ([1, 0, 0, 0]), [1, 0, 0, 0], _, by
     refine ⟨?_, ?_, ?_, ?_, ?_, ?_, ?_, ?_, rfl, hostRead_all rfl ?_, ?_, blobOf_ok ?_ ?_ ?_ ?_ ?_, ?_, ?_, ?_, ?_, ?_, ?_⟩ <;> first | decide +kernel | (unfold Admits; decide +kernel)⟩,
   ⟨vaultSeed, cmd 0x0801 (provision 7 8 3424), blobOf 7 8 ([]), { ed := false, ml := true }, 0, provision 7 8 3424, blobOf 7 8 ([]), [], _, by
     refine ⟨?_, ?_, ?_, ?_, ?_, ?_, ?_, ?_, rfl, hostRead_all rfl ?_, ?_, blobOf_ok ?_ ?_ ?_ ?_ ?_, ?_, ?_⟩ <;> first | decide +kernel | (unfold Admits; decide +kernel)⟩,
   ⟨vault, cmd 0x0802 (fill 16 [(0, 1, 0), (2, 2, 3520), (8, 8, 64)]), policyImage, { ed := false, ml := true }, 0, fill 16 [(0, 1, 0), (2, 2, 3520), (8, 8, 64)], policyImage, _, by
     refine ⟨?_, ?_, ?_, ?_, ?_, ?_, hostRead_all rfl (policy_ok.2.2.trans ?_), policy_ok.1, policy_ok.2.1, ?_, ?_, rfl, ?_⟩ <;> first | decide +kernel | (unfold Admits; decide +kernel)⟩,
   ⟨vault, cmd 0x0802 (fill 16 [(0, 1, 0), (2, 2, 3520), (8, 8, 64)]), policyImage, { ed := true, ml := true }, 0, fill 16 [(0, 1, 0), (2, 2, 3520), (8, 8, 64)], policyImage, _, by
     refine ⟨?_, ?_, ?_, ?_, ?_, ?_, hostRead_all rfl (policy_ok.2.2.trans ?_), policy_ok.1, policy_ok.2.1, ?_, ?_, rfl, ?_, ?_, ?_⟩ <;> first | decide +kernel | (unfold Admits; decide +kernel)⟩,
   ⟨vault, cmd 0x0802 (fill 16 [(0, 1, 0), (2, 2, 3520), (8, 8, 64)]), policyImage, { ed := true, ml := true }, 0, fill 16 [(0, 1, 0), (2, 2, 3520), (8, 8, 64)], policyImage, _, by
     refine ⟨?_, ?_, ?_, ?_, ?_, ?_, hostRead_all rfl (policy_ok.2.2.trans ?_), policy_ok.1, policy_ok.2.1, ?_, ?_, rfl, ?_, ?_, ?_, ?_⟩ <;> first | decide +kernel | (unfold Admits; decide +kernel)⟩,
   ⟨vault, cmd 0x0802 (fill 16 [(0, 1, 1), (2, 2, 3520), (8, 8, 64)]), policyImage, { ed := true, ml := true }, 0, fill 16 [(0, 1, 1), (2, 2, 3520), (8, 8, 64)], policyImage, _, by
     refine ⟨?_, ?_, ?_, ?_, ?_, ?_, hostRead_all rfl (policy_ok.2.2.trans ?_), policy_ok.1, policy_ok.2.1, ?_, ?_, rfl, ?_, ?_, ?_, ?_⟩ <;> first | decide +kernel | (unfold Admits; decide +kernel)⟩⟩

theorem meets_HuskEventsComplete :
    (∃ (s : State) (n : Nat), n < 8 ∧ s.husk.policy.on n = true) ∧
    (∃ (s : State) (n : Nat), n < 8 ∧ s.husk.policy.on n = false) ∧
    (∃ (s : State) (n : Nat), n < 8 ∧ bit s.husk.active n = true) ∧
    (∃ (s : State) (n : Nat), n < 8 ∧ bit s.husk.active n = false) ∧
    (∃ (s : State) (n : Nat) (c : Nat), (n = 5 ∨ n = 6) ∧ s.time.step = 1 ∧ s.husk.aon.getD (n - 5) (0, false) = (c, true) ∧
        s.husk.latched.any (fun e => e.1 == n) = false ∧ c < 2) ∧
    (∃ (s : State) (n : Nat) (c : Nat), (n = 5 ∨ n = 6) ∧ s.time.step = 1 ∧ s.husk.aon.getD (n - 5) (0, false) = (c, true) ∧
        s.husk.latched.any (fun e => e.1 == n) = false ∧ 2 ≤ c) ∧
    (∃ (s : State), s.husk.fuses.keyKillPending = true) ∧
    (∃ (s : State), s.husk.fuses.keyKillPending = false) ∧
    (∃ (s : State), s.husk.captureDue = true) ∧
    (∃ (s : State), s.husk.captureDue = false) :=
  ⟨⟨ready, 7, by decide +kernel⟩,
   ⟨ready, 6, by decide +kernel⟩,
   ⟨{ ready with husk := { ready.husk with active := 128 } }, 7, by decide +kernel⟩,
   ⟨ready, 7, by decide +kernel⟩,
   ⟨{ State.reset with time := { State.reset.time with step := 1 }, husk := { State.reset.husk with aon := [(0, false), (1, true)] } }, 6, 1,
        by decide +kernel⟩,
   ⟨{ State.reset with time := { State.reset.time with step := 1 }, husk := { State.reset.husk with aon := [(2, true), (0, false)] } }, 5, 2,
        by decide +kernel⟩,
   ⟨ready.setFuses fun f => { f with keyKillPending := true }, by decide +kernel⟩,
   ⟨ready, by decide +kernel⟩,
   ⟨{ ready with husk := { ready.husk with captureDue := true } }, by decide +kernel⟩,
   ⟨ready, by decide +kernel⟩⟩

theorem meets_ResetsComplete :
    (∃ (s : State), s.husk.latched = []) ∧
    (∃ (s : State), s.husk.latched = [] ∧ 3 ≤ s.time.step) ∧
    (∃ (s : State), s.time.step < 3) ∧
    (∃ (s : State) (ns : Nat), 1000 ≤ ns ∧ s.time.running = true) ∧
    (∃ (ns : Nat), ns < 1000) ∧
    (∃ (s : State) (t : Nat) (v : Word), (s.at t).hostUp = true ∧ s.time.running = true ∧ bit v.toNat 0 = true ∧ v.toNat / 65536 = 0xA5C3) ∧
    (∃ (v : Word), v.toNat / 65536 ≠ 0xA5C3) ∧
    (∃ (s : State), s.inFlight = [] ∧ s.chip.handles = [] ∧ s.til.graphs = []) ∧
    (∃ (s : State) (sp : Nat) (w : Nat), s.time.localMode = false ∧ 4 ≤ s.time.step ∧ 1 ≤ sp ∧ sp ≤ 4 ∧ (w = 1 ∨ w = 2 ∨ w = 4 ∨ w = 8)) :=
  ⟨⟨ready, by decide +kernel⟩,
   ⟨ready, by decide +kernel⟩,
   ⟨State.reset, by decide +kernel⟩,
   ⟨ready, 1000, by decide +kernel⟩,
   ⟨999, by decide +kernel⟩,
   ⟨ready, 0, 0xA5C30001#32, by decide +kernel⟩,
   ⟨0xA5C20001#32, by decide +kernel⟩,
   ⟨ready, by decide +kernel⟩,
   ⟨ready, 4, 8, by decide +kernel⟩⟩

theorem meets_StartUpComplete :
    (∃ (s : State), s.time.step = 1) ∧
    (∃ (s : State) (khz : _) (f : _), s.time.step = 3 ∧ s.time.running = false ∧ s.husk.fuses.keyKillPending = false ∧ listedRef khz = some f) ∧
    (∃ (s : State), s.time.step = 3) ∧
    (∃ (s : State), s.time.step ≠ 3) ∧
    (∃ (s : State), s.time.step = 4 ∧ s.time.selftestFail = false) ∧
    (∃ (s : State) (f : Nat), s.time.step = 4 ∧ s.time.selftestFail = false ∧ f ≠ 0) ∧
    (∃ (s : State) (t : Nat), s.time.step = 5 ∧ s.boot.hostWaiting = true ∧ s.time.step4 + 250000 * s.boot.hostWait ≤ (s.at t).now) ∧
    (∃ (s : State) (t : Nat) (v : Word), (s.at t).hostUp = true ∧ bit v.toNat 0 = true ∧ s.chip.restarting = false ∧ s.time.step = 5 ∧
        s.boot.hostWaiting = true ∧ s.load 8 = none ∧ s.boot.imgLen = 0) ∧
    (∃ (s : State) (t : Nat) (v : Word) (h : _) (b : _) (l : Load), (s.at t).hostUp = true ∧ bit v.toNat 0 = true ∧ s.chip.restarting = false ∧
        s.time.step = 5 ∧ s.boot.hostWaiting = true ∧ s.load 8 = none ∧ s.boot.imgLen ≠ 0 ∧ s.boot.imgAddr % 8 = 0 ∧
        (s.at t).bufOk s.boot.imgAddr s.boot.imgLen = true ∧ b = (s.at t).hostRead s.boot.imgAddr (min s.boot.imgLen 3520) h ∧ 3520 ≤ b.length ∧
        headerOk b 0xFF (imageMax 0 0) = true ∧ identityOk b = true ∧
        l = { mode := 1, source := 0, imgSlot := 0, len := s.boot.imgLen, head := slice b 0 3520, hdr := readHdr b, stage := 1, start := (s.at t).now }) ∧
    (∃ (s : State), s.boot.doneDriven = false ∧ s.time.step = 6 ∧ s.husk.halted = false) ∧
    (∃ (s : State), s.boot.doneDriven = true) ∧
    (∃ (s : State) (t : Nat) (x : _), s.boot.doneReleasedAt = some x ∧ s.time.step = 6 ∧ s.husk.halted = false ∧
        x + 250000 * s.boot.doneTimeout ≤ (s.at t).now) ∧
    (∃ (s : State), s.time.step = 8 ∧ s.husk.halted = false ∧ s.boot.doneSlot = none) ∧
    (∃ (s : State) (h : Nat), s.time.step = 8 ∧ s.husk.halted = false ∧ s.boot.doneSlot = some h) ∧
    (∃ (s : State), s.time.step = 9 ∧ s.husk.halted = false) ∧
    (∃ (s : State) (t : Nat), (s.at t).straw = true ∧ s.time.done = true ∧ s.husk.halted = false ∧ s.chip.restarting = false ∧ s.chip.failed = false ∧
        s.boot.bannerAt + 15000000000 ≤ (s.at t).now) :=
  ⟨⟨State.reset, by decide +kernel⟩,
   ⟨{ ready with time := { ready.time with step := 3, running := false }, boot := { ready.boot with fallow := false } }, 101000, 3,
        by decide +kernel⟩,
   ⟨{ ready with time := { ready.time with step := 3 }, boot := { ready.boot with fallow := false } }, by decide +kernel⟩,
   ⟨ready, by decide +kernel⟩,
   ⟨{ ready with time := { ready.time with step := 4 }, boot := { ready.boot with fallow := false } }, by decide +kernel⟩,
   ⟨{ ready with time := { ready.time with step := 4 }, boot := { ready.boot with fallow := false } }, 1, by decide +kernel⟩,
   ⟨{ ready with time := { ready.time with step := 5, timebase := 250000 }, boot := { ready.boot with hostWaiting := true, hostWait := 1 } }, 0,
        by decide +kernel⟩,
   ⟨{ ready with time := { ready.time with step := 5 }, boot := { ready.boot with hostWaiting := true } }, 0, 1#32, by decide +kernel⟩,
   ⟨{ ready with time := { ready.time with step := 5 }, boot := { ready.boot with hostWaiting := true, imgLen := 3920, imgAddr := 64 } }, 0, 1#32,
        head 0 0xFF 0xF0, _, _, by decide +kernel, by decide +kernel, by decide +kernel, by decide +kernel, by decide +kernel, by decide +kernel,
        by decide +kernel, by decide +kernel, by decide +kernel, rfl, by decide +kernel, by decide +kernel, by decide +kernel, rfl⟩,
   ⟨{ ready with time := { ready.time with step := 6 }, boot := { ready.boot with doneDriven := false } }, by decide +kernel⟩,
   ⟨{ ready with time := { ready.time with step := 6 }, boot := { ready.boot with fallow := false } }, by decide +kernel⟩,
   ⟨{ ready with time := { ready.time with step := 6, timebase := 500000100 }, boot := { ready.boot with doneReleasedAt := some 100 } }, 0, 100,
        by decide +kernel⟩,
   ⟨{ ready with time := { ready.time with step := 8 }, boot := { ready.boot with fallow := false } }, by decide +kernel⟩,
   ⟨{ ready with time := { ready.time with step := 8 }, boot := { ready.boot with doneSlot := some 3 } }, 3, by decide +kernel⟩,
   ⟨{ ready with time := { ready.time with step := 9 }, boot := { ready.boot with fallow := false } }, by decide +kernel⟩,
   ⟨{ ready with time := { ready.time with timebase := 15000000000 }, boot := { ready.boot with loaded := { valid := true, source := 2, slot := 1 } } }, 0, by decide +kernel⟩⟩

theorem meets_PortCommandsComplete :
    (∃ (s : State) (t : Nat) (len : _) (h : Bytes) (b : _) (u : State) (l : Load), s.coreRuns = true ∧ (s.at t).cfgRefusal = 0 ∧
        s.fab.readbacks.find? (fun r => r.id == 0x1000) = none ∧ 1 ≤ len ∧ b = h.take (min len 3520) ∧ 3520 ≤ b.length ∧ identityOk b = true ∧
        u = { s.at t with boot := { s.boot with cfgOpen := true, cfgFrames := 0 } } ∧ s.inFlight = [] ∧ len ≤ imageMax 0 0 ∧
        headerOk b 0xFF (imageMax 0 0) = true ∧
        l = { mode := 3, source := 0, imgSlot := 0, len := len, head := slice b 0 3520, hdr := readHdr b, stage := 1, start := (s.at t).now }) ∧
    (∃ (s : State) (t : Nat) (len : _) (h : Bytes) (b : _) (u : State) (l : Load), s.coreRuns = true ∧ (s.at t).cfgRefusal = 0 ∧
        s.fab.readbacks.find? (fun r => r.id == 0x1000) = none ∧ 1 ≤ len ∧ b = h.take (min len 3520) ∧ 3520 ≤ b.length ∧ identityOk b = true ∧
        u = { s.at t with boot := { s.boot with cfgOpen := true, cfgFrames := 0 } } ∧ len ≤ imageMax 2 0 ∧ headerOk b 0xFF (imageMax 2 0) = true ∧
        l = { mode := 4, source := 2, imgSlot := 0, len := len, head := slice b 0 3520, hdr := readHdr b, stage := 1, start := (s.at t).now }) ∧
    (∃ (s : State) (t : Nat) (sc : Nat) (ix : Nat), s.coreRuns = true ∧ (s.at t).cfgRefusal = 0 ∧ scopeOk sc ix = true ∧
        s.fab.readbacks.find? (fun r => r.id == 0x1000) = none) ∧
    (∃ (s : State) (t : Nat), s.coreRuns = true ∧ (s.at t).cfgRefusal ≠ 0) ∧
    (∃ (s : State), s.boot.cfgOpen = true ∧ s.fab.readbacks.find? (fun r => r.id == 0x1000) = none ∧ s.load 8 = none) ∧
    (∃ (s : State), s.boot.cfgOpen = false) ∧
    (∃ (s : State) (t : Nat), (s.at t).tapDrives = true) ∧
    (∃ (s : State) (t : Nat), (s.at t).tapDrives = false) ∧
    (∃ (c : Nat), 5 ≤ c) :=
  ⟨⟨ready, 0, 3920, head 0 0xFF 0xF0, _, _, _, by decide +kernel, by decide +kernel, by decide +kernel, by decide +kernel, rfl, by decide +kernel,
        by decide +kernel, rfl, by decide +kernel, by decide +kernel, by decide +kernel, rfl⟩,
   ⟨ready, 0, 3920, head 0 0xFF 0xF0, _, _, _, by decide +kernel, by decide +kernel, by decide +kernel, by decide +kernel, rfl, by decide +kernel,
        by decide +kernel, rfl, by decide +kernel, by decide +kernel, rfl⟩,
   ⟨ready, 0, 2, 0, by decide +kernel⟩,
   ⟨{ ready with husk := { ready.husk with debugLocked := true } }, 0, by decide +kernel⟩,
   ⟨{ ready with time := { ready.time with step := 10 }, boot := { ready.boot with cfgOpen := true } }, by decide +kernel⟩,
   ⟨ready, by decide +kernel⟩,
   ⟨{ ready with time := { ready.time with step := 6 }, boot := { ready.boot with fallow := false } }, 0, by decide +kernel⟩,
   ⟨ready, 0, by decide +kernel⟩,
   ⟨5, by decide +kernel⟩⟩

theorem meets_RecoveryComplete :
    (∃ (s : State) (b : Nat), b < 64 ∧ (s.block b).stopped = false ∧ (s.block b).quarantined = false ∧ s.restarting (b / 8) = false) ∧
    (∃ (s : State) (b : Nat), b < 64 ∧ (s.block b).stopped = false ∧ (s.block b).quarantined = false ∧ s.restarting (b / 8) = true) ∧
    (∃ (s : State) (t : Nat) (b : Nat), b < 64 ∧ s.ctrlOk (b / 8) = true ∧ 5 ≤ s.time.step ∧ (s.block b).quarantined = false ∧
        2 ≤ ((s.block b).recoveries.filter (fun x => decide ((s.at t).now < x + 250000000))).length) ∧
    (∃ (s : State) (t : Nat) (b : Nat) (x : Nat), b < 64 ∧ s.ctrlOk (b / 8) = true ∧ 5 ≤ s.time.step ∧ (s.block b).quarantined = false ∧
        ((s.block b).recoveries.filter (fun x => decide ((s.at t).now < x + 250000000))).getLast? = some x ∧ x + 2500 ≤ (s.at t).now) ∧
    (∃ (s : State) (t : Nat) (r : Nat), r < 8 ∧ (s.region r).ready = true ∧ (s.region r).failed = false ∧ 5 ≤ s.time.step ∧ s.coreRuns = true ∧
        (∀ x ∈ (s.region r).dogs, x + 250000000 ≤ (s.at t).now)) ∧
    (∃ (s : State) (t : Nat) (r : Nat), r < 8 ∧ (s.region r).ready = true ∧ (s.region r).failed = false ∧ 5 ≤ s.time.step ∧ s.coreRuns = true ∧
        (∃ x ∈ (s.region r).dogs, (s.at t).now < x + 250000000)) ∧
    (∃ (s : State) (r : Nat), r < 8 ∧ (s.region r).ready = false ∧ (s.region r).fwFail = false ∧ s.coreRuns = true ∧ s.outPending r = false) ∧
    (∃ (s : State) (r : Nat) (ed : Bool) (ml : Bool), r < 8 ∧ (s.region r).ready = false ∧ (s.region r).fwFail = false ∧ s.coreRuns = true ∧
        s.outPending r = false ∧ (ed = false ∨ ml = false)) ∧
    (∃ (s : State) (r : Nat), r < 8 ∧ (s.region r).fwFail = true) ∧
    (∃ (s : State) (t : Nat) (r : Nat), r < 8 ∧ (s.region r).ready = false ∧ (s.region r).failed = false ∧ s.coreRuns = true ∧
        ((s.region r).fwFail = true ∨ (s.region r).restartFrom + 1250000 ≤ (s.at t).now)) ∧
    (∃ (s : State) (t : Nat) (r : Nat), r < 8 ∧ (s.region r).failed = true ∧ s.coreRuns = true ∧ (s.region r).restartFrom + 2500000000 ≤ (s.at t).now) ∧
    (∃ (s : State) (t : Nat), s.coreRuns = true ∧ 5 ≤ s.time.step ∧ 3 ≤ (s.chip.dogs.filter (fun x => decide ((s.at t).now < x + 2500000000))).length) ∧
    (∃ (s : State) (t : Nat), s.coreRuns = true ∧ 5 ≤ s.time.step ∧
        (s.chip.dogs.filter (fun x => decide ((s.at t).now < x + 2500000000))).length < 3 ∧
        (∀ x ∈ (s.chip.dogs.filter (fun x => decide ((s.at t).now < x + 2500000000))), x + 250000000 ≤ (s.at t).now)) ∧
    (∃ (s : State) (t : Nat), s.coreRuns = true ∧ 5 ≤ s.time.step ∧
        (s.chip.dogs.filter (fun x => decide ((s.at t).now < x + 2500000000))).length < 3 ∧
        (∃ x ∈ (s.chip.dogs.filter (fun x => decide ((s.at t).now < x + 2500000000))), (s.at t).now < x + 250000000)) ∧
    (∃ (s : State), s.chip.restarting = true) ∧
    (∃ (s : State), s.chip.restarting = false) ∧
    (∃ (s : State) (k : Nat) (mv : Int), k < 3 ∧ s.time.done = true ∧ supplyOk k mv = false ∧ bit s.mon.supplyBad k = false) ∧
    (∃ (s : State) (k : Nat) (mv : Int), k < 3 ∧ s.mon.supplyOut = true ∧ supplyOk k mv = true ∧ s.mon.supplyBad = 2 ^ k) ∧
    (∃ (s : State) (k : Nat) (mv : Int), k < 3 ∧ s.mon.supplyOut = true ∧ supplyOk k mv = true ∧ bit s.mon.supplyBad k = true ∧
        s.mon.supplyBad ≠ 2 ^ k) :=
  ⟨⟨ready, 63, by decide +kernel⟩,
   ⟨allRestart ready, 63, by decide +kernel⟩,
   ⟨{ ready with til := { blocks := [(63, { recoveries := [800, 900] })] } }, 0, 63, by decide +kernel⟩,
   ⟨{ ready with til := { blocks := [(63, { recoveries := [800] })] }, time := { ready.time with timebase := 3300 } }, 0, 63, 800, by decide +kernel⟩,
   ⟨ready, 0, 7, by decide +kernel⟩,
   ⟨{ ready with til := { regions := [(7, { dogs := [900] })] } }, 0, 7, by decide +kernel⟩,
   ⟨{ ready with til := { regions := [(7, { ready := false })] } }, 7, by decide +kernel⟩,
   ⟨{ ready with til := { regions := [(7, { ready := false })] } }, 7, true, false, by decide +kernel⟩,
   ⟨{ ready with til := { regions := [(7, { ready := false, fwFail := true })] } }, 7, by decide +kernel⟩,
   ⟨{ ready with til := { regions := [(7, { ready := false, fwFail := true })] } }, 0, 7, by decide +kernel⟩,
   ⟨{ ready with til := { regions := [(7, { failed := true, restartFrom := 1000 })] }, time := { ready.time with timebase := 2500001000 } }, 0, 7,
        by decide +kernel⟩,
   ⟨{ ready with chip := { ready.chip with dogs := [800, 900, 950] } }, 0, by decide +kernel⟩,
   ⟨ready, 0, by decide +kernel⟩,
   ⟨{ ready with chip := { ready.chip with dogs := [900] } }, 0, by decide +kernel⟩,
   ⟨{ ready with chip := { ready.chip with restarting := true } }, by decide +kernel⟩,
   ⟨ready, by decide +kernel⟩,
   ⟨ready, 2, 4075, by decide +kernel⟩,
   ⟨{ ready with mon := { supplyOut := true, supplyBad := 4 } }, 2, 4116, by decide +kernel⟩,
   ⟨{ ready with mon := { supplyOut := true, supplyBad := 6 } }, 2, 4116, by decide +kernel⟩⟩

theorem meets_RegisterRowsComplete :
    (∃ (s : State) (t : Nat) (off : _), (s.at t).hostUp = true ∧ off % 4 = 0) ∧
    (∃ (s : State) (t : Nat) (off : _) (w : _), (w ≠ 4 ∨ off % 4 ≠ 0 ∨ (s.at t).hostUp = false)) ∧
    (∃ (s : State) (t : Nat) (v : Word), (s.at t).hostUp = true ∧ 1 ≤ bits v.toNat 0 5 ∧ bits v.toNat 0 5 ≤ 16) ∧
    (∃ (s : State) (t : Nat), (s.at t).hostUp = true) ∧
    (∃ (s : State) (t : Nat), (s.at t).hostUp = true ∧ s.host.me.enable = false ∧ Tbl.wf 0 s.host.loHold = true) ∧
    (∃ (s : State) (t : Nat) (off : _), (s.at t).hostUp = true ∧ off % 4 = 0 ∧ (off < 4 ∨ isLo (off - 4) = false) ∧ isLo off = false) ∧
    (∃ (s : State) (t : Nat) (off : Nat) (u : State), (s.at t).hostUp = true ∧ off % 4 = 0 ∧ (off < 4 ∨ isLo (off - 4) = false) ∧ isLo off = true ∧
        u = ((s.at t).regNow off).1) ∧
    (∃ (s : State) (t : Nat) (off : _), (s.at t).hostUp = true ∧ off % 4 = 0 ∧ 4 ≤ off ∧ isLo (off - 4) = true) ∧
    (∃ (s : State) (t : Nat) (off : _), (s.at t).hostUp = true ∧ off % 4 ≠ 0) ∧
    (∃ (s : State) (t : Nat) (ad : _) (data : Bytes), (s.at t).spiUp = true ∧ data.length % 4 = 0 ∧ data ≠ [] ∧ s.inArea ad data.length = true) ∧
    (∃ (s : State) (t : Nat) (ad : _) (data : Bytes), (s.at t).spiUp = true ∧ data.length % 4 = 0 ∧ data ≠ [] ∧ s.inArea ad data.length = false) ∧
    (∃ (s : State) (t : Nat) (ad : _) (n : _), (s.at t).spiUp = true ∧ s.inArea ad n = true) ∧
    (∃ (s : State) (t : Nat) (ad : _) (n : _), (s.at t).spiUp = true ∧ s.inArea ad n = false) ∧
    (∃ (s : State) (t : Nat) (off : _), (s.at t).spiUp = true ∧ off % 4 = 0) ∧
    (∃ (s : State) (t : Nat) (off : Nat) (data : Bytes), (s.at t).spiUp = true ∧ off ≠ 0 ∧ data.length = 4) ∧
    (∃ (s : State) (t : Nat) (data : Bytes), (s.at t).spiUp = true ∧ data.length = 8) ∧
    (∃ (s : State) (t : Nat), (s.at t).spiUp = true) :=
  ⟨⟨ready, 0, 0x4C, by decide +kernel⟩,
   ⟨ready, 0, 0x4C, 2, by decide +kernel⟩,
   ⟨ready, 0, 16#32, by decide +kernel⟩,
   ⟨ready, 0, by decide +kernel⟩,
   ⟨ready, 0, by decide +kernel⟩,
   ⟨ready, 0, 0x44, by decide +kernel⟩,
   ⟨ready, 0, 0x1010, _, by decide +kernel, by decide +kernel, by decide +kernel, by decide +kernel, rfl⟩,
   ⟨ready, 0, 0x1014, by decide +kernel⟩,
   ⟨ready, 0, 0x1015, by decide +kernel⟩,
   ⟨{ ready with time := { ready.time with localMode := true } }, 0, ready.area.1, [1, 2, 3, 4], by decide +kernel⟩,
   ⟨{ ready with time := { ready.time with localMode := true } }, 0, 0, [1, 2, 3, 4], by decide +kernel⟩,
   ⟨{ ready with time := { ready.time with localMode := true } }, 0, ready.area.1 + ready.area.2 - 1, 1, by decide +kernel⟩,
   ⟨{ ready with time := { ready.time with localMode := true } }, 0, ready.area.1 + ready.area.2 - 1, 2, by decide +kernel⟩,
   ⟨{ ready with time := { ready.time with localMode := true } }, 0, 0x4C, by decide +kernel⟩,
   ⟨{ ready with time := { ready.time with localMode := true } }, 0, 0x4C, [1, 2, 3, 4], by decide +kernel⟩,
   ⟨{ ready with time := { ready.time with localMode := true } }, 0, [1, 2, 3, 4, 5, 6, 7, 8], by decide +kernel⟩,
   ⟨{ ready with time := { ready.time with localMode := true } }, 0, by decide +kernel⟩⟩

theorem meets_AbsentConvertersRejected :
    (∃ (s : State) (d : Desc) (a : Bytes), Judged s 0x0200 d a ∧ cfgBad a = none ∧ (s.at d.t).busyFor 0x0200 a = false ∧ 192 ≤ byteAt a 0) ∧
    (∃ (s : State) (d : Desc) (steps : _) (a : Bytes), Judged s 0x0201 d a ∧ firstBad a (rsv 2 6) = none ∧
        stepsBad (byteAt a 0) ((s.at d.t).seqBytes a steps) (min (byteAt a 1) 64) = none ∧ (s.at d.t).busyFor 0x0201 a = false ∧ 192 ≤ byteAt a 0) ∧
    (∃ (s : State) (d : Desc) (a : Bytes), Judged s 0x0203 d a ∧ sysMeasBad a = none ∧ (s.at d.t).busyFor 0x0203 a = false ∧ 192 ≤ byteAt a 0) ∧
    (∃ (s : State) (d : Desc) (a : Bytes), Judged s 0x0204 d a ∧ sysMeasBad a = none ∧ (s.at d.t).busyFor 0x0204 a = false ∧ 192 ≤ byteAt a 0) ∧
    (∃ (s : State) (d : Desc) (a : Bytes), Judged s 0x0205 d a ∧ firstBad a ((2, 0xF8) :: rsv 3 5) = none ∧ (s.at d.t).busyFor 0x0205 a = false ∧
        192 ≤ byteAt a 0) ∧
    (∃ (s : State) (d : Desc) (a : Bytes), Judged s 0x0002 d a ∧ firstBad a (rsv 1 1) = none ∧ (s.at d.t).busyFor 0x0002 a = false ∧ byteAt a 0 = 2 ∧
        192 ≤ fld a 2 2 ∧ fld a 2 2 ≤ 255) ∧
    (∃ (s : State) (d : Desc) (a : Bytes), Judged s 0x0400 d a ∧ firstBad a ((1,
        0xF8) :: rsv 4 4 ++ (if bit (byteAt a 1) 2 then [] else rsv 8 8)) = none ∧ (s.at d.t).busyFor 0x0400 a = false ∧ byteAt a 0 = 1 ∧
        192 ≤ fld a 2 2 ∧ fld a 2 2 ≤ 255) :=
  ⟨⟨ready, cmd 0x0200 (fill 16 [(0, 1, 192), (4, 4, 0)]), fill 16 [(0, 1, 192), (4, 4, 0)], by unfold Judged; decide +kernel⟩,
   ⟨ready, cmd 0x0201 (fill 16 [(0, 1, 255)]), [], fill 16 [(0, 1, 255)], by unfold Judged; decide +kernel⟩,
   ⟨ready, cmd 0x0203 (fill 16 [(0, 1, 192)]), fill 16 [(0, 1, 192)], by unfold Judged; decide +kernel⟩,
   ⟨ready, cmd 0x0204 (fill 16 [(0, 1, 255)]), fill 16 [(0, 1, 255)], by unfold Judged; decide +kernel⟩,
   ⟨ready, cmd 0x0205 (fill 8 [(0, 1, 192)]), fill 8 [(0, 1, 192)], by unfold Judged; decide +kernel⟩,
   ⟨ready, cmd 2 (fill 16 [(0, 1, 2), (2, 2, 192)]), fill 16 [(0, 1, 2), (2, 2, 192)], by unfold Judged; decide +kernel⟩,
   ⟨ready, cmd 0x0400 (fill 16 [(0, 1, 1), (2, 2, 255)]), fill 16 [(0, 1, 1), (2, 2, 255)], by unfold Judged; decide +kernel⟩⟩

end Sys2Proof.Tests
end

/-! PROOFS. No operation of the model touches the queue of the commands that wait: one lemma for each operation, in the order
of the model's files, on top of `Laws/Quiet.lean` and `Laws/State.lean`. -/

namespace Sys2Proof.Machine

/-! ### Rules for the shapes that operations are built from -/

@[simp] theorem ite_pending (c : Prop) [Decidable c] (a b : State) :
    (if c then a else b).pending = if c then a.pending else b.pending := apply_ite ..

@[simp] theorem ite_fst_pending {α : Type} (c : Prop) [Decidable c] (a b : State × α) :
    (if c then a else b).1.pending = if c then a.1.pending else b.1.pending := apply_ite (fun x : State × α => x.1.pending) ..

@[simp] theorem elim_pending {α : Type} (o : Option α) (s : State) (f : α → State) :
    (o.elim s f).pending = o.elim s.pending fun x => (f x).pending := by cases o <;> rfl

@[simp] theorem elim_const {α β : Type} (o : Option α) (b : β) : (o.elim b fun _ => b) = b := by cases o <;> rfl

/-- Every round of a fold leaves the queue as it was. -/
def KeepsQueue {α : Type} (f : State → α → State) : Prop := ∀ s x, (f s x).pending = s.pending

@[simp] theorem keepsQueue_iff {α : Type} (f : State → α → State) : KeepsQueue f ↔ ∀ s x, (f s x).pending = s.pending := .rfl

@[simp] theorem foldl_pending {α : Type} (f : State → α → State) (l : List α) (s : State) (hf : KeepsQueue f) :
    (l.foldl f s).pending = s.pending := by
  induction l generalizing s with
  | nil => rfl
  | cons x l ih => exact (ih _).trans (hf s x)

@[simp] theorem foldl_fst_pending {α β : Type} (f : State × β → α → State × β) (l : List α) (a : State × β)
    (hf : ∀ a x, (f a x).1.pending = a.1.pending) : (l.foldl f a).1.pending = a.1.pending := by
  induction l generalizing a with
  | nil => rfl
  | cons x l ih => exact (ih _).trans (hf a x)

/-! ### The operations of Machine/Ops.lean -/

@[simp] theorem State.tick_pending (s : State) : s.tick.pending = s.pending := by simp [State.tick]

@[simp] theorem State.fresh_pending (s : State) : s.fresh.2.pending = s.pending := by simp [State.fresh]

@[simp] theorem State.bumpRaw_pending (s : State) (u k n : Nat) : (s.bumpRaw u k n).1.pending = s.pending := by simp [State.bumpRaw]

@[simp] theorem State.meWrite_pending (s : State) (e : LogEntry) : (s.meWrite e).pending = s.pending := (meWrite_quiet s e).pending

@[simp] theorem State.logAll_pending (n : Nat) (l : List LogEntry) (s : State) :
    (State.logAll n l s).pending = s.pending := (logAll_quiet n l s).pending

@[simp] theorem State.final1_pending (s : State) (slot obj status r0 r1 : Nat) :
    (s.final1 slot obj status r0 r1).pending = s.pending := (final1_quiet s slot obj status r0 r1).pending

@[simp] theorem State.finalWaiters_pending (n slot status : Nat) (s : State) :
    (State.finalWaiters n slot status s).pending = s.pending := (finalWaiters_quiet n slot status s).pending

@[simp] theorem State.countSysFail_pending (s : State) (slot status : Nat) :
    (s.countSysFail slot status).pending = s.pending := (countSysFail_quiet s slot status).pending

@[simp] theorem State.progress_pending (s : State) (slot r1 : Nat) : (s.progress slot r1).pending = s.pending := by simp [State.progress]

@[simp] theorem State.dispatch_pending (s0 : State) (op : Nat) (d0 : Desc) (bad : Bytes → Option Nat) (pre : State → Bytes → Option Nat) :
    (s0.dispatch op d0 bad pre).1.pending = s0.pending := by
  unfold State.dispatch
  dsimp only
  (repeat' split) <;> simp

@[simp] theorem State.command_pending (s : State) (op : Nat) (d : Desc) (bad : Bytes → Option Nat) (pre : State → Bytes → Option Nat)
    (body : Nat → Bytes → State → State)
    (hb : ∀ slot a s, (body slot a s).pending = s.pending) :
    (s.command op d bad pre body).pending = s.pending := by
  have hd := s.dispatch_pending op d bad pre
  unfold State.command
  split <;> simp_all

@[simp] theorem State.onRegion_pending (s : State) (r slot : Nat) (cmd : Instr) (body : State → State) (hb : ∀ s, (body s).pending = s.pending) :
    (s.onRegion r slot cmd body).pending = s.pending := by simp [State.onRegion, hb]

@[simp] theorem State.onRegions_pending (s : State) (rs : List Nat) (slot : Nat) (cmd : Instr) (body : State → State)
    (hb : ∀ s, (body s).pending = s.pending) :
    (s.onRegions rs slot cmd body).pending = s.pending := by
  unfold State.onRegions
  (repeat' split) <;> simp [hb]

/-! ### The operations of Machine/Frames.lean -/

@[simp] theorem State.forceGuards_pending (s : State) : s.forceGuards.pending = s.pending := by simp [State.forceGuards]

@[simp] theorem State.clearGuarded_pending (s : State) (p : Nat → Bool) : (s.clearGuarded p).pending = s.pending := by simp [State.clearGuarded]

@[simp] theorem State.initFFs_pending (s : State) (r : Nat) : (s.initFFs r).pending = s.pending := by simp [State.initFFs]

/-! ### The operations of Machine/Logic.lean -/

@[simp] theorem State.asyncResets_pending (high : List (Nat × Nat)) (n : Nat) (s : State) : (State.asyncResets high n s).pending = s.pending := by
  induction n generalizing s with
  | zero => rfl
  | succ n ih => unfold State.asyncResets; split <;> simp [ih]

@[simp] theorem State.clockEdge_pending (s : State) (g : Nat) (high : List (Nat × Nat)) :
    (s.clockEdge g high).pending = s.pending := by simp [State.clockEdge]

/-! ### The operations of Machine/Ledger.lean -/

@[simp] theorem State.updLeds_pending (s : State) (ns : List Nat) (f : Nat → Led → Led) :
    (s.updLeds ns f).pending = s.pending := by simp [State.updLeds]

@[simp] theorem State.quarantineCell_pending (s : State) (n : Nat) : (s.quarantineCell n).pending = s.pending := by simp [State.quarantineCell]

@[simp] theorem State.markCell_pending (s : State) (n state owner : Nat) (valid : Bool) :
    (s.markCell n state owner valid).pending = s.pending := by simp [State.markCell]

@[simp] theorem State.activatePair_pending (s : State) (n i : Nat) : (s.activatePair n i).pending = s.pending := by simp [State.activatePair]

@[simp] theorem State.choosePair_pending (s : State) (n : Nat) : (s.choosePair n).pending = s.pending := by
  unfold State.choosePair
  split <;> simp

@[simp] theorem State.restandCaps_pending (s : State) (n lo key : Nat) (on : Bool) :
    (s.restandCaps n lo key on).pending = s.pending := by simp [State.restandCaps]

@[simp] theorem State.restandSegs_pending (s : State) (n : Nat) (on : Bool) : (s.restandSegs n on).pending = s.pending := by
  unfold State.restandSegs
  refine foldl_pending _ _ _ fun s x => ?_
  (repeat' split) <;> simp

@[simp] theorem State.restandSwitches_pending (s : State) (n : Nat) (on : Bool) : (s.restandSwitches n on).pending = s.pending := by
  unfold State.restandSwitches
  rw [State.updLeds_pending]
  exact foldl_pending _ _ _ fun s x => by dsimp only; split <;> simp

@[simp] theorem State.restand_pending (s : State) (n : Nat) (on : Bool) : (s.restand n on).pending = s.pending := by simp [State.restand]

@[simp] theorem State.setPortSeg_pending (s : State) (n port seg : Nat) : (s.setPortSeg n port seg).pending = s.pending := by simp [State.setPortSeg]

@[simp] theorem State.openSwitches_pending (s : State) (n : Nat) : (s.openSwitches n).pending = s.pending := by simp [State.openSwitches]

@[simp] theorem State.freeCell_pending (s : State) (n : Nat) : (s.freeCell n).pending = s.pending := by simp [State.freeCell]

@[simp] theorem State.takeCell_pending (s : State) (n slot prim bias : Nat) (dest valid : Bool) :
    (s.takeCell n slot prim bias dest valid).pending = s.pending := by simp [State.takeCell]

@[simp] theorem State.spareCell_pending (s : State) (n : Nat) (owner : Option Nat) : (s.spareCell n owner).pending = s.pending := by
  unfold State.spareCell
  split <;> simp

@[simp] theorem State.configCell_pending (s : State) (n : Nat) (conf : List Nat) :
    (s.configCell n conf).pending = s.pending := by simp [State.configCell]

@[simp] theorem State.controls_pending (s : State) (g : Graph) : (s.controls g).pending = s.pending := by simp [State.controls]

@[simp] theorem State.setCtl_pending (s : State) (code : Nat) (level : Bool) : (s.setCtl code level).pending = s.pending := by simp [State.setCtl]

@[simp] theorem State.takeSeg_pending (s : State) (k slot net : Nat) (valid : Bool) :
    (s.takeSeg k slot net valid).pending = s.pending := by simp [State.takeSeg]

@[simp] theorem State.freeSeg_pending (s : State) (k : Nat) : (s.freeSeg k).pending = s.pending := by simp [State.freeSeg]

@[simp] theorem State.freeNets_pending (s : State) (g : Graph) : (s.freeNets g).pending = s.pending := by simp [State.freeNets]

@[simp] theorem State.joinPorts_pending (s : State) (g : Graph) (i : Nat) : (s.joinPorts g i).pending = s.pending := by simp [State.joinPorts]

@[simp] theorem State.takeRoutes_pending (s : State) (slot : Nat) (rs : List (Nat × List Nat)) (valid : Bool) :
    (s.takeRoutes slot rs valid).pending = s.pending := by simp [State.takeRoutes]

@[simp] theorem State.takeNets_pending (s : State) (g : Graph) (slot : Nat) (valid : Bool) :
    (s.takeNets g slot valid).pending = s.pending := by simp [State.takeNets]

/-! ### The operations of Machine/ConvOps.lean -/

@[simp] theorem State.setDueFlag_pending (s : State) (kind idx : Nat) (v : Bool) : (s.setDueFlag kind idx v).pending = s.pending := by
  unfold State.setDueFlag
  split <;> simp

@[simp] theorem State.makeDue_pending (s : State) (kind idx0 : Nat) (temp : Int) (move : Nat) (cmds : List Nat) :
    (s.makeDue kind idx0 temp move cmds).pending = s.pending := by simp [State.makeDue]

@[simp] theorem State.reportCals_pending (s : State) (slot : Nat) : (s.reportCals slot).pending = s.pending := by simp [State.reportCals]

@[simp] theorem State.calEnded_pending (s : State) (slot done failed : Nat) : (s.calEnded slot done failed).pending = s.pending := by
  unfold State.calEnded
  split <;> simp

@[simp] theorem State.dropRun_pending (s : State) (kind idx0 : Nat) : (s.dropRun kind idx0).pending = s.pending := by
  unfold State.dropRun
  dsimp only
  split <;> simp

@[simp] theorem State.forgetCal_pending (s : State) (kind idx0 : Nat) : (s.forgetCal kind idx0).pending = s.pending := by simp [State.forgetCal]

@[simp] theorem State.writeRanks_pending (s : State) (n j : Nat) (r : CalApply) :
    (s.writeRanks n j r).pending = s.pending := by simp [State.writeRanks]

@[simp] theorem State.markCal_pending (s : State) (c : Nat) (marks : List Nat) : (s.markCal c marks).pending = s.pending := by simp [State.markCal]

@[simp] theorem State.staleSets_pending (s : State) (c entry slot : Nat) : (s.staleSets c entry slot).pending = s.pending := by simp [State.staleSets]

@[simp] theorem State.takeTaps_pending (s : State) (slot : Nat) (taps : List (Nat × Nat × Nat)) :
    (s.takeTaps slot taps).pending = s.pending := by simp [State.takeTaps]

@[simp] theorem State.settleConv_pending (s : State) (c : Nat) (a : Nat × Nat) : (s.settleConv c a).pending = s.pending := by
  unfold State.settleConv
  dsimp only
  split <;> simp

@[simp] theorem State.swapPlaces_pending (s : State) (slot i : Nat) (d : PlaceP) (held : List (Nat × List Nat)) :
    (s.swapPlaces slot i d held).pending = s.pending := by
  unfold State.swapPlaces
  split <;> simp

@[simp] theorem State.configPrim_pending (s : State) (p : Prim) : (s.configPrim p).pending = s.pending := by simp [State.configPrim]

@[simp] theorem State.applyNext_pending (s : State) (slot i : Nat) : (s.applyNext slot i).pending = s.pending := by
  unfold State.applyNext
  dsimp only
  (repeat' split) <;> simp

@[simp] theorem State.writeSetting_pending (s : State) (n : Nat) (e : Nat × Int) : (s.writeSetting n e).pending = s.pending := by
  unfold State.writeSetting
  dsimp only
  (repeat' split) <;> simp

@[simp] theorem State.applyCell_pending (s : State) (n : Nat) : (s.applyCell n).pending = s.pending := by
  unfold State.applyCell
  dsimp only
  (repeat' split) <;> simp

@[simp] theorem State.dropNext_pending (s : State) (gs : Nat) : (s.dropNext gs).pending = s.pending := by
  unfold State.dropNext
  split <;> simp

@[simp] theorem State.revertGraph_pending (s0 : State) (gs : Nat) : (s0.revertGraph gs).pending = s0.pending := by
  unfold State.revertGraph
  dsimp only
  (repeat' split) <;> simp

@[simp] theorem State.endTunes_pending (s : State) : s.endTunes.pending = s.pending := by
  unfold State.endTunes
  refine foldl_pending _ _ _ fun s x => ?_
  (repeat' split) <;> simp

@[simp] theorem State.applyCells_pending (s : State) (ns : List Nat) : (s.applyCells ns).pending = s.pending := by simp [State.applyCells]

@[simp] theorem State.stage_pending (s : State) (n : Nat) (vs : List (Nat × Int)) (cal : Bool) (settle : Option (Nat × Nat)) :
    (s.stage n vs cal settle).pending = s.pending := by simp [State.stage]

@[simp] theorem State.feedMeas_pending (s : State) (c : Nat) (e : SeqStep) (x : Int) (f : Flg) :
    (s.feedMeas c e x f).pending = s.pending := by simp [State.feedMeas]

@[simp] theorem State.sendRecord_pending (s : State) (c val flags ts : Nat) :
    (s.sendRecord c val flags ts).1.pending = s.pending := by simp [State.sendRecord]

@[simp] theorem State.deliver_pending (s : State) (c t : Nat) (e : SeqStep) (main comp : Int) :
    (s.deliver c t e main comp).1.pending = s.pending := by simp [State.deliver]

/-! ### The operations of Machine/Spares.lean -/

@[simp] theorem State.giveUp_pending (s : State) (t : Test) : (s.giveUp t).pending = s.pending := by
  unfold State.giveUp
  split <;> simp

@[simp] theorem State.yieldWhere_pending (s : State) (r why : Nat) (hit : Test → Bool) :
    (s.yieldWhere r why hit).pending = s.pending := by simp [State.yieldWhere]

@[simp] theorem State.yieldTest_pending (s : State) (r why : Nat) : (s.yieldTest r why).pending = s.pending := by simp [State.yieldTest]

@[simp] theorem State.yieldCell_pending (s : State) (n why : Nat) : (s.yieldCell n why).pending = s.pending := by simp [State.yieldCell]

@[simp] theorem State.yieldConv_pending (s : State) (c why : Nat) : (s.yieldConv c why).pending = s.pending := by simp [State.yieldConv]

@[simp] theorem State.yieldSegs_pending (s : State) (ks : List Nat) (why : Nat) :
    (s.yieldSegs ks why).pending = s.pending := by simp [State.yieldSegs]

@[simp] theorem State.fillPool_pending (n y0 : Nat) (s : State) : (State.fillPool n y0 s).pending = s.pending := by
  induction n generalizing s with
  | zero => rfl
  | succ n ih => unfold State.fillPool; dsimp only; (repeat' split) <;> simp [ih]

@[simp] theorem State.refill_pending (s : State) (r : Nat) : (s.refill r).pending = s.pending := by simp [State.refill]

@[simp] theorem State.shrinkPool_pending (n y0 y1 : Nat) (s : State) : (State.shrinkPool n y0 y1 s).pending = s.pending := by
  induction n generalizing s with
  | zero => rfl
  | succ n ih => unfold State.shrinkPool; dsimp only; (repeat' split) <;> simp [ih]

@[simp] theorem State.setSpares_pending (s : State) (slot : Nat) (f : List Nat → List Nat) :
    (s.setSpares slot f).pending = s.pending := by simp [State.setSpares]

@[simp] theorem State.reserveCell_pending (s : State) (slot n : Nat) : (s.reserveCell slot n).pending = s.pending := by simp [State.reserveCell]

@[simp] theorem State.refillGraph_pending (s : State) (slot : Nat) : (s.refillGraph slot).pending = s.pending := by
  unfold State.refillGraph
  dsimp only
  (repeat' split) <;> simp

@[simp] theorem State.restock_pending (s : State) : s.restock.pending = s.pending := by simp [State.restock]

@[simp] theorem State.giveBack_pending (s : State) (slot : Nat) (cells : List Nat) : (s.giveBack slot cells).pending = s.pending := by
  unfold State.giveBack
  dsimp only
  split <;> simp

/-! ### The operations of Machine/MoveOps.lean -/

@[simp] theorem State.reevalBy_pending (s : State) (slot : Nat) (mine : SpecRec → Bool) (meas : Measured) :
    (s.reevalBy slot mine meas).pending = s.pending := by
  unfold State.reevalBy
  split <;> simp

@[simp] theorem State.reeval_pending (s : State) (slot i : Nat) (meas : Measured) :
    (s.reeval slot i meas).pending = s.pending := by simp [State.reeval]

@[simp] theorem State.setMoves_pending (s : State) (l : List Move) : (s.setMoves l).pending = s.pending := by simp [State.setMoves]

@[simp] theorem State.dropMove_pending (s : State) (m : Move) : (s.dropMove m).pending = s.pending := by simp [State.dropMove]

@[simp] theorem State.setMove_pending (s : State) (slot i : Nat) (m : Option Move) :
    (s.setMove slot i m).pending = s.pending := by simp [State.setMove]

@[simp] theorem State.releaseLoops_pending (s : State) (m : Move) (g : Graph) :
    (s.releaseLoops m g).pending = s.pending := by simp [State.releaseLoops]

@[simp] theorem State.setFrozen_pending (s : State) (cells : List Nat) (v : Bool) :
    (s.setFrozen cells v).pending = s.pending := by simp [State.setFrozen]

@[simp] theorem State.dropTracks_pending (s : State) (slot : Nat) (nets : List (Nat × List Nat)) :
    (s.dropTracks slot nets).pending = s.pending := by simp [State.dropTracks]

@[simp] theorem State.clearTp_pending (s : State) (slot i : Nat) (g : Graph) : (s.clearTp slot i g).pending = s.pending := by simp [State.clearTp]

@[simp] theorem State.leaveMove_pending (s : State) (m : Move) : (s.leaveMove m).pending = s.pending := by
  unfold State.leaveMove
  split <;> simp

@[simp] theorem State.withdraw_pending (s : State) (m : Move) : (s.withdraw m).pending = s.pending := by simp [State.withdraw]

@[simp] theorem State.failTune_pending (s : State) (m : Move) : (s.failTune m).pending = s.pending := by
  unfold State.failTune
  dsimp only
  (repeat' split) <;> simp

@[simp] theorem State.endCmd_pending (s : State) (m : Move) (status r0 reason : Nat) : (s.endCmd m status r0 reason).pending = s.pending := by
  unfold State.endCmd
  split <;> simp

@[simp] theorem State.abandonMove_pending (s : State) (m : Move) (status reason : Nat) :
    (s.abandonMove m status reason).pending = s.pending := by simp [State.abandonMove]

@[simp] theorem State.requeue_pending (s : State) (m : Move) : (s.requeue m).pending = s.pending := by simp [State.requeue]

@[simp] theorem State.abandonMoves_pending (s : State) (slot status reason : Nat) :
    (s.abandonMoves slot status reason).pending = s.pending := by simp [State.abandonMoves]

@[simp] theorem State.startMove_pending (s : State) (m : Move) (g : Graph) (d : PlaceP) :
    (s.startMove m g d).pending = s.pending := by simp [State.startMove]

@[simp] theorem State.skipMove_pending (s : State) (m : Move) (g : Graph) : (s.skipMove m g).pending = s.pending := by simp [State.skipMove]

@[simp] theorem State.pumpMoves_pending (s : State) : s.pumpMoves.pending = s.pending := by
  unfold State.pumpMoves
  refine foldl_pending _ _ _ fun s x => ?_
  (repeat' split) <;> simp

@[simp] theorem State.planMove_pending (s : State) (m : Move) : (s.planMove m).pending = s.pending := by simp [State.planMove]

@[simp] theorem State.setSwitch_pending (s : State) (k : Nat) (closed : Bool) :
    (s.setSwitch k closed).pending = s.pending := by simp [State.setSwitch]

@[simp] theorem State.startFade_pending (s : State) (c : Nat) (m : Move) (g : Graph) : (s.startFade c m g).pending = s.pending := by
  unfold State.startFade
  dsimp only
  split <;> simp

@[simp] theorem State.startHandover_pending (s : State) (m : Move) (g : Graph) :
    (s.startHandover m g).pending = s.pending := by simp [State.startHandover]

@[simp] theorem State.tuneSettles_pending (s : State) (m : Move) (g : Graph) (a : Prim → Nat × Nat) (convs : List Nat) :
    (s.tuneSettles m g a convs).pending = s.pending := by simp [State.tuneSettles]

@[simp] theorem State.crossAt_pending (s : State) (c : Option Nat) : (s.crossAt c).pending = s.pending := by
  unfold State.crossAt
  refine foldl_pending _ _ _ fun s x => ?_
  (repeat' split) <;> simp

@[simp] theorem State.queueRepair_pending (s : State) (q : Repair) (r : Nat) : (s.queueRepair q r).pending = s.pending := by simp [State.queueRepair]

@[simp] theorem State.retryStranded_pending (s : State) : s.retryStranded.pending = s.pending := by
  unfold State.retryStranded
  refine foldl_pending _ _ _ fun s x => ?_
  (repeat' split) <;> simp

@[simp] theorem State.pinBack_pending (s : State) : s.pinBack.pending = s.pending := by simp [State.pinBack]

@[simp] theorem State.cellsFreed_pending (s : State) : s.cellsFreed.pending = s.pending := by simp [State.cellsFreed]

/-! ### The operations of Machine/Placement.lean -/

@[simp] theorem State.dropGraph_pending (s : State) (slot : Nat) : (s.dropGraph slot).pending = s.pending := by simp [State.dropGraph]

@[simp] theorem State.parseHead_pending (n : Nat) (s : State) : (State.parseHead n s).pending = s.pending := by
  induction n generalizing s with
  | zero => rfl
  | succ n ih => unfold State.parseHead; dsimp only; (repeat' split) <;> simp [ih]

@[simp] theorem State.parseNext_pending (s : State) : s.parseNext.pending = s.pending := by simp [State.parseNext]

@[simp] theorem State.claim_pending (s : State) (slot : Nat) (g0 : Graph) : (s.claim slot g0).pending = s.pending := by simp [State.claim]

@[simp] theorem State.unclaim_pending (s : State) (g : Graph) : (s.unclaim g).pending = s.pending := by simp [State.unclaim]

@[simp] theorem State.stopPlace_pending (s : State) (slot status r0 r1 : Nat) : (s.stopPlace slot status r0 r1).pending = s.pending := by
  unfold State.stopPlace
  split <;> simp

@[simp] theorem State.finishPlace_pending (s : State) (slot : Nat) (g0 : Graph) (outcome : Nat) :
    (s.finishPlace slot g0 outcome).pending = s.pending := by simp [State.finishPlace]

@[simp] theorem bodyGraphPlace_pending (image : Bytes) (slot : Nat) (a : Bytes) (s : State) :
    (bodyGraphPlace image slot a s).pending = s.pending := by simp [bodyGraphPlace]

@[simp] theorem State.noResource_pending (s : State) (slot : Nat) (g : Graph) :
    (s.noResource slot g).pending = s.pending := by simp [State.noResource]

@[simp] theorem State.builtCell_pending (s : State) (n : Nat) : (s.builtCell n).pending = s.pending := by simp [State.builtCell]

@[simp] theorem State.freeUses_pending (s : State) (gs : Nat) (segs : List Nat) : (s.freeUses gs segs).pending = s.pending := by simp [State.freeUses]

@[simp] theorem State.removeGraph_pending (s : State) (gs : Nat) : (s.removeGraph gs).pending = s.pending := by
  unfold State.removeGraph
  dsimp only
  split <;> simp

@[simp] theorem bodyGraphRemove_pending (cmd : Instr) (slot : Nat) (a : Bytes) (s : State) : (bodyGraphRemove cmd slot a s).pending = s.pending := by
  unfold bodyGraphRemove
  dsimp only
  split <;> simp

@[simp] theorem State.stageFunction_pending (s : State) (gs : Nat) (g new : Graph) (moved : List Nat) (i : Nat) :
    (s.stageFunction gs g new moved i).pending = s.pending := by
  unfold State.stageFunction
  split <;> simp

@[simp] theorem State.stageTune_pending (s : State) (gs : Nat) : (s.stageTune gs).pending = s.pending := by
  unfold State.stageTune
  split <;> simp

@[simp] theorem bodyGraphTune_pending (image : Bytes) (meas : Measured) (cmd : Instr) (slot : Nat) (a : Bytes) (s : State) :
    (bodyGraphTune image meas cmd slot a s).pending = s.pending := by
  unfold bodyGraphTune
  extract_lets gs len addr
  split
  · simp
  split
  · simp
  split
  · simp
  split
  · simp
  refine State.onRegions_pending _ _ _ _ _ fun s => ?_
  extract_lets touched new
  (repeat' split) <;> simp

@[simp] theorem State.endPins_pending (s : State) : s.endPins.pending = s.pending := by
  unfold State.endPins
  refine foldl_pending _ _ _ fun s x => ?_
  (repeat' split) <;> simp

@[simp] theorem bodyGraphPin_pending (pins : Bytes) (cmd : Instr) (slot : Nat) (a : Bytes) (s : State) :
    (bodyGraphPin pins cmd slot a s).pending = s.pending := by
  unfold bodyGraphPin
  dsimp only
  split <;> simp

@[simp] theorem bodyTransplant_pending (cmd : Instr) (slot : Nat) (a : Bytes) (s : State) : (bodyTransplant cmd slot a s).pending = s.pending := by
  unfold bodyTransplant
  dsimp only
  split <;> simp

@[simp] theorem State.resumeOne_pending (s : State) (slot : Nat) : (s.resumeOne slot).pending = s.pending := by
  unfold State.resumeOne
  dsimp only
  (repeat' split) <;> simp

@[simp] theorem State.resume_pending (s : State) : s.resume.pending = s.pending := by simp [State.resume]

@[simp] theorem bodyLedgerRead_pending (slot : Nat) (a : Bytes) (s : State) :
    (bodyLedgerRead slot a s).pending = s.pending := by simp [bodyLedgerRead]

/-! ### The operations of Machine/Conversion.lean -/

@[simp] theorem State.takeEffect_pending (s : State) (c : Nat) (w : Nat × Option ConvCfg × List SeqStep) (instant : Bool) :
    (s.takeEffect c w instant).pending = s.pending := by
  unfold State.takeEffect
  split <;> simp

@[simp] theorem State.queueConv_pending (s : State) (c slot : Nat) (g : Option ConvCfg) (steps : List SeqStep) :
    (s.queueConv c slot g steps).pending = s.pending := by simp [State.queueConv]

@[simp] theorem bodyConvConfig_pending (cmd : Instr) (slot : Nat) (a : Bytes) (s : State) :
    (bodyConvConfig cmd slot a s).pending = s.pending := by simp [bodyConvConfig]

@[simp] theorem bodySeqLoad_pending (steps : Bytes) (cmd : Instr) (slot : Nat) (a : Bytes) (s : State) :
    (bodySeqLoad steps cmd slot a s).pending = s.pending := by simp [bodySeqLoad]

@[simp] theorem State.acceptTrig_pending (s : State) (c : Nat) : (s.acceptTrig c).1.pending = s.pending := by
  unfold State.acceptTrig
  dsimp only
  (repeat' split) <;> simp

@[simp] theorem State.clearSource_pending (s : State) (kind : Nat) (hit : Nat → Bool) :
    (s.clearSource kind hit).pending = s.pending := by simp [State.clearSource]

@[simp] theorem bodyTrigger_pending (slot : Nat) (a : Bytes) (s : State) : (bodyTrigger slot a s).pending = s.pending := by simp [bodyTrigger]

@[simp] theorem State.dropMeas_pending (s : State) (c slot : Nat) : (s.dropMeas c slot).pending = s.pending := by simp [State.dropMeas]

@[simp] theorem bodySyscal_pending (full : Bool) (cmd : Instr) (slot : Nat) (a : Bytes) (s : State) :
    (bodySyscal full cmd slot a s).pending = s.pending := by simp [bodySyscal]

@[simp] theorem State.logLocked_pending (s : State) : s.logLocked.pending = s.pending := by simp [State.logLocked]

@[simp] theorem State.storeSys_pending (s : State) (i : Nat) (b : Option Bytes) : (s.storeSys i b).pending = s.pending := by simp [State.storeSys]

@[simp] theorem State.sysClear_pending (s : State) (c entry : Nat) : (s.sysClear c entry).pending = s.pending := by
  unfold State.sysClear
  extract_lets v s0 s1
  have h1 : s1.pending = s.pending := by simp [s1, s0]
  split <;> simp [h1]

@[simp] theorem State.sysUse_pending (s : State) (c entry gcode g : Nat) (off : Int) (apply store : Bool) :
    (s.sysUse c entry gcode g off apply store).pending = s.pending := by simp [State.sysUse]

@[simp] theorem State.sysKeep_pending (s : State) (c entry gcode g : Nat) (off : Int) (apply store : Bool) (pos : Option Nat) :
    (s.sysKeep c entry gcode g off apply store pos).pending = s.pending := by
  unfold State.sysKeep
  split <;> simp

@[simp] theorem State.sysCommit_pending (slot : Nat) (a : Bytes) (s : State) : (State.sysCommit slot a s).pending = s.pending := by
  unfold State.sysCommit
  dsimp only
  (repeat' split) <;> simp

@[simp] theorem bodySysCommit_pending (cmd : Instr) (slot : Nat) (a : Bytes) (s : State) :
    (bodySysCommit cmd slot a s).pending = s.pending := by simp [bodySysCommit]

@[simp] theorem State.endStep_pending (s : State) (c : Nat) : (s.endStep c).pending = s.pending := by simp [State.endStep]

@[simp] theorem State.instant_pending (s : State) (c t : Nat) (main comp : Int) : (s.instant c t main comp).pending = s.pending := by
  unfold State.instant
  extract_lets v due start restarts v1 active next r src v2 s1
  have h1 : s1.pending = s.pending := by simp [s1]
  (repeat' split) <;> simp [h1]

@[simp] theorem State.applyCoef_pending (s : State) (c : Nat) : (s.applyCoef c).pending = s.pending := by simp [State.applyCoef]

@[simp] theorem State.applyStaged_pending (s : State) (ns : List Nat) : (s.applyStaged ns).pending = s.pending := by simp [State.applyStaged]

@[simp] theorem State.endInstant_pending (s : State) (c : Nat) : (s.endInstant c).pending = s.pending := by simp [State.endInstant]

/-! ### The operations of Machine/Calibration.lean -/

@[simp] theorem State.keepWrite_pending (s : State) (f : Keep → Keep) : (s.keepWrite f).pending = s.pending := by simp [State.keepWrite]

@[simp] theorem State.storeCal_pending (s : State) (kind idx : Nat) : (s.storeCal kind idx).pending = s.pending := by simp [State.storeCal]

@[simp] theorem State.updStatus_pending (s : State) (kind idx : Nat) (f : CalStatus → CalStatus) : (s.updStatus kind idx f).pending = s.pending := by
  unfold State.updStatus
  split <;> simp

@[simp] theorem State.ageCell_pending (s : State) (n : Nat) : (s.ageCell n).pending = s.pending := by simp [State.ageCell]

@[simp] theorem State.pumpRef_pending (s : State) : s.pumpRef.pending = s.pending := by
  unfold State.pumpRef
  split <;> simp

@[simp] theorem State.startRef_pending (s : State) (regions cmds : List Nat) (store : Bool) :
    (s.startRef regions cmds store).pending = s.pending := by simp [State.startRef]

@[simp] theorem State.runFailed_pending (s : State) (e : CalRun) (code : Nat) (res : CalResult) : (s.runFailed e code res).pending = s.pending := by
  unfold State.runFailed
  split <;> simp

@[simp] theorem State.pairMoved_pending (s : State) (n pair health : Nat) :
    (s.pairMoved n pair health).pending = s.pending := by simp [State.pairMoved]

@[simp] theorem State.cellResult_pending (s : State) (e : CalRun) (res : CalResult) : (s.cellResult e res).pending = s.pending := by
  unfold State.cellResult
  refine foldl_pending _ _ _ fun s x => ?_
  extract_lets n j q active apply s1 pairSet c sets
  have h1 : s1.pending = s.pending := by simp [s1]
  split <;> simp [h1]

@[simp] theorem State.convResult_pending (s : State) (e : CalRun) (res : CalResult) :
    (s.convResult e res).pending = s.pending := by simp [State.convResult]

@[simp] theorem State.dacResult_pending (s : State) (e : CalRun) (res : CalResult) :
    (s.dacResult e res).pending = s.pending := by simp [State.dacResult]

@[simp] theorem State.settled_pending (s : State) (kind idx : Nat) : (s.settled kind idx).pending = s.pending := by
  unfold State.settled
  split <;> simp

@[simp] theorem State.storeLater_pending (s : State) (kind idx : Nat) : (s.storeLater kind idx).pending = s.pending := by simp [State.storeLater]

@[simp] theorem State.storeRef_pending (s : State) : s.storeRef.pending = s.pending := by simp [State.storeRef]

@[simp] theorem State.storeResult_pending (s : State) (kind idx : Nat) : (s.storeResult kind idx).pending = s.pending := by simp [State.storeResult]

@[simp] theorem State.storeWaited_pending (s : State) : s.storeWaited.pending = s.pending := by simp [State.storeWaited]

@[simp] theorem State.tempDue_pending (s : State) (kind idx : Nat) : (s.tempDue kind idx).pending = s.pending := by simp [State.tempDue]

@[simp] theorem State.regionDue_pending (s : State) (r : Nat) : (s.regionDue r).pending = s.pending := by simp [State.regionDue]

@[simp] theorem State.allDue_pending (s : State) : s.allDue.pending = s.pending := by simp [State.allDue]

@[simp] theorem State.dropRuns_pending (s : State) (r : Nat) : (s.dropRuns r).pending = s.pending := by simp [State.dropRuns]

@[simp] theorem bodyCalRun_pending (cmd : Instr) (slot : Nat) (a : Bytes) (s : State) :
    (bodyCalRun cmd slot a s).pending = s.pending := by simp [bodyCalRun]

@[simp] theorem bodyCalPolicy_pending (slot : Nat) (a : Bytes) (s : State) : (bodyCalPolicy slot a s).pending = s.pending := by
  unfold bodyCalPolicy
  dsimp only
  (repeat' split) <;> simp

@[simp] theorem bodyCalRef_pending (slot : Nat) (a : Bytes) (s : State) : (bodyCalRef slot a s).pending = s.pending := by simp [bodyCalRef]

@[simp] theorem State.loadCell_pending (s : State) (n : Nat) : (s.loadCell n).pending = s.pending := by
  unfold State.loadCell
  split <;> simp

@[simp] theorem State.loadConv_pending (s : State) (c : Nat) : (s.loadConv c).pending = s.pending := by
  unfold State.loadConv
  dsimp only
  split <;> simp

@[simp] theorem State.loadDacCal_pending (s : State) (n : Nat) : (s.loadDacCal n).pending = s.pending := by
  unfold State.loadDacCal
  split <;> simp

@[simp] theorem State.loadSys_pending (s : State) : s.loadSys.pending = s.pending := by
  unfold State.loadSys
  refine foldl_pending _ _ _ fun s x => ?_
  (repeat' split) <;> simp

@[simp] theorem State.loadRecords_pending (s : State) : s.loadRecords.pending = s.pending := by simp [State.loadRecords]

@[simp] theorem State.loadKeep_pending (s : State) : s.loadKeep.pending = s.pending := by simp [State.loadKeep]

/-! ### The operations of Machine/Moves.lean -/

@[simp] theorem State.configDest_pending (s : State) (slot i : Nat) (d : PlaceP) : (s.configDest slot i d).pending = s.pending := by
  unfold State.configDest
  split <;> simp

@[simp] theorem State.joinDest_pending (s : State) (slot i : Nat) (d : PlaceP) (nets : List (Nat × List Nat)) :
    (s.joinDest slot i d nets).pending = s.pending := by
  unfold State.joinDest
  split <;> simp

@[simp] theorem State.trimDest_pending (s : State) (d : PlaceP) (trims : List (Nat × Int)) : (s.trimDest d trims).pending = s.pending := by
  unfold State.trimDest
  refine foldl_pending _ _ _ fun s x => ?_
  (repeat' split) <;> simp

@[simp] theorem State.dropHolds_pending (s : State) (cells : List Nat) : (s.dropHolds cells).pending = s.pending := by simp [State.dropHolds]

@[simp] theorem State.takePlace_pending (s : State) (m : Move) (g : Graph) : (s.takePlace m g).pending = s.pending := by simp [State.takePlace]

@[simp] theorem State.pumpTest_pending (s : State) (r : Nat) : (s.pumpTest r).pending = s.pending := by
  unfold State.pumpTest
  dsimp only
  (repeat' split) <;> simp

@[simp] theorem State.askTest_pending (s : State) (r : Nat) (q : Test) : (s.askTest r q).pending = s.pending := by simp [State.askTest]

@[simp] theorem State.endMove_pending (s : State) (m : Move) : (s.endMove m).pending = s.pending := by
  unfold State.endMove
  dsimp only
  split <;> simp

@[simp] theorem State.startHeld_pending (s : State) (slot i : Nat) (g : Graph) (on : Nat → Bool) (first : Nat) (fin : Option Nat) :
    (s.startHeld slot i g on first fin).pending = s.pending := by simp [State.startHeld]

@[simp] theorem State.isolate_pending (s : State) (cells : List Nat) (cmp : Bool) : (s.isolate cells cmp).pending = s.pending := by
  unfold State.isolate
  refine foldl_pending _ _ _ fun s n => ?_
  rw [State.setCell_pending]
  simp

@[simp] theorem State.takeRuns_pending (s : State) (cells : List Nat) : (s.takeRuns cells).1.pending = s.pending := by simp [State.takeRuns]

@[simp] theorem State.dropMoves_pending (s : State) (slot i : Nat) : (s.dropMoves slot i).pending = s.pending := by simp [State.dropMoves]

@[simp] theorem State.supersede_pending (s : State) (gs i : Nat) : (s.supersede gs i).pending = s.pending := by
  unfold State.supersede
  refine foldl_pending _ _ _ fun s x => ?_
  (repeat' split) <;> simp

@[simp] theorem State.settleLoop_pending (s : State) (m : Move) (toDest : Bool) (c : Nat) :
    (s.settleLoop m toDest c).pending = s.pending := by simp [State.settleLoop]

@[simp] theorem State.repairTakes_pending (s : State) (m : Move) (g : Graph) (q : Repair) :
    (s.repairTakes m g q).pending = s.pending := by simp [State.repairTakes]

@[simp] theorem State.faultFn_pending (s : State) (slot i : Nat) (g : Graph) (first : Nat) : (s.faultFn slot i g first).pending = s.pending := by
  unfold State.faultFn
  split <;> simp

@[simp] theorem State.faultMove_pending (s : State) (m : Move) (g : Graph) (first : Nat) :
    (s.faultMove m g first).pending = s.pending := by simp [State.faultMove]

@[simp] theorem State.faultRepair_pending (s : State) (r : Nat) (q : Repair) : (s.faultRepair r q).pending = s.pending := by simp [State.faultRepair]

@[simp] theorem State.faultDest_pending (s : State) (slot i n : Nat) (g : Graph) (first : Nat) :
    (s.faultDest slot i n g first).pending = s.pending := by
  unfold State.faultDest
  (repeat' split) <;> simp

@[simp] theorem State.faultCell_pending (s : State) (n monitor first : Nat) : (s.faultCell n monitor first).pending = s.pending := by
  unfold State.faultCell
  dsimp only
  (repeat' split) <;> simp

@[simp] theorem State.setRepair_pending (s : State) (r : Nat) (q : Option Repair) : (s.setRepair r q).pending = s.pending := by simp [State.setRepair]

@[simp] theorem State.placeRepair_pending (s : State) (q : Repair) (g : Graph) (d : PlaceP) :
    (s.placeRepair q g d).1.pending = s.pending := by simp [State.placeRepair]

@[simp] theorem State.strand_pending (s : State) (q : Repair) (g : Graph) : (s.strand q g).pending = s.pending := by simp [State.strand]

@[simp] theorem State.repairStep_pending (s : State) (r step next : Nat) (f : Repair → PlaceP → State → State)
    (hf : ∀ x y z, (f x y z).pending = z.pending) :
    (s.repairStep r step next f).pending = s.pending := by
  unfold State.repairStep
  (repeat' split) <;> simp [hf]

@[simp] theorem State.endHeld_pending (s : State) (slot i : Nat) : (s.endHeld slot i).pending = s.pending := by simp [State.endHeld]

@[simp] theorem State.takeover_pending (s : State) (r : Nat) (q : Repair) (d : PlaceP) (meas : Measured) (code ctr : Nat) :
    (s.takeover r q d meas code ctr).pending = s.pending := by simp [State.takeover]

/-! ### The operations of Machine/Stolon.lean -/

@[simp] theorem State.testCell_pending (s : State) (n j : Nat) (scores ranks : List Nat) :
    (s.testCell n j scores ranks).pending = s.pending := by simp [State.testCell]

@[simp] theorem State.testSegs_pending (s : State) (segs scores : List Nat) : (s.testSegs segs scores).pending = s.pending := by simp [State.testSegs]

@[simp] theorem State.retestUse_pending (s : State) (n : Nat) : (s.retestUse n).pending = s.pending := by
  unfold State.retestUse
  split <;> simp

@[simp] theorem State.reopenBlocks_pending (s : State) (bs : List Nat) : (s.reopenBlocks bs).pending = s.pending := by simp [State.reopenBlocks]

@[simp] theorem State.endTest_pending (s : State) (r : Nat) (q : Test) (scores ranks segScores : List Nat) :
    (s.endTest r q scores ranks segScores).pending = s.pending := by
  unfold State.endTest
  dsimp only
  split <;> simp

@[simp] theorem State.afterTest_pending (s : State) (r : Nat) (q : Test) (arbOk : Bool) : (s.afterTest r q arbOk).pending = s.pending := by
  unfold State.afterTest
  split <;> simp

@[simp] theorem State.dropPartner_pending (s : State) (n : Nat) : (s.dropPartner n).pending = s.pending := by simp [State.dropPartner]

@[simp] theorem State.readSensor_pending (s : State) (b : Nat) (v med : Int) :
    (s.readSensor b v med).pending = s.pending := by simp [State.readSensor]

@[simp] theorem State.level_pending (s : State) (r : Nat) : (s.level r).pending = s.pending := by
  unfold State.level
  split <;> simp

/-! ### The operations of Machine/Dac.lean -/

@[simp] theorem State.atCount_pending (s : State) (t : Nat) : (s.atCount t).pending = s.pending := by simp [State.atCount]

@[simp] theorem State.endOuts_pending (s : State) (n : Nat) (cs : List DacCmd) (status : Nat) :
    (s.endOuts n cs status).pending = s.pending := by simp [State.endOuts]

@[simp] theorem State.endDacCmds_pending (s : State) (n status : Nat) : (s.endDacCmds n status).pending = s.pending := by simp [State.endDacCmds]

@[simp] theorem State.dacReached_pending (s : State) (n t : Nat) : (s.dacReached n t).pending = s.pending := by simp [State.dacReached]

@[simp] theorem State.dacHaltNow_pending (s : State) (n : Nat) : (s.dacHaltNow n).pending = s.pending := by simp [State.dacHaltNow]

@[simp] theorem State.dacHalt_pending (s : State) (n : Nat) : (s.dacHalt n).pending = s.pending := by simp [State.dacHalt]

@[simp] theorem State.rangeCut_pending (s : State) (n : Nat) : (s.rangeCut n).pending = s.pending := by simp [State.rangeCut]

@[simp] theorem State.dacFault_pending (s : State) (n : Nat) : (s.dacFault n).pending = s.pending := by simp [State.dacFault]

@[simp] theorem State.busStopped_pending (s : State) (p : Nat → Bool) : (s.busStopped p).pending = s.pending := by simp [State.busStopped]

@[simp] theorem State.sourceTarget_pending (s : State) (n t : Nat) : (s.sourceTarget n t).pending = s.pending := by
  unfold State.sourceTarget
  dsimp only
  split <;> simp

@[simp] theorem State.endRange_pending (s : State) (n t : Nat) : (s.endRange n t).pending = s.pending := by
  unfold State.endRange
  dsimp only
  split <;> simp

@[simp] theorem State.dueDds_pending (s : State) (n t : Nat) : (s.dueDds n t).pending = s.pending := by
  unfold State.dueDds
  dsimp only
  (repeat' split) <;> simp

@[simp] theorem State.dueOuts_pending (s : State) (n t : Nat) : (s.dueOuts n t).pending = s.pending := by
  unfold State.dueOuts
  dsimp only
  (repeat' split) <;> simp

@[simp] theorem State.dacTargets_pending (s : State) (n t : Nat) : (s.dacTargets n t).pending = s.pending := by
  unfold State.dacTargets
  dsimp only
  (repeat' split) <;> simp

@[simp] theorem State.dueSlew_pending (s : State) (n : Nat) : (s.dueSlew n).pending = s.pending := by simp [State.dueSlew]

@[simp] theorem State.dacTick_pending (s : State) (n t : Nat) : (s.dacTick n t).pending = s.pending := by
  unfold State.dacTick
  dsimp only
  (repeat' split) <;> simp

@[simp] theorem State.dacConvert_pending (s : State) (n t : Nat) : (s.dacConvert n t).pending = s.pending := by simp [State.dacConvert]

@[simp] theorem State.ddsEvent_pending (s : State) (index : Nat) : (s.ddsEvent index).pending = s.pending := by simp [State.ddsEvent]

@[simp] theorem State.dacDown_pending (s : State) (n : Nat) : (s.dacDown n).pending = s.pending := by simp [State.dacDown]

@[simp] theorem bodyDacSet_pending (cmd : Instr) (slot : Nat) (a : Bytes) (s : State) :
    (bodyDacSet cmd slot a s).pending = s.pending := by simp [bodyDacSet]

@[simp] theorem bodyDacRange_pending (cmd : Instr) (slot : Nat) (a : Bytes) (s : State) : (bodyDacRange cmd slot a s).pending = s.pending := by
  unfold bodyDacRange
  extract_lets n r fl k code p dwell c new
  split
  · simp
  refine State.onRegion_pending _ _ _ _ _ fun s => ?_
  extract_lets d d1 s1 s2
  have h1 : s1.pending = s.pending := by simp [s1]
  have h2 : s2.pending = s.pending := by simp [s2, h1]
  split <;> simp [h1, h2]

@[simp] theorem bodyDdsConfig_pending (cmd : Instr) (slot : Nat) (a : Bytes) (s : State) :
    (bodyDdsConfig cmd slot a s).pending = s.pending := by simp [bodyDdsConfig]

@[simp] theorem bodyDacNvStore_pending (verified : Bool) (slot : Nat) (a : Bytes) (s : State) :
    (bodyDacNvStore verified slot a s).pending = s.pending := by simp [bodyDacNvStore]

@[simp] theorem bodySlewConfig_pending (cmd : Instr) (slot : Nat) (a : Bytes) (s : State) :
    (bodySlewConfig cmd slot a s).pending = s.pending := by simp [bodySlewConfig]

@[simp] theorem State.stopDac_pending (s : State) (n slot st : Nat) : (s.stopDac n slot st).1.pending = s.pending := by
  unfold State.stopDac
  dsimp only
  (repeat' split) <;> simp

/-! ### The operations of Machine/Streams.lean -/

@[simp] theorem State.sendBytes_pending (s : State) (bytes : Nat) : (s.sendBytes bytes).pending = s.pending := by simp [State.sendBytes]

@[simp] theorem State.writeFill_pending (s : State) (n : Nat) (f : Fill) : (s.writeFill n f).pending = s.pending := by simp [State.writeFill]

@[simp] theorem State.endBuf_pending (s : State) (n flags : Nat) (always : Bool) : (s.endBuf n flags always).pending = s.pending := by
  unfold State.endBuf
  dsimp only
  split <;> simp

@[simp] theorem State.takeBuf_pending (n y0 : Nat) (s : State) : (State.takeBuf n y0 s).pending = s.pending := by
  induction n generalizing s with
  | zero => rfl
  | succ n ih => unfold State.takeBuf; dsimp only; (repeat' split) <;> simp [ih]

@[simp] theorem State.writeRec_pending (s : State) (n : Nat) (b : Buf) (r : Rec) : (s.writeRec n b r).pending = s.pending := by simp [State.writeRec]

@[simp] theorem State.drain_pending (n y0 : Nat) (s : State) : (State.drain n y0 s).pending = s.pending := by
  induction n generalizing s with
  | zero => rfl
  | succ n ih => unfold State.drain; dsimp only; (repeat' split) <;> simp [ih]

@[simp] theorem State.drainAll_pending (s : State) (n : Nat) : (s.drainAll n).pending = s.pending := by simp [State.drainAll]

@[simp] theorem State.markLost_pending (s : State) (c : Nat) : (s.markLost c).pending = s.pending := by simp [State.markLost]

@[simp] theorem State.arrive_pending (s : State) (r : Rec) : (s.arrive r).pending = s.pending := by simp [State.arrive]

@[simp] theorem State.cutUnit_pending (s : State) (p : Snap) (u : Nat) : (s.cutUnit p u).pending = s.pending := by simp [State.cutUnit]

@[simp] theorem State.tokenFirst_pending (s : State) (r : Rec) : (s.tokenFirst r).pending = s.pending := by
  unfold State.tokenFirst
  split <;> simp

@[simp] theorem bodyStreamOpen_pending (cmd : Instr) (slot : Nat) (a : Bytes) (s : State) :
    (bodyStreamOpen cmd slot a s).pending = s.pending := by simp [bodyStreamOpen]

@[simp] theorem State.closeStep_pending (s : State) (n : Nat) : (s.closeStep n).pending = s.pending := by
  unfold State.closeStep
  split <;> simp

@[simp] theorem bodyStreamClose_pending (slot : Nat) (a : Bytes) (s : State) : (bodyStreamClose slot a s).pending = s.pending := by
  unfold bodyStreamClose
  split <;> simp

@[simp] theorem State.badDoorbell_pending (s : State) (off value width : Nat) :
    (s.badDoorbell off value width).pending = s.pending := by simp [State.badDoorbell]

@[simp] theorem State.meDrain_pending (n : Nat) (s : State) : (State.meDrain n s).pending = s.pending := by
  induction n generalizing s with
  | zero => rfl
  | succ n ih => unfold State.meDrain; dsimp only; (repeat' split) <;> simp [ih]

@[simp] theorem State.meHead_pending (s : State) (v : Nat) : (s.meHead v).pending = s.pending := by simp [State.meHead]

@[simp] theorem State.sqTail_pending (s : State) (q v : Nat) : (s.sqTail q v).pending = s.pending := by simp [State.sqTail]

@[simp] theorem State.cqHead_pending (s : State) (q v : Nat) : (s.cqHead q v).pending = s.pending := by simp [State.cqHead]

@[simp] theorem State.bufTail_pending (s : State) (n v : Nat) (descs : List Bytes) :
    (s.bufTail n v descs).pending = s.pending := by simp [State.bufTail]

@[simp] theorem State.evtHead_pending (s : State) (n v : Nat) : (s.evtHead n v).pending = s.pending := by simp [State.evtHead]

@[simp] theorem State.doorAct_pending (s : State) (off v : Nat) (descs : List Bytes) :
    (s.doorAct off v descs).pending = s.pending := by simp [State.doorAct]

@[simp] theorem State.doorbell4_pending (s : State) (off value width : Nat) (descs : List Bytes) :
    (s.doorbell4 off value width descs).pending = s.pending := by
  unfold State.doorbell4
  split <;> simp

@[simp] theorem State.haltStream_pending (s : State) (n : Nat) : (s.haltStream n).pending = s.pending := by simp [State.haltStream]

@[simp] theorem State.haltWrite_pending (s : State) (v width : Nat) : (s.haltWrite v width).pending = s.pending := by simp [State.haltWrite]

@[simp] theorem State.writeCqctl_pending (s : State) (q v : Nat) : (s.writeCqctl q v).pending = s.pending := by simp [State.writeCqctl]

@[simp] theorem State.writeDsctl_pending (s : State) (n v : Nat) : (s.writeDsctl n v).pending = s.pending := by simp [State.writeDsctl]

@[simp] theorem State.writeMectl_pending (s : State) (v : Nat) : (s.writeMectl v).pending = s.pending := by simp [State.writeMectl]

@[simp] theorem State.mgmtReg_pending (s : State) (off v : Nat) (f : State → State) (hf : ∀ x, (f x).pending = x.pending) :
    (s.mgmtReg off v f).pending = s.pending := by simp [State.mgmtReg, hf]

/-! ### The operations of Machine/Fabric.lean -/

@[simp] theorem State.spWordBE_pending (s : State) (a be v : Nat) : (s.spWordBE a be v).pending = s.pending := by simp [State.spWordBE]

@[simp] theorem State.spPut_pending (s : State) (a v : Nat) : (s.spPut a v).pending = s.pending := by simp [State.spPut]

@[simp] theorem State.spCorrected_pending (s : State) (a : Nat) : (s.spCorrected a).pending = s.pending := by simp [State.spCorrected]

@[simp] theorem State.spUncorrectable_pending (s : State) (a : Nat) : (s.spUncorrectable a).pending = s.pending := by simp [State.spUncorrectable]

@[simp] theorem State.fabReply_pending (s : State) (b rdata : Nat) (err : Bool) :
    (s.fabReply b rdata err).pending = s.pending := by simp [State.fabReply]

@[simp] theorem State.fabReplyFree_pending (s : State) (b : Nat) (err : Bool) :
    (s.fabReplyFree b err).pending = s.pending := by simp [State.fabReplyFree]

@[simp] theorem State.fabServe_pending (s : State) (b op addr be wdata ecc : Nat) : (s.fabServe b op addr be wdata ecc).pending = s.pending := by
  unfold State.fabServe
  dsimp only
  (repeat' split) <;> simp

@[simp] theorem State.countDma_pending (s : State) (a len : Nat) : (s.countDma a len).pending = s.pending := by simp [State.countDma]

@[simp] theorem State.memGo_pending (s : State) (slot : Nat) (cmd : Instr) (a len done granted : Nat) (bad : Option Nat)
    (move : Nat → State → State)
    (hmove : KeepsQueue fun s n => move n s) :
    (s.memGo slot cmd a len done granted bad move).pending = s.pending := by
  have hm := fun n => hmove s n
  unfold State.memGo
  (repeat' split) <;> simp [hm]

@[simp] theorem State.memRun_pending (s : State) (slot : Nat) (a : Bytes) (cmd : Instr) (done : Nat) :
    (s.memRun slot a cmd done).pending = s.pending := by
  unfold State.memRun
  extract_lets host sp len
  (repeat' split) <;> simp

@[simp] theorem State.memNext_pending (s : State) : s.memNext.pending = s.pending := by
  unfold State.memNext
  refine foldl_pending _ _ _ fun s x => ?_
  (repeat' split) <;> simp

@[simp] theorem bodyMemCopy_pending (cmd : Instr) (slot : Nat) (a : Bytes) (s : State) :
    (bodyMemCopy cmd slot a s).pending = s.pending := by simp [bodyMemCopy]

@[simp] theorem bodyMemAtomic_pending (cmd : Instr) (slot : Nat) (a : Bytes) (s : State) :
    (bodyMemAtomic cmd slot a s).pending = s.pending := by simp [bodyMemAtomic]

@[simp] theorem State.memResume_pending (s : State) (b : Nat) : (s.memResume b).pending = s.pending := by
  unfold State.memResume
  split <;> simp

@[simp] theorem State.startReadback_pending (s : State) (id scope idx time addr : Nat) :
    (s.startReadback id scope idx time addr).pending = s.pending := by simp [State.startReadback]

@[simp] theorem bodyReadback_pending (slot : Nat) (a : Bytes) (s : State) : (bodyReadback slot a s).pending = s.pending := by simp [bodyReadback]

@[simp] theorem State.setReadback_pending (s : State) (id : Nat) (v : Option Readback) :
    (s.setReadback id v).pending = s.pending := by simp [State.setReadback]

@[simp] theorem State.stopNext_pending (s : State) (r : Readback) (regions : List Nat) : (s.stopNext r regions).pending = s.pending := by
  unfold State.stopNext
  refine foldl_pending _ _ _ fun s x => ?_
  (repeat' split) <;> simp

@[simp] theorem State.copyTree_pending (s : State) (blocks : List Nat) (g : Nat) :
    (s.copyTree blocks g).pending = s.pending := by simp [State.copyTree]

@[simp] theorem State.runLogic_pending (s : State) (r : Readback) (edges : List (Nat × Nat × List (Nat × Nat))) :
    (s.runLogic r edges).pending = s.pending := by simp [State.runLogic]

@[simp] theorem State.lcArg_pending (s : State) (l : Option Nat) : (s.lcArg l).2.pending = s.pending := by
  unfold State.lcArg
  split <;> simp

/-! ### The operations of Machine/Clocks.lean -/

@[simp] theorem State.treesChanged_pending (old s : State) : (State.treesChanged old s).pending = s.pending := by simp [State.treesChanged]

@[simp] theorem State.writeUpll_pending (s : State) (n v : Nat) : (s.writeUpll n v).pending = s.pending := by simp [State.writeUpll]

@[simp] theorem State.writeGckctl_pending (s : State) (g v : Nat) : (s.writeGckctl g v).pending = s.pending := by simp [State.writeGckctl]

@[simp] theorem State.writeGckfreq_pending (s : State) (g v : Nat) : (s.writeGckfreq g v).pending = s.pending := by simp [State.writeGckfreq]

@[simp] theorem State.writeRefctl_pending (s : State) (v : Nat) : (s.writeRefctl v).pending = s.pending := by simp [State.writeRefctl]

@[simp] theorem State.loseRef_pending (s : State) : s.loseRef.pending = s.pending := by simp [State.loseRef]

@[simp] theorem State.stepped_pending (s : State) (old : Nat) : (s.stepped old).pending = s.pending := by simp [State.stepped]

@[simp] theorem State.loadTb_pending (s : State) : s.loadTb.1.pending = s.pending := by simp [State.loadTb]

@[simp] theorem State.checkSync_pending (s : State) : s.checkSync.pending = s.pending := by simp [State.checkSync]

@[simp] theorem State.writeSyncctl_pending (s : State) (v : Nat) : (s.writeSyncctl v).pending = s.pending := by simp [State.writeSyncctl]

@[simp] theorem State.holdLo_pending (s : State) (hi v : Nat) : (s.holdLo hi v).pending = s.pending := by simp [State.holdLo]

@[simp] theorem State.writeCmpLo_pending (s : State) (u v : Nat) : (s.writeCmpLo u v).pending = s.pending := by simp [State.writeCmpLo]

@[simp] theorem State.writeCmpHi_pending (s : State) (u v : Nat) : (s.writeCmpHi u v).pending = s.pending := by simp [State.writeCmpHi]

@[simp] theorem State.writeCmpPeriod_pending (s : State) (u v : Nat) : (s.writeCmpPeriod u v).pending = s.pending := by simp [State.writeCmpPeriod]

@[simp] theorem State.writeCmpArm_pending (s : State) (reg v : Nat) : (s.writeCmpArm reg v).pending = s.pending := by simp [State.writeCmpArm]

@[simp] theorem State.injectNext_pending (s : State) : s.injectNext.pending = s.pending := by
  unfold State.injectNext
  split <;> simp

@[simp] theorem bodySnapshot_pending (slot : Nat) (a : Bytes) (s : State) : (bodySnapshot slot a s).pending = s.pending := by simp [bodySnapshot]

@[simp] theorem State.endSnapshot_pending (s : State) (p : Snap) (status : Nat) :
    (s.endSnapshot p status).pending = s.pending := by simp [State.endSnapshot]

/-! ### The operations of Machine/Pins.lean -/

@[simp] theorem State.syncTI_pending (s : State) (gs : List Nat) : (s.syncTI gs).pending = s.pending := by simp [State.syncTI]

@[simp] theorem State.switchPin_pending (s : State) (p : Nat) (m : Option PinMapE) :
    (s.switchPin p m).pending = s.pending := by simp [State.switchPin]

@[simp] theorem State.reswitch_pending (s : State) (ps : List Nat) : (s.reswitch ps).pending = s.pending := by simp [State.reswitch]

@[simp] theorem State.queueMaps_pending (s : State) (slot : Option Nat) (l : List (Nat × PinMapE)) :
    (s.queueMaps slot l).pending = s.pending := by simp [State.queueMaps]

@[simp] theorem State.endPinMap_pending (s : State) (slot : Option Nat) (ps : List Nat) (status : Nat) :
    (s.endPinMap slot ps status).pending = s.pending := by
  unfold State.endPinMap
  split <;> simp

@[simp] theorem State.stopPinMap_pending (s : State) (slot status : Nat) :
    (s.stopPinMap slot status).pending = s.pending := by simp [State.stopPinMap]

@[simp] theorem State.pinsToConfig_pending (s : State) (p : PinMapE → Bool) (keep : Bool) :
    (s.pinsToConfig p keep).pending = s.pending := by simp [State.pinsToConfig]

@[simp] theorem bodyPinMap_pending (entries : Bytes) (slot : Nat) (a : Bytes) (s : State) :
    (bodyPinMap entries slot a s).pending = s.pending := by simp [bodyPinMap]

@[simp] theorem State.maskedOut_pending (s : State) (b word : Nat) : (s.maskedOut b word).pending = s.pending := by simp [State.maskedOut]

@[simp] theorem bodyGpio_pending (slot : Nat) (a : Bytes) (s : State) : (bodyGpio slot a s).pending = s.pending := by simp [bodyGpio]

@[simp] theorem State.writePinOut_pending (s : State) (b v : Nat) : (s.writePinOut b v).pending = s.pending := by simp [State.writePinOut]

@[simp] theorem State.writeBank_pending (s : State) (b v : Nat) : (s.writeBank b v).pending = s.pending := by simp [State.writeBank]

@[simp] theorem State.writeDiff_pending (s : State) (k v : Nat) : (s.writeDiff k v).pending = s.pending := by simp [State.writeDiff]

@[simp] theorem State.portReply_pending (s : State) (k data : Nat) (err : Bool) :
    (s.portReply k data err).pending = s.pending := by simp [State.portReply]

@[simp] theorem State.portErr_pending (s : State) (k : Nat) : (s.portErr k).pending = s.pending := by simp [State.portErr]

@[simp] theorem State.writeUlctl_pending (s : State) (l v : Nat) : (s.writeUlctl l v).pending = s.pending := by simp [State.writeUlctl]

/-! ### The operations of Machine/LoadOps.lean -/

@[simp] theorem State.logLoad_pending (s : State) (w : Nat) (l : Load) (code a1 : Nat) :
    (s.logLoad w l code a1).pending = s.pending := by simp [State.logLoad]

@[simp] theorem State.pinsDown_pending (s : State) : s.pinsDown.pending = s.pending := by simp [State.pinsDown]

@[simp] theorem State.signalsLow_pending (s : State) : s.signalsLow.pending = s.pending := by simp [State.signalsLow]

@[simp] theorem State.noPersona_pending (s : State) : s.noPersona.pending = s.pending := by simp [State.noPersona]

@[simp] theorem State.stopPersona_pending (s : State) : s.stopPersona.pending = s.pending := by simp [State.stopPersona]

@[simp] theorem State.enterFallow_pending (s : State) (image reason : Nat) :
    (s.enterFallow image reason).pending = s.pending := by simp [State.enterFallow]

@[simp] theorem State.failRegion_pending (s : State) (r : Nat) (l : Load) (reason : Nat) : (s.failRegion r l reason).pending = s.pending := by
  unfold State.failRegion
  dsimp only
  (repeat' split) <;> simp

@[simp] theorem State.retrySlots_pending (s : State) : s.retrySlots.pending = s.pending := by simp [State.retrySlots]

@[simp] theorem State.nextSlot_pending (s : State) (l : Load) (reason : Nat) : (s.nextSlot l reason).pending = s.pending := by simp [State.nextSlot]

@[simp] theorem State.failFull_pending (s : State) (l : Load) (reason : Nat) : (s.failFull l reason).pending = s.pending := by
  unfold State.failFull
  dsimp only
  (repeat' split) <;> simp

@[simp] theorem State.failLoad_pending (s : State) (w reason : Nat) : (s.failLoad w reason).pending = s.pending := by
  unfold State.failLoad
  split <;> simp

@[simp] theorem State.stopLoad_pending (s : State) (w st : Nat) : (s.stopLoad w st).1.pending = s.pending := by
  unfold State.stopLoad
  dsimp only
  (repeat' split) <;> simp

@[simp] theorem State.beginLoad_pending (s : State) (w : Nat) (l0 : Load) (b : Bytes) :
    (s.beginLoad w l0 b).pending = s.pending := by simp [State.beginLoad]

/-! ### The operations of Machine/Generic.lean -/

@[simp] theorem bodyNop_pending (slot : Nat) (a : Bytes) (s : State) : (bodyNop slot a s).pending = s.pending := by simp [bodyNop]

@[simp] theorem State.answer_pending (s : State) (slot addr len : Nat) (b : Bytes) (r0 r1 : Nat) :
    (s.answer slot addr len b r0 r1).pending = s.pending := by simp [State.answer]

@[simp] theorem State.queryHandle_pending (s : State) (slot v addr len : Nat) : (s.queryHandle slot v addr len).pending = s.pending := by
  unfold State.queryHandle
  dsimp only
  split <;> simp

@[simp] theorem bodyQuery_pending (slot : Nat) (a : Bytes) (s : State) : (bodyQuery slot a s).pending = s.pending := by
  unfold bodyQuery
  dsimp only
  (repeat' split) <;> simp

@[simp] theorem State.stopSyscal_pending (s : State) (c slot st : Nat) : (s.stopSyscal c slot st).pending = s.pending := by simp [State.stopSyscal]

@[simp] theorem State.stopTune_pending (s : State) (gs slot st : Nat) : (s.stopTune gs slot st).1.pending = s.pending := by
  unfold State.stopTune
  split <;> simp

@[simp] theorem State.stopPin_pending (s : State) (gs slot moved st : Nat) :
    (s.stopPin gs slot moved st).1.pending = s.pending := by simp [State.stopPin]

@[simp] theorem State.stopCal_pending (s : State) (slot left done failed st : Nat) :
    (s.stopCal slot left done failed st).1.pending = s.pending := by simp [State.stopCal]

@[simp] theorem State.stopRef_pending (s : State) (slot st : Nat) : (s.stopRef slot st).pending = s.pending := by
  unfold State.stopRef
  split <;> simp

@[simp] theorem State.stopCmd_pending (s : State) (slot st : Nat) : (s.stopCmd slot st).1.pending = s.pending := by
  unfold State.stopCmd
  dsimp only
  (repeat' split) <;> simp

@[simp] theorem bodyAbort_pending (slot : Nat) (a : Bytes) (s : State) : (bodyAbort slot a s).pending = s.pending := by simp [bodyAbort]

@[simp] theorem bodyLogDrain_pending (slot : Nat) (a : Bytes) (s : State) : (bodyLogDrain slot a s).pending = s.pending := by simp [bodyLogDrain]

@[simp] theorem State.resizeRegion_pending (s : State) (r : Nat) : (s.resizeRegion r).pending = s.pending := by simp [State.resizeRegion]

@[simp] theorem State.resizePool_pending (s : State) : s.resizePool.pending = s.pending := by simp [State.resizePool]

@[simp] theorem bodyStolonPolicy_pending (slot : Nat) (a : Bytes) (s : State) :
    (bodyStolonPolicy slot a s).pending = s.pending := by simp [bodyStolonPolicy]

/-! ### The operations of Machine/Persona.lean -/

@[simp] theorem State.readSlot_pending (s : State) (source slot : Nat) : (s.readSlot source slot).pending = s.pending := by simp [State.readSlot]

@[simp] theorem bodyPersonaLoad_pending (header : Bytes) (slot : Nat) (a : Bytes) (s : State) :
    (bodyPersonaLoad header slot a s).pending = s.pending := by simp [bodyPersonaLoad]

@[simp] theorem bodyRegionLoad_pending (header : Bytes) (cmd : Instr) (slot : Nat) (a : Bytes) (s : State) :
    (bodyRegionLoad header cmd slot a s).pending = s.pending := by simp [bodyRegionLoad]

@[simp] theorem State.skipSlots_pending (n : Nat) (s : State) : (State.skipSlots n s).pending = s.pending := by
  induction n generalizing s with
  | zero => rfl
  | succ n ih => unfold State.skipSlots; dsimp only; (repeat' split) <;> simp [ih]

@[simp] theorem State.evacuate_pending (s : State) (fns : List (Nat × Nat)) : (s.evacuate fns).pending = s.pending := by simp [State.evacuate]

@[simp] theorem State.dropDrivers_pending (s : State) (f : Nat) (b : Bytes) : (s.dropDrivers f b).1.pending = s.pending := by
  unfold State.dropDrivers
  split <;> simp

@[simp] theorem State.writeFrame_pending (s : State) (f : Nat) (b : Bytes) : (s.writeFrame f b).pending = s.pending := by
  unfold State.writeFrame
  split <;> simp

@[simp] theorem State.clearFrames_pending (s : State) (r : Nat) : (s.clearFrames r).pending = s.pending := by simp [State.clearFrames]

@[simp] theorem State.retestGroups_pending (s : State) (p : Nat → Bool) : (s.retestGroups p).pending = s.pending := by simp [State.retestGroups]

@[simp] theorem State.badRecord_pending (s : State) (w : Nat) (l : Load) (a1 : Nat) :
    (s.badRecord w l a1).pending = s.pending := by simp [State.badRecord]

@[simp] theorem State.takeRecord_pending (s : State) (w ty : Nat) (len : Bytes → Nat) (rec : Bytes) (f : Load → Bytes → State → State)
    (hf : ∀ x y z, (f x y z).pending = z.pending) :
    (s.takeRecord w ty len rec f).pending = s.pending := by
  unfold State.takeRecord
  split <;> simp [hf]

@[simp] theorem State.strawData_pending (s : State) (r : Nat) : (s.strawData r).pending = s.pending := by simp [State.strawData]

@[simp] theorem State.imagePassed_pending (s : State) (l : Load) : (s.imagePassed l).pending = s.pending := by simp [State.imagePassed]

/-! ### The operations of Machine/DataArea.lean -/

@[simp] theorem State.skipItem_pending (s : State) (off status : Nat) : (s.skipItem off status).pending = s.pending := by simp [State.skipItem]

@[simp] theorem State.asItem_pending (s : State) (f : State → State) (hf : ∀ x, (f x).pending = x.pending) :
    (s.asItem f).1.pending = s.pending := by simp [State.asItem, hf]

@[simp] theorem State.tryItem_pending (s : State) (off : Nat) (f : State → State) (hf : ∀ x, (f x).pending = x.pending) :
    (s.tryItem off f).pending = s.pending := by simp [State.tryItem, hf]

@[simp] theorem State.itemFail_pending (s : State) (status : Nat) : (s.itemFail status).pending = s.pending := by simp [State.itemFail]

@[simp] theorem itemPinMap_pending (only : Option Nat) (b : Bytes) (s : State) : (itemPinMap only b s).pending = s.pending := by simp [itemPinMap]

@[simp] theorem itemConverter_pending (only : Option Nat) (b : Bytes) (s : State) :
    (itemConverter only b s).pending = s.pending := by simp [itemConverter]

@[simp] theorem itemDac_pending (only : Option Nat) (b : Bytes) (s : State) : (itemDac only b s).pending = s.pending := by simp [itemDac]

@[simp] theorem itemDds_pending (only : Option Nat) (b : Bytes) (s : State) : (itemDds only b s).pending = s.pending := by simp [itemDds]

@[simp] theorem State.installGraph_pending (s : State) (slot : Nat) (g0 : Graph) :
    (s.installGraph slot g0).pending = s.pending := by simp [State.installGraph]

@[simp] theorem State.newItemGraph_pending (s : State) (off : Nat) (img : Bytes) (meas : List Measured) :
    (s.newItemGraph off img meas).pending = s.pending := by
  unfold State.newItemGraph
  dsimp only
  (repeat' split) <;> simp

@[simp] theorem State.takeOverGraph_pending (s : State) (off slot : Nat) (img : Bytes) (meas : List Measured) :
    (s.takeOverGraph off slot img meas).pending = s.pending := by
  unfold State.takeOverGraph
  dsimp only
  (repeat' split) <;> simp

@[simp] theorem State.graphItems_pending (s : State) (only : Option Nat) (taken : List Nat) (items : List (Nat × Nat × Bytes)) (meas : List
    (List Measured)) :
    (s.graphItems only taken items meas).pending = s.pending := by
  unfold State.graphItems
  exact foldl_pending _ _ _ fun s x => by dsimp only; (repeat' split) <;> simp

@[simp] theorem State.applyItems_pending (s : State) (only : Option Nat) (taken : List Nat) (items : List (Nat × Nat × Bytes)) (meas : List
    (List Measured)) :
    (s.applyItems only taken items meas).pending = s.pending := by simp [State.applyItems]

@[simp] theorem State.pinItems_pending (s : State) (only : Option Nat) (items : List (Nat × Nat × Bytes)) :
    (s.pinItems only items).pending = s.pending := by simp [State.pinItems]

/-! ### The operations of Machine/RegionLoad.lean -/

@[simp] theorem State.signalTo_pending (s : State) (n : Nat) (level : Bool) : (s.signalTo n level).pending = s.pending := by simp [State.signalTo]

@[simp] theorem State.setLatch_pending (s : State) (i : Nat) (v : Bool) : (s.setLatch i v).pending = s.pending := by simp [State.setLatch]

@[simp] theorem State.latchSignals_pending (s : State) (r : Nat) : (s.latchSignals r).pending = s.pending := by simp [State.latchSignals]

@[simp] theorem State.latchWires_pending (s : State) (r : Nat) : (s.latchWires r).pending = s.pending := by
  unfold State.latchWires
  refine foldl_pending _ _ _ fun s x => foldl_pending _ _ _ fun s w => ?_
  dsimp only
  (repeat' split) <;> simp

@[simp] theorem State.releaseLatches_pending (s : State) (r : Nat) : (s.releaseLatches r).pending = s.pending := by simp [State.releaseLatches]

@[simp] theorem State.dropRepair_pending (s : State) (slot i : Nat) : (s.dropRepair slot i).pending = s.pending := by
  unfold State.dropRepair
  refine foldl_pending _ _ _ fun s r => ?_
  dsimp only
  split <;> simp

@[simp] theorem State.suspend_pending (s : State) (slot i : Nat) : (s.suspend slot i).pending = s.pending := by
  unfold State.suspend
  dsimp only
  (repeat' split) <;> simp

@[simp] theorem State.placeAgain_pending (s : State) (slot i : Nat) (x : Graph) :
    (s.placeAgain slot i x).pending = s.pending := by simp [State.placeAgain]

@[simp] theorem State.restoreGraph_pending (s : State) (slot : Nat) (meas : Measured) : (s.restoreGraph slot meas).pending = s.pending := by
  unfold State.restoreGraph
  dsimp only
  (repeat' split) <;> simp

@[simp] theorem State.placeSuspended_pending (s : State) (l : Load) (meas : List (List Measured)) :
    (s.placeSuspended l meas).pending = s.pending := by simp [State.placeSuspended]

@[simp] theorem State.endRegion_pending (s : State) (r : Nat) (l : Load) : (s.endRegion r l).pending = s.pending := by
  unfold State.endRegion
  dsimp only
  split <;> simp

/-! ### The operations of Machine/Husk.lean -/

@[simp] theorem State.captureLog_pending (s : State) : s.captureLog.pending = s.pending := by simp [State.captureLog]

@[simp] theorem State.alarmCmds_pending (s : State) : s.alarmCmds.pending = s.pending := by
  unfold State.alarmCmds
  extract_lets loads image waiting
  have h1 : loads.pending = s.pending := foldl_pending _ _ _ fun s w => by (repeat' split) <;> simp
  have h2 : waiting.pending = loads.pending := by simp only [waiting]; split <;> simp
  simp [h2, h1]

@[simp] theorem State.haltPersona_pending (s : State) : s.haltPersona.pending = s.pending := by simp [State.haltPersona]

@[simp] theorem State.alarmActions_pending (s : State) (was c : Nat) : (s.alarmActions was c).pending = s.pending := by simp [State.alarmActions]

@[simp] theorem State.raiseAlarm_pending (s : State) (sensor cls detail : Nat) :
    (s.raiseAlarm sensor cls detail).pending = s.pending := by simp [State.raiseAlarm]

@[simp] theorem State.raiseLatched_pending (s : State) : s.raiseLatched.pending = s.pending := by simp [State.raiseLatched]

@[simp] theorem State.applyPolicy_pending (s : State) (p : AlarmPolicy) : (s.applyPolicy p).pending = s.pending := by simp [State.applyPolicy]

@[simp] theorem State.loadPolicy_pending (s : State) (ok : Bool) : (s.loadPolicy ok).pending = s.pending := by
  unfold State.loadPolicy
  split <;> simp

@[simp] theorem bodyAlarmPolicy_pending (image : Bytes) (cr : Crypto) (verified : Bool) (slot : Nat) (a : Bytes) (s : State) :
    (bodyAlarmPolicy image cr verified slot a s).pending = s.pending := by simp [bodyAlarmPolicy]

@[simp] theorem State.setFuses_pending (s : State) (f : Fuses → Fuses) : (s.setFuses f).pending = s.pending := by simp [State.setFuses]

@[simp] theorem State.setKey_pending (s : State) (k : Nat) (v : Option Bytes) : (s.setKey k v).pending = s.pending := by simp [State.setKey]

@[simp] theorem State.commitKey_pending (s : State) (slot i : Nat) (staged : Option Bytes) (payload : Bytes) (cr : Crypto) :
    (s.commitKey slot i staged payload cr).pending = s.pending := by
  unfold State.commitKey
  split <;> simp

@[simp] theorem State.provision_pending (s : State) (slot key flags : Nat) (b : Bytes) (staged : Option Bytes) (cr : Crypto) :
    (s.provision slot key flags b staged cr).pending = s.pending := by
  unfold State.provision
  dsimp only
  (repeat' split) <;> simp

@[simp] theorem bodyKeyProvision_pending (blob : Bytes) (cr : Crypto) (slot : Nat) (a : Bytes) (s0 : State) :
    (bodyKeyProvision blob cr slot a s0).pending = s0.pending := by
  unfold bodyKeyProvision
  dsimp only
  (repeat' split) <;> simp

@[simp] theorem bodyAttest_pending (sig : Bytes) (slot : Nat) (a : Bytes) (s : State) :
    (bodyAttest sig slot a s).pending = s.pending := by simp [bodyAttest]

/-! ### The operations of Machine/Boot.lean -/

@[simp] theorem State.resetFlash_pending (s : State) : s.resetFlash.pending = s.pending := by simp [State.resetFlash]

@[simp] theorem State.powerOn_pending (s : State) (cause : Nat) (cfgPull hostSel vrefSel : Bool) :
    (s.powerOn cause cfgPull hostSel vrefSel).pending = s.pending := by simp [State.powerOn]

@[simp] theorem State.addCause_pending (s : State) (i : Nat) : (s.addCause i).pending = s.pending := by simp [State.addCause]

@[simp] theorem State.warmHost_pending (s : State) : s.warmHost.pending = s.pending := by simp [State.warmHost]

@[simp] theorem State.warmClear_pending (s : State) : s.warmClear.pending = s.pending := by simp [State.warmClear]

@[simp] theorem State.warm_pending (s : State) (cause : Nat) : (s.warm cause).pending = s.pending := by simp [State.warm]

@[simp] theorem State.writeResetCtl_pending (s : State) (v : Nat) : (s.writeResetCtl v).pending = s.pending := by simp [State.writeResetCtl]

@[simp] theorem State.discardAll_pending (s : State) : s.discardAll.pending = s.pending := by simp [State.discardAll]

@[simp] theorem State.resetHost_pending (s : State) : s.resetHost.pending = s.pending := by simp [State.resetHost]

@[simp] theorem State.startTimebase_pending (s : State) (refKHz : Nat) : (s.startTimebase refKHz).pending = s.pending := by
  unfold State.startTimebase
  extract_lets time clk s1 s2
  have h2 : s2.pending = s.pending := by simp [s2, s1]
  split <;> simp [h2]

@[simp] theorem State.failSelfTest_pending (s : State) (arg : Nat) : (s.failSelfTest arg).pending = s.pending := by simp [State.failSelfTest]

@[simp] theorem State.measureBanks_pending (s : State) (vccio : List Nat) : (s.measureBanks vccio).pending = s.pending := by simp [State.measureBanks]

@[simp] theorem State.storedScale_pending (s : State) : s.storedScale.pending = s.pending := by simp [State.storedScale]

@[simp] theorem State.loseKeyRam_pending (s : State) : s.loseKeyRam.pending = s.pending := by simp [State.loseKeyRam]

@[simp] theorem State.enterStep4_pending (s : State) (vccio : List Nat) (policyOk keyLost : Bool) :
    (s.enterStep4 vccio policyOk keyLost).pending = s.pending := by simp [State.enterStep4]

@[simp] theorem State.endHostWait_pending (s : State) : s.endHostWait.pending = s.pending := by simp [State.endHostWait]

@[simp] theorem State.bootGo_pending (s : State) (header : Bytes) : (s.bootGo header).pending = s.pending := by simp [State.bootGo]

@[simp] theorem State.writeGo_pending (s : State) (v : Nat) (header : Bytes) : (s.writeGo v header).pending = s.pending := by simp [State.writeGo]

@[simp] theorem State.startTrees_pending (s : State) : s.startTrees.pending = s.pending := by simp [State.startTrees]

@[simp] theorem State.deassertTrees_pending (s : State) : s.deassertTrees.pending = s.pending := by simp [State.deassertTrees]

@[simp] theorem State.releaseReset_pending (s : State) : s.releaseReset.pending = s.pending := by
  unfold State.releaseReset
  extract_lets s3 fab time s4
  have h4 : s4.pending = s.pending := by simp [s4, s3]
  split <;> simp [h4]

@[simp] theorem State.banner_pending (s : State) : s.banner.pending = s.pending := by simp [State.banner]

@[simp] theorem State.completeStart_pending (s : State) : s.completeStart.pending = s.pending := by simp [State.completeStart]

/-! ### The operations of Machine/ConfigPort.lean -/

@[simp] theorem State.dropReadback_pending (s : State) (r : Readback) : (s.dropReadback r).pending = s.pending := by simp [State.dropReadback]

@[simp] theorem State.dropPortReadback_pending (s : State) : s.dropPortReadback.pending = s.pending := by
  unfold State.dropPortReadback
  split <;> simp

@[simp] theorem State.cfgEnd_pending (s : State) (r : Nat) : (s.cfgEnd r).pending = s.pending := by simp [State.cfgEnd]

@[simp] theorem State.cfgImage_pending (s : State) (len max_ : Nat) (l : Load) (header : Bytes) :
    (s.cfgImage len max_ l header).pending = s.pending := by simp [State.cfgImage]

@[simp] theorem State.tapLoad_pending (s : State) (code : Nat) : (s.tapLoad code).pending = s.pending := by simp [State.tapLoad]

@[simp] theorem State.tapDrive_pending (s : State) (code : Nat) : (s.tapDrive code).pending = s.pending := by simp [State.tapDrive]

@[simp] theorem State.scanCapture_pending (s : State) (n : Nat) : (s.scanCapture n).1.pending = s.pending := by
  induction n with
  | zero => rfl
  | succ n ih => unfold State.scanCapture; dsimp only; split <;> simp [ih]

/-! ### The operations of Machine/Recovery.lean -/

@[simp] theorem State.supersedeCells_pending (s : State) (b code : Nat) :
    (s.supersedeCells b code).pending = s.pending := by simp [State.supersedeCells]

@[simp] theorem State.supersedeBlock_pending (s : State) (b code : Nat) :
    (s.supersedeBlock b code).pending = s.pending := by simp [State.supersedeBlock]

@[simp] theorem State.dropSpares_pending (s : State) (b : Nat) : (s.dropSpares b).pending = s.pending := by
  unfold State.dropSpares
  refine foldl_pending _ _ _ fun s x => ?_
  (repeat' split) <;> simp

@[simp] theorem State.breakOff_pending (s : State) (m : Move) (reason : Nat) : (s.breakOff m reason).pending = s.pending := by
  unfold State.breakOff
  split <;> simp

@[simp] theorem State.leaveBlock_pending (s : State) (b : Nat) : (s.leaveBlock b).pending = s.pending := by simp [State.leaveBlock]

@[simp] theorem State.quarantineBlock_pending (s : State) (b why : Nat) : (s.quarantineBlock b why).pending = s.pending := by
  unfold State.quarantineBlock
  extract_lets cells late fns s1 s2 s3 block s4 s5
  have h1 : s1.pending = s.pending := by simp [s1]
  have h2 : s2.pending = s1.pending := by simp [s2]
  have h3 : s3.pending = s2.pending := State.updLeds_pending ..
  have h4 : s4.pending = s3.pending := State.setBlock_pending ..
  simp [s5, h4, h3, h2, h1]

@[simp] theorem State.moveOut_pending (s : State) (r : Nat) : (s.moveOut r).1.pending = s.pending := by
  unfold State.moveOut
  refine foldl_fst_pending _ _ _ fun a q => ?_
  split <;> simp

@[simp] theorem State.failMove_pending (s : State) (m : Move) : (s.failMove m).pending = s.pending := by
  unfold State.failMove
  split <;> simp

@[simp] theorem State.regionFails_pending (s : State) (r reason : Nat) : (s.regionFails r reason).pending = s.pending := by
  unfold State.regionFails
  extract_lets v s1 s2 fns s3 s3a s4 s5
  have h3 : s3.pending = s.pending := by simp [s3, s2, s1]
  have h4 : s4.pending = s3.pending := by simp [s4, s3a]
  have h5 : s5.pending = s4.pending := foldl_pending _ _ _ fun s e => by (repeat' split) <;> simp
  simp [h5, h4, h3]

@[simp] theorem State.restartRegion_pending (s : State) (r : Nat) : (s.restartRegion r).pending = s.pending := by simp [State.restartRegion]

@[simp] theorem State.rerun_pending (s : State) (slot : Nat) (a : Bytes) (cmd : Instr) : (s.rerun slot a cmd).pending = s.pending := by
  unfold State.rerun
  split <;> simp

@[simp] theorem State.regionBack_pending (s : State) (r : Nat) : (s.regionBack r).pending = s.pending := by
  unfold State.regionBack
  extract_lets v us s1 s2 s3
  have h2 : s2.pending = s.pending := by simp [s2, s1]
  have h3 : s3.pending = s2.pending := foldl_pending _ _ _ fun s e => by (repeat' split) <;> simp
  simp [h3, h2]

@[simp] theorem State.coreStops_pending (s : State) : s.coreStops.pending = s.pending := by simp [State.coreStops]

@[simp] theorem State.supersedeRegions_pending (s : State) : s.supersedeRegions.pending = s.pending := by simp [State.supersedeRegions]

@[simp] theorem State.faultCmd_pending (s : State) (e : Nat × Hnd) (held : List (Nat × Nat × Nat × Nat)) :
    (s.faultCmd e held).pending = s.pending := by
  unfold State.faultCmd
  dsimp only
  (repeat' split) <;> simp

@[simp] theorem State.deferredWrite_pending (s : State) (off v : Nat) : (s.deferredWrite off v).pending = s.pending := by simp [State.deferredWrite]

@[simp] theorem State.deferredBell_pending (s : State) (e : Nat × Nat × List Bytes) :
    (s.deferredBell e).pending = s.pending := by simp [State.deferredBell]

@[simp] theorem State.coreUp_pending (s : State) : s.coreUp.pending = s.pending := by simp [State.coreUp]

@[simp] theorem State.rebuildSlots_pending (s : State) : s.rebuildSlots.pending = s.pending := by simp [State.rebuildSlots]

@[simp] theorem State.coreBack_pending (s : State) : s.coreBack.pending = s.pending := by simp [State.coreBack]

@[simp] theorem State.readSupply_pending (s : State) (which : Nat) (mv : Int) :
    (s.readSupply which mv).pending = s.pending := by simp [State.readSupply]

/-! ### The operations of Machine/Registers.lean -/

@[simp] theorem State.write64_pending (s : State) (off hiOff v : Nat) (f : State → Nat → State) (hf : KeepsQueue f) :
    (s.write64 off hiOff v f).pending = s.pending := by
  unfold State.write64
  split
  · exact hf _ _
  · simp

@[simp] theorem State.writeCqGroup_pending (s : State) (q k off v : Nat) :
    (s.writeCqGroup q k off v).pending = s.pending := by simp [State.writeCqGroup]

@[simp] theorem State.writeDsGroup_pending (s : State) (n k off v : Nat) :
    (s.writeDsGroup n k off v).pending = s.pending := by simp [State.writeDsGroup]

@[simp] theorem State.writeChip_pending (s : State) (off v : Nat) : (s.writeChip off v).pending = s.pending := by simp [State.writeChip]

@[simp] theorem State.writeHost_pending (s : State) (off v : Nat) : (s.writeHost off v).pending = s.pending := by simp [State.writeHost]

@[simp] theorem State.writeClk_pending (s : State) (off v : Nat) : (s.writeClk off v).pending = s.pending := by
  unfold State.writeClk
  dsimp only
  (repeat' split) <;> simp

@[simp] theorem State.writePin_pending (s : State) (off v : Nat) : (s.writePin off v).pending = s.pending := by
  unfold State.writePin
  dsimp only
  (repeat' split) <;> simp

@[simp] theorem State.writeBoot_pending (s : State) (off v : Nat) : (s.writeBoot off v).pending = s.pending := by simp [State.writeBoot]

@[simp] theorem State.writeLocal_pending (s : State) (off v : Nat) : (s.writeLocal off v).pending = s.pending := by simp [State.writeLocal]

@[simp] theorem State.writeMsix_pending (s : State) (off v : Nat) : (s.writeMsix off v).pending = s.pending := by simp [State.writeMsix]

@[simp] theorem State.regWrite_pending (s : State) (off v : Nat) : (s.regWrite off v).pending = s.pending := by simp [State.regWrite]

@[simp] theorem State.readMon_pending (s : State) (off : Nat) : (s.readMon off).1.pending = s.pending := by
  unfold State.readMon
  dsimp only
  (repeat' split) <;> simp

@[simp] theorem State.regNow_pending (s : State) (off : Nat) : (s.regNow off).1.pending = s.pending := by simp [State.regNow]

@[simp] theorem State.regRead_pending (s : State) (off : Nat) : (s.regRead off).1.pending = s.pending := by simp [State.regRead]

@[simp] theorem State.badLocal_pending (s : State) (addr op : Nat) : (s.badLocal addr op).pending = s.pending := by simp [State.badLocal]

end Sys2Proof.Machine

/-! PROOFS. What each of the 227 rows answers: the unit that it names decides between a next state with the queue as it was and
the fault of log 4. -/

namespace Sys2Proof.Machine

/-- What every row answers: with the unit that it names, a state whose queue is as it was; without it, the fault of log 4. -/
def Answers (unit : Bool) (s : State) (o : Host.Outcome State Fault Refusal) : Prop := ∃ t, t.pending = s.pending ∧ o = ifUnit unit t

@[simp] theorem answers_next (s t : State) : Answers true s (.next t) ↔ t.pending = s.pending := by
  simp [Answers, ifUnit]

@[simp] theorem answers_ifUnit {s t : State} {unit : Bool} (h : t.pending = s.pending) : Answers unit s (ifUnit unit t) := ⟨t, h, rfl⟩

@[simp] theorem answers_queueCmd {d : Desc} {s : State} {f : State → State} (h : (f s).pending = s.pending) :
    Answers (decide (d.queue < 16)) s (queueCmd d s f) := ⟨f s, h, by simp [queueCmd, ifUnit]⟩

@[simp] theorem answers_ite (unit : Bool) (s : State) (c : Prop) [Decidable c] (a b : Host.Outcome State Fault Refusal) :
    Answers unit s (if c then a else b) ↔ if c then Answers unit s a else Answers unit s b := by split <;> rfl

theorem answers_fault (s : State) : Answers false s (.fault .noSuchUnit) := ⟨s, rfl, rfl⟩

/-! ### The rows of Machine/Placement.lean -/

@[simp] theorem execGraphPlace_answers (d : Desc) (image : Bytes) (s : State) :
    Answers (decide (d.queue < 16)) s (execGraphPlace d image s) := by simp [execGraphPlace]

@[simp] theorem execPartition_answers (t slot : Nat) (s : State) : Answers true s (execPartition t slot s) := by
  unfold execPartition
  dsimp only
  (repeat' split) <;> simp

@[simp] theorem execCellSelection_answers (t slot : Nat) (s : State) : Answers true s (execCellSelection t slot s) := by
  unfold execCellSelection
  dsimp only
  (repeat' split) <;> simp

@[simp] theorem execBuildAndMeasure_answers (t slot : Nat) (meas : List Measured) (s : State) :
    Answers true s (execBuildAndMeasure t slot meas s) := by
  unfold execBuildAndMeasure
  dsimp only
  (repeat' split) <;> simp

@[simp] theorem execEvaluate_answers (t slot : Nat) (s : State) : Answers true s (execEvaluate t slot s) := by
  unfold execEvaluate
  dsimp only
  (repeat' split) <;> simp

@[simp] theorem execGraphRemove_answers (d : Desc) (s : State) : Answers (decide (d.queue < 16)) s (execGraphRemove d s) := by simp [execGraphRemove]

@[simp] theorem execGraphTune_answers (d : Desc) (image : Bytes) (meas : Measured) (s : State) :
    Answers (decide (d.queue < 16)) s (execGraphTune d image meas s) := by simp [execGraphTune]

@[simp] theorem execGraphPin_answers (d : Desc) (pins : Bytes) (s : State) :
    Answers (decide (d.queue < 16)) s (execGraphPin d pins s) := by simp [execGraphPin]

@[simp] theorem execTransplant_answers (d : Desc) (s : State) : Answers (decide (d.queue < 16)) s (execTransplant d s) := by simp [execTransplant]

@[simp] theorem execLedgerRead_answers (d : Desc) (s : State) : Answers (decide (d.queue < 16)) s (execLedgerRead d s) := by simp [execLedgerRead]

/-! ### The rows of Machine/Conversion.lean -/

@[simp] theorem execConvConfig_answers (d : Desc) (s : State) : Answers (decide (d.queue < 16)) s (execConvConfig d s) := by simp [execConvConfig]

@[simp] theorem execSeqLoad_answers (d : Desc) (steps : Bytes) (s : State) :
    Answers (decide (d.queue < 16)) s (execSeqLoad d steps s) := by simp [execSeqLoad]

@[simp] theorem execTrigger_answers (d : Desc) (s : State) : Answers (decide (d.queue < 16)) s (execTrigger d s) := by simp [execTrigger]

@[simp] theorem execTriggerAccept_answers (t kind index : Nat) (falling : Bool) (s : State) :
    Answers true s (execTriggerAccept t kind index falling s) := by simp [execTriggerAccept]

@[simp] theorem execSyscalZero_answers (d : Desc) (s : State) : Answers (decide (d.queue < 16)) s (execSyscalZero d s) := by simp [execSyscalZero]

@[simp] theorem execSyscalFull_answers (d : Desc) (s : State) : Answers (decide (d.queue < 16)) s (execSyscalFull d s) := by simp [execSyscalFull]

@[simp] theorem execSyscalCommit_answers (d : Desc) (s : State) :
    Answers (decide (d.queue < 16)) s (execSyscalCommit d s) := by simp [execSyscalCommit]

@[simp] theorem execSyscalTimeout_answers (t slot : Nat) (s : State) : Answers true s (execSyscalTimeout t slot s) := by
  unfold execSyscalTimeout
  dsimp only
  (repeat' split) <;> simp

@[simp] theorem execOutputInstant_answers (t c : Nat) (main companion : Int) (s : State) :
    Answers (decide (c < 192)) s (execOutputInstant t c main companion s) := by
  unfold execOutputInstant
  by_cases hc : 192 ≤ c
  · rw [if_pos hc, decide_eq_false (Nat.not_lt.2 hc)]
    exact answers_fault s
  rw [if_neg hc, decide_eq_true (Nat.not_le.1 hc)]
  dsimp only
  (repeat' split) <;> simp

@[simp] theorem execApplyStrobe_answers (t : Nat) (s : State) : Answers true s (execApplyStrobe t s) := by simp [execApplyStrobe]

@[simp] theorem execLoopOverload_answers (t c : Nat) (s : State) : Answers (decide (c < 192)) s (execLoopOverload t c s) := by simp [execLoopOverload]

@[simp] theorem execLoopOverloadEnd_answers (t c : Nat) (s : State) : Answers (decide (c < 192)) s (execLoopOverloadEnd t c s) := by
  unfold execLoopOverloadEnd
  dsimp only
  (repeat' split) <;> simp

@[simp] theorem execConverterPowerGate_answers (t c : Nat) (s : State) :
    Answers (decide (c < 192)) s (execConverterPowerGate t c s) := by simp [execConverterPowerGate]

/-! ### The rows of Machine/Calibration.lean -/

@[simp] theorem execKeepStoreWrite_answers (t kind idx : Nat) (s : State) : Answers true s (execKeepStoreWrite t kind idx s) := by
  unfold execKeepStoreWrite
  dsimp only
  (repeat' split) <;> simp

@[simp] theorem execCalibrationRunStart_answers (t r kind idx0 : Nat) (s : State) : Answers true s (execCalibrationRunStart t r kind idx0 s) := by
  unfold execCalibrationRunStart
  dsimp only
  (repeat' split) <;> simp

@[simp] theorem execCalibrationRunEnd_answers (t kind idx0 : Nat) (res : CalResult) (s : State) :
    Answers true s (execCalibrationRunEnd t kind idx0 res s) := by
  unfold execCalibrationRunEnd
  extract_lets s0 idx r cal
  split
  · simp [s0]
  extract_lets s1 conv s2 s3 s4 s5
  have h2 : s2.pending = s.pending := by simp [s2, s1, s0]
  have h3 : s3.pending = s.pending := by simp only [s3]; split <;> simp [h2]
  have h4 : s4.pending = s.pending := by simp [s4, h3]
  have h5 : s5.pending = s.pending := by simp [s5, h4, h2]
  simp [s0, h5]

@[simp] theorem execCalRetry_answers (t kind idx0 : Nat) (s : State) : Answers true s (execCalRetry t kind idx0 s) := by simp [execCalRetry]

@[simp] theorem execCalIntervalDue_answers (t kind idx : Nat) (s : State) :
    Answers true s (execCalIntervalDue t kind idx s) := by simp [execCalIntervalDue]

@[simp] theorem execCalRun_answers (d : Desc) (s : State) : Answers (decide (d.queue < 16)) s (execCalRun d s) := by simp [execCalRun]

@[simp] theorem execCalPolicy_answers (d : Desc) (s : State) : Answers (decide (d.queue < 16)) s (execCalPolicy d s) := by simp [execCalPolicy]

@[simp] theorem execCalRefExternal_answers (d : Desc) (s : State) :
    Answers (decide (d.queue < 16)) s (execCalRefExternal d s) := by simp [execCalRefExternal]

@[simp] theorem execRefcalMeasurement_answers (t : Nat) (regions : List RefRegion) (s : State) : Answers true s (execRefcalMeasurement t regions s) := by
  unfold execRefcalMeasurement
  extract_lets s0 ref answer
  split
  · simp [s0]
  extract_lets ms s1 ok r out s2 excluded fits new cal s3 s3' s4 s5 cal' s6
  split
  · simp [s0]
  rw [answers_next, foldl_pending _ _ _ fun s c => by split <;> simp]
  simp [s6, s5, s4, s3', s3, s2, s1, s0]

/-! ### The rows of Machine/Moves.lean -/

@[simp] theorem execDestinationConfigured_answers (t slot prim : Nat) (s : State) : Answers true s (execDestinationConfigured t slot prim s) := by
  unfold execDestinationConfigured
  dsimp only
  (repeat' split) <;> simp

@[simp] theorem execDestinationSettled_answers (t slot prim : Nat) (s : State) : Answers true s (execDestinationSettled t slot prim s) := by
  unfold execDestinationSettled
  dsimp only
  (repeat' split) <;> simp

@[simp] theorem execMatchingRound_answers (t slot prim offIn offOut gainDiff : Nat) (trims : List (Nat × Int)) (s : State) :
    Answers true s (execMatchingRound t slot prim offIn offOut gainDiff trims s) := by
  unfold execMatchingRound
  dsimp only
  (repeat' split) <;> simp

@[simp] theorem execCrossoverComplete_answers (t slot prim : Nat) (meas : Measured) (s : State) :
    Answers true s (execCrossoverComplete t slot prim meas s) := by
  unfold execCrossoverComplete
  dsimp only
  (repeat' split) <;> simp

@[simp] theorem execSourceDisconnected_answers (t slot prim : Nat) (s : State) : Answers true s (execSourceDisconnected t slot prim s) := by
  unfold execSourceDisconnected
  dsimp only
  (repeat' split) <;> simp

@[simp] theorem execCellFault_answers (t cell monitor : Nat) (s : State) :
    Answers (decide (cell < 1024)) s (execCellFault t cell monitor s) := by simp [execCellFault]

@[simp] theorem execCellReset_answers (t cell : Nat) (readbackMatches : Bool) (s : State) :
    Answers (decide (cell < 1024)) s (execCellReset t cell readbackMatches s) := by simp [execCellReset]

@[simp] theorem execIdacCompliance_answers (t slot prim : Nat) (s : State) : Answers true s (execIdacCompliance t slot prim s) := by
  unfold execIdacCompliance
  dsimp only
  (repeat' split) <;> simp

@[simp] theorem execRepairDestination_answers (t r : Nat) (s : State) : Answers (decide (r < 8)) s (execRepairDestination t r s) := by
  unfold execRepairDestination
  dsimp only
  (repeat' split) <;> simp

@[simp] theorem execRepairConfigured_answers (t r : Nat) (s : State) :
    Answers (decide (r < 8)) s (execRepairConfigured t r s) := by simp [execRepairConfigured]

@[simp] theorem execRepairNetsConnected_answers (t r : Nat) (s : State) :
    Answers (decide (r < 8)) s (execRepairNetsConnected t r s) := by simp [execRepairNetsConnected]

@[simp] theorem execRepairSettled_answers (t r : Nat) (s : State) :
    Answers (decide (r < 8)) s (execRepairSettled t r s) := by simp [execRepairSettled]

@[simp] theorem execRepairVerified_answers (t r : Nat) (s : State) :
    Answers (decide (r < 8)) s (execRepairVerified t r s) := by simp [execRepairVerified]

@[simp] theorem execRepairTakeover_answers (t r : Nat) (meas : Measured) (s : State) :
    Answers (decide (r < 8)) s (execRepairTakeover t r meas s) := by
  unfold execRepairTakeover
  dsimp only
  (repeat' split) <;> simp

@[simp] theorem execRepairCold_answers (t r : Nat) (meas : Measured) (s : State) : Answers (decide (r < 8)) s (execRepairCold t r meas s) := by
  unfold execRepairCold
  dsimp only
  (repeat' split) <;> simp

/-! ### The rows of Machine/Stolon.lean -/

@[simp] theorem execStolonTestStart_answers (t r : Nat) (segs : List Nat) (s : State) :
    Answers (decide (r < 8)) s (execStolonTestStart t r segs s) := by
  unfold execStolonTestStart
  dsimp only
  (repeat' split) <;> simp

@[simp] theorem execStolonTestEnd_answers (t r : Nat) (scores ranks segScores : List Nat) (arbOk : Bool) (s : State) :
    Answers (decide (r < 8)) s (execStolonTestEnd t r scores ranks segScores arbOk s) := by
  unfold execStolonTestEnd
  dsimp only
  (repeat' split) <;> simp

@[simp] theorem execStolonYielded_answers (t r why : Nat) (s : State) :
    Answers (decide (r < 8)) s (execStolonYielded t r why s) := by simp [execStolonYielded]

@[simp] theorem execCoverageMissed_answers (t r : Nat) (s : State) :
    Answers (decide (r < 8)) s (execCoverageMissed t r s) := by simp [execCoverageMissed]

@[simp] theorem execSpareWarm_answers (t cell : Nat) (s : State) :
    Answers (decide (cell < 1024)) s (execSpareWarm t cell s) := by simp [execSpareWarm]

@[simp] theorem execSparesCold_answers (t r : Nat) (s : State) : Answers (decide (r < 8)) s (execSparesCold t r s) := by simp [execSparesCold]

@[simp] theorem execTemperatureReading_answers (t r : Nat) (temps : List Int) (s : State) :
    Answers (decide (r < 8)) s (execTemperatureReading t r temps s) := by simp [execTemperatureReading]

@[simp] theorem execAinOverrange_answers (t pair leg : Nat) (s : State) :
    Answers (decide (pair < 128)) s (execAinOverrange t pair leg s) := by simp [execAinOverrange]

@[simp] theorem execAinOverrangeClear_answers (t pair : Nat) (s : State) :
    Answers (decide (pair < 128)) s (execAinOverrangeClear t pair s) := by simp [execAinOverrangeClear]

@[simp] theorem execCellControlEdge_answers (t kind index : Nat) (level : Bool) (s : State) :
    Answers (decide (kind ≠ 0) && srcOk (kind * 2 ^ 28 + index)) s (execCellControlEdge t kind index level s) := by simp [execCellControlEdge]

/-! ### The rows of Machine/Dac.lean -/

@[simp] theorem execDacUpdate_answers (t n : Nat) (s : State) : Answers (decide (n < 64)) s (execDacUpdate t n s) := by simp [execDacUpdate]

@[simp] theorem execSlewTick_answers (t n : Nat) (s : State) : Answers (decide (n < 64)) s (execSlewTick t n s) := by simp [execSlewTick]

@[simp] theorem execDacBusCapture_answers (t n data : Nat) (valid : Bool) (s : State) :
    Answers (decide (n < 64)) s (execDacBusCapture t n data valid s) := by simp [execDacBusCapture]

@[simp] theorem execDdsWrap_answers (t n : Nat) (s : State) : Answers (decide (n < 64)) s (execDdsWrap t n s) := by simp [execDdsWrap]

@[simp] theorem execDdsMatch_answers (t n : Nat) (s : State) : Answers (decide (n < 64)) s (execDdsMatch t n s) := by simp [execDdsMatch]

@[simp] theorem execDacPowerupRange_answers (t n : Nat) (s : State) :
    Answers (decide (n < 64)) s (execDacPowerupRange t n s) := by simp [execDacPowerupRange]

@[simp] theorem execDacPowerupEnable_answers (t n : Nat) (s : State) :
    Answers (decide (n < 64)) s (execDacPowerupEnable t n s) := by simp [execDacPowerupEnable]

@[simp] theorem execDacSupplyLoss_answers (t : Nat) (s : State) : Answers true s (execDacSupplyLoss t s) := by simp [execDacSupplyLoss]

@[simp] theorem execRangeSwitch_answers (t n : Nat) (s : State) : Answers (decide (n < 64)) s (execRangeSwitch t n s) := by
  unfold execRangeSwitch
  dsimp only
  (repeat' split) <;> simp

@[simp] theorem execDacShort_answers (t n : Nat) (s : State) : Answers (decide (n < 64)) s (execDacShort t n s) := by simp [execDacShort]

@[simp] theorem execShortLimitReleased_answers (t n : Nat) (s : State) :
    Answers (decide (n < 64)) s (execShortLimitReleased t n s) := by simp [execShortLimitReleased]

@[simp] theorem execDacTrip_answers (t n : Nat) (s : State) : Answers (decide (n < 64)) s (execDacTrip t n s) := by
  unfold execDacTrip
  dsimp only
  (repeat' split) <;> simp

@[simp] theorem execDacSenseOpen_answers (t n mv : Nat) (s : State) :
    Answers (decide (n < 64)) s (execDacSenseOpen t n mv s) := by simp [execDacSenseOpen]

@[simp] theorem execDacSet_answers (d : Desc) (s : State) : Answers (decide (d.queue < 16)) s (execDacSet d s) := by simp [execDacSet]

@[simp] theorem execDacRange_answers (d : Desc) (s : State) : Answers (decide (d.queue < 16)) s (execDacRange d s) := by simp [execDacRange]

@[simp] theorem execDdsConfig_answers (d : Desc) (s : State) : Answers (decide (d.queue < 16)) s (execDdsConfig d s) := by simp [execDdsConfig]

@[simp] theorem execDacNvStore_answers (d : Desc) (verified : Bool) (s : State) :
    Answers (decide (d.queue < 16)) s (execDacNvStore d verified s) := by simp [execDacNvStore]

@[simp] theorem execSlewConfig_answers (d : Desc) (s : State) : Answers (decide (d.queue < 16)) s (execSlewConfig d s) := by simp [execSlewConfig]

/-! ### The rows of Machine/Streams.lean -/

@[simp] theorem execStreamRecord_answers (t c : Nat) (s : State) : Answers (decide (c < 192)) s (execStreamRecord t c s) := by
  unfold execStreamRecord
  dsimp only
  (repeat' split) <;> simp

@[simp] theorem execStreamFetchStall_answers (t ds : Nat) (s : State) : Answers (decide (ds < 64)) s (execStreamFetchStall t ds s) := by
  unfold execStreamFetchStall
  dsimp only
  (repeat' split) <;> simp

@[simp] theorem execStreamOpen_answers (d : Desc) (s : State) : Answers (decide (d.queue < 16)) s (execStreamOpen d s) := by simp [execStreamOpen]

@[simp] theorem execFlushInterval_answers (t ds : Nat) (s : State) :
    Answers (decide (ds < 64)) s (execFlushInterval t ds s) := by simp [execFlushInterval]

@[simp] theorem execStreamClose_answers (d : Desc) (s : State) : Answers (decide (d.queue < 16)) s (execStreamClose d s) := by simp [execStreamClose]

@[simp] theorem execHalt_answers (t : Nat) (value : BitVec 64) (width : Nat) (s : State) :
    Answers true s (execHalt t value width s) := by simp [execHalt]

@[simp] theorem execRelease_answers (t : Nat) (value : BitVec 64) (width : Nat) (s : State) :
    Answers true s (execRelease t value width s) := by simp [execRelease]

@[simp] theorem execMgmtEventRingHead_answers (t : Nat) (value : Word) (width : Nat) (s : State) :
    Answers true s (execMgmtEventRingHead t value width s) := by simp [execMgmtEventRingHead]

@[simp] theorem execSubmissionTail_answers (t q : Nat) (value : Word) (width : Nat) (s : State) :
    Answers (decide (q < 16)) s (execSubmissionTail t q value width s) := by simp [execSubmissionTail]

@[simp] theorem execCompletionHead_answers (t q : Nat) (value : Word) (width : Nat) (s : State) :
    Answers (decide (q < 16)) s (execCompletionHead t q value width s) := by simp [execCompletionHead]

@[simp] theorem execBufferRingTail_answers (t ds : Nat) (value : Word) (width : Nat) (descs : List Bytes) (s : State) :
    Answers (decide (ds < 64)) s (execBufferRingTail t ds value width descs s) := by simp [execBufferRingTail]

@[simp] theorem execEventRingHead_answers (t ds : Nat) (value : Word) (width : Nat) (s : State) :
    Answers (decide (ds < 64)) s (execEventRingHead t ds value width s) := by simp [execEventRingHead]

@[simp] theorem execCqEnable_answers (t q : Nat) (value : Word) (s : State) :
    Answers (decide (q < 16)) s (execCqEnable t q value s) := by simp [execCqEnable]

@[simp] theorem execCqDisable_answers (t q : Nat) (value : Word) (s : State) :
    Answers (decide (q < 16)) s (execCqDisable t q value s) := by simp [execCqDisable]

@[simp] theorem execDsEnable_answers (t ds : Nat) (value : Word) (s : State) :
    Answers (decide (ds < 64)) s (execDsEnable t ds value s) := by simp [execDsEnable]

@[simp] theorem execDsDisable_answers (t ds : Nat) (value : Word) (s : State) :
    Answers (decide (ds < 64)) s (execDsDisable t ds value s) := by simp [execDsDisable]

@[simp] theorem execMeEnable_answers (t : Nat) (value : Word) (s : State) : Answers true s (execMeEnable t value s) := by simp [execMeEnable]

@[simp] theorem execMeDisable_answers (t : Nat) (value : Word) (s : State) : Answers true s (execMeDisable t value s) := by simp [execMeDisable]

@[simp] theorem execQueueStalled_answers (t q : Nat) (s : State) : Answers (decide (q < 16)) s (execQueueStalled t q s) := by simp [execQueueStalled]

@[simp] theorem execMsixMessage_answers (t v : Nat) (s : State) : Answers (decide (v < 64)) s (execMsixMessage t v s) := by simp [execMsixMessage]

/-! ### The rows of Machine/Fabric.lean -/

@[simp] theorem execScratchpadFabricRequest_answers (t b op addr be : Nat) (wdata : Word) (ecc : Nat) (s : State) :
    Answers (decide (b < 64)) s (execScratchpadFabricRequest t b op addr be wdata ecc s) := by simp [execScratchpadFabricRequest]

@[simp] theorem execScrubWriteback_answers (t b : Nat) (s : State) : Answers (decide (b < 64)) s (execScrubWriteback t b s) := by
  unfold execScrubWriteback
  dsimp only
  (repeat' split) <;> simp

@[simp] theorem execMemCopyIn_answers (d : Desc) (data : Bytes) (granted : Nat) (s : State) :
    Answers (decide (d.queue < 16)) s (execMemCopyIn d data granted s) := by simp [execMemCopyIn]

@[simp] theorem execMemCopyOut_answers (d : Desc) (granted : Nat) (bad : Option Nat) (fixed : List Nat) (s : State) :
    Answers (decide (d.queue < 16)) s (execMemCopyOut d granted bad fixed s) := by simp [execMemCopyOut]

@[simp] theorem execMemAtomic_answers (d : Desc) (granted : Bool) (ecc : Nat) (s : State) :
    Answers (decide (d.queue < 16)) s (execMemAtomic d granted ecc s) := by simp [execMemAtomic]

@[simp] theorem execDmaTimeout_answers (t slot : Nat) (s : State) : Answers true s (execDmaTimeout t slot s) := by
  unfold execDmaTimeout
  dsimp only
  (repeat' split) <;> simp

@[simp] theorem execReadback_answers (d : Desc) (s : State) : Answers (decide (d.queue < 16)) s (execReadback d s) := by simp [execReadback]

@[simp] theorem execReadbackCapture_answers (t id : Nat) (edges : List (Nat × Nat × List (Nat × Nat))) (s : State) :
    Answers true s (execReadbackCapture t id edges s) := by
  unfold execReadbackCapture
  dsimp only
  (repeat' split) <;> simp

@[simp] theorem execReadbackBlockDone_answers (t id b : Nat) (s : State) : Answers true s (execReadbackBlockDone t id b s) := by
  unfold execReadbackBlockDone
  dsimp only
  (repeat' split) <;> simp

@[simp] theorem execFabricContention_answers (t k wire : Nat) (s : State) :
    Answers (decide (38208 ≤ k) && decide (k < 49152) && decide (wire < 8)) s (execFabricContention t k wire s) := by simp [execFabricContention]

/-! ### The rows of Machine/Clocks.lean -/

@[simp] theorem execUpllEnable_answers (t n : Nat) (value : Word) (s : State) :
    Answers (decide (n < 4)) s (execUpllEnable t n value s) := by simp [execUpllEnable]

@[simp] theorem execUpllLock_answers (t n : Nat) (s : State) : Answers (decide (n < 4)) s (execUpllLock t n s) := by simp [execUpllLock]

@[simp] theorem execGckSetup_answers (t g : Nat) (freqReg : Bool) (value : Word) (s : State) :
    Answers (decide (g < 8)) s (execGckSetup t g freqReg value s) := by simp [execGckSetup]

@[simp] theorem execGckLoss_answers (t g khz : Nat) (s : State) : Answers (decide (g < 8)) s (execGckLoss t g khz s) := by simp [execGckLoss]

@[simp] theorem execGckRestored_answers (t g khz : Nat) (s : State) :
    Answers (decide (g < 8)) s (execGckRestored t g khz s) := by simp [execGckRestored]

@[simp] theorem execResetTreeAssert_answers (t g : Nat) (s : State) :
    Answers (decide (g < 8)) s (execResetTreeAssert t g s) := by simp [execResetTreeAssert]

@[simp] theorem execResetTreeDeassert_answers (t g : Nat) (s : State) :
    Answers (decide (g < 8)) s (execResetTreeDeassert t g s) := by simp [execResetTreeDeassert]

@[simp] theorem execReferenceSelect_answers (t : Nat) (value : Word) (s : State) :
    Answers true s (execReferenceSelect t value s) := by simp [execReferenceSelect]

@[simp] theorem execRefLost_answers (t : Nat) (s : State) : Answers true s (execRefLost t s) := by simp [execRefLost]

@[simp] theorem execRefRestored_answers (t : Nat) (s : State) : Answers true s (execRefRestored t s) := by simp [execRefRestored]

@[simp] theorem execTimebaseUpdate_answers (t : Nat) (s : State) : Answers true s (execTimebaseUpdate t s) := by simp [execTimebaseUpdate]

@[simp] theorem execSyncInEdge_answers (t : Nat) (s : State) : Answers true s (execSyncInEdge t s) := by
  unfold execSyncInEdge
  dsimp only
  (repeat' split) <;> simp

@[simp] theorem execSyncInMissing_answers (t : Nat) (s : State) : Answers true s (execSyncInMissing t s) := by simp [execSyncInMissing]

@[simp] theorem execTimebaseRephase_answers (t : Nat) (s : State) : Answers true s (execTimebaseRephase t s) := by simp [execTimebaseRephase]

@[simp] theorem execSyncModeWrite_answers (t : Nat) (value : Word) (s : State) :
    Answers true s (execSyncModeWrite t value s) := by simp [execSyncModeWrite]

@[simp] theorem execTimebaseCompare_answers (t u : Nat) (s : State) :
    Answers (decide (u < 64)) s (execTimebaseCompare t u s) := by simp [execTimebaseCompare]

@[simp] theorem execCmpLoWrite_answers (t u : Nat) (value : Word) (s : State) :
    Answers (decide (u < 64)) s (execCmpLoWrite t u value s) := by simp [execCmpLoWrite]

@[simp] theorem execCmpHiWrite_answers (t u : Nat) (value : Word) (s : State) :
    Answers (decide (u < 64)) s (execCmpHiWrite t u value s) := by simp [execCmpHiWrite]

@[simp] theorem execCmpPeriodWrite_answers (t u : Nat) (value : Word) (s : State) :
    Answers (decide (u < 64)) s (execCmpPeriodWrite t u value s) := by simp [execCmpPeriodWrite]

@[simp] theorem execCmpDisarm_answers (t reg : Nat) (value : Word) (s : State) :
    Answers (decide (reg < 2)) s (execCmpDisarm t reg value s) := by simp [execCmpDisarm]

@[simp] theorem execSnapshot_answers (d : Desc) (s : State) : Answers (decide (d.queue < 16)) s (execSnapshot d s) := by simp [execSnapshot]

@[simp] theorem execSheafToken_answers (t u : Nat) (s : State) : Answers (decide (u < 417)) s (execSheafToken t u s) := by
  unfold execSheafToken
  dsimp only
  (repeat' split) <;> simp

@[simp] theorem execSnapshotComplete_answers (t : Nat) (s : State) : Answers true s (execSnapshotComplete t s) := by
  unfold execSnapshotComplete
  dsimp only
  (repeat' split) <;> simp

@[simp] theorem execSheafTimeout_answers (t : Nat) (s : State) : Answers true s (execSheafTimeout t s) := by
  unfold execSheafTimeout
  dsimp only
  (repeat' split) <;> simp

/-! ### The rows of Machine/Pins.lean -/

@[simp] theorem execFunctionSwitch_answers (t : Nat) (s : State) : Answers true s (execFunctionSwitch t s) := by
  unfold execFunctionSwitch
  dsimp only
  (repeat' split) <;> simp

@[simp] theorem execPinMap_answers (d : Desc) (entries : Bytes) (s : State) :
    Answers (decide (d.queue < 16)) s (execPinMap d entries s) := by simp [execPinMap]

@[simp] theorem execGpioWriteMasked_answers (d : Desc) (s : State) :
    Answers (decide (d.queue < 16)) s (execGpioWriteMasked d s) := by simp [execGpioWriteMasked]

@[simp] theorem execPinOut_answers (t b : Nat) (value : Word) (s : State) :
    Answers (decide (b < 12)) s (execPinOut t b value s) := by simp [execPinOut]

@[simp] theorem execPinOutMasked_answers (t b : Nat) (value : Word) (s : State) :
    Answers (decide (b < 12)) s (execPinOutMasked t b value s) := by simp [execPinOutMasked]

@[simp] theorem execPinBankVccio_answers (t b : Nat) (value : Word) (s : State) :
    Answers (decide (b < 12)) s (execPinBankVccio t b value s) := by simp [execPinBankVccio]

@[simp] theorem execPinDiff_answers (t k : Nat) (value : Word) (s : State) :
    Answers (decide (k < 4)) s (execPinDiff t k value s) := by simp [execPinDiff]

@[simp] theorem execBankSupplyFault_answers (t b mv : Nat) (s : State) :
    Answers (decide (b < 12)) s (execBankSupplyFault t b mv s) := by simp [execBankSupplyFault]

@[simp] theorem execBankSupplyRestored_answers (t b mv : Nat) (s : State) :
    Answers (decide (b < 12)) s (execBankSupplyRestored t b mv s) := by simp [execBankSupplyRestored]

@[simp] theorem execPinInputChange_answers (t p : Nat) (level : Bool) (s : State) :
    Answers (decide (p < 192)) s (execPinInputChange t p level s) := by
  unfold execPinInputChange
  dsimp only
  (repeat' split) <;> simp

@[simp] theorem execPortStatus_answers (t k : Nat) (s : State) : Answers (decide (k < 6)) s (execPortStatus t k s) :=
  answers_ifUnit (by (repeat' split) <;> simp)

@[simp] theorem execPortTx_answers (t k wdata : Nat) (s : State) : Answers (decide (k < 6)) s (execPortTx t k wdata s) :=
  answers_ifUnit (by (repeat' split) <;> simp)

@[simp] theorem execPortRx_answers (t k : Nat) (s : State) : Answers (decide (k < 6)) s (execPortRx t k s) :=
  answers_ifUnit (by dsimp only; (repeat' split) <;> simp)

@[simp] theorem execPortControl_answers (t k wdata : Nat) (s : State) : Answers (decide (k < 6)) s (execPortControl t k wdata s) :=
  answers_ifUnit (by dsimp only; (repeat' split) <;> simp)

@[simp] theorem execPortByteReceived_answers (t k byte : Nat) (err : Bool) (s : State) :
    Answers (decide (k < 6)) s (execPortByteReceived t k byte err s) := by simp [execPortByteReceived]

@[simp] theorem execPortByteSent_answers (t k : Nat) (arbLost nack : Bool) (s : State) :
    Answers (decide (k < 6)) s (execPortByteSent t k arbLost nack s) := by
  unfold execPortByteSent
  dsimp only
  (repeat' split) <;> simp

@[simp] theorem execSmbusTimeout_answers (t k : Nat) (s : State) : Answers (decide (k < 6)) s (execSmbusTimeout t k s) := by simp [execSmbusTimeout]

@[simp] theorem execUlEnable_answers (t l : Nat) (value : Word) (s : State) :
    Answers (decide (l < 8)) s (execUlEnable t l value s) := by simp [execUlEnable]

@[simp] theorem execUlTxBlock_answers (t l : Nat) (blk : BitVec 66) (ready : Bool) (s : State) :
    Answers (decide (l < 8)) s (execUlTxBlock t l blk ready s) := by simp [execUlTxBlock]

@[simp] theorem execUlRxBlock_answers (t l : Nat) (blk : BitVec 66) (s : State) :
    Answers (decide (l < 8)) s (execUlRxBlock t l blk s) := by simp [execUlRxBlock]

@[simp] theorem execUlRxOverflow_answers (t l : Nat) (s : State) : Answers (decide (l < 8)) s (execUlRxOverflow t l s) := by simp [execUlRxOverflow]

@[simp] theorem execUlLock_answers (t l : Nat) (s : State) : Answers (decide (l < 8)) s (execUlLock t l s) := by simp [execUlLock]

@[simp] theorem execUlLockLost_answers (t l : Nat) (s : State) : Answers (decide (l < 8)) s (execUlLockLost t l s) := by simp [execUlLockLost]

/-! ### The rows of Machine/Generic.lean -/

@[simp] theorem execNop_answers (d : Desc) (s : State) : Answers (decide (d.queue < 16)) s (execNop d s) := by simp [execNop]

@[simp] theorem execNopDelayPassed_answers (t slot : Nat) (s : State) : Answers true s (execNopDelayPassed t slot s) := by
  unfold execNopDelayPassed
  dsimp only
  (repeat' split) <;> simp

@[simp] theorem execQuery_answers (d : Desc) (s : State) : Answers (decide (d.queue < 16)) s (execQuery d s) := by simp [execQuery]

@[simp] theorem execAbort_answers (d : Desc) (s : State) : Answers (decide (d.queue < 16)) s (execAbort d s) := by simp [execAbort]

@[simp] theorem execLogDrain_answers (d : Desc) (s : State) : Answers (decide (d.queue < 16)) s (execLogDrain d s) := by simp [execLogDrain]

@[simp] theorem execStolonPolicy_answers (d : Desc) (s : State) :
    Answers (decide (d.queue < 16)) s (execStolonPolicy d s) := by simp [execStolonPolicy]

/-! ### The rows of Machine/Persona.lean -/

@[simp] theorem execPersonaLoad_answers (d : Desc) (header : Bytes) (s : State) :
    Answers (decide (d.queue < 16)) s (execPersonaLoad d header s) := by simp [execPersonaLoad]

@[simp] theorem execRegionLoad_answers (d : Desc) (header : Bytes) (s : State) :
    Answers (decide (d.queue < 16)) s (execRegionLoad d header s) := by simp [execRegionLoad]

@[simp] theorem execPersonaSlotTry_answers (t : Nat) (header : Bytes) (s : State) :
    Answers true s (execPersonaSlotTry t header s) := by simp [execPersonaSlotTry]

@[simp] theorem execSignatureVerified_answers (t w : Nat) (ed ml : Bool) (taken : List Nat) (s : State) :
    Answers true s (execSignatureVerified t w ed ml taken s) := by
  unfold execSignatureVerified
  dsimp only
  (repeat' split) <;> simp

@[simp] theorem execPersonaEpoch_answers (t w : Nat) (stored : Bytes) (s : State) : Answers true s (execPersonaEpoch t w stored s) := by
  unfold execPersonaEpoch
  dsimp only
  (repeat' split) <;> simp

@[simp] theorem execFrame_answers (t w : Nat) (rec : Bytes) (s : State) : Answers true s (execFrame t w rec s) := by simp [execFrame]

@[simp] theorem execRepeatRecord_answers (t w : Nat) (rec : Bytes) (s : State) : Answers true s (execRepeatRecord t w rec s) := by
  unfold execRepeatRecord
  rw [answers_next, State.takeRecord_pending]
  · simp
  intro l rec s
  dsimp only
  split <;> simp

@[simp] theorem execRegionMark_answers (t w : Nat) (rec : Bytes) (s : State) : Answers true s (execRegionMark t w rec s) := by simp [execRegionMark]

@[simp] theorem execEndRecord_answers (t w : Nat) (rec : Bytes) (s : State) : Answers true s (execEndRecord t w rec s) := by simp [execEndRecord]

@[simp] theorem execPersonaEarlyEnd_answers (t w : Nat) (s : State) : Answers true s (execPersonaEarlyEnd t w s) := by
  unfold execPersonaEarlyEnd
  dsimp only
  (repeat' split) <;> simp

@[simp] theorem execPersonaTimeout_answers (t w : Nat) (s : State) : Answers true s (execPersonaTimeout t w s) := by
  unfold execPersonaTimeout
  dsimp only
  (repeat' split) <;> simp

/-! ### The rows of Machine/RegionLoad.lean -/

@[simp] theorem execRegionIsolation_answers (t r : Nat) (s : State) : Answers (decide (r < 8)) s (execRegionIsolation t r s) := by
  refine answers_ifUnit ?_
  split
  · simp
  extract_lets fns s1 src s2 s3 s4 s5 s6
  have h5 : s5.pending = s4.pending := foldl_pending _ _ _ fun s gs => by split <;> simp
  simp [s6, h5, s4, s3, s2, s1]

@[simp] theorem execRegionClockRelease_answers (t r : Nat) (meas : List (List Measured)) (s : State) :
    Answers (decide (r < 8)) s (execRegionClockRelease t r meas s) := by
  unfold execRegionClockRelease
  dsimp only
  (repeat' split) <;> simp

/-! ### The rows of Machine/Husk.lean -/

@[simp] theorem execHuskAlarm_answers (t sensor detail : Nat) (s : State) :
    Answers (decide (sensor < 8)) s (execHuskAlarm t sensor detail s) := by simp [execHuskAlarm]

@[simp] theorem execSensorInactive_answers (t sensor : Nat) (s : State) :
    Answers (decide (sensor < 8)) s (execSensorInactive t sensor s) := by simp [execSensorInactive]

@[simp] theorem execTamperLatch_answers (t sensor : Nat) (s : State) :
    Answers (decide (sensor < 8)) s (execTamperLatch t sensor s) := by simp [execTamperLatch]

@[simp] theorem execKeyKillBurn_answers (t : Nat) (s : State) : Answers true s (execKeyKillBurn t s) := by simp [execKeyKillBurn]

@[simp] theorem execCheckpointWrite_answers (t : Nat) (s : State) : Answers true s (execCheckpointWrite t s) := by simp [execCheckpointWrite]

@[simp] theorem execAlarmPolicy_answers (d : Desc) (image : Bytes) (cr : Crypto) (verified : Bool) (s : State) :
    Answers (decide (d.queue < 16)) s (execAlarmPolicy d image cr verified s) := by simp [execAlarmPolicy]

@[simp] theorem execKeyProvision_answers (d : Desc) (blob : Bytes) (cr : Crypto) (s : State) :
    Answers (decide (d.queue < 16)) s (execKeyProvision d blob cr s) := by simp [execKeyProvision]

@[simp] theorem execAttest_answers (d : Desc) (sig : Bytes) (s : State) :
    Answers (decide (d.queue < 16)) s (execAttest d sig s) := by simp [execAttest]

/-! ### The rows of Machine/Boot.lean -/

@[simp] theorem execPor_answers (t : Nat) (cfgPull hostSel vrefSel : Bool) (s : State) :
    Answers true s (execPor t cfgPull hostSel vrefSel s) := by simp [execPor]

@[simp] theorem execBrownout_answers (t : Nat) (cfgPull hostSel vrefSel : Bool) (s : State) :
    Answers true s (execBrownout t cfgPull hostSel vrefSel s) := by simp [execBrownout]

@[simp] theorem execResetN_answers (t lowNs : Nat) (s : State) : Answers true s (execResetN t lowNs s) := by simp [execResetN]

@[simp] theorem execWarmReset_answers (t : Nat) (value : Word) (s : State) : Answers true s (execWarmReset t value s) := by simp [execWarmReset]

@[simp] theorem execPerst_answers (t : Nat) (s : State) : Answers true s (execPerst t s) := by simp [execPerst]

@[simp] theorem execLinkTrained_answers (t speed width : Nat) (s : State) :
    Answers true s (execLinkTrained t speed width s) := by simp [execLinkTrained]

@[simp] theorem execLinkRetraining_answers (t : Nat) (s : State) : Answers true s (execLinkRetraining t s) := by simp [execLinkRetraining]

@[simp] theorem execSuppliesValid_answers (t : Nat) (s : State) : Answers true s (execSuppliesValid t s) := by simp [execSuppliesValid]

@[simp] theorem execPllLock_answers (t refKHz : Nat) (fuseOk : Bool) (s : State) :
    Answers true s (execPllLock t refKHz fuseOk s) := by simp [execPllLock]

@[simp] theorem execSelfTest_answers (t fail : Nat) (vccio : List Nat) (policyOk keyLost : Bool) (s : State) :
    Answers true s (execSelfTest t fail vccio policyOk keyLost s) := by simp [execSelfTest]

@[simp] theorem execHostWaitExpiry_answers (t : Nat) (s : State) : Answers true s (execHostWaitExpiry t s) := by simp [execHostWaitExpiry]

@[simp] theorem execBootGo_answers (t : Nat) (value : Word) (header : Bytes) (s : State) :
    Answers true s (execBootGo t value header s) := by simp [execBootGo]

@[simp] theorem execDoneHigh_answers (t : Nat) (s : State) : Answers true s (execDoneHigh t s) := by simp [execDoneHigh]

@[simp] theorem execDoneTimeout_answers (t : Nat) (s : State) : Answers true s (execDoneTimeout t s) := by
  unfold execDoneTimeout
  dsimp only
  (repeat' split) <;> simp

@[simp] theorem execResetRelease_answers (t : Nat) (s : State) : Answers true s (execResetRelease t s) := by simp [execResetRelease]

@[simp] theorem execOutputEnable_answers (t : Nat) (s : State) : Answers true s (execOutputEnable t s) := by simp [execOutputEnable]

@[simp] theorem execDataAreaApply_answers (t : Nat) (meas : List (List Measured)) (s : State) :
    Answers true s (execDataAreaApply t meas s) := by simp [execDataAreaApply]

@[simp] theorem execStrawBanner_answers (t : Nat) (s : State) : Answers true s (execStrawBanner t s) := by simp [execStrawBanner]

/-! ### The rows of Machine/ConfigPort.lean -/

@[simp] theorem execCfgLoad_answers (t len : Nat) (header : Bytes) (s : State) : Answers true s (execCfgLoad t len header s) := by simp [execCfgLoad]

@[simp] theorem execProgramFallback_answers (t len : Nat) (header : Bytes) (s : State) :
    Answers true s (execProgramFallback t len header s) := by simp [execProgramFallback]

@[simp] theorem execCfgReadback_answers (t scope index time : Nat) (s : State) :
    Answers true s (execCfgReadback t scope index time s) := by simp [execCfgReadback]

@[simp] theorem execCfgStatus_answers (t : Nat) (s : State) : Answers true s (execCfgStatus t s) := by simp [execCfgStatus]

@[simp] theorem execIdentify_answers (t : Nat) (s : State) : Answers true s (execIdentify t s) := by simp [execIdentify]

@[simp] theorem execCfgTransactionGap_answers (t : Nat) (s : State) : Answers true s (execCfgTransactionGap t s) := by
  unfold execCfgTransactionGap
  dsimp only
  (repeat' split) <;> simp

@[simp] theorem execExtest_answers (t : Nat) (s : State) : Answers true s (execExtest t s) := by simp [execExtest]

@[simp] theorem execSamplePreload_answers (t : Nat) (bits_ : List Bool) (s : State) :
    Answers true s (execSamplePreload t bits_ s) := by simp [execSamplePreload]

@[simp] theorem execIdcode_answers (t : Nat) (s : State) : Answers true s (execIdcode t s) := by simp [execIdcode]

@[simp] theorem execHighz_answers (t : Nat) (s : State) : Answers true s (execHighz t s) := by simp [execHighz]

@[simp] theorem execClamp_answers (t : Nat) (s : State) : Answers true s (execClamp t s) := by simp [execClamp]

@[simp] theorem execBypass_answers (t code : Nat) (s : State) : Answers true s (execBypass t code s) := by simp [execBypass]

/-! ### The rows of Machine/Recovery.lean -/

@[simp] theorem execArbRecovery_answers (t b holder : Nat) (s : State) :
    Answers (decide (b < 64)) s (execArbRecovery t b holder s) := by simp [execArbRecovery]

@[simp] theorem execBlockQuarantine_answers (t b why : Nat) (s : State) :
    Answers (decide (b < 64)) s (execBlockQuarantine t b why s) := by simp [execBlockQuarantine]

@[simp] theorem execRegionWatchdog_answers (t r : Nat) (s : State) :
    Answers (decide (r < 8)) s (execRegionWatchdog t r s) := by simp [execRegionWatchdog]

@[simp] theorem execRegionReady_answers (t r : Nat) (ed ml : Bool) (s : State) :
    Answers (decide (r < 8)) s (execRegionReady t r ed ml s) := by simp [execRegionReady]

@[simp] theorem execRegionFailed_answers (t r : Nat) (s : State) : Answers (decide (r < 8)) s (execRegionFailed t r s) := by simp [execRegionFailed]

@[simp] theorem execRegionRestartRetry_answers (t r : Nat) (s : State) :
    Answers (decide (r < 8)) s (execRegionRestartRetry t r s) := by simp [execRegionRestartRetry]

@[simp] theorem execMgmtWatchdog_answers (t : Nat) (s : State) : Answers true s (execMgmtWatchdog t s) := by simp [execMgmtWatchdog]

@[simp] theorem execMgmtRestartEnd_answers (t : Nat) (s : State) : Answers true s (execMgmtRestartEnd t s) := by simp [execMgmtRestartEnd]

@[simp] theorem execSupplyFault_answers (t which : Nat) (mv : Int) (s : State) :
    Answers (decide (which < 3)) s (execSupplyFault t which mv s) := by simp [execSupplyFault]

@[simp] theorem execSupplyRestored_answers (t which : Nat) (mv : Int) (s : State) :
    Answers (decide (which < 3)) s (execSupplyRestored t which mv s) := by simp [execSupplyRestored]

/-! ### The rows of Machine/Registers.lean -/

@[simp] theorem execRegisterWrite_answers (t off : Nat) (value : Word) (width : Nat) (s : State) :
    Answers true s (execRegisterWrite t off value width s) := by simp [execRegisterWrite]

@[simp] theorem execLoRead_answers (t off : Nat) (s : State) : Answers true s (execLoRead t off s) := by simp [execLoRead]

@[simp] theorem execSpiWriteRingArea_answers (t addr : Nat) (data : Bytes) (s : State) :
    Answers true s (execSpiWriteRingArea t addr data s) := by simp [execSpiWriteRingArea]

@[simp] theorem execSpiReadRingArea_answers (t addr len : Nat) (s : State) :
    Answers true s (execSpiReadRingArea t addr len s) := by simp [execSpiReadRingArea]

@[simp] theorem execSpiWriteSetupRegister_answers (t off : Nat) (value : Word) (s : State) :
    Answers true s (execSpiWriteSetupRegister t off value s) := by simp [execSpiWriteSetupRegister]

@[simp] theorem execSpiReadSetupRegister_answers (t off : Nat) (s : State) :
    Answers true s (execSpiReadSetupRegister t off s) := by simp [execSpiReadSetupRegister]

@[simp] theorem execSpiWriteDoorbell_answers (t off : Nat) (data : Bytes) (s : State) :
    Answers true s (execSpiWriteDoorbell t off data s) := by simp [execSpiWriteDoorbell]

@[simp] theorem execSpiReadClearPending_answers (t : Nat) (s : State) :
    Answers true s (execSpiReadClearPending t s) := by simp [execSpiReadClearPending]

/-- Does the unit exist that a row names by a number (00 R4, R5; log 4)? Rows that number no unit have theirs. -/
def unitExists : Instr → Bool
  | .nop d | .query d | .graphPlace d _ | .graphRemove d | .graphTune d _ _ | .graphPin d _ | .transplant d | .ledgerRead d | .convConfig d
  | .seqLoad d _ | .trigger d | .syscalZero d | .syscalFull d | .syscalCommit d | .dacSet d | .dacRange d | .ddsConfig d | .dacNvStore d _
  | .slewConfig d | .calRun d | .calPolicy d | .calRefExternal d | .streamOpen d | .streamClose d | .personaLoad d _ | .regionLoad d _
  | .readback d | .snapshot d | .logDrain d | .stolonPolicy d | .attest d _ | .keyProvision d _ _ | .alarmPolicy d _ _ _ | .pinMap d _
  | .gpioWriteMasked d | .memCopyIn d _ _ | .memCopyOut d _ _ _ | .memAtomic d _ _ | .abort d => decide (d.queue < 16)
  | .submissionTail _ x _ _ | .completionHead _ x _ _ | .cqEnable _ x _ | .cqDisable _ x _ | .queueStalled _ x => decide (x < 16)
  | .bufferRingTail _ x _ _ _ | .eventRingHead _ x _ _ | .dsEnable _ x _ | .dsDisable _ x _ | .cmpLoWrite _ x _ | .cmpHiWrite _ x _
  | .cmpPeriodWrite _ x _ | .flushInterval _ x | .streamFetchStall _ x | .msixMessage _ x | .dacUpdate _ x | .dacBusCapture _ x _ _
  | .slewTick _ x | .ddsWrap _ x | .ddsMatch _ x | .dacPowerupRange _ x | .dacPowerupEnable _ x | .rangeSwitch _ x | .dacShort _ x
  | .dacTrip _ x | .dacSenseOpen _ x _ | .timebaseCompare _ x | .scratchpadFabricRequest _ x _ _ _ _ _ | .scrubWriteback _ x
  | .arbRecovery _ x _ | .blockQuarantine _ x _ | .shortLimitReleased _ x => decide (x < 64)
  | .upllEnable _ x _ | .pinDiff _ x _ | .upllLock _ x => decide (x < 4)
  | .gckSetup _ x _ _ | .ulEnable _ x _ | .regionIsolation _ x | .regionClockRelease _ x _ | .gckLoss _ x _ | .gckRestored _ x _
  | .resetTreeAssert _ x | .resetTreeDeassert _ x | .repairDestination _ x | .repairConfigured _ x | .repairNetsConnected _ x
  | .repairSettled _ x | .repairVerified _ x | .repairTakeover _ x _ | .repairCold _ x _ | .stolonTestStart _ x _
  | .stolonTestEnd _ x _ _ _ _ | .stolonYielded _ x _ | .coverageMissed _ x | .regionWatchdog _ x | .regionReady _ x _ _
  | .regionFailed _ x | .regionRestartRetry _ x | .temperatureReading _ x _ | .ulTxBlock _ x _ _ | .ulRxOverflow _ x | .ulLock _ x
  | .ulLockLost _ x | .huskAlarm _ x _ | .tamperLatch _ x | .sparesCold _ x | .sensorInactive _ x | .ulRxBlock _ x _ => decide (x < 8)
  | .cmpDisarm _ x _ => decide (x < 2)
  | .pinBankVccio _ x _ | .pinOut _ x _ | .pinOutMasked _ x _ | .bankSupplyFault _ x _ | .bankSupplyRestored _ x _ => decide (x < 12)
  | .outputInstant _ x _ _ | .loopOverload _ x | .loopOverloadEnd _ x | .converterPowerGate _ x | .streamRecord _ x
  | .pinInputChange _ x _ => decide (x < 192)
  | .fabricContention _ k wire => decide (38208 ≤ k) && decide (k < 49152) && decide (wire < 8)
  | .sheafToken _ x => decide (x < 417)
  | .cellControlEdge _ kind index _ => decide (kind ≠ 0) && srcOk (kind * 2 ^ 28 + index)
  | .ainOverrange _ x _ | .ainOverrangeClear _ x => decide (x < 128)
  | .cellFault _ x _ | .spareWarm _ x | .cellReset _ x _ => decide (x < 1024)
  | .supplyFault _ x _ | .supplyRestored _ x _ => decide (x < 3)
  | .portStatus _ x | .portTx _ x _ | .portRx _ x | .portControl _ x _ | .portByteReceived _ x _ _ | .portByteSent _ x _ _
  | .smbusTimeout _ x => decide (x < 6)
  | _ => true

/-- What a row answers: the unit that it names decides between a next state, whose queue is as it was, and the fault. -/
theorem exec_answers (c : Instr) (s : State) : Answers (unitExists c) s (exec c s) := by
  cases c with
  | cmpDisarm t reg v => exact execCmpDisarm_answers t reg v s
  | cellControlEdge t kind index level => exact execCellControlEdge_answers t kind index level s
  | _ => simp [exec, unitExists]

/-- The control sources that CELL_CONTROL_EDGE may name (02 R46). -/
theorem srcOk_of_edge {kind index : Nat}
    (h : ((kind = 1 ∧ index < 1024 ∨ kind = 2 ∧ index < 32) ∨ kind = 3 ∧ index < 64) ∨ kind = 4 ∧ index < 128) :
    srcOk (kind * 2 ^ 28 + index) = true := by
  have hd : (kind * 2 ^ 28 + index) / 2 ^ 28 = kind := by omega
  have hm : (kind * 2 ^ 28 + index) % 2 ^ 28 = index := by omega
  unfold srcOk
  rw [hd, hm]
  rcases h with ((⟨rfl, hi⟩ | ⟨rfl, hi⟩) | ⟨rfl, hi⟩) | ⟨rfl, hi⟩ <;> simp [hi]
/-- The units of a well-formed row exist. -/
theorem unitExists_of_wf {c : Instr} (h : c.wf = true) : unitExists c = true := by
  revert h
  cases c with
  | cellControlEdge t kind index level => 
    intro h
    simp only [Instr.wf, Bool.and_eq_true, Bool.or_eq_true, decide_eq_true_eq] at h
    have hk : kind ≠ 0 := by omega
    simp only [unitExists, srcOk_of_edge h.2, hk, ne_eq, not_false_eq_true, decide_true, Bool.and_self]
  | _ => simp +contextual [Instr.wf, Desc.wf, unitExists]

end Sys2Proof.Machine

/-! PROOFS. The statements of 00_scope.md: the step, units that exist and units that do not, handles, absent converters. -/

namespace Sys2Proof.Machine

/-! ### The step -/

@[simp] theorem step_cons {s : State} {c : Instr} {rest : List Instr} (h : s.pending = c :: rest) :
    step s = exec c { s with pending := rest } := by
  unfold step
  rw [h]

@[simp] theorem step_nil {s : State} (h : s.pending = []) : step s = .next s.tick := by
  unfold step
  rw [h]

/-- Settles O1: a step is `exec` of the front command on the state with the queue's rest. -/
theorem stepRunsTheFrontCommand : Obligations.StepRunsTheFrontCommand :=
  fun _ _ => ⟨rfl, fun _ h => step_cons h⟩

/-- A row that answers a next state leaves the queue as it was. -/
theorem exec_pending {c : Instr} {s t : State} (h : exec c s = .next t) : t.pending = s.pending := by
  obtain ⟨u, hu, e⟩ := exec_answers c s
  rw [e] at h
  cases hc : unitExists c <;> simp_all [ifUnit]

/-- Settles O6: the idle tick and every row leave the queue that they find. -/
theorem stepTakesOnlyTheFront : Obligations.StepTakesOnlyTheFront := by
  intro s t h
  cases hp : s.pending with
  | nil =>
    rw [step_nil hp] at h
    cases h
    simp [hp]
  | cons c rest =>
    rw [step_cons hp] at h
    simpa using exec_pending h

/-! ### Units that exist and units that do not -/

theorem exec_next {c : Instr} (s : State) (h : unitExists c = true) : ∃ t, exec c s = .next t := by
  obtain ⟨t, -, e⟩ := exec_answers c s
  exact ⟨t, by simp [e, h, ifUnit]⟩

theorem exec_absent {c : Instr} (s : State) (h : unitExists c = false) : exec c s = .fault .noSuchUnit := by
  obtain ⟨t, -, e⟩ := exec_answers c s
  simp [e, h, ifUnit]

/-- Settles O7: whether the unit that a row names exists decides its outcome, and well-formedness says that it does. -/
theorem commandsNeverRefused : Obligations.CommandsNeverRefused := by
  refine ⟨fun c s h => exec_next s (unitExists_of_wf h), fun c s => ?_⟩
  cases h : unitExists c with
  | true => exact .inl (exec_next s h)
  | false => exact .inr (exec_absent s h)

/-- Settles O8: each of the numbers lies beyond the units of its kind. -/
theorem absentUnitsFault : Obligations.AbsentUnitsFault := by
  intro s t v d x
  have beyond {n k : Nat} (h : n ≤ k) : decide (k < n) = false := decide_eq_false (Nat.not_lt.2 h)
  refine ⟨fun h => ⟨?_, ?_, ?_⟩, fun h => ⟨?_, ?_, ?_⟩, fun h => ⟨?_, ?_, ?_⟩, fun h => ⟨?_, ?_, ?_, ?_, ?_, ?_⟩, fun h => ⟨?_, ?_, ?_, ?_⟩,
    fun h => ?_, fun h => ?_, fun h => ?_⟩ <;>
  exact exec_absent s (beyond h)

/-! ### Handles -/

/-- A queue table out of canonical form: queue 0 is listed twice. The first entry, whose head stands before the wrap, becomes the
default when a descriptor is consumed; `Tbl.set` then drops it, and a read finds the second one. -/
def twiceListed : State :=
  { State.reset with host := { State.reset.host with cqs := [(0, { sqHead := 15 }), (0, { owed := 5 })] } }

/-- Refutes O13: its first clause asks no canonical form of the queue table. In `twiceListed` queue 0 owes nothing, and after an
acceptance it owes 6, not 1. -/
theorem not_handlesAndSlots : ¬ Obligations.HandlesAndSlots := by
  intro h
  obtain ⟨-, -, -, -, -, -, -, howed, -⟩ :=
    h.1 twiceListed { t := 0, queue := 0, opcode := 1, flags := 0, tag := 0, argAddr := 0, inl := [], args := [] } 0 []
  exact absurd howed (by decide)

/-! ### Rejections by a command's own check -/

/-- A well-formed command that its own check turns away, with the device not busy, is rejected, and nothing else of it happens. -/
theorem dispatch_rejected {s : State} {op : Nat} {d : Desc} {bad : Bytes → Option Nat} {pre : State → Bytes → Option Nat} {a : Bytes} {st : Nat}
    (h : Judged s op d a) (hk : (opcodes.any fun e => e.1 == op) = true) (hb : bad a = none) (hy : (s.at d.t).busyFor op a = false)
    (hp : pre (s.consumed d) a = some st) : s.dispatch op d bad pre = (s.rejected d st 0, none) := by
  obtain ⟨-, ho, hm, hd, ha⟩ := h
  have hd' : (s.consumed d).descBad (s.atDesc d) (argLen op) = none := hd
  have hy' : (s.consumed d).busyFor op a = false := hy
  unfold State.dispatch
  dsimp only
  rw [show (s.at d.t).fetched d = s.atDesc d from rfl, ho, if_neg (by simp [hm]), if_neg (by simp [hk]),
    show (s.at d.t).setCq (s.atDesc d).queue _ = s.consumed d from rfl, hd']
  dsimp only
  rw [← ha, hb]
  dsimp only
  rw [hy', if_neg (by decide), hp]
  rfl

/-- As `dispatch_rejected`, for the row. -/
theorem queueCmd_rejected {s : State} {op : Nat} {d : Desc} {bad : Bytes → Option Nat} {pre : State → Bytes → Option Nat} {a : Bytes} {st : Nat}
    {body : Nat → Bytes → State → State} (h : Judged s op d a) (hk : (opcodes.any fun e => e.1 == op) = true) (hb : bad a = none)
    (hy : (s.at d.t).busyFor op a = false) (hp : pre (s.consumed d) a = some st) :
    queueCmd d s (fun s => s.command op d bad pre body) = .next (s.rejected d st 0) := by
  unfold queueCmd State.command
  rw [if_pos h.1]
  dsimp only
  rw [dispatch_rejected h hk hb hy hp]

/-- The one check that CONV_CONFIG, SEQ_LOAD and the SYSCAL commands make of their own. -/
theorem convPre_absent {a : Bytes} (s : State) (h : 192 ≤ byteAt a 0) : convPre s a = some stRANGE := if_neg (Nat.not_lt.2 h)

theorem noConverter_absent {c : Nat} (h : 192 ≤ c) (h' : c ≤ 255) : noConverter c = true := by
  simp [noConverter]
  omega

/-- The converters of region `r` are PM 8r + j and WM 64 + 16r + j (00 R5). -/
theorem converter_iff (c : Nat) : c < 192 ↔ (∃ r j, r < 8 ∧ j < 8 ∧ c = 8 * r + j ∧ isWM c = false ∧ convRegion c = r) ∨
    (∃ r j, r < 8 ∧ j < 16 ∧ c = 64 + 16 * r + j ∧ isWM c = true ∧ convRegion c = r) := by
  constructor
  · intro h
    by_cases hw : c < 64
    · exact .inl ⟨c / 8, c % 8, by omega, by omega, by omega, by simp [isWM, hw], by simp [convRegion, hw]⟩
    · exact .inr ⟨(c - 64) / 16, (c - 64) % 16, by omega, by omega, by omega, by simp [isWM]; omega, by simp [convRegion, hw]⟩
  · rintro (⟨r, j, hr, hj, rfl, -⟩ | ⟨r, j, hr, hj, rfl, -⟩) <;> omega

/-- Settles O60: the command's own check gives RANGE, and `queueCmd_rejected` says that nothing else happens. -/
theorem absentConvertersRejected : Obligations.AbsentConvertersRejected := by
  refine ⟨?_, ?_, ?_, ?_, ?_, ?_, ?_, converter_iff⟩
  · intro s d a h hb hy hc
    exact queueCmd_rejected h rfl hb hy (convPre_absent (s.consumed d) hc)
  · intro s d steps a h hb hs hy hc
    exact queueCmd_rejected h rfl (by simp only [hb, hs]) hy (convPre_absent (s.consumed d) hc)
  · intro s d a h hb hy hc
    exact queueCmd_rejected h rfl hb hy (convPre_absent (s.consumed d) hc)
  · intro s d a h hb hy hc
    exact queueCmd_rejected h rfl hb hy (convPre_absent (s.consumed d) hc)
  · intro s d a h hb hy hc
    exact queueCmd_rejected h rfl hb hy (convPre_absent (s.consumed d) hc)
  · intro s d a h hb hy hk hc hc'
    exact queueCmd_rejected h rfl (by simp [hk, hb]) hy (by simp [hk, noConverter_absent hc hc'])
  · intro s d a h hb hy hk hc hc'
    exact queueCmd_rejected h rfl hb hy (by simp [hk, noConverter_absent hc hc'])

end Sys2Proof.Machine

/-! PROOFS. The statements of 01_organisation.md, the rules that they share: what a counter, the log and a ring entry leave as it was
beyond `Quiet`, reads of a table after an update, and a row that names a unit which exists. -/

namespace Sys2Proof.Machine

/-! ### What the log and the rings leave as it was, beyond `Quiet` -/

/-- The loader, the streams, and whether the management core runs: no counter, log entry or ring entry touches them. -/
structure Aside (s t : State) : Prop where
  boot : t.boot = s.boot
  dss : t.host.dss = s.host.dss
  restarting : t.chip.restarting = s.chip.restarting
  failed : t.chip.failed = s.chip.failed

theorem Aside.refl (s : State) : Aside s s := ⟨rfl, rfl, rfl, rfl⟩

theorem Aside.trans {s t u : State} (h : Aside s t) (k : Aside t u) : Aside s u :=
  ⟨k.boot.trans h.boot, k.dss.trans h.dss, k.restarting.trans h.restarting, k.failed.trans h.failed⟩

theorem Aside.ite {s a b : State} {c : Prop} [Decidable c] (ha : Aside s a) (hb : Aside s b) : Aside s (if c then a else b) := by
  split
  · exact ha
  · exact hb

theorem hostWrite_aside (s : State) (a : Nat) (b : Bytes) : Aside s (s.hostWrite a b) :=
  .ite (.refl s) (.ite (.ite ⟨rfl, rfl, rfl, rfl⟩ (.refl s)) ⟨rfl, rfl, rfl, rfl⟩)

theorem raiseVec_aside (s : State) (v : Nat) : Aside s (s.raiseVec v) := .ite (.refl s) ⟨rfl, rfl, rfl, rfl⟩

theorem setCq_aside (s : State) (q : Nat) (c : Cq) : Aside s (s.setCq q c) := ⟨rfl, rfl, rfl, rfl⟩

theorem setHnd_aside (s : State) (n : Nat) (v : Hnd) : Aside s (s.setHnd n v) := ⟨rfl, rfl, rfl, rfl⟩

theorem chip_aside (s : State) (v : Chip) (hr : v.restarting = s.chip.restarting) (hf : v.failed = s.chip.failed) :
    Aside s { s with chip := v } := ⟨rfl, rfl, hr, hf⟩

theorem bumpRaw_aside (s : State) (u k n : Nat) : Aside s (s.bumpRaw u k n).1 := ⟨rfl, rfl, rfl, rfl⟩

theorem host_aside (s : State) (v : HostIf) (h : v.dss = s.host.dss) : Aside s { s with host := v } := ⟨rfl, h, rfl, rfl⟩

theorem meWrite_aside (s : State) (e : LogEntry) : Aside s (s.meWrite e) :=
  ((hostWrite_aside s _ _).trans (host_aside _ _ (by rfl))).trans (raiseVec_aside _ _)

theorem meRaise_aside (s : State) (e : LogEntry) : Aside s (s.meRaise e) :=
  .ite (.refl s) (.ite (meWrite_aside s e) (.ite ⟨rfl, rfl, rfl, rfl⟩ ⟨rfl, rfl, rfl, rfl⟩))

theorem logPush_aside (s : State) (e : LogEntry) : Aside s (s.logPush e) :=
  .ite ⟨rfl, rfl, rfl, rfl⟩ (.ite ⟨rfl, rfl, rfl, rfl⟩ ⟨rfl, rfl, rfl, rfl⟩)

theorem logWrite_aside (s : State) (e : LogEntry) : Aside s (s.logWrite e).1 := by
  have h := (logPush_aside s e).trans (bumpRaw_aside _ 0 2 1)
  unfold State.logWrite
  dsimp only
  split
  · exact (h.trans (meRaise_aside _ e)).trans (bumpRaw_aside _ 0 3 1)
  · exact h

theorem logAll_aside (n : Nat) (l : List LogEntry) (s : State) : Aside s (State.logAll n l s) := by
  induction n generalizing l s with
  | zero => exact .refl s
  | succ n ih =>
    cases l with
    | nil => exact .refl s
    | cons e es => exact (logWrite_aside s e).trans (ih _ _)

theorem logEntry_aside (s : State) (e : LogEntry) : Aside s (s.logEntry e) :=
  .ite (.refl s) (.ite (.ite ⟨rfl, rfl, rfl, rfl⟩ ⟨rfl, rfl, rfl, rfl⟩) (logAll_aside ..))

theorem log_aside (s : State) (code level idx a0 a1 : Nat) : Aside s (s.log code level idx a0 a1) := logEntry_aside s _

theorem bump_aside (s : State) (u k : Nat) : Aside s (s.bump u k) :=
  .ite ((bumpRaw_aside s u k 1).trans (log_aside ..)) (bumpRaw_aside s u k 1)

theorem post_aside (s : State) (q tag handle kind status r0 r1 : Nat) (irq : Bool) : Aside s (s.post q tag handle kind status r0 r1 irq) := by
  have h a b c := (hostWrite_aside s a b).trans (setCq_aside (s.hostWrite a b) q c)
  exact .ite ((h _ _ _).trans (raiseVec_aside ..)) (h _ _ _)

theorem accept_aside (s : State) (d : Desc) (a : Bytes) (slot : Nat) : Aside s (s.accept d a slot) := by
  unfold State.accept
  exact ((((setHnd_aside s _ _).trans (chip_aside _ _ (by rfl) (by rfl))).trans (setCq_aside _ _ _)).trans
    ((bump_aside _ _ _).trans (bump_aside _ _ _))).trans (post_aside ..)

/-- An admitted command finds the streams as they were. -/
@[simp] theorem admitted_ds (s : State) (d : Desc) (slot : Nat) (a : Bytes) (n : Nat) : (s.admitted d slot a).ds n = s.ds n := by
  have h : (s.admitted d slot a).host.dss = s.host.dss :=
    ((setCq_aside _ _ _).trans (accept_aside (s.consumed d) _ a slot)).dss.trans (by rw [at_host])
  unfold State.ds
  rw [h]

/-! ### Time moves the timebase alone -/

@[simp] theorem at_step (s : State) (t : Nat) : (s.at t).time.step = s.time.step := by unfold State.at; split <;> rfl

@[simp] theorem at_done (s : State) (t : Nat) : (s.at t).time.done = s.time.done := by unfold State.at; split <;> rfl

@[simp] theorem at_localMode (s : State) (t : Nat) : (s.at t).time.localMode = s.time.localMode := by unfold State.at; split <;> rfl

/-! ### Reads of a table -/

/-- A change of every value that leaves the default alone changes what is read. -/
theorem Tbl.get_map {α : Type} {d : α} (f : α → α) (hd : f d = d) (k : Nat) (l : Tbl α) :
    Tbl.get d k (l.map fun e => (e.1, f e.2)) = f (Tbl.get d k l) := by
  induction l with
  | nil => exact hd.symm
  | cons e l ih =>
    by_cases h : e.1 = k
    · simp [Tbl.get, h]
    · simp [Tbl.get, h, ih]

theorem ds_setDs_other {s : State} {n k : Nat} {v : Ds} (h : k ≠ n) : (s.setDs n v).ds k = s.ds k := Tbl.get_set_other h

/-- An open stream differs from the default, so that it is read back whatever the table lists. -/
theorem ds_setDs_opened {s : State} {n : Nat} {v : Ds} (h : v.opened = true) : (s.setDs n v).ds n = v :=
  Tbl.get_set_ne fun e => by simp [e] at h

theorem conv_setConv_other {s : State} {n k : Nat} {v : Conv} (h : k ≠ n) : (s.setConv n v).conv k = s.conv k := Tbl.get_set_other h

/-! ### A row that names a unit which exists -/

theorem ifUnit_of {p : Prop} [Decidable p] (h : p) (s : State) : ifUnit (decide p) s = .next s := if_pos (decide_eq_true h)

end Sys2Proof.Machine

/-! PROOFS. Streams (11 R310-R315, R321, R323; 12 R345, R346; 17 R459): the statement of 01_organisation.md R28. -/

namespace Sys2Proof.Machine

/-! ### STREAM_OPEN (12 R345) -/

/-- The converters `cs` deliver to stream `n`. -/
def State.routeTo (s : State) (n : Nat) (cs : List Nat) : State :=
  cs.foldl (fun s c => s.setConv c { s.conv c with cfg := { (s.conv c).cfg with stream := n } }) s

/-- The records of stream `n` are discarded from the links. -/
def State.dropLinks (s : State) (n : Nat) : State :=
  { s with convs := s.convs.map fun e => (e.1, { e.2 with link := e.2.link.filter fun r => decide (r.stream ≠ n) }) }

/-- No converter of stream `n` has a lost record to mark. -/
def State.dropGaps (s : State) (n : Nat) : State :=
  { s with host := { s.host with gap := s.host.gap.filter fun c => decide ((s.conv c).cfg.stream ≠ n) } }

/-- A stream as STREAM_OPEN with record `a` opens it. -/
def Ds.openBy (d : Ds) (slot : Nat) (a : Bytes) : Ds :=
  { d with opened := true, handle := slot, dropSettling := bit (byteAt a 1) 0, flush := fld a 4 4, seq := 0, stage := [], cur := none,
           written := 0, closing := none }

/-- The state in which STREAM_OPEN posts its FINAL. -/
def State.openStream (s : State) (slot : Nat) (a : Bytes) : State :=
  (((s.routeTo (byteAt a 0) (maskConvs a 8)).dropLinks (byteAt a 0)).dropGaps (byteAt a 0)).setDs (byteAt a 0) ((s.ds (byteAt a 0)).openBy slot a)

/-- Routing changes the converters alone. -/
theorem routeTo_convs (s : State) (n : Nat) (cs : List Nat) : ∃ l, s.routeTo n cs = { s with convs := l } := by
  induction cs generalizing s with
  | nil => exact ⟨s.convs, rfl⟩
  | cons c cs ih =>
    obtain ⟨l, hl⟩ := ih (s.setConv c { s.conv c with cfg := { (s.conv c).cfg with stream := n } })
    exact ⟨l, hl⟩

theorem routeTo_frame (s : State) (n : Nat) (cs : List Nat) :
    (s.routeTo n cs).host = s.host ∧ (s.routeTo n cs).dacs = s.dacs ∧ (s.routeTo n cs).til = s.til := by
  obtain ⟨l, hl⟩ := routeTo_convs s n cs
  rw [hl]
  exact ⟨rfl, rfl, rfl⟩

/-- Number 0xFF stands for no stream, so a converter that has a stream is listed. -/
theorem conv_setStream (s : State) {n : Nat} (hn : n < 64) (c : Nat) :
    ((s.setConv c { s.conv c with cfg := { (s.conv c).cfg with stream := n } }).conv c).cfg = { (s.conv c).cfg with stream := n } := by
  have h : ({ s.conv c with cfg := { (s.conv c).cfg with stream := n } } : Conv) ≠ {} := by
    intro e
    have h255 : n = 0xFF := congrArg (fun v => v.cfg.stream) e
    omega
  exact congrArg Conv.cfg (Tbl.get_set_ne h)

theorem routeTo_cfg_other {s : State} {n c : Nat} {cs : List Nat} (h : c ∉ cs) : ((s.routeTo n cs).conv c).cfg = (s.conv c).cfg := by
  induction cs generalizing s with
  | nil => rfl
  | cons x cs ih =>
    obtain ⟨hx, hcs⟩ := not_or.1 (mt List.mem_cons.2 h)
    exact (ih hcs).trans (congrArg Conv.cfg (conv_setConv_other hx))

theorem routeTo_stream {s : State} {n c : Nat} {cs : List Nat} (hn : n < 64) (h : c ∈ cs) : ((s.routeTo n cs).conv c).cfg.stream = n := by
  induction cs generalizing s with
  | nil => cases h
  | cons x cs ih =>
    by_cases hc : c ∈ cs
    · exact ih hc
    · obtain rfl : c = x := (List.mem_cons.1 h).resolve_right hc
      exact congrArg ConvCfg.stream ((routeTo_cfg_other hc).trans (conv_setStream s hn c))

theorem dropLinks_conv (s : State) (n c : Nat) :
    (s.dropLinks n).conv c = { s.conv c with link := (s.conv c).link.filter fun r => decide (r.stream ≠ n) } :=
  Tbl.get_map (fun v : Conv => { v with link := v.link.filter fun r => decide (r.stream ≠ n) }) rfl c s.convs

theorem dropLinks_cfg (s : State) (n c : Nat) : ((s.dropLinks n).conv c).cfg = (s.conv c).cfg := by
  rw [dropLinks_conv]

theorem openStream_cfg (s : State) (slot : Nat) (a : Bytes) (c : Nat) :
    ((s.openStream slot a).conv c).cfg = ((s.routeTo (byteAt a 0) (maskConvs a 8)).conv c).cfg := dropLinks_cfg ..

theorem openStream_ds (s : State) (slot : Nat) (a : Bytes) :
    (s.openStream slot a).ds (byteAt a 0) = (s.ds (byteAt a 0)).openBy slot a := ds_setDs_opened rfl

theorem openStream_ds_other {s : State} {slot k : Nat} {a : Bytes} (h : k ≠ byteAt a 0) : (s.openStream slot a).ds k = s.ds k := by
  obtain ⟨hhost, -, -⟩ := routeTo_frame s (byteAt a 0) (maskConvs a 8)
  refine (ds_setDs_other h).trans ?_
  change Tbl.get {} k (s.routeTo (byteAt a 0) (maskConvs a 8)).host.dss = Tbl.get {} k s.host.dss
  rw [hhost]

/-- Does one of the converters `cs` belong to an open stream other than `n`? -/
def State.takenElse (s : State) (n : Nat) (cs : List Nat) : Bool :=
  cs.any fun c => decide ((s.conv c).cfg.stream ≠ n) && decide ((s.conv c).cfg.stream < 64) && (s.ds (s.conv c).cfg.stream).opened

theorem takenElse_of {s : State} {n : Nat} {cs : List Nat}
    (h : ∃ c ∈ cs, (s.conv c).cfg.stream ≠ n ∧ (s.conv c).cfg.stream < 64 ∧ (s.ds (s.conv c).cfg.stream).opened = true) :
    s.takenElse n cs = true := by
  obtain ⟨c, hc, hne, hlt, ho⟩ := h
  exact List.any_eq_true.2 ⟨c, hc, by simp [hne, hlt, ho]⟩

theorem not_takenElse_of {s : State} {n : Nat} {cs : List Nat}
    (h : ∀ c ∈ cs, (s.conv c).cfg.stream = n ∨ 64 ≤ (s.conv c).cfg.stream ∨ (s.ds (s.conv c).cfg.stream).opened = false) :
    s.takenElse n cs = false := by
  refine List.any_eq_false.2 fun c hc => ?_
  rcases h c hc with e | e | e <;> simp [e]

theorem bodyStreamOpen_taken {s : State} {cmd : Instr} {slot : Nat} {a : Bytes} (hn : byteAt a 0 < 64) (hf : fld a 4 4 ≤ 60000)
    (h : s.takenElse (byteAt a 0) (maskConvs a 8) = true) : bodyStreamOpen cmd slot a s = s.final slot stNO_RESOURCE 0 0 := by
  unfold bodyStreamOpen
  exact (if_neg (by omega)).trans (if_pos (.inr (.inr h)))

theorem bodyStreamOpen_opens {s : State} {cmd : Instr} {slot : Nat} {a : Bytes} (hn : byteAt a 0 < 64) (hf : fld a 4 4 ≤ 60000)
    (ho : (s.ds (byteAt a 0)).opened = false) (he : (s.ds (byteAt a 0)).enable = true)
    (h : s.takenElse (byteAt a 0) (maskConvs a 8) = false)
    (hr : ∀ c ∈ maskConvs a 8, (s.region (convRegion c)).failed = false ∧ (s.region (convRegion c)).ready = true) :
    bodyStreamOpen cmd slot a s = (s.openStream slot a).finalObj slot 2 stOK 0 0 := by
  have hregions : ∀ r ∈ ((maskConvs a 8).map convRegion).eraseDups, (s.region r).failed = false ∧ (s.region r).ready = true := by
    intro r hmem
    obtain ⟨c, hc, rfl⟩ := List.mem_map.1 (List.mem_eraseDups.1 hmem)
    exact hr c hc
  have hfree : ¬ ((s.ds (byteAt a 0)).opened = true ∨ (!(s.ds (byteAt a 0)).enable) = true ∨
      s.takenElse (byteAt a 0) (maskConvs a 8) = true) := by simp [ho, he, h]
  unfold bodyStreamOpen
  exact ((if_neg (by omega)).trans (if_neg hfree)).trans (onRegions_ready hregions)

/-! ### STREAM_CLOSE (12 R346; 11 R315) -/

theorem bodyStreamClose_open {s : State} {slot n : Nat} {a : Bytes} (hn : s.streamOf (fld a 0 2) = some n) (hc : (s.ds n).closing = none) :
    bodyStreamClose slot a s =
      (((s.dropLinks n).setDs n { s.ds n with closing := some (slot, 0) }).setWork slot (.close n)).closeStep n := by
  unfold bodyStreamClose
  rw [hn]
  exact if_neg (by simp [hc])

/-! ### STREAM_RECORD (11 R310, R314; 01 R28) -/

theorem arrive_closed {s : State} {r : Rec} (h : (s.ds r.stream).opened = false ∨ (s.ds r.stream).closing ≠ none) : s.arrive r = s :=
  if_pos (by rcases h with h | h <;> simp [h, Option.isSome_iff_ne_none])

theorem arrive_open {s : State} {r : Rec} (ho : (s.ds r.stream).opened = true) (hc : (s.ds r.stream).closing = none) :
    s.arrive r = if (s.ds r.stream).halted = true ∨ decide (512 ≤ (s.ds r.stream).stage.length) = true then (s.markLost r.src).bump (uDs r.stream) 2
      else (State.setDs { s with host := { s.host with gap := s.host.gap.filter fun k => decide (k ≠ r.src) } } r.stream
        { s.ds r.stream with stage := (s.ds r.stream).stage ++ [if s.host.gap.contains r.src then { r with flags := Nat.lor r.flags 64 } else r] }).drainAll
          r.stream :=
  if_neg (by simp [ho, hc])

/-- A cut copies and clears counters; the host interface it leaves as it was. -/
theorem cutUnit_host (s : State) (p : Snap) (u : Nat) : (s.cutUnit p u).host = s.host := by
  have h (ks : List Nat) (s : State) :
      (ks.foldl (fun (s : State) k => s.setCtr u k (clearCtr p.flags (isErrCtr u k) (s.ctr u k))) s).host = s.host := by
    induction ks generalizing s with
    | nil => rfl
    | cons k ks ih => exact ih _
  exact h _ s

@[simp] theorem tokenFirst_host (s : State) (r : Rec) : (s.tokenFirst r).host = s.host := by
  unfold State.tokenFirst
  split
  · rfl
  · split
    · rfl
    · exact cutUnit_host ..

/-- The state in which a record that has left its link reaches the stream engine, behind its token, has the streams of before. -/
theorem tokenFirst_setConv_host (s : State) (t c : Nat) (v : Conv) (r : Rec) : (((s.at t).setConv c v).tokenFirst r).host = s.host := by
  rw [tokenFirst_host, State.setConv_host, at_host]

theorem tokenFirst_setConv_ds (s : State) (t c : Nat) (v : Conv) (r : Rec) (n : Nat) : (((s.at t).setConv c v).tokenFirst r).ds n = s.ds n := by
  unfold State.ds
  rw [tokenFirst_setConv_host]

theorem streamRecord_waits {s : State} {t c : Nat} {r : Rec} {l : List Rec} (hc : c < 192) (hl : (s.conv c).link = r :: l)
    (h : (s.at t).olderWaits r = true) : exec (.streamRecord t c) s = .next (s.at t) := by
  change execStreamRecord t c s = _
  unfold execStreamRecord
  simp only [ifUnit_of hc, at_conv, hl, h, if_true]

theorem streamRecord_arrives {s : State} {t c : Nat} {r : Rec} {l : List Rec} (hc : c < 192) (hl : (s.conv c).link = r :: l)
    (h : (s.at t).olderWaits r = false) :
    exec (.streamRecord t c) s = .next ((((s.at t).setConv c { s.conv c with link := l }).tokenFirst r).arrive r) := by
  change execStreamRecord t c s = _
  unfold execStreamRecord
  simp only [ifUnit_of hc, at_conv, hl, h, Bool.false_eq_true, if_false]

/-! ### Flushes, stalls and messages (11 R313, R321, R323; 17 R459) -/

/-- Has the flush interval passed since the first record of the buffer in use? -/
def State.flushDue (s : State) (n : Nat) : Bool :=
  (s.ds n).cur.any fun b => decide ((s.ds n).flush ≠ 0) && decide (b.used ≠ 0) && decide (b.at_ + (s.ds n).flush * 250000 ≤ s.now)

theorem flushInterval_eq {s : State} {t n : Nat} (hn : n < 64) :
    exec (.flushInterval t n) s =
      .next (((if (s.at t).flushDue n then (s.at t).endBuf n 1 false else s.at t).drainAll n).closeStep n) := ifUnit_of hn _

theorem flushDue_of {s : State} {t n : Nat} {b : Buf} (hb : (s.ds n).cur = some b) (hf : (s.ds n).flush ≠ 0) (hu : b.used ≠ 0)
    (h : b.at_ + (s.ds n).flush * 250000 ≤ (s.at t).now) : (s.at t).flushDue n = true := by
  simp [State.flushDue, hb, hf, hu, h]

theorem not_flushDue_of {s : State} {t n : Nat} (h : (s.ds n).cur = none ∨ (s.ds n).flush = 0) : (s.at t).flushDue n = false := by
  rcases h with h | h <;> simp [State.flushDue, h]

theorem streamFetchStall_logs {s : State} {t n i : Nat} {b : Bytes} {l : List (Nat × Bytes)} (hn : n < 64) (hp : (s.ds n).posted = (i, b) :: l)
    (he : (s.ds n).enable = true) (hc : (s.ds n).cur = none) (hf : (s.ds n).fetchStalled = false) :
    exec (.streamFetchStall t n) s = .next (((s.at t).setDs n { s.ds n with fetchStalled := true }).log 0x601 5 (2 ^ 24 + n) i 0) := by
  change execStreamFetchStall t n s = _
  unfold execStreamFetchStall
  simp [ifUnit_of hn, hp, he, hc, hf]

theorem msixMessage_early {s : State} {t v : Nat} (hv : v < 64) (h : (s.at t).now < Tbl.get 0 v s.host.vecNext) :
    exec (.msixMessage t v) s = .next (s.at t) := by
  change execMsixMessage t v s = _
  unfold execMsixMessage
  simp [ifUnit_of hv, h]

theorem msixMessage_sends {s : State} {t v : Nat} (hv : v < 64) (hl : s.time.localMode = false) (hp : s.host.pendVec.contains v = true)
    (hm : bit (s.msix v).ctrl 0 = false) (h : Tbl.get 0 v s.host.vecNext ≤ (s.at t).now) :
    exec (.msixMessage t v) s = .next { s.at t with
      host := { s.host with
        pendVec := s.host.pendVec.filter (fun k => decide (k ≠ v))
        vecNext := Tbl.set 0 v ((s.at t).now + 250 * Tbl.get 0 v s.host.coal) s.host.vecNext }
      out := s.out ++ [.msix v (s.msix v).addr (s.msix v).data] } := by
  have hsend : ¬ ((s.at t).time.localMode = true ∨ (!(s.at t).host.pendVec.contains v) = true ∨ bit ((s.at t).msix v).ctrl 0 = true ∨
      (s.at t).now < Tbl.get 0 v (s.at t).host.vecNext) := by
    rw [at_localMode, at_host, at_msix, hl, hp, hm]
    simp [h]
  change execMsixMessage t v s = _
  unfold execMsixMessage
  rw [ifUnit_of hv, if_neg hsend]
  simp only [State.emit, at_host, at_out, at_msix]

/-! ### The statement -/

/-- Settles O35: the body of an admitted STREAM_OPEN or STREAM_CLOSE, the arrival of a record in an open or a closed stream, and the
guards of the other rows. -/
theorem streamsComplete : Obligations.StreamsComplete := by
  refine ⟨?_, ?_, ?_, ?_, ?_, ?_, ?_⟩
  · intro s d slot a n cs hadm hbad hn hlt hfl hcs hopen hen
    subst hn hcs
    have hrun : exec (.streamOpen d) s = .next (bodyStreamOpen (.streamOpen d) slot a (s.admitted d slot a)) :=
      command_admitted hadm rfl hbad rfl
    refine ⟨fun htaken => ?_, fun hfree hready => ⟨(s.admitted d slot a).openStream slot a, ?_, openStream_ds .., ?_, ?_, ?_, ?_, ?_⟩⟩
    · rw [hrun, bodyStreamOpen_taken hlt hfl (takenElse_of (by simpa using htaken))]
    · rw [hrun, bodyStreamOpen_opens hlt hfl hopen hen (not_takenElse_of (by simpa using hfree)) (by simpa using hready)]
    · intro c hc
      rw [openStream_cfg, routeTo_stream hlt hc]
    · intro c hc
      rw [openStream_cfg, routeTo_cfg_other hc, admitted_conv]
    · exact fun k hk => openStream_ds_other hk
    · obtain ⟨-, hdacs, -⟩ := routeTo_frame (s.admitted d slot a) (byteAt a 0) (maskConvs a 8)
      exact hdacs.trans (admitted_dacs ..)
    · obtain ⟨-, -, htil⟩ := routeTo_frame (s.admitted d slot a) (byteAt a 0) (maskConvs a 8)
      exact htil.trans (admitted_til ..)
  · intro s d slot a n hadm hbad hobj hn hc
    have hrun : exec (.streamClose d) s = .next (bodyStreamClose slot a (s.admitted d slot a)) :=
      command_admitted hadm rfl hbad (if_pos hobj)
    refine ⟨(s.admitted d slot a).dropLinks n, ?_, ?_⟩
    · rw [State.dropLinks, admitted_convs]
    · rw [hrun, bodyStreamClose_open hn hc]
      rfl
  · intro s t c r l u hc hl hu
    subst hu
    refine ⟨streamRecord_waits hc hl, fun hold => ?_⟩
    rw [streamRecord_arrives hc hl hold]
    refine ⟨fun hclosed => ?_, fun hopen hclosing => ?_⟩
    · rw [arrive_closed (by simpa only [tokenFirst_setConv_ds] using hclosed)]
    · rw [arrive_open (by rwa [tokenFirst_setConv_ds]) (by rwa [tokenFirst_setConv_ds])]
      simp only [tokenFirst_setConv_ds, tokenFirst_setConv_host]
      refine ⟨fun hlost => ?_, fun hhalt hroom => ?_⟩
      · rw [if_pos (by simpa using hlost)]
      · rw [if_neg (by simp [hhalt, hroom])]
  · intro s t n hn
    rw [flushInterval_eq hn]
    refine ⟨fun b hb hf hu hdue => ?_, fun hnone => ?_⟩
    · rw [if_pos (flushDue_of hb hf hu hdue)]
    · rw [not_flushDue_of hnone]
      rfl
  · intro s t n i b l hn hp he hc hf
    exact streamFetchStall_logs hn hp he hc hf
  · intro s t v hv hl hp hm hnow
    exact msixMessage_sends hv hl hp hm hnow
  · intro s t v hv hnow
    exact msixMessage_early hv hnow

end Sys2Proof.Machine

/-! PROOFS. The recovery ladder above the cell and the analogue supplies (17 R454-R458, R463): the statement of 01_organisation.md R16
to R23. -/

namespace Sys2Proof.Machine

/-! ### What dropping and making due leaves as it was (08 R218, R228) -/

/-- The parts of the state that the calibration runs of cells, converters and channels do not touch. -/
structure CalAside (s t : State) : Prop where
  boot : t.boot = s.boot
  husk : t.husk = s.husk
  pin : t.pin = s.pin
  mon : t.mon = s.mon

theorem CalAside.refl (s : State) : CalAside s s := ⟨rfl, rfl, rfl, rfl⟩

theorem CalAside.trans {s t u : State} (h : CalAside s t) (k : CalAside t u) : CalAside s u :=
  ⟨k.boot.trans h.boot, k.husk.trans h.husk, k.pin.trans h.pin, k.mon.trans h.mon⟩

theorem CalAside.ite {s a b : State} {c : Prop} [Decidable c] (ha : CalAside s a) (hb : CalAside s b) : CalAside s (if c then a else b) := by
  split
  · exact ha
  · exact hb

theorem CalAside.foldl {α : Type} {f : State → α → State} (hf : ∀ s x, CalAside s (f s x)) (l : List α) (s : State) :
    CalAside s (l.foldl f s) := by
  induction l generalizing s with
  | nil => exact .refl s
  | cons x l ih => exact (hf s x).trans (ih _)

theorem cal_calAside (s : State) (v : Cal) : CalAside s { s with cal := v } := ⟨rfl, rfl, rfl, rfl⟩

theorem setConv_calAside (s : State) (n : Nat) (v : Conv) : CalAside s (s.setConv n v) := ⟨rfl, rfl, rfl, rfl⟩

theorem setCell_calAside (s : State) (n : Nat) (v : Cell) : CalAside s (s.setCell n v) := ⟨rfl, rfl, rfl, rfl⟩

theorem setDac_calAside (s : State) (n : Nat) (v : Dac) : CalAside s (s.setDac n v) := ⟨rfl, rfl, rfl, rfl⟩

theorem setDueFlag_calAside (s : State) (kind idx : Nat) (v : Bool) : CalAside s (s.setDueFlag kind idx v) := by
  unfold State.setDueFlag
  split
  case h_1 => exact .foldl (fun s n => setCell_calAside s n _) _ s
  case h_2 => exact setConv_calAside ..
  case h_3 => exact setDac_calAside ..

theorem makeDue_calAside (s : State) (kind idx : Nat) (temp : Int) (move : Nat) (cmds : List Nat) :
    CalAside s (s.makeDue kind idx temp move cmds) := by
  unfold State.makeDue
  exact .ite (cal_calAside ..) ((cal_calAside s _).trans (setDueFlag_calAside ..))

theorem dropRun_calAside (s : State) (kind idx : Nat) : CalAside s (s.dropRun kind idx) := by
  unfold State.dropRun
  dsimp only
  split
  · exact .refl s
  · exact (CalAside.ite ((cal_calAside s _).trans (setConv_calAside ..)) (cal_calAside s _)).trans (makeDue_calAside ..)

theorem dropRuns_calAside (s : State) (r : Nat) : CalAside s (s.dropRuns r) := by
  unfold State.dropRuns
  exact .foldl (fun s e => dropRun_calAside s _ _) _ s

theorem allDue_calAside (s : State) : CalAside s s.allDue := by
  unfold State.allDue
  exact .foldl (fun s e => makeDue_calAside s _ _ _ 0 []) _ s

theorem log_calAside (s : State) (code level idx a0 a1 : Nat) : CalAside s (s.log code level idx a0 a1) :=
  ⟨(log_aside ..).boot, log_husk .., log_pin .., log_mon ..⟩

/-! ### What the guards of the rows read -/

@[simp] theorem at_restarting (s : State) (t r : Nat) : (s.at t).restarting r = s.restarting r := by simp [State.restarting]

@[simp] theorem at_ctrlOk (s : State) (t r : Nat) : (s.at t).ctrlOk r = s.ctrlOk r := by simp [State.ctrlOk]

@[simp] theorem at_coreRuns (s : State) (t : Nat) : (s.at t).coreRuns = s.coreRuns := by simp [State.coreRuns]

@[simp] theorem at_outPending (s : State) (t r : Nat) : (s.at t).outPending r = s.outPending r := by simp [State.outPending]

theorem within_isEmpty {s : State} {w : Nat} {l : List Nat} (h : ∀ x ∈ l, x + w ≤ s.now) : (s.within w l).isEmpty = true := by
  rw [State.within, List.isEmpty_iff, List.filter_eq_nil_iff]
  intro x hx
  simpa using h x hx

theorem within_not_isEmpty {s : State} {w : Nat} {l : List Nat} (h : ∃ x ∈ l, s.now < x + w) : (s.within w l).isEmpty = false := by
  obtain ⟨x, hx, hlt⟩ := h
  exact List.isEmpty_eq_false_iff_exists_mem.2 ⟨x, List.mem_filter.2 ⟨hx, decide_eq_true hlt⟩⟩

/-! ### Block (17 R454, R456) -/

/-- The recovery of a block is noted, counted and logged, and supersedes the resets of its cells (01 R17). -/
def State.arbNoted (s : State) (b h : Nat) : State :=
  (((s.supersedeCells b 0x20F).setBlock b { s.block b with recoveries := s.within 250000000 (s.block b).recoveries ++ [s.now] }).bump
    (uBk b) 7).log 0x20F 2 b h 0

theorem arbRecovery_eq {s : State} {t b h : Nat} (hb : b < 64) (hs : (s.block b).stopped = false) (hq : (s.block b).quarantined = false) :
    exec (.arbRecovery t b h) s = .next (if s.restarting (b / 8) = true then (s.at t).log 0x106 2 b 0x104 0x20F
      else if h = 2 then ((s.at t).arbNoted b h).fabReplyFree b true else (s.at t).arbNoted b h) := by
  have hruns : ¬ (((s.at t).block b).stopped = true ∨ ((s.at t).block b).quarantined = true) := by simp [hs, hq]
  rw [← at_restarting s t]
  exact (ifUnit_of hb _).trans (congrArg _ (if_neg hruns))

/-- The recoveries of a block that count still. -/
def State.recent (s : State) (b : Nat) : List Nat := s.within 250000000 (s.block b).recoveries

/-- Do the block's recoveries call for its quarantine for reason `why`? -/
def State.quarantineDue (s : State) (b why : Nat) : Bool :=
  if why = 1 then (s.recent b).getLast?.any (fun x => decide (x + 2500 ≤ s.now)) else decide (why = 2) && decide (2 ≤ (s.recent b).length)

theorem blockQuarantine_due {s : State} {t b why : Nat} (hb : b < 64) (hc : s.ctrlOk (b / 8) = true) (hst : 5 ≤ s.time.step)
    (hq : (s.block b).quarantined = false) (hd : (s.at t).quarantineDue b why = true) :
    exec (.blockQuarantine t b why) s = .next ((s.at t).quarantineBlock b why) := by
  have hgo : ¬ ((!(s.at t).ctrlOk (b / 8)) = true ∨ (s.at t).time.step < 5 ∨ ((s.at t).block b).quarantined = true ∨
      (s.at t).quarantineDue b why = false) := by
    simp [hc, hst, hq, hd]
  exact (ifUnit_of hb _).trans (congrArg _ (if_neg hgo))

/-! ### Region (01 R20, R21; 17 R457) -/

/-- The watchdog of a region is counted and noted. -/
def State.dogNoted (s : State) (r : Nat) : State :=
  (s.bump (uRg r) 5).setRegion r { s.region r with dogs := s.within 250000000 (s.region r).dogs ++ [s.now] }

theorem regionWatchdog_eq {s : State} {t r : Nat} (hr : r < 8) (hready : (s.region r).ready = true) (hf : (s.region r).failed = false)
    (hst : 5 ≤ s.time.step) (hcore : s.coreRuns = true) :
    exec (.regionWatchdog t r) s = .next (if ((s.at t).within 250000000 (s.region r).dogs).isEmpty = true then ((s.at t).dogNoted r).restartRegion r
      else (((s.at t).dogNoted r).restartRegion r).regionFails r 3) := by
  have hgo : ¬ ((!((s.at t).region r).ready) = true ∨ ((s.at t).region r).failed = true ∨ (s.at t).time.step < 5 ∨
      (!(s.at t).coreRuns) = true) := by
    simp [hready, hf, hst, hcore]
  rw [← at_region s t]
  exact (ifUnit_of hr _).trans (congrArg _ (if_neg hgo))

theorem regionReady_eq {s : State} {t r : Nat} {ed ml : Bool} (hr : r < 8) (hready : (s.region r).ready = false)
    (hfw : (s.region r).fwFail = false) (hcore : s.coreRuns = true) (hout : s.outPending r = false) :
    exec (.regionReady t r ed ml) s = .next (if (ed && ml) = true then (s.at t).regionBack r
      else ((s.at t).setRegion r { s.region r with fwFail := true }).log 0x804 3 r (b2n (!ed) + 2 * b2n (!ml)) 0) := by
  have hgo : ¬ (((s.at t).region r).ready = true ∨ ((s.at t).region r).fwFail = true ∨ (!(s.at t).coreRuns) = true ∨
      (s.at t).outPending r = true) := by
    simp [hready, hfw, hcore, hout]
  rw [← at_region s t]
  exact (ifUnit_of hr _).trans (congrArg _ (if_neg hgo))

theorem regionReady_fwFail {s : State} {t r : Nat} {ed ml : Bool} (hr : r < 8) (hfw : (s.region r).fwFail = true) :
    exec (.regionReady t r ed ml) s = .next (s.at t) := by
  rw [← at_region s t] at hfw
  exact (ifUnit_of hr _).trans (congrArg _ (if_pos (.inr (.inl hfw))))

theorem regionFailed_late {s : State} {t r : Nat} (hr : r < 8) (hready : (s.region r).ready = false) (hf : (s.region r).failed = false)
    (hcore : s.coreRuns = true) (hlate : (s.region r).fwFail = true ∨ (s.region r).restartFrom + 1250000 ≤ (s.at t).now) :
    exec (.regionFailed t r) s = .next ((s.at t).regionFails r (if (s.region r).fwFail = true then 2 else 1)) := by
  have hgo : ¬ (((s.at t).region r).ready = true ∨ ((s.at t).region r).failed = true ∨ (!(s.at t).coreRuns) = true ∨
      (!(((s.at t).region r).fwFail || decide (((s.at t).region r).restartFrom + 1250000 ≤ (s.at t).now))) = true) := by
    rcases hlate with h | h <;> simp [hready, hf, hcore, h]
  rw [← at_region s t]
  exact (ifUnit_of hr _).trans (congrArg _ (if_neg hgo))

theorem regionRestartRetry_later {s : State} {t r : Nat} (hr : r < 8) (hf : (s.region r).failed = true) (hcore : s.coreRuns = true)
    (hlate : (s.region r).restartFrom + 2500000000 ≤ (s.at t).now) :
    exec (.regionRestartRetry t r) s = .next ((s.at t).setRegion r { s.region r with restartFrom := (s.at t).now, fwFail := false }) := by
  have hgo : ¬ ((!((s.at t).region r).failed) = true ∨ (!(s.at t).coreRuns) = true ∨
      (s.at t).now < ((s.at t).region r).restartFrom + 2500000000) := by
    simp [hf, hcore, hlate]
  rw [← at_region s t]
  exact (ifUnit_of hr _).trans (congrArg _ (if_neg hgo))

/-! ### Management core (01 R22; 17 R458) -/

theorem coreRuns_iff (s : State) : s.coreRuns = true ↔ s.chip.restarting = false ∧ s.chip.failed = false := by
  simp [State.coreRuns]

/-- The watchdogs of the management core within the last 10 s. -/
def State.coreDogs (s : State) : List Nat := s.within 2500000000 s.chip.dogs

/-- The management core is retired at its fourth watchdog within 10 s. -/
def State.coreRetires (s : State) : State :=
  { s.bump 0 4 with chip := { (s.bump 0 4).chip with dogs := s.coreDogs ++ [s.now], failed := true } }

/-- The management core restarts. -/
def State.coreRestarts (s : State) : State :=
  { s.bump 0 4 with chip := { (s.bump 0 4).chip with dogs := s.coreDogs ++ [s.now], restarting := true, restartFrom := s.now } }

theorem mgmtWatchdog_eq {s : State} {t : Nat} (hcore : s.coreRuns = true) (hst : 5 ≤ s.time.step) :
    exec (.mgmtWatchdog t) s = .next (if 3 ≤ (s.at t).coreDogs.length then (s.at t).coreRetires
      else (if ((s.at t).within 250000000 (s.at t).coreDogs).isEmpty = true then (s.at t).coreRestarts
        else (s.at t).coreRestarts.log 0x103 4 0 ((s.at t).coreDogs.length + 1) 0).supersedeRegions.coreStops) := by
  have hgo : ¬ ((!(s.at t).coreRuns) = true ∨ (s.at t).time.step < 5) := by simp [hcore, hst]
  exact congrArg _ (if_neg hgo)

theorem coreRetires_frame (s : State) : s.coreRetires.chip.failed = true ∧ s.coreRetires.chip.restarting = s.chip.restarting ∧
    s.coreRetires.til = s.til ∧ s.coreRetires.convs = s.convs ∧ s.coreRetires.dacs = s.dacs :=
  ⟨rfl, (bump_aside s 0 4).restarting, bump_til s 0 4, bump_convs s 0 4, bump_dacs s 0 4⟩

theorem mgmtRestartEnd_eq (s : State) (t : Nat) :
    exec (.mgmtRestartEnd t) s = .next (if s.chip.restarting = true then (s.at t).coreBack else s.at t) := by
  rw [← at_chip s t]
  rfl

/-! ### Analogue supplies (17 R463) -/

/-- Supply `k` is noted as outside its window. -/
def State.supplyLost (s : State) (k : Nat) (mv : Int) : State :=
  { s.readSupply k mv with mon := { (s.readSupply k mv).mon with
      supplyBad := withBit s.mon.supplyBad k, supplyOut := true, supplySince := if s.mon.supplyOut = true then s.mon.supplySince else s.now } }

theorem supplyFault_eq {s : State} {t k : Nat} {mv : Int} (hk : k < 3) (hd : s.time.done = true) (hok : supplyOk k mv = false)
    (hbit : bit s.mon.supplyBad k = false) :
    exec (.supplyFault t k mv) s =
      .next (((List.range 8).foldl (fun s r => s.dropRuns r) ((s.at t).supplyLost k mv)).log 0x404 4 0 k (ofI 32 mv)) := by
  have hgo : ¬ ((!(s.at t).time.done) = true ∨ supplyOk k mv = true ∨ bit (s.at t).mon.supplyBad k = true) := by simp [hd, hok, hbit]
  exact (ifUnit_of hk _).trans (congrArg _ (if_neg hgo))

/-- Supply `k` is noted as back in its window; the last one ends the outage. -/
def State.supplyBack (s : State) (k : Nat) (mv : Int) : State :=
  { s.readSupply k mv with mon := { (s.readSupply k mv).mon with
      supplyBad := s.mon.supplyBad - 2 ^ k, supplyOut := decide (s.mon.supplyBad - 2 ^ k ≠ 0)
      supplyIvs := if s.mon.supplyBad - 2 ^ k = 0 then s.mon.supplyIvs ++ [(s.mon.supplySince, s.now)] else s.mon.supplyIvs } }

theorem supplyRestored_eq {s : State} {t k : Nat} {mv : Int} (hk : k < 3) (hout : s.mon.supplyOut = true) (hok : supplyOk k mv = true)
    (hbit : bit s.mon.supplyBad k = true) :
    exec (.supplyRestored t k mv) s = .next (if s.mon.supplyBad - 2 ^ k = 0 then ((s.at t).supplyBack k mv).allDue.log 0x405 4 0 k (ofI 32 mv)
      else (s.at t).supplyBack k mv) := by
  have hgo : ¬ ((!(s.at t).mon.supplyOut) = true ∨ (!supplyOk k mv) = true ∨ (!bit (s.at t).mon.supplyBad k) = true) := by
    simp [hout, hok, hbit]
  rw [← at_mon s t]
  exact (ifUnit_of hk _).trans (congrArg _ (if_neg hgo))

/-! ### The statement -/

/-- Settles O58: each row's guard, then what it does; the supplies rest on `CalAside`, since runs that are dropped and objects that are
made due touch neither loader, Husk, pins nor monitors. -/
theorem recoveryComplete : Obligations.RecoveryComplete := by
  refine ⟨?_, ?_, ?_, ?_, ?_, ?_, ?_, ?_, ?_, ?_, ?_, ?_, ?_⟩
  · intro s t b h u hb hs hq hu
    have hu' : u = (s.at t).arbNoted b h := by
      rw [State.arbNoted, at_block]
      exact hu
    subst hu'
    rw [arbRecovery_eq hb hs hq]
    exact ⟨fun hr => congrArg _ (if_neg (by simp [hr])), fun hr => congrArg _ (if_pos hr)⟩
  · intro s t b k hb hc hst hq hk
    have hk' : k = (s.at t).recent b := by
      rw [State.recent, at_block]
      exact hk
    subst hk'
    refine ⟨fun htwo => blockQuarantine_due hb hc hst hq ?_, fun x hlast hx => blockQuarantine_due hb hc hst hq ?_⟩
    · simp [State.quarantineDue, htwo]
    · simp [State.quarantineDue, hlast, hx]
  · intro s t r u hr hready hf hst hcore hu
    have hu' : u = (s.at t).dogNoted r := by
      rw [State.dogNoted, at_region]
      exact hu
    subst hu'
    rw [regionWatchdog_eq hr hready hf hst hcore]
    exact ⟨fun hold => congrArg _ (if_pos (within_isEmpty hold)),
      fun hnew => congrArg _ (if_neg (by simp [within_not_isEmpty hnew]))⟩
  · intro s t r ed ml hr hready hfw hcore hout
    rw [regionReady_eq hr hready hfw hcore hout]
    refine ⟨fun hed hml => congrArg _ (if_pos (by simp [hed, hml])), fun hbad => congrArg _ (if_neg ?_)⟩
    rcases hbad with h | h <;> simp [h]
  · exact fun s t r ed ml hr hfw => regionReady_fwFail hr hfw
  · exact fun s t r hr hready hf hcore hlate => regionFailed_late hr hready hf hcore hlate
  · exact fun s t r hr hf hcore hlate => regionRestartRetry_later hr hf hcore hlate
  · intro s t k hcore hst hk
    have hk' : k = (s.at t).coreDogs := by
      rw [State.coreDogs, at_chip]
      exact hk
    subst hk'
    rw [mgmtWatchdog_eq hcore hst]
    refine ⟨fun hfour => ?_, fun hfew u hu => ?_⟩
    · obtain ⟨hfailed, hrest, htil, hconvs, hdacs⟩ := coreRetires_frame (s.at t)
      obtain ⟨hrunning, -⟩ := (coreRuns_iff s).1 hcore
      exact ⟨_, congrArg _ (if_pos hfour), hfailed, hrest.trans (by rw [at_chip, hrunning]), htil.trans (at_til ..),
        hconvs.trans (at_convs ..), hdacs.trans (at_dacs ..)⟩
    · obtain rfl : u = (s.at t).coreRestarts := hu
      rw [if_neg (Nat.not_le.2 hfew)]
      refine ⟨fun hold => ?_, fun hnew => ?_⟩
      · rw [if_pos (within_isEmpty hold)]
      · rw [if_neg (by simp [within_not_isEmpty hnew])]
  · intro s t h
    rw [mgmtRestartEnd_eq, if_pos h]
  · intro s t h
    rw [mgmtRestartEnd_eq, h]
    rfl
  · intro s t k mv hk hd hok hbit
    refine ⟨_, supplyFault_eq hk hd hok hbit, ?_⟩
    have hdrop := (CalAside.foldl dropRuns_calAside (List.range 8) ((s.at t).supplyLost k mv)).trans (log_calAside _ 0x404 4 0 k (ofI 32 mv))
    rw [hdrop.mon, hdrop.boot, hdrop.husk, hdrop.pin]
    simp [State.supplyLost, State.readSupply]
  · intro s t k mv hk hout hok hlast
    have hbit : bit s.mon.supplyBad k = true := by simp [hlast, bit]
    have hnone : s.mon.supplyBad - 2 ^ k = 0 := by simp [hlast]
    have hdue := (allDue_calAside ((s.at t).supplyBack k mv)).trans (log_calAside _ 0x405 4 0 k (ofI 32 mv))
    refine ⟨_, (supplyRestored_eq hk hout hok hbit).trans (congrArg _ (if_pos hnone)), ?_⟩
    rw [hdue.mon, hdue.boot, hdue.husk, hdue.pin]
    simp [State.supplyBack, State.readSupply, hnone]
  · intro s t k mv hk hout hok hbit hmore
    have hle : 2 ^ k ≤ s.mon.supplyBad := Nat.ge_two_pow_of_testBit hbit
    have hleft : s.mon.supplyBad - 2 ^ k ≠ 0 := by omega
    rw [supplyRestored_eq hk hout hok hbit, if_neg hleft]
    simp [State.supplyBack, State.readSupply, hleft, hout]

end Sys2Proof.Machine

/-! PROOFS. The statements of 03_tiller_placement.md, the rules that they share: what a PROGRESS entry leaves as it was, reads of a
graph after an update, and the updates that touch one table of Tiller only. -/

namespace Sys2Proof.Machine

/-! ### What a PROGRESS entry leaves as it was (11 R299, R300) -/

theorem fresh_quiet (s : State) : Quiet s s.fresh.2 := ⟨rfl, rfl, rfl, rfl, rfl, rfl, rfl, rfl, rfl, rfl, rfl, rfl⟩

/-- A PROGRESS entry is not due, or is posted after its time is noted in the handle slot. -/
theorem progress_cases (s : State) (slot r1 : Nat) : s.progress slot r1 = s ∨ s.progress slot r1 =
    (s.fresh.2.setHnd slot { s.hnd slot with lastProgress := some s.now }).post (s.hnd slot).queue (s.hnd slot).tag
      ((s.hnd slot).value slot) 3 stACCEPTED (s.fresh.1 % 65536) r1 (bit (s.hnd slot).flags 1) :=
  ite_eq_or_eq ..

theorem progress_quiet (s : State) (slot r1 : Nat) : Quiet s (s.progress slot r1) := by
  rcases progress_cases s slot r1 with h | h <;> rw [h]
  · exact .refl s
  · exact ((fresh_quiet s).trans (setHnd_quiet ..)).trans (post_quiet ..)

@[simp] theorem progress_til (s : State) (slot r1 : Nat) : (s.progress slot r1).til = s.til := (progress_quiet s slot r1).til
@[simp] theorem progress_convs (s : State) (slot r1 : Nat) : (s.progress slot r1).convs = s.convs := (progress_quiet s slot r1).convs
@[simp] theorem progress_dacs (s : State) (slot r1 : Nat) : (s.progress slot r1).dacs = s.dacs := (progress_quiet s slot r1).dacs
@[simp] theorem progress_time (s : State) (slot r1 : Nat) : (s.progress slot r1).time = s.time := (progress_quiet s slot r1).time

@[simp] theorem progress_graph (s : State) (slot r1 n : Nat) : (s.progress slot r1).graph n = s.graph n := by
  unfold State.graph
  rw [progress_til]

/-- A posted write, and a write to the ring area, touch neither the host interface nor the handle slots. -/
theorem hostWrite_keeps (s : State) (a : Nat) (b : Bytes) : (s.hostWrite a b).host = s.host ∧ (s.hostWrite a b).chip = s.chip := by
  unfold State.hostWrite
  split
  · exact ⟨rfl, rfl⟩
  · split
    · split <;> exact ⟨rfl, rfl⟩
    · exact ⟨rfl, rfl⟩

@[simp] theorem hostWrite_host (s : State) (a : Nat) (b : Bytes) : (s.hostWrite a b).host = s.host := (hostWrite_keeps s a b).1
@[simp] theorem hostWrite_chip (s : State) (a : Nat) (b : Bytes) : (s.hostWrite a b).chip = s.chip := (hostWrite_keeps s a b).2

@[simp] theorem raiseVec_chip (s : State) (v : Nat) : (s.raiseVec v).chip = s.chip := by
  unfold State.raiseVec
  split <;> rfl

/-- A ring entry takes no handle slot. -/
@[simp] theorem post_hnd (s : State) (q tag handle kind status r0 r1 : Nat) (irq : Bool) (n : Nat) :
    (s.post q tag handle kind status r0 r1 irq).hnd n = s.hnd n := by
  unfold State.post State.hnd
  split <;> simp

/-- A vector that becomes pending leaves the ring area where it is. -/
@[simp] theorem raiseVec_area (s : State) (v : Nat) : (s.raiseVec v).area = s.area := by
  unfold State.raiseVec
  split <;> rfl

@[simp] theorem post_area (s : State) (q tag handle kind status r0 r1 : Nat) (irq : Bool) :
    (s.post q tag handle kind status r0 r1 irq).area = s.area := by
  have h (a : Nat) (b : Bytes) (c : Cq) : ((s.hostWrite a b).setCq q c).area = s.area := by simp [State.area, State.setCq]
  unfold State.post
  split
  · exact (raiseVec_area ..).trans (h ..)
  · exact h ..

@[simp] theorem progress_args (s : State) (slot r1 : Nat) : ((s.progress slot r1).hnd slot).args = (s.hnd slot).args := by
  rcases progress_cases s slot r1 with h | h <;> rw [h]
  have hread (u : State) : (u.setHnd slot { s.hnd slot with lastProgress := some s.now }).hnd slot =
      { s.hnd slot with lastProgress := some s.now } :=
    Tbl.get_set_ne fun e => by simpa using congrArg Hnd.lastProgress e
  rw [post_hnd, hread]

@[simp] theorem progress_area (s : State) (slot r1 : Nat) : (s.progress slot r1).area = s.area := by
  rcases progress_cases s slot r1 with h | h <;> rw [h]
  exact post_area ..

@[simp] theorem progress_bufOk (s : State) (slot r1 a n : Nat) : (s.progress slot r1).bufOk a n = s.bufOk a n := by
  simp [State.bufOk, State.inArea]

/-! ### Reads of a graph and of a handle slot -/

/-- A graph differs from no graph, so that it is read back whatever the table lists. -/
@[simp] theorem graph_setGraph_some (s : State) (n : Nat) (g : Graph) : (s.setGraph n (some g)).graph n = some g :=
  Tbl.get_set_ne (Option.some_ne_none g)

theorem graph_setGraph_other {s : State} {n k : Nat} {v : Option Graph} (h : k ≠ n) : (s.setGraph n v).graph k = s.graph k :=
  Tbl.get_set_other h

/-- A graph is forgotten where the table lists each slot once. -/
theorem graph_setGraph_none {s : State} (h : Tbl.wf none s.til.graphs = true) (n : Nat) : (s.setGraph n none).graph n = none :=
  Tbl.get_set_self h

/-- Work that remains is listed, so that the slot is read back whatever the table lists. -/
theorem hnd_setHnd_working {s : State} {n : Nat} {h : Hnd} (hw : h.work ≠ .none) : (s.setHnd n h).hnd n = h :=
  Tbl.get_set_ne fun e => hw (congrArg Hnd.work e)

/-! ### Fields of a record that more bytes follow -/

theorem fld_append_left {a b : Bytes} {o n : Nat} (h : o + n ≤ a.length) : fld (a ++ b) o n = fld a o n := by
  unfold fld
  rw [List.drop_append_of_le_length (by omega), List.take_append_of_le_length (by rw [List.length_drop]; omega)]

/-! ### Updates of one table of Tiller -/

theorem takeSeg_ledger (s : State) (k slot net : Nat) (valid : Bool) :
    ∃ l, s.takeSeg k slot net valid = { s with til := { s.til with ledger := l } } := by
  unfold State.takeSeg
  dsimp only
  split
  · exact ⟨s.til.ledger, rfl⟩
  · exact ⟨_, rfl⟩

theorem foldl_ledger {α : Type} {f : State → α → State} (hf : ∀ s x, ∃ l, f s x = { s with til := { s.til with ledger := l } }) (xs : List α)
    (s : State) : ∃ l, xs.foldl f s = { s with til := { s.til with ledger := l } } := by
  induction xs generalizing s with
  | nil => exact ⟨s.til.ledger, rfl⟩
  | cons x xs ih =>
    obtain ⟨l, hl⟩ := hf s x
    obtain ⟨l', hl'⟩ := ih (f s x)
    exact ⟨l', by rw [List.foldl_cons, hl', hl]⟩

/-- Tracks are taken in the Ledger alone. -/
theorem takeRoutes_ledger (s : State) (slot : Nat) (rs : List (Nat × List Nat)) (valid : Bool) :
    ∃ l, s.takeRoutes slot rs valid = { s with til := { s.til with ledger := l } } := by
  unfold State.takeRoutes
  refine foldl_ledger (fun s e => ?_) rs s
  exact foldl_ledger (fun s k => takeSeg_ledger s k slot e.1 valid) e.2 s

/-- Stolon yields no tracks where it runs no test. -/
theorem yieldSegs_idle {s : State} (h : ∀ r < 8, (s.region r).test = none) (ks : List Nat) (why : Nat) : s.yieldSegs ks why = s := by
  have hfold (rs : List Nat) (hrs : ∀ r ∈ rs, r < 8) : rs.foldl (fun s r =>
      if ((s.region r).test.toList.any fun t => t.segs.any ks.contains) then s.yieldWhere r why fun t => t.segs.any ks.contains else s) s = s := by
    induction rs with
    | nil => rfl
    | cons r rs ih =>
      obtain ⟨hr, hrs⟩ := List.forall_mem_cons.1 hrs
      rw [List.foldl_cons, h r hr]
      exact ih hrs
  exact hfold (List.range 8) fun r hr => List.mem_range.1 hr

/-- Building cells touches the cells alone. -/
theorem builtCells_cells (ns : List Nat) (s : State) :
    ∃ l, ns.foldl (fun s n => s.builtCell n) s = { s with til := { s.til with cells := l } } := by
  induction ns generalizing s with
  | nil => exact ⟨s.til.cells, rfl⟩
  | cons n ns ih =>
    obtain ⟨l, hl⟩ := ih (s.builtCell n)
    exact ⟨l, hl⟩

end Sys2Proof.Machine

/-! PROOFS. The phases of a placement (03 R55, R69-R72, R79, R80, R87; 12 R337). -/

namespace Sys2Proof.Machine

/-! ### GRAPH_PLACE and phase 1 (03 R55, R69, R70) -/

theorem parseHead_empty {s : State} (n : Nat) (h : s.til.queue = []) : s.parseHead n = s := by
  cases n with
  | zero => rfl
  | succ n => rw [State.parseHead, h]

theorem parseNext_empty {s : State} (h : s.til.queue = []) : s.parseNext = s := parseHead_empty _ h

/-- Are the buffers of a GRAPH_PLACE with record `a` such as 12 R326 asks? -/
def State.placeArgsOk (s : State) (a : Bytes) : Prop :=
  fld a 0 8 % 8 = 0 ∧ fld a 16 8 % 8 = 0 ∧ s.bufOk (fld a 0 8) (fld a 8 4) = true ∧ s.bufOk (fld a 16 8) (fld a 24 4) = true

/-- Phase 1 of the graph at the head of the queue, whose image passes. -/
theorem parseNext_passes {s : State} {slot : Nat} {l : List Nat} {g g' : Graph} {a : Bytes} (hq : s.til.queue = slot :: l)
    (hg : s.graph slot = some g) (hp : g.phase = 1) (ha : (s.hnd slot).args = a) (hb : s.placeArgsOk a)
    (hok : parseGraph (a.drop 32) (fld a 8 4) (fld a 24 4) = .ok g') :
    s.parseNext = (s.setGraph slot (some { g' with reportAddr := fld a 16 8, start := s.now })).progress slot 2 := by
  obtain ⟨himg, hrep, himgBuf, hrepBuf⟩ := hb
  unfold State.parseNext State.parseHead
  simp [hq, hg, hp, ha, himg, hrep, himgBuf, hrepBuf, hok]

/-- Phase 1 of the one graph in the queue, whose image does not pass. -/
theorem parseNext_fails {s : State} {slot st : Nat} {g : Graph} {a : Bytes} (hq : s.til.queue = [slot])
    (hg : s.graph slot = some g) (hp : g.phase = 1) (ha : (s.hnd slot).args = a) (hb : s.placeArgsOk a)
    (he : parseGraph (a.drop 32) (fld a 8 4) (fld a 24 4) = .error st) :
    s.parseNext = (s.dropGraph slot).final slot st 0xFF 0 := by
  obtain ⟨himg, hrep, himgBuf, hrepBuf⟩ := hb
  have hempty : ((s.dropGraph slot).final slot st 0xFF 0).til.queue = [] := by simp [State.dropGraph, hq]
  unfold State.parseNext State.parseHead
  simp [hq, hg, hp, ha, himg, hrep, himgBuf, hrepBuf, he, parseHead_empty 1 hempty]

/-- The state in which a graph joins the queue, its image behind its argument record. -/
def State.queued (s : State) (slot : Nat) (record : Bytes) : State :=
  let s1 := (s.setHnd slot { s.hnd slot with args := record, work := .place }).setGraph slot (some {})
  ({ s1 with til := { s1.til with queue := s1.til.queue ++ [slot] } }).progress slot 1

theorem bodyGraphPlace_eq (s : State) (image : Bytes) (slot : Nat) (a : Bytes) :
    bodyGraphPlace image slot a s = (s.queued slot (a ++ s.hostRead (fld a 0 8) (min (fld a 8 4) 32768) image)).parseNext := rfl

theorem queued_til (s : State) (slot : Nat) (record : Bytes) : (s.queued slot record).til =
    { s.til with graphs := Tbl.set none slot (some {}) s.til.graphs, queue := s.til.queue ++ [slot] } := progress_til ..

theorem queued_queue {s : State} (hq : s.til.queue = []) (slot : Nat) (record : Bytes) : (s.queued slot record).til.queue = [slot] := by
  rw [queued_til, hq]
  rfl

theorem queued_graph (s : State) (slot : Nat) (record : Bytes) : (s.queued slot record).graph slot = some {} :=
  (progress_graph ..).trans (graph_setGraph_some ..)

theorem queued_graph_other {s : State} {slot k : Nat} {record : Bytes} (h : k ≠ slot) : (s.queued slot record).graph k = s.graph k :=
  (progress_graph ..).trans (graph_setGraph_other h)

theorem queued_args (s : State) (slot : Nat) (record : Bytes) : ((s.queued slot record).hnd slot).args = record :=
  (progress_args ..).trans (congrArg Hnd.args (hnd_setHnd_working (s := s) (h := { s.hnd slot with args := record, work := .place }) nofun))

theorem queued_now (s : State) (slot : Nat) (record : Bytes) : (s.queued slot record).now = s.now :=
  congrArg StartUp.timebase (progress_time ..)

theorem queued_bufOk (s : State) (slot : Nat) (record : Bytes) (a n : Nat) : (s.queued slot record).bufOk a n = s.bufOk a n :=
  progress_bufOk ..

/-- The buffers are judged of the record that the image follows. -/
theorem queued_placeArgsOk {s : State} {slot : Nat} {a img : Bytes} (hlen : a.length = 32) (h : s.placeArgsOk a) :
    (s.queued slot (a ++ img)).placeArgsOk (a ++ img) := by
  unfold State.placeArgsOk at h ⊢
  rwa [queued_bufOk, queued_bufOk, fld_append_left (by omega), fld_append_left (by omega), fld_append_left (by omega),
    fld_append_left (by omega)]

/-- Phase 1 reads the image behind the record, and the lengths in it. -/
theorem parseGraph_queued {a img : Bytes} (hlen : a.length = 32) :
    parseGraph ((a ++ img).drop 32) (fld (a ++ img) 8 4) (fld (a ++ img) 24 4) = parseGraph img (fld a 8 4) (fld a 24 4) := by
  rw [List.drop_left' hlen, fld_append_left (by omega), fld_append_left (by omega)]

section
variable {s : State} {image : Bytes} {slot : Nat} {a : Bytes} (hq : s.til.queue = []) (hlen : a.length = 32) (hb : s.placeArgsOk a)
include hq hlen hb

/-- A graph whose image passes phase 1 heads the queue in phase 2. -/
theorem bodyGraphPlace_passes {g : Graph}
    (hok : parseGraph (s.hostRead (fld a 0 8) (min (fld a 8 4) 32768) image) (fld a 8 4) (fld a 24 4) = .ok g) :
    (bodyGraphPlace image slot a s).graph slot = some { g with reportAddr := fld a 16 8, start := s.now } ∧
    (bodyGraphPlace image slot a s).til.queue = [slot] ∧ (∀ k, k ≠ slot → (bodyGraphPlace image slot a s).graph k = s.graph k) ∧
    (bodyGraphPlace image slot a s).til.cells = s.til.cells ∧ (bodyGraphPlace image slot a s).til.ledger = s.til.ledger := by
  rw [bodyGraphPlace_eq, parseNext_passes (queued_queue hq ..) (queued_graph ..) rfl (queued_args ..) (queued_placeArgsOk hlen hb)
    ((parseGraph_queued hlen).trans hok), fld_append_left (by omega), queued_now]
  refine ⟨?_, ?_, fun k hk => ?_, ?_, ?_⟩
  · rw [progress_graph, graph_setGraph_some]
  · rw [progress_til, State.setGraph_til_queue, queued_queue hq]
  · rw [progress_graph, graph_setGraph_other hk, queued_graph_other hk]
  · rw [progress_til, State.setGraph_til_cells, queued_til]
  · rw [progress_til, State.setGraph_til_ledger, queued_til]

/-- A graph whose image does not pass phase 1 is forgotten. -/
theorem bodyGraphPlace_fails {st : Nat} (hwf : Tbl.wf none s.til.graphs = true)
    (he : parseGraph (s.hostRead (fld a 0 8) (min (fld a 8 4) 32768) image) (fld a 8 4) (fld a 24 4) = .error st) :
    (bodyGraphPlace image slot a s).graph slot = none ∧ (bodyGraphPlace image slot a s).til.queue = [] ∧
    (bodyGraphPlace image slot a s).til.cells = s.til.cells ∧ (bodyGraphPlace image slot a s).til.ledger = s.til.ledger := by
  rw [bodyGraphPlace_eq, parseNext_fails (queued_queue hq ..) (queued_graph ..) rfl (queued_args ..) (queued_placeArgsOk hlen hb)
    ((parseGraph_queued hlen).trans he), State.graph, final_til]
  refine ⟨graph_setGraph_none ?_ slot, ?_, ?_, ?_⟩
  · rw [queued_til]
    exact Tbl.wf_set hwf
  · simp [State.dropGraph, queued_queue hq]
  · simp [State.dropGraph, queued_til]
  · simp [State.dropGraph, queued_til]

end

/-! ### PARTITION (03 R69, R70) -/

/-- No regions and tracks are to be had for a graph: its ports are taken, or no placement exists. -/
def State.noPartition (s : State) (slot : Nat) (g : Graph) : Prop := s.portsTaken slot g = true ∨ s.best {} g = none

/-- The state in which the graph at the head of the queue has left it. -/
def State.unqueued (s : State) : State := { s with til := { s.til with queue := s.til.queue.tail } }

/-- A graph with the regions and tracks of placement `x`: phase 4 comes next. -/
def Graph.partitioned (g x : Graph) : Graph :=
  { g with phase := 4, regions := x.prims.map fun p => cellRegion p.c0, globals := x.globalTracks }

theorem unqueued_at {s : State} {slot : Nat} (t : Nat) (hq : s.til.queue = [slot]) :
    (s.at t).unqueued = { s.at t with til := { s.til with queue := [] } } := by
  rw [State.unqueued, at_til, hq, List.tail_cons]

/-- Nothing keeps PARTITION from the one graph in the queue. -/
theorem partition_due {s : State} {t slot : Nat} {g : Graph} (hq : s.til.queue = [slot]) (hp : g.phase = 2)
    (hrest : s.chip.restarting = false) (hfail : s.chip.failed = false) :
    ¬ ((s.at t).til.queue.head? ≠ some slot ∨ g.phase ≠ 2 ∨ (s.at t).chip.restarting = true ∨ (s.at t).chip.failed = true) := by
  simp [hq, hp, hrest, hfail]

section
variable {s : State} {t slot : Nat} {g : Graph} (hg : (s.at t).graph slot = some g) (hq : s.til.queue = [slot]) (hp : g.phase = 2)
  (hrest : s.chip.restarting = false) (hfail : s.chip.failed = false)
include hg hq hp hrest hfail

theorem partition_none (h : (s.at t).noPartition slot g) :
    exec (.partition t slot) s = .next ((s.at t).unqueued.noResource slot g).parseNext := by
  have hnone : (if (s.at t).portsTaken slot g = true then none else (s.at t).best {} g) = none := by
    rcases h with h | h <;> simp [h]
  change execPartition t slot s = _
  unfold execPartition State.unqueued
  simp only [hg, if_neg (partition_due hq hp hrest hfail), hnone]

theorem partition_places {x : Graph} (hports : (s.at t).portsTaken slot g = false) (hx : (s.at t).best {} g = some x) :
    exec (.partition t slot) s = .next
      ((if g.reportOnly then (s.at t).unqueued.setGraph slot (some (g.partitioned x))
        else (((s.at t).unqueued.setGraph slot (some (g.partitioned x))).yieldSegs ((g.partitioned x).globals.map (·.2)) 1).takeRoutes slot
          ((g.partitioned x).globals.map fun e => (e.1, [e.2])) false).progress slot 4).parseNext := by
  have hnext : (if (s.at t).portsTaken slot g = true then none else (s.at t).best {} g) = some x := by simp [hports, hx]
  change execPartition t slot s = _
  unfold execPartition State.unqueued Graph.partitioned
  simp only [hg, if_neg (partition_due hq hp hrest hfail), hnext]

end

/-- Where Stolon runs no test, taking a graph's global tracks changes the Ledger alone. -/
theorem globalsTaken_ledger {s : State} (hidle : ∀ r < 8, (s.region r).test = none) (slot : Nat) (l : List (Nat × Nat)) (ro : Bool) :
    ∃ led, (if ro then s else (s.yieldSegs (l.map (·.2)) 1).takeRoutes slot (l.map fun e => (e.1, [e.2])) false) =
      { s with til := { s.til with ledger := led } } := by
  cases ro with
  | true => exact ⟨s.til.ledger, rfl⟩
  | false =>
    rw [yieldSegs_idle hidle]
    exact takeRoutes_ledger s slot _ false

/-! ### CELL_SELECTION (03 R69, R75-R79) -/

section
variable {s : State} {t slot : Nat} {g : Graph}

theorem cellSelection_restarts (hg : (s.at t).graph slot = some g) (hp : g.phase = 4) (hc : (s.at t).ctrlState g.regions = 1) :
    exec (.cellSelection t slot) s = .next (s.at t) := by
  change execCellSelection t slot s = _
  simp [execCellSelection, hg, hp, hc, -at_graph]

theorem cellSelection_failed (hg : (s.at t).graph slot = some g) (hp : g.phase = 4) (hc : (s.at t).ctrlState g.regions = 2) :
    exec (.cellSelection t slot) s = .next ((s.at t).stopPlace slot stFAULT 0 0) := by
  change execCellSelection t slot s = _
  simp [execCellSelection, hg, hp, hc, -at_graph]

theorem cellSelection_none (hg : (s.at t).graph slot = some g) (hp : g.phase = 4) (hc : (s.at t).ctrlState g.regions = 0)
    (hx : (s.at t).placeIn g 1 [] = none) (hro : g.reportOnly = false) :
    exec (.cellSelection t slot) s = .next (((g.globals.foldl (fun s e => s.freeSeg e.2) (s.at t)).setGraph slot
      (some { ({ g with globals := [] } : Graph).bare with phase := 6, noRoom := true })).progress slot 6) := by
  change execCellSelection t slot s = _
  simp [execCellSelection, State.noResource, hg, hp, hc, hx, hro, -at_graph]

theorem cellSelection_reports {x : Graph} (hg : (s.at t).graph slot = some g) (hp : g.phase = 4) (hc : (s.at t).ctrlState g.regions = 0)
    (hx : (s.at t).placeIn g 1 [] = some x) (hro : g.reportOnly = true) :
    exec (.cellSelection t slot) s = .next ((s.at t).finishPlace slot x (outcomeOf x)) := by
  change execCellSelection t slot s = _
  simp [execCellSelection, hg, hp, hc, hx, hro, -at_graph]

theorem cellSelection_claims {x : Graph} (hg : (s.at t).graph slot = some g) (hp : g.phase = 4) (hc : (s.at t).ctrlState g.regions = 0)
    (hx : (s.at t).placeIn g 1 [] = some x) (hro : g.reportOnly = false)
    (hready : (s.at t).ctrlState (x.prims.map fun p => cellRegion p.c0) = 0) :
    exec (.cellSelection t slot) s =
      .next (((g.globals.foldl (fun s e => s.freeSeg e.2) (s.at t)).claim slot { x with phase := 5 }).progress slot 5) := by
  change execCellSelection t slot s = _
  simp [execCellSelection, hg, hp, hc, hx, hro, hready, -at_graph]

end

/-! ### BUILD_AND_MEASURE and EVALUATE (03 R55, R69, R71, R80) -/

/-- The machine without the cells of a claimed graph. -/
def State.bared (s : State) (slot : Nat) (g : Graph) : State := (s.unclaim g).setGraph slot (some g.bare)

/-- The best of the claimed placement and, where it falls further short than predicted, up to two further candidates (03 R71). -/
def State.bestBuilt (s : State) (slot : Nat) (g : Graph) (m : Measured) (ms : List Measured) : Graph :=
  if shortLt (worst g) (worst (s.measured g m)) then (s.bared slot g).further g.bare (ms.take 2) 2 [g.cells] (s.measured g m)
  else s.measured g m

/-- A measured placement as its phase 6 begins. -/
def State.kept (s : State) (best : Graph) : Graph := { best with phase := 6, temp := s.graphTemp best }

section
variable {s : State} {t slot : Nat} {g best : Graph} {m : Measured} {ms : List Measured}

theorem buildAndMeasure_same (hg : (s.at t).graph slot = some g) (hp : g.phase = 5) (hc : (s.at t).ctrlState g.regions = 0)
    (hbest : (s.at t).bestBuilt slot g m ms = best) (hsame : best.cells = ((s.at t).measured g m).cells) :
    exec (.buildAndMeasure t slot (m :: ms)) s = .next
      ((((s.at t).kept best).cells.foldl (fun s n => s.builtCell n) ((s.at t).setGraph slot (some ((s.at t).kept best)))).progress slot 6) := by
  unfold State.bestBuilt State.bared at hbest
  change execBuildAndMeasure t slot (m :: ms) s = _
  unfold execBuildAndMeasure State.kept
  simp only [hg, hp, hc, ne_eq, not_true_eq_false, if_false, List.headD_cons, List.drop_one, List.tail_cons, hbest, if_pos hsame]

theorem buildAndMeasure_other (hg : (s.at t).graph slot = some g) (hp : g.phase = 5) (hc : (s.at t).ctrlState g.regions = 0)
    (hbest : (s.at t).bestBuilt slot g m ms = best) (hother : best.cells ≠ ((s.at t).measured g m).cells) :
    exec (.buildAndMeasure t slot (m :: ms)) s = .next
      ((((s.at t).kept best).cells.foldl (fun s n => s.builtCell n)
        (((s.at t).bared slot g).claim slot ((s.at t).kept best))).progress slot 6) := by
  unfold State.bestBuilt State.bared at hbest
  change execBuildAndMeasure t slot (m :: ms) s = _
  unfold execBuildAndMeasure State.kept State.bared
  simp only [hg, hp, hc, ne_eq, not_true_eq_false, if_false, List.headD_cons, List.drop_one, List.tail_cons, hbest, if_neg hother]

theorem evaluate_eq (hg : (s.at t).graph slot = some g) (hp : g.phase = 6) (hrest : s.chip.restarting = false) (hfail : s.chip.failed = false) :
    exec (.evaluate t slot) s = .next ((s.at t).finishPlace slot g (if g.noRoom then 3 else outcomeOf g)) := by
  change execEvaluate t slot s = _
  simp [execEvaluate, hg, hp, hrest, hfail, -at_graph]

end

/-- The graph that a measurement keeps is in its slot; building its cells touches converters and channels no more than a PROGRESS entry
does. -/
theorem builtCells_frame (s : State) (slot : Nat) (g : Graph) :
    ((g.cells.foldl (fun s n => s.builtCell n) (s.setGraph slot (some g))).progress slot 6).graph slot = some g ∧
    ((g.cells.foldl (fun s n => s.builtCell n) (s.setGraph slot (some g))).progress slot 6).convs = s.convs ∧
    ((g.cells.foldl (fun s n => s.builtCell n) (s.setGraph slot (some g))).progress slot 6).dacs = s.dacs := by
  obtain ⟨l, hl⟩ := builtCells_cells g.cells (s.setGraph slot (some g))
  rw [hl, progress_graph, progress_convs, progress_dacs]
  exact ⟨graph_setGraph_some s slot g, rfl, rfl⟩

/-! ### The statement -/

/-- Settles O25: each row's guard, then what it leaves. With one graph in the queue, phase 1 of the next one changes nothing; taking
tracks writes the Ledger alone, since Stolon runs no test; building cells and a PROGRESS entry leave graphs and converters as they were. -/
theorem placementPhasesComplete : Obligations.PlacementPhasesComplete := by
  refine ⟨?_, ?_, ?_, ?_, ?_⟩
  · intro s d image slot a hadm hbad hq _ himg hrep hlen himgBuf hrepBuf
    have hrun : exec (.graphPlace d image) s = .next (bodyGraphPlace image slot a (s.admitted d slot a)) := command_admitted hadm rfl hbad rfl
    have hargs : (s.admitted d slot a).placeArgsOk a := ⟨himg, hrep, himgBuf, hrepBuf⟩
    have hq' : (s.admitted d slot a).til.queue = [] := by rw [admitted_til, hq]
    refine ⟨fun g hok => ⟨_, hrun, ?_⟩, fun st he hwf => ⟨_, hrun, ?_⟩⟩
    · simpa using bodyGraphPlace_passes (slot := slot) hq' hlen hargs hok
    · simpa using bodyGraphPlace_fails (slot := slot) hq' hlen hargs (by rwa [admitted_til]) he
  · intro s t slot g hg hq hp hrest hfail hidle
    have hleft := unqueued_at t hq
    refine ⟨fun x hports hx => ?_, fun hnone hro => ?_, fun u hnone hro hu => ?_⟩
    · obtain ⟨l, hl⟩ := globalsTaken_ledger (s := (s.at t).unqueued.setGraph slot (some (g.partitioned x)))
        (fun r hr => by rw [hleft]; exact hidle r hr) slot (g.partitioned x).globals g.reportOnly
      refine ⟨_, partition_places hg hq hp hrest hfail hports hx, ?_⟩
      rw [hl, parseNext_empty (by rw [progress_til, hleft]; rfl), progress_graph, progress_til, hleft]
      exact ⟨graph_setGraph_some .., rfl, rfl⟩
    · refine ⟨_, partition_none hg hq hp hrest hfail hnone, ?_⟩
      rw [State.noResource, hro, if_neg (by decide), hleft, parseNext_empty rfl]
      exact ⟨graph_setGraph_some .., rfl, rfl⟩
    · rw [partition_none hg hq hp hrest hfail hnone, hu, hleft, State.noResource, if_pos hro]
  · intro s t slot g hg hp
    refine ⟨fun x hc hx => ⟨cellSelection_reports hg hp hc hx, cellSelection_claims hg hp hc hx⟩, cellSelection_none hg hp,
      cellSelection_restarts hg hp, cellSelection_failed hg hp⟩
  · intro s t slot m ms g x bare best kept hg hp hc hx
    subst hx
    refine ⟨fun hshort => ?_, fun hshort hbare hbest hkept => ?_⟩
    · have hfirst : (s.at t).bestBuilt slot g m ms = (s.at t).measured g m := if_neg (by simp [hshort])
      obtain ⟨hgraph, hconvs, hdacs⟩ := builtCells_frame (s.at t) slot ((s.at t).kept ((s.at t).measured g m))
      exact ⟨_, buildAndMeasure_same hg hp hc hfirst rfl, hgraph, hconvs.trans (at_convs ..), hdacs.trans (at_dacs ..)⟩
    · subst hbare hkept
      have hbest' : (s.at t).bestBuilt slot g m ms = best := (if_pos hshort).trans hbest.symm
      obtain ⟨hgraph, -, -⟩ := builtCells_frame (s.at t) slot ((s.at t).kept best)
      exact ⟨fun hsame => ⟨_, buildAndMeasure_same hg hp hc hbest' hsame, hgraph⟩,
        fun hother => buildAndMeasure_other hg hp hc hbest' hother⟩
  · exact fun s t slot g hg hp hrest hfail => evaluate_eq hg hp hrest hfail

end Sys2Proof.Machine

/-! PROOFS. The commands on a placed graph (03 R82, R84-R88; 04 R96-R98; 12 R338, R339) and LEDGER_READ (03 R95; 12 R340). -/

namespace Sys2Proof.Machine

theorem graphPre_placed {s : State} {a : Bytes} (h : s.namesObj (fld a 0 2) 1 = true) : graphPre s a = none := if_pos h

/-! ### GRAPH_REMOVE (03 R88; 12 R338) -/

theorem bodyGraphRemove_ready {s : State} {cmd : Instr} {slot : Nat} {a : Bytes} {g : Graph} (hg : s.graph (fld a 0 2 % 4096) = some g)
    (hr : ∀ r ∈ g.homes, (s.region r).failed = false ∧ (s.region r).ready = true) :
    bodyGraphRemove cmd slot a s = ((s.removeGraph (fld a 0 2 % 4096)).final slot stOK 0 0).cellsFreed := by
  unfold bodyGraphRemove
  dsimp only
  rw [hg]
  exact onRegions_ready hr

/-! ### GRAPH_TUNE (03 R84-R87; 12 R338) -/

/-- The record of a GRAPH_TUNE names a placed graph, an image, and no report or one that the graph's own fits into. -/
structure TuneRecord (s : State) (a : Bytes) (g : Graph) : Prop where
  graph : s.graph (fld a 0 2 % 4096) = some g
  imageAligned : fld a 8 8 % 8 = 0
  reportAligned : fld a 16 8 % 8 = 0
  imageBuf : s.bufOk (fld a 8 8) (fld a 4 4) = true
  report : fld a 16 8 ≠ 0 → s.bufOk (fld a 16 8) (fld a 24 4) = true ∧ reportLen g.prims.length g.specs.length g.nets.length ≤ fld a 24 4

theorem TuneRecord.passes {s : State} {a : Bytes} {g : Graph} (h : TuneRecord s a g) :
    ¬ (fld a 8 8 % 8 ≠ 0 ∨ fld a 16 8 % 8 ≠ 0 ∨ (!s.bufOk (fld a 8 8) (fld a 4 4)) = true ∨
      (fld a 16 8 ≠ 0 ∧ ((!s.bufOk (fld a 16 8) (fld a 24 4)) = true ∨
        fld a 24 4 < reportLen g.prims.length g.specs.length g.nets.length))) := by
  obtain ⟨-, himg, hrep, hbuf, hreport⟩ := h
  rintro (h | h | h | ⟨hne, h | h⟩)
  · exact h himg
  · exact h hrep
  · simp [hbuf] at h
  · simp [hreport hne] at h
  · exact absurd (hreport hne).2 (by omega)

theorem bodyGraphTune_busy {s : State} {image : Bytes} {meas : Measured} {cmd : Instr} {slot : Nat} {a : Bytes} {g : Graph}
    (h : TuneRecord s a g) (hb : s.graphBusy (fld a 0 2 % 4096) slot = true) :
    bodyGraphTune image meas cmd slot a s = s.setWork slot (.tune (fld a 0 2 % 4096) true cmd) := by
  unfold bodyGraphTune
  dsimp only
  rw [h.graph]
  exact (if_neg h.passes).trans (if_pos hb)

/-- The primitives that a tune names. -/
def tuneTouched (ps : List (Nat × Prim)) (ss : List SpecRec) : List Nat := (ps.map (·.1) ++ ss.map fun r => r.prim).eraseDups

/-- The graph that a tune asks for, with its named primitives' records as measured on the present cells. -/
def State.tuneAsked (s : State) (meas : Measured) (g : Graph) (ps : List (Nat × Prim)) (ss : List SpecRec) (degrade : Nat) : Graph :=
  (tuned g ps ss degrade).measure (s.primTemp (tuned g ps ss degrade)) meas fun r => (tuneTouched ps ss).contains r.prim

/-- A GRAPH_TUNE that its image, its graph and its regions let go on to its plan. -/
structure TuneJudged (s : State) (image : Bytes) (slot : Nat) (a : Bytes) (g : Graph) (ps : List (Nat × Prim)) (ss : List SpecRec)
    (degrade : Nat) (allow : Bool) : Prop extends TuneRecord s a g where
  idle : s.graphBusy (fld a 0 2 % 4096) slot = false
  parsed : parseTune (s.hostRead (fld a 8 8) (min (fld a 4 4) 32768) image) (fld a 4 4) g = .ok (ps, ss, degrade, allow)
  ready : ∀ r ∈ g.homes, (s.region r).failed = false ∧ (s.region r).ready = true
  room : fld a 16 8 ≠ 0 → reportLen (tuned g ps ss degrade).prims.length (tuned g ps ss degrade).specs.length
    (tuned g ps ss degrade).nets.length ≤ fld a 24 4

section
variable {s : State} {image : Bytes} {meas : Measured} {cmd : Instr} {slot : Nat} {a : Bytes} {g : Graph} {ps : List (Nat × Prim)}
  {ss : List SpecRec} {degrade : Nat} {allow : Bool}

theorem TuneJudged.fits (h : TuneJudged s image slot a g ps ss degrade allow) :
    ¬ (fld a 16 8 ≠ 0 ∧ fld a 24 4 < reportLen (tuned g ps ss degrade).prims.length (tuned g ps ss degrade).specs.length
      (tuned g ps ss degrade).nets.length) :=
  fun ⟨hne, hlt⟩ => Nat.not_le.2 hlt (h.room hne)

theorem bodyGraphTune_noPlan (h : TuneJudged s image slot a g ps ss degrade allow)
    (hplan : s.tunePlan (fld a 0 2 % 4096) (s.tuneAsked meas g ps ss degrade) (tuneTouched ps ss) allow = none) :
    bodyGraphTune image meas cmd slot a s = s.final slot stNO_RESOURCE 3 (graphPowerUW g) := by
  unfold State.tuneAsked tuneTouched at hplan
  unfold bodyGraphTune
  simp only [h.graph, if_neg h.passes, h.idle, Bool.false_eq_true, if_false, h.parsed, onRegions_ready h.ready, if_neg h.fits, hplan]

variable {x : Graph} {ds : List PlaceP}

theorem bodyGraphTune_unmet (h : TuneJudged s image slot a g ps ss degrade allow)
    (hplan : s.tunePlan (fld a 0 2 % 4096) (s.tuneAsked meas g ps ss degrade) (tuneTouched ps ss) allow = some (x, ds))
    (ho : 2 ≤ outcomeOf x) :
    bodyGraphTune image meas cmd slot a s = s.final slot (outcomeStatus (outcomeOf x)) (outcomeOf x) (graphPowerUW g) := by
  unfold State.tuneAsked tuneTouched at hplan
  unfold bodyGraphTune
  simp only [h.graph, if_neg h.passes, h.idle, Bool.false_eq_true, if_false, h.parsed, onRegions_ready h.ready, if_neg h.fits, hplan, if_pos ho]

/-- The state in which a tune's changes are staged and its moves are still to be planned. -/
def State.tuneStaged (s : State) (cmd : Instr) (slot gs degrade : Nat) (g x : Graph) (ds : List PlaceP) : State :=
  (List.range g.prims.length).foldl (fun s i => s.stageFunction gs g x (ds.map PlaceP.prim) i)
    ((s.setGraph gs (some { g with degrade := degrade, specs := x.specs, former := some (g.prims, g.specs, g.degrade, g.outcome) })).setWork
      slot (.tune gs false cmd))

/-- The moves of a tune. -/
def State.tuneMoves (s : State) (slot gs : Nat) (ds : List PlaceP) : List Move :=
  ds.map fun e => { graph := gs, prim := e.prim, why := .tune, fix := some e, len := s.til.policy.len, handle := some slot }

theorem bodyGraphTune_met (h : TuneJudged s image slot a g ps ss degrade allow)
    (hplan : s.tunePlan (fld a 0 2 % 4096) (s.tuneAsked meas g ps ss degrade) (tuneTouched ps ss) allow = some (x, ds))
    (ho : outcomeOf x < 2) {u : State} (hu : s.tuneStaged cmd slot (fld a 0 2 % 4096) degrade g x ds = u) :
    bodyGraphTune image meas cmd slot a s =
      (if ds.isEmpty then (u.setMoves (u.til.moves ++ s.tuneMoves slot (fld a 0 2 % 4096) ds)).stageTune (fld a 0 2 % 4096)
        else (u.setMoves (u.til.moves ++ s.tuneMoves slot (fld a 0 2 % 4096) ds)).pumpMoves).endTunes := by
  unfold State.tuneAsked tuneTouched at hplan
  subst hu
  unfold bodyGraphTune
  simp only [h.graph, if_neg h.passes, h.idle, Bool.false_eq_true, if_false, h.parsed, onRegions_ready h.ready, if_neg h.fits, hplan,
    if_neg (Nat.not_le.2 ho)]
  rfl

end

/-! ### GRAPH_PIN (03 R82, R87; 12 R338) -/

/-- The pins that a GRAPH_PIN reads, of `n` records. -/
def pinRecs (b : Bytes) (n : Nat) : List (Nat × Pin) := (List.range n).map fun i => readPin b (8 * i)

/-- The primitives that break one of their new REQUIRE pins. -/
def brokenBy (g : Graph) (recs : List (Nat × Pin)) : List Nat := (recs.map (·.1)).filter fun i => breaksPin ((repin g recs).prim i)

/-- A GRAPH_PIN that its records, its graph and its regions let go on to its moves. -/
structure PinJudged (s : State) (pins : Bytes) (slot : Nat) (a : Bytes) (g : Graph) (recs : List (Nat × Pin)) : Prop where
  graph : s.graph (fld a 0 2 % 4096) = some g
  atLeast : 1 ≤ byteAt a 2
  atMost : byteAt a 2 ≤ 64
  aligned : fld a 8 8 % 8 = 0
  buf : s.bufOk (fld a 8 8) (8 * byteAt a 2) = true
  shape : ((List.range (byteAt a 2)).all fun i => pinShape (s.hostRead (fld a 8 8) (8 * byteAt a 2) pins) (8 * i) g.prims.length true) = true
  records : recs = pinRecs (s.hostRead (fld a 8 8) (8 * byteAt a 2) pins) (byteAt a 2)
  once : nodupB (recs.map (·.1)) = true
  idle : s.graphBusy (fld a 0 2 % 4096) slot = false
  ready : ∀ r ∈ g.homes, (s.region r).failed = false ∧ (s.region r).ready = true

section
variable {s : State} {pins : Bytes} {cmd : Instr} {slot : Nat} {a : Bytes} {g : Graph} {recs : List (Nat × Pin)}

/-- A GRAPH_PIN is done at once where its pins cannot all be kept, and else moves the primitives that break them. -/
theorem bodyGraphPin_judged (h : PinJudged s pins slot a g recs) :
    bodyGraphPin pins cmd slot a s =
      if (!s.pinsCan (fld a 0 2 % 4096) (repin g recs) (brokenBy g recs)) = true then s.final slot stNO_RESOURCE 0 0
      else ((((s.setGraph (fld a 0 2 % 4096) (some { repin g recs with former := some (g.prims, g.specs, g.degrade, g.outcome) })).setWork slot
          (.pin (fld a 0 2 % 4096) false (brokenBy g recs).length cmd)).setMoves (s.til.moves ++ (brokenBy g recs).map fun i =>
            { graph := fld a 0 2 % 4096, prim := i, why := .pin, len := s.til.policy.len, handle := some slot })).pumpMoves).endPins := by
  obtain ⟨hg, hpos, hmax, halign, hbuf, hshape, hrecs, honce, hidle, hready⟩ := h
  subst hrecs
  have hcount : ¬ (byteAt a 2 = 0 ∨ 64 < byteAt a 2) := by omega
  have hform : ¬ (fld a 8 8 % 8 ≠ 0 ∨ (!s.bufOk (fld a 8 8) (8 * byteAt a 2)) = true ∨
      (!((List.range (byteAt a 2)).all fun i => pinShape (s.hostRead (fld a 8 8) (8 * byteAt a 2) pins) (8 * i) g.prims.length true)) = true ∨
      (!nodupB ((pinRecs (s.hostRead (fld a 8 8) (8 * byteAt a 2) pins) (byteAt a 2)).map (·.1))) = true) := by
    simp [halign, hbuf, hshape, honce]
  unfold bodyGraphPin
  dsimp only
  rw [hg]
  refine (if_neg hcount).trans ((if_neg hform).trans ((if_neg (by simp [hidle])).trans ((onRegions_ready hready).trans ?_)))
  rw [setWork_til, State.setGraph_til_moves]
  rfl

end

/-! ### TRANSPLANT (04 R96-R98; 12 R339) -/

/-- A TRANSPLANT that its record and the commands before it let go on. -/
structure TransplantJudged (s : State) (slot : Nat) (a : Bytes) (g : Graph) : Prop where
  graph : s.graph (fld a 0 2 % 4096) = some g
  prim : byteAt a 2 < g.prims.length
  length : fld a 4 2 = 0 ∨ (4 ≤ fld a 4 2 ∧ fld a 4 2 ≤ 256)
  pin : (readPin a 8).1 = byteAt a 2
  shape : pinShape (a.set 12 0) 8 g.prims.length true = true
  unblocked : s.earlierOn [0x0102, 0x0103] (fld a 0 2 % 4096) slot = false

section
variable {s : State} {cmd : Instr} {slot : Nat} {a : Bytes} {g : Graph}

theorem bodyTransplant_judged (h : TransplantJudged s slot a g) :
    bodyTransplant cmd slot a s = if 1024 ≤ (g.prim (byteAt a 2)).c0 then s.final slot stNO_RESOURCE 0 0
      else s.onRegions [cellRegion (g.prim (byteAt a 2)).c0] slot cmd fun s => (s.setWork slot (.move (fld a 0 2 % 4096) (byteAt a 2))).planMove
        { graph := fld a 0 2 % 4096, prim := byteAt a 2, why := .host, pin := if (readPin a 8).2.scope = 255 then none else some (readPin a 8).2,
          len := if fld a 4 2 = 0 then s.til.policy.len else fld a 4 2, handle := some slot } := by
  obtain ⟨hg, hprim, hlen, hpin, hshape, hfirst⟩ := h
  unfold bodyTransplant
  dsimp only
  rw [hg]
  exact (if_neg (by omega)).trans ((if_neg (not_or.2 ⟨not_not.2 hpin, by rw [hshape]; decide⟩)).trans (if_neg (by simp [hfirst])))

end

/-! ### LEDGER_READ (03 R95; 12 R340) -/

theorem bodyLedgerRead_range {s : State} {slot : Nat} {a : Bytes} (hn : 1 ≤ fld a 4 4) (hend : fld a 0 4 + fld a 4 4 ≤ 131072)
    (halign : fld a 8 8 % 8 = 0) (hbuf : s.bufOk (fld a 8 8) (8 * fld a 4 4) = true) :
    bodyLedgerRead slot a s = (s.hostWrite (fld a 8 8) (s.ledBytes (fld a 0 4) (fld a 4 4))).final slot stOK (fld a 4 4) 0 := by
  unfold bodyLedgerRead
  exact (if_neg (by omega)).trans (if_neg (by simp [halign, hbuf]))

/-! ### The statement -/

/-- Settles O26: each command is admitted with the graph's handle found, and its body runs past the checks that its record and its graph
meet (`TuneRecord`, `TuneJudged`, `PinJudged`, `TransplantJudged`). -/
theorem graphCommandsComplete : Obligations.GraphCommandsComplete := by
  refine ⟨?_, ?_, ?_, ?_, ?_, ?_⟩
  · intro s d slot a g hadm hbad hobj hg hready
    have hrun : exec (.graphRemove d) s = .next (bodyGraphRemove (.graphRemove d) slot a (s.admitted d slot a)) :=
      command_admitted hadm rfl hbad (graphPre_placed hobj)
    rw [hrun, bodyGraphRemove_ready hg hready]
  · intro s d image ms slot a gs g ps ss degrade allow touched new hadm hbad hobj hgs hg himg hrep hbuf hidle hparse hready hreport htouched hnew
    subst hgs htouched hnew
    have hrun : exec (.graphTune d image ms) s = .next (bodyGraphTune image ms (.graphTune d image ms) slot a (s.admitted d slot a)) :=
      command_admitted hadm rfl hbad (graphPre_placed hobj)
    have h : TuneJudged (s.admitted d slot a) image slot a g ps ss degrade allow :=
      { graph := hg, imageAligned := himg, reportAligned := hrep, imageBuf := hbuf
        report := fun hne => ⟨(hreport hne).1, (hreport hne).2.1⟩
        idle := hidle, parsed := hparse, ready := hready, room := fun hne => (hreport hne).2.2 }
    refine ⟨fun hplan => ?_, fun x ds hplan => ⟨fun ho => ?_, fun ho => ⟨_, rfl, fun hds => ?_, fun hds => ?_⟩⟩⟩
    · rw [hrun, bodyGraphTune_noPlan h hplan]
    · rw [hrun, bodyGraphTune_unmet h hplan ho]
    · subst hds
      rw [hrun, bodyGraphTune_met h hplan ho rfl, if_pos List.isEmpty_nil, State.tuneMoves, List.map_nil, List.append_nil]
      rfl
    · rw [hrun, bodyGraphTune_met h hplan ho rfl, if_neg (by simpa using hds), State.tuneMoves, admitted_til]
      rfl
  · intro s d pins slot a gs g recs broken hadm hbad hobj hgs hg hpos hmax halign hbuf hidle hshape hrecs honce hbroken hready
    subst hgs
    obtain rfl : broken = brokenBy g recs := hbroken
    have hrun : exec (.graphPin d pins) s = .next (bodyGraphPin pins (.graphPin d pins) slot a (s.admitted d slot a)) :=
      command_admitted hadm rfl hbad (graphPre_placed hobj)
    have h : PinJudged (s.admitted d slot a) pins slot a g recs := ⟨hg, hpos, hmax, halign, hbuf, hshape, hrecs, honce, hidle, hready⟩
    rw [hrun, bodyGraphPin_judged h, admitted_til]
    exact ⟨fun hcan => congrArg _ (if_neg (by simp [hcan])), fun hcannot => congrArg _ (if_pos (by simp [hcannot]))⟩
  · intro s d slot a gs g hadm hbad hobj hgs hg hprim hlen hpin hshape hfirst
    subst hgs
    have hrun : exec (.transplant d) s = .next (bodyTransplant (.transplant d) slot a (s.admitted d slot a)) :=
      command_admitted hadm rfl hbad (if_pos hobj)
    rw [hrun, bodyTransplant_judged ⟨hg, hprim, hlen, hpin, hshape, hfirst⟩]
    refine ⟨fun hbare => ?_, fun hcells hfailed hready => ?_⟩
    · rw [if_pos hbare]
    · rw [if_neg (Nat.not_le.2 hcells), onRegions_ready (List.forall_mem_singleton.2 ⟨hfailed, hready⟩), admitted_til]
  · intro s d slot a gs g cmd hadm hbad hobj hgs hg himg hrep hreport hbuf hbusy image ms hcmd
    subst hgs hcmd
    have hrun : exec (.graphTune d image ms) s = .next (bodyGraphTune image ms (.graphTune d image ms) slot a (s.admitted d slot a)) :=
      command_admitted hadm rfl hbad (graphPre_placed hobj)
    rw [hrun, bodyGraphTune_busy ⟨hg, himg, hrep, hbuf, hreport⟩ hbusy]
  · intro s d slot a hadm hn hend halign hbuf
    have hrun : exec (.ledgerRead d) s = .next (bodyLedgerRead slot a (s.admitted d slot a)) := command_admitted hadm rfl rfl rfl
    rw [hrun, bodyLedgerRead_range hn hend halign hbuf]
    rfl

end Sys2Proof.Machine

/-! PROOFS. The steps of planned transplants (04 R102-R107, R117, R120): the statement of 04_transplant_and_stolon.md R100. -/

namespace Sys2Proof.Machine

/-! ### What a step finds (04 R100, R123) -/

/-- The move that is found for a primitive is one of that primitive. -/
theorem moveOf_names {s : State} {slot i : Nat} {m : Move} (h : s.moveOf slot i = some m) : m.graph = slot ∧ m.prim = i := by
  have hm := List.find?_some h
  simp only [Bool.and_eq_true, decide_eq_true_eq] at hm
  exact hm.1

/-- A step of a primitive's move may be made: the move stands at step `n`, and the controllers of its destination go on with it. -/
structure MoveStands (s : State) (slot i : Nat) (m : Move) (n : Nat) : Prop where
  found : s.moveOf slot i = some m
  step : m.step = n
  runs : s.planRuns m = true

theorem MoveStands.go {s : State} {slot i n : Nat} {m : Move} (h : MoveStands s slot i m n) : ¬ (m.step ≠ n ∨ (!s.planRuns m) = true) := by
  simp [h.step, h.runs]

/-- A destination takes its function and joins its tracks, and the cells `ns` of it are built (04 R98, R102 step 3, R111). -/
def State.buildDest (s : State) (slot i : Nat) (d : PlaceP) (nets : List (Nat × List Nat)) (ns : List Nat) : State :=
  ns.foldl (fun s n => s.builtCell n) ((s.configDest slot i d).joinDest slot i d nets)

theorem destinationConfigured_eq {s : State} {t slot i : Nat} {m : Move} (h : MoveStands (s.at t) slot i m 1) :
    exec (.destinationConfigured t slot i) s =
      .next (((s.at t).buildDest slot i m.dest m.nets m.cold).setMove slot i (some { m with step := 3 })) := by
  change execDestinationConfigured t slot i s = _
  unfold execDestinationConfigured State.buildDest
  simp only [h.found, if_neg h.go]

/-! ### Matching (04 R100, R103, R124) -/

/-- Do some of a move's companion loops serve another purpose, which is no test of Stolon's? -/
def State.loopsBusy (s : State) (cs : List Nat) : Bool := cs.any fun c => !([0, 4].contains (s.conv c).comp)

theorem loopsBusy_iff (s : State) (cs : List Nat) : s.loopsBusy cs = true ↔ ∃ c ∈ cs, (s.conv c).comp ≠ 0 ∧ (s.conv c).comp ≠ 4 := by
  simp [State.loopsBusy]

/-- A move of primitive `p` takes companion loops, which read what its matching compares. -/
def State.takeLoops (s : State) (p : Prim) (m : Move) (cs : List Nat) : State :=
  cs.foldl (fun v c => (v.yieldConv c 4).setConv c { (v.yieldConv c 4).conv c with comp := 1, priv := matchTracks p m }) s

theorem destinationSettled_eq {s : State} {t slot i : Nat} {m : Move} {g : Graph} (h : MoveStands (s.at t) slot i m 3)
    (hg : (s.at t).graph slot = some g) :
    exec (.destinationSettled t slot i) s = .next (if (s.at t).loopsBusy ((s.at t).moveLoops g m) = true then s.at t
      else (((s.at t).takeLoops (g.prim i) m ((s.at t).moveLoops g m)).setFrozen ((g.prim i).cells ++ placeCells m.dest) true).setMove slot i
        (some { m with step := 4, loops := (s.at t).moveLoops g m })) := by
  change execDestinationSettled t slot i s = _
  unfold execDestinationSettled
  simp only [h.found, hg]
  by_cases hb : (s.at t).loopsBusy ((s.at t).moveLoops g m) = true
  · rw [if_pos hb]
    exact if_pos (.inr (.inr hb))
  · rw [if_neg hb]
    exact if_neg fun hstop => h.go (hstop.imp_right fun hs => hs.resolve_right hb)

/-- A round of matching has measured the cells of a destination. -/
def State.measuredDest (s : State) (d : PlaceP) : State :=
  (placeCells d).foldl (fun s n => s.setCell n { s.cell n with calTime := some s.now, calTemp := s.blockTemp (n / 16) }) s

/-- A move whose third round of matching fails is counted, logged and abandoned (04 R103). -/
def State.failMatching (s : State) (slot i : Nat) (m : Move) (offOut : Nat) : State :=
  ((s.bump (uRg (placeRegion m.dest)) 7).log 0x204 1 m.dest.c0 (s.primArg slot i) offOut).abandonMove m stFAULT 1

theorem matchingRound_eq {s : State} {t slot i offIn offOut gain : Nat} {trims : List (Nat × Int)} {m : Move}
    (h : MoveStands (s.at t) slot i m 4) :
    exec (.matchingRound t slot i offIn offOut gain trims) s = .next (
      if (offIn ≤ 10 ∨ offOut ≤ 1880) ∧ gain ≤ 500 then
        ((s.at t).measuredDest m.dest).setMove slot i (some { m with step := 5, round := m.round + 1 })
      else if m.round + 1 < 3 then
        (((s.at t).measuredDest m.dest).trimDest m.dest trims).setMove slot i (some { m with round := m.round + 1 })
      else (((s.at t).measuredDest m.dest).failMatching slot i m offOut).cellsFreed.pumpRef.resume) := by
  change execMatchingRound t slot i offIn offOut gain trims s = _
  unfold execMatchingRound
  simp only [h.found, if_neg h.go]
  rw [apply_ite Host.Outcome.next, apply_ite Host.Outcome.next]
  rfl

/-! ### The crossover's end (04 R105) -/

theorem crossoverComplete_eq {s : State} {t slot i : Nat} {meas : Measured} {m : Move} {g : Graph} (hm : (s.at t).moveOf slot i = some m)
    (hg : (s.at t).graph slot = some g) (hstep : m.step = 6) (htodo : m.todo = [])
    (hfade : ∀ r ∈ reaches g i, ∀ x, ((s.at t).conv r.1).xf = some x → ¬ (x.graph = slot ∧ x.prim = i)) :
    exec (.crossoverComplete t slot i meas) s = .next ((((((s.at t).takePlace m g).reeval slot i meas).bump (uRg (placeRegion m.dest)) 0).setMove
      slot i (some { m with step := 7, loops := [], src := (g.prim i).place i })).pumpRef) := by
  change execCrossoverComplete t slot i meas s = _
  unfold execCrossoverComplete
  simp only [hm, hg]
  refine if_neg ?_
  rintro (h | h | h)
  · exact h hstep
  · simp [htodo] at h
  · obtain ⟨r, hr, hx⟩ := List.any_eq_true.1 h
    split at hx
    · cases hx
    · next x hxf => exact hfade r hr x hxf (by simpa using hx)

/-! ### The end of a move (04 R102 step 8, R117, R120) -/

theorem sourceDisconnected_eq {s : State} {t slot i : Nat} {m : Move} (hm : (s.at t).moveOf slot i = some m) (hstep : m.step = 7)
    (hplace : (s.at t).placeOk m.dest = true) (hsrc : ∀ n ∈ (s.at t).vacated slot i, (s.at t).takesPart m.why (n / 128) = true) :
    exec (.sourceDisconnected t slot i) s = .next ((s.at t).endMove m).cellsFreed.resume := by
  have hgo : ¬ (m.step ≠ 7 ∨ (!(s.at t).placeOk m.dest) = true ∨
      ((s.at t).vacated slot i).any (fun n => !(s.at t).takesPart m.why (n / 128)) = true) := by simpa [hstep, hplace] using hsrc
  change execSourceDisconnected t slot i s = _
  unfold execSourceDisconnected
  simp only [hm, if_neg hgo]

/-- A move that has ended leaves the list, and the calibration of both ends thaws. -/
def State.moveOver (s : State) (m : Move) : State :=
  (s.setFrozen (s.vacated m.graph m.prim ++ placeCells m.dest) false).dropMove m

/-- The cells that a move has vacated go to their test, or are given back. -/
def State.disposeSource (s : State) (m : Move) : State :=
  if m.why = .stolon ∧ !(s.vacated m.graph m.prim).isEmpty then
    ((s.vacated m.graph m.prim).foldl (fun s n => s.freeCell n) (s.moveOver m)).askTest (cellRegion ((s.vacated m.graph m.prim).headD 0))
      { cells := s.vacated m.graph m.prim, owner := some (m.graph, m.src), took := m.took }
  else (s.moveOver m).giveBack m.graph (s.vacated m.graph m.prim)

theorem disposeSource_tests {s : State} {m : Move} (hwhy : m.why = .stolon) (hsrc : s.vacated m.graph m.prim ≠ []) :
    s.disposeSource m = ((s.vacated m.graph m.prim).foldl (fun s n => s.freeCell n) (s.moveOver m)).askTest
      (cellRegion ((s.vacated m.graph m.prim).headD 0)) { cells := s.vacated m.graph m.prim, owner := some (m.graph, m.src), took := m.took } :=
  if_pos ⟨hwhy, by simpa using hsrc⟩

theorem disposeSource_gives {s : State} {m : Move} (h : m.why ≠ .stolon ∨ s.vacated m.graph m.prim = []) :
    s.disposeSource m = (s.moveOver m).giveBack m.graph (s.vacated m.graph m.prim) := by
  refine if_neg ?_
  rcases h with h | h <;> simp [h]

/-- Only a TRANSPLANT of the host has an answer at a move's end. -/
theorem endMove_silent {s : State} {m : Move} (h : m.why ≠ .host ∨ m.handle = none) : s.endMove m = s.disposeSource m := by
  unfold State.endMove
  rcases h with h | h
  · dsimp only
    split
    · exact if_neg h
    · rfl
  · rw [h]
    rfl

theorem endMove_answers {s : State} {m : Move} {h : Nat} {g : Graph} (hwhy : m.why = .host) (hh : m.handle = some h)
    (hg : (s.disposeSource m).graph m.graph = some g) :
    s.endMove m = (s.disposeSource m).final h stOK ((g.prim m.prim).c0 + (g.prim m.prim).c1 * 65536) 0 := by
  unfold State.disposeSource State.moveOver at hg ⊢
  unfold State.endMove
  simp only [hh, hg]
  exact if_pos hwhy

/-! ### The statement -/

/-- Settles O30: each row finds the move at its step, and then does what that step says; the end of a move splits by what becomes of
the vacated cells (`disposeSource`) and by whether the host waits for an answer. -/
theorem moveStepsComplete : Obligations.MoveStepsComplete := by
  refine ⟨?_, ?_, ?_, ?_, ?_⟩
  · exact fun s t slot i m hm hstep hrun => destinationConfigured_eq ⟨hm, hstep, hrun⟩
  · intro s t slot i m g hm hg hstep hrun
    rw [destinationSettled_eq ⟨hm, hstep, hrun⟩ ((at_graph s t slot).trans hg)]
    refine ⟨fun hfree => congrArg _ (if_neg ?_), fun hbusy => congrArg _ (if_pos ?_)⟩
    · rw [loopsBusy_iff]
      rintro ⟨c, hc, h0, h4⟩
      rw [at_conv] at h0 h4
      exact (hfree c hc).elim h0 h4
    · rw [loopsBusy_iff]
      simpa only [at_conv] using hbusy
  · intro s t slot i m offIn offOut gain trims u hm hstep hrun hu
    obtain rfl : u = (s.at t).measuredDest m.dest := hu
    rw [matchingRound_eq ⟨hm, hstep, hrun⟩]
    refine ⟨fun hoff hgain => congrArg _ (if_pos ⟨hoff, hgain⟩), fun hout hround => ?_, fun hout hround => ?_⟩
    · rw [if_neg (by omega), if_pos (by omega)]
    · rw [if_neg (by omega), if_neg (by omega)]
      rfl
  · intro s t slot i m g meas hm hg hstep htodo hfade
    exact crossoverComplete_eq hm ((at_graph s t slot).trans hg) hstep htodo (by simpa only [at_conv] using hfade)
  · intro s t slot i m src u hm hstep hplace hsrc hpart hu
    obtain ⟨rfl, rfl⟩ := moveOf_names hm
    subst hsrc
    obtain rfl : u = (s.at t).moveOver m := hu
    rw [sourceDisconnected_eq hm hstep hplace hpart]
    refine ⟨fun hwhy hne => ?_, fun hgive hsilent => ?_, fun h g hwhy hh hg => ?_⟩
    · rw [endMove_silent (.inl (by simp [hwhy])), disposeSource_tests hwhy hne]
    · rw [endMove_silent hsilent, disposeSource_gives hgive]
    · have hgive := disposeSource_gives (s := s.at t) (m := m) (.inl (by simp [hwhy]))
      rw [endMove_answers hwhy hh (by rw [hgive, hg]), hgive]

end Sys2Proof.Machine

/-! PROOFS. Cell faults and resets (04 R109, R110; 02 R48; 17 R454, R455) and the steps of a repair (04 R98, R111-R113, R116): the
statement of 04_transplant_and_stolon.md R109. -/

namespace Sys2Proof.Machine

/-! ### Cell faults and resets -/

theorem cellFault_eq {s : State} {t n monitor : Nat} (hn : n < 1024) :
    exec (.cellFault t n monitor) s =
      .next (if (s.at t).monitorActs n monitor then (s.at t).faultCell n monitor ((s.at t).now - 12500) else s.at t) := ifUnit_of hn _

/-- The resets of a cell within the last second. -/
def State.cellResets (s : State) (n : Nat) : List Nat := s.within 250000000 (s.cell n).resets

/-- A handshake timeout of a cell is noted, counted and logged, and ages its elements. -/
def State.resetNoted (s : State) (n : Nat) : State :=
  (((s.setCell n { s.cell n with resets := s.cellResets n ++ [s.now] }).ageCell n).bump (uBk (n / 16)) 6).log 0x200 1 n
    ((s.cellResets n).length + 1) 0

/-- A cell drops what is staged for it. -/
def State.unstage (s : State) (n : Nat) : State :=
  s.setCell n { s.cell n with staged := [], stagedCal := false, stagedSettle := none, calRes := none }

theorem cellReset_eq {s : State} {t n : Nat} {ok : Bool} (hn : n < 1024) :
    exec (.cellReset t n ok) s = .next (if (s.at t).restarting (n / 128) then (s.at t).log 0x106 1 n 0x104 0x200
      else if ok && ((s.at t).cellResets n).isEmpty then (s.at t).resetNoted n
      else (((s.at t).resetNoted n).unstage n).faultCell n 4 ((s.at t).resetNoted n).now) := ifUnit_of hn _

theorem idacCompliance_eq {s : State} {t slot i : Nat} {g : Graph} (hg : (s.at t).graph slot = some g) (hplaced : g.phase = 7)
    (hi : i < g.prims.length) (hty : (g.prim i).ty = 10) :
    exec (.idacCompliance t slot i) s = .next ((s.at t).log 0x20D 1 (g.prim i).c0 ((s.at t).primArg slot i) 0) := by
  change execIdacCompliance t slot i s = _
  unfold execIdacCompliance
  have hidc : g.phase = 7 ∧ i < g.prims.length ∧ (g.prim i).ty = 10 := ⟨hplaced, hi, hty⟩
  simp only [hg, if_pos hidc]

/-! ### The destination of a repair (04 R98, R111, R113) -/

/-- A repair that finds no destination is logged, and its primitive is left without cells. -/
def State.strandRepair (s : State) (r : Nat) (q : Repair) (g : Graph) : State :=
  ((s.setRepair r none).log 0x205 1 (g.prim q.prim).c0 (s.primArg q.graph q.prim) 1).strand q g

theorem repairDestination_due {s : State} {r : Nat} {q : Repair} (hctrl : s.ctrlOk r = true) (hstep : q.step = 2) :
    ¬ (q.step ≠ 2 ∨ (!s.ctrlOk r) = true) := by simp [hstep, hctrl]

section
variable {s : State} {t r : Nat} {q : Repair} {l : List Repair} {g : Graph} (hr : r < 8) (hctrl : (s.at t).ctrlOk r = true)
  (hq : ((s.at t).region r).repairs = q :: l) (hg : (s.at t).graph q.graph = some g) (hstep : q.step = 2)
include hr hctrl hq hg hstep

theorem repairDestination_found {d : PlaceP} (hd : (s.at t).chooseDest q.graph g q.prim { repair := true } = some d) :
    exec (.repairDestination t r) s =
      .next ((((s.at t).placeRepair q g d).1.setRepair r (some ((s.at t).placeRepair q g d).2)).restock) := by
  change execRepairDestination t r s = _
  unfold execRepairDestination
  simp only [ifUnit_of hr, hq, hg, if_neg (repairDestination_due hctrl hstep), hd]

theorem repairDestination_none (hd : (s.at t).chooseDest q.graph g q.prim { repair := true } = none) :
    exec (.repairDestination t r) s = .next ((s.at t).strandRepair r q g).resume := by
  change execRepairDestination t r s = _
  unfold execRepairDestination State.strandRepair
  simp only [ifUnit_of hr, hq, hg, if_neg (repairDestination_due hctrl hstep), hd]

end

/-! ### The steps of a repair (04 R111) -/

/-- The repair at the head of a region's queue has destination `d`, and the controllers that take part in it accept configuration. -/
structure RepairStands (s : State) (r : Nat) (q : Repair) (d : PlaceP) : Prop where
  head : ∃ l, (s.region r).repairs = q :: l
  dest : q.dest = some d
  ctrl : s.ctrlOk r = true
  place : s.placeOk d = true

theorem repairStep_stands {s : State} {r step next : Nat} {q : Repair} {d : PlaceP} {f : Repair → PlaceP → State → State}
    (h : RepairStands s r q d) (hstep : q.step = step) :
    s.repairStep r step next f = (f q d s).setRepair r (some { q with step := next }) := by
  obtain ⟨l, hl⟩ := h.head
  have hgo : ¬ (q.step ≠ step ∨ (!s.ctrlOk r) = true ∨ (!s.placeOk d) = true) := by simp [hstep, h.ctrl, h.place]
  unfold State.repairStep
  simp only [hl, h.dest, if_neg hgo]

section
variable {s : State} {t r : Nat} {q : Repair} {d : PlaceP} {meas : Measured} (hr : r < 8) (h : RepairStands (s.at t) r q d)
include hr h

theorem repairConfigured_eq (hstep : q.step = 3) :
    exec (.repairConfigured t r) s = .next (((s.at t).configDest q.graph q.prim d).setRepair r (some { q with step := 5 })) :=
  (ifUnit_of hr _).trans (congrArg _ (repairStep_stands h hstep))

theorem repairNetsConnected_eq (hstep : q.step = 5) :
    exec (.repairNetsConnected t r) s = .next (((s.at t).joinDest q.graph q.prim d q.nets).setRepair r (some { q with step := 6 })) :=
  (ifUnit_of hr _).trans (congrArg _ (repairStep_stands h hstep))

theorem repairSettled_eq (hstep : q.step = 6) :
    exec (.repairSettled t r) s = .next ((s.at t).setRepair r (some { q with step := 7 })) :=
  (ifUnit_of hr _).trans (congrArg _ (repairStep_stands h hstep))

theorem repairVerified_eq (hstep : q.step = 7) :
    exec (.repairVerified t r) s = .next ((s.at t).setRepair r (some { q with step := 8 })) :=
  (ifUnit_of hr _).trans (congrArg _ (repairStep_stands h hstep))

theorem repairTakeover_eq (hstep : q.step = 8) (hwarm : q.cold = false) (hstrobe : t % 250 = 0) (hnow : (s.at t).now = t) :
    exec (.repairTakeover t r meas) s = .next ((s.at t).takeover r q d meas 0x202 1) := by
  obtain ⟨l, hl⟩ := h.head
  have hgo : ¬ (q.step ≠ 8 ∨ q.cold = true ∨ (s.at t).now % 250 ≠ 0 ∨ (s.at t).now ≠ t ∨ (!(s.at t).ctrlOk r) = true ∨
      (!(s.at t).placeOk d) = true) := by simp [hstep, hwarm, hstrobe, hnow, h.ctrl, h.place]
  change execRepairTakeover t r meas s = _
  unfold execRepairTakeover
  simp only [ifUnit_of hr, hl, h.dest, if_neg hgo]

theorem repairCold_eq (hstep : 3 ≤ q.step) (hcold : q.cold = true) :
    exec (.repairCold t r meas) s =
      .next (((s.at t).buildDest q.graph q.prim d q.nets (placeCells d)).takeover r q d meas 0x203 6) := by
  obtain ⟨l, hl⟩ := h.head
  have hgo : ¬ (q.step < 3 ∨ (!q.cold) = true ∨ (!(s.at t).ctrlOk r) = true ∨ (!(s.at t).placeOk d) = true) := by
    simp [hstep, hcold, h.ctrl, h.place]
  change execRepairCold t r meas s = _
  unfold execRepairCold State.buildDest
  simp only [ifUnit_of hr, hl, h.dest, if_neg hgo]

end

/-! ### The statement -/

/-- Settles O31: a monitor's and a handshake's rows branch on what they find, and each row of a repair finds it at the head of its
region's queue. -/
theorem repairStepsComplete : Obligations.RepairStepsComplete := by
  refine ⟨?_, ?_, ?_, ?_, ?_, ?_, ?_⟩
  · intro s t n m hn hacts
    rw [cellFault_eq hn, if_pos hacts]
  · intro s t n m hn hacts
    rw [cellFault_eq hn, hacts]
    rfl
  · intro s t n ok u hn hrest hu
    obtain rfl : u = (s.at t).resetNoted n := by
      rw [State.resetNoted, State.cellResets, at_cell]
      exact hu
    rw [cellReset_eq hn, if_neg (ne_true_of_eq_false hrest), State.cellResets, at_cell]
    refine ⟨fun hok hold => ?_, fun hbad => ?_⟩
    · rw [hok, within_isEmpty hold]
      rfl
    · rw [if_neg ?_, State.unstage]
      rcases hbad with hok | hnew
      · simp [hok]
      · simp [within_not_isEmpty hnew]
  · intro s t n ok hn hrest
    rw [cellReset_eq hn, if_pos hrest]
  · intro s t slot i g hg hplaced hi hty
    exact idacCompliance_eq ((at_graph s t slot).trans hg) hplaced hi hty
  · intro s t r q l g hr hctrl hq hg hstep
    have hq' : ((s.at t).region r).repairs = q :: l := by rwa [at_region]
    have hg' : (s.at t).graph q.graph = some g := (at_graph ..).trans hg
    exact ⟨fun d => repairDestination_found hr hctrl hq' hg' hstep, repairDestination_none hr hctrl hq' hg' hstep⟩
  · intro s t r q l d hr hctrl hq hdest hplace
    have h : RepairStands (s.at t) r q d := ⟨⟨l, by rwa [at_region]⟩, hdest, hctrl, hplace⟩
    exact ⟨repairConfigured_eq hr h, repairNetsConnected_eq hr h, repairSettled_eq hr h, repairVerified_eq hr h,
      fun hstep hwarm hstrobe hnow _ => repairTakeover_eq hr h hstep hwarm hstrobe hnow, fun hstep hcold _ => repairCold_eq hr h hstep hcold⟩

end Sys2Proof.Machine

/-! PROOFS. Stolon's tests and spares (04 R114, R117-R123; 12 R351), temperatures (17 R462), input pairs (17 R461) and cell controls (02
R46): the statement of 04_transplant_and_stolon.md R114. -/

namespace Sys2Proof.Machine

/-! ### Stolon tests (04 R118-R122) -/

theorem pumpTest_idle {s : State} {r : Nat} (htest : (s.region r).test = none) (hq : (s.region r).testQ = []) : s.pumpTest r = s := by
  unfold State.pumpTest
  simp only [htest, hq]

/-- A Stolon test of cell `n` may start in region `r`, whose turn it is (04 R118, R123, R124). -/
structure TestStarts (s : State) (r n : Nat) : Prop where
  enabled : s.til.policy.enable = true
  ctrl : s.ctrlOk r = true
  idle : (s.region r).test = none
  noneWaits : (s.region r).testQ = []
  settled : 5 ≤ s.time.step
  turn : s.oldestCell r = some n
  testable : s.testable n = true
  noRun : ∀ e ∈ s.cal.runs, e.kind = 0 → e.idx ∉ s.calGroup n

/-- The turn of cell `n` (04 R118, R120): a function that uses it is moved away first, any other cell is tested. -/
def State.takeTurn (s : State) (r n : Nat) (segs : List Nat) : State :=
  match (s.cell n).use with
  | .fn slot i => s.planMove { graph := slot, prim := i, why := .stolon, len := s.til.policy.len }
  | _ => s.askTest r { cells := [n], segs := segs.eraseDups.filter fun k => s.segTestable r k }

theorem takeTurn_moves {s : State} {r n slot i : Nat} {segs : List Nat} (huse : (s.cell n).use = .fn slot i) :
    s.takeTurn r n segs = s.planMove { graph := slot, prim := i, why := .stolon, len := s.til.policy.len } := by
  rw [State.takeTurn, huse]

theorem takeTurn_asks {s : State} {r n : Nat} {segs : List Nat} (huse : ∀ slot i, (s.cell n).use ≠ .fn slot i) :
    s.takeTurn r n segs = s.askTest r { cells := [n], segs := segs.eraseDups.filter fun k => s.segTestable r k } := by
  unfold State.takeTurn
  split
  · next slot i hfn => exact absurd hfn (huse slot i)
  · rfl

theorem stolonTestStart_eq {s : State} {t r n : Nat} {segs : List Nat} (hr : r < 8) (h : TestStarts (s.at t) r n) :
    exec (.stolonTestStart t r segs) s = .next ((s.at t).takeTurn r n segs) := by
  have hstart : ¬ ((!(s.at t).til.policy.enable) = true ∨ (!(s.at t).ctrlOk r) = true ∨ ((s.at t).region r).test.isSome = true ∨
      (s.at t).time.step < 5) := by
    rw [h.enabled, h.ctrl, h.idle]
    simpa using h.settled
  have hcell : ¬ ((!(s.at t).testable n) = true ∨
      (s.at t).cal.runs.any (fun e => e.kind == 0 && ((s.at t).calGroup n).contains e.idx) = true) := by
    rw [h.testable]
    simpa using h.noRun
  change execStolonTestStart t r segs s = _
  unfold execStolonTestStart
  simp only [pumpTest_idle h.idle h.noneWaits, ifUnit_of hr, if_neg hstart, h.turn, if_neg hcell]
  rfl

theorem stolonTestEnd_eq {s : State} {t r c : Nat} {scores ranks segScores : List Nat} {ok : Bool} {q : Test} (hr : r < 8)
    (hctrl : (s.at t).ctrlOk r = true) (hq : ((s.at t).region r).test = some q) (hc : q.conv = some c)
    (hscores : scores.length = 48 * q.cells.length) (hranks : ranks.length = scores.length) (hsegs : segScores.length = q.segs.length) :
    exec (.stolonTestEnd t r scores ranks segScores ok) s =
      .next (((s.at t).endTest r q scores ranks segScores).afterTest r q ok) := by
  have hgo : ¬ (q.conv.isNone = true ∨ (!(s.at t).ctrlOk r) = true ∨ scores.length ≠ 48 * q.cells.length ∨ ranks.length ≠ scores.length ∨
      segScores.length ≠ q.segs.length) := by simp [hc, hctrl, hscores, hranks, hsegs]
  change execStolonTestEnd t r scores ranks segScores ok s = _
  unfold execStolonTestEnd
  simp only [ifUnit_of hr, hq, if_neg hgo]

theorem stolonYielded_eq {s : State} {t r why : Nat} (hr : r < 8) (h : 1 ≤ why ∧ why ≤ 4) :
    exec (.stolonYielded t r why) s = .next ((s.at t).yieldTest r why) := (ifUnit_of hr _).trans (congrArg _ (if_pos h))

/-- The next coverage period of a region begins (04 R118). -/
def State.nextPeriod (s : State) (r : Nat) : State :=
  s.setRegion r { s.region r with covStart := s.now, covTested := [], covSegs := [], covSkip := [] }

theorem coverageMissed_eq {s : State} {t r : Nat} (hr : r < 8) (hen : s.til.policy.enable = true) (hctrl : (s.at t).ctrlOk r = true)
    (hdue : (s.region r).covStart + s.til.policy.period * 250000000 ≤ (s.at t).now) :
    exec (.coverageMissed t r) s = .next (if 128 - (s.region r).covTested.length = 0 then (s.at t).nextPeriod r
      else (((s.at t).nextPeriod r).bump (uRg r) 9).log 0x20C 3 r (128 - (s.region r).covTested.length) 0) := by
  have hgo : ¬ ((!(s.at t).til.policy.enable) = true ∨ (!(s.at t).ctrlOk r) = true ∨
      (s.at t).now < ((s.at t).region r).covStart + (s.at t).til.policy.period * 250000000) := by
    rw [hctrl]
    simpa [hen] using hdue
  rw [← at_region s t]
  exact (ifUnit_of hr _).trans (congrArg _ (if_neg hgo))

/-! ### Warm spares (04 R114, R117; 12 R351) -/

/-- A spare has been calibrated and is warm; one that Stolon has never tested counts as tested now (log 13). -/
def State.warmed (s : State) (n : Nat) : State :=
  s.setCell n { s.cell n with
    warm := true, calTime := some s.now, calTemp := s.blockTemp (n / 16), bias := 1023
    lastTest := some ((s.cell n).lastTest.getD s.now), due := false, status := (s.cell n).status.completed none }

/-- That every pool is warm is logged once. -/
def State.noteWarmth (s : State) : State :=
  if s.poolsWarm && !s.chip.sparesWarm then State.log { s with chip := { s.chip with sparesWarm := true } } 0x208 4 0 0 0 else s

theorem spareWarm_eq {s : State} {t n : Nat} (hn : n < 1024) (hspare : (s.cell n).use = .pool ∨ ∃ g, (s.cell n).use = .reserved g)
    (hctrl : (s.at t).ctrlOk (n / 128) = true) (hstep : 5 ≤ (s.at t).time.step) (hwarm : ((s.at t).warmed n).warmNow n = true) :
    exec (.spareWarm t n) s = .next (((s.at t).warmed n).dropPartner n).noteWarmth := by
  change execSpareWarm t n s = _
  unfold execSpareWarm State.noteWarmth
  refine (ifUnit_of hn _).trans (congrArg _ (if_neg ?_))
  rintro (h | h | h | h)
  · rcases hspare with hp | ⟨g, hp⟩ <;> simp [hp] at h
  · simp [hctrl] at h
  · omega
  · rw [Bool.not_eq_true'] at h
    exact absurd hwarm (ne_true_of_eq_false h)

/-- The warm spares of a region whose coverage period has passed. -/
def State.pastCover (s : State) (r : Nat) : List Nat :=
  (regionCells r).filter fun n => (s.cell n).warm && match (s.cell n).lastTest with
    | none => false
    | some x => decide (x + s.til.policy.period * 250000000 < s.now)

/-- Cells are warm no more. -/
def State.cool (s : State) (ns : List Nat) : State := ns.foldl (fun s n => s.setCell n { s.cell n with warm := false }) s

theorem cool_sparesCold (ns : List Nat) (s : State) : (s.cool ns).til.sparesCold = s.til.sparesCold := by
  induction ns generalizing s with
  | nil => rfl
  | cons n ns ih => exact ih _

theorem sparesCold_eq {s : State} {t r : Nat} (hr : r < 8) (hen : s.til.policy.enable = false) (hpast : (s.at t).pastCover r ≠ []) :
    exec (.sparesCold t r) s = .next (if s.til.sparesCold = true then (s.at t).cool ((s.at t).pastCover r)
      else State.log { (s.at t).cool ((s.at t).pastCover r) with
          til := { ((s.at t).cool ((s.at t).pastCover r)).til with sparesCold := true } } 0x209 3 r
        (((((s.at t).cool ((s.at t).pastCover r)).poolCells r).filter fun n => !((s.at t).cool ((s.at t).pastCover r)).warmNow n).length) 0) := by
  have hgo : ¬ ((s.at t).til.policy.enable = true ∨ ((s.at t).pastCover r).isEmpty = true) := by simpa [hen] using hpast
  rw [← at_til s t, ← cool_sparesCold ((s.at t).pastCover r)]
  exact (ifUnit_of hr _).trans (congrArg _ (if_neg hgo))

/-! ### Temperatures (17 R462), input pairs (17 R461) and cell controls (02 R46) -/

theorem temperatureReading_eq {s : State} {t r : Nat} {temps : List Int} (hr : r < 8) (hlen : temps.length = 8)
    (hctrl : (s.at t).ctrlOk r = true) (hstep : 5 ≤ (s.at t).time.step) :
    exec (.temperatureReading t r temps) s = .next (((temps.zipIdx.foldl (fun (s : State) e => s.readSensor (8 * r + e.2) e.1 (median2 temps))
      (s.at t)).regionDue r).level r) := by
  have hgo : ¬ (temps.length ≠ 8 ∨ (!(s.at t).ctrlOk r) = true ∨ (s.at t).time.step < 5) := by
    rw [hctrl]
    simpa [hlen] using hstep
  exact (ifUnit_of hr _).trans (congrArg _ (if_neg hgo))

/-- An input pair leaves its range. -/
def State.overrange (s : State) (p : Nat) (v : AinPair) : State := s.setPair p { v with ranged := true, onset := s.now }

theorem ainOverrange_logs {s : State} {t p leg : Nat} (hp : p < 128) (hin : (s.pair p).ranged = false)
    (hold : ∀ x, (s.pair p).lastLog = some x → x + 250000000 ≤ (s.at t).now) :
    exec (.ainOverrange t p leg) s =
      .next (((s.at t).overrange p { s.pair p with lastLog := some (s.at t).now, further := 0 }).log 0x212 3 (3 * 2 ^ 24 + p) leg
        (s.pair p).further) := by
  change execAinOverrange t p leg s = _
  unfold execAinOverrange State.overrange
  simp only [ifUnit_of hp, at_pair, hin, Bool.false_eq_true, if_false]
  cases hlast : (s.pair p).lastLog with
  | none => rfl
  | some x => exact congrArg _ (if_pos (decide_eq_true (hold x hlast)))

theorem ainOverrange_counts {s : State} {t p leg x : Nat} (hp : p < 128) (hin : (s.pair p).ranged = false)
    (hlast : (s.pair p).lastLog = some x) (hnew : (s.at t).now < x + 250000000) :
    exec (.ainOverrange t p leg) s = .next ((s.at t).overrange p { s.pair p with further := (s.pair p).further + 1 }) := by
  change execAinOverrange t p leg s = _
  unfold execAinOverrange State.overrange
  simp only [ifUnit_of hp, at_pair, hin, Bool.false_eq_true, if_false, hlast]
  exact congrArg _ (if_neg (by simpa using hnew))

theorem ainOverrangeClear_eq {s : State} {t p : Nat} (hp : p < 128) (hout : ((s.at t).pair p).ranged = true) :
    exec (.ainOverrangeClear t p) s = .next ((s.at t).setPair p { (s.at t).pair p with
      ranged := false
      ivs := (((s.at t).pair p).ivs ++ [(((s.at t).pair p).onset, (s.at t).now)]).drop (((s.at t).pair p).ivs.length - 31) }) :=
  (ifUnit_of hp _).trans (congrArg _ (if_pos hout))

theorem cellControlEdge_live {s : State} {t kind index : Nat} {level : Bool} (hk : kind ≠ 0) (hsrc : srcOk (kind * 2 ^ 28 + index) = true)
    (hlive : (s.at t).sourceLive kind index = true) :
    exec (.cellControlEdge t kind index level) s = .next ((s.at t).setCtl (kind * 2 ^ 28 + index) level) :=
  (if_pos (by rw [decide_eq_true hk, hsrc]; rfl)).trans (congrArg _ (if_pos hlive))

/-! ### The statement -/

/-- Settles O32: each row's guard, then what it does; that the pools are warm and that a region's spares are cold is noted once
(`noteWarmth`, `sparesCold_eq`). -/
theorem stolonEventsComplete : Obligations.StolonEventsComplete := by
  refine ⟨?_, ?_, ?_, ?_, ?_, ?_, ?_, ?_, ?_, ?_, ?_⟩
  · intro s t r segs n hr hen hctrl htest hq hstep hturn htestable hruns
    have h : TestStarts (s.at t) r n :=
      { enabled := by rwa [at_til], ctrl := hctrl, idle := by rwa [at_region], noneWaits := by rwa [at_region], settled := by rwa [at_step]
        turn := hturn, testable := htestable, noRun := by rwa [at_cal] }
    rw [stolonTestStart_eq hr h]
    refine ⟨fun huse => ?_, fun slot i huse => ?_⟩
    · rw [takeTurn_asks (by rwa [at_cell])]
    · rw [takeTurn_moves (by rwa [at_cell]), at_til]
  · intro s t r scores ranks segScores ok q c u hr hctrl hq hc hscores hranks hsegs hu
    rw [hu, stolonTestEnd_eq hr hctrl (by rwa [at_region]) hc hscores hranks hsegs]
  · exact fun s t r why hr hlow hhigh => stolonYielded_eq hr ⟨hlow, hhigh⟩
  · intro s t r u hr hen hctrl hdue hu
    obtain rfl : u = (s.at t).nextPeriod r := by rw [hu, State.nextPeriod, at_region]
    rw [coverageMissed_eq hr hen hctrl hdue]
    exact ⟨fun hleft => congrArg _ (if_neg (by omega)), fun hall => congrArg _ (if_pos (by omega))⟩
  · intro s t n u hn hspare hctrl hstep hu hwarm
    obtain rfl : u = (s.at t).warmed n := by rw [hu, State.warmed, at_cell]
    rw [spareWarm_eq hn hspare hctrl (by rwa [at_step]) hwarm, State.noteWarmth]
    refine ⟨fun hquiet => ?_, fun hall hfirst => ?_⟩
    · rw [if_neg (by rcases hquiet with h | h <;> simp [h])]
    · rw [if_pos (by simp [hall, hfirst])]
  · intro s t r l u hr hen hne hl hu
    obtain rfl : l = (s.at t).pastCover r := by
      rw [hl, State.pastCover]
      simp only [at_cell, at_til] <;> rfl
    obtain rfl : u = (s.at t).cool ((s.at t).pastCover r) := hu
    rw [sparesCold_eq hr hen hne]
    exact ⟨fun hcold => congrArg _ (if_pos hcold), fun hcold => congrArg _ (if_neg (ne_true_of_eq_false hcold))⟩
  · exact fun s t r temps hr hlen hctrl hstep => temperatureReading_eq hr hlen hctrl (by rwa [at_step])
  · exact fun s t p leg hp hin hold => ainOverrange_logs hp hin hold
  · exact fun s t p leg x hp hin hlast hnew => ainOverrange_counts hp hin hlast hnew
  · intro s t p hp hout
    rw [ainOverrangeClear_eq hp (by rwa [at_pair]), at_pair]
  · exact fun s t kind index level hk hsrc hlive => cellControlEdge_live hk hsrc hlive

end Sys2Proof.Machine

/-! PROOFS. Conversion commands and the events of a converter (05 R129, R137-R146, R149, R152-R154; 06 R168, R169, R174; 02 R39;
10 R280; 12 R341-R343): two statements of 05_precision_conversion.md. -/

namespace Sys2Proof.Machine

/-! ### CONV_CONFIG and SEQ_LOAD (05 R139-R143; 06 R168, R169; 12 R341) -/

theorem bodyConvConfig_queues {s : State} {cmd : Instr} {slot : Nat} {a : Bytes} (hst : s.cfgStatus (readCfg a) = stOK)
    (hf : (s.region (convRegion (byteAt a 0))).failed = false) (hr : (s.region (convRegion (byteAt a 0))).ready = true) :
    bodyConvConfig cmd slot a s = s.queueConv (byteAt a 0) slot (some (readCfg a)) [] :=
  (if_neg (not_not.2 hst)).trans (onRegion_ready hf hr)

/-- The steps of a SEQ_LOAD with record `a`, as its bytes were read. -/
def State.seqSteps (s : State) (a steps : Bytes) : List SeqStep :=
  (List.range (min (byteAt a 1) 64)).map fun i => readStep (byteAt a 0) (s.seqBytes a steps) (8 * i)

theorem bodySeqLoad_queues {s : State} {steps : Bytes} {cmd : Instr} {slot : Nat} {a : Bytes} (halign : fld a 8 8 % 8 = 0)
    (hbuf : s.bufOk (fld a 8 8) (8 * byteAt a 1) = true) (hst : s.seqStatus (byteAt a 0) (byteAt a 1) (s.seqSteps a steps) = stOK)
    (hf : (s.region (convRegion (byteAt a 0))).failed = false) (hr : (s.region (convRegion (byteAt a 0))).ready = true) :
    bodySeqLoad steps cmd slot a s = s.queueConv (byteAt a 0) slot none (s.seqSteps a steps) :=
  (if_neg (by simp [halign, hbuf])).trans ((if_neg (not_not.2 hst)).trans (onRegion_ready hf hr))

/-! ### TRIGGER (05 R144; 12 R342) -/

theorem bodyTrigger_offers {s : State} {slot : Nat} {a : Bytes} {u : State × Nat} (hne : maskConvs a 0 ≠ [])
    (hmode : ∀ c ∈ maskConvs a 0, (s.conv c).cfg.mode = 2)
    (hu : u = (maskConvs a 0).foldl (fun p c => ((p.1.acceptTrig c).1, p.2 + b2n (p.1.acceptTrig c).2)) (s, 0)) :
    bodyTrigger slot a s = u.1.final slot stOK u.2 u.1.now := by
  subst hu
  exact if_neg (by simpa [hne] using hmode)

/-! ### SYSCAL_ZERO, SYSCAL_FULL and SYSCAL_TIMEOUT (05 R152; 06 R174; 12 R343) -/

/-- A measurement that the record `a` asks for is in range and of an entry that the converter's sequence selects. -/
structure MeasJudged (s : State) (a : Bytes) : Prop where
  atLeast : 16 ≤ fld a 4 4
  atMost : fld a 4 4 ≤ 65536
  target : isWM (byteAt a 0) = true → convMin (byteAt a 0) ≤ toI 32 (fld a 8 4) ∧ toI 32 (fld a 8 4) ≤ convMax (byteAt a 0)
  on : (s.conv (byteAt a 0)).cfg.mode ≠ 0
  entry : ∃ e ∈ (s.conv (byteAt a 0)).steps, e.entry = byteAt a 1
  works : (s.region (convRegion (byteAt a 0))).failed = false
  ready : (s.region (convRegion (byteAt a 0))).ready = true

theorem MeasJudged.inRange {s : State} {a : Bytes} (h : MeasJudged s a) :
    ¬ (fld a 4 4 < 16 ∨ 65536 < fld a 4 4 ∨ (isWM (byteAt a 0) && (decide (toI 32 (fld a 8 4) < convMin (byteAt a 0)) ||
      decide (convMax (byteAt a 0) < toI 32 (fld a 8 4)))) = true) := by
  rintro (hlow | hhigh | htarget)
  · exact absurd h.atLeast (Nat.not_le.2 hlow)
  · exact absurd h.atMost (Nat.not_le.2 hhigh)
  · simp only [Bool.and_eq_true, Bool.or_eq_true, decide_eq_true_eq] at htarget
    obtain ⟨hw, hout⟩ := htarget
    obtain ⟨hmin, hmax⟩ := h.target hw
    omega

theorem MeasJudged.selected {s : State} {a : Bytes} (h : MeasJudged s a) :
    ¬ ((s.conv (byteAt a 0)).cfg.mode = 0 ∨ (!(s.conv (byteAt a 0)).steps.any fun e => decide (e.entry = byteAt a 1)) = true) := by
  have hany : ((s.conv (byteAt a 0)).steps.any fun e => decide (e.entry = byteAt a 1)) = true := by simpa using h.entry
  simp [h.on, hany]

theorem bodySyscal_starts {s u : State} {full : Bool} {cmd : Instr} {slot : Nat} {a : Bytes} (h : MeasJudged s a)
    (hu : u = ((s.conv (byteAt a 0)).meas.filter fun m => !m.held && decide (m.entry = byteAt a 1) && decide (m.full = full)).foldl
      (fun v m => (v.dropMeas (byteAt a 0) m.slot).final m.slot stABORTED 0 0) s) :
    bodySyscal full cmd slot a s = (u.setConv (byteAt a 0) { u.conv (byteAt a 0) with
      meas := (u.conv (byteAt a 0)).meas ++ [{ entry := byteAt a 1, full := full, n := fld a 4 4, target := toI 32 (fld a 8 4), slot := slot,
                                               start := u.now }] }).setWork slot (.syscal (byteAt a 0)) := by
  subst hu
  exact (if_neg h.inRange).trans ((if_neg h.selected).trans (onRegion_ready h.works h.ready))

theorem syscalTimeout_eq {s : State} {t slot c : Nat} (hw : (s.hnd slot).work = .syscal c)
    (hold : ∃ m ∈ (s.conv c).meas, m.slot = slot ∧ m.held = false ∧ m.start + 15000000000 ≤ (s.at t).now) :
    exec (.syscalTimeout t slot) s = .next (((s.at t).dropMeas c slot).final slot stTIMEOUT 0 0) := by
  change execSyscalTimeout t slot s = _
  unfold execSyscalTimeout
  simp only [at_hnd, hw, at_conv]
  exact if_pos (by simpa [and_assoc] using hold)

/-! ### SYSCAL_COMMIT (05 R153, R154; 06 R174) -/

/-- CLEAR without APPLY and STORE is the value 4 of the flags. -/
theorem clear_alone_iff (n : Nat) : (bit n 2 && !bit n 0 && !bit n 1) = true ↔ n % 8 = 4 := by
  simp only [bit, Nat.testBit_eq_decide_div_mod_eq, Bool.and_eq_true, Bool.not_eq_true', decide_eq_true_eq, decide_eq_false_iff_not]
  omega

theorem bodySysCommit_ready {s : State} {cmd : Instr} {slot : Nat} {a : Bytes} (hflags : byteAt a 2 % 8 ≠ 0) (hentry : byteAt a 1 ≤ 63)
    (hf : (s.region (convRegion (byteAt a 0))).failed = false) (hr : (s.region (convRegion (byteAt a 0))).ready = true) :
    bodySysCommit cmd slot a s = s.sysCommit slot a :=
  (if_neg (by omega)).trans (onRegion_ready hf hr)

theorem sysCommit_clears {s : State} {slot : Nat} {a : Bytes} (h : byteAt a 2 % 8 = 4) :
    s.sysCommit slot a = (s.sysClear (byteAt a 0) (byteAt a 1)).final slot stOK 0 0 := if_pos ((clear_alone_iff _).2 h)

theorem sysCommit_unmeasured {s : State} {slot : Nat} {a : Bytes} (hclear : bit (byteAt a 2) 2 = false)
    (hnone : ∀ m ∈ (s.conv (byteAt a 0)).meas, m.held = true → m.entry ≠ byteAt a 1) :
    s.sysCommit slot a = s.final slot stBAD_ARG 0 0 := by
  have hz : (s.conv (byteAt a 0)).meas.find? (fun m => m.held && decide (m.entry = byteAt a 1) && !m.full) = none :=
    List.find?_eq_none.2 fun m hm => by simpa using fun hheld hentry => absurd hentry (hnone m hm hheld)
  unfold State.sysCommit
  simp [hclear, hz]

/-- SYSCAL_COMMIT finds both measurements of its entry, and asks for more than to clear. -/
structure CommitMeasured (s : State) (a : Bytes) (z f : Meas) : Prop where
  more : byteAt a 2 % 8 ≠ 4
  zero : (s.conv (byteAt a 0)).meas.find? (fun m => m.held && decide (m.entry = byteAt a 1) && !m.full) = some z
  fullScale : (s.conv (byteAt a 0)).meas.find? (fun m => m.held && decide (m.entry = byteAt a 1) && m.full) = some f

/-- The state in which SYSCAL_COMMIT puts its set to use: with CLEAR, the entry's set of before is gone. -/
def State.commitFrom (s : State) (a : Bytes) : State := if bit (byteAt a 2) 2 then s.sysClear (byteAt a 0) (byteAt a 1) else s

section
variable {s : State} {slot : Nat} {a : Bytes} {z f : Meas}

theorem sysCommit_unsolved (h : CommitMeasured s a z f) (hsolve : sysSolve (byteAt a 0) z f = none) :
    s.sysCommit slot a = s.final slot stRANGE 0 0 := by
  unfold State.sysCommit
  simp only [if_neg (mt (clear_alone_iff _).1 h.more), h.zero, h.fullScale, hsolve]

theorem sysCommit_solved (h : CommitMeasured s a z f) {g : Nat} {off : Int} (hsolve : sysSolve (byteAt a 0) z f = some (g, off)) :
    s.sysCommit slot a =
      if (bit (byteAt a 2) 1 && ((s.commitFrom a).sysSlot (byteAt a 0) (byteAt a 1)).isNone) = true then s.final slot stNO_RESOURCE 0 0
      else ((s.commitFrom a).sysKeep (byteAt a 0) (byteAt a 1) z.gcode g off (bit (byteAt a 2) 0) (bit (byteAt a 2) 1)
        ((s.commitFrom a).sysSlot (byteAt a 0) (byteAt a 1))).final slot stOK g (ofI 64 off) := by
  unfold State.sysCommit
  simp only [if_neg (mt (clear_alone_iff _).1 h.more), h.zero, h.fullScale, hsolve]
  rfl

end

/-! ### The statement about commands -/

/-- Settles O27: each command is admitted with a converter's number, and its body runs past the checks that its record and its converter
meet (`MeasJudged`, `CommitMeasured`). -/
theorem conversionCommandsComplete : Obligations.ConversionCommandsComplete := by
  refine ⟨?_, ?_, ?_, ?_, ?_, ?_, ?_⟩
  · intro s d slot a hadm hbad hc hst hf hr
    have hrun : exec (.convConfig d) s = .next (bodyConvConfig (.convConfig d) slot a (s.admitted d slot a)) :=
      command_admitted hadm rfl hbad (if_pos hc)
    rw [hrun, bodyConvConfig_queues hst hf hr]
  · intro s d steps slot a l hadm hbad hc hsteps halign hbuf hl hst hf hr
    subst hl
    have hrun : exec (.seqLoad d steps) s = .next (bodySeqLoad steps (.seqLoad d steps) slot a (s.admitted d slot a)) :=
      command_admitted hadm rfl (by rw [hbad]; exact hsteps) (if_pos hc)
    rw [hrun, bodySeqLoad_queues halign hbuf hst hf hr]
    rfl
  · intro s d slot a hadm hne hmode
    have hrun : exec (.trigger d) s = .next (bodyTrigger slot a (s.admitted d slot a)) := command_admitted hadm rfl rfl rfl
    exact ⟨_, rfl, by rw [hrun, bodyTrigger_offers hne (by simpa using hmode) rfl]⟩
  · intro s d slot a hadm hbad hc hmin hmax htarget hon hentry hf hr
    have hrun : exec (.syscalZero d) s = .next (bodySyscal false (.syscalZero d) slot a (s.admitted d slot a)) :=
      command_admitted hadm rfl hbad (if_pos hc)
    have h : MeasJudged (s.admitted d slot a) a := ⟨hmin, hmax, htarget, by rwa [admitted_conv], by rwa [admitted_conv], hf, hr⟩
    exact ⟨_, rfl, by rw [hrun, bodySyscal_starts h rfl, admitted_conv]⟩
  · intro s d slot a hadm hbad hc hmin hmax htarget hon hentry hf hr
    have hrun : exec (.syscalFull d) s = .next (bodySyscal true (.syscalFull d) slot a (s.admitted d slot a)) :=
      command_admitted hadm rfl hbad (if_pos hc)
    have h : MeasJudged (s.admitted d slot a) a := ⟨hmin, hmax, htarget, by rwa [admitted_conv], by rwa [admitted_conv], hf, hr⟩
    exact ⟨_, rfl, by rw [hrun, bodySyscal_starts h rfl, admitted_conv]⟩
  · intro s d slot a c entry hadm hbad hc hlt hentry h63 hf hr
    subst hc hentry
    have hrun (hflags : byteAt a 2 % 8 ≠ 0) : exec (.syscalCommit d) s = .next ((s.admitted d slot a).sysCommit slot a) := by
      rw [← bodySysCommit_ready (cmd := .syscalCommit d) hflags h63 hf hr]
      exact command_admitted hadm rfl hbad (if_pos hlt)
    refine ⟨fun halone => ?_, fun hflags hmore z f u hz hfull hu => ?_, fun hflags hclear hnone => ?_⟩
    · rw [hrun (by omega), sysCommit_clears halone]
    · obtain rfl : u = (s.admitted d slot a).commitFrom a := hu
      have h : CommitMeasured (s.admitted d slot a) a z f := ⟨hmore, by rwa [admitted_conv], by rwa [admitted_conv]⟩
      refine ⟨fun hsolve => ?_, fun g off hsolve => ⟨fun hstore hfullStore => ?_, fun hroom => ?_⟩⟩
      · rw [hrun hflags, sysCommit_unsolved h hsolve]
      · rw [hrun hflags, sysCommit_solved h hsolve, if_pos (by simp [hstore, hfullStore])]
      · have hplace : ¬ ((bit (byteAt a 2) 1 && (((s.admitted d slot a).commitFrom a).sysSlot (byteAt a 0) (byteAt a 1)).isNone) = true) := by
          intro hno
          obtain ⟨hstore, hnone⟩ := Bool.and_eq_true_iff.1 hno
          simpa [Option.isNone_iff_eq_none.1 hnone] using hroom hstore
        rw [hrun hflags, sysCommit_solved h hsolve, if_neg hplace]
    · rw [hrun hflags, sysCommit_unmeasured hclear (by rwa [admitted_conv])]
  · exact fun s t slot c hw hold => syscalTimeout_eq hw hold

end Sys2Proof.Machine

/-! PROOFS. What happens to a converter in time (05 R129, R137, R140-R146, R149; 02 R39; 04 R122; 10 R280). -/

namespace Sys2Proof.Machine

/-! ### Output instants (05 R137, R140-R143, R149; 02 R39) -/

/-- Tick `t` is an output instant of converter `c`, whose timebase has reached it (05 R137). -/
structure InstantDue (s : State) (t c : Nat) : Prop where
  unit : c < 192
  phased : (s.conv c).rephase = false
  running : s.time.running = true
  reached : s.now = t
  onGrid : ∃ p, (s.conv c).period c = some p ∧ atInstant p t = true

/-- What a converter does at an instant of its own: the commands that wait take effect, or it takes the sample, or, where no settings
are in effect, its sequence starts or waits for its calibration (05 R140-R143; 08 R238). -/
def State.serveInstant (s : State) (c t : Nat) (main comp : Int) : State :=
  if (s.conv c).waits ≠ [] then
    (s.conv c).waits.foldl (fun s w => s.takeEffect c w true) (s.setConv c { s.conv c with waits := [] })
  else if (s.conv c).eff.isSome then s.instant c t main comp
  else if (s.conv c).cfg.mode = 0 then s
  else if (s.conv c).waiting = false then s.setConv c (startOrWait c (s.conv c) t false true)
  else if (s.conv c).calDone = true ∨ (s.conv c).waitUntil ≤ t then
    s.setConv c (startSequence c (s.conv c) false (s.conv c).outOfOff)
  else s

/-- New coefficients and crossovers due come before what the instant does, where settings are in effect (05 R131, R149). -/
def State.beforeInstant (s : State) (c : Nat) : State :=
  if (s.conv c).eff.isSome then (s.applyCoef c).crossAt (some c) else s

theorem outputInstant_serves {s : State} {t c : Nat} {main comp : Int} (h : InstantDue (s.at t) t c) :
    exec (.outputInstant t c main comp) s = .next ((((s.at t).beforeInstant c).serveInstant c t main comp).endInstant c) := by
  obtain ⟨hc, hphase, hrun, hnow, p, hp, hgrid⟩ := h
  have hgo : ¬ (((s.at t).conv c).rephase = true ∨ (!(s.at t).time.running) = true ∨ (s.at t).now ≠ t ∨ (!atInstant p t) = true) := by
    rw [hphase, hrun, hnow, hgrid]
    simp
  change execOutputInstant t c main comp s = _
  unfold execOutputInstant
  rw [if_neg (Nat.not_le.2 hc)]
  simp only [hp, if_neg hgo]
  generalize hu : (if ((s.at t).conv c).eff.isSome then ((s.at t).applyCoef c).crossAt (some c) else s.at t) = u
  obtain rfl : (s.at t).beforeInstant c = u := hu
  generalize (s.at t).beforeInstant c = u
  congr 2
  unfold State.serveInstant
  cases hw : (u.conv c).waits with
  | cons w ws => simp
  | nil => cases he : (u.conv c).eff <;> cases hwait : (u.conv c).waiting <;> simp

theorem outputInstant_offGrid {s : State} {t c : Nat} {main comp : Int} {p : Nat × Nat} (hc : c < 192)
    (hp : (s.conv c).period c = some p) (hoff : atInstant p t = false) : exec (.outputInstant t c main comp) s = .next (s.at t) := by
  change execOutputInstant t c main comp s = _
  unfold execOutputInstant
  rw [if_neg (Nat.not_le.2 hc)]
  simp [hp, hoff]

theorem endInstant_idle {s : State} {c : Nat} (h : (s.conv c).eff = none) : s.endInstant c = s := if_pos (by simp [h])

section
variable {s : State} {c t : Nat} {main comp : Int}

theorem serveInstant_commands (hw : (s.conv c).waits ≠ []) : s.serveInstant c t main comp =
    (s.conv c).waits.foldl (fun s w => s.takeEffect c w true) (s.setConv c { s.conv c with waits := [] }) := if_pos hw

theorem serveInstant_sample (hw : (s.conv c).waits = []) (he : (s.conv c).eff.isSome = true) :
    s.serveInstant c t main comp = s.instant c t main comp := (if_neg (not_not.2 hw)).trans (if_pos he)

/-- With no settings in effect and no command waiting, a converter that is on starts its sequence, or its wait. -/
theorem serveInstant_idle (hw : (s.conv c).waits = []) (he : (s.conv c).eff = none) (hm : (s.conv c).cfg.mode ≠ 0) :
    s.serveInstant c t main comp = if (s.conv c).waiting = false then s.setConv c (startOrWait c (s.conv c) t false true)
      else if (s.conv c).calDone = true ∨ (s.conv c).waitUntil ≤ t then s.setConv c (startSequence c (s.conv c) false (s.conv c).outOfOff)
      else s :=
  (if_neg (not_not.2 hw)).trans ((if_neg (by simp [he])).trans (if_neg hm))

end

/-! ### Triggers (04 R122; 05 R144, R145) -/

/-- A trigger is offered to every converter that listens to it. -/
def State.offerTrig (s : State) (kind index : Nat) (falling : Bool) : State :=
  (s.convs.filter fun e => e.2.listens kind index falling).foldl (fun s e => (s.acceptTrig e.1).1) s

/-- Stolon gives back the modulators it has borrowed that a fabric signal triggers. -/
def State.yieldFabric (s : State) (index : Nat) : State :=
  (s.convs.filter fun e => e.2.borrowed && decide (e.2.cfg.source.kind = 1) && decide (e.2.cfg.source.index = index)).foldl
    (fun s e => s.yieldConv e.1 2) s

/-- A trigger of kind and index that exist, of a source that does not stand still, is not ignored. -/
theorem source_attended {s : State} {kind index : Nat} (hlow : 1 ≤ kind) (hhigh : kind ≤ 5) (hi : trigIndexOk kind index = true)
    (hl : s.sourceLive kind index = true) :
    ¬ (kind = 0 ∨ 5 < kind ∨ (!trigIndexOk kind index) = true ∨ (!s.sourceLive kind index) = true) := by
  rw [hi, hl]
  simp only [Bool.not_true, Bool.false_eq_true, or_false]
  omega

theorem triggerAccept_offers {s : State} {t kind index : Nat} {falling : Bool} (hlow : 2 ≤ kind) (hhigh : kind ≤ 5)
    (hi : trigIndexOk kind index = true) (hl : (s.at t).sourceLive kind index = true) :
    exec (.triggerAccept t kind index falling) s = .next ((s.at t).offerTrig kind index falling) := by
  have hk : kind ≠ 1 := by omega
  change execTriggerAccept t kind index falling s = _
  unfold execTriggerAccept
  simp only [if_neg (source_attended (by omega) hhigh hi hl), if_neg hk]
  rfl

theorem triggerAccept_fabric {s : State} {t index : Nat} {falling : Bool} (hi : index < 1024) (hl : (s.at t).sourceLive 1 index = true) :
    exec (.triggerAccept t 1 index falling) s =
      .next ((((s.at t).setCtl (2 ^ 28 + index) (!falling)).yieldFabric index).offerTrig 1 index falling) :=
  if_neg (source_attended le_rfl (by decide) (decide_eq_true hi) hl)

/-! ### Strobes, overloads and power gates (02 R39; 05 R129; 10 R280) -/

theorem applyStrobe_eq {s : State} {t : Nat} (ht : t % 250 = 0) (hrun : (s.at t).time.running = true) (hnow : (s.at t).now = t) :
    exec (.applyStrobe t) s = .next (((s.at t).applyStaged ((s.at t).stagedCells.filter fun n =>
      decide ((s.at t).cellBoundary ((s.at t).cell n) = none))).crossAt none) := if_neg (by simp [ht, hrun, hnow])

theorem loopOverload_marks {s : State} {t c : Nat} {e : SeqStep} (hc : c < 192) (he : (s.conv c).eff = some e)
    (ho : (s.conv c).overload = none) :
    exec (.loopOverload t c) s =
      .next (((s.at t).setConv c { s.conv c with overload := some (s.at t).now }).bump (uConv c) 8) := by
  rw [← at_conv s t] at he ho ⊢
  exact (ifUnit_of hc _).trans (congrArg _ (if_neg (by rw [he, ho]; simp)))

theorem loopOverloadEnd_eq {s : State} {t c x : Nat} (hc : c < 192) (ho : (s.conv c).overload = some x) :
    exec (.loopOverloadEnd t c) s = .next ((s.at t).setConv c { s.conv c with
      overload := none
      overEnd := true
      overIv := ((s.conv c).overIv ++ [(x, (s.at t).now)]).drop ((s.conv c).overIv.length - 31) }) := by
  change execLoopOverloadEnd t c s = _
  unfold execLoopOverloadEnd
  simp only [ifUnit_of hc, at_conv, ho]

theorem converterPowerGate_gates {s : State} {t c : Nat} (hc : c < 192) (hm : (s.conv c).cfg.mode = 0)
    (hoff : (s.conv c).offSince + 2500000 < (s.at t).now) (hb : (s.conv c).borrowed = false) :
    exec (.converterPowerGate t c) s = .next ((s.at t).setConv c { s.conv c with gated := true }) := by
  rw [← at_conv s t] at hm hoff hb ⊢
  exact (ifUnit_of hc _).trans (congrArg _ (if_pos ⟨hm, hoff, by rw [hb]; rfl⟩))

/-! ### The statement about events -/

/-- Settles O28: what comes before an output instant and what the instant does (`beforeInstant`, `serveInstant`), the instant that is not
one, and the guards of the other rows. -/
theorem converterEventsComplete : Obligations.ConverterEventsComplete := by
  refine ⟨?_, ?_, ?_, ?_, ?_, ?_, ?_, ?_, ?_⟩
  · intro s t c main comp p e hc hphase hrun hnow hp hgrid he
    have h : InstantDue (s.at t) t c := ⟨hc, by rwa [at_conv], hrun, hnow, p, by rwa [at_conv], hgrid⟩
    have hbefore : (s.at t).beforeInstant c = ((s.at t).applyCoef c).crossAt (some c) := if_pos (by rw [at_conv, he]; rfl)
    refine ⟨(s.at t).beforeInstant c, hbefore, fun hw hsome => ?_, fun hw => ?_⟩
    · rw [outputInstant_serves h, serveInstant_sample hw hsome]
    · rw [outputInstant_serves h, serveInstant_commands hw]
  · intro s t c main comp p hc hphase hrun hnow hp hgrid he
    have h : InstantDue (s.at t) t c := ⟨hc, by rwa [at_conv], hrun, hnow, p, by rwa [at_conv], hgrid⟩
    have hbefore : (s.at t).beforeInstant c = s.at t := if_neg (by simp [he])
    rw [outputInstant_serves h, hbefore]
    rw [← at_conv s t] at he ⊢
    generalize s.at t = u at he ⊢
    refine ⟨fun hw => ?_, fun hw hm hwait => ?_, fun hw hm hwait => ⟨fun hover => ?_, fun hcal hlate => ?_⟩⟩
    · rw [serveInstant_commands hw]
    · rw [serveInstant_idle hw he hm, if_pos hwait]
    · rw [serveInstant_idle hw he hm, if_neg (by simp [hwait]), if_pos hover]
    · rw [serveInstant_idle hw he hm, if_neg (by simp [hwait]), if_neg (by simp [hcal, hlate]), endInstant_idle he]
  · exact fun s t c main comp p hc hp hoff => outputInstant_offGrid hc hp hoff
  · exact fun s t kind index falling hlow hhigh hi hl => triggerAccept_offers hlow hhigh hi hl
  · intro s t index falling u v hi hl hu hv
    subst hu hv
    exact triggerAccept_fabric hi hl
  · exact fun s t ht hrun hnow => applyStrobe_eq ht hrun hnow
  · exact fun s t c e hc he ho => loopOverload_marks hc he ho
  · exact fun s t c x hc ho => loopOverloadEnd_eq hc ho
  · exact fun s t c hc hm hoff hb => converterPowerGate_gates hc hm hoff hb

end Sys2Proof.Machine

/-! PROOFS. The DAC commands (07 R192, R193, R198, R199, R203-R208; 12 R344): one of two statements of 07_outputs_dds.md. -/

namespace Sys2Proof.Machine

/-! ### DAC_SET (07 R192, R203) -/

/-- A DAC_SET's record is in range, and its channel's region controller takes it. -/
structure SetJudged (s : State) (a : Bytes) : Prop where
  unit : byteAt a 0 < 64
  source : byteAt a 2 ≤ 2
  code : byteAt a 2 = 0 → inRange (s.dac (byteAt a 0)).codeRange (toI 32 (fld a 4 4)) = true
  bus : byteAt a 2 = 2 → fld a 4 2 < 64 ∧ fld a 4 2 / 8 = byteAt a 0 / 8
  works : (s.region (byteAt a 0 / 8)).failed = false
  ready : (s.region (byteAt a 0 / 8)).ready = true

theorem SetJudged.inRange {s : State} {a : Bytes} (h : SetJudged s a) :
    ¬ (64 ≤ byteAt a 0 ∨ 2 < byteAt a 2 ∨ (byteAt a 2 = 0 ∧ (!inRange (s.dac (byteAt a 0)).codeRange (toI 32 (fld a 4 4))) = true) ∨
      (byteAt a 2 = 2 ∧ (64 ≤ fld a 4 2 ∨ fld a 4 2 / 8 ≠ byteAt a 0 / 8))) := by
  rintro (hn | hsrc | ⟨hsrc, hcode⟩ | ⟨hsrc, hbus⟩)
  · exact absurd h.unit (Nat.not_lt.2 hn)
  · exact absurd h.source (Nat.not_le.2 hsrc)
  · simp [h.code hsrc] at hcode
  · obtain ⟨hlt, hregion⟩ := h.bus hsrc
    omega

/-- The command that DAC_SET with record `a` has wait on its channel. -/
def setCmd (slot : Nat) (a : Bytes) : DacCmd :=
  { slot := slot, isRange := false, time := if bit (byteAt a 1) 0 then fld a 8 8 else 0, source := byteAt a 2, bus := fld a 4 2,
    code := if byteAt a 2 = 0 then toI 32 (fld a 4 4) else 0 }

/-- A channel without its latched flags; one that has tripped ramps again from 0 V (07 R192, R203). -/
def Dac.cleared (d : Dac) : Dac :=
  { d with short := false, tripped := false, senseOpen := false, ddsClip := false, faultValue := false, nvDefaulted := false,
           out := if d.tripped then 0 else d.out, reramp := d.reramp || d.tripped,
           moving := if d.tripped && decide (d.source = 0) then some false else d.moving }

section
variable {s : State} {cmd : Instr} {slot : Nat} {a : Bytes}

theorem bodyDacSet_keeps (h : SetJudged s a) (hclear : bit (byteAt a 1) 1 = false) : bodyDacSet cmd slot a s =
    (s.setDac (byteAt a 0) { s.dac (byteAt a 0) with outs := (s.dac (byteAt a 0)).outs ++ [setCmd slot a] }).setWork slot (.dac (byteAt a 0)) := by
  refine (if_neg h.inRange).trans ((onRegion_ready h.works h.ready).trans ?_)
  simp only [hclear]
  rfl

theorem bodyDacSet_clears (h : SetJudged s a) (hclear : bit (byteAt a 1) 1 = true) : bodyDacSet cmd slot a s =
    (s.setDac (byteAt a 0) { (s.dac (byteAt a 0)).cleared with outs := (s.dac (byteAt a 0)).outs ++ [setCmd slot a] }).setWork slot (.dac (byteAt a 0)) := by
  refine (if_neg h.inRange).trans ((onRegion_ready h.works h.ready).trans ?_)
  simp only [hclear]
  rfl

end

/-! ### DAC_RANGE (07 R198, R199, R204) -/

/-- A DAC_RANGE's record is in range, and its channel's region controller takes it. -/
structure RangeJudged (s : State) (a : Bytes) : Prop where
  unit : byteAt a 0 < 64
  range : byteAt a 1 ≤ 3
  limitLow : 1 ≤ byteAt a 3
  limitHigh : byteAt a 3 ≤ 8
  code : inRange (byteAt a 1) (toI 32 (fld a 4 4)) = true
  period : fld a 8 4 = 0 ∨ 250 ≤ fld a 8 4
  dwell : fld a 12 2 ≤ 1000
  works : (s.region (byteAt a 0 / 8)).failed = false
  ready : (s.region (byteAt a 0 / 8)).ready = true

theorem RangeJudged.inRange {s : State} {a : Bytes} (h : RangeJudged s a) :
    ¬ (64 ≤ byteAt a 0 ∨ 3 < byteAt a 1 ∨ byteAt a 3 = 0 ∨ 8 < byteAt a 3 ∨ (!inRange (byteAt a 1) (toI 32 (fld a 4 4))) = true ∨
      (fld a 8 4 ≠ 0 ∧ fld a 8 4 < 250) ∨ 1000 < fld a 12 2) := by
  obtain ⟨hn, hr, hlow, hhigh, hcode, hperiod, hdwell, -, -⟩ := h
  rw [hcode]
  simp only [Bool.not_true, Bool.false_eq_true, false_or]
  omega

/-- The settings that DAC_RANGE with record `a` gives a channel at once; the range too where the channel is not enabled (07 R204). -/
def Dac.resettled (d : Dac) (a : Bytes) : Dac :=
  { d with senseLocal := bit (byteAt a 2) 0, senseNow := bit (byteAt a 2) 0, haltOffset := bit (byteAt a 2) 1, limit := byteAt a 3, dwell := fld a 12 2,
           period := if fld a 8 4 = 0 then d.period else fld a 8 4, range := if d.enabled then d.range else byteAt a 1 }

/-- DAC_RANGE names the range that its channel is in once it has the new settings (07 R204). -/
theorem resettled_range_iff (d : Dac) (a : Bytes) : byteAt a 1 = (d.resettled a).range ↔ d.enabled = false ∨ byteAt a 1 = d.range := by
  cases h : d.enabled <;> simp [Dac.resettled, h]

/-- DAC_RANGE has given its channel the settings of record `a`, and waits on it. -/
def State.resettle (s : State) (slot : Nat) (a : Bytes) : State :=
  (s.setDac (byteAt a 0) ((s.dac (byteAt a 0)).resettled a)).setWork slot (.dac (byteAt a 0))

/-- The commands that wait on the channel of a DAC_RANGE end ABORTED: its range change replaces them (07 R199, R204). -/
def State.outsAborted (s : State) (slot : Nat) (a : Bytes) : State :=
  (s.resettle slot a).endOuts (byteAt a 0) ((s.dac (byteAt a 0)).resettled a).outs stABORTED

/-- The command that DAC_RANGE with record `a` has wait on its channel, in state `st`. -/
def rangeCmd (slot : Nat) (a : Bytes) (st : Nat) : DacCmd :=
  { slot := slot, isRange := true, time := 0, source := 0, bus := 0, code := toI 32 (fld a 4 4), st := st }

/-- The range change to the range and code of record `a`, in a phase that began at `since`. -/
def changeTo (a : Bytes) (phase since : Nat) : RangeCh :=
  { phase := phase, range := byteAt a 1, source := 0, bus := 0, code := toI 32 (fld a 4 4), since := since }

theorem endOuts_time (s : State) (n : Nat) (cs : List DacCmd) (status : Nat) : (s.endOuts n cs status).time = s.time :=
  (Quiet.foldl _ fun _ _ => final_quiet ..).time

@[simp] theorem changeTo_phase (a : Bytes) (phase since : Nat) : (changeTo a phase since).phase = phase := rfl

/-- Commands that end move no count. -/
theorem outsAborted_dacCount (s : State) (slot : Nat) (a : Bytes) : (s.outsAborted slot a).dacCount = s.dacCount := by
  have h : (s.outsAborted slot a).time = s.time := (endOuts_time ..).trans (setWork_time ..)
  unfold State.dacCount
  rw [h]

/-- Where a DAC_RANGE with record `a` redirects the range change of a channel in range `range` at count `now` (07 R199): a change that
has not switched yet goes on towards 0 V, or stays there 20 us more; one that has switched turns to its new code, or starts again. -/
def RangeCh.redirected (q : RangeCh) (a : Bytes) (range now : Nat) : RangeCh :=
  if q.phase < 3 then changeTo a q.phase (if q.phase = 2 then now else q.since)
  else if byteAt a 1 = range then changeTo a 3 0 else changeTo a 0 0

section
variable {q : RangeCh} {a : Bytes} {range now : Nat}

theorem RangeCh.redirected_ramping (h : q.phase < 2) : q.redirected a range now = changeTo a q.phase q.since := by
  unfold RangeCh.redirected
  rw [if_pos (by omega), if_neg (by omega)]

theorem RangeCh.redirected_waiting (h : q.phase = 2) : q.redirected a range now = changeTo a 2 now := by
  unfold RangeCh.redirected
  rw [h, if_pos (by decide), if_pos rfl]

theorem RangeCh.redirected_same (h : 3 ≤ q.phase) (hr : byteAt a 1 = range) : q.redirected a range now = changeTo a 3 0 :=
  (if_neg (Nat.not_lt.2 h)).trans (if_pos hr)

theorem RangeCh.redirected_other (h : 3 ≤ q.phase) (hr : byteAt a 1 ≠ range) : q.redirected a range now = changeTo a 0 0 :=
  (if_neg (Nat.not_lt.2 h)).trans (if_neg hr)

end

/-- A channel's range change is `c` now, and its DAC_RANGE the one command that waits on it; in phase 3 it ramps to its code (07 R199). -/
def State.redirect (s : State) (slot : Nat) (a : Bytes) (c : RangeCh) : State :=
  s.setDac (byteAt a 0) { s.dac (byteAt a 0) with
    outs := [rangeCmd slot a 2], rc := some c, target := if c.phase = 3 then toI 32 (fld a 4 4) else (s.dac (byteAt a 0)).target }

section
variable {s : State} {cmd : Instr} {slot : Nat} {a : Bytes} {q : RangeCh}

theorem redirect_before {c : RangeCh} (h : c.phase ≠ 3) : s.redirect slot a c =
    s.setDac (byteAt a 0) { s.dac (byteAt a 0) with outs := [rangeCmd slot a 2], rc := some c } := by
  unfold State.redirect
  rw [if_neg h]

theorem redirect_switched {c : RangeCh} (h : c.phase = 3) : s.redirect slot a c =
    s.setDac (byteAt a 0) { s.dac (byteAt a 0) with outs := [rangeCmd slot a 2], target := toI 32 (fld a 4 4), rc := some c } := by
  unfold State.redirect
  rw [if_pos h]

theorem bodyDacRange_stays (h : RangeJudged s a) (hrc : (s.dac (byteAt a 0)).rc = none)
    (hr : byteAt a 1 = ((s.dac (byteAt a 0)).resettled a).range) : bodyDacRange cmd slot a s = (s.resettle slot a).setDac (byteAt a 0)
      { (s.dac (byteAt a 0)).resettled a with outs := ((s.dac (byteAt a 0)).resettled a).outs ++ [rangeCmd slot a 0] } := by
  refine (if_neg h.inRange).trans ((onRegion_ready h.works h.ready).trans ?_)
  dsimp only
  split
  next => exact if_pos hr
  next q hq => exact nomatch hrc.symm.trans hq

theorem bodyDacRange_starts (h : RangeJudged s a) (hrc : (s.dac (byteAt a 0)).rc = none)
    (hr : byteAt a 1 ≠ ((s.dac (byteAt a 0)).resettled a).range) :
    bodyDacRange cmd slot a s = (s.outsAborted slot a).redirect slot a (changeTo a 0 0) := by
  refine (if_neg h.inRange).trans ((onRegion_ready h.works h.ready).trans ?_)
  dsimp only
  split
  next => exact if_neg hr
  next q hq => exact nomatch hrc.symm.trans hq

theorem bodyDacRange_redirects (h : RangeJudged s a) (hrc : (s.dac (byteAt a 0)).rc = some q) : bodyDacRange cmd slot a s =
      (s.outsAborted slot a).redirect slot a (q.redirected a (s.dac (byteAt a 0)).range s.dacCount) := by
  refine (if_neg h.inRange).trans ((onRegion_ready h.works h.ready).trans ?_)
  dsimp only
  split
  next hnone => exact nomatch hrc.symm.trans hnone
  next q' hq =>
    obtain rfl : q = q' := Option.some.inj (hrc.symm.trans hq)
    rfl

end
/-! ### DDS_CONFIG, DAC_NV_STORE and SLEW_CONFIG (07 R193, R205-R207; 12 R344) -/

theorem bodyDdsConfig_queues {s : State} {cmd : Instr} {slot : Nat} {a : Bytes} (hn : byteAt a 0 < 64)
    (hftw : 20 * fld a 4 6 * (s.dac (byteAt a 0)).period ≤ 9 * 2 ^ 48) (hamp : fld a 16 4 ≤ 524287)
    (hoff : inRange (s.dac (byteAt a 0)).range (toI 32 (fld a 20 4)) = true) (hf : (s.region (byteAt a 0 / 8)).failed = false)
    (hr : (s.region (byteAt a 0 / 8)).ready = true) :
    bodyDdsConfig cmd slot a s = (s.setDac (byteAt a 0) { s.dac (byteAt a 0) with ddsq := (s.dac (byteAt a 0)).ddsq ++ [{
      slot := slot, atTime := bit (byteAt a 1) 0, cont := bit (byteAt a 1) 1, stop := bit (byteAt a 1) 2
      time := if bit (byteAt a 1) 0 then fld a 32 8 else 0
      dds := { running := true, ftw := fld a 4 6, phase := fld a 10 6, ref := if bit (byteAt a 1) 0 then fld a 32 8 else 0, amp := fld a 16 4,
               offset := toI 32 (fld a 20 4), mtch := fld a 24 6 } }] }).setWork slot (.dac (byteAt a 0)) := by
  refine (if_neg ?_).trans (onRegion_ready hf hr)
  rintro (h | h | h | h)
  · exact absurd hn (Nat.not_lt.2 h)
  · exact absurd hftw (Nat.not_le.2 h)
  · exact absurd hamp (Nat.not_le.2 h)
  · simp [hoff] at h

/-- The power-up record that a channel's present settings make (07 R207). -/
def Dac.presentNv (d : Dac) : NvRec :=
  { code := d.present, range := d.range, senseLocal := d.senseNow, limit := d.limit, step := d.step, rate := d.rate, period := d.period, dwell := d.dwell }

/-- The power-up record that a DAC_NV_STORE with record `a` stores: the one given, or with FROM_PRESENT the present settings. -/
def State.nvAsked (s : State) (a : Bytes) : NvRec :=
  if bit (byteAt a 1) 0 then (s.dac (byteAt a 0)).presentNv else readNv (a.drop 4)

/-- A DAC_NV_STORE whose record is in range ends at once. -/
theorem bodyDacNvStore_ends {s : State} {verified : Bool} {slot : Nat} {a : Bytes} (hn : byteAt a 0 < 64) (hok : (s.nvAsked a).ok = true) :
    bodyDacNvStore verified slot a s =
      if s.keepLocked then s.final slot stLOCKED 0 0
      else if !verified then s.final slot stFAULT 0 0
      else (({ s with keep := { s.keep with dacUps := Tbl.set none (byteAt a 0) (some (s.nvAsked a).bytes) s.keep.dacUps } } : State).setDac (byteAt a 0)
        { s.dac (byteAt a 0) with nv := s.nvAsked a }).final slot stOK 0 0 := by
  refine if_neg ?_
  rintro (h | h)
  · exact absurd hn (Nat.not_lt.2 h)
  · exact Bool.false_ne_true (((Bool.not_eq_true' _).mp h).symm.trans hok)

theorem bodySlewConfig_waits {s : State} {cmd : Instr} {slot : Nat} {a : Bytes} (hn : byteAt a 0 < 64) (hstep : 1 ≤ fld a 2 2)
    (hslow : 1000 ≤ fld a 4 4) (hfast : fld a 4 4 ≤ 1000000) (hf : (s.region (byteAt a 0 / 8)).failed = false)
    (hr : (s.region (byteAt a 0 / 8)).ready = true) :
    bodySlewConfig cmd slot a s = (s.setDac (byteAt a 0) { s.dac (byteAt a 0) with
      newSlew := (s.dac (byteAt a 0)).newSlew ++ [(slot, bit (byteAt a 1) 0, fld a 2 2, fld a 4 4)] }).setWork slot (.dac (byteAt a 0)) :=
  (if_neg (by omega)).trans (onRegion_ready hf hr)

theorem bodySlewConfig_range {s : State} {cmd : Instr} {slot : Nat} {a : Bytes}
    (h : 64 ≤ byteAt a 0 ∨ fld a 2 2 = 0 ∨ fld a 4 4 < 1000 ∨ 1000000 < fld a 4 4) :
    bodySlewConfig cmd slot a s = s.final slot stRANGE 0 0 := if_pos h

/-! ### The statement about commands -/

/-- Settles O33: each command is admitted and runs its body, whose checks the record meets (`SetJudged`, `RangeJudged`); a DAC_RANGE goes
by the channel's range change, if there is one, and its phase. -/
theorem dacCommandsComplete : Obligations.DacCommandsComplete := by
  refine ⟨?_, ?_, ?_, ?_, ?_, ?_⟩
  · intro s d slot a n src code c hadm hbad hn hsrc hcode hlt hsrc2 hin hbus hf hr hc
    subst hn hsrc hcode hc
    have hrun : exec (.dacSet d) s = .next (bodyDacSet (.dacSet d) slot a (s.admitted d slot a)) := command_admitted hadm rfl hbad rfl
    have h : SetJudged (s.admitted d slot a) a := ⟨hlt, hsrc2, by rwa [admitted_dac], hbus, by rwa [admitted_region], by rwa [admitted_region]⟩
    rw [hrun, ← admitted_dac s d slot a]
    exact ⟨fun hclear => congrArg _ (bodyDacSet_keeps h hclear), fun hclear => congrArg _ (bodyDacSet_clears h hclear)⟩
  · intro s d slot a n r code new u v hadm hbad hn hr hcode hlt hr3 hlow hhigh hin hperiod hdwell hf hrdy hnew hu hv
    subst hn hr hcode
    have hrun : exec (.dacRange d) s = .next (bodyDacRange (.dacRange d) slot a (s.admitted d slot a)) := command_admitted hadm rfl hbad rfl
    have h : RangeJudged (s.admitted d slot a) a :=
      ⟨hlt, hr3, hlow, hhigh, hin, hperiod, hdwell, by rwa [admitted_region], by rwa [admitted_region]⟩
    rw [← admitted_dac s d slot a] at hnew
    rw [hrun, ← admitted_dac s d slot a]
    generalize s.admitted d slot a = w at *
    obtain rfl : new = (w.dac (byteAt a 0)).resettled a := hnew
    obtain rfl : u = w.resettle slot a := hu
    obtain rfl : v = w.outsAborted slot a := hv
    refine ⟨fun hrc hstay => ?_, fun hrc hon hmove => ?_, fun q hq hphase => ?_, fun q hq hphase => ?_, fun q hq hphase hsame => ?_,
      fun q hq hphase hother => ?_⟩
    · rw [bodyDacRange_stays h hrc ((resettled_range_iff ..).2 hstay)]
      rfl
    · rw [bodyDacRange_starts h hrc (mt (resettled_range_iff ..).1 (by simp [hon, hmove])), redirect_before (by simp)]
      rfl
    · rw [bodyDacRange_redirects h hq, RangeCh.redirected_ramping hphase, redirect_before (by simp; omega)]
      rfl
    · rw [bodyDacRange_redirects h hq, RangeCh.redirected_waiting hphase, redirect_before (by simp), outsAborted_dacCount]
      rfl
    · rw [bodyDacRange_redirects h hq, RangeCh.redirected_same hphase hsame, redirect_switched rfl]
      rfl
    · rw [bodyDacRange_redirects h hq, RangeCh.redirected_other hphase hother, redirect_before (by simp)]
      rfl
  · intro s d slot a n hadm hbad hn hlt hftw hamp hoff hf hr
    subst hn
    have hrun : exec (.ddsConfig d) s = .next (bodyDdsConfig (.ddsConfig d) slot a (s.admitted d slot a)) := command_admitted hadm rfl hbad rfl
    rw [← admitted_dac s d slot a] at hftw hoff ⊢
    rw [hrun, bodyDdsConfig_queues hlt hftw hamp hoff (by rwa [admitted_region]) (by rwa [admitted_region])]
  · intro s d slot a n r hadm hbad hn hlt hgiven hpresent hok
    subst hn
    have hrun (ok : Bool) : exec (.dacNvStore d ok) s = .next (bodyDacNvStore ok slot a (s.admitted d slot a)) := command_admitted hadm rfl hbad rfl
    have hasked : r = (s.admitted d slot a).nvAsked a := by
      unfold State.nvAsked
      split
      next hbit => rw [admitted_dac]; exact hpresent hbit
      next hbit => exact hgiven (Bool.eq_false_iff.2 hbit)
    have hlock : (s.admitted d slot a).keepLocked = s.keepLocked := by simp [State.keepLocked]
    subst hasked
    simp only [hrun, bodyDacNvStore_ends hlt hok, hlock, admitted_keep, admitted_dac]
    refine ⟨fun h ok => ?_, fun h => ?_, fun h => ?_⟩ <;> rw [h] <;> rfl
  · intro s d slot a n hadm hbad hn hlt hstep hslow hfast hf hr
    subst hn
    have hrun : exec (.slewConfig d) s = .next (bodySlewConfig (.slewConfig d) slot a (s.admitted d slot a)) := command_admitted hadm rfl hbad rfl
    rw [hrun, bodySlewConfig_waits hlt hstep hslow hfast (by rwa [admitted_region]) (by rwa [admitted_region]), admitted_dac]
  · intro s d slot a hadm hbad hout
    have hrun : exec (.slewConfig d) s = .next (bodySlewConfig (.slewConfig d) slot a (s.admitted d slot a)) := command_admitted hadm rfl hbad rfl
    rw [hrun, bodySlewConfig_range hout]

end Sys2Proof.Machine

/-! PROOFS. What happens on a DAC channel in time (07 R180, R183, R188-R199; 09 R247): the other statement of 07_outputs_dds.md. -/

namespace Sys2Proof.Machine

/-! ### The count moves time alone (07 R196) -/

@[simp] theorem atCount_dacs (s : State) (t : Nat) : (s.atCount t).dacs = s.dacs := by
  unfold State.atCount
  split
  · exact at_dacs s t
  · split <;> rfl

@[simp] theorem atCount_dac (s : State) (t n : Nat) : (s.atCount t).dac n = s.dac n := by
  unfold State.dac
  rw [atCount_dacs]

/-! ### Update instants, limiter ticks and bus captures (07 R180, R189, R198; 09 R247) -/

theorem dacUpdate_due {s : State} {t n : Nat} (hn : n < 64) (hcount : (s.atCount t).dacCount = t) (hgrid : t % (s.dac n).period = 0)
    (hnew : (s.dac n).lastConv ≠ some t) (hup : 2 ≤ (s.dac n).upStep) :
    exec (.dacUpdate t n) s = .next ((((s.atCount t).dacTargets n t).dacTick n t).dacConvert n t) := by
  exact (ifUnit_of hn _).trans (congrArg _ (if_neg (by simpa [hcount, hgrid, hnew] using Nat.lt_of_succ_le hup)))

theorem slewTick_due {s : State} {t n : Nat} (hn : n < 64) (hcount : (s.atCount t).dacCount = t) (hup : 2 ≤ (s.dac n).upStep) :
    exec (.slewTick t n) s = .next ((s.atCount t).dacTick n t) := by
  exact (ifUnit_of hn _).trans (congrArg _ (if_neg (by simpa [hcount] using Nat.lt_of_succ_le hup)))

/-- A channel's source, range change or waiting command is the bus, whose words are captured for it (09 R247). -/
def Dac.captures (d : Dac) : Prop := d.source = 2 ∨ (∃ r, d.rc = some r ∧ r.source = 2) ∨ ∃ c ∈ d.outs, c.source = 2

theorem captures_iff (d : Dac) : d.captures ↔ d.source = 2 ∨ (d.rc.any fun r => r.source == 2) = true ∨ (d.outs.any fun c => c.source == 2) = true := by
  simp [Dac.captures, Option.any_eq_true]

theorem dacBusCapture_copies {s : State} {t n data : Nat} {valid : Bool} (hn : n < 64) (hbus : (s.dac n).captures) (hfree : (s.dac n).busHeld = false) :
    exec (.dacBusCapture t n data valid) s =
      .next ((s.atCount t).setDac n { s.dac n with capData := data % 2 ^ 20, capValid := valid }) := by
  rw [← atCount_dac s t] at hbus hfree ⊢
  exact (ifUnit_of hn _).trans (congrArg _ (if_pos ⟨(captures_iff _).1 hbus, by rw [hfree]; rfl⟩))

theorem dacBusCapture_held {s : State} {t n data : Nat} {valid : Bool} (hn : n < 64) (hheld : (s.dac n).busHeld = true) :
    exec (.dacBusCapture t n data valid) s = .next (s.atCount t) := by
  exact (ifUnit_of hn _).trans (congrArg _ (if_neg (by simp [hheld])))

/-! ### Events of the DDS (07 R188) -/

theorem ddsWrap_due {s : State} {t n : Nat} (hn : n < 64) (hnow : (s.at t).now = t) (hwrap : ((s.dac n).ddsAt t).wraps t = true) :
    exec (.ddsWrap t n) s = .next ((s.at t).ddsEvent (2 * n)) := by
  rw [← at_dac s t] at hwrap
  exact (ifUnit_of hn _).trans (congrArg _ (if_pos ⟨hnow, hwrap⟩))

theorem ddsMatch_due {s : State} {t n : Nat} (hn : n < 64) (hnow : (s.at t).now = t) (hmatch : ((s.dac n).ddsAt t).matches_ t = true) :
    exec (.ddsMatch t n) s = .next ((s.at t).ddsEvent (2 * n + 1)) := by
  rw [← at_dac s t] at hmatch
  exact (ifUnit_of hn _).trans (congrArg _ (if_pos ⟨hnow, hmatch⟩))

/-! ### Power-up (07 R193-R195) -/

/-- A channel takes the settings of a power-up record, and its range is switched (07 R195 step 3). -/
def Dac.poweredTo (d : Dac) (r : NvRec) : Dac :=
  { d with upStep := 3, nv := r, range := r.range, senseLocal := r.senseLocal, senseNow := r.senseLocal, limit := r.limit
           step := r.step, rate := r.rate, period := r.period, dwell := r.dwell }

section
variable {s : State} {t n : Nat}

theorem dacPowerupRange_stored {r : NvRec} (hn : n < 64) (hup : (s.dac n).upStep = 2) (hr : (s.atCount t).storedNv n = some r) :
    exec (.dacPowerupRange t n) s = .next ((s.atCount t).setDac n ((s.dac n).poweredTo r)) := by
  rw [← atCount_dac s t] at hup ⊢
  change execDacPowerupRange t n s = _
  unfold execDacPowerupRange
  simp only [ifUnit_of hn, hr, hup, Option.isNone_some, Bool.or_false, Option.getD_some]
  rfl

theorem dacPowerupRange_defaults (hn : n < 64) (hup : (s.dac n).upStep = 2) (hr : (s.atCount t).storedNv n = none) :
    exec (.dacPowerupRange t n) s = .next (((s.atCount t).setDac n
      { (s.dac n).poweredTo {} with nvDefaulted := true }).log 0x400 3 (dacIdx n) 0 0) := by
  rw [← atCount_dac s t] at hup ⊢
  change execDacPowerupRange t n s = _
  unfold execDacPowerupRange
  simp only [ifUnit_of hn, hr, hup, Option.isNone_none, Bool.or_true, Option.getD_none]
  rfl

theorem dacPowerupEnable_starts (hn : n < 64) (hup : (s.dac n).upStep = 3) :
    exec (.dacPowerupEnable t n) s = .next ((s.atCount t).setDac n { s.dac n with
      upStep := 4, out := 0, conv := 0, source := 0, code := (s.dac n).nv.code, target := (s.dac n).nv.code, moving := some true,
      rampStep := (s.dac n).nv.step, rampRate := (s.dac n).nv.rate, lastTick := some t, shortSince := none }) := by
  rw [← atCount_dac s t] at hup ⊢
  exact (ifUnit_of hn _).trans (congrArg _ (if_neg (not_not.2 hup)))

theorem dacSupplyLoss_eq (s : State) (t : Nat) : exec (.dacSupplyLoss t) s =
    .next (((List.range 64).filter fun n => decide (2 ≤ (s.dac n).upStep) && !(s.dac n).tripped).foldl (fun s n => s.dacDown n) (s.atCount t)) := rfl

/-! ### The switch of a range (07 R198 step 3) -/

theorem rangeSwitch_due {r : RangeCh} (hn : n < 64) (hrc : (s.dac n).rc = some r) (hphase : r.phase = 2)
    (hsince : r.since + 5000 ≤ (s.atCount t).dacCount) :
    exec (.rangeSwitch t n) s = .next ((s.atCount t).setDac n { s.dac n with
      range := r.range, rc := some { r with phase := 3 }, out := 0, target := if r.source = 0 then r.code else 0,
      lastTick := some t, lastUpd := some t }) := by
  rw [← atCount_dac s t] at hrc ⊢
  have hdue : ¬ (r.phase ≠ 2 ∨ (s.atCount t).dacCount < r.since + 5000) := by omega
  change execRangeSwitch t n s = _
  unfold execRangeSwitch
  simp only [ifUnit_of hn, hrc, if_neg hdue]

/-! ### Limits, trips and open sense lines (07 R183, R191, R192) -/

theorem dacShort_eq {u : State} (hn : n < 64) (hon : (s.dac n).enabled = true) (hlive : (s.dac n).tripped = false)
    (honset : (s.dac n).shortSince = none)
    (hu : u = ((s.atCount t).setDac n { s.dac n with short := true, shortSince := some (s.atCount t).dacCount }).bump (uDac n) 1) :
    exec (.dacShort t n) s = .next (if (s.dac n).short then u else u.log 0x402 3 (dacIdx n) (s.dac n).limit 0) := by
  subst hu
  rw [← atCount_dac s t]
  exact (ifUnit_of hn _).trans (congrArg _ (if_neg (by simp [hon, hlive, honset])))

theorem shortLimitReleased_eq (hn : n < 64) :
    exec (.shortLimitReleased t n) s = .next ((s.atCount t).setDac n { s.dac n with shortSince := none }) := by
  rw [← atCount_dac s t]
  exact ifUnit_of hn _

/-- A channel that trips: a range change ends, and with it the source that it was to take (07 R192, R199). -/
def Dac.tripOff (d : Dac) : Dac :=
  { d with tripped := true, shortSince := none, rc := none, moving := none, source := if d.rc.isSome then 0 else d.source
           code := if d.rc.isSome then 0 else d.code }

theorem tripOff_settled {d : Dac} (h : d.rc = none) : d.tripOff = { d with tripped := true, shortSince := none, moving := none } := by
  unfold Dac.tripOff
  rw [h]
  rfl

theorem tripOff_changing {d : Dac} (h : d.rc ≠ none) :
    d.tripOff = { d with tripped := true, shortSince := none, rc := none, moving := none, source := 0, code := 0 } := by
  unfold Dac.tripOff
  rw [if_pos (Option.isSome_iff_ne_none.2 h), if_pos (Option.isSome_iff_ne_none.2 h)]

theorem dacTrip_due {from_ : Int} (hn : n < 64) (hsince : (s.dac n).shortSince = some from_) (hlive : (s.dac n).tripped = false)
    (hdwell : (s.dac n).dwell ≠ 0) (hlong : from_ + 250000 * ((s.dac n).dwell : Int) ≤ ((s.atCount t).dacCount : Int)) :
    exec (.dacTrip t n) s = .next ((((((s.atCount t).setDac n (s.dac n).tripOff).rangeCut n).endOuts n
      ((s.dac n).outs.filter fun c => decide (c.st ≠ 0)) stFAULT).bump (uDac n) 2).log 0x403 3 (dacIdx n) (s.dac n).dwell 0) := by
  rw [← atCount_dac s t] at hsince hlive hdwell hlong ⊢
  have hdue : ¬ (((s.atCount t).dac n).tripped = true ∨ ((s.atCount t).dac n).dwell = 0 ∨
      ((s.atCount t).dacCount : Int) < from_ + 250000 * ((s.atCount t).dac n).dwell) := by
    rw [hlive]
    simp only [Bool.false_eq_true, false_or]
    omega
  change execDacTrip t n s = _
  unfold execDacTrip
  simp only [ifUnit_of hn, hsince, if_neg hdue]
  rfl

theorem dacSenseOpen_eq {mv : Nat} (hn : n < 64) (hon : (s.dac n).enabled = true) (hlive : (s.dac n).tripped = false)
    (hremote : (s.dac n).senseNow = false) (hmv : 1200 < mv) :
    exec (.dacSenseOpen t n mv) s = .next ((((s.atCount t).setDac n { s.dac n with senseNow := true, senseOpen := true }).bump (uDac n) 3).log
      0x401 3 (dacIdx n) mv 0) := by
  rw [← atCount_dac s t]
  exact (ifUnit_of hn _).trans (congrArg _ (if_neg (by simp [hon, hlive, hremote, hmv])))

end

/-! ### The statement about events -/

/-- Settles O34: each row finds its channel as the rule asks, and then does what the rule says. -/
theorem dacEventsComplete : Obligations.DacEventsComplete := by
  refine ⟨?_, ?_, ?_, ?_, ?_, ?_, ?_, ?_, ?_, ?_, ?_, ?_, ?_, ?_⟩
  · exact fun s t n hn hcount hgrid hnew hup => dacUpdate_due hn hcount hgrid hnew hup
  · exact fun s t n hn hcount hup => slewTick_due hn hcount hup
  · exact fun s t n data valid hn hbus =>
      ⟨fun hfree => dacBusCapture_copies hn hbus hfree, fun hheld => dacBusCapture_held hn hheld⟩
  · exact fun s t n hn hnow hwrap => ddsWrap_due hn hnow hwrap
  · exact fun s t n hn hnow hmatch => ddsMatch_due hn hnow hmatch
  · exact fun s t n r hn hup hr => dacPowerupRange_stored hn hup hr
  · intro s t n r hn hup hnone hr
    subst hr
    exact dacPowerupRange_defaults hn hup hnone
  · exact fun s t n hn hup => dacPowerupEnable_starts hn hup
  · exact fun s t => dacSupplyLoss_eq s t
  · exact fun s t n r hn hrc hphase hsince => rangeSwitch_due hn hrc hphase hsince
  · intro s t n u hn hon hlive honset hu
    refine ⟨fun hfirst => ?_, fun hagain => ?_⟩
    · rw [dacShort_eq hn hon hlive honset hu, hfirst]
      rfl
    · rw [dacShort_eq hn hon hlive honset hu, if_pos hagain]
  · exact fun s t n hn => shortLimitReleased_eq hn
  · intro s t n from_ d hn hsince hlive hdwell hlong hsettled hchanging
    have hd : d = (s.dac n).tripOff := by
      by_cases hrc : (s.dac n).rc = none
      · rw [hsettled hrc, tripOff_settled hrc]
      · rw [hchanging hrc, tripOff_changing hrc]
    rw [hd]
    exact dacTrip_due hn hsince hlive hdwell hlong
  · exact fun s t n mv hn hon hlive hremote hmv => dacSenseOpen_eq hn hon hlive hremote hmv

end Sys2Proof.Machine

/-! PROOFS. Calibration (08 R213-R227, R230-R234, R238; 12 R330): the statement of 08_calibration.md. -/

namespace Sys2Proof.Machine

/-! ### CAL_RUN (08 R230) -/

/-- The record `a` of a CAL_RUN names objects that exist and a buffer that may be used, and the controllers of its regions are ready. -/
structure CalRunJudged (s : State) (a : Bytes) : Prop where
  kind : byteAt a 0 ≤ 4
  index : fld a 2 2 < calCount (byteAt a 0)
  aligned : fld a 8 8 % 8 = 0
  buffer : bit (byteAt a 1) 2 = true → s.bufOk (fld a 8 8) (32 * (s.calTargets (byteAt a 0) (fld a 2 2)).length) = true
  ready : ∀ r ∈ calRegions (byteAt a 0) (fld a 2 2), (s.region r).failed = false ∧ (s.region r).ready = true

theorem CalRunJudged.inRange {s : State} {a : Bytes} (h : CalRunJudged s a) : ¬ (4 < byteAt a 0 ∨ calCount (byteAt a 0) ≤ fld a 2 2) := by
  have hkind := h.kind
  have hindex := h.index
  omega

theorem CalRunJudged.bufferOk {s : State} {a : Bytes} (h : CalRunJudged s a) : ¬ (fld a 8 8 % 8 ≠ 0 ∨
    (bit (byteAt a 1) 2 = true ∧ (!s.bufOk (fld a 8 8) (32 * (s.calTargets (byteAt a 0) (fld a 2 2)).length)) = true)) := by
  rintro (hmis | ⟨hreport, hno⟩)
  · exact hmis h.aligned
  · simp [h.buffer hreport] at hno

/-- An index within the numbers of its kind names a converter that exists. -/
theorem not_noConverter_of_lt_calCount {a : Bytes} (h : fld a 2 2 < calCount (byteAt a 0)) : ¬ (byteAt a 0 = 1 ∧ noConverter (fld a 2 2) = true) := by
  rintro ⟨hconv, hno⟩
  rw [hconv] at h
  have hlt : fld a 2 2 < 192 := h
  simp only [noConverter, Bool.and_eq_true, decide_eq_true_eq] at hno
  omega

/-- The objects that a CAL_RUN with record `a` runs. -/
def State.calAsked (s : State) (a : Bytes) : List (Nat × Nat) := s.calRunsOf (s.calTargets (byteAt a 0) (fld a 2 2))

/-- Does a CAL_RUN with record `a` run the external reference procedure too? -/
def State.refAsked (s : State) (a : Bytes) : Bool := bit (byteAt a 1) 0 && decide (s.cal.ref.declared ≠ 0)

/-- The objects of a CAL_RUN with record `a` are due, and its command waits for them, and for the procedure where it is asked for. -/
def State.calAllDue (s : State) (slot : Nat) (a : Bytes) : State :=
  (s.calAsked a).foldl (fun s e => s.makeDue e.1 e.2 (s.objTemp e.1 e.2) 0 [slot])
    (s.setWork slot (.cal ((s.calAsked a).length + b2n (s.refAsked a)) 0 0 false))

theorem calRun_nothing_iff (l : List (Nat × Nat)) (ext : Bool) : l.length + b2n ext = 0 ↔ l = [] ∧ ext = false := by
  cases ext <;> simp [b2n]

theorem bodyCalRun_eq {s : State} {cmd : Instr} {slot : Nat} {a : Bytes} (h : CalRunJudged s a) :
    bodyCalRun cmd slot a s =
      if (s.calAsked a).length + b2n (s.refAsked a) = 0 then (s.reportCals slot).final slot stOK 0 0
      else if s.refAsked a = true then (s.calAllDue slot a).startRef (List.range 8) [slot] (bit (byteAt a 1) 1) else s.calAllDue slot a :=
  (if_neg h.inRange).trans ((if_neg h.bufferOk).trans (onRegions_ready h.ready))

/-! ### CAL_POLICY and CAL_REF_EXTERNAL (08 R231, R232, R238) -/

theorem keepWrite_free {s : State} (h : s.keepLocked = false) (f : Keep → Keep) : s.keepWrite f = { s with keep := f s.keep } :=
  if_neg (by simp [h])

theorem keepWrite_locked {s : State} (h : s.keepLocked = true) (f : Keep → Keep) : s.keepWrite f = s.logLocked := if_pos h

@[simp] theorem admitted_keepLocked (s : State) (d : Desc) (slot : Nat) (a : Bytes) : (s.admitted d slot a).keepLocked = s.keepLocked := by
  simp [State.keepLocked]

/-- The policy that the record `a` of a CAL_POLICY gives. -/
def policyAsked (a : Bytes) : CalPolicy :=
  { blind := bit (byteAt a 1) 0, store := bit (byteAt a 1) 1, trigger := fld a 2 2, offLimit := fld a 4 2, gainLimit := fld a 6 2,
    window := fld a 8 2, interval := fld a 10 4 }

/-- The policy in force is `p`. -/
def State.withPolicy (s : State) (p : CalPolicy) : State := { s with cal := { s.cal with policy := p } }

/-- The limits of a policy that 08 R231 allows. -/
structure CalPolicy.Fits (p : CalPolicy) : Prop where
  trigger : 50 ≤ p.trigger ∧ p.trigger ≤ 2000
  offLimit : 1 ≤ p.offLimit ∧ p.offLimit ≤ 1000
  gainLimit : 1 ≤ p.gainLimit ∧ p.gainLimit ≤ 10000
  window : 1 ≤ p.window ∧ p.window ≤ 600
  interval : p.interval ≤ 86400

theorem CalPolicy.Fits.inRange {p : CalPolicy} (h : p.Fits) : ¬ (p.trigger < 50 ∨ 2000 < p.trigger ∨ p.offLimit = 0 ∨ 1000 < p.offLimit ∨
    p.gainLimit = 0 ∨ 10000 < p.gainLimit ∨ p.window = 0 ∨ 600 < p.window ∨ 86400 < p.interval) := by
  obtain ⟨htrigger, hoff, hgain, hwindow, hinterval⟩ := h
  omega

theorem bodyCalPolicy_limits {s : State} {slot : Nat} {a : Bytes} (hkind : byteAt a 0 = 0) (h : (policyAsked a).Fits) :
    bodyCalPolicy slot a s = (if bit (byteAt a 1) 2 = true then
      (s.withPolicy (policyAsked a)).keepWrite fun k => { k with policyRec := some ((policyAsked a).bytes true) }
      else s.withPolicy (policyAsked a)).final slot stOK 0 0 :=
  (if_pos hkind).trans (if_neg h.inRange)

theorem bodyCalPolicy_means {s : State} {slot : Nat} {a : Bytes} {g : Graph} (hkind : byteAt a 0 = 1)
    (hg : s.graph (fld a 2 2 % 4096) = some g) :
    bodyCalPolicy slot a s = (s.setGraph (fld a 2 2 % 4096) (some { g with zeroMean := slice a 16 32 })).final slot stOK 0 0 := by
  unfold bodyCalPolicy
  simp only [hkind, hg]
  rfl

/-- The reference that the record `a` of a CAL_REF_EXTERNAL declares, where `r` was declared before. -/
def RefRec.redeclared (r : RefRec) (a : Bytes) : RefRec :=
  { r with declared := fld a 0 4, tol := fld a 4 2, atStart := bit (byteAt a 6) 0, inRecovery := bit (byteAt a 6) 1 }

/-- The reference is `r`. -/
def State.withRef (s : State) (r : RefRec) : State := { s with cal := { s.cal with ref := r } }

/-- The reference of record `a` is declared, and stored where the record asks for it. -/
def State.declareRef (s : State) (a : Bytes) : State :=
  if bit (byteAt a 6) 3 then
    (s.withRef (s.cal.ref.redeclared a)).keepWrite fun k => { k with refRec := some (s.cal.ref.redeclared a).bytes }
  else s.withRef (s.cal.ref.redeclared a)

theorem declareRef_unstored {s : State} {a : Bytes} (h : bit (byteAt a 6) 3 = false) :
    s.declareRef a = s.withRef (s.cal.ref.redeclared a) := if_neg (by simp [h])

theorem declareRef_stored {s : State} {a : Bytes} (h : bit (byteAt a 6) 3 = true) (hfree : s.keepLocked = false) :
    s.declareRef a = { s.withRef (s.cal.ref.redeclared a) with keep := { s.keep with refRec := some (s.cal.ref.redeclared a).bytes } } :=
  (if_pos h).trans (keepWrite_free (s := s.withRef (s.cal.ref.redeclared a)) hfree _)

theorem declareRef_locked {s : State} {a : Bytes} (h : bit (byteAt a 6) 3 = true) (hlock : s.keepLocked = true) :
    s.declareRef a = (s.withRef (s.cal.ref.redeclared a)).logLocked :=
  (if_pos h).trans (keepWrite_locked (s := s.withRef (s.cal.ref.redeclared a)) hlock _)

theorem bodyCalRef_eq {s : State} {slot : Nat} {a : Bytes} (hlow : 100000000 ≤ fld a 0 4) (hhigh : fld a 0 4 ≤ 400000000)
    (htol : 1 ≤ fld a 4 2) (htol2 : fld a 4 2 ≤ 10000) :
    bodyCalRef slot a s =
      if bit (byteAt a 6) 2 = true then ((s.declareRef a).setWork slot .refcal).startRef (List.range 8) [slot] (bit (byteAt a 6) 3)
      else (s.declareRef a).final slot stOK (ofI 64 s.cal.ref.scale) 0 :=
  if_neg (by omega)

/-! ### A run begins (08 R219) -/

/-- The due object `e`, number `idx` of its kind, may start its run in region `r`, and no other one there comes before it. -/
structure RunDue (s : State) (r kind idx : Nat) (e : CalDue) : Prop where
  found : s.cal.due.find? (fun x => x.kind == kind && x.idx == idx) = some e
  region : objRegion kind idx = r
  ready : s.runReady e = true
  first : kind ≠ 2 → ∀ x ∈ s.cal.due, x.kind = kind → x.idx ≠ idx → objRegion x.kind x.idx = r → s.runReady x = true → s.dueBefore x e = false

/-- The run of a due object is in progress, with the limits of the policy in force. -/
def State.runBegun (s : State) (kind idx : Nat) (e : CalDue) : State :=
  { s with cal := { s.cal with
      due := s.cal.due.filter fun x => decide (x ≠ e)
      runs := s.cal.runs ++ [{ kind := kind, idx := idx, start := s.now, temp := e.temp, cmds := e.cmds, offLimit := s.cal.policy.offLimit,
                               gainLimit := s.cal.policy.gainLimit, window := s.cal.policy.window }] } }

/-- What a run takes as it begins: a converter's companion loop, the count of a channel's readings. -/
def State.runTakes (s : State) (kind idx : Nat) : State :=
  match kind with
  | 0 => s
  | 1 => (s.yieldConv idx 4).setConv idx { (s.yieldConv idx 4).conv idx with comp := 2 }
  | _ => s.setDac idx { s.dac idx with readings := 0, readLow := 0, readHigh := 0 }

theorem RunDue.go {s : State} {r kind idx : Nat} {e : CalDue} (h : RunDue s r kind idx e) :
    ¬ (objRegion kind idx ≠ r ∨ (!s.runReady e) = true ∨ (kind ≠ 2 ∧ ((s.cal.due.filter fun x => decide (x.kind = kind) && decide (x.idx ≠ idx) &&
      decide (objRegion x.kind x.idx = r) && s.runReady x).any fun x => s.dueBefore x e) = true)) := by
  rintro (hregion | hready | ⟨hkind, hrival⟩)
  · exact hregion h.region
  · simp [h.ready] at hready
  · obtain ⟨x, hx, hbefore⟩ := List.any_eq_true.1 hrival
    obtain ⟨hmem, hx⟩ := List.mem_filter.1 hx
    simp only [Bool.and_eq_true, decide_eq_true_eq] at hx
    obtain ⟨⟨⟨hk, hi⟩, hr⟩, hrun⟩ := hx
    simp [h.first hkind x hmem hk hi hr hrun] at hbefore

theorem calibrationRunStart_eq {s : State} {t r kind idx0 : Nat} {e : CalDue} (h : RunDue (s.at t) r kind ((s.at t).calLeader kind idx0) e) :
    exec (.calibrationRunStart t r kind idx0) s =
      .next (((s.at t).runBegun kind ((s.at t).calLeader kind idx0) e).runTakes kind ((s.at t).calLeader kind idx0)) := by
  change execCalibrationRunStart t r kind idx0 s = _
  unfold execCalibrationRunStart
  simp only [h.found, if_neg h.go]
  rfl

/-! ### A run ends (08 R213, R217, R220-R225) -/

/-- The run `e` of object `idx` of its kind has made its measurements, and its region's controller ends it. -/
structure RunOver (s : State) (kind idx : Nat) (e : CalRun) (res : CalResult) : Prop where
  found : s.cal.runs.find? (fun x => x.kind == kind && x.idx == idx) = some e
  ctrl : s.ctrlOk (objRegion kind idx) = true
  repairs : s.repairsIn (objRegion kind idx) = false
  readings : kind = 2 → res.fail = 0 → 64 ≤ (s.dac idx).readings
  windows : e.start + s.runWindows e ≤ s.now

theorem RunOver.go {s : State} {kind idx : Nat} {e : CalRun} {res : CalResult} (h : RunOver s kind idx e res) :
    ¬ ((!s.ctrlOk (objRegion kind idx)) = true ∨ s.repairsIn (objRegion kind idx) = true ∨
      (kind = 2 ∧ res.fail = 0 ∧ (s.dac idx).readings < 64) ∨ s.now < e.start + s.runWindows e) := by
  rintro (hctrl | hrepair | ⟨hkind, hfail, hfew⟩ | hsoon)
  · simp [h.ctrl] at hctrl
  · simp [h.repairs] at hrepair
  · exact absurd (h.readings hkind hfail) (Nat.not_le.2 hfew)
  · exact absurd h.windows (Nat.not_le.2 hsoon)

/-- The run `e` is no longer in progress. -/
def State.withoutRun (s : State) (e : CalRun) : State := { s with cal := { s.cal with runs := s.cal.runs.filter fun x => decide (x ≠ e) } }

/-- The run `e` is over: a converter's companion loop is free again. -/
def State.runGone (s : State) (kind idx : Nat) (e : CalRun) : State :=
  if kind = 1 ∧ (s.conv idx).comp = 2 then (s.withoutRun e).setConv idx { s.conv idx with comp := 0 } else s.withoutRun e

/-- An object takes the plausible result of its run, by its kind. -/
def State.takeResult (s : State) (kind : Nat) (e : CalRun) (res : CalResult) : State :=
  match kind with
  | 0 => s.cellResult e res
  | 1 => s.convResult e res
  | _ => s.dacResult e res

/-- A plausible result is taken and counted. -/
def State.resultCounted (s : State) (kind idx : Nat) (e : CalRun) (res : CalResult) : State :=
  ((s.takeResult kind e res).setDueFlag kind idx false).bump (uRg (objRegion kind idx)) 4

/-- The result of an object's run is stored at once where one of the commands `cmds` asks for it (08 R230). -/
def State.storeAsked (s : State) (kind idx : Nat) (cmds : List Nat) : State :=
  if s.storeNow cmds then (if kind = 0 then (s.calGroup idx).foldl (fun s n => s.storeResult 0 n) s else s.storeResult kind idx) else s

theorem storeAsked_eq {s x : State} {kind idx : Nat} {cmds : List Nat} (hno : s.storeNow cmds = false → x = s)
    (hcell : s.storeNow cmds = true → kind = 0 → x = (s.calGroup idx).foldl (fun s n => s.storeResult 0 n) s)
    (hother : s.storeNow cmds = true → kind ≠ 0 → x = s.storeResult kind idx) : x = s.storeAsked kind idx cmds := by
  unfold State.storeAsked
  split
  next hnow =>
    split
    next hk => exact hcell hnow hk
    next hk => exact hother hnow hk
  next hnot => exact hno (by simpa using hnot)

/-- A run with a plausible result is complete: for each command that waits for it one run more is done. -/
def State.runCompleted (s : State) (kind idx : Nat) (e : CalRun) (res : CalResult) : State :=
  e.cmds.foldl (fun s c => s.calEnded c 1 0) ((s.resultCounted kind idx e res).storeAsked kind idx e.cmds)

theorem calibrationRunEnd_eq {s : State} {t kind idx0 : Nat} {e : CalRun} {res : CalResult}
    (h : RunOver (s.at t) kind ((s.at t).calLeader kind idx0) e res) :
    exec (.calibrationRunEnd t kind idx0 res) s = .next (State.pumpRef (
      if 0 < (s.at t).runFails e res.fail then
        ((s.at t).runGone kind ((s.at t).calLeader kind idx0) e).runFailed e ((s.at t).runFails e res.fail) res
      else if e.offLimit * 100 < res.offStep.natAbs ∨ e.gainLimit * 100 < res.gainStep.natAbs then
        ((s.at t).runGone kind ((s.at t).calLeader kind idx0) e).runFailed e 0 res
      else ((s.at t).runGone kind ((s.at t).calLeader kind idx0) e).runCompleted kind ((s.at t).calLeader kind idx0) e res)) := by
  change execCalibrationRunEnd t kind idx0 res s = _
  unfold execCalibrationRunEnd
  simp only [h.found, if_neg h.go]
  rfl

theorem runGone_other {s : State} {kind idx : Nat} {e : CalRun} (h : kind ≠ 1) : s.runGone kind idx e = s.withoutRun e :=
  if_neg fun hc => h hc.1

theorem runGone_conv {s : State} {kind idx : Nat} {e : CalRun} (h : kind = 1) (hcomp : (s.conv idx).comp = 2) :
    s.runGone kind idx e = (s.withoutRun e).setConv idx { s.conv idx with comp := 0 } := if_pos ⟨h, hcomp⟩

/-! ### CAL_INTERVAL_DUE (08 R218) -/

theorem calIntervalDue_eq {s : State} {t kind idx : Nat} (hi : (s.at t).cal.policy.interval ≠ 0) (hd : (s.at t).dueKind kind idx = true)
    (hc : (s.at t).ctrlOk (objRegion kind idx) = true)
    (hlong : ((s.at t).lastRun kind idx).getD 0 + (s.at t).cal.policy.interval * 250000000 ≤ (s.at t).now) :
    exec (.calIntervalDue t kind idx) s = .next ((s.at t).makeDue kind idx ((s.at t).objTemp kind idx) 0 []) :=
  if_neg (by simp only [hi, hd, hc, Bool.not_true, Bool.false_eq_true, false_or]; omega)

/-! ### What the end of the external reference procedure leaves as it was (08 R226, R227) -/

theorem reportCals_quiet (s : State) (slot : Nat) : Quiet s (s.reportCals slot) := Quiet.ite (hostWrite_quiet ..) (.refl s)

theorem calEnded_quiet (s : State) (slot done failed : Nat) : Quiet s (s.calEnded slot done failed) := by
  unfold State.calEnded
  split
  · exact Quiet.ite ((reportCals_quiet ..).trans (final_quiet ..)) (setWork_quiet ..)
  · exact .refl s

/-- A fold each of whose rounds leaves `g` as it was leaves it so. -/
theorem foldl_frame {α β : Type} {f : State → α → State} (g : State → β) (h : ∀ s x, g (f s x) = g s) (l : List α) (s : State) :
    g (l.foldl f s) = g s :=
  (List.foldl_hom g (g₂ := fun b _ => b) fun s x => (h s x).symm).symm.trans (List.foldl_fixed l)

theorem logLocked_ref (s : State) : s.logLocked.cal.ref = s.cal.ref := by
  unfold State.logLocked
  split
  · rfl
  · rw [log_cal]

theorem storeRef_ref (s : State) : s.storeRef.cal.ref = s.cal.ref := by
  unfold State.storeRef State.keepWrite
  split
  · rfl
  · split
    · exact logLocked_ref s
    · rfl

/-- The companion loops that the procedure has taken in regions `rs` are free again. -/
def State.loopsFreed (s : State) (rs : List Nat) : State := rs.foldl (fun s r => s.setConv (8 * r) { s.conv (8 * r) with comp := 0 }) s

theorem loopsFreed_cal (s : State) (rs : List Nat) : (s.loopsFreed rs).cal = s.cal := by
  refine foldl_frame State.cal ?_ rs s
  exact fun _ _ => rfl

/-- Freeing the loops changes the converters, and by the converters alone. -/
theorem loopsFreed_convs {s u : State} (h : u.convs = s.convs) (rs : List Nat) : (u.loopsFreed rs).convs = (s.loopsFreed rs).convs := by
  have hom (s : State) : (s.loopsFreed rs).convs =
      rs.foldl (fun cs r => Tbl.set {} (8 * r) { Tbl.get {} (8 * r) cs with comp := 0 } cs) s.convs :=
    (List.foldl_hom State.convs fun _ _ => rfl).symm
  rw [hom, hom, h]

/-! ### REFCAL_MEASUREMENT (08 R226, R227, R232) -/

/-- Why the measurement of a region fails the procedure; 0 where it does not. -/
def State.refAnswer (s : State) (e : Nat × RefRegion) : Nat := if (s.region e.1).failed then 4 else refFail s.cal.ref e.2

/-- The measurements that do not fail, by region. -/
def State.refGood (s : State) (ms : List (Nat × RefRegion)) : List (Nat × Nat) :=
  (ms.filter fun e => decide (s.refAnswer e = 0)).map fun e => (e.1, e.2.mean)

/-- The regions that the procedure keeps, and their scale factor. -/
def State.refResult (s : State) (ms : List (Nat × RefRegion)) : List (Nat × Nat) × Int := refScale s.cal.ref.declared (s.refGood ms)

/-- The measurements that fail, and then those that stand apart from the others, are logged. -/
def State.refLogged (s : State) (ms : List (Nat × RefRegion)) : State :=
  ((s.refGood ms).filter fun e => !(s.refResult ms).1.contains e).foldl (fun s e => s.log 0x30A 3 e.1 e.2 0)
    (ms.foldl (fun u e => if s.refAnswer e = 0 then u else u.log (0x305 + s.refAnswer e) 3 e.1 e.2.mean 0) s)

/-- The reference with a new scale factor. -/
def State.rescaled (s : State) (scale : Int) : RefRec := { s.cal.ref with scale := scale, valid := true, time := s.now }

/-- The scale factor of the regions kept is taken where it is within the limit, and stored where the procedure asks for it. -/
def State.refScaled (s : State) (p : RefProc) (ms : List (Nat × RefRegion)) : State :=
  let u := s.refLogged ms
  let scale := (s.refResult ms).2
  if (s.refResult ms).1.isEmpty then u
  else if !decide ((scale - s.cal.ref.scale).natAbs ≤ s.cal.policy.gainLimit * 100) then
    u.log 0x300 3 0 (2 ^ 63 + (scale - s.cal.ref.scale).natAbs) 0
  else if p.store then (u.withRef (s.rescaled scale)).storeRef
  else u.withRef (s.rescaled scale)

/-- The converters of the regions `ok` are marked as measured by the procedure. -/
def State.refMarked (s : State) (ok : List (Nat × Nat)) : State :=
  ok.foldl (fun s e => s.updStatus 1 (8 * e.1) fun c => { c with lastExternal := true }) s

theorem refMarked_cal (s : State) (ok : List (Nat × Nat)) : (s.refMarked ok).cal = s.cal := by
  refine foldl_frame State.cal ?_ ok s
  exact fun _ _ => rfl

/-- The procedure is over: its loops are free, and the converters of the regions `ok` are marked. -/
def State.refOver (s : State) (p : RefProc) (ok : List (Nat × Nat)) : State :=
  let u := (s.loopsFreed p.regions).refMarked ok
  { u with cal := { u.cal with procedure := none } }

/-- The commands that wait for the procedure are answered, with the regions that it kept. -/
def State.refReplied (s : State) (p : RefProc) (kept : List (Nat × Nat)) : State :=
  let excluded := p.regions.length - kept.length
  let st := if kept.isEmpty then stFAULT else if excluded = 0 then stOK else stDEGRADED
  p.cmds.foldl (fun s c => match (s.hnd c).work with
    | .refcal => s.final c st (ofI 64 s.cal.ref.scale) excluded
    | _ => s.calEnded c (b2n (!kept.isEmpty)) (b2n kept.isEmpty)) s

theorem pumpRef_taken {s : State} {p : RefProc} (hp : s.cal.procedure = some p) (h : ∀ r ∈ p.regions, (s.conv (8 * r)).comp = 3) :
    s.pumpRef = s := by
  unfold State.pumpRef
  rw [hp]
  dsimp only
  generalize p.regions = rs at h
  induction rs with
  | nil => rfl
  | cons r rs ih =>
    have hr := h r (by simp)
    rw [List.foldl_cons, if_neg (by simp [hr])]
    exact ih fun r hmem => h r (by simp [hmem])

theorem refcalMeasurement_eq {s : State} {t : Nat} {p : RefProc} {ms : List RefRegion} (hp : (s.at t).cal.procedure = some p)
    (h : ∀ r ∈ p.regions, ((s.at t).conv (8 * r)).comp = 3) (hlen : ms.length = p.regions.length) :
    exec (.refcalMeasurement t ms) s = .next ((((s.at t).refScaled p (p.regions.zip ms)).refOver p ((s.at t).refGood (p.regions.zip ms))).refReplied
      p ((s.at t).refResult (p.regions.zip ms)).1) := by
  have hgo : ¬ (ms.length ≠ p.regions.length ∨ (p.regions.any fun r => decide (((s.at t).conv (8 * r)).comp ≠ 3)) = true) := by
    simpa [hlen] using h
  change execRefcalMeasurement t ms s = _
  unfold execRefcalMeasurement
  rw [pumpRef_taken hp h]
  simp only [hp, if_neg hgo]
  rfl

theorem refLogged_quiet (s : State) (ms : List (Nat × RefRegion)) : Quiet s (s.refLogged ms) :=
  (Quiet.foldl s fun u _ => .ite (.refl u) (log_quiet ..)).trans (Quiet.foldl _ fun _ _ => log_quiet ..)

theorem refReplied_quiet (s : State) (p : RefProc) (kept : List (Nat × Nat)) : Quiet s (s.refReplied p kept) := by
  refine Quiet.foldl s fun s c => ?_
  split
  · exact final_quiet ..
  · exact calEnded_quiet ..

theorem refOver_cal (s : State) (p : RefProc) (ok : List (Nat × Nat)) : (s.refOver p ok).cal = { s.cal with procedure := none } := by
  unfold State.refOver
  dsimp only
  rw [refMarked_cal, loopsFreed_cal]

theorem refScaled_none {s : State} {p : RefProc} {ms : List (Nat × RefRegion)} (h : s.refGood ms = []) : s.refScaled p ms = s.refLogged ms := by
  have hres : (s.refResult ms).1 = [] := by
    unfold State.refResult
    rw [h]
    rfl
  unfold State.refScaled
  simp [hres]

theorem refScaled_ref {s : State} {p : RefProc} {ms : List (Nat × RefRegion)} (hne : (s.refResult ms).1 ≠ [])
    (hfits : ((s.refResult ms).2 - s.cal.ref.scale).natAbs ≤ s.cal.policy.gainLimit * 100) :
    (s.refScaled p ms).cal.ref = s.rescaled (s.refResult ms).2 := by
  unfold State.refScaled
  simp only [List.isEmpty_iff, hne, hfits, decide_true, Bool.not_true, Bool.false_eq_true, if_false]
  split
  · exact storeRef_ref _
  · rfl

/-- Where every measurement times out, none is good. -/
theorem refGood_timeouts {s : State} {rs : List Nat} {ms : List RefRegion} (h : ∀ m ∈ ms, m.fail = 4) : s.refGood (rs.zip ms) = [] := by
  have hnone : (rs.zip ms).filter (fun e => decide (s.refAnswer e = 0)) = [] := by
    refine List.filter_eq_nil_iff.2 fun e he => ?_
    have hfour : e.2.fail = 4 := h e.2 (List.of_mem_zip he).2
    simp [State.refAnswer, refFail, hfour]
  unfold State.refGood
  rw [hnone]
  rfl

theorem refGood_single {s : State} {r : Nat} {m : RefRegion} (hf : (s.region r).failed = false) (h : refFail s.cal.ref m = 0) :
    s.refGood [(r, m)] = [(r, m.mean)] := by
  simp [State.refGood, State.refAnswer, hf, h]

theorem median2_single (x : Int) : median2 [x] = 2 * x := by
  simp [median2, insertI, Int.two_mul]

/-- A region alone agrees with itself. -/
theorem refScale_single (declared r m : Nat) : (refScale declared [(r, m)]).1 = [(r, m)] := by
  simp [refScale, median2_single]

/-! ### KEEP_STORE_WRITE (08 R234-R238) -/

/-- The Keep store takes a record of kind `kind` and number `n` now: start-up has read it, the management core runs, no alarm locks it, and
the record's last write is 60 s old. -/
structure KeepDue (s : State) (kind n : Nat) : Prop where
  started : 5 ≤ s.time.step
  restarting : s.chip.restarting = false
  failed : s.chip.failed = false
  unlocked : s.keepLocked = false
  old : Tbl.get 0 (keepKey kind n) s.cal.lastWrite = 0 ∨ Tbl.get 0 (keepKey kind n) s.cal.lastWrite + 15000000000 ≤ s.now

theorem KeepDue.go {s : State} {kind n : Nat} (h : KeepDue s kind n) :
    ¬ ((decide (Tbl.get 0 (keepKey kind n) s.cal.lastWrite ≠ 0) &&
      decide (s.now < Tbl.get 0 (keepKey kind n) s.cal.lastWrite + 15000000000)) = true ∨
      s.chip.restarting = true ∨ s.chip.failed = true ∨ s.time.step < 5) := by
  obtain ⟨hstarted, hrestarting, hfailed, -, hold⟩ := h
  simp only [hrestarting, hfailed, Bool.and_eq_true, decide_eq_true_eq, Bool.false_eq_true, false_or]
  omega

/-- The Keep store is `k` now, and the time of the record's write is noted. -/
def State.keepNoted (s : State) (kind n : Nat) (k : Keep) : State :=
  { s with keep := k, cal := { s.cal with lastWrite := Tbl.set 0 (keepKey kind n) s.now s.cal.lastWrite } }

/-- The calibration record of an object as it should be stored. -/
def State.calRecord (s : State) (kind n : Nat) : Bytes :=
  match kind with
  | 0 => s.cellKeep n
  | 1 => s.convKeep n
  | _ => s.dacKeep n

/-- The Keep store with the calibration record of an object as it should be. -/
def State.keepWithCal (s : State) (kind n : Nat) : Keep :=
  match kind with
  | 0 => { s.keep with cells := Tbl.set none n (some (s.cellKeep n)) s.keep.cells }
  | 1 => if isWM n then { s.keep with wms := Tbl.set none (n - 64) (some (s.convKeep n)) s.keep.wms }
         else { s.keep with pms := Tbl.set none n (some (s.convKeep n)) s.keep.pms }
  | _ => { s.keep with dacCals := Tbl.set none n (some (s.dacKeep n)) s.keep.dacCals }

theorem keepWithCal_precision {s : State} {n : Nat} (h : n < 64) :
    s.keepWithCal 1 n = { s.keep with pms := Tbl.set none n (some (s.convKeep n)) s.keep.pms } := if_neg (by simp [isWM, h])

theorem keepWithCal_wideband {s : State} {n : Nat} (h : 64 ≤ n) :
    s.keepWithCal 1 n = { s.keep with wms := Tbl.set none (n - 64) (some (s.convKeep n)) s.keep.wms } := if_pos (by simp [isWM, h])

theorem storeCal_free {s : State} {kind n : Nat} (h : s.keepLocked = false) : s.storeCal kind n = s.keepNoted kind n (s.keepWithCal kind n) := by
  unfold State.storeCal
  rw [keepWrite_free h, h]
  rfl

/-- An object of kind 0 to 2 has run, and its stored record differs from what it should be. -/
structure CalChanged (s : State) (kind n : Nat) : Prop where
  kindOk : kind ≤ 2
  unit : n < calCount kind
  store : s.cal.policy.store = true
  ran : (s.lastRun kind n).isSome = true
  changed : s.storedCal kind n ≠ some (s.calRecord kind n)

theorem CalChanged.go {s : State} {kind n : Nat} {ran : Bool} (h : CalChanged s kind n) (hran : ran = true) :
    ¬ ((!s.cal.policy.store) = true ∨ (!ran) = true ∨ s.storedCal kind n = some (s.calRecord kind n)) := by
  simp [h.store, hran, h.changed]

theorem keepStoreWrite_object {s : State} {t kind n : Nat} (h : KeepDue (s.at t) kind n) (hc : CalChanged (s.at t) kind n) :
    exec (.keepStoreWrite t kind n) s = .next ((s.at t).keepNoted kind n ((s.at t).keepWithCal kind n)) := by
  rw [← storeCal_free h.unlocked]
  refine (if_neg h.go).trans ?_
  match kind, hc.kindOk with
  | 0, _ => exact if_neg (hc.go (Bool.and_eq_true_iff.2 ⟨hc.ran, decide_eq_true hc.unit⟩))
  | 1, _ => exact if_neg (hc.go (Bool.and_eq_true_iff.2 ⟨hc.ran, decide_eq_true hc.unit⟩))
  | 2, _ => exact if_neg (hc.go (Bool.and_eq_true_iff.2 ⟨Bool.and_eq_true_iff.2 ⟨hc.ran, decide_eq_true hc.unit⟩, rfl⟩))

theorem keepStoreWrite_health {s : State} {t n : Nat} (h : KeepDue (s.at t) 3 n) (hn : n < 65536)
    (hnew : ∃ e ∈ [2 * n, 2 * n + 1], Tbl.get (255, false) e (s.at t).keep.health ≠ (s.at t).healthNow e) :
    exec (.keepStoreWrite t 3 n) s = .next ((s.at t).keepNoted 3 n { (s.at t).keep with
      health := [2 * n, 2 * n + 1].foldl (fun h e => Tbl.set (255, false) e ((s.at t).healthNow e) h) (s.at t).keep.health }) := by
  have hgo : ¬ (65536 ≤ n ∨ (!([2 * n, 2 * n + 1].any fun e => decide (Tbl.get (255, false) e (s.at t).keep.health ≠ (s.at t).healthNow e))) =
      true) := by
    rintro (hlarge | hsame)
    · omega
    · rw [List.any_eq_true.2 (by simpa only [decide_eq_true_eq] using hnew)] at hsame
      exact nomatch hsame
  exact (if_neg h.go).trans ((if_neg hgo).trans (if_neg (by simp [h.unlocked])))

theorem keepStoreWrite_stale {s : State} {t n : Nat} {b : Bytes} (h : KeepDue (s.at t) 4 n) (hb : (s.at t).staleRec n = some b) :
    exec (.keepStoreWrite t 4 n) s =
      .next ((s.at t).keepNoted 4 n { (s.at t).keep with sysSets := Tbl.set none n (some b) (s.at t).keep.sysSets }) := by
  refine (if_neg h.go).trans ?_
  dsimp only
  unfold State.storeSys
  rw [hb, h.unlocked]
  rfl

/-! ### The statement -/

/-- Settles O29: each command is admitted, and its body runs past the checks that its record meets (`CalRunJudged`, `CalPolicy.Fits`); a
run's start and end find it as the rule asks (`RunDue`, `RunOver`); what the end of the external procedure leaves as it was rests on `Quiet`;
and the Keep store takes a record that is due (`KeepDue`). -/
theorem calibrationComplete : Obligations.CalibrationComplete := by
  refine ⟨?_, ?_, ?_, ?_, ?_, ?_, ?_, ?_, ?_, ?_, ?_⟩
  · intro s d slot a objs ext u hadm hbad hkind hindex halign hbuf hready hobjs hext
    have hrun : exec (.calRun d) s = .next (bodyCalRun (.calRun d) slot a (s.admitted d slot a)) :=
      command_admitted hadm rfl hbad (if_neg (not_noConverter_of_lt_calCount hindex))
    have h : CalRunJudged (s.admitted d slot a) a := ⟨hkind, hindex, halign, hbuf, by simpa using hready⟩
    rw [← admitted_cal s d slot a] at hext
    generalize s.admitted d slot a = w at *
    obtain rfl : objs = w.calAsked a := hobjs
    obtain rfl : ext = w.refAsked a := hext
    rw [hrun, bodyCalRun_eq h]
    simp only [calRun_nothing_iff]
    refine ⟨fun hnone hno => congrArg _ (if_pos ⟨hnone, hno⟩), fun hu => ?_⟩
    obtain rfl : u = w.calAllDue slot a := hu
    refine ⟨fun hsome hno => ?_, fun hyes => ?_⟩
    · rw [if_neg fun hnothing => hsome hnothing.1, if_neg (by simp [hno])]
    · rw [if_neg (by simp [hyes]), if_pos hyes]
  · intro s d slot a p u hadm hkind hbad htrigger htrigger2 hoff hoff2 hgain hgain2 hwindow hwindow2 hinterval hp hu
    have hrun : exec (.calPolicy d) s = .next (bodyCalPolicy slot a (s.admitted d slot a)) :=
      command_admitted hadm rfl (by simp [hkind, hbad]) (by simp [hkind])
    have hfits : (policyAsked a).Fits := ⟨⟨htrigger, htrigger2⟩, ⟨hoff, hoff2⟩, ⟨hgain, hgain2⟩, ⟨hwindow, hwindow2⟩, hinterval⟩
    have hlock : ((s.admitted d slot a).withPolicy (policyAsked a)).keepLocked = s.keepLocked := admitted_keepLocked ..
    rw [← admitted_cal s d slot a] at hu
    subst hp
    obtain rfl : u = (s.admitted d slot a).withPolicy (policyAsked a) := hu
    rw [hrun, bodyCalPolicy_limits hkind hfits, ← hlock, ← admitted_keep s d slot a]
    refine ⟨fun hno => ?_, fun hstore hfree => ?_, fun hstore hlocked => ?_⟩
    · rw [if_neg (by simp [hno])]
    · rw [if_pos hstore, keepWrite_free hfree]
      rfl
    · rw [if_pos hstore, keepWrite_locked hlocked]
  · intro s d slot a g hadm hkind hbad hname hg
    have hrun : exec (.calPolicy d) s = .next (bodyCalPolicy slot a (s.admitted d slot a)) :=
      command_admitted hadm rfl (by simp [hkind, hbad]) (by simp [hkind, hname])
    rw [hrun, bodyCalPolicy_means hkind (by rwa [admitted_graph])]
  · intro s d slot a r u v hadm hbad hlow hhigh htol htol2 hr hu hkeep hstore hlocked
    have hrun : exec (.calRefExternal d) s = .next (bodyCalRef slot a (s.admitted d slot a)) := command_admitted hadm rfl hbad rfl
    have hlock := admitted_keepLocked s d slot a
    rw [← admitted_cal s d slot a] at hr hu ⊢
    rw [← admitted_keep s d slot a, ← hlock] at hstore
    rw [← hlock] at hlocked
    generalize s.admitted d slot a = w at *
    obtain rfl : r = w.cal.ref.redeclared a := hr
    obtain rfl : u = w.withRef (w.cal.ref.redeclared a) := hu
    have hv : v = w.declareRef a := by
      cases hbit : bit (byteAt a 6) 3 with
      | false => rw [declareRef_unstored hbit, hkeep hbit]
      | true =>
        cases hl : w.keepLocked with
        | false => rw [declareRef_stored hbit hl, hstore hbit hl]
        | true => rw [declareRef_locked hbit hl, hlocked hbit hl]
    subst hv
    rw [hrun, bodyCalRef_eq hlow hhigh htol htol2]
    exact ⟨fun hno => congrArg _ (if_neg (by simp [hno])), fun hyes => congrArg _ (if_pos hyes)⟩
  · intro s t r kind idx0 idx e u hidx hfound hregion hready hfirst hu
    subst hidx
    rw [← at_cal s t] at hfound hfirst hu
    obtain rfl : u = (s.at t).runBegun kind ((s.at t).calLeader kind idx0) e := hu
    rw [calibrationRunStart_eq ⟨hfound, hregion, hready, hfirst⟩, ← at_dac s t]
    refine ⟨fun hkind => ?_, fun hkind => ?_, fun hkind => ?_⟩ <;> subst hkind <;> rfl
  · intro s t kind idx0 idx e res u hidx hfound hkind hctrl hrepair hread hwindows hcomp hother hconv
    subst hidx
    rw [← at_cal s t] at hfound hother hconv
    rw [← at_dac s t] at hread
    rw [← at_conv s t] at hcomp hconv
    rw [calibrationRunEnd_eq ⟨hfound, hctrl, hrepair, hread, hwindows⟩]
    generalize s.at t = w at *
    generalize w.calLeader kind idx0 = idx at *
    have hu : u = w.runGone kind idx e := by
      by_cases hk : kind = 1
      · rw [runGone_conv hk (hcomp hk)]
        exact hconv hk
      · rw [runGone_other hk]
        exact hother hk
    clear hother hconv
    subst hu
    refine ⟨fun hfail hoff hgain v x y hv0 hv1 hv2 hx hy hy0 hy1 => ?_, fun hfail hout => ?_, fun hfail => ?_⟩
    · rw [if_neg (by omega), if_neg (by omega)]
      have hv : v = (w.runGone kind idx e).takeResult kind e res := by
        match kind, hkind with
        | 0, _ => exact hv0 rfl
        | 1, _ => exact hv1 rfl
        | 2, _ => exact hv2 rfl
      subst hv
      obtain rfl : x = (w.runGone kind idx e).resultCounted kind idx e res := hx
      have hy : y = State.storeAsked _ kind idx e.cmds := storeAsked_eq hy hy0 hy1
      rw [hy]
      rfl
    · rw [if_neg (by omega), if_pos hout]
    · rw [if_pos hfail]
  · intro s t kind idx
    rw [← at_cal s t]
    rfl
  · intro s t kind idx hi hd hc hlong
    rw [← at_cal s t] at hi hlong
    exact calIntervalDue_eq hi hd hc hlong
  · intro s t p ms hp hloops _ hlen hfail
    rw [← at_cal s t] at hp
    have hgood := refGood_timeouts (s := s.at t) (rs := p.regions) hfail
    refine ⟨_, refcalMeasurement_eq hp (by simpa using hloops) hlen, ?_⟩
    have hreply := refReplied_quiet (((s.at t).refScaled p (p.regions.zip ms)).refOver p ((s.at t).refGood (p.regions.zip ms))) p
      ((s.at t).refResult (p.regions.zip ms)).1
    have hlog := refLogged_quiet (s.at t) (p.regions.zip ms)
    rw [hreply.cal, hreply.convs, refOver_cal, refScaled_none hgood, hgood, hlog.cal]
    exact ⟨rfl, by simp, loopsFreed_convs (hlog.convs.trans (at_convs s t)) p.regions⟩
  · intro s t p r m hp hregions hloop hworks hgood hfits
    have hmark : ∀ x ∈ p.regions, ((s.at t).conv (8 * x)).comp = 3 := by simp [hregions, hloop]
    rw [← at_cal s t] at hp hgood hfits ⊢
    rw [← at_region s t] at hworks
    have hzip : p.regions.zip [m] = [(r, m)] := by rw [hregions]; rfl
    have hone : (s.at t).refResult [(r, m)] = refScale (s.at t).cal.ref.declared [(r, m.mean)] := by
      rw [State.refResult, refGood_single hworks hgood]
    have hkept : ((s.at t).refResult [(r, m)]).1 ≠ [] := by simp [hone, refScale_single]
    rw [← hone] at hfits ⊢
    refine ⟨_, refcalMeasurement_eq hp hmark (by simp [hregions]), ?_⟩
    rw [hzip, (refReplied_quiet ..).cal, refOver_cal]
    exact ⟨rfl, refScaled_ref hkept hfits⟩
  · intro s t kind n k hstep hrest hfailed hfree hold hk
    rw [← at_step s t] at hstep
    rw [← at_chip s t] at hrest hfailed
    rw [← at_cal s t] at hold hk ⊢
    rw [← at_keep s t, ← at_cell s t, ← at_conv s t, ← at_dac s t] at hk
    have h : KeepDue (s.at t) kind n := ⟨hstep, hrest, hfailed, hfree, hold⟩
    rcases hk with ⟨rfl, hn, hstore, hran, hnew, rfl⟩ | ⟨rfl, hn, hstore, hran, hnew, rfl⟩ | ⟨rfl, hlow, hn, hstore, hran, hnew, rfl⟩ |
      ⟨rfl, hn, hstore, hran, hnew, rfl⟩ | ⟨rfl, hn, hnew, rfl⟩ | ⟨rfl, b, hb, rfl⟩
    · exact keepStoreWrite_object h ⟨by decide, hn, hstore, hran, hnew⟩
    · rw [keepStoreWrite_object h ⟨by decide, Nat.lt_trans hn (by decide), hstore, hran, hnew⟩, keepWithCal_precision hn]
      rfl
    · rw [keepStoreWrite_object h ⟨by decide, hn, hstore, hran, hnew⟩, keepWithCal_wideband hlow]
      rfl
    · exact keepStoreWrite_object h ⟨by decide, hn, hstore, hran, hnew⟩
    · exact keepStoreWrite_health h hn hnew
    · exact keepStoreWrite_stale h hb

end Sys2Proof.Machine

/-! PROOFS. The bounds that hold at reset and that every step keeps: the statements about reset and about the invariant of the whole
block (09 R259; 10 R272; 11 R317; 14 R394, R395; 17 R464, R467; 18 R471-R492). -/

namespace Sys2Proof.Machine

/-- Settles O3: every field stands at the default of its type, and an empty table reads as its default everywhere. -/
theorem resetState : Obligations.ResetState := by
  refine ⟨rfl, rfl, rfl, rfl, rfl, rfl, ?freeSlots, rfl, fun _ _ => rfl, fun _ => rfl, fun _ => ⟨rfl, rfl⟩, rfl, fun _ => rfl, rfl,
    fun _ => rfl, fun _ => rfl, rfl, rfl, rfl, rfl⟩
  case freeSlots => simp only [State.reset]

/-- Settles O4: each bound holds of the reset value of its field. -/
theorem resetIsLegal : Obligations.ResetIsLegal := by
  unfold Obligations.ResetIsLegal Legal
  decide

/-- The meaning of a row, whichever it is, keeps the queue and every bounded field: the operations of each chapter do (`Laws/Ok*.lean`). -/
theorem exec_ok {pd : List Instr} {s : State} (c : Instr) (h : Ok pd s) : OkO pd (exec c s) :=
  match c with
  | .nop .. => execNop_ok h | .query .. => execQuery_ok h | .graphPlace .. => execGraphPlace_ok h | .partition .. => execPartition_ok h
  | .cellSelection .. => execCellSelection_ok h | .buildAndMeasure .. => execBuildAndMeasure_ok h | .evaluate .. => execEvaluate_ok h
  | .graphRemove .. => execGraphRemove_ok h | .graphTune .. => execGraphTune_ok h | .graphPin .. => execGraphPin_ok h
  | .transplant .. => execTransplant_ok h | .ledgerRead .. => execLedgerRead_ok h | .convConfig .. => execConvConfig_ok h
  | .seqLoad .. => execSeqLoad_ok h | .trigger .. => execTrigger_ok h | .syscalZero .. => execSyscalZero_ok h
  | .syscalFull .. => execSyscalFull_ok h | .syscalCommit .. => execSyscalCommit_ok h | .dacSet .. => execDacSet_ok h
  | .dacRange .. => execDacRange_ok h | .ddsConfig .. => execDdsConfig_ok h | .dacNvStore .. => execDacNvStore_ok h
  | .slewConfig .. => execSlewConfig_ok h | .calRun .. => execCalRun_ok h | .calPolicy .. => execCalPolicy_ok h
  | .calRefExternal .. => execCalRefExternal_ok h | .streamOpen .. => execStreamOpen_ok h | .streamClose .. => execStreamClose_ok h
  | .personaLoad .. => execPersonaLoad_ok h | .regionLoad .. => execRegionLoad_ok h | .readback .. => execReadback_ok h
  | .snapshot .. => execSnapshot_ok h | .logDrain .. => execLogDrain_ok h | .stolonPolicy .. => execStolonPolicy_ok h
  | .attest .. => execAttest_ok h | .keyProvision .. => execKeyProvision_ok h | .alarmPolicy .. => execAlarmPolicy_ok h
  | .pinMap .. => execPinMap_ok h | .gpioWriteMasked .. => execGpioWriteMasked_ok h | .memCopyIn .. => execMemCopyIn_ok h
  | .memCopyOut .. => execMemCopyOut_ok h | .memAtomic .. => execMemAtomic_ok h | .abort .. => execAbort_ok h | .halt .. => execHalt_ok h
  | .release .. => execRelease_ok h | .mgmtEventRingHead .. => execMgmtEventRingHead_ok h | .submissionTail .. => execSubmissionTail_ok h
  | .completionHead .. => execCompletionHead_ok h | .bufferRingTail .. => execBufferRingTail_ok h
  | .eventRingHead .. => execEventRingHead_ok h | .spiWriteRingArea .. => execSpiWriteRingArea_ok h
  | .spiReadRingArea .. => execSpiReadRingArea_ok h | .spiWriteSetupRegister .. => execSpiWriteSetupRegister_ok h
  | .spiReadSetupRegister .. => execSpiReadSetupRegister_ok h | .spiWriteDoorbell .. => execSpiWriteDoorbell_ok h
  | .spiReadClearPending .. => execSpiReadClearPending_ok h | .cfgLoad .. => execCfgLoad_ok h | .cfgReadback .. => execCfgReadback_ok h
  | .cfgStatus .. => execCfgStatus_ok h | .programFallback .. => execProgramFallback_ok h | .identify .. => execIdentify_ok h
  | .cfgTransactionGap .. => execCfgTransactionGap_ok h | .extest .. => execExtest_ok h | .samplePreload .. => execSamplePreload_ok h
  | .idcode .. => execIdcode_ok h | .highz .. => execHighz_ok h | .clamp .. => execClamp_ok h | .bypass .. => execBypass_ok h
  | .warmReset .. => execWarmReset_ok h | .cqEnable .. => execCqEnable_ok h | .cqDisable .. => execCqDisable_ok h
  | .dsEnable .. => execDsEnable_ok h | .dsDisable .. => execDsDisable_ok h | .meEnable .. => execMeEnable_ok h
  | .meDisable .. => execMeDisable_ok h | .referenceSelect .. => execReferenceSelect_ok h | .upllEnable .. => execUpllEnable_ok h
  | .gckSetup .. => execGckSetup_ok h | .syncModeWrite .. => execSyncModeWrite_ok h | .cmpLoWrite .. => execCmpLoWrite_ok h
  | .cmpHiWrite .. => execCmpHiWrite_ok h | .cmpPeriodWrite .. => execCmpPeriodWrite_ok h | .cmpDisarm .. => execCmpDisarm_ok h
  | .ulEnable .. => execUlEnable_ok h | .pinBankVccio .. => execPinBankVccio_ok h | .pinDiff .. => execPinDiff_ok h
  | .pinOut .. => execPinOut_ok h | .pinOutMasked .. => execPinOutMasked_ok h | .bootGo .. => execBootGo_ok h
  | .loRead .. => execLoRead_ok h | .registerWrite .. => execRegisterWrite_ok h | .por .. => execPor_ok h
  | .brownout .. => execBrownout_ok h | .resetN .. => execResetN_ok h | .perst .. => execPerst_ok h
  | .suppliesValid .. => execSuppliesValid_ok h | .pllLock .. => execPllLock_ok h | .selfTest .. => execSelfTest_ok h
  | .hostWaitExpiry .. => execHostWaitExpiry_ok h | .personaSlotTry .. => execPersonaSlotTry_ok h
  | .signatureVerified .. => execSignatureVerified_ok h | .personaEpoch .. => execPersonaEpoch_ok h | .frame .. => execFrame_ok h
  | .repeatRecord .. => execRepeatRecord_ok h | .regionMark .. => execRegionMark_ok h | .endRecord .. => execEndRecord_ok h
  | .personaEarlyEnd .. => execPersonaEarlyEnd_ok h | .personaTimeout .. => execPersonaTimeout_ok h | .doneHigh .. => execDoneHigh_ok h
  | .doneTimeout .. => execDoneTimeout_ok h | .resetRelease .. => execResetRelease_ok h | .outputEnable .. => execOutputEnable_ok h
  | .dataAreaApply .. => execDataAreaApply_ok h | .regionIsolation .. => execRegionIsolation_ok h
  | .regionClockRelease .. => execRegionClockRelease_ok h | .outputInstant .. => execOutputInstant_ok h
  | .applyStrobe .. => execApplyStrobe_ok h | .triggerAccept .. => execTriggerAccept_ok h | .loopOverload .. => execLoopOverload_ok h
  | .loopOverloadEnd .. => execLoopOverloadEnd_ok h | .syscalTimeout .. => execSyscalTimeout_ok h
  | .converterPowerGate .. => execConverterPowerGate_ok h | .streamRecord .. => execStreamRecord_ok h
  | .flushInterval .. => execFlushInterval_ok h | .streamFetchStall .. => execStreamFetchStall_ok h
  | .queueStalled .. => execQueueStalled_ok h | .msixMessage .. => execMsixMessage_ok h | .dacUpdate .. => execDacUpdate_ok h
  | .dacBusCapture .. => execDacBusCapture_ok h | .slewTick .. => execSlewTick_ok h | .ddsWrap .. => execDdsWrap_ok h
  | .ddsMatch .. => execDdsMatch_ok h | .dacPowerupRange .. => execDacPowerupRange_ok h | .dacPowerupEnable .. => execDacPowerupEnable_ok h
  | .rangeSwitch .. => execRangeSwitch_ok h | .dacShort .. => execDacShort_ok h | .dacTrip .. => execDacTrip_ok h
  | .dacSenseOpen .. => execDacSenseOpen_ok h | .dacSupplyLoss .. => execDacSupplyLoss_ok h | .timebaseUpdate .. => execTimebaseUpdate_ok h
  | .timebaseCompare .. => execTimebaseCompare_ok h | .refLost .. => execRefLost_ok h | .refRestored .. => execRefRestored_ok h
  | .syncInEdge .. => execSyncInEdge_ok h | .syncInMissing .. => execSyncInMissing_ok h | .timebaseRephase .. => execTimebaseRephase_ok h
  | .gckLoss .. => execGckLoss_ok h | .gckRestored .. => execGckRestored_ok h | .resetTreeAssert .. => execResetTreeAssert_ok h
  | .resetTreeDeassert .. => execResetTreeDeassert_ok h | .fabricContention .. => execFabricContention_ok h
  | .scratchpadFabricRequest .. => execScratchpadFabricRequest_ok h | .scrubWriteback .. => execScrubWriteback_ok h
  | .dmaTimeout .. => execDmaTimeout_ok h | .readbackCapture .. => execReadbackCapture_ok h
  | .readbackBlockDone .. => execReadbackBlockDone_ok h | .sheafToken .. => execSheafToken_ok h
  | .snapshotComplete .. => execSnapshotComplete_ok h | .sheafTimeout .. => execSheafTimeout_ok h
  | .cellControlEdge .. => execCellControlEdge_ok h | .idacCompliance .. => execIdacCompliance_ok h
  | .ainOverrange .. => execAinOverrange_ok h | .ainOverrangeClear .. => execAinOverrangeClear_ok h
  | .destinationConfigured .. => execDestinationConfigured_ok h | .destinationSettled .. => execDestinationSettled_ok h
  | .matchingRound .. => execMatchingRound_ok h | .crossoverComplete .. => execCrossoverComplete_ok h
  | .sourceDisconnected .. => execSourceDisconnected_ok h | .cellFault .. => execCellFault_ok h
  | .repairDestination .. => execRepairDestination_ok h | .repairConfigured .. => execRepairConfigured_ok h
  | .repairNetsConnected .. => execRepairNetsConnected_ok h | .repairSettled .. => execRepairSettled_ok h
  | .repairVerified .. => execRepairVerified_ok h | .repairTakeover .. => execRepairTakeover_ok h | .repairCold .. => execRepairCold_ok h
  | .stolonTestStart .. => execStolonTestStart_ok h | .stolonTestEnd .. => execStolonTestEnd_ok h
  | .stolonYielded .. => execStolonYielded_ok h | .coverageMissed .. => execCoverageMissed_ok h | .spareWarm .. => execSpareWarm_ok h
  | .cellReset .. => execCellReset_ok h | .arbRecovery .. => execArbRecovery_ok h | .blockQuarantine .. => execBlockQuarantine_ok h
  | .regionWatchdog .. => execRegionWatchdog_ok h | .regionReady .. => execRegionReady_ok h | .regionFailed .. => execRegionFailed_ok h
  | .regionRestartRetry .. => execRegionRestartRetry_ok h | .mgmtWatchdog .. => execMgmtWatchdog_ok h
  | .mgmtRestartEnd .. => execMgmtRestartEnd_ok h | .temperatureReading .. => execTemperatureReading_ok h
  | .calIntervalDue .. => execCalIntervalDue_ok h | .calRetry .. => execCalRetry_ok h
  | .calibrationRunStart .. => execCalibrationRunStart_ok h | .calibrationRunEnd .. => execCalibrationRunEnd_ok h
  | .refcalMeasurement .. => execRefcalMeasurement_ok h | .keepStoreWrite .. => execKeepStoreWrite_ok h
  | .supplyFault .. => execSupplyFault_ok h | .supplyRestored .. => execSupplyRestored_ok h | .pinInputChange .. => execPinInputChange_ok h
  | .functionSwitch .. => execFunctionSwitch_ok h | .bankSupplyFault .. => execBankSupplyFault_ok h
  | .bankSupplyRestored .. => execBankSupplyRestored_ok h | .portStatus .. => execPortStatus_ok h | .portTx .. => execPortTx_ok h
  | .portRx .. => execPortRx_ok h | .portControl .. => execPortControl_ok h | .ulTxBlock .. => execUlTxBlock_ok h
  | .ulRxOverflow .. => execUlRxOverflow_ok h | .ulLock .. => execUlLock_ok h | .ulLockLost .. => execUlLockLost_ok h
  | .huskAlarm .. => execHuskAlarm_ok h | .tamperLatch .. => execTamperLatch_ok h | .keyKillBurn .. => execKeyKillBurn_ok h
  | .checkpointWrite .. => execCheckpointWrite_ok h | .strawBanner .. => execStrawBanner_ok h | .sparesCold .. => execSparesCold_ok h
  | .shortLimitReleased .. => execShortLimitReleased_ok h | .sensorInactive .. => execSensorInactive_ok h
  | .ulRxBlock .. => execUlRxBlock_ok h | .portByteReceived .. => execPortByteReceived_ok h | .portByteSent .. => execPortByteSent_ok h
  | .smbusTimeout .. => execSmbusTimeout_ok h | .linkTrained .. => execLinkTrained_ok h | .linkRetraining .. => execLinkRetraining_ok h
  | .upllLock .. => execUpllLock_ok h | .nopDelayPassed .. => execNopDelayPassed_ok h

/-- Settles O5: the idle tick moves the timebase alone, modulo 2^64, and `exec_ok` says it of every row. -/
theorem everyStepKeepsLegal : Obligations.EveryStepKeepsLegal := by
  intro s t hs h
  cases hp : s.pending with
  | nil =>
    rw [step_nil hp] at h
    cases h
    exact (tick_ok ⟨hp, hs⟩).2
  | cons c rest =>
    rw [step_cons hp] at h
    have hrest : Ok rest { s with pending := rest } := ⟨rfl, hs⟩
    exact (exec_ok c hrest t h).2

end Sys2Proof.Machine

/-! PROOFS. Read-back (09 R255-R258; 12 R348): one of the statements of 09_fabric_memory.md. -/

namespace Sys2Proof.Machine

/-! ### Tables: a filter by key, and the entries of one table written into another -/

theorem Tbl.get_filter {α : Type} {d : α} (p : Nat → Bool) (n : Nat) (l : Tbl α) :
    Tbl.get d n (l.filter fun e => p e.1) = if p n then Tbl.get d n l else d := by
  induction l with
  | nil => simp [Tbl.get]
  | cons e l ih =>
    by_cases hp : p e.1 = true <;> by_cases hn : e.1 = n <;> simp_all [Tbl.get]

theorem Tbl.wfFrom_filter {α : Type} [DecidableEq α] {d : α} {m : Nat} {l : Tbl α} (p : Nat × α → Bool) (h : Tbl.wfFrom d m l = true) :
    Tbl.wfFrom d m (l.filter p) = true := by
  induction l generalizing m with
  | nil => rfl
  | cons e l ih =>
    simp only [Tbl.wfFrom, Bool.and_eq_true, decide_eq_true_eq] at h
    obtain ⟨⟨hm, hd⟩, hl⟩ := h
    by_cases hp : p e = true
    · simp [hp, Tbl.wfFrom, hm, hd, ih hl]
    · simpa [hp] using Tbl.wfFrom_mono (Nat.le_succ_of_le hm) (ih hl)

/-- The entries of a canonical table, written over another one: what the first lists is read, and else what the second holds. -/
theorem Tbl.get_overwrite {α : Type} [DecidableEq α] {d : α} {m n : Nat} {l : Tbl α} (t : Tbl α) (h : Tbl.wfFrom d m l = true) :
    Tbl.get d n (l.foldl (fun t e => Tbl.set d e.1 e.2 t) t) = if Tbl.get d n l = d then Tbl.get d n t else Tbl.get d n l := by
  induction l generalizing m t with
  | nil => simp [Tbl.get]
  | cons e l ih =>
    obtain ⟨k, v⟩ := e
    simp only [Tbl.wfFrom, Bool.and_eq_true, decide_eq_true_eq] at h
    obtain ⟨⟨-, hv⟩, hl⟩ := h
    rw [List.foldl_cons, ih _ hl]
    by_cases hn : k = n
    · subst hn
      simp [Tbl.get, Tbl.get_lt (Nat.lt_succ_self k) hl, Tbl.get_set_ne hv, hv]
    · simp [Tbl.get, hn, Tbl.get_set_other (Ne.symm hn)]

/-! ### READBACK (12 R348) -/

theorem consumed_scopeLoading (s : State) (d : Desc) (scope idx : Nat) : (s.consumed d).scopeLoading scope idx = s.scopeLoading scope idx := by
  have hregion (r : Nat) : (s.consumed d).region r = s.region r := at_region s d.t r
  simp [State.scopeLoading, hregion]

/-- The checks of a READBACK that its device and its record pass (09 R255, R258). -/
structure ReadbackFits (s : State) (a : Bytes) : Prop where
  unlocked : s.debugLocked = false
  scope : scopeOk (byteAt a 0) (fld a 2 2) = true
  aligned : fld a 16 8 % 8 = 0
  room : 144 * (scopeBlocks (byteAt a 0) (fld a 2 2)).length ≤ fld a 24 4
  buffer : s.bufOk (fld a 16 8) (fld a 24 4) = true

theorem bodyReadback_eq {s : State} {slot : Nat} {a : Bytes} (h : ReadbackFits s a) :
    bodyReadback slot a s = (s.startReadback slot (byteAt a 0) (fld a 2 2) (fld a 8 8) (fld a 16 8)).setWork slot .readback := by
  have hroom := Nat.not_lt.2 h.room
  simp [bodyReadback, h.unlocked, h.scope, h.aligned, hroom, h.buffer]

/-! ### READBACK_CAPTURE (09 R255, R256) -/

@[simp] theorem copyTree_ff (s : State) (blocks : List Nat) (g : Nat) : (s.copyTree blocks g).fab.ff = s.fab.ff := rfl

@[simp] theorem copyTree_lcTree (s : State) (blocks : List Nat) (g n : Nat) : (s.copyTree blocks g).lcTree n = s.lcTree n := rfl

theorem lcTree_lt (s : State) (n : Nat) : s.lcTree n < 8 := Nat.mod_lt _ (by decide)

/-- A tree's capture copies the flip-flops in scope that the tree clocks, and no others. -/
theorem copyTree_shadow {s : State} (blocks : List Nat) (g n : Nat) (h : Tbl.wf 0 s.fab.ff = true) :
    Tbl.get 0 n (s.copyTree blocks g).fab.shadow =
      if (blocks.contains (n / 512) = true ∧ s.lcTree n = g) ∧ Tbl.get 0 n s.fab.ff ≠ 0 then Tbl.get 0 n s.fab.ff
      else Tbl.get 0 n s.fab.shadow := by
  have hfilter := Tbl.get_filter (d := 0) (fun n => blocks.contains (n / 512) && decide (s.lcTree n = g)) n s.fab.ff
  refine (Tbl.get_overwrite s.fab.shadow (Tbl.wfFrom_filter _ h)).trans ?_
  rw [hfilter]
  by_cases hc : blocks.contains (n / 512) = true ∧ s.lcTree n = g <;> by_cases hf : Tbl.get 0 n s.fab.ff = 0 <;> simp_all

/-- The captures of several trees, one after the other. -/
theorem copyTrees_shadow {s : State} (blocks gs : List Nat) (n : Nat) (h : Tbl.wf 0 s.fab.ff = true) :
    Tbl.get 0 n (gs.foldl (fun s g => s.copyTree blocks g) s).fab.shadow =
      if (blocks.contains (n / 512) = true ∧ s.lcTree n ∈ gs) ∧ Tbl.get 0 n s.fab.ff ≠ 0 then Tbl.get 0 n s.fab.ff
      else Tbl.get 0 n s.fab.shadow := by
  induction gs generalizing s with
  | nil => simp
  | cons g gs ih =>
    rw [List.foldl_cons, ih (s := s.copyTree blocks g) h, copyTree_ff, copyTree_lcTree, copyTree_shadow blocks g n h]
    simp only [List.mem_cons]
    grind

/-- With no edge since the last capture every tree is captured as it stands. -/
theorem runLogic_nil (s : State) (r : Readback) : s.runLogic r [] = (List.range 8).foldl (fun s g => s.copyTree r.blocks g) s := by
  simp [State.runLogic]

/-- With no edge since the last capture, shadows that were clear become the flip-flops in scope. -/
theorem runLogic_nil_shadow {s : State} (r : Readback) (n : Nat) (h : Tbl.wf 0 s.fab.ff = true) (hclear : s.fab.shadow = []) :
    Tbl.get 0 n (s.runLogic r []).fab.shadow = if r.blocks.contains (n / 512) then Tbl.get 0 n s.fab.ff else 0 := by
  have htree : s.lcTree n ∈ List.range 8 := List.mem_range.2 (lcTree_lt s n)
  rw [runLogic_nil, copyTrees_shadow _ _ _ h, hclear]
  by_cases hf : Tbl.get 0 n s.fab.ff = 0 <;> simp [htree, hf, Tbl.get]

/-- A read-back whose time has come is captured where none is under way. -/
theorem execReadbackCapture_eq {s : State} {t id : Nat} {r : Readback} (edges : List (Nat × Nat × List (Nat × Nat)))
    (hr : s.fab.readbacks.find? (fun r => r.id == id) = some r) (hc : r.captured = false) (ht : r.time ≤ (s.at t).now)
    (hnone : s.fab.readbacks.any (fun x => x.captured) = false) {r' : Readback}
    (hr' : r' = { r with captured := true, absent := r.blocks.filter fun b => (s.region (b / 8)).loading || s.clocksGated (b / 8) }) :
    execReadbackCapture t id edges s =
      .next (((State.runLogic { s.at t with fab := { s.fab with shadow := [] } } r edges).setReadback id (some r')).stopNext r' (List.range 8)) := by
  subst hr'
  have hclocks (g : Nat) : (s.at t).clocksGated g = s.clocksGated g := by simp [State.clocksGated]
  unfold execReadbackCapture
  dsimp only
  rw [at_fab, hr]
  simp [hc, hnone, Nat.not_lt.2 ht, hclocks]

/-! ### READBACK_BLOCK_DONE (09 R256, R257) -/

/-- What a block that is done leaves, before the read-back's end: its record, its island running again, the next block of its region
stopped, and the requests that waited for it served. -/
def State.blockDone (s : State) (id b : Nat) (r' : Readback) : State :=
  (((s.setBlock b { s.block b with stopped := false }).setReadback id (some r')).stopNext r' [b / 8]).memResume b

/-- What the last record leaves: the read-back gone, the shadows clear, the records sent (09 R257) — in the reply of the configuration
port, whose identifier is 0x1000, or to the buffer of a READBACK, which ends. -/
def State.readbackEnded (s : State) (id : Nat) (r : Readback) (recs : Bytes) : State :=
  let u : State := { s with fab := { s.fab with readbacks := s.fab.readbacks.filter fun x => decide (x.id ≠ id), shadow := [] } }
  if id = 0x1000 then State.emit { u with boot := { u.boot with cfgOpen := false, cfgResult := 0 } } (.cfg recs)
  else (u.hostWrite r.addr recs).final id stOK (r.blocks.length - r.absent.length) r.absent.length

/-- A block of a captured read-back, stopped for it, that has sent no record yet. -/
structure BlockDue (s : State) (id b : Nat) (r : Readback) : Prop where
  found : s.fab.readbacks.find? (fun r => r.id == id) = some r
  captured : r.captured = true
  scope : r.blocks.contains b = true
  stopped : (s.block b).stopped = true
  unsent : r.recs.any (fun e => e.1 == b) = false

/-- Past its guards the row records the block, and ends the read-back with the last one. -/
theorem execReadbackBlockDone_eq {s : State} {t id b : Nat} {r r' : Readback} (h : BlockDue s id b r)
    (hr' : r' = { r with recs := Tbl.set [] b ((s.at t).ffRecord r b) r.recs }) :
    execReadbackBlockDone t id b s =
      .next (if r'.recs.length < r.blocks.length then (s.at t).blockDone id b r'
             else ((s.at t).blockDone id b r').readbackEnded id r (r'.recs.flatMap fun e => e.2)) := by
  subst hr'
  obtain ⟨hfound, hcaptured, hscope, hstopped, hunsent⟩ := h
  unfold execReadbackBlockDone
  dsimp only
  rw [at_fab, hfound]
  dsimp only
  have hmem : b ∈ r.blocks := by simpa using hscope
  rw [if_neg (by simp [hcaptured, hmem, hstopped, hunsent]), apply_ite Host.Outcome.next]
  refine ite_congr rfl (fun _ => rfl) fun _ => ?_
  unfold State.readbackEnded
  dsimp only
  rw [apply_ite Host.Outcome.next]
  rfl

/-! ### The statement -/

/-- Settles O40: READBACK is admitted and runs past its checks; a capture is due, and with no edge it copies what stands
(`runLogic_nil_shadow`); a block that is due is recorded, and whether it is the last one decides the rest. -/
theorem readbackComplete : Obligations.ReadbackComplete := by
  refine ⟨?_, ?_, ?_⟩
  · rintro s d slot a sc ix r hadm rfl rfl hbad hloading hdebug hfuse hscope haligned hroom hbuf rfl
    have hpre : (fun (s : State) a => if s.scopeLoading (byteAt a 0) (fld a 2 2) then some stBUSY else none) (s.consumed d) a = none := by
      simp [hloading, consumed_scopeLoading]
    have hfits : ReadbackFits (s.admitted d slot a) a := ⟨by simp [State.debugLocked, hdebug, hfuse], hscope, haligned, hroom, hbuf⟩
    refine (command_admitted hadm rfl hbad hpre).trans ?_
    rw [bodyReadback_eq hfits, State.startReadback, admitted_now]
  · rintro s t id r edges r' u hr hc ht hnone hr' rfl
    refine ⟨execReadbackCapture_eq edges hr hc ht hnone hr', ?_⟩
    rintro rfl hff n
    exact runLogic_nil_shadow r n hff rfl
  · rintro s t id b r r' u hfound hcaptured hscope hstopped hunsent hr' hu
    have h := execReadbackBlockDone_eq ⟨hfound, hcaptured, hscope, hstopped, hunsent⟩ hr'
    rw [← at_block s t] at hu
    obtain rfl : u = (s.at t).blockDone id b r' := hu
    refine ⟨fun hmore => ?_, fun hlast hid => ?_, fun hlast hid => ?_⟩
    · rw [if_pos hmore] at h
      exact h
    · rw [if_neg (Nat.not_lt.2 hlast), State.readbackEnded, if_neg hid] at h
      exact h
    · rw [if_neg (Nat.not_lt.2 hlast), State.readbackEnded, if_pos hid] at h
      exact h

end Sys2Proof.Machine

/-! PROOFS. The scratchpad's fabric port and the drive checker (09 R253, R260-R266), on top of what counters, entries and completions
leave of the fabric and of the memory commands that wait: one of the statements of 09_fabric_memory.md. -/

namespace Sys2Proof.Machine

/-! ### What counters, entries and completions leave of the memory -/

/-- A memory command that waits for a word (09 R256, R263). -/
def Hnd.waits (h : Hnd) : Prop := ∃ a done c, h.work = .mem a done c

/-- No counter, log entry, ring entry or completion touches the fabric, but for the ring area of local-ring mode in the scratchpad
(11 R324), and none makes a memory command wait. -/
structure MemAside (s t : State) : Prop where
  mode : t.time.localMode = s.time.localMode
  fab : { t.fab with spad := s.fab.spad } = s.fab
  spad : s.time.localMode = false → t.fab.spad = s.fab.spad
  waiting : ∀ e ∈ t.inFlight, e.2.waits → e ∈ s.inFlight

/-- An operation on neither time, the fabric nor the handles. -/
theorem MemAside.of_eq {s t : State} (ht : t.time = s.time) (hf : t.fab = s.fab) (hh : t.chip.handles = s.chip.handles) : MemAside s t :=
  ⟨by rw [ht], by rw [hf], fun _ => by rw [hf], fun e he _ => by rwa [State.inFlight, hh] at he⟩

theorem MemAside.refl (s : State) : MemAside s s := .of_eq rfl rfl rfl

theorem MemAside.trans {s t u : State} (h : MemAside s t) (k : MemAside t u) : MemAside s u where
  mode := k.mode.trans h.mode
  fab := by
    rw [← h.fab, ← k.fab]
  spad hs := (k.spad (h.mode.trans hs)).trans (h.spad hs)
  waiting e he hw := h.waiting e (k.waiting e he hw) hw

theorem MemAside.ite {s a b : State} {c : Prop} [Decidable c] (ha : MemAside s a) (hb : MemAside s b) : MemAside s (if c then a else b) := by
  split
  · exact ha
  · exact hb

theorem MemAside.foldl {α : Type} {f : State → α → State} (hf : ∀ s x, MemAside s (f s x)) (l : List α) (s : State) :
    MemAside s (l.foldl f s) := by
  induction l generalizing s with
  | nil => exact .refl s
  | cons x l ih => exact (hf s x).trans (ih _)

/-- A write of the ring area in local-ring mode. -/
theorem spWrite_memAside {s : State} (a : Nat) (b : Bytes) (h : s.time.localMode = true) : MemAside s (s.spWrite a b) :=
  ⟨rfl, rfl, fun hs => by simp [hs] at h, fun _ he _ => he⟩

theorem hostWrite_memAside (s : State) (a : Nat) (b : Bytes) : MemAside s (s.hostWrite a b) := by
  unfold State.hostWrite
  refine .ite (.refl s) ?_
  split
  case isTrue h => exact .ite (spWrite_memAside a b h) (.refl s)
  case isFalse => exact .of_eq rfl rfl rfl

theorem raiseVec_memAside (s : State) (v : Nat) : MemAside s (s.raiseVec v) := .ite (.refl s) (.of_eq rfl rfl rfl)

theorem host_memAside (s : State) (v : HostIf) : MemAside s { s with host := v } := .of_eq rfl rfl rfl

theorem chip_memAside (s : State) (v : Chip) (h : v.handles = s.chip.handles) : MemAside s { s with chip := v } := .of_eq rfl rfl h

theorem bumpRaw_memAside (s : State) (u k n : Nat) : MemAside s (s.bumpRaw u k n).1 := .of_eq rfl rfl rfl

theorem fresh_memAside (s : State) : MemAside s s.fresh.2 := .of_eq rfl rfl rfl

theorem setLed_memAside (s : State) (n : Nat) (v : Led) : MemAside s (s.setLed n v) := .of_eq rfl rfl rfl

theorem meWrite_memAside (s : State) (e : LogEntry) : MemAside s (s.meWrite e) :=
  ((hostWrite_memAside s _ _).trans (host_memAside _ _)).trans (raiseVec_memAside _ _)

theorem meRaise_memAside (s : State) (e : LogEntry) : MemAside s (s.meRaise e) :=
  .ite (.refl s) (.ite (meWrite_memAside s e) (.ite (.of_eq rfl rfl rfl) (.of_eq rfl rfl rfl)))

theorem logPush_memAside (s : State) (e : LogEntry) : MemAside s (s.logPush e) :=
  .ite (.of_eq rfl rfl rfl) (.ite (.of_eq rfl rfl rfl) (.of_eq rfl rfl rfl))

theorem logWrite_memAside (s : State) (e : LogEntry) : MemAside s (s.logWrite e).1 := by
  have h := (logPush_memAside s e).trans (bumpRaw_memAside _ 0 2 1)
  unfold State.logWrite
  dsimp only
  split
  · exact (h.trans (meRaise_memAside _ e)).trans (bumpRaw_memAside _ 0 3 1)
  · exact h

theorem logAll_memAside (n : Nat) (l : List LogEntry) (s : State) : MemAside s (State.logAll n l s) := by
  induction n generalizing l s with
  | zero => cases l <;> exact .refl s
  | succ n ih =>
    cases l with
    | nil => exact .refl s
    | cons e es => exact (logWrite_memAside s e).trans (ih _ _)

theorem log_memAside (s : State) (code level idx a0 a1 : Nat) : MemAside s (s.log code level idx a0 a1) :=
  .ite (.refl s) (.ite (.ite (.of_eq rfl rfl rfl) (.of_eq rfl rfl rfl)) (logAll_memAside ..))

theorem bumpN_memAside (s : State) (u k n : Nat) : MemAside s (s.bumpN u k n) :=
  .ite ((bumpRaw_memAside s u k n).trans (log_memAside ..)) (bumpRaw_memAside s u k n)

theorem bump_memAside (s : State) (u k : Nat) : MemAside s (s.bump u k) := bumpN_memAside s u k 1

theorem lcArg_memAside (s : State) (l : Option Nat) : MemAside s (s.lcArg l).2 := by
  cases l with
  | none => exact fresh_memAside s
  | some n => exact .refl s

/-! ### A request of the fabric port (09 R260-R266) -/

@[simp] theorem at_clocksGated (s : State) (t r : Nat) : (s.at t).clocksGated r = s.clocksGated r := by simp [State.clocksGated]

/-- A request of a block whose clocks run, with none that waits: it waits where read-back has stopped the block, and else is served. -/
theorem execScratchpadFabricRequest_eq {s : State} {b op : Nat} (t addr be : Nat) (w : Word) (ecc : Nat) (hb : b < 64) (hop : op < 4)
    (hclk : s.clocksGated (b / 8) = false) (hreq : (Tbl.get {} b s.fab.ports).req = none) :
    execScratchpadFabricRequest t b op addr be w ecc s =
      .next (if (s.block b).stopped then
          { s.at t with fab := { s.fab with
            ports := Tbl.set {} b { Tbl.get {} b s.fab.ports with req := some (op, addr, be, w.toNat, ecc) } s.fab.ports } }
        else (s.at t).fabServe b op addr be w.toNat ecc) := by
  unfold execScratchpadFabricRequest
  dsimp only
  rw [ifUnit_of hb, at_clocksGated, at_fab, at_block, if_neg (by simp [hclk, hreq, Nat.not_le.2 hop])]

/-- An answer with an error: the bank answers, and the memory and the analogue side stay as they are. -/
theorem fabReplyFree_frame (s : State) (b : Nat) (err : Bool) :
    (s.fabReplyFree b err).fab.spad = s.fab.spad ∧ (s.fabReplyFree b err).til = s.til ∧ ∃ r, (s.fabReplyFree b err).out = s.out ++ [.fabric b r err] := ⟨rfl, rfl, _, rfl⟩

theorem fabServe_quarantined {s : State} {b : Nat} (op addr be wdata ecc : Nat) (hq : (s.block b).quarantined = true) :
    s.fabServe b op addr be wdata ecc = s.fabReplyFree b true := if_pos hq

section

variable {s : State} {b : Nat} (hq : (s.block b).quarantined = false) (hm : s.time.localMode = false)

include hq hm

theorem fabServe_read (addr be wdata : Nat) :
    s.fabServe b 0 addr be wdata 0 = (s.bump (uBk b) 0).fabReply b (s.spWord (32768 * b + 4 * (addr % 8192))) false := by
  simp [State.fabServe, hq, hm]

theorem fabServe_write (addr be wdata : Nat) :
    s.fabServe b 1 addr be wdata 0 = ((s.bump (uBk b) 0).spWordBE (32768 * b + 4 * (addr % 8192)) (be % 16) wdata).fabReplyFree b false := by
  simp [State.fabServe, hq, hm]

/-- ADD (2) and SWAP (3) answer the old word. -/
theorem fabServe_atomic {op : Nat} (hop : op = 2 ∨ op = 3) (addr be wdata : Nat) : s.fabServe b op addr be wdata 0 =
    ((s.bump (uBk b) 0).spPut (32768 * b + 4 * (addr % 8192)) (atomicNew op (s.spWord (32768 * b + 4 * (addr % 8192))) wdata)).fabReply b
      (s.spWord (32768 * b + 4 * (addr % 8192))) false := by
  rcases hop with rfl | rfl <;> simp [State.fabServe, hq, hm]

theorem fabServe_uncorrectable {op : Nat} (hop : op ≠ 1) (addr be wdata : Nat) : s.fabServe b op addr be wdata 2 =
    (s.spUncorrectable (32768 * b + 4 * (addr % 8192))).fabReplyFree b true := by
  simp [State.fabServe, hq, hm, hop]

end

theorem ofNat_mod_word (v m : Nat) : BitVec.ofNat 8 (v % (256 * m)) = BitVec.ofNat 8 v :=
  BitVec.eq_of_toNat_eq (by simp)

/-- A word's bytes see 32 bits of a value. -/
theorem toLE_mod (n v : Nat) : toLE n (v % 256 ^ n) = toLE n v := by
  induction n generalizing v with
  | zero => rfl
  | succ n ih => rw [toLE, toLE, Nat.pow_succ', ofNat_mod_word, Nat.mod_mul_right_div_self, ih]

theorem spPut_mod (s : State) (a v : Nat) : s.spPut a (v % 2 ^ 32) = s.spPut a v :=
  congrArg (s.spWrite a) (toLE_mod 4 v)

/-! ### SCRUB_WRITEBACK (09 R264) -/

theorem execScrubWriteback_eq {s : State} {b : Nat} {e : Nat × Nat} (t : Nat) (hb : b < 64) (hs : (s.block b).stopped = false)
    (he : s.fab.scrub.find? (fun x => x.1 == b) = some e) :
    execScrubWriteback t b s =
      .next (({ s.at t with fab := { s.fab with scrub := s.fab.scrub.erase e } } : State).spPut e.2 ((s.at t).spWord e.2)) := by
  unfold execScrubWriteback
  dsimp only
  rw [ifUnit_of hb, at_block, if_neg (by simp [hs]), at_fab, he]

/-! ### FABRIC_CONTENTION (09 R253) -/

@[simp] theorem at_drivers (s : State) (t k w : Nat) : (s.at t).drivers k w = s.drivers k w := by simp [State.drivers]

@[simp] theorem at_led (s : State) (t n : Nat) : (s.at t).led n = s.led n := by simp [State.led]

theorem ledDefault_state (n : Nat) : (ledDefault n).state = 0 := rfl

/-- An entry in another state than a free one differs from the default, so that it is read back whatever the table lists. -/
theorem led_setLed {s : State} {n : Nat} {v : Led} (h : v.state ≠ 0) : (s.setLed n v).led n = v := by
  have hv : v ≠ ledDefault n := fun e => h (by rw [e, ledDefault_state])
  unfold State.led State.setLed
  dsimp only
  rw [if_neg hv, Tbl.get_set_ne (Option.some_ne_none v)]
  rfl

/-- The checker's note of a contention: the wire disabled, the segment's entry quarantined (09 R253). -/
def State.contended (s : State) (k w : Nat) : State :=
  State.setLed { s with fab := { s.fab with disabled := s.fab.disabled ++ [(k, w)] } } (segEntry k)
    { s.led (segEntry k) with state := 3, health := 0, detail := Nat.lor (s.led (segEntry k)).detail (2 ^ w) }

theorem lcArg_quiet (s : State) (l : Option Nat) : Quiet s (s.lcArg l).2 := by
  cases l with
  | none => exact ⟨rfl, rfl, rfl, rfl, rfl, rfl, rfl, rfl, rfl, rfl, rfl, rfl⟩
  | some n => exact .refl s

/-- What follows the note counts and logs the contention. -/
theorem execFabricContention_contended {s : State} {k w : Nat} (t : Nat) (hk : 38208 ≤ k) (hk' : k < 49152) (hw : w < 8)
    (hd : 2 ≤ (s.drivers k w).length) :
    ∃ u : State, execFabricContention t k w s = .next u ∧ Quiet ((s.at t).contended k w) u ∧ MemAside ((s.at t).contended k w) u := by
  unfold execFabricContention
  dsimp only
  rw [at_drivers, ifUnit, if_pos (by simp [hk, hk', hw]), if_neg (Nat.not_lt.2 hd)]
  refine ⟨_, rfl, ?_, ?_⟩
  · exact (((Quiet.foldl _ fun s b => bump_quiet s (uBk b) 5).trans (lcArg_quiet ..)).trans (lcArg_quiet ..)).trans (log_quiet ..)
  · exact (((MemAside.foldl (fun s b => bump_memAside s (uBk b) 5) _ _).trans (lcArg_memAside ..)).trans (lcArg_memAside ..)).trans
      (log_memAside ..)

/-! ### The statement -/

/-- Settles O39: a request is served or waits, by what the block is; the scrubber writes one word; the checker's note stands, and the
counts and the log entry that follow leave it as it is (`Quiet`, `MemAside`). -/
theorem fabricPortsComplete : Obligations.FabricPortsComplete := by
  refine ⟨?_, ?_, ?_, ?_, ?_, ?_⟩
  · rintro s t b addr be w a hb rfl hstopped hclk hq hm hreq
    rw [← at_block s t] at hq
    rw [← at_localMode s t] at hm
    have hserve {op : Nat} (hop : op < 4) := execScratchpadFabricRequest_eq t addr be w 0 hb hop hclk hreq
    simp only [hstopped] at hserve
    refine ⟨?_, ?_, ?_, ?_⟩
    · exact (hserve (by decide)).trans (congrArg _ (fabServe_read hq hm addr be w.toNat))
    · exact (hserve (by decide)).trans (congrArg _ (fabServe_write hq hm addr be w.toNat))
    · exact (hserve (by decide)).trans (congrArg _ (fabServe_atomic hq hm (.inl rfl) addr be w.toNat))
    · refine (hserve (by decide)).trans (congrArg _ ((fabServe_atomic hq hm (.inr rfl) addr be w.toNat).trans ?_))
      rw [atomicNew, if_neg (by decide), spPut_mod]
  · intro s t b op addr be w ecc hb hop hstopped hclk hreq
    exact (execScratchpadFabricRequest_eq t addr be w ecc hb hop hclk hreq).trans (congrArg _ (if_pos hstopped))
  · intro s t b op addr be w hb hop hstopped hclk hq hm hreq
    rw [← at_block s t] at hq
    rw [← at_localMode s t] at hm
    refine (execScratchpadFabricRequest_eq t addr be w 2 hb (by omega) hclk hreq).trans (congrArg _ ?_)
    rw [if_neg (by simp [hstopped])]
    exact fabServe_uncorrectable hq hm (by omega) addr be w.toNat
  · intro s t b op addr be w ecc hb hop hreq hstopped hclk hq
    rw [← at_block s t] at hq
    refine ⟨_, (execScratchpadFabricRequest_eq t addr be w ecc hb hop hclk hreq), ?_⟩
    rw [if_neg (by simp [hstopped]), fabServe_quarantined op addr be w.toNat ecc hq, ← at_fab s t, ← at_til s t, ← at_out s t]
    exact fabReplyFree_frame ..
  · intro s t b e hb hs he
    exact execScrubWriteback_eq t hb hs he
  · intro s t k w hk hk' hw hd
    obtain ⟨u, hu, hquiet, hmem⟩ := execFabricContention_contended t hk hk' hw hd
    have hled : u.led (segEntry k) = ((s.at t).contended k w).led (segEntry k) := by rw [State.led, State.led, hquiet.til]
    rw [State.contended, led_setLed (Nat.succ_ne_zero 2)] at hled
    have hfab := hmem.fab
    refine ⟨u, hu, ?_, ?_, ?_, ?_, ?_, ?_, ?_⟩
    · exact (congrArg Fab.disabled hfab).trans (by simp [State.contended, State.setLed])
    · rw [hled]
    · rw [hled]
    · rw [hled, at_led]
    · exact hquiet.convs.trans (at_convs s t)
    · exact hquiet.dacs.trans (at_dacs s t)
    · exact (congrArg Fab.frames hfab).trans (by simp [State.contended, State.setLed])

end Sys2Proof.Machine

/-! PROOFS. The memory commands (09 R259-R264; 12 R356): the scratchpad after MEM_COPY_IN and MEM_ATOMIC, byte by byte, and the state in
which a corrected word is no longer the word that stood there; two of the statements of 09_fabric_memory.md. -/

namespace Sys2Proof.Machine

/-! ### What dispatch and completion leave of the memory -/

theorem Tbl.mem_set {α : Type} [DecidableEq α] {d v : α} {k : Nat} {l : Tbl α} {e : Nat × α} (h : e ∈ Tbl.set d k v l) :
    e = (k, v) ∨ e ∈ l := by
  induction l with
  | nil =>
    unfold Tbl.set at h
    split at h
    · exact absurd h List.not_mem_nil
    · exact .inl (List.mem_singleton.1 h)
  | cons x l ih =>
    unfold Tbl.set at h
    split_ifs at h <;> simp only [List.mem_cons] at h ⊢ <;> tauto

/-- A slot whose command waits for no word of the scratchpad. -/
theorem setHnd_memAside {s : State} {n : Nat} {v : Hnd} (h : ¬ v.waits) : MemAside s (s.setHnd n v) := by
  refine ⟨rfl, rfl, fun _ => rfl, fun e he hw => ?_⟩
  obtain ⟨hmem, hst⟩ := List.mem_filter.1 he
  rcases Tbl.mem_set hmem with rfl | hold
  · exact absurd hw h
  · exact List.mem_filter.2 ⟨hold, hst⟩

/-- A slot with no work left waits for nothing. -/
theorem not_waits_of_none {h : Hnd} (hw : h.work = .none) : ¬ h.waits := fun ⟨_, _, _, e⟩ => by simp [hw] at e

theorem setCq_memAside (s : State) (q : Nat) (c : Cq) : MemAside s (s.setCq q c) := .of_eq rfl rfl rfl

theorem post_memAside (s : State) (q tag handle kind status r0 r1 : Nat) (irq : Bool) :
    MemAside s (s.post q tag handle kind status r0 r1 irq) := by
  have h a b c := (hostWrite_memAside s a b).trans (setCq_memAside (s.hostWrite a b) q c)
  exact .ite ((h _ _ _).trans (raiseVec_memAside ..)) (h _ _ _)

theorem accept_memAside (s : State) (d : Desc) (a : Bytes) (slot : Nat) : MemAside s (s.accept d a slot) := by
  unfold State.accept
  exact ((((setHnd_memAside (not_waits_of_none (by rfl))).trans (chip_memAside _ _ (by rfl))).trans (setCq_memAside _ _ _)).trans
    ((bump_memAside _ _ _).trans (bump_memAside _ _ _))).trans (post_memAside ..)

theorem at_memAside (s : State) (t : Nat) : MemAside s (s.at t) :=
  ⟨at_localMode s t, by rw [at_fab], fun _ => by rw [at_fab], fun e he _ => by rwa [State.inFlight, at_chip] at he⟩

theorem admitted_memAside (s : State) (d : Desc) (slot : Nat) (a : Bytes) : MemAside s (s.admitted d slot a) :=
  ((at_memAside s d.t).trans (setCq_memAside ..)).trans (accept_memAside ..)

theorem release_memAside (s : State) (slot : Nat) : MemAside s (s.release slot) :=
  (setHnd_memAside (not_waits_of_none rfl)).trans (chip_memAside _ _ rfl)

theorem final1_memAside (s : State) (slot obj status r0 r1 : Nat) : MemAside s (s.final1 slot obj status r0 r1) := by
  have hposted : MemAside s (if (s.hnd slot).discard then s
      else s.post (s.hnd slot).queue (s.hnd slot).tag ((s.hnd slot).value slot) 2 status (r0 % 2 ^ 64) (r1 % 2 ^ 64) (bit (s.hnd slot).flags 1)) :=
    .ite (.refl s) (post_memAside ..)
  have hended (u : State) (hu : MemAside s u) : MemAside s (if (s.hnd slot).discard then u
      else u.setCq (s.hnd slot).queue ((u.cq (s.hnd slot).queue).ended slot)) := .ite hu (hu.trans (setCq_memAside ..))
  have h := hended _ hposted
  exact .ite (h.trans (release_memAside _ slot)) (h.trans (setHnd_memAside (not_waits_of_none rfl)))

theorem finalWaiters_memAside (n slot status : Nat) (s : State) : MemAside s (State.finalWaiters n slot status s) := by
  induction n generalizing slot status s with
  | zero => exact .refl s
  | succ n ih => exact .foldl (fun s w => (final1_memAside s w 0 stOK status 0).trans (ih ..)) _ s

theorem final_memAside (s : State) (slot status r0 r1 : Nat) : MemAside s (s.final slot status r0 r1) := by
  have hcount : MemAside s (s.countSysFail slot status) := .ite (bump_memAside ..) (.refl s)
  exact .ite (.of_eq rfl rfl rfl) (.ite (.refl s) (.ite (hcount.trans (chip_memAside _ _ rfl))
    ((hcount.trans (final1_memAside ..)).trans (finalWaiters_memAside ..))))

theorem countDma_memAside (s : State) (a len : Nat) : MemAside s (s.countDma a len) := .foldl (fun s _ => bumpN_memAside s _ 1 _) _ s

/-! ### Memory commands that wait -/

/-- No command waits for a word of the scratchpad. -/
def State.noneWaits (s : State) : Prop := ∀ e ∈ s.inFlight, ¬ e.2.waits

theorem noneWaits_iff (s : State) : s.noneWaits ↔ ∀ e ∈ s.inFlight, ∀ x y z, e.2.work ≠ .mem x y z := by
  simp [State.noneWaits, Hnd.waits]

theorem MemAside.noneWaits {s t : State} (h : MemAside s t) (hs : s.noneWaits) : t.noneWaits :=
  fun e he hw => hs e (h.waiting e he hw) hw

theorem memBehind_of_noneWaits {s : State} (slot : Nat) (h : s.noneWaits) : s.memBehind slot = false := by
  refine List.any_eq_false.2 fun e he => ?_
  cases hw : e.2.work with
  | mem a done c => exact absurd ⟨a, done, c, hw⟩ (h e he)
  | _ => simp

/-- A fold of rounds none of which does anything. -/
theorem foldl_idle {α : Type} {f : State → α → State} {l : List α} {s : State} (h : ∀ x ∈ l, f s x = s) : l.foldl f s = s := by
  induction l with
  | nil => rfl
  | cons x l ih =>
    rw [List.foldl_cons, h x List.mem_cons_self]
    exact ih fun y hy => h y (List.mem_cons_of_mem x hy)

/-- With no memory command waiting, none goes on. -/
theorem memNext_of_noneWaits {s : State} (h : s.noneWaits) : s.memNext = s := by
  refine foldl_idle fun e he => ?_
  have hin := (sortBy_perm _ s.inFlight).mem_iff.1 he
  cases hw : e.2.work with
  | mem a done c => exact absurd ⟨a, done, c, hw⟩ (h e hin)
  | _ => rfl

/-! ### MEM_COPY_IN and MEM_ATOMIC (09 R260, R263; 12 R356) -/

/-- A transfer none of whose banks has a property is stopped by none. -/
theorem memStop_none {a len : Nat} {p : Nat → Bool} (h : ∀ b, a / 32768 ≤ b → 32768 * b < a + len → p b = false) :
    memStop a len p = len := by
  have hnone : ((List.range 64).filter fun b => decide (a / 32768 ≤ b) && decide (32768 * b < a + len)).find? p = none := by
    refine List.find?_eq_none.2 fun b hb => ?_
    simp only [List.mem_filter, Bool.and_eq_true, decide_eq_true_eq] at hb
    simp [h b hb.2.1 hb.2.2]
  rw [memStop, hnone]

/-- A transfer over banks that serve, with a grant for every word and no word in error, moves all its bytes and ends OK. -/
theorem memGo_granted {s : State} {a len granted : Nat} (slot : Nat) (cmd : Instr) (move : Nat → State → State) (hg : len ≤ 4 * granted)
    (hb : ∀ b, a / 32768 ≤ b → 32768 * b < a + len → (s.block b).quarantined = false ∧ (s.block b).stopped = false) :
    s.memGo slot cmd a len 0 granted none move = ((move len s).countDma a len).final slot stOK len 0 := by
  have hquar := memStop_none fun b h1 h2 => (hb b h1 h2).1
  have hstop := memStop_none fun b h1 h2 => (hb b h1 h2).2
  simp [State.memGo, hquar, hstop, hg]

/-- A MEM_COPY_IN that waits for nothing: its bytes written, its words counted, its FINAL. -/
theorem bodyMemCopy_in {s : State} {slot granted : Nat} {d : Desc} {data a : Bytes} (hhost : fld a 0 8 % 4 = 0) (hsp : fld a 8 4 % 4 = 0)
    (hlen : fld a 12 4 % 4 = 0) (hbuf : s.bufOk (fld a 0 8) (fld a 12 4) = true) (hpos : fld a 12 4 ≠ 0)
    (hend : fld a 8 4 + fld a 12 4 ≤ 2097152) (hg : fld a 12 4 ≤ 4 * granted) (hfirst : s.memBehind slot = false)
    (hb : ∀ b, fld a 8 4 / 32768 ≤ b → 32768 * b < fld a 8 4 + fld a 12 4 → (s.block b).quarantined = false ∧ (s.block b).stopped = false) :
    bodyMemCopy (.memCopyIn d data granted) slot a s =
      ((((s.spWrite (fld a 8 4) ((s.hostRead (fld a 0 8) (fld a 12 4) data).take (fld a 12 4))).countDma (fld a 8 4) (fld a 12 4)).final
        slot stOK (fld a 12 4) 0).memNext) := by
  have hrun := memGo_granted slot (.memCopyIn d data granted)
    (fun fin s' => s'.spWrite (fld a 8 4) ((s.hostRead (fld a 0 8) (fld a 12 4) data).take fin)) hg hb
  simp [bodyMemCopy, State.memRun, hhost, hsp, hlen, hbuf, hpos, Nat.not_lt.2 hend, hfirst, hrun]

/-- A MEM_ATOMIC that waits for nothing and finds no error: the word written, the access counted, its FINAL with the old word. -/
theorem bodyMemAtomic_granted {s : State} {slot : Nat} {d : Desc} {a : Bytes} (hop : byteAt a 0 ≤ 1) (hal : fld a 4 4 % 4 = 0)
    (hend : fld a 4 4 + 4 ≤ 2097152) (hfirst : s.memBehind slot = false) (hq : (s.block (fld a 4 4 / 32768)).quarantined = false)
    (hs : (s.block (fld a 4 4 / 32768)).stopped = false) :
    bodyMemAtomic (.memAtomic d true 0) slot a s =
      ((((s.spPut (fld a 4 4) (atomicNew (2 + byteAt a 0) (s.spWord (fld a 4 4)) (fld a 8 4))).bump (uBk (fld a 4 4 / 32768)) 1).final
        slot stOK (s.spWord (fld a 4 4)) 0).memNext) := by
  simp [bodyMemAtomic, State.memRun, Nat.not_lt.2 hop, hal, Nat.not_lt.2 hend, hfirst, hq, hs]

/-! ### Bytes of the scratchpad (09 R259) -/

theorem spRead_one (s : State) (x : Nat) : s.spRead x 1 = [Tbl.get 0 x s.fab.spad] := rfl

theorem Tbl.get_setRun_self {α : Type} [DecidableEq α] {d : α} {k i : Nat} {vs : List α} {l : Tbl α} (hi : i < vs.length)
    (h : Tbl.wf d l = true) : Tbl.get d (k + i) (Tbl.setRun d k vs l) = vs[i] := by
  induction vs generalizing k i l with
  | nil => exact absurd hi (Nat.not_lt_zero i)
  | cons v vs ih =>
    cases i with
    | zero =>
      rw [Nat.add_zero, Tbl.setRun, Tbl.get_setRun_other (.inl (Nat.lt_succ_self k))]
      exact Tbl.get_set_self h
    | succ i =>
      rw [Tbl.setRun, show k + (i + 1) = k + 1 + i by omega]
      exact ih (Nat.lt_of_succ_lt_succ hi) (Tbl.wf_set h)

theorem spWrite_spRead_self {s : State} {a i : Nat} {b : Bytes} (hi : i < b.length) (h : Tbl.wf 0 s.fab.spad = true) :
    (s.spWrite a b).spRead (a + i) 1 = (b.drop i).take 1 := by
  rw [spRead_one, List.drop_eq_getElem_cons hi]
  exact congrArg (fun v => [v]) (Tbl.get_setRun_self hi h)

theorem spWrite_spRead_other {s : State} {a x : Nat} {b : Bytes} (h : x < a ∨ a + b.length ≤ x) : (s.spWrite a b).spRead x 1 = s.spRead x 1 := by
  rw [spRead_one, spRead_one]
  exact congrArg (fun v => [v]) (Tbl.get_setRun_other h)

/-- Outside local-ring mode every read of the scratchpad is as it was. -/
theorem MemAside.spRead {s t : State} (h : MemAside s t) (hm : s.time.localMode = false) (x n : Nat) : t.spRead x n = s.spRead x n := by
  rw [State.spRead, State.spRead, h.spad hm]

theorem toLE_length (n v : Nat) : (toLE n v).length = n := by
  induction n generalizing v with
  | zero => rfl
  | succ n ih => simp [toLE, ih]

/-- What the operand of a row holds is what the block reads from the host, outside local-ring mode. -/
theorem hostRead_operand {s : State} {b : Bytes} (a : Nat) (hm : s.time.localMode = false) : s.hostRead a b.length b = b := by
  simp [State.hostRead, hm, slice, zeros]

/-- What counts and ends a command after a write of the scratchpad: its bytes stand, and with no command that waits nothing follows. -/
theorem spRead_after_write {s t : State} {a : Nat} {b : Bytes} (h : MemAside (s.spWrite a b) t) (hm : s.time.localMode = false)
    (hw : s.noneWaits) (x : Nat) : t.memNext.spRead x 1 = (s.spWrite a b).spRead x 1 := by
  rw [memNext_of_noneWaits (h.noneWaits hw)]
  exact h.spRead hm x 1

/-- Settles O19: the command is admitted and runs at once, since no memory command waits; what follows its write leaves the scratchpad
as it is (`spRead_after_write`). -/
theorem memCopyWritesItsBytesOnly : Obligations.MemCopyWritesItsBytesOnly := by
  refine ⟨?_, ?_⟩
  · rintro s d data granted slot a len sp hadm rfl rfl hhost hsp hlen hm hpos hend hg hwf hdata hnone hb
    have hadmit := admitted_memAside s d slot a
    have hm' := hadmit.mode.trans hm
    have hw := hadmit.noneWaits ((noneWaits_iff s).2 hnone)
    have hbody := bodyMemCopy_in (d := d) (data := data) hhost hsp hlen (by rw [State.bufOk, hm']; rfl) hpos hend hg
      (memBehind_of_noneWaits slot hw) (by simpa using hb)
    rw [← hdata, hostRead_operand _ hm', List.take_length] at hbody
    have hread := spRead_after_write ((countDma_memAside ((s.admitted d slot a).spWrite (fld a 8 4) data) (fld a 8 4) data.length).trans
      (final_memAside _ slot stOK data.length 0)) hm' hw
    refine ⟨_, (command_admitted hadm rfl rfl rfl).trans (congrArg _ hbody), fun i hi => ?_, fun x hx => ?_⟩
    · rw [hread]
      exact spWrite_spRead_self (hdata ▸ hi) (by rwa [hadmit.spad hm])
    · rw [hread, spWrite_spRead_other (hdata ▸ hx), hadmit.spRead hm]
  · rintro s d slot a at_ hadm hbad rfl hop hal hend hnone hm hq hs
    have hadmit := admitted_memAside s d slot a
    have hm' := hadmit.mode.trans hm
    have hw := hadmit.noneWaits ((noneWaits_iff s).2 hnone)
    have hbody := bodyMemAtomic_granted (s := s.admitted d slot a) (slot := slot) (d := d) hop hal hend (memBehind_of_noneWaits slot hw)
      (by simpa using hq) (by simpa using hs)
    have hread (v old : Nat) := spRead_after_write (a := fld a 4 4) (b := toLE 4 v)
      ((bump_memAside _ (uBk (fld a 4 4 / 32768)) 1).trans (final_memAside _ slot stOK old 0)) hm' hw
    refine ⟨_, (command_admitted hadm rfl hbad rfl).trans (congrArg _ hbody), fun x hx => ?_⟩
    rw [State.spPut, hread, spWrite_spRead_other (by rwa [toLE_length]), hadmit.spRead hm]

/-! ### A corrected word in local-ring mode (09 R264; 10 R286; 11 R316, R324) -/

/-- Local-ring mode, with its rings in the ring area: the management event ring begins at the word 0x1F8000, and bank 63 has counted
corrected words up to one short of the counter's wrap. Queue 0 holds a MEM_ATOMIC that adds 0 to that word. -/
def ringOnWord : State := { State.reset with
  time := { timebase := 5, running := true, step := 10, done := true, localMode := true }
  chip := { persona := 1, freeSlots := [0], counters := [(16 * uBk 63 + 2, { val := 2 ^ 48 - 1 })] }
  fab := { gated := false, spad := [(0x1F8400, 0x02), (0x1F8401, 0x0A), (0x1F8402, 0x08), (0x1F8415, 0x80), (0x1F8416, 0x1F)] }
  host := { cqs := [(0, { enable := true, sqBase := 0x1F8400, cqBase := 0x1F8800, sqTail := 1 })], me := { enable := true, base := 0x1F8000 } } }

/-- The row of that command. -/
def ringOnWordDesc : Desc :=
  { t := 5, queue := 0, opcode := 0x0A02, flags := 8, tag := 0, argAddr := 0, inl := [], args := [] }

/-- Its record: ADD at 0x1F8000. -/
def ringOnWordRecord : Bytes := [0, 0, 0, 0, 0, 0x80, 0x1F, 0, 0, 0, 0, 0, 0, 0, 0, 0]

/-- The state is one that the invariant of the block allows. -/
theorem ringOnWord_legal : Legal ringOnWord := by
  unfold Legal
  decide +kernel

theorem ringOnWord_admits : Admits ringOnWord 0x0A02 ringOnWordDesc 0 ringOnWordRecord := by
  unfold Admits
  decide +kernel

/-- The word at 0x1F8000 of the state that an outcome answers. -/
def wordAnswered : Host.Outcome State Fault Refusal → Nat
  | .next u => u.spWord 0x1F8000
  | _ => 0

/-- Refutes O38: its clause on a corrected word takes the old word from before the correction is counted. In `ringOnWord` that count
wraps its counter; the event of the wrap is written into the ring area, on the very word, and MEM_ATOMIC works on what then stands
there: the low word of the event's timestamp, 5, and not 0. -/
theorem not_memoryCommandsComplete : ¬ Obligations.MemoryCommandsComplete := by
  rintro ⟨-, -, -, -, hatomic, -⟩
  obtain ⟨-, hcorrected, -, -⟩ := hatomic ringOnWord ringOnWordDesc 0 ringOnWordRecord 0x1F8000 _ _ ringOnWord_admits
    (by decide +kernel) (by decide +kernel) (by decide +kernel) (by decide +kernel) (by decide +kernel) (by decide +kernel)
    (by decide +kernel) (by decide +kernel) rfl rfl
  exact absurd (congrArg wordAnswered hcorrected) (by decide +kernel)

end Sys2Proof.Machine

/-! PROOFS. Counters (10 R286), the idle step (10 R272) and the compare units (10 R277; 18 R471, R480, R484): three of the statements of
10_islands_sheaf.md. -/

namespace Sys2Proof.Machine

/-! ### The idle step (10 R272; log 1) -/

theorem tick_runs {s : State} (hr : s.time.running = true) (ht : s.time.timebase + 1 < 2 ^ 64) :
    s.tick = { s with time := { s.time with timebase := s.time.timebase + 1 } } := by
  rw [State.tick, if_pos hr, Nat.mod_eq_of_lt ht]

theorem tick_stands {s : State} (hr : s.time.running = false) : s.tick = s := if_neg (by simp [hr])

/-- Settles O2: with no command to run, a step is the tick. -/
theorem emptyQueueTicks : Obligations.EmptyQueueTicks := by
  intro s hp
  rw [step_nil hp]
  exact ⟨fun hr ht => congrArg _ (tick_runs hr ht), fun hr => congrArg _ (tick_stands hr)⟩

/-! ### Counters (10 R286) -/

theorem ctr_setCtr_self {s : State} {u k : Nat} {v : Ctr} (h : Tbl.wf {} s.chip.counters = true) : (s.setCtr u k v).ctr u k = v :=
  Tbl.get_set_self h

theorem ctr_setCtr_other {s : State} {u k j m : Nat} {v : Ctr} (h : 16 * j + m ≠ 16 * u + k) : (s.setCtr u k v).ctr j m = s.ctr j m :=
  Tbl.get_set_other h

theorem Ctr.add_fits {c : Ctr} {n : Nat} (h : c.val + n < 2 ^ 48) : c.add false n = { c with val := c.val + n } := by
  simp only [Ctr.add, Bool.false_eq_true, if_false, Nat.mod_eq_of_lt h, decide_eq_false (Nat.not_le.2 h), Bool.or_false]

theorem Ctr.add_wraps {c : Ctr} {n : Nat} (h : 2 ^ 48 ≤ c.val + n) : c.add false n = { val := (c.val + n) % 2 ^ 48, flag := true } := by
  simp only [Ctr.add, Bool.false_eq_true, if_false, decide_eq_true h, Bool.or_true]

/-- A statistics counter that has room, and any error counter, counts and logs nothing. -/
theorem bumpN_quietly {s : State} {u k n : Nat} (h : isErrCtr u k = true ∨ (s.ctr u k).val + n < 2 ^ 48) :
    s.bumpN u k n = s.setCtr u k ((s.ctr u k).add (isErrCtr u k) n) := by
  refine if_neg ?_
  rcases h with he | hn
  · simp [State.bumpRaw, he]
  · simp only [State.bumpRaw, decide_eq_false (Nat.not_le.2 hn), Bool.and_false, Bool.false_eq_true, not_false_eq_true]

/-- A statistics counter that passes 2^48 - 1 counts, and COUNTER_WRAP is logged. -/
theorem bumpN_wraps {s : State} {u k n : Nat} (he : isErrCtr u k = false) (h : 2 ^ 48 ≤ (s.ctr u k).val + n) :
    s.bumpN u k n = (s.setCtr u k ((s.ctr u k).add false n)).log 0x107 4 u k 0 := by
  rw [State.bumpN, if_pos (by simp only [State.bumpRaw, he, decide_eq_true h, Bool.not_false, Bool.and_self])]
  simp only [State.bumpRaw, he]

/-- Two readings of a statistics counter differ, modulo 2^48, by what was counted between them. -/
theorem Ctr.add_difference {c : Ctr} {n : Nat} (hc : c.val < 2 ^ 48) (hn : n < 2 ^ 48) :
    ((c.add false n).val + 2 ^ 48 - c.val) % 2 ^ 48 = n := by
  have hval : (c.add false n).val = (c.val + n) % 2 ^ 48 := rfl
  rw [hval]
  omega

/-- Settles O16: `bumpN_quietly` and `bumpN_wraps` say what one count does, `Ctr.add` what becomes of its value and its flag. -/
theorem countersWrapAndSaturate : Obligations.CountersWrapAndSaturate := by
  refine ⟨fun s u k n hw he => ⟨fun hfit => ?_, fun hwrap => ?_⟩, fun s u k n hw he => ?_, fun c n => Ctr.add_difference⟩
  · rw [bumpN_quietly (.inr hfit), he, Ctr.add_fits hfit]
    exact ⟨ctr_setCtr_self hw, rfl, fun j m => ctr_setCtr_other⟩
  · rw [bumpN_wraps he hwrap, Ctr.add_wraps hwrap]
  · rw [bumpN_quietly (.inl he), he, ctr_setCtr_self hw]
    refine ⟨rfl, rfl, fun hflag => ?_, fun hpos hfull => ?_, fun j m => ctr_setCtr_other⟩
    · simp [Ctr.add, hflag]
    · simp [Ctr.add, hpos, hfull]

/-! ### What the guards of the rows read -/

@[simp] theorem at_running (s : State) (t : Nat) : (s.at t).time.running = s.time.running := by unfold State.at; split <;> rfl

/-! ### When a compare unit fires next (10 R277; 18 R484) -/

theorem Cmp.advance_ahead {c : Cmp} {now : Nat} (h : now < c.value) : c.advance now = c := if_pos h

theorem Cmp.advance_once {c : Cmp} {now : Nat} (h : c.value ≤ now) (hp : c.period = 0) : c.advance now = { c with armed := false } :=
  (if_neg (Nat.not_lt.2 h)).trans (if_pos hp)

theorem Cmp.advance_periods {c : Cmp} {now : Nat} (h : c.value ≤ now) (hp : c.period ≠ 0) :
    c.advance now = { c with value := c.value + ((now - c.value) / c.period + 1) * c.period } :=
  (if_neg (Nat.not_lt.2 h)).trans (if_neg hp)

/-- At its value a unit moves on by one period, or disarms. -/
theorem Cmp.advance_fired {c : Cmp} {now : Nat} (h : now = c.value) :
    c.advance now = if c.period = 0 then { c with armed := false } else { c with value := c.value + c.period } := by
  split
  case isTrue hp => exact c.advance_once h.ge hp
  case isFalse hp => rw [c.advance_periods h.ge hp, h, Nat.sub_self, Nat.zero_div, Nat.zero_add, Nat.one_mul]

/-! ### The registers of a compare unit (18 R471, R480, R484) -/

theorem cmpOff_hi (u : Nat) : cmpOff u + 4 = 0x1104 + 12 * u := by
  unfold cmpOff
  omega

/-- A write of a register of a unit that exists, with the host interface up. -/
theorem ifUnit_hostUp {p : Prop} [Decidable p] {s a b : State} (h : p) (hup : s.hostUp = true) :
    ifUnit (decide p) (if s.hostUp then a else b) = .next a := (ifUnit_of h _).trans (congrArg _ (if_pos hup))

/-- The write of a high half arms the unit with both halves, and it moves on where its time is past. -/
theorem writeCmpHi_eq (s : State) (u v : Nat) : s.writeCmpHi u v =
    s.setCmp u (({ s.cmp u with value := Tbl.get 0 (0x1104 + 12 * u) s.host.loHold + 2 ^ 32 * v, armed := true } : Cmp).advance s.now) := by
  rw [State.writeCmpHi, State.committed, cmpOff_hi]

/-! ### CMP_DISARM (18 R480) -/

/-- Bit `i` of a write of CMP_DISARM register `r`. -/
def State.disarmBit (r v : Nat) (s : State) (i : Nat) : State :=
  if bit v i then s.setCmp (32 * r + i) { s.cmp (32 * r + i) with armed := false } else s

theorem writeCmpArm_eq (s : State) (r v : Nat) : s.writeCmpArm r v = (List.range 32).foldl (State.disarmBit r v) s := rfl

theorem disarmBit_wf {s : State} (r v i : Nat) (h : Tbl.wf {} s.clk.cmp = true) : Tbl.wf {} (s.disarmBit r v i).clk.cmp = true := by
  unfold State.disarmBit
  split
  · exact Tbl.wf_set h
  · exact h

theorem disarmBit_cmp {s : State} (r v i k : Nat) (h : Tbl.wf {} s.clk.cmp = true) :
    (s.disarmBit r v i).cmp k = if k = 32 * r + i ∧ bit v i = true then { s.cmp k with armed := false } else s.cmp k := by
  unfold State.disarmBit
  by_cases hb : bit v i = true
  · by_cases hk : k = 32 * r + i
    · rw [if_pos hb, if_pos ⟨hk, hb⟩, hk]
      exact Tbl.get_set_self h
    · rw [if_pos hb, if_neg fun e => hk e.1]
      exact Tbl.get_set_other hk
  · rw [if_neg hb, if_neg fun e => hb e.2]

/-- The units whose bits are set among the places `is` are disarmed, and the others are as they were. -/
theorem disarmBits_cmp {s : State} (r v k : Nat) (is : List Nat) (h : Tbl.wf {} s.clk.cmp = true) :
    (is.foldl (State.disarmBit r v) s).cmp k =
      if ∃ i ∈ is, k = 32 * r + i ∧ bit v i = true then { s.cmp k with armed := false } else s.cmp k := by
  induction is generalizing s with
  | nil => simp
  | cons i is ih =>
    rw [List.foldl_cons, ih (disarmBit_wf r v i h), disarmBit_cmp r v i k h]
    simp only [List.exists_mem_cons_iff]
    by_cases hi : k = 32 * r + i ∧ bit v i = true
    · simp only [hi, true_and, true_or, if_true, ite_self]
    · simp only [hi, false_or, if_false]

/-- Disarming changes the compare units alone. -/
theorem disarmBits_frame {β : Type} (g : State → β) (hg : ∀ s u c, g (State.setCmp s u c) = g s) (r v : Nat) (is : List Nat) (s : State) :
    g (is.foldl (State.disarmBit r v) s) = g s := by
  refine foldl_frame g (fun s i => ?_) is s
  unfold State.disarmBit
  split
  · exact hg ..
  · rfl

/-! ### TIMEBASE_COMPARE (10 R277; 16 R436) -/

theorem timebaseCompare_idle {s : State} {t u : Nat} (hu : u < 64) (h : (s.at t).now ≠ (s.cmp u).value) :
    exec (.timebaseCompare t u) s = .next (s.at t) :=
  (ifUnit_of hu _).trans (congrArg _ (if_pos (.inr (.inr (by rwa [at_cmp])))))

theorem timebaseCompare_fires {s : State} {t u : Nat} (hu : u < 64) (harm : (s.cmp u).armed = true) (hrun : s.time.running = true)
    (h : (s.at t).now = (s.cmp u).value) :
    exec (.timebaseCompare t u) s = .next (if u = 63
      then { (s.at t).setCmp u ((s.cmp u).advance (s.at t).now) with out := s.out ++ [.event 3 u, .syncOut (s.syncPins 0)] }
      else { (s.at t).setCmp u ((s.cmp u).advance (s.at t).now) with out := s.out ++ [.event 3 u] }) := by
  change execTimebaseCompare t u s = _
  unfold execTimebaseCompare
  dsimp only
  rw [ifUnit_of hu, at_cmp, if_neg (by simp [harm, hrun, h])]
  simp [State.emit, State.syncPins]

/-- Settles O43: each write is one change of the unit, `Cmp.advance` says when it fires next, and `disarmBits_cmp` which units a write of
CMP_DISARM names. -/
theorem compareUnitsComplete : Obligations.CompareUnitsComplete := by
  refine ⟨?_, ?_, ?_, ?_, ?_, ?_⟩
  · intro s t u v hu hup
    refine (ifUnit_hostUp hu hup).trans ?_
    rw [State.writeCmpLo, cmpOff_hi, at_cmp, State.holdLo, State.setCmp_host, at_host]
  · rintro s t u v x hu hup rfl
    have hexec : exec (.cmpHiWrite t u v) s = .next ((s.at t).writeCmpHi u v.toNat) := ifUnit_hostUp hu hup
    rw [hexec, writeCmpHi_eq, at_cmp, at_host]
    exact ⟨fun h => congrArg _ (congrArg _ (Cmp.advance_ahead h)), fun h hp => congrArg _ (congrArg _ (Cmp.advance_once h hp)),
      fun h hp => congrArg _ (congrArg _ (Cmp.advance_periods h hp))⟩
  · intro s t u v hu hup
    refine (ifUnit_hostUp hu hup).trans ?_
    rw [State.writeCmpPeriod, at_cmp]
  · intro s t r v hr hup hwf
    have hcmp (k : Nat) := disarmBits_cmp (s := s.at t) r v.toNat k (List.range 32) (by rwa [at_clk])
    simp only [at_cmp, List.mem_range] at hcmp
    refine ⟨_, ifUnit_hostUp hr hup, fun i hi => ?_, fun k hk => ?_, ?_, ?_, ?_⟩ <;> rw [writeCmpArm_eq]
    · rw [hcmp]
      refine if_congr ⟨?_, fun hb => ⟨i, hi, rfl, hb⟩⟩ rfl rfl
      rintro ⟨j, -, hj, hb⟩
      rwa [Nat.add_left_cancel hj]
    · rw [hcmp, if_neg]
      rintro ⟨i, hi, rfl, -⟩
      omega
    · exact disarmBits_frame State.time (fun _ _ _ => rfl) ..
    · exact (disarmBits_frame State.convs (fun _ _ _ => rfl) ..).trans (at_convs s t)
    · exact (disarmBits_frame State.out (fun _ _ _ => rfl) ..).trans (at_out s t)
  · rintro s t u c hu harm hrun hval rfl
    rw [timebaseCompare_fires hu harm hrun hval, Cmp.advance_fired hval]
    exact ⟨fun h => congrArg _ (if_neg h), fun h => congrArg _ (if_pos h)⟩
  · intro s t u hu h
    exact timebaseCompare_idle hu h

end Sys2Proof.Machine

/-! PROOFS. The reference, SYNC_IN and re-phasing (10 R272-R276; 14 R399; 18 R480, R481): a statement of 10_islands_sheaf.md. -/

namespace Sys2Proof.Machine

/-! ### Folds that stay within one part of the state -/

/-- A fold each of whose rounds writes the part that `put` writes: so does the whole. -/
theorem foldl_within {α β : Type} {f : State → α → State} {put : State → β → State} {get : State → β} (hget : ∀ s, put s (get s) = s)
    (hput : ∀ s a b, put (put s a) b = put s b) (hf : ∀ s x, ∃ b, f s x = put s b) (l : List α) (s : State) :
    ∃ b, l.foldl f s = put s b := by
  induction l generalizing s with
  | nil => exact ⟨get s, (hget s).symm⟩
  | cons x l ih =>
    obtain ⟨b, hb⟩ := hf s x
    obtain ⟨b', hb'⟩ := ih (f s x)
    exact ⟨b', by rw [List.foldl_cons, hb', hb, hput]⟩

/-! ### The reference (10 R274; 18 R481) -/

/-- What a stopped bus leaves as it was of time, clocks and converters. -/
def State.timing (s : State) : StartUp × Clk × Tbl Conv := (s.time, s.clk, s.convs)

theorem Quiet.timing {s t : State} (h : Quiet s t) : t.timing = s.timing := by
  rw [State.timing, h.time, h.clk, h.convs, State.timing]

theorem endDacCmds_timing (s : State) (n status : Nat) : (s.endDacCmds n status).timing = s.timing :=
  (foldl_frame State.timing (fun _ _ => (final_quiet ..).timing) _ _).trans
    (foldl_frame State.timing (fun _ _ => (final_quiet ..).timing) (s.dac n).outs _)

theorem setDac_timing (s : State) (n : Nat) (v : Dac) : (s.setDac n v).timing = s.timing := rfl

theorem dacFault_timing (s : State) (n : Nat) : (s.dacFault n).timing = s.timing := by
  unfold State.dacFault
  split
  · rfl
  · dsimp only
    rw [setDac_timing, endDacCmds_timing]

theorem treesChanged_timing (old s : State) : (State.treesChanged old s).timing = s.timing := by
  unfold State.treesChanged State.busStopped
  refine foldl_frame State.timing (fun s n => ?_) _ s
  split
  · exact dacFault_timing s n
  · rfl

/-- The user PLLs that the declared reference takes out of R482 stop. -/
theorem stopUplls_within (ns : List Nat) (s : State) : ∃ l,
    ns.foldl (fun s n => let p := s.upll n; s.setUpll n { p with locked := p.locked && p.ok s.refKHz }) s =
      { s with clk := { s.clk with upll := l } } :=
  foldl_within (put := fun s l => { s with clk := { s.clk with upll := l } }) (get := fun s => s.clk.upll) (fun _ => rfl) (fun _ _ _ => rfl)
    (fun _ _ => ⟨_, rfl⟩) ns s

/-- A write of CLK_REFCTL sets the source and its frequency and drops the lock bit of the timebase PLL; the rest of the clocks but the
user PLLs, the timebase and the converters stay as they are. -/
theorem writeRefctl_timing {s : State} {v : Nat} (h : bits v 0 2 ≤ 1) : ∃ l, (s.writeRefctl v).timing =
    (s.time, { s.clk with refSource := bits v 0 2, refFreq := bits v 2 2, lock := s.clk.lock - 2 * bits s.clk.lock 1 1, upll := l }, s.convs) := by
  obtain ⟨l, hl⟩ := stopUplls_within (List.range 4) { s with clk := { s.clk with
    refSource := bits v 0 2, refFreq := bits v 2 2, lock := s.clk.lock - 2 * bits s.clk.lock 1 1 } }
  refine ⟨l, ?_⟩
  rw [State.writeRefctl, if_neg (Nat.not_lt.2 h), treesChanged_timing, hl]
  rfl

section

variable {s : State} {t : Nat}

theorem referenceSelect_eq (v : Word) (hup : (s.at t).hostUp = true) :
    exec (.referenceSelect t v) s = .next ((s.at t).writeRefctl v.toNat) := congrArg _ (if_pos hup)

theorem syncModeWrite_eq {v : Word} (hup : (s.at t).hostUp = true) (hv : bits v.toNat 0 2 ≤ 2) :
    exec (.syncModeWrite t v) s =
      .next { s.at t with clk := { s.clk with syncMode := bits v.toNat 0 2, syncLast := (s.at t).now } } := by
  rw [← at_clk s t]
  exact congrArg _ ((if_pos hup).trans (if_neg (Nat.not_lt.2 hv)))

theorem refLost_eq (hl : s.clk.refLost = false) (hr : s.time.running = true) : exec (.refLost t) s = .next (s.at t).loseRef :=
  congrArg _ (if_neg (by simp [hl, hr]))

theorem refRestored_eq (hr : s.time.running = true) (hl : s.clk.refLost = true) :
    exec (.refRestored t) s = .next { s.at t with clk := { s.clk with refLost := false, lock := Nat.lor s.clk.lock 2 } } := by
  rw [← at_clk s t]
  exact congrArg _ (if_neg (by simp [hl, hr]))

end

/-! ### What follows a step of the timebase (10 R276, R277) -/

/-- The armed compare units move on. -/
def State.cmpsMoveOn (s : State) : State :=
  (List.range 64).foldl (fun s u => let c := s.cmp u; if c.armed then s.setCmp u (c.advance s.now) else s) s

/-- The DDS keep their phase, and the channels await the new multiples of their period. -/
def State.dacsCarryOn (s : State) (old : Nat) : State :=
  (List.range 64).foldl (fun s n =>
    let d := s.dac n
    s.setDac n { d with dds := if d.dds.running then { d.dds with phase := d.dds.acc old, ref := s.now } else d.dds,
                        lastUpd := none, lastTick := none, lastConv := none }) s

/-- The converters that are not OFF wait for re-phasing. -/
def State.convsWait (s : State) : State :=
  (List.range 192).foldl (fun s c => let v := s.conv c; if v.cfg.mode = 0 then s else s.setConv c { v with rephase := true }) s

/-- The state in which the converter PLLs begin to re-phase. -/
def State.rephaseBegun (s : State) : State := { s with clk := { s.clk with rephasing := true } }

theorem stepped_eq (s : State) (old : Nat) : s.stepped old = (s.cmpsMoveOn.dacsCarryOn old).rephaseBegun.convsWait := by
  unfold State.stepped State.convsWait State.rephaseBegun State.dacsCarryOn State.cmpsMoveOn
  dsimp only

theorem cmpsMoveOn_within (s : State) : ∃ l, s.cmpsMoveOn = { s with clk := { s.clk with cmp := l } } := by
  refine foldl_within (put := fun s l => { s with clk := { s.clk with cmp := l } }) (get := fun s => s.clk.cmp) (fun _ => rfl)
    (fun _ _ _ => rfl) (fun s u => ?_) (List.range 64) s
  dsimp only
  split
  · exact ⟨_, rfl⟩
  · exact ⟨s.clk.cmp, rfl⟩

theorem dacsCarryOn_within (s : State) (old : Nat) : ∃ l, s.dacsCarryOn old = { s with dacs := l } :=
  foldl_within (put := fun s l => { s with dacs := l }) (get := State.dacs) (fun _ => rfl) (fun _ _ _ => rfl) (fun _ _ => ⟨_, rfl⟩)
    (List.range 64) s

theorem convsWait_within (s : State) : ∃ l, s.convsWait = { s with convs := l } := by
  refine foldl_within (put := fun s l => { s with convs := l }) (get := State.convs) (fun _ => rfl) (fun _ _ _ => rfl) (fun s c => ?_)
    (List.range 192) s
  dsimp only
  split
  · exact ⟨s.convs, rfl⟩
  · exact ⟨_, rfl⟩

/-- Compare units, channels and converters follow a step; re-phasing begins, and nothing else changes. -/
theorem stepped_within (s : State) (old : Nat) : ∃ cmps ds cs,
    s.stepped old = { s with clk := { s.clk with cmp := cmps, rephasing := true }, dacs := ds, convs := cs } := by
  obtain ⟨cmps, hcmps⟩ := cmpsMoveOn_within s
  obtain ⟨ds, hds⟩ := dacsCarryOn_within s.cmpsMoveOn old
  obtain ⟨cs, hcs⟩ := convsWait_within (s.cmpsMoveOn.dacsCarryOn old).rephaseBegun
  exact ⟨cmps, ds, cs, by rw [stepped_eq, hcs, hds, hcmps]; rfl⟩

theorem stepped_time (s : State) (old : Nat) : (s.stepped old).time = s.time := by
  obtain ⟨_, _, _, h⟩ := stepped_within s old
  rw [h]

/-! ### LOAD and CHECK edges of SYNC_IN (10 R275; 14 R399) -/

/-- The value that an edge in LOAD mode loads. -/
def State.presetTick (s : State) : Nat := (s.clk.tbPreset + Config.syncLatency) % 2 ^ 64

/-- The value that the timebase reaches by itself where an edge would load one. -/
def State.reachedTick (s : State) : Nat := (s.now + Config.syncLatency) % 2 ^ 64

/-- The timebase holds a loaded value, which the next edge is checked against. -/
def State.loaded (s : State) (new : Nat) : State :=
  { s with time := { s.time with timebase := new }, clk := { s.clk with syncLast := new } }

/-- SYNC_IN is in CHECK mode. -/
def State.checking (s : State) : State := { s with clk := { s.clk with syncMode := 2 } }

/-- An edge in LOAD mode after start-up. -/
def State.loadEdge (s : State) : State :=
  if s.loadTb.1.now = s.loadTb.2 then s.loadTb.1.checking else s.loadTb.1.checking.log 0x508 4 0 s.loadTb.2 s.loadTb.1.now

theorem loadTb_same {s : State} (h : s.presetTick = s.reachedTick) : s.loadTb = (s.loaded s.presetTick, s.reachedTick) :=
  congrArg (·, s.reachedTick) (if_pos h)

theorem loadTb_steps {s : State} (h : s.presetTick ≠ s.reachedTick) :
    s.loadTb = ((s.loaded s.presetTick).stepped s.reachedTick, s.reachedTick) := congrArg (·, s.reachedTick) (if_neg h)

theorem loadEdge_same {s : State} (h : s.presetTick = s.reachedTick) : s.loadEdge = (s.loaded s.presetTick).checking := by
  rw [State.loadEdge, loadTb_same h]
  exact if_pos h

/-- A step of the timebase is logged with its old and its new value. -/
theorem loadEdge_steps {s : State} (h : s.presetTick ≠ s.reachedTick) :
    s.loadEdge = ((s.loaded s.presetTick).stepped s.reachedTick).checking.log 0x508 4 0 s.reachedTick s.presetTick := by
  have hnow : ((s.loaded s.presetTick).stepped s.reachedTick).now = s.presetTick := by
    rw [State.now, stepped_time]
    rfl
  rw [State.loadEdge, loadTb_steps h]
  dsimp only
  rw [hnow]
  exact if_neg h

/-- Whatever it loads, an edge in LOAD mode sets the timebase and turns to CHECK mode. -/
theorem loadEdge_sets (s : State) : s.loadEdge.time.timebase = s.presetTick ∧ s.loadEdge.clk.syncMode = 2 ∧
    s.loadEdge.clk.syncLast = s.presetTick ∧ s.loadEdge.til = s.til := by
  by_cases h : s.presetTick = s.reachedTick
  · rw [loadEdge_same h]
    exact ⟨rfl, rfl, rfl, rfl⟩
  · obtain ⟨_, _, _, hstep⟩ := stepped_within (s.loaded s.presetTick) s.reachedTick
    rw [loadEdge_steps h, log_time, log_clk, log_til, hstep]
    exact ⟨rfl, rfl, rfl, rfl⟩

theorem loadEdge_rephases {s : State} (h : s.presetTick ≠ s.reachedTick) : s.loadEdge.clk.rephasing = true := by
  obtain ⟨_, _, _, hstep⟩ := stepped_within (s.loaded s.presetTick) s.reachedTick
  rw [loadEdge_steps h, log_clk, hstep]
  rfl

theorem checkSync_near {s : State} (h : s.now ≤ s.clk.tbPreset + 1) (h' : s.clk.tbPreset ≤ s.now + 1) :
    s.checkSync = { s with clk := { s.clk with syncLast := s.now } } := if_neg (by omega)

theorem checkSync_far {s : State} (h : s.now > s.clk.tbPreset + 1 ∨ s.clk.tbPreset > s.now + 1) :
    s.checkSync = (({ s with clk := { s.clk with syncLast := s.now } } : State).bump 0 7).log 0x50A 4 0
      (ofI 64 ((s.now : Int) - s.clk.tbPreset)) 0 := if_pos (by omega)

section

variable {s : State} {t : Nat}

/-- From step 7 on SYNC_IN is no longer under R399. -/
theorem syncBoot_after (hs : 7 ≤ s.time.step) : (s.at t).syncBoot = false := by
  rw [State.syncBoot, at_step, decide_eq_false (by omega : ¬ s.time.step ≤ 6), Bool.and_false]

/-- After start-up an edge acts by the mode. -/
theorem syncInEdge_eq (hr : s.time.running = true) (hs : 7 ≤ s.time.step) : exec (.syncInEdge t) s = .next (
    if s.clk.syncMode = 1 then (s.at t).loadEdge else if s.clk.syncMode = 2 then (s.at t).checkSync else s.at t) := by
  change execSyncInEdge t s = _
  unfold execSyncInEdge
  dsimp only
  rw [at_running, hr, syncBoot_after hs, at_clk, if_neg (by decide), if_neg (by decide)]
  split
  case h_1 h => rw [h]; rfl
  case h_2 h => rw [h]; rfl
  case h_3 h1 h2 => rw [if_neg h1, if_neg h2]

theorem syncInMissing_eq (hs : 7 ≤ s.time.step) (hm : s.clk.syncMode = 2) (hp : s.clk.syncPeriod ≠ 0)
    (h : 2 * s.clk.syncLast + 3 * s.clk.syncPeriod ≤ 2 * (s.at t).now) :
    exec (.syncInMissing t) s =
      .next ((({ s.at t with clk := { s.clk with syncLast := s.clk.syncLast + s.clk.syncPeriod } } : State).bump 0 7).log 0x50A 4 0 0 1) := by
  change execSyncInMissing t s = _
  unfold execSyncInMissing
  dsimp only
  rw [syncBoot_after hs, at_clk, if_neg (by simp only [hm, hp]; simpa using h)]

/-- With no converter waiting, re-phasing ends and no converter changes. -/
theorem timebaseRephase_idle (hr : s.clk.rephasing = true) (h : ∀ c < 192, (s.conv c).rephase = false) :
    exec (.timebaseRephase t) s = .next { s.at t with clk := { s.clk with rephasing := false } } := by
  change execTimebaseRephase t s = _
  unfold execTimebaseRephase
  dsimp only
  rw [at_clk, if_neg (by simp [hr])]
  refine congrArg _ (foldl_idle fun c hc => if_neg ?_)
  change ¬ ((s.at t).conv c).rephase = true
  simp [h c (List.mem_range.1 hc)]

end

/-- Settles O42: a write of CLK_REFCTL leaves time and converters (`writeRefctl_timing`), an edge after start-up acts by the mode
(`syncInEdge_eq`), and what a step of the timebase changes is said by `stepped_within`. -/
theorem timebaseEventsComplete : Obligations.TimebaseEventsComplete := by
  refine ⟨?_, ?_, ?_, ?_, ?_, ?_, ?_, ?_, ?_, ?_, ?_⟩
  · intro s t v hup hv
    obtain ⟨l, hl⟩ := writeRefctl_timing (s := s.at t) hv
    simp only [State.timing, Prod.mk.injEq, at_clk, at_convs] at hl
    obtain ⟨htime, hclk, hconvs⟩ := hl
    exact ⟨_, referenceSelect_eq v hup, by rw [hclk], by rw [hclk], by rw [hclk], htime, hconvs⟩
  · exact fun s t v => syncModeWrite_eq
  · intro s t hl hr
    rw [refLost_eq hl hr, State.loseRef, at_clk]
  · exact fun s t => refRestored_eq
  · exact fun s t => rfl
  · rintro s t new hr hs hm rfl
    have hnew : (s.at t).presetTick = (s.clk.tbPreset + Config.syncLatency) % 2 ^ 64 := by rw [State.presetTick, at_clk]
    obtain ⟨htime, hmode, hlast, htil⟩ := loadEdge_sets (s.at t)
    rw [← hnew]
    refine ⟨_, (syncInEdge_eq hr hs).trans (by rw [if_pos hm]), htime, hmode, hlast, htil.trans (at_til s t), loadEdge_rephases, fun h => ?_⟩
    rw [loadEdge_same h]
    exact ⟨at_convs s t, at_dacs s t, at_chip s t⟩
  · intro s t hr hs hm h h'
    rw [← at_clk s t] at h h'
    rw [syncInEdge_eq hr hs, hm, if_neg (by decide), if_pos rfl, checkSync_near h h', at_clk]
  · intro s t hr hs hm h
    rw [← at_clk s t] at h
    rw [syncInEdge_eq hr hs, hm, if_neg (by decide), if_pos rfl, checkSync_far h, at_clk]
  · intro s t hr hs hm
    rw [syncInEdge_eq hr hs, hm, if_neg (by decide), if_neg (by decide)]
  · exact fun s t _ => syncInMissing_eq
  · exact fun s t => timebaseRephase_idle

end Sys2Proof.Machine

/-! PROOFS. Sheaf snapshots (10 R271, R278-R285; 12 R349): a statement of 10_islands_sheaf.md. -/

namespace Sys2Proof.Machine

/-! ### A run of table entries, each changed in its place -/

theorem Tbl.wf_updRange {α : Type} [DecidableEq α] {d : α} (k n : Nat) (f : Nat → α → α) {l : Tbl α} (h : Tbl.wf d l = true) :
    Tbl.wf d ((List.range n).foldl (fun l i => Tbl.upd d (k + i) (f i) l) l) = true := by
  induction n with
  | zero => exact h
  | succ n ih =>
    rw [List.range_succ, List.foldl_append]
    exact Tbl.wf_set ih

/-- Every entry of the run is changed once, from what it was, and every other entry is as it was. -/
theorem Tbl.get_updRange {α : Type} [DecidableEq α] {d : α} (k n j : Nat) (f : Nat → α → α) {l : Tbl α} (h : Tbl.wf d l = true) :
    Tbl.get d j ((List.range n).foldl (fun l i => Tbl.upd d (k + i) (f i) l) l) =
      if k ≤ j ∧ j < k + n then f (j - k) (Tbl.get d j l) else Tbl.get d j l := by
  induction n with
  | zero => rw [if_neg (by omega)]; rfl
  | succ n ih =>
    rw [List.range_succ, List.foldl_append, List.foldl_cons, List.foldl_nil, Tbl.upd]
    by_cases hj : j = k + n
    · subst hj
      rw [if_neg (by omega)] at ih
      rw [Tbl.get_set_self (Tbl.wf_updRange k n f h), ih, if_pos (by omega), Nat.add_sub_cancel_left]
    · rw [Tbl.get_set_other hj, ih]
      exact if_congr (by omega) rfl rfl

/-! ### The cut of a unit (10 R278, R282) -/

/-- The snapshot once unit `u` has taken its cut. -/
def Snap.cutAt (p : Snap) (s : State) (u : Nat) : Snap :=
  { p with cut := p.cut ++ [u]
           shadow := (List.range (unitSlots u).1).foldl (fun sh k => Tbl.upd {} (16 * u + k) (fun _ => s.ctr u k) sh) p.shadow }

/-- The counters once unit `u` has cleared what the flags ask for. -/
def State.ctrsCleared (s : State) (flags u : Nat) : Tbl Ctr :=
  (List.range (unitSlots u).1).foldl (fun l k => Tbl.upd {} (16 * u + k) (clearCtr flags (isErrCtr u k)) l) s.chip.counters

theorem clearCtrs_eq (s : State) (flags u : Nat) (ks : List Nat) :
    ks.foldl (fun (s : State) k => s.setCtr u k (clearCtr flags (isErrCtr u k) (s.ctr u k))) s =
      { s with chip := { s.chip with
        counters := ks.foldl (fun l k => Tbl.upd {} (16 * u + k) (clearCtr flags (isErrCtr u k)) l) s.chip.counters } } := by
  induction ks generalizing s with
  | nil => rfl
  | cons k ks ih => exact ih _

/-- A cut changes the unit's counters and the snapshot, and nothing else. -/
theorem cutUnit_eq (s : State) (p : Snap) (u : Nat) : s.cutUnit p u =
    { s with chip := { s.chip with counters := s.ctrsCleared p.flags u }, sheaf := { s.sheaf with run := some (p.cutAt s u) } } := by
  unfold State.cutUnit
  dsimp only
  rw [clearCtrs_eq]
  rfl

section

variable {s : State} {p : Snap} {u : Nat}

theorem cutAt_shadow (j : Nat) (h : Tbl.wf {} p.shadow = true) : Tbl.get {} j (p.cutAt s u).shadow =
    if 16 * u ≤ j ∧ j < 16 * u + (unitSlots u).1 then s.ctr u (j - 16 * u) else Tbl.get {} j p.shadow :=
  Tbl.get_updRange _ _ j (fun k _ => s.ctr u k) h

theorem ctrsCleared_get (flags j : Nat) (h : Tbl.wf {} s.chip.counters = true) : Tbl.get {} j (s.ctrsCleared flags u) =
    if 16 * u ≤ j ∧ j < 16 * u + (unitSlots u).1 then clearCtr flags (isErrCtr u (j - 16 * u)) (Tbl.get {} j s.chip.counters)
    else Tbl.get {} j s.chip.counters :=
  Tbl.get_updRange _ _ j (fun k => clearCtr flags (isErrCtr u k)) h

/-! ### The token at a unit (10 R278-R283) -/

@[simp] theorem at_unitGated (s : State) (t u : Nat) : (s.at t).unitGated u = s.unitGated u := by simp [State.unitGated]

@[simp] theorem at_unitStopped (s : State) (t u : Nat) : (s.at t).unitStopped u = s.unitStopped u := by simp [State.unitStopped]

/-- The token of the running snapshot reaches a unit that has neither been cut nor noted absent, and that read-back does not stop. -/
structure TokenDue (s : State) (p : Snap) (u : Nat) : Prop where
  unit : u < 417
  run : s.sheaf.run = some p
  uncut : p.cut.contains u = false
  present : p.absent.contains u = false
  live : s.unitStopped u = false

theorem sheafToken_eq (t : Nat) (h : TokenDue s p u) : exec (.sheafToken t u) s = .next (
    if s.unitGated u then { s.at t with sheaf := { s.sheaf with run := some { p with absent := p.absent ++ [u] } } }
    else (s.at t).cutUnit p u) := by
  change execSheafToken t u s = _
  unfold execSheafToken
  dsimp only
  rw [ifUnit_of h.unit, at_sheaf, h.run]
  dsimp only
  rw [at_unitStopped, at_unitGated, h.uncut, h.present, h.live, if_neg (by decide)]

end

/-! ### The token ahead of a record (10 R271, R279) -/

theorem tokenFirst_cuts {s : State} {r : Rec} {p : Snap} (hrun : s.sheaf.run = some p) (he : r.epoch = p.epoch) (h0 : r.epoch ≠ 0)
    (hc : p.cut.contains (uDs r.stream) = false) : s.tokenFirst r = s.cutUnit p (uDs r.stream) := by
  unfold State.tokenFirst
  rw [hrun]
  exact if_neg (by rw [hc]; simp [← he, h0])

theorem tokenFirst_other {s : State} {r : Rec} {p : Snap} (hrun : s.sheaf.run = some p) (he : r.epoch ≠ p.epoch) : s.tokenFirst r = s := by
  unfold State.tokenFirst
  rw [hrun]
  exact if_pos (.inr (.inl he))

/-! ### SNAPSHOT (10 R278, R281; 12 R349) -/

/-- The Sheaf mechanism at a given state, everything else as it is. -/
def State.withSheaf (s : State) (v : Sheaf) : State := { s with sheaf := v }

/-- A snapshot that has been taken as epoch `e` joins those that wait. -/
def State.snapWaits (s : State) (slot e : Nat) (a : Bytes) : State :=
  s.withSheaf { s.sheaf with epoch := e, wait := s.sheaf.wait ++ [(slot, e, byteAt a 0, fld a 8 8)] }

theorem bodySnapshot_waits {s : State} {slot : Nat} {a : Bytes} (hlen : 53440 ≤ fld a 4 4) (hal : fld a 8 8 % 8 = 0)
    (hbuf : s.bufOk (fld a 8 8) (fld a 4 4) = true) :
    bodySnapshot slot a s = ((s.snapWaits slot ((s.sheaf.epoch + 1) % 2 ^ 32) a).setWork slot .snapshot).injectNext :=
  if_neg (not_or.2 ⟨Nat.not_lt.2 hlen, not_or.2 ⟨not_not.2 hal, by simp [hbuf]⟩⟩)

theorem injectNext_busy {s : State} (h : s.sheaf.run ≠ none) : s.injectNext = s := by
  unfold State.injectNext
  split
  case h_1 hrun _ => exact absurd hrun h
  case h_2 => rfl

theorem injectNext_first {v : Sheaf} {slot e flags addr : Nat} {l : List (Nat × Nat × Nat × Nat)} (s : State) (hrun : v.run = none)
    (hwait : v.wait = (slot, e, flags, addr) :: l) : (s.withSheaf v).injectNext = s.withSheaf { v with
      run := some { slot := slot, epoch := e, flags := flags, addr := addr, injected := s.now }, wait := l } := by
  unfold State.injectNext State.withSheaf
  dsimp only
  rw [hrun, hwait]
  rfl

theorem setWork_withSheaf (s : State) (slot : Nat) (w : Work) (v : Sheaf) : (s.withSheaf v).setWork slot w = (s.setWork slot w).withSheaf v := by
  unfold State.setWork
  split <;> rfl

theorem setWork_now (s : State) (slot : Nat) (w : Work) : (s.setWork slot w).now = s.now := by
  rw [State.now, setWork_time, State.now]

/-- With none running and none waiting, a snapshot that joins is injected at once. -/
theorem snapWaits_injected {s : State} {slot e : Nat} {a : Bytes} (hrun : s.sheaf.run = none) (hwait : s.sheaf.wait = []) :
    ((s.snapWaits slot e a).setWork slot .snapshot).injectNext = (s.withSheaf { s.sheaf with
      epoch := e, run := some { slot := slot, epoch := e, flags := byteAt a 0, addr := fld a 8 8, injected := s.now } }).setWork slot .snapshot := by
  rw [State.snapWaits, setWork_withSheaf, setWork_withSheaf, hwait, List.nil_append]
  refine (injectNext_first _ (by exact hrun) (by rfl)).trans ?_
  simp only [setWork_now, hwait]

theorem snapshot_eq {s : State} {d : Desc} {slot : Nat} {a : Bytes} (h : Admits s 0x0700 d slot a)
    (hb : firstBad a ((0, 0xFC) :: rsv 1 3) = none) (hwait : s.sheaf.wait.length < 16) (hlen : 53440 ≤ fld a 4 4) (hal : fld a 8 8 % 8 = 0)
    (hbuf : (s.admitted d slot a).bufOk (fld a 8 8) (fld a 4 4) = true) :
    exec (.snapshot d) s =
      .next ((((s.admitted d slot a).snapWaits slot ((s.sheaf.epoch + 1) % 2 ^ 32) a).setWork slot .snapshot).injectNext) := by
  have hpre : (if 16 ≤ (s.consumed d).sheaf.wait.length then some stBUSY else none) = none := by
    refine if_neg ?_
    rw [State.consumed, State.setCq_sheaf, at_sheaf]
    omega
  refine (command_admitted h rfl hb hpre).trans (congrArg _ ?_)
  rw [bodySnapshot_waits hlen hal hbuf, admitted_sheaf]

/-! ### The end of a snapshot (10 R280, R281, R284) -/

theorem endSnapshot_eq (s : State) (p : Snap) (status : Nat) : s.endSnapshot p status =
    (({ s.hostWrite p.addr (p.table s.now) with sheaf := { s.sheaf with run := none } } : State).final p.slot status p.epoch
      (p.absent.length + p.timedOut.length)).injectNext := by
  rw [State.endSnapshot, hostWrite_sheaf]

section

variable {s : State} {t : Nat} {p : Snap} (hrun : s.sheaf.run = some p) (hr : s.chip.restarting = false) (hf : s.chip.failed = false)

include hrun hr hf

theorem snapshotComplete_eq (h : p.missing = []) : exec (.snapshotComplete t) s = .next ((s.at t).endSnapshot p stOK) := by
  change execSnapshotComplete t s = _
  unfold execSnapshotComplete
  dsimp only
  rw [at_sheaf, hrun, at_chip]
  exact congrArg _ (if_neg (by simp [h, hr, hf]))

theorem sheafTimeout_eq (h : p.missing ≠ []) (hlate : p.injected + 250000 ≤ (s.at t).now) : exec (.sheafTimeout t) s =
    .next ((p.missing.foldl (fun s u => (s.bump 0 9).log 0x108 4 u p.epoch 0) (s.at t)).endSnapshot { p with timedOut := p.missing } stDEGRADED) := by
  change execSheafTimeout t s = _
  unfold execSheafTimeout
  dsimp only
  rw [at_sheaf, hrun, at_chip]
  exact congrArg _ (if_neg (by simp [h, hr, hf, Nat.not_lt.2 hlate]))

end

/-- Settles O44: an admitted snapshot joins those that wait and is injected where none runs, `cutUnit_eq` says what a cut changes, and the
end of a snapshot is `State.endSnapshot`. -/
theorem snapshotsComplete : Obligations.SnapshotsComplete := by
  refine ⟨?_, ?_, ?_, ?_, ?_, ?_, ?_⟩
  · rintro s d slot a e h hb hlen hal hbuf rfl
    refine ⟨fun hrun hwait => ?_, fun hrun hwait => ?_⟩
    · have hnone : s.sheaf.wait.length < 16 := by simp [hwait]
      rw [snapshot_eq h hb hnone hlen hal hbuf, snapWaits_injected, admitted_sheaf, admitted_now]
      · rfl
      · rwa [admitted_sheaf]
      · rwa [admitted_sheaf]
    · rw [snapshot_eq h hb hwait hlen hal hbuf, injectNext_busy, State.snapWaits, admitted_sheaf]
      · rfl
      · rw [setWork_sheaf, State.snapWaits, admitted_sheaf]
        exact hrun
  · intro s t u p hu hrun hcut habs hstop hgate
    rw [sheafToken_eq t ⟨hu, hrun, hcut, habs, hstop⟩, if_pos hgate]
  · intro s t u p hu hrun hcut habs hstop hgate hshadow hwf
    have hwf' : Tbl.wf {} (s.at t).chip.counters = true := by rwa [at_chip]
    have hexec := sheafToken_eq t ⟨hu, hrun, hcut, habs, hstop⟩
    rw [if_neg (by simp [hgate]), cutUnit_eq] at hexec
    refine ⟨_, p.cutAt (s.at t) u, hexec, rfl, rfl, rfl, rfl, fun k hk => ⟨?_, ?_⟩, fun i hi => ⟨?_, ?_⟩,
      at_convs s t, at_til s t, at_fab s t, at_host s t⟩
    · rw [cutAt_shadow _ hshadow, if_pos (by omega), Nat.add_sub_cancel_left, State.ctr, at_chip, State.ctr]
    · refine (ctrsCleared_get _ _ hwf').trans ?_
      rw [if_pos (by omega), Nat.add_sub_cancel_left, at_chip, State.ctr]
    · rw [cutAt_shadow _ hshadow, if_neg (by omega)]
    · refine (ctrsCleared_get _ _ hwf').trans ?_
      rw [if_neg (by omega), at_chip]
  · intro s r p hrun he h0 hc
    rw [tokenFirst_cuts hrun he h0 hc, cutUnit_eq]
    exact ⟨_, rfl, rfl, rfl, rfl⟩
  · exact fun s r p => tokenFirst_other
  · intro s t p hrun h hr hf
    rw [snapshotComplete_eq hrun hr hf h, endSnapshot_eq, at_sheaf]
  · exact fun s t p hrun h hlate hr hf => sheafTimeout_eq hrun hr hf h hlate

end Sys2Proof.Machine

/-! PROOFS. The dispatch of queue commands (11 R293-R295, R297-R299, R303, R305; 12 R332): every way in which a command is turned away,
and handles that name nothing. -/

namespace Sys2Proof.Machine

/-! ### Every outcome of a dispatch -/

/-- What becomes of a command whose descriptor `d` is consumed and of the form that 11 R293 asks: its record `a` is judged, then whether
the device is busy, its own check, and the free slots. -/
def State.judgeRecord (s : State) (op : Nat) (d : Desc) (a : Bytes) (bad : Bytes → Option Nat) (pre : State → Bytes → Option Nat) :
    State × Option (Nat × Bytes) :=
  match bad a with
  | some o => (s.reject d stBAD_ARG o, none)
  | none =>
    if s.busyFor op a then (s.reject d stBUSY 0, none)
    else match pre s a with
      | some st => (s.reject d st 0, none)
      | none =>
        match s.chip.freeSlots with
        | [] => (s.reject d stBUSY 0, none)
        | slot :: _ =>
          if (s.accept d a slot).husk.halted && lockedOps.contains op then ((s.accept d a slot).final slot stLOCKED 0 0, none)
          else (s.accept d a slot, some (slot, a))

section

variable {s : State} {op : Nat} {d : Desc} {bad : Bytes → Option Nat} {pre : State → Bytes → Option Nat}

theorem dispatch_idle (hm : (s.at d.t).mayDispatch (s.atDesc d) = false) : s.dispatch op d bad pre = (s.at d.t, none) := by
  have hm' : (s.at d.t).mayDispatch ((s.at d.t).fetched d) = false := hm
  simp [State.dispatch, hm']

theorem dispatch_unknown (hm : (s.at d.t).mayDispatch (s.atDesc d) = true)
    (hk : (opcodes.any fun e => e.1 == (s.atDesc d).opcode) = false) : s.dispatch op d bad pre = (s.rejected d stBAD_OPCODE 0, none) := by
  unfold State.dispatch
  dsimp only
  rw [show (s.at d.t).fetched d = s.atDesc d from rfl, hk, if_neg (by simp [hm])]
  rfl

/-- A queue that may dispatch the row's own command judges the descriptor, with the queue's head moved on. -/
theorem dispatch_badDescriptor {o : Nat} (hm : (s.at d.t).mayDispatch (s.atDesc d) = true) (ho : (s.atDesc d).opcode = op)
    (hk : (opcodes.any fun e => e.1 == op) = true) (hd : (s.at d.t).descBad (s.atDesc d) (argLen op) = some o) :
    s.dispatch op d bad pre = (s.rejected d stBAD_ARG (o + 65536), none) := by
  have hd' : (s.consumed d).descBad (s.atDesc d) (argLen op) = some o := hd
  unfold State.dispatch
  dsimp only
  rw [show (s.at d.t).fetched d = s.atDesc d from rfl, ho, hk, if_neg (by simp [hm]), if_neg (by decide),
    show (s.at d.t).setCq (s.atDesc d).queue _ = s.consumed d from rfl, hd']
  rfl

variable {a : Bytes}

theorem dispatch_judged (h : Judged s op d a) (hk : (opcodes.any fun e => e.1 == op) = true) :
    s.dispatch op d bad pre = (s.consumed d).judgeRecord op (s.atDesc d) a bad pre := by
  obtain ⟨-, ho, hm, hd, rfl⟩ := h
  have hd' : (s.consumed d).descBad (s.atDesc d) (argLen op) = none := hd
  unfold State.dispatch
  dsimp only
  rw [show (s.at d.t).fetched d = s.atDesc d from rfl, ho, hk, if_neg (by simp [hm]), if_neg (by decide),
    show (s.at d.t).setCq (s.atDesc d).queue _ = s.consumed d from rfl, hd']
  rfl

/-- The consumed descriptor leaves what makes a device busy as it was. -/
theorem consumed_busyFor : (s.consumed d).busyFor op a = (s.at d.t).busyFor op a := rfl

@[simp] theorem consumed_chip : (s.consumed d).chip = s.chip := at_chip s d.t

theorem judgeRecord_bad {o : Nat} (hb : bad a = some o) :
    s.judgeRecord op d a bad pre = (s.reject d stBAD_ARG o, none) := by
  rw [State.judgeRecord, hb]

theorem judgeRecord_busy (hb : bad a = none) (hy : s.busyFor op a = true) :
    s.judgeRecord op d a bad pre = (s.reject d stBUSY 0, none) := by
  rw [State.judgeRecord, hb]
  exact if_pos hy

theorem judgeRecord_full (hb : bad a = none) (hy : s.busyFor op a = false) (hp : pre s a = none) (hf : s.chip.freeSlots = []) :
    s.judgeRecord op d a bad pre = (s.reject d stBUSY 0, none) := by
  rw [State.judgeRecord, hb]
  simp only [hy, hp, hf]
  rfl

end

section

variable {s u : State} {op : Nat} {d : Desc} {bad : Bytes → Option Nat} {pre : State → Bytes → Option Nat}
  {body : Nat → Bytes → State → State}

/-- A command that dispatch does not let in runs no body. -/
theorem command_of_none (h : s.dispatch op d bad pre = (u, none)) : s.command op d bad pre body = u := by
  unfold State.command
  rw [h]

theorem command_of_some {slot : Nat} {a : Bytes} (h : s.dispatch op d bad pre = (u, some (slot, a))) :
    s.command op d bad pre body = body slot a u := by
  unfold State.command
  rw [h]

/-- A command that its queue may dispatch, whose record no check turns away, is admitted on the first free slot. -/
theorem Judged.admits {slot : Nat} {a : Bytes} {rest : List Nat} (h : Judged s op d a) (hy : (s.at d.t).busyFor op a = false)
    (hf : s.chip.freeSlots = slot :: rest) (hh : s.husk.halted = false) : Admits s op d slot a := by
  obtain ⟨hq, ho, hm, hd, ha⟩ := h
  exact ⟨hq, ho, hm, hd, ha, hy, by rw [at_chip, hf]; rfl, hh⟩

end

/-- Settles O9: one lemma for each outcome of `State.dispatch`; past the descriptor, `State.judgeRecord` is the order of the checks. -/
theorem rejectionsOfEveryCommand : Obligations.RejectionsOfEveryCommand := by
  refine ⟨?_, ?_, ?_, ?_⟩
  · intro s op d bad pre body hm
    exact command_of_none (dispatch_idle hm)
  · intro s op d bad pre body hm hk
    exact command_of_none (dispatch_unknown hm hk)
  · intro s op d bad pre body o hm ho hk hd
    exact command_of_none (dispatch_badDescriptor hm ho hk hd)
  · intro s op d bad pre body a h hk
    refine ⟨fun o hb => ?_, fun hb hy => ?_, fun hb hy => ⟨fun st hp => ?_, fun hp hf => ?_, fun slot rest hp hf hh => ?_⟩⟩
    · exact command_of_none ((dispatch_judged h hk).trans (judgeRecord_bad hb))
    · exact command_of_none ((dispatch_judged h hk).trans (judgeRecord_busy hb hy))
    · exact command_of_none (dispatch_rejected h hk hb hy hp)
    · exact command_of_none ((dispatch_judged h hk).trans (judgeRecord_full hb hy hp (by rw [consumed_chip, hf])))
    · exact command_of_some (dispatch_admitted (h.admits hy hf hh) hk hb hp)

/-! ### Handles that name nothing (11 R305) -/

theorem names_false_iff (s : State) (v : Nat) : s.names v = false ↔ (s.hnd (v % 4096)).st = 0 ∨ (s.hnd (v % 4096)).gen ≠ v / 4096 := by
  simp only [State.names, Bool.and_eq_false_iff, decide_eq_false_iff_not, not_not, ne_eq]

@[simp] theorem consumed_names (s : State) (d : Desc) (v : Nat) : (s.consumed d).names v = s.names v := by
  unfold State.names State.hnd
  rw [consumed_chip]

/-- A handle that names nothing names no object. -/
theorem namesObj_stale {s : State} {v k : Nat} (h : s.names v = false) : s.namesObj v k = false := by
  simp [State.namesObj, h]

theorem graphPre_stale {s : State} {a : Bytes} (h : s.names (fld a 0 2) = false) : graphPre s a = some stBAD_HANDLE := by
  simp [graphPre, namesObj_stale h, h]

/-- Settles O12: a handle that names nothing fails the command's own check, and `queueCmd_rejected` says that nothing else happens. -/
theorem staleHandlesRejected : Obligations.StaleHandlesRejected := by
  refine ⟨names_false_iff, ?_, ?_, ?_, ?_, ?_, ?_, ?_, ?_⟩
  · intro s d a h hb hy hkind hv
    exact queueCmd_rejected h rfl (by simpa [hkind] using hb) hy (if_pos (by simp [hkind, hv]))
  · intro s d a h hb hy hv
    exact queueCmd_rejected h rfl hb hy (by simp [hv])
  · intro s d a h hb hy hv
    exact queueCmd_rejected h rfl hb hy (graphPre_stale (by rwa [consumed_names]))
  · intro s d im ms a h hb hy hv
    exact queueCmd_rejected h rfl hb hy (graphPre_stale (by rwa [consumed_names]))
  · intro s d pins a h hb hy hv
    exact queueCmd_rejected h rfl hb hy (graphPre_stale (by rwa [consumed_names]))
  · intro s d a h hb hy hv
    exact queueCmd_rejected h rfl hb hy (by simp [namesObj_stale, hv])
  · intro s d a h hb hy hv
    exact queueCmd_rejected h rfl hb hy (by simp [namesObj_stale, hv])
  · intro s d a h hkind hb hy hv
    exact queueCmd_rejected h rfl (by simpa [hkind] using hb) hy (by simp [hkind, namesObj_stale, hv])

end Sys2Proof.Machine

/-! PROOFS. Completion entries (11 R296-R300): the bytes of an entry, and the entries that are posted. -/

namespace Sys2Proof.Machine

/-! ### Fields of an entry -/

theorem le_toLE (n v : Nat) : le (toLE n v) = v % 256 ^ n := by
  induction n generalizing v with
  | zero => simp [toLE, le, Nat.mod_one]
  | succ n ih =>
    have hbyte : (BitVec.ofNat 8 v).toNat = v % 256 := BitVec.toNat_ofNat v 8
    rw [toLE, le, hbyte, ih, pow_succ', Nat.mod_mul]

theorem le_toLE_of_lt {n v : Nat} (h : v < 256 ^ n) : le (toLE n v) = v := by rw [le_toLE, Nat.mod_eq_of_lt h]

/-- The 32 bytes of a completion entry (11 R296): `tail` is its last field, the next descriptor's index with the phase. -/
def completionEntry (tag handle kind status r0 r1 now q tail : Nat) : Bytes :=
  toLE 4 tag ++ toLE 2 handle ++ toLE 1 kind ++ toLE 1 status ++ toLE 8 r0 ++ toLE 8 r1 ++ toLE 4 now ++ toLE 1 q ++ [0] ++ toLE 2 tail

/-- The entry that a queue posts next. -/
def State.entryOf (s : State) (q tag handle kind status r0 r1 : Nat) : Bytes :=
  completionEntry tag handle kind status r0 r1 s.now q ((s.cq q).sqHead + 0x8000 * b2n (s.cq q).phase)

section

variable (tag handle kind status r0 r1 now q tail : Nat)

theorem completionEntry_length : (completionEntry tag handle kind status r0 r1 now q tail).length = 32 := rfl

/-- Each field of an entry is the little-endian number at its place. -/
theorem completionEntry_fields : let b := completionEntry tag handle kind status r0 r1 now q tail
    fld b 0 4 = le (toLE 4 tag) ∧ fld b 4 2 = le (toLE 2 handle) ∧ byteAt b 6 = le (toLE 1 kind) ∧ byteAt b 7 = le (toLE 1 status) ∧
    fld b 8 8 = le (toLE 8 r0) ∧ fld b 16 8 = le (toLE 8 r1) ∧ fld b 24 4 = le (toLE 4 now) ∧ byteAt b 28 = le (toLE 1 q) ∧
    byteAt b 29 = 0 ∧ fld b 30 2 = le (toLE 2 tail) :=
  ⟨rfl, rfl, rfl, rfl, rfl, rfl, rfl, rfl, rfl, rfl⟩

end

/-- A submission head within its ring and the phase bit share the last field. -/
theorem headAndPhase_lt {head : Nat} (h : head < 4096) (phase : Bool) : head + 0x8000 * b2n phase < 256 ^ 2 := by
  cases phase <;> simp [b2n] <;> omega

/-! ### Entries on their way out -/

@[simp] theorem raiseVec_out (s : State) (v : Nat) : (s.raiseVec v).out = s.out := by
  unfold State.raiseVec
  split <;> rfl

theorem hostWrite_out {s : State} {a : Nat} {b : Bytes} (hm : s.time.localMode = false) (hb : b ≠ []) :
    (s.hostWrite a b).out = s.out ++ [.mem a b] := by
  simp [State.hostWrite, hm, hb, State.emit]

/-- Outside local-ring mode an entry is one posted write. -/
theorem post_out {s : State} (hm : s.time.localMode = false) (q tag handle kind status r0 r1 : Nat) (irq : Bool) :
    (s.post q tag handle kind status r0 r1 irq).out =
      s.out ++ [.mem ((s.cq q).cqBase + 32 * (s.cq q).cqTail) (s.entryOf q tag handle kind status r0 r1)] := by
  have hw (c : Cq) : ((s.hostWrite ((s.cq q).cqBase + 32 * (s.cq q).cqTail) (s.entryOf q tag handle kind status r0 r1)).setCq q c).out =
      s.out ++ [.mem ((s.cq q).cqBase + 32 * (s.cq q).cqTail) (s.entryOf q tag handle kind status r0 r1)] :=
    hostWrite_out hm (List.ne_nil_of_length_eq_add_one (completionEntry_length ..))
  cases irq
  · exact hw _
  · exact (raiseVec_out ..).trans (hw _)

/-- A FINAL entry is the post of kind 2; what the queue and the slot forget then is no output. -/
theorem final1_out {s : State} {slot : Nat} (h : (s.hnd slot).discard = false) (obj st r0 r1 : Nat) :
    (s.final1 slot obj st r0 r1).out = (s.post (s.hnd slot).queue (s.hnd slot).tag ((s.hnd slot).value slot) 2 st (r0 % 2 ^ 64)
      (r1 % 2 ^ 64) (bit (s.hnd slot).flags 1)).out := by
  unfold State.final1
  dsimp only
  rw [h]
  split <;> rfl

/-- A PROGRESS entry is the post of kind 3: the time that its slot notes is no output. -/
theorem progress_out {s : State} (hm : s.time.localMode = false) (slot r1 : Nat) :
    (s.progress slot r1).out = s.out ∨ ∃ f, (s.progress slot r1).out = (s.post (s.hnd slot).queue (s.hnd slot).tag ((s.hnd slot).value slot) 3
      stACCEPTED f r1 (bit (s.hnd slot).flags 1)).out := by
  rcases progress_cases s slot r1 with h | h <;> rw [h]
  · exact .inl rfl
  · exact .inr ⟨s.fresh.1 % 65536, (post_out (by exact hm) ..).trans (post_out hm ..).symm⟩

/-- Settles O14: `post_out` gives the entry's bytes, and each kind of entry is one `State.post`. -/
theorem completionEntryLayout : Obligations.CompletionEntryLayout := by
  refine ⟨?_, fun s d st r0 => rfl, fun s d a slot => ⟨_, rfl⟩, fun s slot obj st r0 r1 h => final1_out h obj st r0 r1,
    fun s slot r1 hm => progress_out hm slot r1⟩
  intro s q tag handle kind status r0 r1 irq hm hq htag hhandle hkind hstatus hr0 hr1 hhead
  refine ⟨_, post_out hm .., rfl, ?_⟩
  obtain ⟨ftag, fhandle, fkind, fstatus, fr0, fr1, fnow, fq, fzero, ftail⟩ :=
    completionEntry_fields tag handle kind status r0 r1 s.now q ((s.cq q).sqHead + 0x8000 * b2n (s.cq q).phase)
  exact ⟨ftag.trans (le_toLE_of_lt htag), fhandle.trans (le_toLE_of_lt hhandle), fkind.trans (le_toLE_of_lt hkind),
    fstatus.trans (le_toLE_of_lt hstatus), fr0.trans (le_toLE_of_lt hr0), fr1.trans (le_toLE_of_lt hr1), fnow.trans (le_toLE 4 s.now),
    fq.trans (le_toLE_of_lt hq), fzero, ftail.trans (le_toLE_of_lt (headAndPhase_lt hhead _))⟩

end Sys2Proof.Machine

/-! PROOFS. The counters of the queues (11 R302; 10 R286, R287) and the management event ring (11 R316, R317; 17 R464-R467). -/

namespace Sys2Proof.Machine

/-! ### Which counters an operation can change -/

/-- No counter from place `n` of the table on has changed, and the table has kept its canonical form. The log counts on unit 0 alone,
whose places lie below 16. -/
structure CountsBelow (n : Nat) (s t : State) : Prop where
  same : ∀ j, n ≤ j → Tbl.get {} j t.chip.counters = Tbl.get {} j s.chip.counters
  wf : Tbl.wf {} s.chip.counters = true → Tbl.wf {} t.chip.counters = true

section

variable {n : Nat}

theorem CountsBelow.of_eq {s t : State} (h : t.chip.counters = s.chip.counters) : CountsBelow n s t :=
  ⟨fun _ _ => by rw [h], fun hw => by rwa [h]⟩

theorem CountsBelow.refl (s : State) : CountsBelow n s s := .of_eq rfl

theorem CountsBelow.trans {s t u : State} (h : CountsBelow n s t) (k : CountsBelow n t u) : CountsBelow n s u :=
  ⟨fun j hj => (k.same j hj).trans (h.same j hj), fun hw => k.wf (h.wf hw)⟩

theorem CountsBelow.ite {s a b : State} {c : Prop} [Decidable c] (ha : CountsBelow n s a) (hb : CountsBelow n s b) :
    CountsBelow n s (if c then a else b) := by
  split
  · exact ha
  · exact hb

theorem CountsBelow.foldl {α : Type} {f : State → α → State} (hf : ∀ s x, CountsBelow n s (f s x)) (l : List α) (s : State) :
    CountsBelow n s (l.foldl f s) := by
  induction l generalizing s with
  | nil => exact .refl s
  | cons x l ih => exact (hf s x).trans (ih _)

theorem CountsBelow.ctr {s t : State} {u k : Nat} (h : CountsBelow n s t) (hn : n ≤ 16 * u + k) : t.ctr u k = s.ctr u k := h.same _ hn

theorem setCtr_countsBelow {u k : Nat} (s : State) (v : Ctr) (h : 16 * u + k < n) : CountsBelow n s (s.setCtr u k v) :=
  ⟨fun _ hj => Tbl.get_set_other (Nat.ne_of_gt (h.trans_le hj)), Tbl.wf_set⟩

theorem chip_countsBelow (s : State) (v : Chip) (h : v.counters = s.chip.counters) : CountsBelow n s { s with chip := v } := .of_eq h

/-! ### The log counts on the core's own counters -/

theorem meWrite_chip (s : State) (e : LogEntry) : (s.meWrite e).chip = s.chip := by
  unfold State.meWrite
  dsimp only
  rw [raiseVec_chip]
  exact hostWrite_chip ..

/-- Raising an event concerns the host interface: nothing of the core. -/
@[simp] theorem meRaise_chip (s : State) (e : LogEntry) : (s.meRaise e).chip = s.chip := by
  unfold State.meRaise
  dsimp only
  split
  · rfl
  · split
    · exact meWrite_chip s e
    · split <;> rfl

theorem logPush_countsBelow (s : State) (e : LogEntry) (h : 5 < n) : CountsBelow n s (s.logPush e) :=
  .ite (.of_eq rfl) (.ite ((setCtr_countsBelow s _ h).trans (chip_countsBelow _ _ rfl)) (.of_eq rfl))

theorem logWrite_countsBelow (s : State) (e : LogEntry) (h : 5 < n) : CountsBelow n s (s.logWrite e).1 := by
  have hcount : CountsBelow n s ((s.logPush e).bumpRaw 0 2 1).1 := (logPush_countsBelow s e h).trans (setCtr_countsBelow _ _ (by omega))
  unfold State.logWrite
  dsimp only
  split
  · exact (hcount.trans (.of_eq (by rw [meRaise_chip]))).trans (setCtr_countsBelow (State.meRaise _ e) _ (by omega))
  · exact hcount

theorem logAll_countsBelow (h : 5 < n) (k : Nat) (l : List LogEntry) (s : State) : CountsBelow n s (State.logAll k l s) := by
  induction k generalizing l s with
  | zero => cases l <;> exact .refl s
  | succ k ih =>
    cases l with
    | nil => exact .refl s
    | cons e es => exact (logWrite_countsBelow s e h).trans (ih _ _)

theorem log_countsBelow (s : State) (code level idx a0 a1 : Nat) (h : 5 < n) : CountsBelow n s (s.log code level idx a0 a1) :=
  .ite (.refl s) (.ite (.ite (.of_eq rfl) ((setCtr_countsBelow s _ h).trans (chip_countsBelow _ _ rfl))) (logAll_countsBelow h ..))

/-! ### One event counted -/

theorem bump_countsBelow {u k : Nat} (s : State) (h5 : 5 < n) (h : 16 * u + k < n) : CountsBelow n s (s.bump u k) :=
  .ite ((setCtr_countsBelow s _ h).trans (log_countsBelow _ _ _ _ _ _ h5)) (setCtr_countsBelow s _ h)

/-- A counter is written, and then at most COUNTER_WRAP is logged. -/
theorem bump_counts (s : State) (u k : Nat) (h5 : 5 < n) : CountsBelow n (s.setCtr u k ((s.ctr u k).add (isErrCtr u k) 1)) (s.bump u k) :=
  .ite (log_countsBelow _ _ _ _ _ _ h5) (.refl _)

end

section

variable {s : State} {u k : Nat}

theorem bump_ctr_self (hw : Tbl.wf {} s.chip.counters = true) (hu : 1 ≤ u) : (s.bump u k).ctr u k = (s.ctr u k).add (isErrCtr u k) 1 :=
  ((bump_counts (n := 16) s u k (by omega)).ctr (by omega)).trans (ctr_setCtr_self hw)

theorem bump_ctr_other {j m : Nat} (hj : 1 ≤ j) (h : 16 * j + m ≠ 16 * u + k) : (s.bump u k).ctr j m = s.ctr j m :=
  ((bump_counts (n := 16) s u k (by omega)).ctr (by omega)).trans (ctr_setCtr_other h)

end

/-! ### Entries count nothing further (11 R299, R302) -/

section

variable {n : Nat}

@[simp] theorem post_chip (s : State) (q tag handle kind status r0 r1 : Nat) (irq : Bool) :
    (s.post q tag handle kind status r0 r1 irq).chip = s.chip := by
  unfold State.post
  split
  · exact (raiseVec_chip ..).trans (hostWrite_chip ..)
  · exact hostWrite_chip ..

@[simp] theorem post_ctr (s : State) (q tag handle kind status r0 r1 : Nat) (irq : Bool) (u k : Nat) :
    (s.post q tag handle kind status r0 r1 irq).ctr u k = s.ctr u k := by rw [State.ctr, post_chip, State.ctr]

/-- Neither the post of a FINAL nor what its queue and its slot forget counts. -/
theorem final1_counters (s : State) (slot obj st r0 r1 : Nat) : (s.final1 slot obj st r0 r1).chip.counters = s.chip.counters := by
  unfold State.final1
  dsimp only
  cases (s.hnd slot).discard
  · split <;> simp [State.release]
  · split <;> simp [State.release]

theorem finalWaiters_countsBelow (f slot status : Nat) (s : State) : CountsBelow n s (State.finalWaiters f slot status s) := by
  induction f generalizing slot status s with
  | zero => exact .refl s
  | succ f ih => exact .foldl (fun s w => (CountsBelow.of_eq (final1_counters s w 0 stOK status 0)).trans (ih ..)) _ s

/-- Where a completion counts at all, it counts on a converter, whose places lie below those of the queues. -/
theorem final_countsBelow (s : State) (slot st r0 r1 : Nat) : CountsBelow (16 * uCq 0) s (s.final slot st r0 r1) := by
  have hconv : 16 * uConv (byteAt (s.hnd slot).args 0) + 9 < 16 * uCq 0 := by
    have := (((s.hnd slot).args).getD 0 0).isLt
    unfold uConv uCq byteAt
    omega
  have hfail : CountsBelow (16 * uCq 0) s (s.countSysFail slot st) := .ite (bump_countsBelow s (by decide) hconv) (.refl s)
  exact .ite (.of_eq rfl) (.ite (.refl s) (.ite (hfail.trans (chip_countsBelow _ _ rfl))
    ((hfail.trans (.of_eq (final1_counters ..))).trans (finalWaiters_countsBelow ..))))

end

/-! ### COMMANDS and REJECTED (11 R302) -/

@[simp] theorem consumed_ctr (s : State) (d : Desc) (u k : Nat) : (s.consumed d).ctr u k = s.ctr u k := by
  rw [State.ctr, consumed_chip, State.ctr]

/-- COMMANDS is a statistics counter and REJECTED an error counter (10 R287). -/
theorem isErrCtr_queue {q : Nat} (h : q < 16) : isErrCtr (uCq q) 0 = false ∧ isErrCtr (uCq q) 1 = true := by
  revert q
  decide

theorem uCq_pos (q : Nat) : 1 ≤ uCq q := Nat.le_add_right_of_le (by decide)

/-- Places of the counters of different queues, and the two places of one queue, differ. -/
theorem place_ne {q p k m : Nat} (hk : k < 16) (hm : m < 16) (h : q ≠ p ∨ k ≠ m) : 16 * uCq q + k ≠ 16 * uCq p + m := by
  unfold uCq
  omega

section

variable {s : State} {d : Desc}

/-- The state that an acceptance counts in: handle slot and queue have noted the command. -/
theorem accept_bumps (s : State) (d : Desc) (a : Bytes) (slot : Nat) : ∃ u : State, u.chip.counters = s.chip.counters ∧
    ∀ j m, (s.accept d a slot).ctr j m = ((u.bump 0 0).bump (uCq d.queue) 0).ctr j m := by
  unfold State.accept
  dsimp only
  refine ⟨_, ?_, fun j m => post_ctr ..⟩
  rfl

theorem accept_ctr_self (hw : Tbl.wf {} s.chip.counters = true) (a : Bytes) (slot : Nat) :
    (s.accept d a slot).ctr (uCq d.queue) 0 = (s.ctr (uCq d.queue) 0).add (isErrCtr (uCq d.queue) 0) 1 := by
  obtain ⟨u, hu, hctr⟩ := accept_bumps s d a slot
  have hcore : CountsBelow 16 u (u.bump 0 0) := bump_countsBelow u (by decide) (by decide)
  rw [hctr, bump_ctr_self (hcore.wf (by rwa [hu])) (uCq_pos _), hcore.ctr (by unfold uCq; omega), State.ctr, hu, State.ctr]

theorem accept_ctr_other {j m : Nat} (hj : 1 ≤ j) (h : 16 * j + m ≠ 16 * uCq d.queue + 0) (a : Bytes) (slot : Nat) :
    (s.accept d a slot).ctr j m = s.ctr j m := by
  obtain ⟨u, hu, hctr⟩ := accept_bumps s d a slot
  rw [hctr, bump_ctr_other hj h, bump_ctr_other hj (by omega), State.ctr, hu, State.ctr]

theorem reject_ctr_self (hw : Tbl.wf {} s.chip.counters = true) (st r0 : Nat) :
    (s.reject d st r0).ctr (uCq d.queue) 1 = (s.ctr (uCq d.queue) 1).add (isErrCtr (uCq d.queue) 1) 1 :=
  (post_ctr ..).trans (bump_ctr_self hw (uCq_pos _))

theorem reject_ctr_other {j m : Nat} (hj : 1 ≤ j) (h : 16 * j + m ≠ 16 * uCq d.queue + 1) (st r0 : Nat) :
    (s.reject d st r0).ctr j m = s.ctr j m :=
  (post_ctr ..).trans (bump_ctr_other hj h)

end

section

variable (s : State) {d : Desc}

/-- An acceptance counts on its own queue's COMMANDS and on no other counter of a queue. -/
theorem admitted_ctr_other {q k : Nat} (slot : Nat) (a : Bytes) (hk : k < 16) (h : q ≠ (s.atDesc d).queue ∨ k ≠ 0) :
    (s.admitted d slot a).ctr (uCq q) k = s.ctr (uCq q) k :=
  (accept_ctr_other (uCq_pos q) (place_ne hk (by decide) h) a slot).trans (consumed_ctr ..)

theorem admitted_ctr_self (slot : Nat) (a : Bytes) (hq : (s.atDesc d).queue < 16) (hw : Tbl.wf {} s.chip.counters = true) :
    (s.admitted d slot a).ctr (uCq (s.atDesc d).queue) 0 = (s.ctr (uCq (s.atDesc d).queue) 0).add false 1 := by
  rw [State.admitted, accept_ctr_self (by rwa [consumed_chip]), consumed_ctr, (isErrCtr_queue hq).1]

/-- A rejection counts on its own queue's REJECTED and on no other counter of a queue. -/
theorem rejected_ctr_other {q k : Nat} (st r0 : Nat) (hk : k < 16) (h : q ≠ (s.atDesc d).queue ∨ k ≠ 1) :
    (s.rejected d st r0).ctr (uCq q) k = s.ctr (uCq q) k :=
  (reject_ctr_other (uCq_pos q) (place_ne hk (by decide) h) st r0).trans (consumed_ctr ..)

theorem rejected_ctr_self (st r0 : Nat) (hq : (s.atDesc d).queue < 16) (hw : Tbl.wf {} s.chip.counters = true) :
    (s.rejected d st r0).ctr (uCq (s.atDesc d).queue) 1 = (s.ctr (uCq (s.atDesc d).queue) 1).add true 1 := by
  rw [State.rejected, reject_ctr_self (by rwa [consumed_chip]), consumed_ctr, (isErrCtr_queue hq).2]

end

/-- Settles O15: an acceptance counts on the core and on COMMANDS, a rejection on REJECTED, and a completion on no queue. -/
theorem queueCountersCount : Obligations.QueueCountersCount := by
  refine ⟨fun s d slot a hq hw => ?_, fun s d st r0 hq hw => ?_, fun s slot st r0 r1 q k => ?_⟩
  · have hother {q k : Nat} := admitted_ctr_other s (d := d) (q := q) (k := k) slot a
    refine ⟨?_, hother (by decide) (.inr (by decide)), fun q _ hne => ⟨hother (by decide) (.inl hne), hother (by decide) (.inl hne)⟩⟩
    rw [admitted_ctr_self s slot a hq hw]
    rfl
  · have hother {q k : Nat} := rejected_ctr_other s (d := d) (q := q) (k := k) st r0
    refine ⟨?_, hother (by decide) (.inr (by decide)), fun q _ hne => ⟨hother (by decide) (.inl hne), hother (by decide) (.inl hne)⟩⟩
    rw [rejected_ctr_self s st r0 hq hw]
    rfl
  · exact (final_countsBelow s slot st r0 r1).ctr (by unfold uCq; omega)

end Sys2Proof.Machine

/-! PROOFS. The management event ring (11 R316, R317; 17 R464-R467): events held while it is full, the OVERFLOW flag, and the count. -/

namespace Sys2Proof.Machine

/-! ### Raising an event (11 R317) -/

section

variable {s : State} {e : LogEntry}

theorem meRaise_held (hen : s.host.me.enable = true) (hfull : s.host.me.full = true) (h : s.host.me.held.length < 64) :
    s.meRaise e = { s with host := { s.host with me := { s.host.me with held := s.host.me.held ++ [e] } } } := by
  simp [State.meRaise, hen, hfull, h]

theorem meRaise_dropped (hen : s.host.me.enable = true) (h : s.host.me.held.length = 64) :
    s.meRaise e = { s with host := { s.host with me := { s.host.me with overflow := true } } } := by
  have hne : s.host.me.held.isEmpty = false := List.isEmpty_eq_false_iff.2 (List.ne_nil_of_length_eq_add_one h)
  simp [State.meRaise, hen, h, hne]

end

/-! ### One entry of the ring (11 R316) -/

/-- The 32 bytes of an entry of the ring `m`; OVERFLOW and the phase stand in byte 11. -/
def Me.entry (m : Me) (e : LogEntry) : Bytes :=
  toLE 8 e.ts ++ toLE 2 e.code ++ toLE 1 e.level ++ toLE 1 (b2n m.overflow + 128 * b2n m.phase) ++ toLE 4 e.idx ++ toLE 8 e.a0 ++ toLE 8 e.a1

theorem Me.entry_length (m : Me) (e : LogEntry) : (m.entry e).length = 32 := rfl

theorem Me.entry_overflow (m : Me) (e : LogEntry) : bit (byteAt (m.entry e) 11) 0 = m.overflow := by
  have hbyte : byteAt (m.entry e) 11 = (BitVec.ofNat 8 (b2n m.overflow + 128 * b2n m.phase)).toNat := rfl
  rw [hbyte]
  cases m.overflow <;> cases m.phase <;> rfl

@[simp] theorem raiseVec_me (s : State) (v : Nat) : (s.raiseVec v).host.me = s.host.me := by
  unfold State.raiseVec
  split <;> rfl

theorem meWrite_out {s : State} (hm : s.time.localMode = false) (e : LogEntry) :
    (s.meWrite e).out = s.out ++ [.mem (s.host.me.base + 32 * s.host.me.tail) (s.host.me.entry e)] :=
  (raiseVec_out ..).trans (hostWrite_out hm (List.ne_nil_of_length_eq_add_one (Me.entry_length ..)))

theorem meWrite_overflow (s : State) (e : LogEntry) : (s.meWrite e).host.me.overflow = false := by
  rw [State.meWrite, raiseVec_me]

/-! ### The log (17 R464) -/

/-- A new entry is the last of the log, whichever entry makes room for it. -/
theorem logPush_last (s : State) (e : LogEntry) : ∃ b, (s.logPush e).chip.log.getLast? = some { e with afterLoss := b } := by
  unfold State.logPush
  dsimp only
  (repeat' split) <;> exact ⟨_, List.getLast?_concat⟩

theorem logPush_ctr {s : State} {u k : Nat} (e : LogEntry) (h : 16 * u + k ≠ 5) : (s.logPush e).ctr u k = s.ctr u k := by
  unfold State.logPush
  dsimp only
  split
  · rfl
  · split
    · exact ctr_setCtr_other h
    · rfl

/-- An event with EVENT_RAISED is written, counted, raised and counted as an event. -/
theorem logWrite_raised {s : State} {e : LogEntry} (h : e.raised = true) :
    (s.logWrite e).1 = ((((s.logPush e).bumpRaw 0 2 1).1.meRaise e).bumpRaw 0 3 1).1 := by
  unfold State.logWrite
  dsimp only
  rw [if_pos h]

theorem logWrite_last (s : State) {e : LogEntry} (h : e.raised = true) :
    ∃ b, (s.logWrite e).1.chip.log.getLast? = some { e with afterLoss := b } := by
  have hlog : (s.logWrite e).1.chip.log = (s.logPush e).chip.log := by
    rw [logWrite_raised h, State.bumpRaw, State.setCtr_chip_log, meRaise_chip]
    rfl
  rw [hlog]
  exact logPush_last s e

/-- MGMT_EVENTS counts each raised event, whatever becomes of it on the ring. -/
theorem logWrite_mgmtEvents {s : State} {e : LogEntry} (h : e.raised = true) (hw : Tbl.wf {} s.chip.counters = true) :
    (s.logWrite e).1.ctr 0 3 = (s.ctr 0 3).add false 1 := by
  have hwf : Tbl.wf {} ((s.logPush e).bumpRaw 0 2 1).1.chip.counters = true :=
    Tbl.wf_set ((logPush_countsBelow (n := 16) s e (by decide)).wf hw)
  have hctr : (((s.logPush e).bumpRaw 0 2 1).1.meRaise e).ctr 0 3 = s.ctr 0 3 := by
    rw [State.ctr, meRaise_chip]
    exact (ctr_setCtr_other (by decide)).trans (logPush_ctr e (by decide))
  rw [logWrite_raised h, State.bumpRaw, hctr]
  exact ctr_setCtr_self (by rwa [meRaise_chip])

/-- Settles O18: a full ring holds or drops the event, the next entry tells of the loss once, and `logWrite_raised` says what an event
does. -/
theorem managementEventsHeld : Obligations.ManagementEventsHeld := by
  refine ⟨fun s e => meRaise_held, fun s e => meRaise_dropped, fun s e hm => ?_, fun s e h hw => ⟨?_, ?_⟩⟩
  · exact ⟨_, meWrite_out hm e, Me.entry_overflow .., meWrite_overflow s e⟩
  · obtain ⟨b, hb⟩ := logWrite_last s h
    exact ⟨_, hb, rfl, rfl, rfl, rfl, rfl, rfl⟩
  · rw [logWrite_mgmtEvents h hw]
    rfl

end Sys2Proof.Machine

/-! PROOFS. Doorbells (11 R290, R291, R313, R317-R320), HALT and RELEASE (11 R319, R320) and queue stalls (11 R301). -/

namespace Sys2Proof.Machine

/-! ### Doorbells of 4 bytes (11 R318) -/

@[simp] theorem at_hostUp (s : State) (t : Nat) : (s.at t).hostUp = s.hostUp := by
  unfold State.at State.hostUp
  split <;> rfl

section

variable {s : State} {off v width size : Nat} {en : Bool} {descs : List Bytes}

/-- A value within an enabled ring acts at once while the management core runs. -/
theorem doorbell4_acts (hring : s.doorRing off = some (en, size)) (hup : s.hostUp = true) (hrun : s.chip.restarting = false)
    (hen : en = true) (hv : v % 65536 < size) : s.doorbell4 off v 4 descs = s.doorAct off (v % 65536) descs := by
  unfold State.doorbell4
  rw [hring]
  simp [hup, hrun, hen, Nat.not_le.2 hv]

/-- A write of another width, to a ring that is not enabled, or of a value outside the ring is logged, and that is all. -/
theorem doorbell4_ignored (hring : s.doorRing off = some (en, size)) (hup : s.hostUp = true)
    (h : width ≠ 4 ∨ en = false ∨ size ≤ v % 65536) : s.doorbell4 off v width descs = s.badDoorbell off v width := by
  unfold State.doorbell4
  rw [hring]
  simp only [hup, Bool.not_true, Bool.false_eq_true, if_false]
  exact if_pos (by simpa using h)

end

/-! ### The ring of each doorbell, and what its doorbell does -/

section

variable (s : State) {q n : Nat} (v : Nat) (descs : List Bytes)

theorem doorRing_submission (hq : q < 16) : s.doorRing (0x1000 * (q + 1)) = some ((s.cq q).enable, 2 ^ (s.cq q).sqSize) := by
  have hno : 0x1000 * (q + 1) / 0x1000 - 1 = q := by omega
  unfold State.doorRing
  dsimp only
  rw [if_neg (by omega), if_pos (by omega), if_pos (by omega), hno]

theorem doorRing_completion (hq : q < 16) : s.doorRing (0x1000 * (q + 1) + 4) = some ((s.cq q).enable, 2 ^ (s.cq q).cqSize) := by
  have hno : (0x1000 * (q + 1) + 4) / 0x1000 - 1 = q := by omega
  unfold State.doorRing
  dsimp only
  rw [if_neg (by omega), if_pos (by omega), if_neg (by omega), if_pos (by omega), hno]

theorem doorRing_buffer (hn : n < 64) : s.doorRing (0x11000 + 16 * n) = some ((s.ds n).enable, 2 ^ (s.ds n).bufSize) := by
  have hno : (0x11000 + 16 * n - 0x11000) / 16 = n := by omega
  unfold State.doorRing
  dsimp only
  rw [if_neg (by omega), if_neg (by omega), if_pos (by omega), if_pos (by omega), hno]

theorem doorRing_event (hn : n < 64) : s.doorRing (0x11000 + 16 * n + 4) = some ((s.ds n).enable, 2 ^ (s.ds n).evtSize) := by
  have hno : (0x11000 + 16 * n + 4 - 0x11000) / 16 = n := by omega
  unfold State.doorRing
  dsimp only
  rw [if_neg (by omega), if_neg (by omega), if_pos (by omega), if_neg (by omega), if_pos (by omega), hno]

theorem doorRing_mgmt : s.doorRing 8 = some (s.host.me.enable, 2 ^ s.host.me.size) := rfl

theorem doorAct_submission (hq : q < 16) : s.doorAct (0x1000 * (q + 1)) v descs = s.sqTail q v := by
  have hno : 0x1000 * (q + 1) / 0x1000 - 1 = q := by omega
  unfold State.doorAct
  rw [if_neg (by omega), if_pos (by omega), if_pos (by omega), hno]

theorem doorAct_completion (hq : q < 16) : s.doorAct (0x1000 * (q + 1) + 4) v descs = s.cqHead q v := by
  have hno : (0x1000 * (q + 1) + 4) / 0x1000 - 1 = q := by omega
  unfold State.doorAct
  rw [if_neg (by omega), if_pos (by omega), if_neg (by omega), hno]

theorem doorAct_buffer (n : Nat) : s.doorAct (0x11000 + 16 * n) v descs = s.bufTail n v descs := by
  have hno : (0x11000 + 16 * n - 0x11000) / 16 = n := by omega
  unfold State.doorAct
  rw [if_neg (by omega), if_neg (by omega), if_pos (by omega), hno]

theorem doorAct_event (n : Nat) : s.doorAct (0x11000 + 16 * n + 4) v descs = s.evtHead n v := by
  have hno : (0x11000 + 16 * n + 4 - 0x11000) / 16 = n := by omega
  unfold State.doorAct
  rw [if_neg (by omega), if_neg (by omega), if_neg (by omega), hno]

theorem doorAct_mgmt : s.doorAct 8 v descs = s.meHead v := rfl

end

/-! ### The rows of the doorbells -/

section

variable {q n : Nat} (s : State) (t : Nat) (v : Word) (w : Nat)

theorem submissionTail_eq (hq : q < 16) :
    exec (.submissionTail t q v w) s = .next ((s.at t).doorbell4 (0x1000 * (q + 1)) v.toNat w []) := ifUnit_of hq _

theorem completionHead_eq (hq : q < 16) :
    exec (.completionHead t q v w) s = .next ((s.at t).doorbell4 (0x1000 * (q + 1) + 4) v.toNat w []) := ifUnit_of hq _

theorem bufferRingTail_eq (hn : n < 64) (descs : List Bytes) :
    exec (.bufferRingTail t n v w descs) s = .next ((s.at t).doorbell4 (0x11000 + 16 * n) v.toNat w descs) := ifUnit_of hn _

theorem eventRingHead_eq (hn : n < 64) :
    exec (.eventRingHead t n v w) s = .next ((s.at t).doorbell4 (0x11000 + 16 * n + 4) v.toNat w []) := ifUnit_of hn _

theorem mgmtEventRingHead_eq : exec (.mgmtEventRingHead t v w) s = .next ((s.at t).doorbell4 8 v.toNat w []) := rfl

theorem halt_eq (x : BitVec 64) : exec (.halt t x w) s = .next ((s.at t).haltWrite x.toNat w) := rfl

theorem release_eq (x : BitVec 64) : exec (.release t x w) s = .next ((s.at t).haltWrite x.toNat w) := rfl

end

section

variable {s : State} {t q n : Nat} {v : Word}

theorem submissionTail_moves (hq : q < 16) (hup : (s.at t).hostUp = true) (hrun : s.chip.restarting = false) (hen : (s.cq q).enable = true)
    (hv : v.toNat % 65536 < 2 ^ (s.cq q).sqSize) : exec (.submissionTail t q v 4) s =
      .next ((s.at t).setCq q { s.cq q with sqTail := v.toNat % 65536, stalled := false }) := by
  have hring := doorRing_submission (s.at t) hq
  rw [at_cq] at hring
  rw [submissionTail_eq s t v 4 hq, doorbell4_acts hring hup (by rw [at_chip, hrun]) hen hv, doorAct_submission _ _ _ hq, State.sqTail, at_cq]

theorem submissionTail_ignored {w : Nat} (hq : q < 16) (hup : (s.at t).hostUp = true)
    (h : w ≠ 4 ∨ (s.cq q).enable = false ∨ 2 ^ (s.cq q).sqSize ≤ v.toNat % 65536) :
    exec (.submissionTail t q v w) s = .next ((s.at t).log 0x603 5 (2 * 2 ^ 24 + 0x1000 * (q + 1)) v.toNat w) := by
  have hring := doorRing_submission (s.at t) hq
  rw [at_cq] at hring
  rw [submissionTail_eq s t v w hq, doorbell4_ignored hring hup h, State.badDoorbell]

theorem completionHead_moves (hq : q < 16) (hup : (s.at t).hostUp = true) (hrun : s.chip.restarting = false) (hen : (s.cq q).enable = true)
    (hv : v.toNat % 65536 < 2 ^ (s.cq q).cqSize) : exec (.completionHead t q v 4) s =
      .next ((s.at t).setCq q { s.cq q with cqHead := v.toNat % 65536 }) := by
  have hring := doorRing_completion (s.at t) hq
  rw [at_cq] at hring
  rw [completionHead_eq s t v 4 hq, doorbell4_acts hring hup (by rw [at_chip, hrun]) hen hv, doorAct_completion _ _ _ hq, State.cqHead, at_cq]

theorem bufferRingTail_moves {descs : List Bytes} (hn : n < 64) (hup : (s.at t).hostUp = true) (hrun : s.chip.restarting = false)
    (hen : (s.ds n).enable = true) (hv : v.toNat % 65536 < 2 ^ (s.ds n).bufSize) : exec (.bufferRingTail t n v 4 descs) s =
      .next ((((s.at t).setDs n { s.ds n with
        posted := (s.ds n).posted ++ (s.at t).newDescs n (v.toNat % 65536) descs
        bufTail := v.toNat % 65536
        fetchStalled := false }).drainAll n).closeStep n) := by
  have hring := doorRing_buffer (s.at t) hn
  rw [at_ds] at hring
  rw [bufferRingTail_eq s t v 4 hn, doorbell4_acts hring hup (by rw [at_chip, hrun]) hen hv, doorAct_buffer, State.bufTail, at_ds]

theorem eventRingHead_moves (hn : n < 64) (hup : (s.at t).hostUp = true) (hrun : s.chip.restarting = false) (hen : (s.ds n).enable = true)
    (hv : v.toNat % 65536 < 2 ^ (s.ds n).evtSize) : exec (.eventRingHead t n v 4) s =
      .next ((((s.at t).setDs n { s.ds n with evtHead := v.toNat % 65536 }).drainAll n).closeStep n) := by
  have hring := doorRing_event (s.at t) hn
  rw [at_ds] at hring
  rw [eventRingHead_eq s t v 4 hn, doorbell4_acts hring hup (by rw [at_chip, hrun]) hen hv, doorAct_event, State.evtHead, at_ds]

theorem mgmtEventRingHead_moves (hup : (s.at t).hostUp = true) (hrun : s.chip.restarting = false) (hen : s.host.me.enable = true)
    (hv : v.toNat % 65536 < 2 ^ s.host.me.size) : exec (.mgmtEventRingHead t v 4) s =
      .next (State.meDrain 64 { s.at t with host := { s.host with me := { s.host.me with head := v.toNat % 65536 } } }) := by
  have hring := doorRing_mgmt (s.at t)
  rw [at_host] at hring
  rw [mgmtEventRingHead_eq, doorbell4_acts hring hup (by rw [at_chip, hrun]) hen hv, doorAct_mgmt, State.meHead, at_host]

end

/-! ### HALT and RELEASE (11 R319, R320) -/

/-- A halt is noted for the converters and compare units that it names. -/
def State.haltNoted (s : State) (v : Nat) : State :=
  { s with host := { s.host with haltConv := addAll s.host.haltConv (haltItems v 2 192), haltCmp := addAll s.host.haltCmp (haltItems v 3 64) } }

/-- What a halt stops at once: streams, output channels, and the triggers of converters that wait on a compare unit. -/
def State.haltStops (s : State) (v : Nat) : State :=
  ((haltItems v 1 64).foldl (fun s n => s.dacHalt n)
    (((haltItems v 0 64).filter fun n => !(s.ds n).halted).foldl (fun s n => s.haltStream n) s)).clearSource 3 (haltItems v 3 64).contains

/-- The triggers that a halted converter has not acted on go. -/
def State.haltClears (s : State) (v : Nat) : State := (haltItems v 2 192).foldl (fun s c => s.setConv c (clearTrigs (s.conv c))) s

/-- A release forgets the halts of the converters and compare units that it names. -/
def State.haltLifted (s : State) (v : Nat) : State :=
  { s with host := { s.host with
    haltConv := s.host.haltConv.filter (fun c => !(haltItems v 2 192).contains c)
    haltCmp := s.host.haltCmp.filter fun k => !(haltItems v 3 64).contains k } }

/-- The halted streams that a release names go on. -/
def State.haltResumes (s : State) (v : Nat) : State :=
  ((haltItems v 0 64).filter fun n => (s.ds n).halted).foldl (fun s n => (s.setDs n { s.ds n with halted := false }).drainAll n) s

/-- A write to the HALT doorbell is counted and logged. -/
def State.haltLogged (s : State) (v : Nat) : State := (s.bump 0 1).log 0x604 5 (2 * 2 ^ 24) v 0

section

variable {s : State} {v : Nat}

theorem haltWrite_halts (hup : s.hostUp = true) (hok : haltOk v = true) (h : bit v 44 = false) :
    s.haltWrite v 8 = (((s.haltNoted v).haltStops v).haltClears v).haltLogged v := by
  unfold State.haltWrite
  dsimp only
  rw [if_neg (by simp [hup]), if_neg (by simp [hok]), if_neg (by simp [h])]
  rfl

theorem haltWrite_releases (hup : s.hostUp = true) (hok : haltOk v = true) (h : bit v 44 = true) :
    s.haltWrite v 8 = ((s.haltLifted v).haltResumes v).haltLogged v := by
  unfold State.haltWrite
  dsimp only
  rw [if_neg (by simp [hup]), if_neg (by simp [hok]), if_pos h]
  rfl

/-- A value that names one kind names no item of another. -/
theorem haltItems_other {kind k : Nat} (h : bits v 40 4 = k) (hk : k ≠ kind) (hall : k ≠ 15) (count : Nat) : haltItems v kind count = [] := by
  rw [haltItems, h, if_neg hall, if_neg hk]

/-- A halt of output channels concerns them alone. -/
theorem halt_outputs (h : bits v 40 4 = 1) :
    ((s.haltNoted v).haltStops v).haltClears v = (haltItems v 1 64).foldl (fun s n => s.dacHalt n) s := by
  have hstreams := haltItems_other h (kind := 0) (by decide) (by decide) 64
  have hconvs := haltItems_other h (kind := 2) (by decide) (by decide) 192
  have hcmps := haltItems_other h (kind := 3) (by decide) (by decide) 64
  have hnoted : s.haltNoted v = s := by
    unfold State.haltNoted
    rw [hconvs, hcmps]
    simp [addAll]
  have hclear (u : State) : u.clearSource 3 ([] : List Nat).contains = u := by simp [State.clearSource]
  unfold State.haltClears State.haltStops
  rw [hnoted, hstreams, hconvs, hcmps, hclear]
  rfl

end

/-! ### No stream, output channel, counter or log entry touches the halts -/

/-- The converters and compare units that are halted. -/
def State.halts (s : State) : List Nat × List Nat := (s.host.haltConv, s.host.haltCmp)

@[simp] theorem raiseVec_halts (s : State) (v : Nat) : (s.raiseVec v).halts = s.halts := by
  unfold State.raiseVec
  split <;> rfl

@[simp] theorem hostWrite_halts (s : State) (a : Nat) (b : Bytes) : (s.hostWrite a b).halts = s.halts := by
  unfold State.halts
  rw [hostWrite_host]

theorem meWrite_halts (s : State) (e : LogEntry) : (s.meWrite e).halts = s.halts := (raiseVec_halts ..).trans (hostWrite_halts s _ _)

theorem meRaise_halts (s : State) (e : LogEntry) : (s.meRaise e).halts = s.halts := by
  unfold State.meRaise
  dsimp only
  split
  · rfl
  · split
    · exact meWrite_halts s e
    · split <;> rfl

theorem logPush_halts (s : State) (e : LogEntry) : (s.logPush e).halts = s.halts := by
  unfold State.logPush
  dsimp only
  (repeat' split) <;> rfl

theorem logWrite_halts (s : State) (e : LogEntry) : (s.logWrite e).1.halts = s.halts := by
  have hcount : ((s.logPush e).bumpRaw 0 2 1).1.halts = s.halts := logPush_halts s e
  unfold State.logWrite
  dsimp only
  split
  · exact (meRaise_halts _ e).trans hcount
  · exact hcount

theorem logAll_halts (n : Nat) (l : List LogEntry) (s : State) : (State.logAll n l s).halts = s.halts := by
  induction n generalizing l s with
  | zero => cases l <;> rfl
  | succ n ih =>
    cases l with
    | nil => rfl
    | cons e es => exact (ih _ _).trans (logWrite_halts s e)

@[simp] theorem log_halts (s : State) (code level idx a0 a1 : Nat) : (s.log code level idx a0 a1).halts = s.halts := by
  unfold State.log State.logEntry
  split
  · rfl
  · split
    · split <;> rfl
    · exact logAll_halts ..

@[simp] theorem bump_halts (s : State) (u k : Nat) : (s.bump u k).halts = s.halts := by
  unfold State.bump State.bumpN
  dsimp only
  split
  · exact log_halts ..
  · rfl

theorem writeFill_halts (s : State) (n : Nat) (f : Fill) : (s.writeFill n f).halts = s.halts := by
  unfold State.writeFill
  dsimp only
  rw [bump_halts, raiseVec_halts]
  exact hostWrite_halts (s.sendBytes 16) _ _

theorem endBuf_halts (s : State) (n flags : Nat) (always : Bool) : (s.endBuf n flags always).halts = s.halts := by
  unfold State.endBuf
  dsimp only
  split
  · rfl
  · split
    · rfl
    · exact writeFill_halts (s.setDs n _) _ _

theorem haltStream_halts (s : State) (n : Nat) : (s.haltStream n).halts = s.halts := by
  unfold State.haltStream
  dsimp only
  split
  · exact endBuf_halts (s.setDs n _) _ _ _
  · rfl

theorem clearSource_halts (s : State) (kind : Nat) (hit : Nat → Bool) : (s.clearSource kind hit).halts = s.halts :=
  foldl_frame State.halts (fun _ _ => by rfl) _ s

theorem dacHalt_halts (s : State) (n : Nat) : (s.dacHalt n).halts = s.halts := by
  unfold State.dacHalt State.dacHaltNow
  dsimp only
  (repeat' split) <;> exact clearSource_halts ..

theorem haltStops_halts (s : State) (v : Nat) : (s.haltStops v).halts = s.halts := by
  unfold State.haltStops
  rw [clearSource_halts, foldl_frame State.halts dacHalt_halts, foldl_frame State.halts haltStream_halts]

theorem haltClears_halts (s : State) (v : Nat) : (s.haltClears v).halts = s.halts := foldl_frame State.halts (fun _ _ => by rfl) _ s

theorem haltLogged_halts (s : State) (v : Nat) : (s.haltLogged v).halts = s.halts := by
  rw [State.haltLogged, log_halts, bump_halts]

/-- After a HALT the halts are those that it has noted. -/
theorem halted_halts (s : State) (v : Nat) : ((((s.haltNoted v).haltStops v).haltClears v).haltLogged v).halts =
    (addAll s.host.haltConv (haltItems v 2 192), addAll s.host.haltCmp (haltItems v 3 64)) := by
  rw [haltLogged_halts, haltClears_halts, haltStops_halts]
  rfl

theorem mem_addAll {x : Nat} {l new : List Nat} : x ∈ addAll l new ↔ x ∈ l ∨ x ∈ new := by
  simp only [addAll, List.mem_append, List.mem_filter, Bool.not_eq_true', List.contains_eq_mem, decide_eq_false_iff_not]
  tauto

/-! ### QUEUE_STALLED (11 R301) -/

theorem queueStalled_stalls {s : State} {t q : Nat} (hq : q < 16) (hen : (s.cq q).enable = true) (hdr : (s.cq q).draining = false)
    (hst : (s.cq q).stalled = false) (hne : (s.cq q).sqHead ≠ (s.cq q).sqTail) : exec (.queueStalled t q) s =
      .next ((((s.at t).setCq q { s.cq q with stalled := true }).bump (uCq q) 2).log 0x600 5 q (s.cq q).sqHead 0) := by
  refine (ifUnit_of hq _).trans (congrArg _ ?_)
  rw [at_cq]
  exact if_neg (by simp [hen, hdr, hst, hne])

/-! ### The statement -/

/-- Settles O36: each doorbell finds its ring (`doorRing_submission` and its fellows) and acts or is logged; HALT notes, stops, clears and
logs, and nothing of that touches the halts again (`halted_halts`). -/
theorem doorbellsComplete : Obligations.DoorbellsComplete := by
  refine ⟨?_, ?_, ?_, ?_, ?_, ?_, ?_, ?_, ?_, ?_, ?_⟩
  · exact fun s t q v => submissionTail_moves
  · exact fun s t q v => completionHead_moves
  · exact fun s t n v descs => bufferRingTail_moves
  · exact fun s t n v => eventRingHead_moves
  · exact fun s t v => mgmtEventRingHead_moves
  · exact fun s t q v w => submissionTail_ignored
  · intro s t v hup hok hrel hkind
    rw [halt_eq, haltWrite_halts hup hok hrel, halt_outputs hkind]
    rfl
  · intro s t v hup hok hrel
    refine ⟨_, (halt_eq s t 8 v).trans (congrArg Host.Outcome.next (haltWrite_halts hup hok hrel)), ?_⟩
    have hhalts := halted_halts (s.at t) v.toNat
    rw [at_host, State.halts, Prod.mk.injEq] at hhalts
    obtain ⟨hconv, hcmp⟩ := hhalts
    rw [hconv, hcmp]
    exact ⟨fun c hc => mem_addAll.2 (.inr hc), fun k hk => mem_addAll.2 (.inr hk), fun c hc => mem_addAll.2 (.inl hc)⟩
  · rintro s t v u w hup hok hrel rfl rfl
    rw [halt_eq, haltWrite_halts hup hok hrel, State.haltNoted, at_host]
    rfl
  · rintro s t v u hup hok hrel rfl
    rw [release_eq, haltWrite_releases hup hok hrel, State.haltLifted, at_host]
    rfl
  · exact fun s t q => queueStalled_stalls

end Sys2Proof.Machine

/-! PROOFS. The setup registers as BAR0 writes and reads them (18 R470, R471, R475, R476, R493), and the serial host interface of
local-ring mode (11 R324, R325). -/

namespace Sys2Proof.Machine

/-! ### Writes (18 R471, R475, R476, R493) -/

section

variable {s : State} {t off : Nat} {v : Word}

theorem registerWrite_writes (hup : (s.at t).hostUp = true) (hal : off % 4 = 0) :
    exec (.registerWrite t off v 4) s = .next ((s.at t).regWrite off v.toNat) :=
  congrArg Host.Outcome.next (if_pos ⟨hup, rfl, hal⟩)

theorem registerWrite_ignored {w : Nat} (h : w ≠ 4 ∨ off % 4 ≠ 0 ∨ (s.at t).hostUp = false) :
    exec (.registerWrite t off v w) s = .next (s.at t) := by
  refine congrArg Host.Outcome.next (if_neg ?_)
  rintro ⟨hup, hw, hal⟩
  simp [hup, hw, hal] at h

theorem regWrite_host (hlow : 0x400 ≤ off) (hhigh : off < 0x1000) (x : Nat) : s.regWrite off x = s.writeHost off x := by
  unfold State.regWrite
  rw [if_neg (by omega), if_pos hhigh]

/-- The streams' share of the link is 1 to 16 sixteenths (11 R323). -/
theorem regWrite_share {x : Nat} (hlow : 1 ≤ bits x 0 5) (hhigh : bits x 0 5 ≤ 16) :
    s.regWrite 0x400 x = { s with host := { s.host with share := bits x 0 5 } } := by
  rw [regWrite_host (by decide) (by decide), State.writeHost, if_pos rfl, if_neg (by omega)]

theorem regWrite_resetCause (x : Nat) :
    s.regWrite 0x14 x = { s with chip := { s.chip with resetCause := s.chip.resetCause - Nat.land s.chip.resetCause (x % 32) } } := rfl

/-- The base of the management event ring is written while the ring is not enabled; its low half is held (18 R471, R476, R478). -/
theorem regWrite_meBaseLo (hen : s.host.me.enable = false) (x : Nat) : s.regWrite 0x410 x = s.holdLo 0x414 x := by
  rw [regWrite_host (by decide) (by decide), State.writeHost, if_neg (by decide), if_pos (by decide), hen]
  rfl

theorem regWrite_meBaseHi (hen : s.host.me.enable = false) (x : Nat) :
    s.regWrite 0x414 x = { s with host := { s.host with me := { s.host.me with base := s.committed 0x414 x } } } := by
  rw [regWrite_host (by decide) (by decide), State.writeHost, if_neg (by decide), if_pos (by decide), hen]
  rfl

/-- A write of the high half commits both halves. -/
theorem committed_holdLo (hw : Tbl.wf 0 s.host.loHold = true) (hi lo x : Nat) : (s.holdLo hi lo).committed hi x = lo + 2 ^ 32 * x :=
  congrArg (· + 2 ^ 32 * x) (Tbl.get_set_self hw)

@[simp] theorem at_committed (hi x : Nat) : (s.at t).committed hi x = s.committed hi x := by rw [State.committed, at_host, State.committed]

end

/-! ### Reads (18 R471) -/

section

variable {s : State} {off : Nat}

theorem regRead_hi (h4 : 4 ≤ off) (hlo : isLo (off - 4) = true) : s.regRead off = (s, Tbl.get 0 off s.host.latch) := if_pos ⟨h4, hlo⟩

theorem regRead_whole (hhi : off < 4 ∨ isLo (off - 4) = false) (hlo : isLo off = false) : s.regRead off = s.regNow off := by
  unfold State.regRead
  dsimp only
  rw [if_neg (by rintro ⟨h4, h⟩; simp [h, Nat.not_lt.2 h4] at hhi), if_neg (by simp [hlo])]

/-- A read of a low half latches the present high half. -/
theorem regRead_lo (hhi : off < 4 ∨ isLo (off - 4) = false) (hlo : isLo off = true) :
    s.regRead off = ({ (s.regNow off).1 with host := { (s.regNow off).1.host with
      latch := Tbl.set 0 (off + 4) ((s.regNow off).1.regNow (off + 4)).2 (s.regNow off).1.host.latch } }, (s.regNow off).2) := by
  unfold State.regRead
  dsimp only
  rw [if_neg (by rintro ⟨h4, h⟩; simp [h, Nat.not_lt.2 h4] at hhi), if_pos hlo]

theorem loRead_answers {t : Nat} (hup : (s.at t).hostUp = true) (hal : off % 4 = 0) :
    exec (.loRead t off) s = .next (((s.at t).regRead off).1.emit (.reg off ((s.at t).regRead off).2)) :=
  congrArg Host.Outcome.next ((if_neg (by simp [hup])).trans (if_neg (by simp [hal])))

theorem loRead_unaligned {t : Nat} (hup : (s.at t).hostUp = true) (hal : off % 4 ≠ 0) :
    exec (.loRead t off) s = .next ((s.at t).emit (.reg off 0)) :=
  congrArg Host.Outcome.next ((if_neg (by simp [hup])).trans (if_pos hal))

end

/-! ### The serial host interface (11 R324, R325) -/

@[simp] theorem at_inArea (s : State) (t a n : Nat) : (s.at t).inArea a n = s.inArea a n := by
  unfold State.inArea State.area
  rw [at_host]

section

variable {s : State} {t : Nat}

/-- Whole words go into the ring area as they come; outside it the access is logged. -/
theorem spiWriteRingArea_eq {data : Bytes} (ad : Nat) (hup : (s.at t).spiUp = true) (hlen : data.length % 4 = 0) (hne : data ≠ []) :
    exec (.spiWriteRingArea t ad data) s = .next (if s.inArea ad data.length then (s.at t).spWrite ad data else (s.at t).badLocal ad 0x02) := by
  have hwhole : data.take (data.length / 4 * 4) = data := List.take_of_length_le (by omega)
  change execSpiWriteRingArea t ad data s = _
  unfold execSpiWriteRingArea
  dsimp only
  rw [hwhole, if_neg (by simp [hup, hne]), at_inArea]

theorem spiReadRingArea_eq (ad n : Nat) (hup : (s.at t).spiUp = true) :
    exec (.spiReadRingArea t ad n) s = .next (if s.inArea ad n then (s.at t).emit (.spi ((s.at t).spRead ad n))
      else ((s.at t).badLocal ad 0x03).emit (.spi (zeros n))) := by
  change execSpiReadRingArea t ad n s = _
  unfold execSpiReadRingArea
  dsimp only
  rw [if_neg (by simp [hup]), at_inArea]

theorem spiWriteSetupRegister_writes {off : Nat} {v : Word} (hup : (s.at t).spiUp = true) (hal : off % 4 = 0) :
    exec (.spiWriteSetupRegister t off v) s = .next ((s.at t).regWrite off v.toNat) :=
  congrArg Host.Outcome.next (if_pos ⟨hup, hal⟩)

theorem spiReadSetupRegister_answers {off : Nat} (hup : (s.at t).spiUp = true) (hal : off % 4 = 0) :
    exec (.spiReadSetupRegister t off) s = .next (((s.at t).regRead off).1.emit (.spi (toLE 4 ((s.at t).regRead off).2))) :=
  congrArg Host.Outcome.next ((if_neg (by simp [hup])).trans (if_neg (by simp [hal])))

theorem spiWriteDoorbell_rings {off : Nat} {data : Bytes} (hup : (s.at t).spiUp = true) (hoff : off ≠ 0) (hlen : data.length = 4) :
    exec (.spiWriteDoorbell t off data) s = .next ((s.at t).doorbell4 off (le data) 4 []) := by
  change execSpiWriteDoorbell t off data s = _
  unfold execSpiWriteDoorbell
  dsimp only
  rw [hlen, if_neg (by simp [hup]), if_neg hoff]

theorem spiWriteDoorbell_halts {data : Bytes} (hup : (s.at t).spiUp = true) (hlen : data.length = 8) :
    exec (.spiWriteDoorbell t 0 data) s = .next ((s.at t).haltWrite (le data) 8) := by
  change execSpiWriteDoorbell t 0 data s = _
  unfold execSpiWriteDoorbell
  dsimp only
  rw [hlen, if_neg (by simp [hup]), if_pos rfl]

theorem spiReadClearPending_eq (hup : (s.at t).spiUp = true) :
    exec (.spiReadClearPending t) s = .next (State.emit { s.at t with host := { s.host with pendVec := [] } } (.spi (toLE 8 s.pendMask))) := by
  change execSpiReadClearPending t s = _
  unfold execSpiReadClearPending State.pendMask
  dsimp only
  rw [if_neg (by simp [hup]), at_host]

end

/-! ### The statement -/

/-- Settles O59: an aligned write of 4 bytes is `State.regWrite` and an aligned read `State.regRead`, on either interface; the ring area
and the doorbells of the serial interface have a lemma each. -/
theorem registerRowsComplete : Obligations.RegisterRowsComplete := by
  refine ⟨?_, ?_, ?_, ?_, ?_, ?_, ?_, ?_, ?_, ?_, ?_, ?_, ?_, ?_⟩
  · exact fun s t off v => registerWrite_writes
  · exact fun s t off v w => registerWrite_ignored
  · intro s t v hup hlow hhigh
    rw [registerWrite_writes hup rfl, regWrite_share hlow hhigh, at_host]
  · intro s t v hup
    rw [registerWrite_writes hup rfl, regWrite_resetCause, at_chip]
  · intro s t lo hi hup hen hw
    have hen' : (s.at t).host.me.enable = false := by rw [at_host, hen]
    have hme : ((s.at t).holdLo 0x414 lo.toNat).host.me = s.host.me := by rw [State.holdLo, at_host]
    refine ⟨(s.at t).holdLo 0x414 lo.toNat, by rw [registerWrite_writes hup rfl, regWrite_meBaseLo hen'], hme, ?_⟩
    have hup' : (((s.at t).holdLo 0x414 lo.toNat).at t).hostUp = true := by rwa [at_hostUp]
    refine ⟨_, (registerWrite_writes hup' rfl).trans (congrArg Host.Outcome.next (regWrite_meBaseHi (by rw [at_host, hme, hen]) _)), ?_⟩
    rw [at_committed, committed_holdLo (by rwa [at_host])]
  · intro s t off hup hal hhi hlo
    rw [loRead_answers hup hal, regRead_whole hhi hlo]
  · rintro s t off u hup hal hhi hlo rfl
    rw [loRead_answers hup hal, regRead_lo hhi hlo]
  · intro s t off hup hal h4 hlo
    rw [loRead_answers hup hal, regRead_hi h4 hlo, at_host]
  · exact fun s t off => loRead_unaligned
  · intro s t ad data hup hlen hne
    rw [spiWriteRingArea_eq ad hup hlen hne]
    exact ⟨fun hin => congrArg Host.Outcome.next (if_pos hin), fun hout => congrArg Host.Outcome.next (if_neg (by simp [hout]))⟩
  · intro s t ad n hup
    rw [spiReadRingArea_eq ad n hup, State.spRead, at_fab]
    exact ⟨fun hin => congrArg Host.Outcome.next (if_pos hin), fun hout => congrArg Host.Outcome.next (if_neg (by simp [hout]))⟩
  · exact fun s t off v hup hal => ⟨spiWriteSetupRegister_writes hup hal, spiReadSetupRegister_answers hup hal⟩
  · exact fun s t off data hup => ⟨spiWriteDoorbell_rings hup, spiWriteDoorbell_halts hup⟩
  · exact fun s t => spiReadClearPending_eq

end Sys2Proof.Machine

/-! PROOFS. Commands while a PERSONA_LOAD is in flight (12 R332) and under an alarm (12 R330; 15 R411), and NOP (12 R334): three
statements of 12_command_reference.md. -/

namespace Sys2Proof.Machine

/-! ### While a PERSONA_LOAD is in flight (12 R332) -/

@[simp] theorem at_selftestFail (s : State) (t : Nat) : (s.at t).time.selftestFail = s.time.selftestFail := by
  unfold State.at
  split <;> rfl

@[simp] theorem at_inFlight (s : State) (t : Nat) : (s.at t).inFlight = s.inFlight := by
  rw [State.inFlight, at_chip, State.inFlight]

/-- The list of 12 R332 alone then decides for which commands the device is busy. -/
theorem busyFor_loading {s : State} {e : Nat × Hnd} (op : Nat) (a : Bytes) (he : e ∈ s.inFlight) (hop : e.2.opcode = 0x0600)
    (hst : s.time.selftestFail = false) : s.busyFor op a = !(servedInLoad.contains op) := by
  have hany : (s.inFlight.any fun e => e.2.opcode == 0x0600) = true := List.any_eq_true.2 ⟨e, he, by simp [hop]⟩
  unfold State.busyFor
  rw [if_neg (by simp [hst]), if_pos (.inr hany)]

theorem mayDispatch_personaLoad {s : State} {d : Desc} (hop : d.opcode = 0x0600) (h : s.inFlight ≠ []) : s.mayDispatch d = false := by
  have hempty : s.inFlight.isEmpty = false := List.isEmpty_eq_false_iff.2 h
  simp [State.mayDispatch, hop, hempty]

/-- Settles O10: `busyFor_loading` decides every command but PERSONA_LOAD, which `State.mayDispatch` holds back. -/
theorem busyDuringPersonaLoad : Obligations.BusyDuringPersonaLoad := by
  refine ⟨fun s op d bad pre body a e hj hk hb he hop hst => ?_, fun s d h hq hop hfl => ?_⟩
  · have hbusy : (s.at d.t).busyFor op a = !(servedInLoad.contains op) :=
      busyFor_loading op a (by rwa [at_inFlight]) hop (by rwa [at_selftestFail])
    refine ⟨fun h1 h2 h3 h4 h5 h6 h7 => ?_, fun hserved => ?_⟩
    · have hnot : servedInLoad.contains op = false := by simp [servedInLoad, h1, h2, h3, h4, h5, h6, h7]
      exact command_of_none ((dispatch_judged hj hk).trans (judgeRecord_busy hb (hbusy.trans (by rw [hnot]; rfl))))
    · rw [hbusy]
      rcases hserved with rfl | rfl | rfl | rfl | rfl | rfl | rfl <;> rfl
  · exact (if_pos hq).trans (congrArg _ (command_of_none (dispatch_idle (mayDispatch_personaLoad hop (by rwa [at_inFlight])))))

/-! ### While an alarm halts the persona (12 R330; 15 R411) -/

section

variable {s : State} {op : Nat} {d : Desc} {bad : Bytes → Option Nat} {pre : State → Bytes → Option Nat}
  {body : Nat → Bytes → State → State} {slot : Nat} {a : Bytes} {rest : List Nat}

theorem judgeRecord_accepts (hb : bad a = none) (hy : s.busyFor op a = false) (hp : pre s a = none) (hf : s.chip.freeSlots = slot :: rest) :
    s.judgeRecord op d a bad pre =
      if (s.accept d a slot).husk.halted && lockedOps.contains op then ((s.accept d a slot).final slot stLOCKED 0 0, none)
      else (s.accept d a slot, some (slot, a)) := by
  rw [State.judgeRecord, hb]
  simp only [hy, hp, hf]
  rfl

/-- Under the halt an accepted command of R330's list ends LOCKED, and its body does not run. -/
theorem command_halted (h : Judged s op d a) (hk : (opcodes.any fun e => e.1 == op) = true) (hb : bad a = none)
    (hy : (s.at d.t).busyFor op a = false) (hp : pre (s.consumed d) a = none) (hf : s.chip.freeSlots = slot :: rest)
    (hh : s.husk.halted = true) :
    s.command op d bad pre body =
      if lockedOps.contains op then (s.admitted d slot a).final slot stLOCKED 0 0 else body slot a (s.admitted d slot a) := by
  have hacc := (dispatch_judged h hk).trans (judgeRecord_accepts hb hy hp (by rw [consumed_chip, hf]))
  have hhalt : (s.admitted d slot a).husk.halted = true := by rw [admitted_husk, hh]
  rw [show (s.consumed d).accept (s.atDesc d) a slot = s.admitted d slot a from rfl, hhalt, Bool.true_and] at hacc
  cases hl : lockedOps.contains op <;> rw [hl] at hacc
  · exact command_of_some hacc
  · exact command_of_none hacc

end

/-- Settles O11: `command_halted`, for the commands in and out of R330's list. -/
theorem lockedInAlarm : Obligations.LockedInAlarm := by
  intro s op d bad pre body a slot rest hj hk hb hy hp hf hh
  rw [command_halted hj hk hb hy hp hf hh]
  refine ⟨fun hop => if_pos (List.contains_iff_mem.2 hop), fun hop => if_neg ?_⟩
  have hout : ∀ o ∈ [0x0001, 0x0002, 0x0101, 0x0105, 0x0303, 0x0400, 0x0401, 0x0402, 0x0501, 0x0700, 0x0701, 0x0702, 0x0800, 0x0802, 0x0F00],
      lockedOps.contains o = false := by decide
  simpa using hout op hop

/-! ### What a queue command leaves alone -/

theorem rejected_quiet (s : State) (d : Desc) (st r0 : Nat) : Quiet (s.at d.t) (s.rejected d st r0) :=
  (setCq_quiet ..).trans (reject_quiet ..)

/-- Dispatch posts entries, and touches nothing else. -/
theorem judgeRecord_quiet (s : State) (op : Nat) (d : Desc) (a : Bytes) (bad : Bytes → Option Nat) (pre : State → Bytes → Option Nat) :
    Quiet s (s.judgeRecord op d a bad pre).1 := by
  unfold State.judgeRecord
  split
  · exact reject_quiet ..
  · split
    · exact reject_quiet ..
    · split
      · exact reject_quiet ..
      · split
        · exact reject_quiet ..
        · split
          · exact (accept_quiet ..).trans (final_quiet ..)
          · exact accept_quiet ..

theorem dispatch_other {s : State} {op : Nat} {d : Desc} (bad : Bytes → Option Nat) (pre : State → Bytes → Option Nat)
    (ho : (s.atDesc d).opcode ≠ op) (hk : (opcodes.any fun e => e.1 == (s.atDesc d).opcode) = true) :
    s.dispatch op d bad pre = (s.at d.t, none) := if_pos (.inr ⟨ho, hk⟩)

theorem dispatch_quiet {s : State} {d : Desc} (op : Nat) (bad : Bytes → Option Nat) (pre : State → Bytes → Option Nat) (hq : d.queue < 16) :
    Quiet (s.at d.t) (s.dispatch op d bad pre).1 := by
  cases hm : (s.at d.t).mayDispatch (s.atDesc d) with
  | false => rw [dispatch_idle hm]; exact .refl _
  | true =>
    cases hk : opcodes.any fun e => e.1 == (s.atDesc d).opcode with
    | false => rw [dispatch_unknown hm hk]; exact rejected_quiet ..
    | true =>
      by_cases ho : (s.atDesc d).opcode = op
      · rw [ho] at hk
        cases hd : (s.at d.t).descBad (s.atDesc d) (argLen op) with
        | some o => rw [dispatch_badDescriptor hm ho hk hd]; exact rejected_quiet ..
        | none => rw [dispatch_judged ⟨hq, ho, hm, hd, rfl⟩ hk]; exact (setCq_quiet ..).trans (judgeRecord_quiet ..)
      · rw [dispatch_other bad pre ho hk]; exact .refl _

/-- A queue command whose body posts entries alone touches nothing else. -/
theorem queueCmd_quiet {s u : State} {op : Nat} {d : Desc} {bad : Bytes → Option Nat} {pre : State → Bytes → Option Nat}
    {body : Nat → Bytes → State → State} (hbody : ∀ slot a s, Quiet s (body slot a s))
    (h : queueCmd d s (fun s => s.command op d bad pre body) = .next u) : Quiet (s.at d.t) u := by
  by_cases hq : d.queue < 16
  · obtain rfl : s.command op d bad pre body = u := Host.Outcome.next.inj ((if_pos hq).symm.trans h)
    have hd := dispatch_quiet op bad pre hq (s := s)
    unfold State.command
    split
    next hdis => rwa [hdis] at hd
    next hdis =>
      rw [hdis] at hd
      exact hd.trans (hbody ..)
  · exact absurd ((if_neg hq).symm.trans h) nofun

/-! ### NOP (12 R334) -/

theorem nop_runs {s : State} {d : Desc} {slot : Nat} {a : Bytes} (h : Admits s 0x0001 d slot a) (hb : firstBad a (rsv 4 4) = none) :
    exec (.nop d) s = .next (bodyNop slot a (s.admitted d slot a)) := command_admitted h rfl hb rfl

theorem bodyNop_late {s : State} {slot : Nat} {a : Bytes} (h : 1000000 < fld a 0 4) : bodyNop slot a s = s.final slot stRANGE 0 0 := if_pos h

theorem bodyNop_waits {s : State} {slot : Nat} {a : Bytes} (h : fld a 0 4 ≤ 1000000) :
    bodyNop slot a s = s.setWork slot (.delay (s.now + 250 * fld a 0 4)) := if_neg (Nat.not_lt.2 h)

theorem bodyNop_quiet (slot : Nat) (a : Bytes) (s : State) : Quiet s (bodyNop slot a s) := .ite (final_quiet ..) (setWork_quiet ..)

theorem nopDelayPassed_eq {s : State} {slot due : Nat} (t : Nat) (hw : (s.hnd slot).work = .delay due) :
    exec (.nopDelayPassed t slot) s = .next (if (s.at t).now < due then s.at t else (s.at t).final slot stOK (s.at t).now 0) := by
  change execNopDelayPassed t slot s = _
  unfold execNopDelayPassed
  simp only [at_hnd, hw]

theorem nopDelayPassed_other {s : State} {slot : Nat} (t : Nat) (hw : ∀ due, (s.hnd slot).work ≠ .delay due) :
    exec (.nopDelayPassed t slot) s = .next (s.at t) := by
  change execNopDelayPassed t slot s = _
  unfold execNopDelayPassed
  dsimp only
  split
  next due h => exact absurd (by rwa [at_hnd] at h) (hw due)
  next => rfl

theorem nopDelayPassed_quiet {s u : State} {t slot : Nat} (h : exec (.nopDelayPassed t slot) s = .next u) : Quiet (s.at t) u := by
  by_cases hw : ∃ due, (s.hnd slot).work = .delay due
  · obtain ⟨due, hw⟩ := hw
    obtain rfl := Host.Outcome.next.inj ((nopDelayPassed_eq t hw).symm.trans h)
    exact .ite (.refl _) (final_quiet ..)
  · obtain rfl := Host.Outcome.next.inj ((nopDelayPassed_other t (not_exists.1 hw)).symm.trans h)
    exact .refl _

/-- Settles O20: the two outcomes of `bodyNop` and of the end of its delay; `Quiet` says what they leave alone. -/
theorem nopCompletesAndChangesNothing : Obligations.NopCompletesAndChangesNothing := by
  refine ⟨fun s d a o hj hb => ?_, fun s d slot a h hb => ⟨fun hlate => ?_, fun hdelay => ?_⟩, fun s t slot due hw => ⟨fun hearly => ?_, fun hdue => ?_⟩,
    fun s u d t slot h => ?_⟩
  · exact (if_pos hj.1).trans (congrArg _ (command_of_none ((dispatch_judged hj rfl).trans (judgeRecord_bad hb))))
  · rw [nop_runs h hb, bodyNop_late hlate]
  · rw [nop_runs h hb, bodyNop_waits hdelay, admitted_now]
  · rw [nopDelayPassed_eq t hw, if_pos hearly]
  · rw [nopDelayPassed_eq t hw, if_neg (Nat.not_lt.2 hdue)]
  · obtain ⟨t', q⟩ : ∃ t', Quiet (s.at t') u := h.elim (fun h => ⟨_, queueCmd_quiet bodyNop_quiet h⟩) fun h => ⟨_, nopDelayPassed_quiet h⟩
    exact ⟨q.clk.trans (at_clk s t'), q.sheaf.trans (at_sheaf s t'), q.til.trans (at_til s t'), q.convs.trans (at_convs s t'),
      q.dacs.trans (at_dacs s t'), q.cal.trans (at_cal s t'), q.keep.trans (at_keep s t'), q.husk.trans (at_husk s t'),
      q.pin.trans (at_pin s t'), q.mon.trans (at_mon s t')⟩

end Sys2Proof.Machine

/-! PROOFS. QUERY, LOG_DRAIN, STOLON_POLICY and ABORT (12 R335, R336, R350, R351, R357; 11 R306), and with NOP the statement of the
generic commands of 12_command_reference.md. -/

namespace Sys2Proof.Machine

/-! ### Handle slots that an admission and a log entry leave as they were -/

@[simp] theorem logPush_handles (s : State) (e : LogEntry) : (s.logPush e).chip.handles = s.chip.handles := by
  unfold State.logPush
  dsimp only
  split
  · rfl
  · split <;> rfl

theorem logWrite_handles (s : State) (e : LogEntry) : (s.logWrite e).1.chip.handles = s.chip.handles := by
  have hcount : ((s.logPush e).bumpRaw 0 2 1).1.chip.handles = s.chip.handles := logPush_handles s e
  unfold State.logWrite
  dsimp only
  split
  · exact (congrArg Chip.handles (meRaise_chip _ e)).trans hcount
  · exact hcount

theorem logAll_handles (n : Nat) (l : List LogEntry) (s : State) : (State.logAll n l s).chip.handles = s.chip.handles := by
  induction n generalizing l s with
  | zero => cases l <;> rfl
  | succ n ih =>
    cases l with
    | nil => rfl
    | cons e es => exact (ih _ _).trans (logWrite_handles s e)

@[simp] theorem log_handles (s : State) (code level idx a0 a1 : Nat) : (s.log code level idx a0 a1).chip.handles = s.chip.handles := by
  unfold State.log State.logEntry
  split
  · rfl
  · split
    · split <;> rfl
    · exact logAll_handles ..

@[simp] theorem bump_handles (s : State) (u k : Nat) : (s.bump u k).chip.handles = s.chip.handles := by
  unfold State.bump State.bumpN
  dsimp only
  split
  · exact log_handles ..
  · rfl

theorem hnd_setHnd_other {s : State} {n k : Nat} {v : Hnd} (h : k ≠ n) : (s.setHnd n v).hnd k = s.hnd k := Tbl.get_set_other h

theorem hnd_setWork_other {s : State} {n k : Nat} {w : Work} (h : k ≠ n) : (s.setWork n w).hnd k = s.hnd k := by
  unfold State.setWork
  split
  · exact hnd_setHnd_other h
  · rfl

/-- An acceptance takes its own slot alone (11 R303). -/
theorem accept_hnd_other {s : State} {d : Desc} {a : Bytes} {slot n : Nat} (h : n ≠ slot) : (s.accept d a slot).hnd n = s.hnd n := by
  unfold State.accept State.hnd
  simp only [post_chip, bump_handles]
  exact Tbl.get_set_other h

theorem admitted_hnd_other {s : State} {d : Desc} {a : Bytes} {slot n : Nat} (h : n ≠ slot) :
    (s.admitted d slot a).hnd n = (s.consumed d).hnd n := accept_hnd_other h

/-! ### Reserved places (00 R10) -/

theorem firstBad_eq_none_iff {b : Bytes} {l : List (Nat × Nat)} : firstBad b l = none ↔ ∀ e ∈ l, Nat.land (byteAt b e.1) e.2 = 0 := by
  induction l with
  | nil => exact ⟨fun _ _ h => absurd h List.not_mem_nil, fun _ => rfl⟩
  | cons e l ih =>
    rw [firstBad, List.forall_mem_cons, ← ih]
    split
    case isTrue h => exact ⟨nofun, fun hall => absurd hall.1 h⟩
    case isFalse h => exact ⟨fun hl => ⟨not_not.1 h, hl⟩, And.right⟩

theorem firstBad_append {b : Bytes} {l m : List (Nat × Nat)} (hl : firstBad b l = none) (hm : firstBad b m = none) :
    firstBad b (l ++ m) = none :=
  firstBad_eq_none_iff.2 (List.forall_mem_append.2 ⟨firstBad_eq_none_iff.1 hl, firstBad_eq_none_iff.1 hm⟩)

theorem le_eq_zero {l : Bytes} (h : le l = 0) : ∀ x ∈ l, x = 0 := by
  induction l with
  | nil => nofun
  | cons x l ih =>
    have hsum : x.toNat + 256 * le l = 0 := h
    have hx : x = 0 := BitVec.eq_of_toNat_eq (by simp; omega)
    exact List.forall_mem_cons.2 ⟨hx, ih (by omega)⟩

/-- A field that is 0 has no byte set. -/
theorem firstBad_rsv_of_fld {b : Bytes} {o n : Nat} (h : fld b o n = 0) : firstBad b (rsv o n) = none := by
  have hbyte (i : Nat) (hi : i < n) : byteAt b (o + i) = 0 := by
    have hget : ((b.drop o).take n).getD i 0 = b.getD (o + i) 0 := by simp [List.getD_eq_getElem?_getD, hi]
    rw [byteAt, ← hget, List.getD_eq_getElem?_getD]
    cases hx : ((b.drop o).take n)[i]? with
    | none => rfl
    | some x => simp [le_eq_zero h x (List.mem_of_getElem? hx)]
  refine firstBad_eq_none_iff.2 fun e he => ?_
  obtain ⟨i, hi, rfl⟩ := List.mem_map.1 he
  rw [hbyte i (List.mem_range.1 hi)]
  exact Nat.zero_and 255

/-! ### QUERY (12 R335, R336) -/

theorem answer_writes {s : State} {slot addr len : Nat} {b : Bytes} (r0 r1 : Nat) (halign : addr % 8 = 0) (hlen : b.length ≤ len)
    (hbuf : s.bufOk addr len = true) : s.answer slot addr len b r0 r1 = (s.hostWrite addr b).final slot stOK r0 r1 :=
  if_neg (by simp [halign, hbuf, hlen])

theorem bodyQuery_replies {s : State} {slot r0 r1 : Nat} {a b : Bytes} (hkind : byteAt a 0 ≠ 1)
    (hreply : s.queryReply (byteAt a 0) (fld a 2 2) = some (b, r0, r1)) :
    bodyQuery slot a s = s.answer slot (fld a 8 8) (fld a 4 4) b r0 r1 := by
  unfold bodyQuery
  dsimp only
  rw [if_neg hkind, hreply]

theorem bodyQuery_handle {s : State} {slot : Nat} {a : Bytes} (hkind : byteAt a 0 = 1) :
    bodyQuery slot a s = s.queryHandle slot (fld a 2 2) (fld a 8 8) (fld a 4 4) := if_pos hkind

/-- The fraction done of a command in flight is a fresh free value (log 15). -/
theorem queryHandle_inFlight {s : State} {slot v : Nat} (hst : (s.hnd (v % 4096)).st = 1) :
    s.queryHandle slot v 0 0 = s.fresh.2.final slot stOK ((s.hnd (v % 4096)).opcode * 2 ^ 16 + (s.hnd (v % 4096)).queue * 2 ^ 32)
      (s.fresh.1 % 65536) := by
  unfold State.queryHandle
  simp [hst, pack, b2n]

/-- The report of a placed graph `g` as it stands now (12 R336). -/
def State.reportNow (s : State) (g : Graph) : Graph :=
  { s.evaluate g with outcome := outcomeOf (s.evaluate g), temp := s.graphTemp g }

theorem queryHandle_graph {s : State} {slot v addr len : Nat} {g : Graph} (hst : (s.hnd (v % 4096)).st = 2) (hkind : (s.hnd (v % 4096)).kind = 1)
    (hg : s.graph (v % 4096) = some g) (haddr : addr ≠ 0) :
    s.queryHandle slot v addr len = s.answer slot addr len (reportBytes (s.reportNow g) ((s.hnd (v % 4096)).value (v % 4096)) false)
      (1 + (s.hnd (v % 4096)).opcode * 2 ^ 16 + (s.hnd (v % 4096)).queue * 2 ^ 32 + 2 ^ 40) (outcomeOf (s.evaluate g)) := by
  unfold State.queryHandle
  simp [hst, hkind, hg, haddr, pack, b2n, State.reportNow, Nat.add_assoc]

/-- A QUERY whose record is in form (00 R5; 11 R305; 12 R335) runs its body. -/
theorem query_runs {s : State} {d : Desc} {slot : Nat} {a : Bytes} (h : Admits s 0x0002 d slot a) (hb : firstBad a (rsv 1 1) = none)
    (hlen : byteAt a 0 = 1 → fld a 8 8 = 0 → fld a 4 4 = 0) (hname : byteAt a 0 = 1 → (s.consumed d).names (fld a 2 2) = true)
    (hconv : byteAt a 0 = 2 → fld a 2 2 < 192) : exec (.query d) s = .next (bodyQuery slot a (s.admitted d slot a)) := by
  refine command_admitted h rfl (firstBad_append hb ?_) ?_
  · split
    case isTrue hc => exact firstBad_rsv_of_fld (hlen hc.1 hc.2)
    case isFalse => rfl
  · refine (if_neg fun ⟨hk, hno⟩ => ?_).trans (if_neg fun ⟨hk, hno⟩ => ?_)
    · rw [hname hk] at hno
      exact absurd hno (by decide)
    · have hlt := hconv hk
      simp only [noConverter, Bool.and_eq_true, decide_eq_true_eq] at hno
      omega

/-! ### LOG_DRAIN (12 R350) -/

/-- The record `a` of a LOG_DRAIN asks for a number of entries in range, into a buffer that may be used. -/
structure DrainJudged (s : State) (a : Bytes) : Prop where
  atLeast : 1 ≤ fld a 4 4
  atMost : fld a 4 4 ≤ 8192
  aligned : fld a 8 8 % 8 = 0
  usable : s.bufOk (fld a 8 8) (32 * fld a 4 4) = true

/-- The oldest `n` entries that no LOG_DRAIN has copied yet. -/
def State.undrained (s : State) (n : Nat) : List LogEntry := (s.chip.log.drop s.chip.drained).take n

/-- `n` further entries count as copied. -/
def State.markDrained (s : State) (n : Nat) : State := { s with chip := { s.chip with drained := s.chip.drained + n, lostUndrained := 0 } }

theorem bodyLogDrain_judged {s : State} {slot : Nat} {a : Bytes} (h : DrainJudged s a) :
    bodyLogDrain slot a s =
      if bit (byteAt a 0) 0 then
        (s.hostWrite (fld a 8 8) (s.keep.checkpoint.take (fld a 4 4)).flatten).final slot stOK (s.keep.checkpoint.take (fld a 4 4)).length 0
      else ((s.hostWrite (fld a 8 8) ((s.undrained (fld a 4 4)).flatMap LogEntry.bytes)).markDrained (s.undrained (fld a 4 4)).length).final slot
        stOK (s.undrained (fld a 4 4)).length s.chip.lostUndrained := by
  obtain ⟨hmin, hmax, halign, hbuf⟩ := h
  unfold bodyLogDrain
  dsimp only
  rw [if_neg (by omega), if_neg (by simp [halign, hbuf])]
  rfl

/-! ### STOLON_POLICY (12 R351) -/

/-- The policy of record `a` is in force; spares that were cold stay so where it does not enable Stolon. -/
def State.withStolon (s : State) (a : Bytes) : State :=
  { s with til := { s.til with policy := readPolicy a, sparesCold := s.til.sparesCold && !bit (byteAt a 0) 0 } }

theorem bodyStolonPolicy_sets {s : State} {slot : Nat} {a : Bytes} (h : (readPolicy a).ok = true) :
    bodyStolonPolicy slot a s = (s.withStolon a).resizePool.final slot stOK (s.withStolon a).resizePool.poolWarm
      (s.withStolon a).resizePool.poolMissing := if_neg (by simp [h])

/-! ### ABORT (11 R306; 12 R357) -/

theorem bodyAbort_abort {s : State} {slot : Nat} {a : Bytes}
    (hop : ((s.setWork slot (.abort (fld a 0 2 % 4096))).hnd (fld a 0 2 % 4096)).opcode = 0x0F00) :
    bodyAbort slot a s = s.setWork slot (.abort (fld a 0 2 % 4096)) := if_pos hop

theorem bodyAbort_stops {s : State} {slot : Nat} {a : Bytes}
    (hop : ((s.setWork slot (.abort (fld a 0 2 % 4096))).hnd (fld a 0 2 % 4096)).opcode ≠ 0x0F00) :
    bodyAbort slot a s = ((s.setWork slot (.abort (fld a 0 2 % 4096))).stopCmd (fld a 0 2 % 4096) stABORTED).1.memNext.cellsFreed.resume :=
  if_neg hop

/-- A NOP can be stopped at any time (12 R333). -/
theorem stopCmd_delay {s : State} {n due : Nat} (st : Nat) (hw : (s.hnd n).work = .delay due) :
    s.stopCmd n st = (s.final n st s.now 0, true) := by
  unfold State.stopCmd
  simp only [hw]

/-- Settles O24: each command is admitted, and its body runs past the checks that its record meets. -/
theorem genericCommandsComplete : Obligations.GenericCommandsComplete := by
  refine ⟨?_, ?_, ?_, ?_, ?_, ?_, ?_, ?_, ?_⟩
  · intro s d slot a h hb hdelay
    rw [nop_runs h hb, bodyNop_waits hdelay]
  · intro s t slot due hw hdue
    rw [nopDelayPassed_eq t hw, if_neg (Nat.not_lt.2 hdue)]
  · intro s d slot a b r0 r1 h hb hkind hconv hreply halign hlen hbuf
    rw [query_runs h hb (absurd · hkind) (absurd · hkind) hconv, bodyQuery_replies hkind hreply, answer_writes r0 r1 halign hlen hbuf]
  · intro s d slot a h hb hkind hlen haddr hname hst
    rw [query_runs h hb (fun _ _ => hlen) (fun _ => hname) (by simp [hkind]), bodyQuery_handle hkind, hlen, haddr, queryHandle_inFlight hst]
    exact ⟨_, rfl⟩
  · intro s d slot a n g e h hb hkind haddr halign hn hname hst hobj hop hq hg he hlen hbuf
    subst hn
    obtain rfl : e = (s.admitted d slot a).reportNow g := he
    rw [query_runs h hb (fun _ hz => absurd hz haddr) (fun _ => hname) (by simp [hkind]), bodyQuery_handle hkind,
      queryHandle_graph hst hobj hg haddr, answer_writes _ _ halign hlen hbuf, hop]
  · intro s d slot a l h hb hmin hmax halign hbuf hvolatile hl
    have hrun : exec (.logDrain d) s = .next (bodyLogDrain slot a (s.admitted d slot a)) := command_admitted h rfl hb rfl
    subst hl
    have hlost (addr : Nat) (b : Bytes) : ((s.admitted d slot a).hostWrite addr b).chip.lostUndrained = (s.admitted d slot a).chip.lostUndrained := by
      rw [hostWrite_chip]
    refine ⟨_, rfl, ?_⟩
    rw [hrun, bodyLogDrain_judged ⟨hmin, hmax, halign, hbuf⟩, if_neg (by simp [hvolatile]), hlost]
    rfl
  · intro s d slot a h hb hmin hmax halign hbuf hcheckpoint
    have hrun : exec (.logDrain d) s = .next (bodyLogDrain slot a (s.admitted d slot a)) := command_admitted h rfl hb rfl
    rw [hrun, bodyLogDrain_judged ⟨hmin, hmax, halign, hbuf⟩, if_pos hcheckpoint, admitted_keep]
  · intro s d slot a h hb hmin hmax hpool hpmin hpmax hlmin hlmax
    have hrun : exec (.stolonPolicy d) s = .next (bodyStolonPolicy slot a (s.admitted d slot a)) := command_admitted h rfl hb rfl
    have hok : (readPolicy a).ok = true := by simp [Policy.ok, readPolicy, hmin, hmax, hpool, hpmin, hpmax, hlmin, hlmax]
    refine ⟨_, rfl, ?_⟩
    rw [hrun, bodyStolonPolicy_sets hok, State.withStolon, admitted_til]
  · intro s d slot a n h hb hn hname hst hne
    subst hn
    have hrun : exec (.abort d) s = .next (bodyAbort slot a (s.admitted d slot a)) := command_admitted h rfl hb (by simp [hname, hst])
    have hhnd : ((s.admitted d slot a).setWork slot (.abort (fld a 0 2 % 4096))).hnd (fld a 0 2 % 4096) = (s.consumed d).hnd (fld a 0 2 % 4096) :=
      (hnd_setWork_other hne).trans (admitted_hnd_other hne)
    refine ⟨fun due hwork hop => ?_, fun hop => ?_, fun hop => ?_⟩
    · rw [hrun, bodyAbort_stops (by rw [hhnd, hop]; decide), stopCmd_delay _ (by rw [hhnd, hwork]), setWork_now, admitted_now]
    · rw [hrun, bodyAbort_stops (by rwa [hhnd])]
    · rw [hrun, bodyAbort_abort (by rwa [hhnd])]

end Sys2Proof.Machine

/-! PROOFS. Pin mappings and GPIO (12 R354, R355; 16 R432-R442): a statement of 12_command_reference.md. -/

namespace Sys2Proof.Machine

/-! ### PIN_MAP (12 R354; 16 R432, R433) -/

/-- The status of entries depends on the pin controller and on the mode of the serial host interface alone. -/
theorem mapsStatus_congr {s u : State} (hpin : u.pin = s.pin) (hmode : u.time.localMode = s.time.localMode) (l : List (Nat × PinMapE)) :
    u.mapsStatus l = s.mapsStatus l := by
  have hone (p : Nat) (m : PinMapE) : u.mapStatus p m = s.mapStatus p m := by
    simp only [State.mapStatus, State.pairMode, State.mapDrives, State.port, State.bank, hpin, hmode]
    rfl
  simp only [State.mapsStatus, hone]

/-- The record `a` of a PIN_MAP names 1 to 64 entries in a buffer that may be used, and none of them has a reserved byte set. -/
structure MapJudged (s : State) (entries a : Bytes) : Prop where
  atLeast : 1 ≤ byteAt a 0
  atMost : byteAt a 0 ≤ 64
  aligned : fld a 8 8 % 8 = 0
  usable : s.bufOk (fld a 8 8) (8 * byteAt a 0) = true
  clean : entriesBad (s.hostRead (fld a 8 8) (8 * byteAt a 0) entries) (byteAt a 0) = false

/-- The entries that a PIN_MAP reads. -/
def State.mapEntries (s : State) (entries a : Bytes) : List (Nat × PinMapE) :=
  (List.range (byteAt a 0)).map fun i => readPinMap (s.hostRead (fld a 8 8) (8 * byteAt a 0) entries) i

theorem bodyPinMap_judged {s : State} {entries a : Bytes} (slot : Nat) (h : MapJudged s entries a) :
    bodyPinMap entries slot a s =
      if s.mapsStatus (s.mapEntries entries a) ≠ stOK then s.final slot (s.mapsStatus (s.mapEntries entries a)) 0 0
      else (s.queueMaps (some slot) (s.mapEntries entries a)).setWork slot .pins := by
  obtain ⟨hmin, hmax, halign, hbuf, hclean⟩ := h
  have hread : s.pinEntries a entries = s.hostRead (fld a 8 8) (8 * byteAt a 0) entries := by rw [State.pinEntries, Nat.min_eq_left hmax]
  unfold bodyPinMap
  dsimp only
  rw [if_neg (by simp [halign, hbuf]), if_neg (by omega), hread, hclean]
  rfl

/-! ### GPIO (12 R355; 16 R439) -/

theorem gpioMask_congr {s u : State} (h : u.pin = s.pin) (b w : Nat) : u.gpioMask b w = s.gpioMask b w := by
  simp only [State.gpioMask, State.gpioOut, State.pinS, h]

/-- A masked write: the bits of bank `b` that `m` names take their value from `w` (16 R439). -/
def State.outMasked (s : State) (b w m : Nat) : State :=
  s.setBank b { s.bank b with out := (s.bank b).out - Nat.land (s.bank b).out m + Nat.land (w % 65536) m }

theorem maskedOut_eq (s : State) (b w : Nat) : s.maskedOut b w = s.outMasked b w (s.gpioMask b w) := rfl

theorem bodyGpio_bank {s : State} {slot : Nat} {a : Bytes} (hb : byteAt a 0 < 12) :
    bodyGpio slot a s = (s.maskedOut (byteAt a 0) (fld a 4 4)).final slot stOK ((s.maskedOut (byteAt a 0) (fld a 4 4)).bank (byteAt a 0)).out
      (fld a 4 4 / 65536 - s.gpioMask (byteAt a 0) (fld a 4 4)) := if_neg (Nat.not_le.2 hb)

theorem pinOut_eq {s : State} {t b : Nat} (v : Word) (hb : b < 12) (hup : (s.at t).hostUp = true) :
    exec (.pinOut t b v) s = .next ((s.at t).setBank b { (s.at t).bank b with out := v.toNat % 65536 }) :=
  (ifUnit_of hb _).trans (congrArg _ (if_pos hup))

theorem pinOutMasked_eq {s : State} {t b : Nat} (v : Word) (hb : b < 12) (hup : (s.at t).hostUp = true) :
    exec (.pinOutMasked t b v) s = .next ((s.at t).maskedOut b v.toNat) :=
  (ifUnit_of hb _).trans (congrArg _ (if_pos hup))

/-! ### PIN_INPUT_CHANGE (16 R436, R440) -/

/-- Pin `p` has the level `level`. -/
def State.levelled (s : State) (p : Nat) (level : Bool) : State := s.setPinS p { s.pinS p with level := level }

/-- The trigger input that follows pin `p` alone, mapped as `own` says. -/
def State.followed (s : State) (p : Nat) (own : Option PinMapE) : Option Nat :=
  (s.sigsOf own).find? fun g => decide (g < 32) && decide (s.sigPin g = some p)

theorem pinInputChange_eq {s : State} {t p : Nat} {level : Bool} (hp : p < 192) (hnew : (s.pinS p).level ≠ level)
    (hpower : level = true → (s.bank (p / 16)).powered = true) :
    exec (.pinInputChange t p level) s = .next ((((s.at t).levelled p level).followed p (s.pinS p).own).elim ((s.at t).levelled p level)
      fun g => ((s.at t).levelled p level).emit (.event 2 g)) := by
  have hin : ¬ (((s.at t).pinS p).level = level ∨ (level = true ∧ (!((s.at t).bank (p / 16)).powered) = true)) := by
    rw [at_pinS, at_bank]
    rintro (hold | ⟨hlevel, hoff⟩)
    · exact hnew hold
    · simp [hpower hlevel] at hoff
  refine (ifUnit_of hp _).trans (congrArg _ ((if_neg hin).trans ?_))
  change (match ((s.at t).levelled p level).followed p ((s.at t).pinS p).own with
    | some g => ((s.at t).levelled p level).emit (.event 2 g)
    | none => (s.at t).levelled p level) = _
  rw [at_pinS]
  cases ((s.at t).levelled p level).followed p (s.pinS p).own <;> rfl

/-! ### FUNCTION_SWITCH (16 R440, R441) -/

/-- The switch `e` at the head of the queue has been made, and `rest` still wait. -/
def State.headSwitched (s : State) (e : PinSwitch) (rest : List PinSwitch) : State :=
  State.switchPin { s with pin := { s.pin with switches := rest } } e.pin e.map

theorem functionSwitch_eq {s : State} {t : Nat} {e : PinSwitch} {rest : List PinSwitch} (hq : s.pin.switches = e :: rest) :
    exec (.functionSwitch t) s = .next (if e.group.isEmpty then (s.at t).headSwitched e rest
      else ((s.at t).headSwitched e rest).endPinMap e.slot e.group stOK) := by
  have hq' : (s.at t).pin.switches = e :: rest := by rw [at_pin, hq]
  change execFunctionSwitch t s = _
  unfold execFunctionSwitch
  simp only [hq']
  rfl

theorem endPinMap_clean {s : State} {h : Nat} {ps : List Nat} (hdups : s.dupSigs ps = []) :
    s.endPinMap (some h) ps stOK = s.final h stOK ps.length 0 := by
  unfold State.endPinMap
  simp [hdups]

/-- Settles O45: the body of each command past the checks that its record meets, and the three events of pins. -/
theorem pinCommandsComplete : Obligations.PinCommandsComplete := by
  refine ⟨?_, ?_, ?_, ?_, ?_, ?_⟩
  · intro s d es slot a n b l h hb hn hmin hmax halign hbuf hread hl hclean
    subst hn hread
    obtain rfl : l = (s.admitted d slot a).mapEntries es a := hl
    have hrun : exec (.pinMap d es) s = .next (bodyPinMap es slot a (s.admitted d slot a)) := command_admitted h rfl hb rfl
    have hst := mapsStatus_congr (u := s.admitted d slot a) (s := s) (admitted_pin ..) (by rw [admitted_time, at_localMode])
      ((s.admitted d slot a).mapEntries es a)
    rw [hrun, bodyPinMap_judged slot ⟨hmin, hmax, halign, hbuf, hclean⟩, hst]
    exact ⟨fun hok => congrArg _ (if_neg (not_not.2 hok)), fun hno => congrArg _ (if_pos hno)⟩
  · intro s d slot a b w m u h hb hbyte hlt hw hm hu
    subst hbyte hw
    have hrun : exec (.gpioWriteMasked d) s = .next (bodyGpio slot a (s.admitted d slot a)) := command_admitted h rfl hb rfl
    have hmask : (s.admitted d slot a).gpioMask (byteAt a 0) (fld a 4 4) = m := by rw [hm]; exact gpioMask_congr (admitted_pin ..) _ _
    obtain rfl : u = (s.admitted d slot a).maskedOut (byteAt a 0) (fld a 4 4) := by rw [hu, maskedOut_eq, State.outMasked, hmask, admitted_bank]
    rw [hrun, bodyGpio_bank hlt, hmask]
  · intro s t b v hb hup
    rw [pinOut_eq v hb hup, at_bank]
  · intro s t b v m hb hup hm
    rw [pinOutMasked_eq v hb hup, maskedOut_eq, gpioMask_congr (at_pin s t), ← hm, State.outMasked, at_bank]
  · intro s t p level u hp hnew hpower hu
    obtain rfl : u = (s.at t).levelled p level := by rw [hu, State.levelled, at_pinS]
    have hrun := pinInputChange_eq (t := t) hp hnew hpower
    refine ⟨fun hnone => ?_, fun g hsome => ?_⟩
    · rw [hrun, State.followed, hnone]
      rfl
    · rw [hrun, State.followed, hsome]
      exact congrArg _ (by rw [Option.elim_some, State.emit, State.levelled, State.setPinS_out, at_out])
  · intro s t e rest u hq hu
    obtain rfl : u = (s.at t).headSwitched e rest := by rw [hu, State.headSwitched, at_pin]
    rw [functionSwitch_eq hq]
    refine ⟨fun hone => ?_, fun h hlast hslot hdups => ?_⟩
    · rw [hone]; rfl
    · rw [if_neg (by simpa using hlast), hslot, endPinMap_clean hdups]

end Sys2Proof.Machine

/-! PROOFS. The beginning of loads (12 R347; 13 R358, R359, R377, R380, R383; 16 R449): a statement of 12_command_reference.md. -/

namespace Sys2Proof.Machine

/-! ### A header is judged (13 R377) -/

/-- The load `l0` with the header `b` that it has read by now. -/
def Load.withHeader (l0 : Load) (now : Nat) (b : Bytes) : Load :=
  { l0 with head := slice b 0 3520, hdr := readHdr b, stage := 1, start := now }

section

variable {s : State} {w target : Nat} {l0 : Load} {b : Bytes}

/-- Checks 1 and 2 pass: the load has its header, and its signatures come next. A full load names no region: its target is 0xFF. -/
theorem beginLoad_passes (htarget : (if w < 8 then w else 0xFF) = target) (hlen : 3520 ≤ b.length)
    (hhead : headerOk b target (imageMax l0.source l0.imgSlot) = true) (hid : identityOk b = true) :
    s.beginLoad w l0 b = s.setLoad w (some (l0.withHeader s.now b)) := by
  unfold State.beginLoad
  dsimp only
  rw [htarget, if_neg (Nat.not_lt.2 hlen), if_neg (by simp [hhead]), if_neg (by simp [hid])]
  rfl

theorem beginLoad_badHeader (htarget : (if w < 8 then w else 0xFF) = target) (hlen : 3520 ≤ b.length)
    (hhead : headerOk b target (imageMax l0.source l0.imgSlot) = false) :
    s.beginLoad w l0 b =
      ((s.setLoad w (some (l0.withHeader s.now b))).logLoad w (l0.withHeader s.now b) 0x701 0).failLoad w 1 := by
  unfold State.beginLoad
  dsimp only
  rw [htarget, if_neg (Nat.not_lt.2 hlen), if_pos (by simp [hhead])]
  rfl

end

@[simp] theorem readSlot_now (s : State) (source slot : Nat) : (s.readSlot source slot).now = s.now := by
  unfold State.readSlot
  split <;> rfl

@[simp] theorem readSlot_boot (s : State) (source slot : Nat) : (s.readSlot source slot).boot = s.boot := by
  unfold State.readSlot
  split <;> rfl

/-- Reading an external slot leaves what headers are read from as it was. -/
theorem readSlot_headerOf (s : State) (source slot so n addr len : Nat) (h : Bytes) :
    (s.readSlot source slot).headerOf so n addr len h = s.headerOf so n addr len h := by
  unfold State.readSlot
  split <;> rfl

/-! ### PERSONA_LOAD and REGION_LOAD (12 R347; 13 R380, R383) -/

/-- The load that the record `a` of a command in `slot` asks for, before its header is read. -/
def loadAsked (mode source imgSlot slot : Nat) (a : Bytes) : Load :=
  { mode := mode, source := source, imgSlot := imgSlot, slot := some slot, len := imageLen a }

/-- The load `w` of the command in `slot` begins to read its image. -/
def State.loadReads (s : State) (slot w source imgSlot : Nat) : State := (s.setWork slot (.load w)).readSlot source imgSlot

@[simp] theorem loadReads_now (s : State) (slot w source imgSlot : Nat) : (s.loadReads slot w source imgSlot).now = s.now :=
  (readSlot_now ..).trans (setWork_now ..)

theorem bodyPersonaLoad_begins {s : State} {h a : Bytes} (slot : Nat) (hrange : loadRange (byteAt a 0) (byteAt a 1) (fld a 4 4) = true)
    (hbuf : s.imageOk a = true) :
    bodyPersonaLoad h slot a s = (s.loadReads slot 8 (byteAt a 0) (byteAt a 1)).beginLoad 8 (loadAsked 2 (byteAt a 0) (byteAt a 1) slot a)
      (s.headerOf (byteAt a 0) (byteAt a 1) (fld a 8 8) (fld a 4 4) h) :=
  (if_neg (by simp [hrange])).trans (if_neg (by simp [hbuf]))

/-- A region's controller that loads differs from the default, so that it is read back whatever the table lists. -/
theorem region_setRegion_loading {s : State} {r : Nat} {v : Region} (h : v.loading = true) : (s.setRegion r v).region r = v :=
  Tbl.get_set_ne fun e => by simp [e] at h

/-- Region `r` is marked as loading (13 R383). -/
def State.markLoading (s : State) (r : Nat) : State := s.setRegion r { s.region r with loading := true }

theorem markLoading_now (s : State) (r : Nat) : (s.markLoading r).now = s.now := rfl

theorem bodyRegionLoad_begins {s : State} {h a : Bytes} {cmd : Instr} (slot : Nat) (hr : byteAt a 1 < 8)
    (hf : (s.region (byteAt a 1)).failed = false) (hready : (s.region (byteAt a 1)).ready = true)
    (hrange : loadRange (byteAt a 0) (byteAt a 2) (fld a 4 4) = true) (hbuf : s.imageOk a = true) :
    bodyRegionLoad h cmd slot a s =
      ((s.markLoading (byteAt a 1)).loadReads slot (byteAt a 1) (byteAt a 0) (byteAt a 2)).beginLoad (byteAt a 1)
        (loadAsked 5 (byteAt a 0) (byteAt a 2) slot a)
        ((s.markLoading (byteAt a 1)).headerOf (byteAt a 0) (byteAt a 2) (fld a 8 8) (fld a 4 4) h) := by
  have hmarked : (s.markLoading (byteAt a 1)).region (byteAt a 1) = { s.region (byteAt a 1) with loading := true } := region_setRegion_loading rfl
  unfold bodyRegionLoad
  dsimp only
  rw [if_neg (by simp [hrange, hr]), if_neg (by simp [hbuf]), if_neg (by simp [hf])]
  exact onRegion_ready (s := s.markLoading (byteAt a 1)) (by rw [hmarked]; exact hf) (by rw [hmarked]; exact hready)

/-! ### PERSONA_SLOT_TRY (13 R358, R359, R377) -/

/-- A slot is due to be tried, and the skip mask does not leave it out (13 R359, R392; 14 R397). -/
structure SlotDue (s : State) : Prop where
  step : s.time.step = 5
  tested : s.time.selftestFail = false
  trying : s.boot.trying = true
  waiting : s.boot.hostWaiting = false
  free : s.load 8 = none
  alarm : s.husk.halted = false
  restarting : s.chip.restarting = false
  failed : s.chip.failed = false
  left : s.boot.tryNext < 6
  named : s.boot.tryNext < 5 → bit s.boot.slotSkip s.boot.tryNext = false

theorem SlotDue.go {s : State} (h : SlotDue s) : ¬ (s.time.step ≠ 5 ∨ s.time.selftestFail ∨ !s.boot.trying ∨ s.boot.hostWaiting ∨
    (s.load 8).isSome ∨ 6 ≤ s.boot.tryNext ∨ s.husk.halted ∨ s.chip.restarting ∨ s.chip.failed) := by
  simp [h.step, h.tested, h.trying, h.waiting, h.free, h.alarm, h.restarting, h.failed, h.left]

theorem SlotDue.at {s : State} (h : SlotDue s) (t : Nat) : SlotDue (s.at t) :=
  ⟨by rw [at_step]; exact h.step, by rw [at_selftestFail]; exact h.tested, by rw [at_boot]; exact h.trying, by rw [at_boot]; exact h.waiting,
    by rw [at_load]; exact h.free, by rw [at_husk]; exact h.alarm, by rw [at_chip]; exact h.restarting, by rw [at_chip]; exact h.failed,
    by rw [at_boot]; exact h.left, by rw [at_boot]; exact h.named⟩

theorem skipSlots_named {s : State} (n : Nat) (h : s.boot.tryNext < 5 → bit s.boot.slotSkip s.boot.tryNext = false) : State.skipSlots n s = s := by
  cases n with
  | zero => rfl
  | succ n => exact if_neg fun ⟨hlt, hskip⟩ => by simp [h hlt] at hskip

/-- The source and slot that are tried next (13 R359). -/
def State.nextImage (s : State) : Nat × Nat := slotOrder.getD s.boot.tryNext (2, 1)

/-- An absent slot is logged, and the next one becomes due. -/
def State.slotAbsent (s : State) (source imgSlot : Nat) : State :=
  let u := (s.readSlot source imgSlot).log 0x700 4 0 (source * 256 + imgSlot) 0
  { u with boot := { u.boot with tryNext := u.boot.tryNext + 1 } }

theorem slotAbsent_boot (s : State) (source imgSlot : Nat) :
    (s.slotAbsent source imgSlot).boot = { s.boot with tryNext := s.boot.tryNext + 1 } := by
  unfold State.slotAbsent
  dsimp only
  rw [(log_aside ..).boot, readSlot_boot]

theorem readSlot_quiet (s : State) (source imgSlot : Nat) : Quiet s (s.readSlot source imgSlot) := .ite (emit_quiet ..) (.refl s)

/-- What the log of an absent slot leaves as it was: but for the loader's next slot, only log and outputs change. -/
theorem slotAbsent_frame (s : State) (source imgSlot : Nat) :
    (s.slotAbsent source imgSlot).fab.frames = s.fab.frames ∧ (s.slotAbsent source imgSlot).convs = s.convs ∧
      (s.slotAbsent source imgSlot).dacs = s.dacs ∧ (s.slotAbsent source imgSlot).time = s.time := by
  have hlog (u : State) (code a0 : Nat) : (u.log code 4 0 a0 0).fab.frames = u.fab.frames := by
    have hfab := congrArg Fab.frames (log_memAside u code 4 0 a0 0).fab
    exact hfab
  have hread : (s.readSlot source imgSlot).fab.frames = s.fab.frames := by unfold State.readSlot; split <;> rfl
  have q : Quiet s ((s.readSlot source imgSlot).log 0x700 4 0 (source * 256 + imgSlot) 0) := (readSlot_quiet ..).trans (log_quiet ..)
  exact ⟨(hlog ..).trans hread, q.convs, q.dacs, q.time⟩

section

variable {s : State} {t so n : Nat} {h : Bytes}

theorem personaSlotTry_due (hdue : SlotDue s) (himg : (s.at t).nextImage = (so, n)) :
    exec (.personaSlotTry t h) s =
      if fld ((s.at t).headerOf so n 0 0 h) 0 4 = 0x4150484C then
        .next (((s.at t).readSlot so n).beginLoad 8 { mode := 0, source := so, imgSlot := n } ((s.at t).headerOf so n 0 0 h))
      else .next (if ((s.at t).slotAbsent so n).boot.tryNext < 6 then (s.at t).slotAbsent so n
        else State.enterFallow { (s.at t).slotAbsent so n with boot := { ((s.at t).slotAbsent so n).boot with trying := false } }
          (so * 256 + n) ((s.at t).slotAbsent so n).boot.lastReason) := by
  have hso : (slotOrder.getD (s.at t).boot.tryNext (2, 1)) = (so, n) := himg
  have hskip : State.skipSlots 6 (s.at t) = s.at t := skipSlots_named 6 (hdue.at t).named
  change execPersonaSlotTry t h s = _
  unfold execPersonaSlotTry
  dsimp only
  rw [if_neg (hdue.at t).go, hskip, hso, readSlot_headerOf]
  rfl

end

/-- Settles O49: `State.beginLoad` judges the header that each of the three rows reads. -/
theorem loadsBegin : Obligations.LoadsBegin := by
  refine ⟨?_, ?_, ?_⟩
  · intro s d h slot a so n b u l hadm hbad hfree hso hn hrange hbuf hb hlen hl hu
    subst hso hn hb
    obtain rfl : l = (loadAsked 2 (byteAt a 0) (byteAt a 1) slot a).withHeader ((s.admitted d slot a).loadReads slot 8 (byteAt a 0) (byteAt a 1)).now
        ((s.admitted d slot a).headerOf (byteAt a 0) (byteAt a 1) (fld a 8 8) (fld a 4 4) h) := by
      rw [hl, loadReads_now, admitted_now]; rfl
    have hpre : (s.consumed d).load 8 = none := (at_load s d.t 8).trans hfree
    have hrun : exec (.personaLoad d h) s = .next (bodyPersonaLoad h slot a (s.admitted d slot a)) :=
      command_admitted hadm rfl hbad (by rw [hpre]; rfl)
    subst hu
    rw [hrun, bodyPersonaLoad_begins slot hrange hbuf]
    exact ⟨fun hhead hid => congrArg _ (beginLoad_passes rfl hlen hhead hid), fun hhead => congrArg _ (beginLoad_badHeader rfl hlen hhead)⟩
  · intro s d h slot a so r n b v l hadm hbad hso hr hn hlt hload hf hready hrange hbuf hv hb hlen hl hhead hid
    subst hso hr hn
    obtain rfl : v = (s.admitted d slot a).markLoading (byteAt a 1) := by rw [hv, State.markLoading, admitted_region]
    subst hb
    obtain rfl : l = (loadAsked 5 (byteAt a 0) (byteAt a 2) slot a).withHeader
        (((s.admitted d slot a).markLoading (byteAt a 1)).loadReads slot (byteAt a 1) (byteAt a 0) (byteAt a 2)).now
        (((s.admitted d slot a).markLoading (byteAt a 1)).headerOf (byteAt a 0) (byteAt a 2) (fld a 8 8) (fld a 4 4) h) := by
      rw [hl, loadReads_now, markLoading_now, admitted_now]; rfl
    have hpre : (s.consumed d).region (byteAt a 1) = s.region (byteAt a 1) := at_region s d.t (byteAt a 1)
    have hrun : exec (.regionLoad d h) s = .next (bodyRegionLoad h (.regionLoad d h) slot a (s.admitted d slot a)) :=
      command_admitted hadm rfl hbad (if_neg (by rw [hpre, hload]; decide))
    rw [hrun, bodyRegionLoad_begins slot hlt (by rwa [admitted_region]) (by rwa [admitted_region]) hrange hbuf]
    exact congrArg _ (beginLoad_passes (if_pos hlt) hlen hhead hid)
  · intro s t h k so n b l hstep htest htry hwait hfree hhalt hrestart hfail hk hk6 hskip himg hb
    subst hk hb
    have hdue : SlotDue s := ⟨hstep, htest, htry, hwait, hfree, hhalt, hrestart, hfail, hk6, hskip⟩
    have hrun := personaSlotTry_due (h := h) hdue (t := t) (so := so) (n := n) (by rw [State.nextImage, at_boot, himg])
    refine ⟨fun hmagic hlen hhead hid hl => ?_, fun hmagic hk5 => ?_⟩
    · rw [hrun, if_pos hmagic, beginLoad_passes (w := 8) (l0 := { mode := 0, source := so, imgSlot := n }) rfl hlen hhead hid, readSlot_now, hl]
      rfl
    · have hboot : ((s.at t).slotAbsent so n).boot = { s.boot with tryNext := s.boot.tryNext + 1 } := by rw [slotAbsent_boot, at_boot]
      rw [hrun, if_neg hmagic, if_pos (by rw [hboot]; exact Nat.succ_lt_succ hk5)]
      obtain ⟨hframes, hconvs, hdacs, htime⟩ := slotAbsent_frame (s.at t) so n
      exact ⟨_, rfl, hboot, by rw [hframes, at_fab], by rw [hconvs, at_convs], by rw [hdacs, at_dacs], htime⟩

end Sys2Proof.Machine

/-! PROOFS. Husk's commands (12 R352, R353; 15 R414-R426): a statement of 12_command_reference.md. -/

namespace Sys2Proof.Machine

/-! ### What Husk's checks read -/

/-- Whether a verification key can be used follows from Husk's records and fuses alone. -/
theorem keyUsable_congr {s u : State} (hfuses : u.husk.fuses = s.husk.fuses) (hkeys : u.husk.flashKeys = s.husk.flashKeys) (i : Nat) :
    u.keyUsable i = s.keyUsable i := by simp only [State.keyUsable, hfuses, hkeys]

theorem provisionLocked_congr {s u : State} (hfuses : u.husk.fuses = s.husk.fuses) (key : Nat) :
    u.provisionLocked key = s.provisionLocked key := by simp only [State.provisionLocked, State.keyKilled, hfuses]

theorem keyKilled_iff (s : State) : s.keyKilled = true ↔ s.husk.fuses.keyKill ≠ 0 := decide_eq_true_iff

/-! ### ATTEST (12 R352; 15 R425, R426) -/

theorem bodyAttest_buffered {s : State} {sg a : Bytes} (slot : Nat) (halign : fld a 32 8 % 8 = 0) (hlen : 4096 ≤ fld a 40 4)
    (hbuf : s.bufOk (fld a 32 8) (fld a 40 4) = true) :
    bodyAttest sg slot a s =
      if s.keyKilled = true ∨ s.husk.idErased = true then s.final slot stLOCKED 0 0
      else (s.hostWrite (fld a 32 8) (s.report (slice a 0 32) ++ slice sg 0 3373 ++ zeros 3)).final slot stOK 3648 0 :=
  if_neg (by simp [halign, hbuf, hlen])

/-! ### KEY_PROVISION (12 R353; 15 R417-R422) -/

/-- A staged record is for the next command alone (15 R422). -/
def State.unstaged (s : State) : State := { s with husk := { s.husk with staged := none } }

theorem unstaged_fuses (s : State) : s.unstaged.husk.fuses = s.husk.fuses := rfl

theorem unstaged_flashKeys (s : State) : s.unstaged.husk.flashKeys = s.husk.flashKeys := rfl

/-- A KEY_PROVISION with record `a` may begin: its length and buffer are in range, and its slot takes the
flag and is not locked (15 R421). -/
structure ProvisionJudged (s : State) (a : Bytes) : Prop where
  atLeast : 1 ≤ fld a 2 2
  atMost : fld a 2 2 ≤ 4096
  aligned : fld a 8 8 % 8 = 0
  usable : s.bufOk (fld a 8 8) (fld a 2 2) = true
  allowed : provisionOk (byteAt a 0) (byteAt a 1) = true
  unlocked : s.provisionLocked (byteAt a 0) = false

/-- The blob that a KEY_PROVISION reads. -/
def State.blobRead (s : State) (a blob : Bytes) : Bytes := s.hostRead (fld a 8 8) (fld a 2 2) blob

section

variable {s : State} {a blob : Bytes} {cr : Crypto} {slot : Nat}

theorem ProvisionJudged.inRange (h : ProvisionJudged s a) : ¬ (fld a 2 2 = 0 ∨ 4096 < fld a 2 2) ∧
    ¬ (fld a 8 8 % 8 ≠ 0 ∨ (!s.unstaged.bufOk (fld a 8 8) (fld a 2 2)) = true ∨ (!provisionOk (byteAt a 0) (byteAt a 1)) = true) := by
  obtain ⟨hmin, hmax, halign, hbuf, hok, -⟩ := h
  have hbuf' : s.unstaged.bufOk (fld a 8 8) (fld a 2 2) = true := hbuf
  exact ⟨by omega, by simp [halign, hbuf', hok]⟩

theorem ProvisionJudged.free (h : ProvisionJudged s a) : s.unstaged.provisionLocked (byteAt a 0) = false :=
  (provisionLocked_congr rfl _).trans h.unlocked

theorem bodyKeyProvision_exports {r : Bytes} (h : ProvisionJudged s a) (hfl : byteAt a 1 = 2) (hr : s.unstaged.exported (byteAt a 0) = some r)
    (hlen : r.length ≤ fld a 2 2) :
    bodyKeyProvision blob cr slot a s = (s.unstaged.hostWrite (fld a 8 8) r).final slot stOK 0 0 := by
  obtain ⟨hrange, hbuf⟩ := h.inRange
  refine (if_neg hrange).trans ((if_neg hbuf).trans ((if_pos hfl).trans ((if_neg (ne_true_of_eq_false h.free)).trans ?_)))
  change (match s.unstaged.exported (byteAt a 0) with
    | none => _
    | some r => _) = _
  rw [hr]
  exact if_neg (Nat.not_lt.2 hlen)

theorem bodyKeyProvision_stages (h : ProvisionJudged s a) (hfl : byteAt a 1 = 1) (hok : stagedOk (s.unstaged.blobRead a blob) (byteAt a 0 - 0x10) = true) :
    bodyKeyProvision blob cr slot a s =
      State.final { s.unstaged with husk := { s.unstaged.husk with staged := some (s.unstaged.blobRead a blob) } } slot stOK 0 0 := by
  obtain ⟨hrange, hbuf⟩ := h.inRange
  have hstaged : ¬ (!stagedOk (s.unstaged.blobRead a blob) (byteAt a 0 - 0x10)) = true := by simp [hok]
  exact (if_neg hrange).trans ((if_neg hbuf).trans ((if_neg (by omega)).trans ((if_pos hfl).trans ((if_neg hstaged).trans
    (if_neg (ne_true_of_eq_false h.free))))))

/-- A blob in form comes to its signatures. -/
theorem bodyKeyProvision_provisions (h : ProvisionJudged s a) (hfl : byteAt a 1 = 0 ∨ byteAt a 1 = 4 ∨ byteAt a 1 = 8)
    (hblob : s.unstaged.blobOk (s.unstaged.blobRead a blob) (byteAt a 0) (byteAt a 1) = true)
    (hdebug : byteAt a 0 ≠ 0x28 ∨ firstBad (s.unstaged.blobRead a blob) ((32, 0xFE) :: rsv 33 3) = none) :
    bodyKeyProvision blob cr slot a s =
      s.unstaged.provision slot (byteAt a 0) (byteAt a 1) (s.unstaged.blobRead a blob) s.husk.staged cr := by
  obtain ⟨hrange, hbuf⟩ := h.inRange
  have hform : ¬ ((!s.unstaged.blobOk (s.unstaged.blobRead a blob) (byteAt a 0) (byteAt a 1)) = true ∨
      (byteAt a 0 = 0x28 ∧ (firstBad (s.unstaged.blobRead a blob) ((32, 0xFE) :: rsv 33 3)).isSome = true)) := by
    rintro (hno | ⟨hkey, hbit⟩)
    · simp [hblob] at hno
    · simp [hdebug.resolve_left (not_not.2 hkey)] at hbit
  exact (if_neg hrange).trans ((if_neg hbuf).trans ((if_neg (by omega)).trans ((if_neg (by omega)).trans ((if_neg hform).trans
    (if_neg (ne_true_of_eq_false h.free))))))

end

/-! ### Signed blobs (15 R419-R423) -/

section

variable {s : State} {slot key fl : Nat} {b : Bytes} {staged : Option Bytes} {cr : Crypto}

/-- The blob commits a verification key (15 R422). -/
theorem provision_commits (hkey : 0x10 ≤ key) (hkey2 : key < 0x14) :
    s.provision slot key 0 b staged cr = s.commitKey slot (key - 0x10) staged (slice b 32 (payloadLen key 0)) cr := if_pos ⟨hkey, hkey2, rfl⟩

theorem commitKey_stores {i : Nat} {r payload : Bytes} (hi : byteAt r 6 = i) (hdigest : sha384 r = payload)
    (hfused : Tbl.get none i s.husk.fuses.digests = some payload ∨ Tbl.get none i s.husk.fuses.digests = none) (hed : cr.ed = true)
    (hml : cr.ml = true) (hroot : s.keyUsable 0 = true ∨ (i = 0 ∧ Tbl.get none 0 s.husk.fuses.digests = none)) :
    s.commitKey slot i (some r) payload cr = (State.setFuses { s with husk := { s.husk with flashKeys := Tbl.set none i (some r) s.husk.flashKeys } }
      fun f => { f with digests := Tbl.set none i (some payload) f.digests }).final slot stOK 0 0 := by
  have hother : (Tbl.get none i s.husk.fuses.digests).any (fun f => f != payload) = false := by
    rcases hfused with h | h <;> simp [h]
  have hsigned : ¬ ((!cr.ed) = true ∨ (!cr.ml) = true ∨ ((i ≠ 0 ∨ (Tbl.get none i s.husk.fuses.digests).isSome = true) ∧ (!s.keyUsable 0) = true)) := by
    rcases hroot with h | ⟨rfl, h⟩ <;> simp [hed, hml, h]
  exact (if_neg (by simp [hi, hdigest, hother])).trans (if_neg hsigned)

/-- A blob that commits no verification key needs key 0 and both signatures. -/
theorem provision_unsigned (hno : ¬ (0x10 ≤ key ∧ key < 0x14 ∧ fl = 0)) (h : cr.ed = false ∨ cr.ml = false ∨ s.keyUsable 0 = false) :
    s.provision slot key fl b staged cr = s.final slot stAUTH_FAIL 0 0 :=
  (if_neg hno).trans (if_pos (by rcases h with h | h | h <;> simp [h]))

/-- Key 0 can be used, and both signatures verify. -/
structure Signed (s : State) (cr : Crypto) : Prop where
  root : s.keyUsable 0 = true
  ed : cr.ed = true
  ml : cr.ml = true

theorem Signed.passes (h : Signed s cr) : ¬ ((!s.keyUsable 0) = true ∨ (!cr.ed) = true ∨ (!cr.ml) = true) := by
  simp [h.root, h.ed, h.ml]

theorem provision_erases (h : Signed s cr) (hkey : key < 8) : s.provision slot key 8 b staged cr = (s.setKey key none).final slot stOK 0 0 :=
  (if_neg (by omega)).trans ((if_neg h.passes).trans ((if_pos hkey).trans (if_pos rfl)))

/-- The key that a blob wraps for key RAM, where it verifies (15 R419). -/
def State.unwrapped (s : State) (b payload : Bytes) : Option Bytes :=
  (s.seedKey "LH8640 wrap").bind fun k => gcmOpen k (payload.take 12) (slice b 0 32) (payload.drop 12)

theorem provision_ramKey (h : Signed s cr) (hkey : key < 8) :
    s.provision slot key 0 b staged cr = (s.unwrapped b (slice b 32 (payloadLen key 0))).elim (s.final slot stAUTH_FAIL 0 0)
      fun k => (s.setKey key (some (slice k 0 32))).final slot stOK 0 0 := by
  refine (if_neg (by omega)).trans ((if_neg h.passes).trans ((if_pos hkey).trans ((if_neg (by decide)).trans ?_)))
  change (match s.unwrapped b (slice b 32 (payloadLen key 0)) with
    | none => _
    | some k => _) = _
  cases s.unwrapped b (slice b 32 (payloadLen key 0)) <;> rfl

theorem provision_revokes (h : Signed s cr) (hkey : 0x10 ≤ key) (hkey2 : key < 0x14) :
    s.provision slot key 4 b staged cr = (s.setFuses fun f => { f with revoked := withBit f.revoked (key - 0x10) }).final slot stOK 0 0 :=
  (if_neg (by omega)).trans ((if_neg h.passes).trans ((if_neg (by omega)).trans (if_pos hkey2)))

theorem provision_seed (h : Signed s cr) (hkey : key = 0x20) :
    s.provision slot key 0 b staged cr = (s.setFuses fun f => { f with personaSeed := some (slice b 32 (payloadLen key 0)) }).final slot stOK 0 0 :=
  (if_neg (by omega)).trans ((if_neg h.passes).trans ((if_neg (by omega)).trans ((if_neg (by omega)).trans (if_pos hkey))))

theorem provision_debug (h : Signed s cr) (hkey : key = 0x28) :
    s.provision slot key 0 b staged cr =
      (s.setFuses fun f => { f with debugDisable := f.debugDisable || bit (byteAt (slice b 32 (payloadLen key 0)) 0) 0 }).final slot stOK 0 0 :=
  (if_neg (by omega)).trans ((if_neg h.passes).trans ((if_neg (by omega)).trans ((if_neg (by omega)).trans (if_neg (by omega)))))

/-- Which slots a flag goes with (15 R421). -/
theorem provisionOk_revoke (h : provisionOk key 4 = true) : 0x10 ≤ key ∧ key < 0x14 := by
  by_cases hram : key < 8
  · rw [provisionOk, if_pos hram] at h
    exact absurd h (by decide)
  · by_contra hkey
    rw [provisionOk, if_neg hram, if_neg hkey] at h
    split at h <;> simp at h

theorem provisionOk_erase (h : provisionOk key 8 = true) : key < 8 := by
  by_contra hram
  rw [provisionOk, if_neg hram] at h
  split at h
  · exact absurd h (by decide)
  · split at h <;> simp at h

end

/-! ### ALARM_POLICY (12 R353; 15 R414-R416) -/

/-- The record `a` of an ALARM_POLICY asks for an image `b` that keeps its layout and ranges, with no lock in the way. -/
structure PolicyJudged (s : State) (a b : Bytes) : Prop where
  atLeast : 1 ≤ fld a 2 2
  atMost : fld a 2 2 ≤ 4096
  aligned : fld a 8 8 % 8 = 0
  usable : s.bufOk (fld a 8 8) (fld a 2 2) = true
  layout : policyLayout b = true
  range : policyRange b = true
  unfused : s.husk.fuses.policyLock = false
  unlocked : s.keepLocked = false

/-- The policy image `b` is stored and comes into force (15 R415). -/
def State.storePolicy (s : State) (b : Bytes) : State :=
  State.applyPolicy { s with keep := { s.keep with alarm := some b } } (readAlarmPolicy b)

/-- POLICY_LOCK is blown over the image `b` (15 R416). -/
def State.lockPolicy (s : State) (b : Bytes) : State :=
  { s with husk := { s.husk with fuses := { s.husk.fuses with policyLock := true, policyDigest := sha384 b } } }

theorem bodyAlarmPolicy_judged {s : State} {image a : Bytes} {cr : Crypto} (ok : Bool) (slot : Nat)
    (h : PolicyJudged s a (s.hostRead (fld a 8 8) (fld a 2 2) image)) :
    bodyAlarmPolicy image cr ok slot a s =
      if s.keyUsable 0 = false ∨ cr.ed = false ∨ cr.ml = false then s.final slot stAUTH_FAIL 0 0
      else if ok = false then s.final slot stFAULT 0 0
      else (if bit (byteAt a 0) 0 = true then (s.storePolicy (s.hostRead (fld a 8 8) (fld a 2 2) image)).lockPolicy (s.hostRead (fld a 8 8) (fld a 2 2) image)
        else s.storePolicy (s.hostRead (fld a 8 8) (fld a 2 2) image)).final slot stOK 0 0 := by
  obtain ⟨hmin, hmax, halign, hbuf, hlayout, hrange, hfuse, hkeep⟩ := h
  unfold bodyAlarmPolicy
  dsimp only
  rw [if_neg (by omega), if_neg (by simp [halign, hbuf, hlayout]), if_neg (by simp [hrange]), if_neg (by simp [hfuse, hkeep])]
  simp only [Bool.not_eq_true']
  rfl

/-- Settles O53: each command is admitted, its body runs past the checks that its record meets, and each blob of KEY_PROVISION has a lemma
of its own. -/
theorem huskCommandsComplete : Obligations.HuskCommandsComplete := by
  refine ⟨?_, ?_, ?_⟩
  · intro s d sg slot a h hb halign hlen hbuf
    have hrun : exec (.attest d sg) s = .next (bodyAttest sg slot a (s.admitted d slot a)) := command_admitted h rfl hb rfl
    have hgone : ((s.admitted d slot a).keyKilled = true ∨ (s.admitted d slot a).husk.idErased = true) ↔
        (s.husk.fuses.keyKill ≠ 0 ∨ s.husk.idErased = true) := by rw [keyKilled_iff, admitted_husk]
    rw [hrun, bodyAttest_buffered slot halign hlen hbuf]
    exact ⟨fun hkill hid => congrArg _ (if_neg (hgone.not.2 (by simp [hkill, hid]))), fun hno => congrArg _ (if_pos (hgone.2 hno))⟩
  · intro s d blob cr slot a key fl len b p u h hb hkey hfl hlen hmin hmax halign hbuf hok hlock hu hblob hp
    subst hkey hfl hlen hp
    obtain rfl : u = (s.admitted d slot a).unstaged := by rw [hu, State.unstaged, admitted_husk]
    obtain rfl : b = (s.admitted d slot a).unstaged.blobRead a blob := hblob
    have hrun : exec (.keyProvision d blob cr) s = .next (bodyKeyProvision blob cr slot a (s.admitted d slot a)) := command_admitted h rfl hb rfl
    have hfuses : (s.admitted d slot a).unstaged.husk.fuses = s.husk.fuses := by rw [unstaged_fuses, admitted_husk]
    have husable : (s.admitted d slot a).unstaged.keyUsable 0 = s.keyUsable 0 :=
      keyUsable_congr hfuses (by rw [unstaged_flashKeys, admitted_husk]) 0
    have hj : ProvisionJudged (s.admitted d slot a) a :=
      ⟨hmin, hmax, halign, hbuf, hok, (provisionLocked_congr (congrArg Husk.fuses (admitted_husk ..)) _).trans hlock⟩
    rw [hrun]
    refine ⟨fun r h2 hr hlen => congrArg _ (bodyKeyProvision_exports hj h2 hr hlen), fun h1 hstaged => congrArg _ (bodyKeyProvision_stages hj h1 hstaged),
      fun hblob hed hml => ⟨fun r h0 hlo hhi hr hi hdigest hfused hroot => ?_, fun hroot => ?_⟩, fun hblob hunsigned hcase => ?_⟩
    · rw [h0] at hdigest hfused
      rw [bodyKeyProvision_provisions hj (.inl h0) hblob (.inl (by omega)), h0, provision_commits hlo hhi, admitted_husk, hr,
        commitKey_stores hi hdigest (by rwa [hfuses]) hed hml (by rw [husable, hfuses]; exact hroot.imp_right fun h => ⟨by omega, h.2⟩)]
    · have hsigned : Signed (s.admitted d slot a).unstaged cr := ⟨husable.trans hroot, hed, hml⟩
      refine ⟨fun h8 => ?_, fun w k h0 hk hw hopen => ?_, fun w h0 hk hw hopen => ?_, fun h4 => ?_, fun h0 hk => ?_, fun h0 hk hdebug => ?_⟩
      · have hk := provisionOk_erase (h8 ▸ hok)
        rw [bodyKeyProvision_provisions hj (.inr (.inr h8)) hblob (.inl (by omega)), h8, provision_erases hsigned hk]
      · rw [h0] at hopen
        rw [bodyKeyProvision_provisions hj (.inl h0) hblob (.inl (by omega)), h0, provision_ramKey hsigned hk,
          State.unwrapped, hw, Option.bind_some, hopen, Option.elim_some]
      · rw [h0] at hopen
        rw [bodyKeyProvision_provisions hj (.inl h0) hblob (.inl (by omega)), h0, provision_ramKey hsigned hk,
          State.unwrapped, hw, Option.bind_some, hopen, Option.elim_none]
      · obtain ⟨hlo, hhi⟩ := provisionOk_revoke (h4 ▸ hok)
        rw [bodyKeyProvision_provisions hj (.inr (.inl h4)) hblob (.inl (by omega)), h4, provision_revokes hsigned hlo hhi]
      · rw [bodyKeyProvision_provisions hj (.inl h0) hblob (.inl (by omega)), h0, provision_seed hsigned hk]
      · rw [bodyKeyProvision_provisions hj (.inl h0) hblob (.inr hdebug), h0, provision_debug hsigned hk]
    · have hno : ¬ (0x10 ≤ byteAt a 0 ∧ byteAt a 0 < 0x14 ∧ byteAt a 1 = 0) := by omega
      have hkey : byteAt a 0 ≠ 0x28 := by
        rcases hcase with h4 | h8 | ⟨-, hkey⟩
        · exact Nat.ne_of_lt ((provisionOk_revoke (h4 ▸ hok)).2.trans (by decide))
        · exact Nat.ne_of_lt ((provisionOk_erase (h8 ▸ hok)).trans (by decide))
        · omega
      rw [bodyKeyProvision_provisions hj (by omega) hblob (.inl hkey), provision_unsigned hno (by rwa [husable])]
  · intro s d image cr ok slot a len b u h hb hlen hmin hmax halign hbuf hread hlayout hrange hfuse hkeep hu
    subst hlen hread
    obtain rfl : u = (s.admitted d slot a).storePolicy ((s.admitted d slot a).hostRead (fld a 8 8) (fld a 2 2) image) := by
      rw [hu, State.storePolicy, admitted_keep]
    have hrun : exec (.alarmPolicy d image cr ok) s = .next (bodyAlarmPolicy image cr ok slot a (s.admitted d slot a)) := command_admitted h rfl hb rfl
    have husable : (s.admitted d slot a).keyUsable 0 = s.keyUsable 0 :=
      keyUsable_congr (congrArg Husk.fuses (admitted_husk ..)) (congrArg Husk.flashKeys (admitted_husk ..)) 0
    have hj : PolicyJudged (s.admitted d slot a) a ((s.admitted d slot a).hostRead (fld a 8 8) (fld a 2 2) image) :=
      ⟨hmin, hmax, halign, hbuf, hlayout, hrange, by rwa [admitted_husk], by rwa [admitted_keepLocked]⟩
    rw [hrun, bodyAlarmPolicy_judged ok slot hj, husable]
    refine ⟨fun hno => congrArg _ (if_pos hno), fun hroot hed hml => ?_⟩
    have hsigned : ¬ (s.keyUsable 0 = false ∨ cr.ed = false ∨ cr.ml = false) := by simp [hroot, hed, hml]
    rw [if_neg hsigned]
    refine ⟨fun hno => congrArg _ (if_pos hno), fun hyes hopen => ?_, fun hyes hlock => ?_⟩
    · rw [if_neg (by simp [hyes]), if_neg (by simp [hopen])]
    · rw [if_neg (by simp [hyes]), if_pos hlock]
      rfl

end Sys2Proof.Machine

/-! PROOFS. The event log's ring (17 R464, R467), the rings' enables (18 R477-R479) and the ring area of local-ring mode (18 R493). -/

namespace Sys2Proof.Machine

/-! ### The log's ring (17 R464, R467) -/

theorem logPush_room {s : State} (h : s.chip.log.length < 8192) (e : LogEntry) :
    s.logPush e = { s with chip := { s.chip with log := s.chip.log ++ [{ e with afterLoss := s.chip.afterLoss }], afterLoss := false } } := if_pos h

/-- LOG_OVERWRITTEN is slot 5 of unit 0 (10 R287). -/
theorem logPush_overwrites {s : State} (hfull : s.chip.log.length = 8192) (hnew : s.chip.drained = 0) (e : LogEntry) :
    s.logPush e = { s.setCtr 0 5 ((s.ctr 0 5).add true 1) with chip := { (s.setCtr 0 5 ((s.ctr 0 5).add true 1)).chip with
      log := s.chip.log.tail ++ [{ e with afterLoss := true }], afterLoss := false, lostUndrained := s.chip.lostUndrained + 1 } } := by
  unfold State.logPush
  dsimp only
  rw [if_neg (by omega), if_pos hnew]
  rfl

theorem logPush_drained {s : State} (hfull : s.chip.log.length = 8192) (hold : 0 < s.chip.drained) (e : LogEntry) :
    s.logPush e = { s with chip := { s.chip with
      log := s.chip.log.tail ++ [{ e with afterLoss := s.chip.afterLoss }], afterLoss := false, drained := s.chip.drained - 1 } } := by
  unfold State.logPush
  dsimp only
  rw [if_neg (by omega), if_neg (by omega)]

theorem logEntry_failed {s : State} (h : s.chip.failed = true) (e : LogEntry) : s.logEntry e = s := if_pos h

theorem logEntry_held {s : State} (hok : s.chip.failed = false) (hre : s.chip.restarting = true) (hroom : s.chip.heldLog.length < 256) (e : LogEntry) :
    s.logEntry e = { s with chip := { s.chip with heldLog := s.chip.heldLog ++ [e] } } :=
  (if_neg (by simp [hok])).trans ((if_pos hre).trans (if_pos hroom))

/-- Settles O17: each case of `logPush` and of `logEntry` under the condition that selects it. -/
theorem logKeepsTheNewest : Obligations.LogKeepsTheNewest := by
  unfold Obligations.LogKeepsTheNewest
  refine ⟨fun s e h => ⟨_, congrArg (·.chip.log) (logPush_room h e), rfl⟩, fun s e hfull hnew hwf => ?_, fun s e hfull hold => ?_,
    fun s code level idx a0 a1 h => logEntry_failed h _, fun s code level idx a0 a1 hok hre hroom => ⟨_, rfl, rfl, rfl, rfl, logEntry_held hok hre hroom _⟩⟩
  · rw [logPush_overwrites hfull hnew]
    exact ⟨rfl, congrArg Ctr.val (ctr_setCtr_self hwf)⟩
  · rw [logPush_drained hfull hold]
    exact ⟨rfl, rfl, rfl⟩

/-! ### Rings taken and let go (18 R477-R479) -/

section
variable {s : State} {q v n : Nat}

theorem mgmtReg_runs (hup : s.hostUp = true) (hre : s.chip.restarting = false) (off v : Nat) (f : State → State) : s.mgmtReg off v f = f s :=
  (if_neg (by simp [hup])).trans (if_neg (by simp [hre]))

theorem sizesOk {a b : Nat} (ha : sizeOk a = true) (hb : sizeOk b = true) : ¬ ((!sizeOk a) = true ∨ (!sizeOk b) = true) := by simp [ha, hb]

theorem writeCqctl_enables (hoff : (s.cq q).enable = false) (hen : bit v 0 = true) (hsq : sizeOk (bits v 8 4) = true) (hcq : sizeOk (bits v 12 4) = true) :
    s.writeCqctl q v = s.setCq q (
      if baseOk (s.cq q).sqBase (bits v 8 4) 64 && baseOk (s.cq q).cqBase (bits v 12 4) 32 then
        { s.cq q with
          vector := bits v 16 6, sqSize := bits v 8 4, cqSize := bits v 12 4, enable := true, draining := false, configError := false
          stalled := false, sqTail := 0, sqHead := 0, cqTail := 0, cqHead := 0, phase := true }
      else { s.cq q with vector := bits v 16 6, sqSize := bits v 8 4, cqSize := bits v 12 4, configError := true }) := by
  unfold State.writeCqctl
  dsimp only
  rw [if_neg (sizesOk hsq hcq), if_neg (by simp [hoff]), if_neg (by simp [hen])]

theorem writeCqctl_disables (hon : (s.cq q).enable = true) (hdis : bit v 0 = false) (hsq : sizeOk (bits v 8 4) = true) (hcq : sizeOk (bits v 12 4) = true) :
    s.writeCqctl q v = s.setCq q (if (s.cq q).owed = 0 then { s.cq q with vector := bits v 16 6, enable := false, draining := false }
      else { s.cq q with vector := bits v 16 6, draining := true }) := by
  unfold State.writeCqctl
  dsimp only
  rw [if_neg (sizesOk hsq hcq), if_pos hon, if_neg (by simp [hdis])]

theorem writeDsctl_enables (hoff : (s.ds n).enable = false) (hen : bit v 0 = true) (hbs : sizeOk (bits v 8 4) = true) (hes : sizeOk (bits v 12 4) = true)
    (hbuf : baseOk (s.ds n).bufBase (bits v 8 4) 16 = true) (hevt : baseOk (s.ds n).evtBase (bits v 12 4) 16 = true) :
    s.writeDsctl n v = s.setDs n { s.ds n with
      vector := bits v 16 6, bufSize := bits v 8 4, evtSize := bits v 12 4, enable := true, configError := false
      bufTail := 0, bufHead := 0, evtTail := 0, evtHead := 0, phase := true, posted := [], cur := none, fetchStalled := false } := by
  unfold State.writeDsctl
  dsimp only
  rw [if_neg (sizesOk hbs hes), if_neg (by simp [hoff]), if_neg (by simp [hen]), if_pos (by rw [hbuf, hevt]; rfl)]

theorem writeDsctl_disables (hon : (s.ds n).enable = true) (hdis : bit v 0 = false) (hbs : sizeOk (bits v 8 4) = true) (hes : sizeOk (bits v 12 4) = true) :
    s.writeDsctl n v = if (s.ds n).opened then s else s.setDs n { s.ds n with vector := bits v 16 6, enable := false } := by
  unfold State.writeDsctl
  dsimp only
  rw [if_neg (sizesOk hbs hes), if_pos hon, if_neg (by simp [hdis])]

theorem writeMectl_enables (hoff : s.host.me.enable = false) (hen : bit v 0 = true) (hsize : sizeOk (bits v 8 4) = true)
    (hbase : baseOk s.host.me.base (bits v 8 4) 32 = true) :
    s.writeMectl v = { s with host := { s.host with me := { s.host.me with
      vector := bits v 16 6, size := bits v 8 4, enable := true, configError := false, tail := 0, head := 0, phase := true, held := [], overflow := false } } } := by
  unfold State.writeMectl
  dsimp only
  rw [if_neg (by simp [hsize]), if_neg (by simp [hoff]), if_neg (by simp [hen]), if_pos hbase]

theorem writeMectl_disables (hon : s.host.me.enable = true) (hdis : bit v 0 = false) (hsize : sizeOk (bits v 8 4) = true) :
    s.writeMectl v = { s with host := { s.host with me := { s.host.me with vector := bits v 16 6, enable := false } } } := by
  unfold State.writeMectl
  dsimp only
  rw [if_neg (by simp [hsize]), if_pos hon, hdis]

end

/-! The six rows while their writes take effect. -/

section
variable {s : State} {t q n : Nat} {v : Word}

theorem cqEnable_eq (hq : q < 16) (hup : (s.at t).hostUp = true) (hre : s.chip.restarting = false) :
    exec (.cqEnable t q v) s = .next ((s.at t).writeCqctl q v.toNat) :=
  (ifUnit_of hq _).trans (congrArg _ (mgmtReg_runs hup (by rwa [at_chip]) _ _ _))

theorem cqDisable_eq (hq : q < 16) (hup : (s.at t).hostUp = true) (hre : s.chip.restarting = false) :
    exec (.cqDisable t q v) s = .next ((s.at t).writeCqctl q v.toNat) :=
  (ifUnit_of hq _).trans (congrArg _ (mgmtReg_runs hup (by rwa [at_chip]) _ _ _))

theorem dsEnable_eq (hn : n < 64) (hup : (s.at t).hostUp = true) : exec (.dsEnable t n v) s = .next ((s.at t).writeDsctl n v.toNat) :=
  ifUnit_hostUp hn hup

theorem dsDisable_eq (hn : n < 64) (hup : (s.at t).hostUp = true) : exec (.dsDisable t n v) s = .next ((s.at t).writeDsctl n v.toNat) :=
  ifUnit_hostUp hn hup

theorem meEnable_eq (hup : (s.at t).hostUp = true) (hre : s.chip.restarting = false) :
    exec (.meEnable t v) s = .next ((s.at t).writeMectl v.toNat) :=
  congrArg _ (mgmtReg_runs hup (by rwa [at_chip]) _ _ _)

theorem meDisable_eq (hup : (s.at t).hostUp = true) (hre : s.chip.restarting = false) :
    exec (.meDisable t v) s = .next ((s.at t).writeMectl v.toNat) :=
  congrArg _ (mgmtReg_runs hup (by rwa [at_chip]) _ _ _)

end

/-- Settles O37: each row is a write to its ring group's control register. -/
theorem ringEnablesComplete : Obligations.RingEnablesComplete := by
  unfold Obligations.RingEnablesComplete
  refine ⟨fun s t q v hq hup hre hoff hen hsq hcq => ?_, fun s t q v hq hup hre hon hdis hsq hcq => ?_, fun s t n v hn hup hoff hen hbs hes hbuf hevt => ?_,
    fun s t n v hn hup hon hdis hbs hes => ?_, fun s t v hup hre hoff hen hsize hbase => ?_, fun s t v hup hre hon hdis hsize => ?_⟩
  · rw [cqEnable_eq hq hup hre, writeCqctl_enables (by rwa [at_cq]) hen hsq hcq, at_cq]
    exact ⟨fun hsb hcb => by rw [hsb, hcb]; rfl, fun hsb => by rw [hsb]; rfl⟩
  · rw [cqDisable_eq hq hup hre, writeCqctl_disables (by rwa [at_cq]) hdis hsq hcq, at_cq]
  · rw [dsEnable_eq hn hup, writeDsctl_enables (by rwa [at_ds]) hen hbs hes (by rwa [at_ds]) (by rwa [at_ds]), at_ds]
  · rw [dsDisable_eq hn hup, writeDsctl_disables (by rwa [at_ds]) hdis hbs hes, at_ds]
  · rw [meEnable_eq hup hre, writeMectl_enables (by rwa [at_host]) hen hsize (by rwa [at_host]), at_host]
  · rw [meDisable_eq hup hre, writeMectl_disables (by rwa [at_host]) hdis hsize, at_host]

/-! ### The ring area and the vector masks (11 R324, R325; 18 R493) -/

@[simp] theorem at_anyRing (s : State) (t : Nat) : (s.at t).anyRing = s.anyRing := by simp [State.anyRing]

theorem regWrite_areaFixed {s : State} (h : s.anyRing = true) (x : Nat) : s.regWrite 0x3004 x = s := by
  have hwrite : s.regWrite 0x3004 x = s.writeLocal 0x3004 x := rfl
  exact hwrite.trans (if_pos (.inr (.inl h)))

theorem regWrite_vectorMask {s : State} {n : Nat} (hn : n < 64) (x : Nat) :
    s.regWrite (0x8000 + 16 * n + 12) x = s.setMsix n { s.msix n with ctrl := x % 2 } := by
  have hmod : (0x8000 + 16 * n + 12) % 16 = 12 := by omega
  have hdiv : (0x8000 + 16 * n + 12 - 0x8000) / 16 = n := by omega
  unfold State.regWrite
  iterate 7 rw [if_neg (by omega)]
  rw [if_pos (by omega)]
  unfold State.writeMsix
  rw [hdiv, hmod]
  rfl

theorem msix_setMsix_self {s : State} {n : Nat} {e : Msix} (h : Tbl.wf {} s.host.msix = true) : (s.setMsix n e).msix n = e :=
  Tbl.get_set_self h

theorem msix_setMsix_other {s : State} {n k : Nat} {e : Msix} (h : k ≠ n) : (s.setMsix n e).msix k = s.msix k := Tbl.get_set_other h

/-- Settles O22: outside local-ring mode every check of the area takes the branch that leaves it aside. -/
theorem localRingArea : Obligations.LocalRingArea := by
  unfold Obligations.LocalRingArea
  refine ⟨fun s t v hring => ?_, fun s a n b d hmode => ?_, fun s => ?_, fun s t n v hup hn hwf => ?_⟩
  · cases hup : (s.at t).hostUp
    · exact registerWrite_ignored (.inr (.inr hup))
    · rw [registerWrite_writes hup (by decide), regWrite_areaFixed (by rwa [at_anyRing])]
  · simp [State.bufOk, State.fetched, State.hostRead, State.hostWrite, hmode]
  · simp [State.hostIrq]
  · rw [spiWriteSetupRegister_writes hup (by omega), regWrite_vectorMask hn]
    have hself : (((s.at t).setMsix n { (s.at t).msix n with ctrl := v.toNat % 2 })).msix n = { s.msix n with ctrl := v.toNat % 2 } := by
      rw [msix_setMsix_self (by rwa [at_host]), at_msix]
    refine ⟨_, rfl, ?_, hself ▸ rfl, hself ▸ rfl, fun k hk => (msix_setMsix_other hk).trans (at_msix ..)⟩
    rw [hself]
    simp [bit]

end Sys2Proof.Machine

/-! PROOFS. Control levels and their frame, and the pin banks (16 R427-R430; 18 R485-R487). -/

namespace Sys2Proof.Machine

/-! ### Control sources (02 R46; 16 R438)

A level change touches the cells that it resets or holds and the list of sources, and nothing else. -/

/-- The state with other cells and other levels of control sources. -/
def State.withControls (s : State) (x : Tbl Cell × List Nat) : State := { s with til := { s.til with cells := x.1, ctl := x.2 } }

theorem controls_within (s : State) (g : Graph) : ∃ x, s.controls g = s.withControls x := by
  unfold State.controls
  refine foldl_within (put := State.withControls) (get := fun s => (s.til.cells, s.til.ctl)) (fun _ => rfl) (fun _ _ _ => rfl) (fun s p => ?_) _ _
  dsimp only
  split
  · exact ⟨(_, s.til.ctl), rfl⟩
  · exact ⟨(s.til.cells, s.til.ctl), rfl⟩

theorem setCtl_within (s : State) (code : Nat) (level : Bool) : ∃ x, s.setCtl code level = s.withControls x := by
  unfold State.setCtl
  split
  · exact ⟨(s.til.cells, s.til.ctl), rfl⟩
  · obtain ⟨x, hx⟩ := foldl_within (f := fun s (e : Nat × Graph) => if e.2.phase = 7 then s.controls e.2 else s) (put := State.withControls)
      (get := fun s => (s.til.cells, s.til.ctl)) (fun _ => rfl) (fun _ _ _ => rfl) (fun s e => by split; exacts [controls_within s _, ⟨(s.til.cells, s.til.ctl), rfl⟩]) _ _
    exact ⟨x, hx.trans rfl⟩

theorem syncTI_within (s : State) (gs : List Nat) : ∃ x, s.syncTI gs = s.withControls x := by
  unfold State.syncTI
  exact foldl_within (put := State.withControls) (get := fun s => (s.til.cells, s.til.ctl)) (fun _ => rfl) (fun _ _ _ => rfl) (fun s g => setCtl_within s _ _) _ _

theorem syncTI_frame {α : Type} (f : State → α) (hf : ∀ s x, f (State.withControls s x) = f s) (s : State) (gs : List Nat) : f (s.syncTI gs) = f s := by
  obtain ⟨x, hx⟩ := syncTI_within s gs
  rw [hx, hf]

/-! ### Banks' supplies (16 R427, R428; 18 R486) -/

section
variable {s : State} {t b mv : Nat} {v : Word}

theorem writeBank_writes {v : Nat} (hv : bits v 0 3 ≤ 4) :
    s.writeBank b v = if bits v 0 3 = (s.bank b).vccio then s.setBank b { s.bank b with vccio := bits v 0 3, cfgPull := bits v 4 2 }
      else (s.setBank b { s.bank b with vccio := bits v 0 3, cfgPull := bits v 4 2 }).reswitch
        ((s.setBank b { s.bank b with vccio := bits v 0 3, cfgPull := bits v 4 2 }).mappedIn b) := if_neg (Nat.not_lt.2 hv)

/-- A pin goes into or out of high impedance. -/
def State.floatPin (z : Bool) (s : State) (p : Nat) : State := s.setPinS p { s.pinS p with hiz := z }

theorem floatPins_banks (z : Bool) (l : List Nat) (s : State) : (l.foldl (State.floatPin z) s).pin.banks = s.pin.banks :=
  foldl_frame (f := State.floatPin z) (·.pin.banks) (fun _ _ => rfl) l s

theorem floatPins_frame {α : Type} (f : State → α) (hf : ∀ (s : State) x, f { s with pin := x } = f s) (z : Bool) (l : List Nat) (s : State) :
    f (l.foldl (State.floatPin z) s) = f s := foldl_frame (f := State.floatPin z) f (fun _ _ => hf ..) l s

theorem floatPin_floats (s : State) (p : Nat) : ((s.floatPin true p).pinS p).hiz = true := by
  have hself : (s.floatPin true p).pinS p = { s.pinS p with hiz := true } := Tbl.get_set_ne fun h => Bool.noConfusion (congrArg PinS.hiz h)
  rw [hself]

theorem floatPin_keeps {p : Nat} (q : Nat) (h : (s.pinS p).hiz = true) : ((s.floatPin true q).pinS p).hiz = true := by
  by_cases hpq : p = q
  · rw [hpq]
    exact floatPin_floats s q
  · exact (congrArg PinS.hiz (Tbl.get_set_other hpq)).trans h

theorem floatPins_keep {p : Nat} (l : List Nat) (h : (s.pinS p).hiz = true) : ((l.foldl (State.floatPin true) s).pinS p).hiz = true := by
  induction l generalizing s with
  | nil => exact h
  | cons q l ih => exact ih (floatPin_keeps q h)

theorem floatPins_float {p : Nat} {l : List Nat} (h : p ∈ l) : ((l.foldl (State.floatPin true) s).pinS p).hiz = true := by
  induction l generalizing s with
  | nil => cases h
  | cons q l ih =>
    rcases List.mem_cons.1 h with rfl | hl
    · exact floatPins_keep l (floatPin_floats s p)
    · exact ih hl

@[simp] theorem at_bankPins (s : State) (t b : Nat) : (s.at t).bankPins b = s.bankPins b := by simp [State.bankPins]

/-- The bank's record and its pins as a supply fault leaves them. -/
def State.bankFaulted (s : State) (b mv : Nat) : State :=
  (s.bankPins b).foldl (State.floatPin true) (s.setBank b { s.bank b with fault := true, measured := mv })

theorem bankSupplyFault_eq (hb : b < 12) (hpow : (s.bank b).powered = true) (hok : (s.bank b).fault = false) (hoff : (s.bank b).near mv = false) :
    exec (.bankSupplyFault t b mv) s = .next ((((s.at t).bankFaulted b mv).syncTI
      ((((s.at t).bankFaulted b mv).bankPins b).flatMap fun p => ((s.at t).bankFaulted b mv).sigsOf (((s.at t).bankFaulted b mv).pinS p).own)).log 0x900 4 0 b mv) :=
  (ifUnit_of hb _).trans (congrArg _ (if_neg (by rw [at_bank]; simp [hpow, hok, hoff])))

theorem bankFaulted_banks (s : State) (b mv : Nat) : (s.bankFaulted b mv).pin.banks = Tbl.set {} b { s.bank b with fault := true, measured := mv } s.pin.banks :=
  floatPins_banks ..

/-- The bank's record and its pins as a restored supply leaves them: the pins that no mapping names are driven again at once. -/
def State.bankRestored (s : State) (b mv : Nat) : State :=
  ((s.bankPins b).filter fun p => (s.pinS p).own.isNone).foldl (State.floatPin false) (s.setBank b { s.bank b with fault := false, measured := mv })

theorem bankSupplyRestored_eq (hb : b < 12) (hbad : (s.bank b).fault = true) (hnear : (s.bank b).near mv = true) :
    exec (.bankSupplyRestored t b mv) s = .next (((s.at t).bankRestored b mv).reswitch
      ((((s.at t).bankRestored b mv).bankPins b).filter fun p => (((s.at t).bankRestored b mv).pinS p).hiz)) :=
  (ifUnit_of hb _).trans (congrArg _ (if_neg (by rw [at_bank]; simp [hbad, hnear])))

theorem bankRestored_banks (s : State) (b mv : Nat) : (s.bankRestored b mv).pin.banks = Tbl.set {} b { s.bank b with fault := false, measured := mv } s.pin.banks :=
  floatPins_banks ..

theorem bank_of_banks {s u : State} {x : Bank} (h : u.pin.banks = Tbl.set {} b x s.pin.banks) {k : Nat} (hk : k ≠ b) : u.bank k = s.bank k :=
  (congrArg (Tbl.get ({} : Bank) k) h).trans (Tbl.get_set_other hk)

end

/-! ### Pin pairs (16 R430; 18 R487) -/

/-- Nibbles put side by side: the first, and the rest above it. -/
theorem sum_nibbles_succ (f : Nat → Nat) (n : Nat) : ((List.range (n + 1)).map fun i => f i * 2 ^ (4 * i)).sum =
    f 0 + 16 * ((List.range n).map fun i => f (i + 1) * 2 ^ (4 * i)).sum := by
  rw [List.range_succ_eq_map, List.map_cons, List.sum_cons, List.map_map, ← List.sum_map_mul_left]
  congr 3
  · omega
  · funext i
    simp only [Function.comp_apply, Nat.mul_succ, Nat.pow_add]
    ring

/-- Fields of three bits a nibble apart read back. -/
theorem bits_sum_nibbles {f : Nat → Nat} (hf : ∀ i, f i < 8) {i n : Nat} (hi : i < n) :
    bits ((List.range n).map fun i => f i * 2 ^ (4 * i)).sum (4 * i) 3 = f i := by
  induction i generalizing f n with
  | zero =>
    obtain ⟨m, rfl⟩ := Nat.exists_eq_add_one.2 hi
    have h0 := hf 0
    rw [sum_nibbles_succ, bits]
    omega
  | succ i ih =>
    obtain ⟨m, rfl⟩ := Nat.exists_eq_add_one.2 (Nat.zero_lt_of_lt hi)
    have h0 := hf 0
    have hrest := ih (f := fun i => f (i + 1)) (fun i => hf (i + 1)) (Nat.lt_of_succ_lt_succ hi)
    rw [bits] at hrest
    rw [sum_nibbles_succ, bits, show 2 ^ (4 * (i + 1)) = 16 * 2 ^ (4 * i) by rw [Nat.mul_succ, Nat.pow_add, Nat.mul_comm], ← Nat.div_div_eq_div_mul]
    have hdiv (r : Nat) : (f 0 + 16 * r) / 16 = r := by omega
    rw [hdiv, hrest]

section
variable {s : State} {t k : Nat} {v : Word}

/-- The fields that a write of PIN_DIFFk sets (18 R485). -/
def diffFields (v : Nat) : Nat := ((List.range 8).map fun i => bits v (4 * i) 3 * 2 ^ (4 * i)).sum

theorem bits_diffFields {i : Nat} (v : Nat) (hi : i < 8) : bits (diffFields v) (4 * i) 3 = bits v (4 * i) 3 :=
  bits_sum_nibbles (f := fun i => bits v (4 * i) 3) (fun _ => Nat.mod_lt _ (by decide)) hi

theorem pinDiff_eq (hk : k < 4) (hup : (s.at t).hostUp = true) : exec (.pinDiff t k v) s = .next ((s.at t).writeDiff k v.toNat) := ifUnit_hostUp hk hup

theorem writeDiff_refused {v i : Nat} (hi : i < 8) (hbad : 2 < bits v (4 * i) 2 ∨ diffInOk (bits v (4 * i) 2) (s.bank k).vccio = false) :
    s.writeDiff k v = s := by
  refine if_pos (List.any_eq_true.2 ⟨i, List.mem_range.2 hi, ?_⟩)
  rcases hbad with hmode | hvccio
  · simp [hmode]
  · simp [hvccio]

/-- The pairs that a write of PIN_DIFFk changes and a PIN_MAP entry names. -/
def State.changedPairs (s : State) (k v : Nat) : List Nat :=
  (List.range 8).filter fun i => decide (bits v (4 * i) 3 ≠ bits (Tbl.get 0 k s.pin.diff) (4 * i) 3) && (s.pinS (16 * k + 2 * i)).own.isSome

theorem changedPairs_diffFields (s : State) (k v : Nat) : s.changedPairs k (diffFields v) = s.changedPairs k v :=
  List.filter_congr fun i hi => by rw [bits_diffFields v (List.mem_range.1 hi)]

theorem writeDiff_writes {v : Nat} (hok : ∀ i < 8, bits v (4 * i) 2 ≤ 2 ∧ diffInOk (bits v (4 * i) 2) (s.bank k).vccio = true) :
    s.writeDiff k v = State.reswitch { s with pin := { s.pin with diff := Tbl.set 0 k (diffFields v) s.pin.diff } }
      ((s.changedPairs k (diffFields v)).map fun i => 16 * k + 2 * i) := by
  refine if_neg ?_
  simp only [List.any_eq_true, List.mem_range, Bool.or_eq_true, decide_eq_true_eq, Bool.not_eq_true']
  rintro ⟨i, hi, hbad⟩
  obtain ⟨hmode, hvccio⟩ := hok i hi
  rcases hbad with h | h
  · omega
  · exact Bool.noConfusion (hvccio.symm.trans h)

end

/-- Settles O21: a refused write is the identity; a permitted one sets the fields, which read back, and queues the changed pairs. -/
theorem pinDiffWrites : Obligations.PinDiffWrites := by
  unfold Obligations.PinDiffWrites
  refine ⟨fun s t k v i hk hup hi hbad => ?_, fun s t k v hk hup hwf hok => ?_⟩
  · rw [pinDiff_eq hk hup, writeDiff_refused hi (by rwa [at_bank])]
  · rw [pinDiff_eq hk hup, writeDiff_writes (fun i hi => by rw [at_bank]; exact hok i hi), changedPairs_diffFields]
    refine ⟨_, rfl, fun i hi => ?_, fun j hj => ?_, ?_, ?_, ?_⟩
    · exact (congrArg (bits · (4 * i) 3) (Tbl.get_set_self (by rwa [at_pin]))).trans (bits_diffFields v.toNat hi)
    · exact (Tbl.get_set_other hj).trans (by rw [at_pin])
    · simp only [State.reswitch, State.changedPairs, at_pin, at_pinS, List.map_map]
      rfl
    · exact congrArg (·.pins) (at_pin s t)
    · exact congrArg (·.banks) (at_pin s t)

/-- Settles O46: a bank's declaration and pairs by the writes' equations; a supply fault and its end by what they leave of the banks
and the pins, no control level reaching them. -/
theorem bankEventsComplete : Obligations.BankEventsComplete := by
  unfold Obligations.BankEventsComplete
  refine ⟨?_, ?_, fun s t b mv hb hpow hok hoff => ?_, fun s t b mv hb hbad hnear hwf => ?_⟩
  · rintro s t b v u hb hup hv rfl
    refine (ifUnit_hostUp hb hup).trans ?_
    rw [writeBank_writes hv, at_bank]
  · rintro s t k v n hk hup hok rfl
    rw [pinDiff_eq hk hup, writeDiff_writes (fun i hi => by rw [at_bank]; exact hok i hi)]
    simp only [State.changedPairs, at_pin, at_pinS]
    rfl
  · have hbanks : ((s.at t).bankFaulted b mv).pin.banks = Tbl.set {} b { s.bank b with fault := true, measured := mv } s.pin.banks := by
      rw [bankFaulted_banks, at_bank, at_pin]
    rw [bankSupplyFault_eq hb hpow hok hoff]
    have hquiet := fun gs => log_quiet (((s.at t).bankFaulted b mv).syncTI gs) 0x900 4 0 b mv
    have hpin := fun gs => (hquiet gs).pin.trans (syncTI_frame (·.pin) (fun _ _ => rfl) _ gs)
    refine ⟨_, rfl, ?_, fun p hp => ?_, fun k hk => ?_, ?_, ?_, ?_⟩
    · exact (congrArg (fun x => Tbl.get {} b x.banks) (hpin _)).trans ((congrArg (Tbl.get {} b) hbanks).trans (Tbl.get_set_ne fun h => Bool.noConfusion (congrArg Bank.fault h)))
    · exact (congrArg (fun x => (Tbl.get {} p x.pins).hiz) (hpin _)).trans (floatPins_float ((at_bankPins s t b).symm ▸ hp))
    · exact bank_of_banks ((congrArg (·.banks) (hpin _)).trans hbanks) hk
    · exact ((hquiet _).convs.trans (syncTI_frame (·.convs) (fun _ _ => rfl) ..)).trans ((floatPins_frame (·.convs) (fun _ _ => rfl) ..).trans (at_convs s t))
    · exact ((hquiet _).dacs.trans (syncTI_frame (·.dacs) (fun _ _ => rfl) ..)).trans ((floatPins_frame (·.dacs) (fun _ _ => rfl) ..).trans (at_dacs s t))
    · exact ((hquiet _).time.trans (syncTI_frame (·.time) (fun _ _ => rfl) ..)).trans (floatPins_frame (·.time) (fun _ _ => rfl) ..)
  · have hbanks : ((s.at t).bankRestored b mv).pin.banks = Tbl.set {} b { s.bank b with fault := false, measured := mv } s.pin.banks := by
      rw [bankRestored_banks, at_bank, at_pin]
    rw [bankSupplyRestored_eq hb hbad hnear]
    refine ⟨_, rfl, ?_, fun k hk => bank_of_banks hbanks hk, ?_, ?_, ?_⟩
    · exact (congrArg (Tbl.get {} b) hbanks).trans (Tbl.get_set_self hwf)
    · exact (floatPins_frame (·.convs) (fun _ _ => rfl) ..).trans (at_convs s t)
    · exact (floatPins_frame (·.chip) (fun _ _ => rfl) ..).trans (at_chip s t)
    · exact floatPins_frame (·.time) (fun _ _ => rfl) ..

end Sys2Proof.Machine

/-! PROOFS. The hard serial ports (16 R445-R447), the user serial lanes (16 R451-R453; 18 R480), and user PLLs and global trees
(09 R249, R250; 18 R480, R482, R483). -/

namespace Sys2Proof.Machine

/-! ### Hard serial ports (16 R445-R447) -/

section
variable {s : State} {t k : Nat}

/-- A request of fabric logic whose region's clocks run, on a port that the management core does not own. -/
theorem portReq_serves (hk : k < 6) (hgate : s.clocksGated k = false) (hown : (s.at t).portOwned k = false) (f : State → State) :
    (s.at t).portReq k f = .next (f (s.at t)) :=
  (ifUnit_of hk _).trans (congrArg _ ((if_neg (by rw [at_clocksGated]; simp [hgate])).trans (if_neg (by simp [hown]))))

/-- The port's record after a byte arrives, with the byte as it is kept and whether it is in error. -/
def Port.received (p : Port) (b : Nat) (e : Bool) : Port :=
  { p with rx := if p.rx.length < 32 then p.rx ++ [(b, e)] else p.rx, overrun := p.overrun || decide (32 ≤ p.rx.length), error := p.error || e }

theorem received_queued {p : Port} (h : p.rx.length < 32) (b : Nat) (e : Bool) :
    p.received b e = { p with rx := p.rx ++ [(b, e)], error := p.error || e } := by
  have hroom : decide (32 ≤ p.rx.length) = false := decide_eq_false (Nat.not_le.2 h)
  rw [Port.received, if_pos h, hroom, Bool.or_false]

theorem received_overruns {p : Port} (h : 32 ≤ p.rx.length) (b : Nat) (e : Bool) : p.received b e = { p with overrun := true, error := p.error || e } := by
  rw [Port.received, if_neg (Nat.not_lt.2 h), decide_eq_true h, Bool.or_true]

theorem portByteReceived_eq (hk : k < 6) (hen : (s.port k).enabled = true) (hown : (s.at t).portOwned k = false) (byte : Nat) (err : Bool) :
    exec (.portByteReceived t k byte err) s = .next ((s.at t).setPort k
      ((s.port k).received (if portKind k = 2 ∧ bit (s.port k).mode 3 then byte % 128 else byte % 256) (err && decide (portKind k ≠ 0)))) := by
  change execPortByteReceived t k byte err s = _
  unfold execPortByteReceived
  dsimp only
  rw [at_port, if_neg (by simp [hen, hown])]
  exact ifUnit_of hk _

/-- The port's record after the entry `w` at the head of its transmit FIFO has been shifted out. -/
def Port.sent (p : Port) (k w : Nat) (rest : List Nat) (arbLost nack : Bool) : Port :=
  { p with tx := rest, arbLost := p.arbLost || (decide (portKind k = 1) && arbLost), error := p.error || (decide (portKind k = 1) && nack)
           cs := if portKind k = 0 ∧ !bit p.mode 0 ∧ !bit w 8 then some (bits w 9 2) else none }

/-- Does the entry leave the FIFO with nothing on the line: an I2C STOP or one that lost arbitration, a UART break? -/
def silentEntry (k w : Nat) (arbLost : Bool) : Bool :=
  (decide (portKind k = 1) && (bit w 10 || arbLost)) || (decide (portKind k = 2) && bit w 8)

theorem portByteSent_eq (hk : k < 6) (hen : (s.port k).enabled = true) (hown : (s.at t).portOwned k = false) {w : Nat} {rest : List Nat}
    (htx : (s.port k).tx = w :: rest) (arb nack : Bool) :
    exec (.portByteSent t k arb nack) s = .next (if silentEntry k w arb then (s.at t).setPort k ((s.port k).sent k w rest arb nack)
      else ((s.at t).setPort k ((s.port k).sent k w rest arb nack)).emit
        (.port k (toLE 1 (if portKind k = 2 ∧ bit (s.port k).mode 3 then w % 128 else w)))) := by
  change execPortByteSent t k arb nack s = _
  unfold execPortByteSent
  dsimp only
  rw [at_port, if_neg (by simp [hen, hown]), htx]
  exact (ifUnit_of hk _).trans (congrArg _ (if_congr (by simp [silentEntry]) rfl rfl))

theorem sent_other {p : Port} (h : portKind k ≠ 1) (w : Nat) (rest : List Nat) (arb nack : Bool) : p.sent k w rest arb nack =
    { p with tx := rest, cs := if portKind k = 0 ∧ bit p.mode 0 = false ∧ bit w 8 = false then some (bits w 9 2) else none } := by
  simp [Port.sent, h]

theorem sent_i2c {p : Port} (h : portKind k = 1) (w : Nat) (rest : List Nat) (arb nack : Bool) : p.sent k w rest arb nack =
    { p with tx := rest, arbLost := p.arbLost || arb, error := p.error || nack, cs := none } := by
  simp [Port.sent, h]

end

/-- Settles O47: a request is served on a port of the fabric; what arrives and what leaves is one record each. -/
theorem portsComplete : Obligations.PortsComplete := by
  unfold Obligations.PortsComplete
  refine ⟨fun s t k hk hgate hown => ⟨?_, fun w hroom => ?_, fun w hfull => ?_, fun e l hrx => ?_, fun hrx => ?_, fun w p hset => ?_, fun w hno => ?_⟩,
    ?_, fun s t k arb nack w rest hk hkind hen hown htx hsend => ?_, fun s t k arb nack w rest hk hkind hen hown htx => ?_, fun s t k hk hkind hen hmode => ?_⟩
  · change execPortStatus t k s = _
    refine (portReq_serves hk hgate hown _).trans ?_
    rw [at_port]
  · change execPortTx t k w s = _
    refine (portReq_serves hk hgate hown _).trans ?_
    rw [at_port, if_neg (by omega)]
  · change execPortTx t k w s = _
    refine (portReq_serves hk hgate hown _).trans ?_
    rw [at_port, if_pos hfull]
  · change execPortRx t k s = _
    refine (portReq_serves hk hgate hown _).trans ?_
    rw [at_port]
    dsimp only
    rw [hrx]
  · change execPortRx t k s = _
    refine (portReq_serves hk hgate hown _).trans ?_
    rw [at_port]
    dsimp only
    rw [hrx]
  · change execPortControl t k w s = _
    refine (portReq_serves hk hgate hown _).trans ?_
    rw [at_port, hset]
  · change execPortControl t k w s = _
    refine (portReq_serves hk hgate hown _).trans ?_
    rw [at_port, hno]
  · rintro s t k byte err b hk hen hown rfl
    rw [portByteReceived_eq hk hen hown]
    exact ⟨fun hroom => by rw [received_queued hroom], fun hfull => by rw [received_overruns hfull]⟩
  · have hloud : silentEntry k w arb = false := by
      rcases hsend with h0 | hw
      · simp [silentEntry, h0]
      · simp [silentEntry, hkind, hw]
    rw [portByteSent_eq hk hen hown htx, hloud, sent_other hkind]
    simp only [State.emit, State.setPort_out, at_out]
    rfl
  · have hsilent : silentEntry k w arb = true ↔ (arb = true ∨ bit w 10 = true) := by simp [silentEntry, hkind, or_comm]
    have hplain : toLE 1 (if portKind k = 2 ∧ bit (s.port k).mode 3 = true then w % 128 else w) = toLE 1 w := by rw [if_neg (by omega)]
    rw [portByteSent_eq hk hen hown htx, sent_i2c hkind, hplain]
    refine ⟨_, rfl, ?_, ?_⟩
    · split <;> rfl
    · by_cases hq : arb = true ∨ bit w 10 = true
      · rw [if_pos (hsilent.2 hq), if_pos hq, State.setPort_out, at_out]
      · rw [if_neg (hsilent.not.2 hq), if_neg hq, State.emit, State.setPort_out, at_out]
  · refine (ifUnit_of hk _).trans (congrArg _ ?_)
    rw [at_port]
    exact if_pos ⟨hkind, hen, hmode⟩

/-! ### User serial lanes (16 R451-R453; 18 R480) -/

section
variable {s : State} {t l : Nat}

theorem writeUlctl_writes {v : Nat} (hlo : 8 ≤ bits v 1 8) (hhi : bits v 1 8 ≤ 128) :
    s.writeUlctl l v = s.setLane l { s.lane l with
      enable := bit v 0, rate := bits v 1 8, txTree := bits v 9 3, rxTree := bits v 12 3, deemph := bits v 15 4
      lock := (s.lane l).lock && (bit v 0 && (s.lane l).enable && decide (bits v 1 8 = (s.lane l).rate))
      rxBuf := if bit v 0 && (s.lane l).enable && decide (bits v 1 8 = (s.lane l).rate) then (s.lane l).rxBuf else [] } := if_neg (by omega)

theorem ulTxBlock_eq (hl : l < 8) (hclk : (s.at t).laneClock l (s.lane l).txTree = true) (b : BitVec 66) (r : Bool) :
    exec (.ulTxBlock t l b r) s = .next (if r && (s.lane l).enable then (s.at t).emit (.lane l b.toNat) else (s.at t).log 0x902 4 0 l 1) := by
  refine (ifUnit_of hl _).trans (congrArg _ ?_)
  rw [at_lane]
  exact if_neg (by simp [hclk])

theorem ulRxBlock_eq (hl : l < 8) (hen : (s.lane l).enable = true) (hlock : (s.lane l).lock = true) (b : BitVec 66) :
    exec (.ulRxBlock t l b) s = .next (if (s.at t).laneClock l (s.lane l).rxTree then
        ((s.lane l).rxBuf ++ [b.toNat]).foldl (fun (s : State) b => s.emit (.fabric (128 + l) b false)) ((s.at t).setLane l { s.lane l with rxBuf := [] })
      else if (s.lane l).rxBuf.length < 8 then (s.at t).setLane l { s.lane l with rxBuf := (s.lane l).rxBuf ++ [b.toNat] }
      else (s.at t).log 0x903 4 0 l 1) := by
  refine (ifUnit_of hl _).trans (congrArg _ ?_)
  rw [at_lane]
  exact if_neg (by simp [hen, hlock])

/-- What is put on the outputs one after another stands there in order. -/
theorem foldl_emit {α : Type} (f : α → OutMsg) (l : List α) (s : State) :
    l.foldl (fun (s : State) x => s.emit (f x)) s = { s with out := s.out ++ l.map f } := by
  induction l generalizing s with
  | nil => simp
  | cons x l ih =>
    rw [List.foldl_cons, ih]
    simp [State.emit]

end

/-- Settles O48: each row of a lane by the branch its lane's state selects. -/
theorem userLanesComplete : Obligations.UserLanesComplete := by
  unfold Obligations.UserLanesComplete
  refine ⟨?_, fun s t l hl hen => ?_, fun s t l hl => ?_, fun s t l b r hl hclk => ⟨fun hr hen => ?_, fun hno => ?_⟩,
    fun s t l b hl hen hlock => ⟨fun hclk => ?_, fun hclk hroom => ?_, fun hclk hfull => ?_, ?_⟩⟩
  · rintro s t l v same hl hup hlo hhi rfl
    refine (ifUnit_hostUp hl hup).trans ?_
    rw [writeUlctl_writes hlo hhi, at_lane]
  · refine (ifUnit_of hl _).trans (congrArg _ ?_)
    rw [at_lane, if_pos hen]
  · refine (ifUnit_of hl _).trans (congrArg _ ?_)
    rw [at_lane]
  · rw [ulTxBlock_eq hl hclk, hr, hen, State.emit, at_out]
    rfl
  · rw [ulTxBlock_eq hl hclk, if_neg (by rcases hno with h | h <;> simp [h])]
  · rw [ulRxBlock_eq hl hen hlock, if_pos hclk, foldl_emit, State.setLane_out, at_out]
  · rw [ulRxBlock_eq hl hen hlock, if_neg (by simp [hclk]), if_pos hroom]
  · rw [ulRxBlock_eq hl hen hlock, if_neg (by simp [hclk]), if_neg (Nat.not_lt.2 hfull)]
  · refine (ifUnit_of hl _).trans (congrArg _ ?_)
    rw [at_lane, hen, hlock]
    rfl

/-! ### User PLLs and global trees (09 R249, R250; 18 R480, R482, R483) -/

section
variable {s : State} {t n g : Nat}

@[simp] theorem at_refKHz (s : State) (t : Nat) : (s.at t).refKHz = s.refKHz := by simp [State.refKHz]

/-- The fields of a PLL that a write of its control register takes. -/
def Upll.setFields (p : Upll) (v : Nat) : Upll := { p with mul := bits v 4 8, prediv := bits v 12 4, postdiv := bits v 16 7 }

theorem writeUpll_writes {v : Nat} (hmul : 8 ≤ bits v 4 8) : s.writeUpll n v = State.treesChanged s (s.setUpll n
    { (s.upll n).setFields v with
      enable := bit v 0 && ((s.upll n).setFields v).ok s.refKHz, configError := bit v 0 && !(bit v 0 && ((s.upll n).setFields v).ok s.refKHz)
      locked := (s.upll n).locked && (bit v 0 && ((s.upll n).setFields v).ok s.refKHz) && decide ((s.upll n).setFields v = s.upll n) }) :=
  if_neg (Nat.not_lt.2 hmul)

theorem upllEnable_eq (hn : n < 4) (hup : (s.at t).hostUp = true) {v : Word} (hmul : 8 ≤ bits v.toNat 4 8) {on : Bool}
    (hon : on = (bit v.toNat 0 && ((s.upll n).setFields v.toNat).ok s.refKHz)) :
    exec (.upllEnable t n v) s = .next (State.treesChanged (s.at t) ((s.at t).setUpll n { (s.upll n).setFields v.toNat with
      enable := on, configError := bit v.toNat 0 && !on, locked := (s.upll n).locked && on && decide ((s.upll n).setFields v.toNat = s.upll n) })) := by
  refine (ifUnit_hostUp hn hup).trans ?_
  rw [writeUpll_writes hmul, at_upll, at_refKHz, hon]

theorem writeGckctl_writes {v : Nat} (hsrc : gckIndexOk (bits v 1 3) (bits v 4 10) = true) (hmode : v % 2 = (s.gck g).mode) :
    s.writeGckctl g v = State.treesChanged s (s.setGck g { s.gck g with
      kind := bits v 1 3, index := bits v 4 10, div := bits v 14 8, loss := bits v 22 1, deassert := bits v 23 3, activeLow := bit v 26
      lost := (s.gck g).lost && decide (bits v 1 3 = (s.gck g).kind) && decide (bits v 4 10 = (s.gck g).index) }) := by
  refine (if_neg (by simp [hsrc, hmode])).trans ?_
  simp [hmode]

theorem writeGckfreq_writes {v : Nat} (hlo : 1 ≤ bits v 0 19) (hhi : bits v 0 19 ≤ 350000) :
    s.writeGckfreq g v = s.setGck g { s.gck g with khz := bits v 0 19 } := if_neg (by omega)

theorem offBy10_iff (k declared : Nat) : offBy10 k declared = true ↔ 10 * k < 9 * declared ∨ 11 * declared < 10 * k := by simp [offBy10]

end

/-- Settles O41: each write and each event of a PLL or a tree by the branch its record selects. -/
theorem userClocksComplete : Obligations.UserClocksComplete := by
  unfold Obligations.UserClocksComplete
  refine ⟨?_, fun s t n hn hen hok => ?_, fun s t g v hg hup hsrc hmode => ?_, fun s t g v hg hup hlo hhi => ?_,
    fun s t g khz hg hmode hlost hoff => ?_, fun s t g khz hg hmode hlost hlo hhi => ?_, ?_, fun s t g hg hmode hstep htree => ?_⟩
  · rintro s t n v p hn hup hmul rfl
    refine ⟨fun hon hok => ?_, fun hon hbad => ?_, fun hoff => ?_⟩
    · rw [upllEnable_eq hn hup hmul (on := true) (by rw [hon, Upll.setFields, hok]; rfl), hon, Bool.and_true]
      rfl
    · rw [upllEnable_eq hn hup hmul (on := false) (by rw [hon, Upll.setFields, hbad]; rfl), hon, Bool.and_false]
      rfl
    · rw [upllEnable_eq hn hup hmul (on := false) (by rw [hoff]; rfl), hoff, Bool.and_false]
      rfl
  · refine (ifUnit_of hn _).trans (congrArg _ ?_)
    rw [at_upll, at_refKHz]
    exact if_pos (by simp [hen, hok])
  · refine (ifUnit_of hg _).trans (congrArg _ ((if_neg (by simp [hup])).trans ?_))
    rw [writeGckctl_writes hsrc (by rwa [at_gck]), at_gck]
    rfl
  · refine (ifUnit_of hg _).trans (congrArg _ ((if_neg (by simp [hup])).trans ?_))
    rw [writeGckfreq_writes hlo hhi, at_gck]
    rfl
  · refine (ifUnit_of hg _).trans (congrArg _ ?_)
    rw [at_gck]
    exact if_neg (by simp [hmode, hlost, (offBy10_iff _ _).2 hoff])
  · have hnear : offBy10 khz (s.gck g).khz = false := Bool.eq_false_iff.2 ((offBy10_iff _ _).not.2 (by omega))
    refine (ifUnit_of hg _).trans (congrArg _ ?_)
    rw [at_gck]
    exact if_neg (by simp [hmode, hlost, hnear])
  · rintro s t g u hg hmode hass rfl
    refine (ifUnit_of hg _).trans (congrArg _ ?_)
    rw [at_gck]
    exact if_neg (by simp [hmode, hass])
  · refine (ifUnit_of hg _).trans (congrArg _ ?_)
    rw [at_gck, at_step]
    exact if_neg (by simp [hmode, htree, Nat.not_lt.2 hstep])

end Sys2Proof.Machine

/-! PROOFS. The configuration port (13 R389-R391), the test access port (19 R502), and Husk's events (15 R408-R412, R423; 17 R468). -/

namespace Sys2Proof.Machine

/-! ### Commands of the configuration port (13 R390, R391) -/

section
variable {s : State} {t len : Nat} {h : Bytes}

/-- The port has opened a transaction that reads an image. -/
def State.imageOpened (s : State) : State := { s with boot := { s.boot with cfgOpen := true, cfgFrames := 0 } }

theorem dropPortReadback_idle (hno : s.fab.readbacks.find? (fun r => r.id == 0x1000) = none) : s.dropPortReadback = s := by
  unfold State.dropPortReadback
  rw [show (s.fab.readbacks.find? fun r => r.id == cfgId) = none from hno]

/-- An image whose header and layout are good waits for its signatures. -/
theorem imageOpened_begins {l0 : Load} {b : Bytes} (hlen : 3520 ≤ b.length) (hhead : headerOk b 0xFF (imageMax l0.source l0.imgSlot) = true)
    (hid : identityOk b = true) : s.imageOpened.beginLoad 8 l0 b = s.imageOpened.setLoad 8 (some (l0.withHeader s.now b)) :=
  beginLoad_passes (if_neg (by decide)) hlen hhead hid

theorem cfgImage_reads {most : Nat} {l : Load} (hrun : s.coreRuns = true) (hok : s.cfgRefusal = 0) (hlo : 1 ≤ len) (hhi : len ≤ most)
    (hno : s.fab.readbacks.find? (fun r => r.id == 0x1000) = none) : s.cfgImage len most l h = s.imageOpened.beginLoad 8 l (h.take (min len 3520)) := by
  unfold State.cfgImage
  rw [if_neg (by simp [hrun]), if_neg (by simp [hok]), if_neg (by omega), dropPortReadback_idle hno]
  rfl

theorem cfgImage_refused {most : Nat} {l : Load} (hrun : s.coreRuns = true) (hno : s.cfgRefusal ≠ 0) : s.cfgImage len most l h = s.cfgEnd s.cfgRefusal :=
  (if_neg (by simp [hrun])).trans (if_pos hno)

theorem cfgLoad_eq (hidle : s.inFlight = [] ∨ (s.at t).cfgRefusal ≠ 0) :
    exec (.cfgLoad t len h) s = .next ((s.at t).cfgImage len (imageMax 0 0) { mode := 3, source := 0, imgSlot := 0, len := len } h) := by
  refine congrArg Host.Outcome.next (if_neg ?_)
  rw [at_inFlight]
  rintro ⟨hok, hbusy⟩
  exact hidle.elim (fun h => by simp [h] at hbusy) (fun h => h hok)

end

/-! ### The boundary-scan register (19 R502) -/

/-- A capture takes one level for each cell, and moves neither a pin nor what has been put out. -/
theorem scanCapture_eq (s : State) (n : Nat) : (s.scanCapture n).1.pin = s.pin ∧ (s.scanCapture n).1.out = s.out ∧ (s.scanCapture n).2.length = n := by
  induction n with
  | zero => exact ⟨rfl, rfl, rfl⟩
  | succ n ih =>
    obtain ⟨hpin, hout, hlen⟩ := ih
    rw [State.scanCapture]
    split
    · exact ⟨hpin, hout, by simp [hlen]⟩
    · exact ⟨hpin, hout, by simp [hlen]⟩

theorem tapDrive_drives {s : State} (h : s.tapDrives = true) (code : Nat) : s.tapDrive code = s.tapLoad code := by rw [State.tapDrive, h]; rfl

theorem tapDrive_bypasses {s : State} (h : s.tapDrives = false) (code : Nat) : s.tapDrive code = s.tapLoad 0xFF := by rw [State.tapDrive, h]; rfl

theorem tapLoad_at (s : State) (t code : Nat) : (s.at t).tapLoad code = { s.at t with pin := { s.pin with tapInstr := code } } := by rw [State.tapLoad, at_pin]

theorem portStatus_length (s : State) : s.portStatus.length = 16 := by simp [State.portStatus, toLE_length, zeros]

/-- Settles O57: a served command of the port by `beginLoad_passes`, a refused one by its branch; the test instructions by what they load. -/
theorem portCommandsComplete : Obligations.PortCommandsComplete := by
  unfold Obligations.PortCommandsComplete
  refine ⟨?_, fun s t sc ix tm hrun hok hscope hno => ?_, fun s t len h sc ix tm hrun hno => ⟨?_, ?_, ?_⟩, fun s t => ⟨?_, portStatus_length _⟩, fun s t => ?_,
    fun s t hopen hno hload => ?_, fun s t hclosed => ?_, fun s t hd => ⟨?_, ?_, ?_⟩, fun s t hd => ⟨?_, ?_, ?_⟩, fun s t bs => ?_, fun s t => ?_,
    fun s t c hc => ?_⟩
  · rintro s t len h b u l hrun hok hno hlo rfl hlen hid rfl
    have hread := fun (most : Nat) (l : Load) (hhi : len ≤ most) =>
      cfgImage_reads (s := s.at t) (h := h) (l := l) (by rwa [at_coreRuns]) hok hlo hhi (by rwa [at_fab])
    have hopened : (s.at t).imageOpened = { s.at t with boot := { s.boot with cfgOpen := true, cfgFrames := 0 } } := by rw [State.imageOpened, at_boot]
    refine ⟨?_, ?_⟩
    · rintro hidle hmax hhead rfl
      rw [cfgLoad_eq (.inl hidle), hread _ _ hmax, imageOpened_begins hlen hhead hid, hopened]
      rfl
    · rintro hmax hhead rfl
      refine congrArg Host.Outcome.next ?_
      rw [hread _ _ hmax, imageOpened_begins hlen hhead hid, hopened]
      rfl
  · refine congrArg Host.Outcome.next ((if_neg (by simp [hrun])).trans ((if_neg (by simp [hok])).trans ((if_neg (by simp [hscope])).trans ?_)))
    dsimp only
    rw [dropPortReadback_idle (by rwa [at_fab]), at_boot]
    rfl
  · refine congrArg Host.Outcome.next ?_
    rw [cfgImage_refused (by rwa [at_coreRuns]) hno, State.cfgEnd, at_boot]
  · rw [cfgLoad_eq (.inr hno), cfgImage_refused (by rwa [at_coreRuns]) hno, State.cfgEnd, at_boot]
  · refine congrArg Host.Outcome.next ((if_neg (by simp [hrun])).trans ((if_pos hno).trans ?_))
    rw [State.cfgEnd, at_boot]
  · refine congrArg Host.Outcome.next ?_
    rw [State.emit, at_out]
  · refine congrArg Host.Outcome.next ?_
    rw [State.emit, at_out]
    rfl
  · refine congrArg Host.Outcome.next ?_
    rw [at_boot, if_neg (by simp [hopen])]
    dsimp only
    have hnone : (s.at t).fab.readbacks.find? (fun r => r.id == 0x1000) = none := by rwa [at_fab]
    rw [dropPortReadback_idle (s := { s.at t with boot := { s.boot with cfgOpen := false } }) hnone,
      show State.load { s.at t with boot := { s.boot with cfgOpen := false } } 8 = none from hload]
  · refine congrArg Host.Outcome.next ?_
    rw [at_boot, if_pos (by simp [hclosed])]
  · exact congrArg Host.Outcome.next ((tapDrive_drives hd 0).trans (tapLoad_at ..))
  · exact congrArg Host.Outcome.next ((tapDrive_drives hd 3).trans (tapLoad_at ..))
  · exact congrArg Host.Outcome.next ((tapDrive_drives hd 4).trans (tapLoad_at ..))
  · exact congrArg Host.Outcome.next ((tapDrive_bypasses hd 0).trans (tapLoad_at ..))
  · exact congrArg Host.Outcome.next ((tapDrive_bypasses hd 3).trans (tapLoad_at ..))
  · exact congrArg Host.Outcome.next ((tapDrive_bypasses hd 4).trans (tapLoad_at ..))
  · obtain ⟨hpin, hout, hlen⟩ := scanCapture_eq ((s.at t).tapLoad 1) bs.length
    refine ⟨_, rfl, (congrArg (fun p => ({ p with bsr := bs } : Pins)) hpin).trans ?_, _, hlen, (congrArg (· ++ _) hout).trans ?_⟩
    · rw [State.tapLoad, at_pin]
    · rw [State.tapLoad, at_out]
  · refine congrArg Host.Outcome.next ?_
    rw [tapLoad_at, State.emit, at_out]
    rfl
  · exact congrArg Host.Outcome.next ((if_neg (by omega)).trans (tapLoad_at ..))

/-! ### Husk's events (15 R408-R412, R423; 17 R468) -/

/-- Settles O54: each event by its guard. -/
theorem huskEventsComplete : Obligations.HuskEventsComplete := by
  unfold Obligations.HuskEventsComplete
  refine ⟨fun s t n dt hn => ⟨fun hon => ?_, fun hoff => ?_⟩, fun s t n hn => ⟨fun hon => ?_, fun hoff => ?_⟩, fun s t n c hn hstep haon hnew => ?_,
    fun s t => ⟨fun hp => ?_, fun hp => ?_⟩, fun s t => ⟨fun hdue => ?_, fun hdue => ?_⟩⟩
  · refine (ifUnit_of hn _).trans (congrArg _ ?_)
    rw [at_husk]
    exact if_neg (by simp [hon])
  · refine (ifUnit_of hn _).trans (congrArg _ ?_)
    rw [at_husk]
    exact if_pos (by simp [hoff])
  · refine (ifUnit_of hn _).trans (congrArg _ ?_)
    rw [at_husk]
    exact if_pos hon
  · refine (ifUnit_of hn _).trans (congrArg _ ?_)
    rw [at_husk]
    exact if_neg (by simp [hoff])
  · have hrun : exec (.tamperLatch t n) s = .next { s.at t with husk := if 2 ≤ c then
        { s.husk with latched := s.husk.latched ++ [(n, c)], keyRam := [], keyCheck := [], keyValid := 0 } else { s.husk with latched := s.husk.latched ++ [(n, c)] } } := by
      have hin : n < 8 := by omega
      refine (ifUnit_of hin _).trans (congrArg _ ?_)
      rw [at_husk, at_step, haon]
      refine if_neg ?_
      rintro (hs | ⟨h5, h6⟩ | hw | hl)
      · exact hs hstep
      · exact hn.elim h5 h6
      · exact Bool.noConfusion hw
      · exact Bool.noConfusion (hnew.symm.trans hl)
    rw [hrun]
    exact ⟨fun hlow => by rw [if_neg (Nat.not_le.2 hlow)], fun hhigh => by rw [if_pos hhigh]⟩
  · refine congrArg Host.Outcome.next ?_
    rw [at_husk]
    exact if_pos hp
  · refine congrArg Host.Outcome.next ?_
    rw [at_husk]
    exact if_neg (by simp [hp])
  · refine congrArg Host.Outcome.next ?_
    rw [at_husk, at_keep]
    exact if_neg (by simp [hdue])
  · refine congrArg Host.Outcome.next ?_
    rw [at_husk]
    exact if_pos (by simp [hdue])

end Sys2Proof.Machine

/-! PROOFS. Persona loads: signatures, epochs, an early end and the time limit (13 R364, R374-R378), and the records of an image
(13 R365-R372, R377, R379, R381). -/

namespace Sys2Proof.Machine

/-! ### Signatures, epochs and the clock of a load (13 R364, R374-R378) -/

section
variable {s : State} {t w : Nat} {l : Load} {ed ml : Bool} {tk : List Nat}

@[simp] theorem at_keyUsable (s : State) (t i : Nat) : (s.at t).keyUsable i = s.keyUsable i := keyUsable_congr (congrArg Husk.fuses (at_husk s t)) (congrArg Husk.flashKeys (at_husk s t)) i

@[simp] theorem at_verifyKey (s : State) (t : Nat) (l : Load) : (s.at t).verifyKey l = s.verifyKey l := by rw [State.verifyKey, at_keyUsable, State.verifyKey]

/-- Which of its signatures a load fails by (13 R377): both where no key can be used. -/
def State.signatureMask (s : State) (l : Load) (ed ml : Bool) : Nat :=
  if sigBlockOk l.head 128 && s.verifyKey l then b2n (!ed) + 2 * b2n (!ml) else 3

theorem signatureVerified_fails (hl : s.load w = some l) (hstage : l.stage = 1) (hmask : s.signatureMask l ed ml ≠ 0) :
    exec (.signatureVerified t w ed ml tk) s = .next (((s.at t).logLoad w l 0x703 (s.signatureMask l ed ml)).failLoad w 2) := by
  change execSignatureVerified t w ed ml tk s = _
  unfold execSignatureVerified
  dsimp only
  rw [at_load, hl]
  dsimp only
  rw [at_verifyKey, if_neg (by simp [hstage])]
  exact if_pos hmask

theorem signatureVerified_passes (hl : s.load w = some l) (hstage : l.stage = 1) (hmask : s.signatureMask l true true = 0) :
    exec (.signatureVerified t w true true tk) s = if 8 ≤ w then .next ((s.at t).setLoad w (some { l with stage := 3 }))
      else
        let mine := tk.filter fun g => (s.graph g).any fun x => decide (x.phase = 7) && x.within w
        let u := ((s.at t).setLoad w (some { l with stage := 2, taken := mine })).yieldTest w 1
        .next (u.evacuate ((u.fnsIn w).filter fun f => !mine.contains f.1)) := by
  change execSignatureVerified t w true true tk s = _
  unfold execSignatureVerified
  dsimp only
  rw [at_load, hl]
  simp only [at_verifyKey, at_graph]
  rw [if_neg (by simp [hstage])]
  exact if_neg (Decidable.not_not.2 hmask)

theorem signatureMask_usable (hblock : sigBlockOk l.head 128 = true) (hkey : s.verifyKey l = true) : s.signatureMask l ed ml = b2n (!ed) + 2 * b2n (!ml) :=
  if_pos (by simp [hblock, hkey])

theorem signatureMask_unusable (h : sigBlockOk l.head 128 = false ∨ s.verifyKey l = false) : s.signatureMask l ed ml = 3 :=
  if_neg (by rcases h with h | h <;> simp [h])

@[simp] theorem at_bodyKey (s : State) (t : Nat) (l : Load) : (s.at t).bodyKey l = s.bodyKey l := by
  unfold State.bodyKey State.ramKey State.seedKey State.keyKilled
  rw [at_husk]

/-- The key of the epoch that comes next (13 R375): the first is derived from the key that the image names. -/
def State.epochKey (s : State) (l : Load) : Option Bytes := if l.epoch = 0 then (s.bodyKey l).map fun k => l.nextKey k 0 else some l.key

/-- A load that has another stored epoch to take. -/
structure EpochDue (s : State) (w : Nat) (l : Load) : Prop where
  load : s.load w = some l
  stage : l.stage = 3
  encrypted : l.encrypted = true
  more : l.epoch < l.epochs

theorem EpochDue.keyless (h : EpochDue s w l) (hkey : s.epochKey l = none) (stored : Bytes) :
    exec (.personaEpoch t w stored) s = .next (((s.at t).logLoad w l 0x70B 0).failLoad w 3) := by
  change execPersonaEpoch t w stored s = _
  unfold execPersonaEpoch
  dsimp only
  rw [at_load, h.load]
  simp only [at_bodyKey]
  rw [if_neg (by simp [h.stage, h.encrypted, h.more])]
  rw [State.epochKey] at hkey
  rw [hkey]

theorem EpochDue.keyed (h : EpochDue s w l) {key : Bytes} (hkey : s.epochKey l = some key) (stored : Bytes) :
    exec (.personaEpoch t w stored) s = if !l.epochGiven then .next (s.at t) else
      (gcmOpen key (l.iv l.epoch) (l.aad l.epoch) stored).elim (.next (((s.at t).logLoad w l 0x704 l.epoch).failLoad w 3))
        fun p => .next ((s.at t).setLoad w (some { l with
          epoch := l.epoch + 1, key := if l.epoch + 1 = l.epochs then [] else l.nextKey key (l.epoch + 1), plain := l.plain ++ p })) := by
  change execPersonaEpoch t w stored s = _
  unfold execPersonaEpoch
  dsimp only
  rw [at_load, h.load]
  simp only [at_bodyKey]
  rw [if_neg (by simp [h.stage, h.encrypted, h.more])]
  rw [State.epochKey] at hkey
  rw [hkey]
  dsimp only
  split
  · rfl
  · cases gcmOpen key (l.iv l.epoch) (l.aad l.epoch) stored with
    | none => rw [Option.elim_none]
    | some p => rw [Option.elim_some]

theorem personaEarlyEnd_eq (hl : s.load w = some l) (hread : l.reading = true) :
    exec (.personaEarlyEnd t w) s = .next (((s.at t).logLoad w l 0x709 0).failLoad w 5) := by
  change execPersonaEarlyEnd t w s = _
  unfold execPersonaEarlyEnd
  dsimp only
  rw [at_load, hl]
  exact congrArg _ (if_pos hread)

theorem personaTimeout_eq (hl : s.load w = some l) (hread : l.reading = true) : exec (.personaTimeout t w) s =
    .next (if decide (l.start + 1250000000 ≤ (s.at t).now) then ((s.at t).logLoad w l 0x70A 0).failLoad w 6 else s.at t) := by
  change execPersonaTimeout t w s = _
  unfold execPersonaTimeout
  dsimp only
  rw [at_load, hl]
  dsimp only
  rw [hread, Bool.true_and]

end

/-- Settles O50: signatures by their mask, an epoch by its key and tag, the end and the limit by what is still being read. -/
theorem loadChecksComplete : Obligations.LoadChecksComplete := by
  unfold Obligations.LoadChecksComplete
  refine ⟨fun s t w ed ml tk l hl hstage hblock hkey => ⟨?_, fun hbad => ?_, ?_⟩, fun s t w ed ml tk l hl hstage hno => ?_,
    fun s t w l stored key hl hstage henc hmore hkey => ?_, fun s t w l hl hlo hhi => ?_⟩
  · rintro hw rfl rfl
    rw [signatureVerified_passes hl hstage (signatureMask_usable hblock hkey), if_pos hw]
  · have hmask := signatureMask_usable (ed := ed) (ml := ml) hblock hkey
    rw [signatureVerified_fails hl hstage (by rw [hmask]; rcases hbad with h | h <;> simp [h, b2n]), hmask]
  · rintro hw rfl rfl mine u rfl rfl
    rw [signatureVerified_passes hl hstage (signatureMask_usable hblock hkey), if_neg (by omega)]
  · have hmask := signatureMask_unusable (ed := ed) (ml := ml) hno
    rw [signatureVerified_fails hl hstage (by rw [hmask]; decide), hmask]
  · have hdue : EpochDue s w l := ⟨hl, hstage, henc, hmore⟩
    have hnext : s.epochKey l = some key := by
      rcases hkey with ⟨h0, k, hk, rfl⟩ | ⟨h0, rfl⟩
      · rw [State.epochKey, if_pos h0, hk]
        rfl
      · exact if_neg h0
    rw [hdue.keyed hnext]
    exact ⟨fun hno => if_pos (by simp [hno]), fun p hgiven hopen => by rw [hgiven, hopen]; rfl, fun hgiven hopen => by rw [hgiven, hopen]; rfl⟩
  · have hread : l.reading = true := by simp [Load.reading, hlo, hhi]
    rw [personaTimeout_eq hl hread]
    exact ⟨personaEarlyEnd_eq hl hread, fun hlate => congrArg _ (if_pos (decide_eq_true hlate)),
      fun hsoon => congrArg _ (if_neg (by simpa using hsoon))⟩

/-! ### Records (13 R365-R369, R377) -/

section
variable {s : State} {t w : Nat} {l : Load} {rec x : Bytes}

/-- A load at its body, with what its next record is read from: of an encrypted body the plaintext. -/
structure AtRecord (s : State) (w : Nat) (l : Load) (rec x : Bytes) : Prop where
  load : s.load w = some l
  stage : l.stage = 3
  source : x = if l.encrypted then l.plain else rec

theorem AtRecord.takes (h : AtRecord s w l rec x) {ty : Nat} {len : Bytes → Nat} (hty : byteAt x 0 = ty) (hlong : 4 ≤ len x) (havail : l.used + len x ≤ l.avail)
    (f : Load → Bytes → State → State) : (s.at t).takeRecord w ty len rec f = f l (slice x 0 (len x)) (s.at t) := by
  unfold State.takeRecord
  rw [at_load, h.load]
  dsimp only
  rw [← h.source, if_neg (by rw [h.stage]; omega), if_pos hty, if_neg (Nat.not_lt.2 havail)]

@[simp] theorem at_readFrame (s : State) (t f : Nat) : (s.at t).readFrame f = s.readFrame f := by
  simp only [State.readFrame, State.spRead, State.frame, at_fab]

/-- A FRAME record that may be written, with its payload and its address. -/
theorem AtRecord.frame (h : AtRecord s w l rec x) (havail : l.used + 268 ≤ l.avail) (hty : byteAt x 0 = 1) {r b : Bytes} {a : Nat} (hr : r = slice x 0 268)
    (hrsv : firstBad r (rsv 1 3) = none) (ha : a = fld r 4 4) (hb : b = slice r 8 256) (hok : l.addrOk a = true) :
    exec (.frame t w rec) s = .next (if crc32c b ≠ fld r 264 4 then ((s.at t).logLoad w l 0x706 a).failLoad w 4
      else (if l.writes then (s.at t).writeFrame a b else s.at t).setLoad w (some { (l.took r 268) with
        written := l.written + 1, secGot := l.secGot + 1, crcs := Tbl.set none a (some (fld r 264 4)) l.crcs, addrs := l.addrs ++ [a] })) := by
  subst hr ha hb
  refine congrArg Host.Outcome.next ((h.takes (len := fun _ => 268) hty (by omega) havail _).trans ?_)
  dsimp only
  rw [if_neg (by simp [hrsv, hok])]

/-- A REPEAT record that is well formed, its source present with checksum `k`. -/
structure RepeatReady (l : Load) (r : Bytes) (dst : List Nat) (k : Nat) : Prop where
  reserved : byteAt r 1 = 0
  dests : dst = (List.range (fld r 2 2)).map fun i => fld r (8 + 4 * i) 4
  nonempty : 1 ≤ fld r 2 2
  fits : fld r 2 2 ≤ 1024
  compressed : l.compressed = true
  addrs : ∀ y ∈ dst, l.addrOk y = true
  distinct : nodupB dst = true
  source : Tbl.get none (fld r 4 4) l.crcs = some k

theorem AtRecord.repeats (h : AtRecord s w l rec x) (hty : byteAt x 0 = 2) {n : Nat} (hn : n = 8 + 4 * fld x 2 2) (havail : l.used + n ≤ l.avail)
    {r : Bytes} {dst : List Nat} {k : Nat} (hr : r = slice x 0 n) (hok : RepeatReady l r dst k) :
    exec (.repeatRecord t w rec) s = .next (if l.writes ∧ crc32c (s.readFrame (fld r 4 4)) ≠ k then ((s.at t).logLoad w l 0x706 (fld r 4 4)).failLoad w 4
      else (if l.writes then dst.foldl (fun u y => u.writeFrame y (s.readFrame (fld r 4 4))) (s.at t) else s.at t).setLoad w
        (some { (l.took r (8 + 4 * fld r 2 2)) with
          written := l.written + fld r 2 2, secGot := l.secGot + fld r 2 2, addrs := l.addrs ++ dst })) := by
  have hgood : ¬ (byteAt r 1 ≠ 0 ∨ fld r 2 2 = 0 ∨ 1024 < fld r 2 2 ∨ (!l.compressed) = true ∨ (!dst.all fun a => l.addrOk a) = true ∨ (!nodupB dst) = true) := by
    have hsome := hok.nonempty
    have hfits := hok.fits
    have hall : dst.all (fun a => l.addrOk a) = true := List.all_eq_true.2 hok.addrs
    simp [hok.reserved, hok.compressed, hall, hok.distinct]
    omega
  have hsource := hok.source
  obtain rfl := hok.dests
  subst hn hr
  refine congrArg Host.Outcome.next ((h.takes (len := fun b => 8 + 4 * fld b 2 2) hty (by omega) havail _).trans ?_)
  dsimp only
  rw [hsource]
  dsimp only
  rw [if_neg hgood, at_readFrame]

/-- What a load becomes by the REGION_MARK record `r` of section `n`. -/
def Load.marked (l : Load) (r : Bytes) (n : Nat) : Load :=
  { (l.took r 8) with sect := some n, secWant := fld r 4 4, secGot := 0, secBad := l.sectionBad, crcs := [], begun := l.begun || l.writes }

theorem AtRecord.marks (h : AtRecord s w l rec x) (havail : l.used + 8 ≤ l.avail) (hty : byteAt x 0 = 3) {r : Bytes} {n : Nat} (hr : r = slice x 0 8)
    (hrsv : firstBad r (rsv 2 2) = none) (hn : n = byteAt r 1) (hsect : l.nextSection w = some n) :
    exec (.regionMark t w rec) s = .next ((
      if !l.writes then s.at t
      else if 8 ≤ w then
        let u := if l.begun then s.at t else (s.at t).retestGroups fun _ => true
        (if l.begun ∨ !u.boot.loaded.valid then u else u.stopPersona).clearFrames n
      else ((s.at t).retestGroups fun k => decide (groupHome k = w)).clearFrames n).setLoad w (some (l.marked r n))) := by
  subst hr hn
  refine congrArg Host.Outcome.next ((h.takes (len := fun _ => 8) hty (by omega) havail _).trans ?_)
  dsimp only
  rw [if_neg (by simp [hrsv, hsect])]
  rfl

/-- An END record in its place whose counts are as announced. -/
structure EndReady (l : Load) (w : Nat) (r : Bytes) : Prop where
  last : l.used + 60 = l.total
  reserved : firstBad r (rsv 1 3) = none
  sect : l.sect = some (if w < 8 then w else 7)
  frames : fld r 4 4 = l.written
  announced : l.hdr.frames = l.written
  records : fld r 8 4 = l.records
  counted : l.sectionBad = false

theorem AtRecord.ends (h : AtRecord s w l rec x) (havail : l.used + 60 ≤ l.avail) (hty : byteAt x 0 = 15) {r d : Bytes} (hr : r = slice x 0 60)
    (hok : EndReady l w r) (hd : d = slice r 12 48) :
    exec (.endRecord t w rec) s = .next (
      if (l.took r 12).sha.digest ≠ d ∨ d ≠ l.hdr.digest then ((s.at t).logLoad w l 0x708 0).failLoad w 2
      else if w < 8 then (s.at t).setLoad w (some { (l.took r 12) with stage := 6 })
      else if !l.writes then
        let u := (s.at t).setLoad 8 none
        { u with boot := { u.boot with fallback := some l.head, cfgResult := 0, cfgFrames := l.written } }
      else (s.at t).imagePassed l) := by
  subst hd hr
  refine congrArg Host.Outcome.next ((h.takes (len := fun _ => 60) hty (by omega) havail _).trans ?_)
  dsimp only
  rw [if_neg (by simp [hok.reserved, hok.last, hok.sect]), if_neg (by simp [hok.frames, hok.announced, hok.records, hok.counted])]

end

/-! ### A full image that has passed (13 R377, R379, R381) -/

/-- Straw's own data area stands in for what its image names (14 R403). -/
def State.strawPut (s : State) (straw : Bool) : State := if straw then (List.range 8).foldl (fun s r => s.strawData r) s else s

theorem strawData_frame {α : Type} (f : State → α) (hf : ∀ s n b, f (State.setFrame s n b) = f s) (s : State) (r : Nat) : f (s.strawData r) = f s := by
  unfold State.strawData
  exact foldl_frame f (fun s k => by rw [hf]) _ s

theorem strawPut_frame {α : Type} (f : State → α) (hf : ∀ s n b, f (State.setFrame s n b) = f s) (s : State) (straw : Bool) : f (s.strawPut straw) = f s := by
  unfold State.strawPut
  split
  · exact foldl_frame f (fun s r => by rw [strawData_frame f hf]) _ s
  · rfl

/-- No region is isolated or fallow. -/
def State.regionsServe (s : State) : State := (List.range 8).foldl (fun s r => s.setRegion r { s.region r with isolated := false, fallow := false }) s

theorem regionsServe_frame {α : Type} (f : State → α) (hf : ∀ s r v, f (State.setRegion s r v) = f s) (s : State) : f s.regionsServe = f s := by
  unfold State.regionsServe
  exact foldl_frame f (fun s r => by rw [hf]) _ s

/-- What of the state an image that has passed is laid into. -/
def State.passedInto (s : State) (l : Load) : State := ((s.strawPut (decide (l.source = 2) && decide (l.imgSlot = 1))).setLoad 8 none).regionsServe

theorem passedInto_frame {α : Type} (f : State → α) (hframe : ∀ s n b, f (State.setFrame s n b) = f s) (hload : ∀ s w v, f (State.setLoad s w v) = f s)
    (hregion : ∀ s r v, f (State.setRegion s r v) = f s) (s : State) (l : Load) : f (s.passedInto l) = f s := by
  rw [State.passedInto, regionsServe_frame f hregion, hload, strawPut_frame f hframe]

/-- Configuration memory keeps what its records have written, Straw's image apart. -/
theorem passedInto_frames (s : State) {l : Load} (h : ¬ (l.source = 2 ∧ l.imgSlot = 1)) : (s.passedInto l).fab.frames = s.fab.frames := by
  have hplain : (decide (l.source = 2) && decide (l.imgSlot = 1)) = false := by simpa using h
  rw [State.passedInto, regionsServe_frame (·.fab.frames) fun _ _ _ => rfl, hplain]
  rfl

/-- The device once a full image has passed (13 R379, R381). -/
structure Passed (s : State) (l : Load) (u : State) : Prop where
  step : u.time.step = 6
  driven : u.boot.doneDriven = false
  fallow : u.boot.fallow = false
  valid : u.boot.loaded.valid = true
  source : u.boot.loaded.source = l.source
  slot : u.boot.loaded.slot = l.imgSlot
  version : u.boot.loaded.version = l.hdr.version
  digest : u.boot.loaded.digest = l.hdr.digest
  released : u.boot.doneReleasedAt = some s.now
  command : u.boot.doneSlot = l.slot
  latch : u.fab.latch = []
  dacs : u.dacs = s.dacs
  convs : u.convs = s.convs
  frames : ¬ (l.source = 2 ∧ l.imgSlot = 1) → u.fab.frames = s.fab.frames

theorem imagePassed_eq (s : State) (l : Load) : ∃ k : Nat, ∃ r : Nat, ∃ n : Nat, s.imagePassed l = { s.passedInto l with
    boot := { (s.passedInto l).boot with
      loaded := { valid := true, source := l.source, slot := l.imgSlot, version := l.hdr.version, keyIndex := k, digest := l.hdr.digest }
      doneDriven := false, doneReleasedAt := some (s.passedInto l).now, fallow := false, trying := false
      doneSlot := l.slot, doneFrames := l.written, cfgResult := r, cfgFrames := n }
    fab := { (s.passedInto l).fab with latch := [] }
    time := { (s.passedInto l).time with step := 6 } } := ⟨_, _, _, rfl⟩

theorem imagePassed_passed (s : State) (l : Load) : Passed s l (s.imagePassed l) := by
  have hnow := passedInto_frame State.now (fun _ _ _ => rfl) (fun _ _ _ => rfl) (fun _ _ _ => rfl) s l
  have hdacs := passedInto_frame (·.dacs) (fun _ _ _ => rfl) (fun _ _ _ => rfl) (fun _ _ _ => rfl) s l
  have hconvs := passedInto_frame (·.convs) (fun _ _ _ => rfl) (fun _ _ _ => rfl) (fun _ _ _ => rfl) s l
  obtain ⟨k, r, n, h⟩ := imagePassed_eq s l
  rw [h]
  constructor <;> dsimp only
  · rw [hnow]
  · exact hdacs
  · exact hconvs
  · exact passedInto_frames s

/-- Settles O51: each record by what it is read from and what it announces; a passed image leaves converters and channels alone. -/
theorem recordsComplete : Obligations.RecordsComplete := by
  unfold Obligations.RecordsComplete
  refine ⟨fun s t w rec l x r a b hl hstage hx havail hty hr hrsv ha hb hok => ?_, ?_, ?_, ?_⟩
  · rw [(AtRecord.mk hl hstage hx).frame havail hty hr hrsv ha hb hok]
    exact ⟨fun hcrc => congrArg _ (if_neg (not_not.2 hcrc)), fun hcrc => congrArg _ (if_pos hcrc)⟩
  · rintro s t w rec l x r n c src dst k hl hstage hx hty hn havail hr rfl hrsv rfl hdst hsome hfits hcomp haddrs hdist hsrc
    rw [(AtRecord.mk hl hstage hx).repeats hty hn havail hr ⟨hrsv, hdst, hsome, hfits, hcomp, haddrs, hdist, hsrc⟩]
    refine ⟨fun hw hcrc => ?_, fun hw hcrc => congrArg _ (if_pos ⟨hw, hcrc⟩), fun hw => ?_⟩
    · rw [if_neg (by simp [hcrc]), if_pos hw]
    · rw [if_neg (by simp [hw]), if_neg (by simp [hw])]
  · intro s t w rec l x r n l' hl hstage hx havail hty hr hrsv hn hsect hl'
    obtain rfl : l' = l.marked r n := hl'
    rw [(AtRecord.mk hl hstage hx).marks havail hty hr hrsv hn hsect]
    refine ⟨fun hw => ?_, fun h8 hw => ?_, fun h8 hw hbegun => ?_, ?_⟩
    · rw [hw]
      rfl
    · rw [hw, if_neg (by decide), if_neg (Nat.not_le.2 h8)]
    · rw [hw, if_neg (by decide), if_pos h8, hbegun]
      rfl
    · rintro h8 hw hbegun u rfl
      rw [hw, if_neg (by decide), if_pos h8, hbegun]
      exact ⟨fun hvalid => by simp [hvalid], fun hvalid => by simp [hvalid]⟩
  · intro s t w rec l x r d hl hstage hx hlast havail hty hr hrsv hsect hwrit hann hrec hcount hd
    rw [(AtRecord.mk hl hstage hx).ends havail hty hr ⟨hlast, hrsv, hsect, hwrit, hann, hrec, hcount⟩ hd]
    refine ⟨fun hsha hdig => ?_, fun hbad => congrArg _ (if_pos hbad)⟩
    rw [if_neg (by simp [hsha, hdig])]
    refine ⟨fun h8 => congrArg _ (if_pos h8), ?_, fun h8 hw => ?_⟩
    · rintro h8 hw u rfl
      rw [if_neg (Nat.not_lt.2 h8), if_pos (by simp [hw])]
    · have hp := imagePassed_passed (s.at t) l
      rw [if_neg (Nat.not_lt.2 h8), if_neg (by simp [hw])]
      exact ⟨_, rfl, hp.step, hp.driven, hp.fallow, hp.valid, hp.source, hp.slot, hp.version, hp.digest, hp.released, hp.command, hp.latch,
        hp.dacs.trans (at_dacs s t), hp.convs.trans (at_convs s t), fun hplain => (hp.frames hplain).trans (congrArg (·.frames) (at_fab s t))⟩

end Sys2Proof.Machine

/-! PROOFS. What a failed load and Fallow leave alone (13 R377, R379, R380, R388), and an encrypted image whose key is not there
(13 R376). -/

namespace Sys2Proof.Machine

/-! ### Fallow (13 R379)

Fallow changes pins, control levels, flip-flops, latches and DAC channels, ends commands and logs. A relation between states that holds over
each of these holds over all of Fallow. -/

/-- A relation that each change on the way into Fallow keeps. -/
structure FallowSteady (R : State → State → Prop) : Prop where
  refl : ∀ s, R s s
  trans : ∀ s t u, R s t → R t u → R s u
  pin : ∀ s x, R s { s with pin := x }
  controls : ∀ s x, R s (State.withControls s x)
  flipFlops : ∀ s x, R s { s with fab := { s.fab with ff := x } }
  gate : ∀ s, R s { s with fab := { s.fab with gated := true, latch := [] } }
  dac : ∀ s n v, R s (State.setDac s n v)
  final : ∀ s slot status r0 r1, R s (State.final s slot status r0 r1)
  log : ∀ s code level idx a0 a1, R s (State.log s code level idx a0 a1)
  stop : ∀ s, R s (State.noPersona s)
  fallow : ∀ s : State, R s { s with boot := { s.boot with fallow := true } }

namespace FallowSteady

variable {R : State → State → Prop}

theorem foldl {α : Type} {f : State → α → State} (h : FallowSteady R) (hf : ∀ s x, R s (f s x)) (l : List α) (s : State) : R s (l.foldl f s) := by
  induction l generalizing s with
  | nil => exact h.refl s
  | cons x l ih => exact h.trans _ _ _ (hf s x) (ih _)

theorem setCtl (h : FallowSteady R) (s : State) (code : Nat) (level : Bool) : R s (s.setCtl code level) := by
  obtain ⟨x, hx⟩ := setCtl_within s code level
  exact hx ▸ h.controls s x

theorem syncTI (h : FallowSteady R) (s : State) (gs : List Nat) : R s (s.syncTI gs) := h.foldl (fun s _ => h.setCtl s _ _) _ s

theorem pinsDown (h : FallowSteady R) (s : State) : R s s.pinsDown :=
  h.trans _ _ _ (h.foldl (fun s _ => h.trans _ _ _ (h.pin s _) (h.syncTI _ _)) _ s) (h.pin _ _)

theorem signalsLow (h : FallowSteady R) (s : State) : R s s.signalsLow := h.foldl (fun s c => h.setCtl s c false) _ s

theorem initFFs (h : FallowSteady R) (s : State) (r : Nat) : R s (s.initFFs r) :=
  h.trans _ _ _ (h.flipFlops s _) (h.foldl (fun s _ => h.flipFlops s _) _ _)

theorem endDacCmds (h : FallowSteady R) (s : State) (n status : Nat) : R s (s.endDacCmds n status) :=
  h.trans _ _ _ (h.trans _ _ _ (h.dac s n _) (h.foldl (fun s _ => h.final s _ _ _ _) _ _))
    (h.trans _ _ _ (h.dac _ n _) (h.foldl (fun s _ => h.final s _ _ _ _) _ _))

theorem dacFault (h : FallowSteady R) (s : State) (n : Nat) : R s (s.dacFault n) := by
  unfold State.dacFault
  split
  · exact h.refl s
  · exact h.trans _ _ _ (h.endDacCmds s n _) (h.dac _ n _)

theorem busStopped (h : FallowSteady R) (s : State) (p : Nat → Bool) : R s (s.busStopped p) :=
  h.foldl (fun s n => by split; exacts [h.dacFault s n, h.refl s]) _ s

theorem enterFallow (h : FallowSteady R) (s : State) (image reason : Nat) : R s (s.enterFallow image reason) := by
  have hfallow (u : State) (hu : R s u) : R s { u with boot := { u.boot with fallow := true } } := h.trans _ _ _ hu (h.fallow u)
  have hstopped : R s (((List.range 64).foldl (fun s n => s.dacFault n) ((List.range 8).foldl (fun s r => s.initFFs r)
      (State.signalsLow { s.pinsDown with fab := { s.pinsDown.fab with gated := true, latch := [] } }))).noPersona) := by
    refine h.trans _ _ _ ?_ (h.stop _)
    refine h.trans _ _ _ ?_ (h.foldl (fun s n => h.dacFault s n) _ _)
    refine h.trans _ _ _ ?_ (h.foldl (fun s r => h.initFFs s r) _ _)
    exact h.trans _ _ _ (h.trans _ _ _ (h.pinsDown s) (h.gate _)) (h.signalsLow _)
  unfold State.enterFallow
  dsimp only
  split
  · exact hfallow _ hstopped
  · refine h.trans _ _ _ ?_ (h.log _ 0x70C 4 0 image reason)
    exact hfallow _ hstopped

end FallowSteady

/-! ### Configuration memory under a failed load (13 R377, R388) -/

theorem log_frames (s : State) (code level idx a0 a1 : Nat) : (s.log code level idx a0 a1).fab.frames = s.fab.frames := by
  rw [← (log_memAside s code level idx a0 a1).fab]

theorem final_frames (s : State) (slot status r0 r1 : Nat) : (s.final slot status r0 r1).fab.frames = s.fab.frames := by
  rw [← (final_memAside s slot status r0 r1).fab]

/-- Fallow writes no frame. -/
theorem framesSteady : FallowSteady fun s t => t.fab.frames = s.fab.frames where
  refl _ := rfl
  trans _ _ _ h k := k.trans h
  pin _ _ := rfl
  controls _ _ := rfl
  flipFlops _ _ := rfl
  gate _ := rfl
  dac _ _ _ := rfl
  final := final_frames
  log := log_frames
  stop _ := rfl
  fallow _ := rfl

theorem logLoad_frames (s : State) (w : Nat) (l : Load) (code a1 : Nat) : (s.logLoad w l code a1).fab.frames = s.fab.frames := log_frames ..

theorem failRegion_frames (s : State) (r : Nat) (l : Load) (reason : Nat) : (s.failRegion r l reason).fab.frames = s.fab.frames := by
  unfold State.failRegion
  dsimp only
  split
  · split
    · rfl
    · exact final_frames ..
  · split
    · rfl
    · refine (framesSteady.busStopped _ _).trans ?_
      split
      · rfl
      · exact logLoad_frames ..

theorem failFull_frames (s : State) (l : Load) (reason : Nat) : (s.failFull l reason).fab.frames = s.fab.frames := by
  have hstop : (if l.begun then (s.setLoad 8 none).enterFallow l.image reason else s.setLoad 8 none).fab.frames = s.fab.frames := by
    split
    · exact framesSteady.enterFallow ..
    · rfl
  have hnext (u : State) : (u.nextSlot l reason).fab.frames = u.fab.frames := by
    unfold State.nextSlot
    dsimp only
    split
    · rfl
    · exact framesSteady.enterFallow ..
  unfold State.failFull
  dsimp only
  generalize (if l.begun then (s.setLoad 8 none).enterFallow l.image reason else s.setLoad 8 none) = u at hstop ⊢
  have hfinal : (match l.slot with
      | none => u
      | some h => u.final h (loadStatus reason) l.written reason).fab.frames = s.fab.frames := by
    split
    · exact hstop
    · exact (final_frames ..).trans hstop
  split
  · exact (hnext u).trans hstop
  · exact hstop
  · split
    · exact hfinal
    · exact hfinal
  · split
    · exact hstop
    · exact hstop

theorem failLoad_frames (s : State) (w reason : Nat) : (s.failLoad w reason).fab.frames = s.fab.frames := by
  unfold State.failLoad
  split
  · rfl
  · split
    · exact failRegion_frames ..
    · exact failFull_frames ..

/-! ### Keys that are not there (13 R376) -/

theorem ramKey_absent {s : State} {k : Nat} (h : Tbl.get none k s.husk.keyRam = none ∨ bit s.husk.keyValid k = false) : s.ramKey k = none := by
  unfold State.ramKey
  rcases h with h | h <;> simp [h]

theorem seedKey_killed {s : State} (h : s.husk.fuses.keyKill ≠ 0) (info : String) : s.seedKey info = none := if_pos (.inl ((keyKilled_iff s).2 h))

theorem bodyKey_absent {s : State} {l : Load} (h : (l.hdr.keySource = 1 ∧ (Tbl.get none l.hdr.keySlot s.husk.keyRam = none ∨ bit s.husk.keyValid l.hdr.keySlot = false)) ∨
    (l.hdr.keySource ≠ 1 ∧ s.husk.fuses.keyKill ≠ 0)) : s.bodyKey l = none := by
  rcases h with ⟨hram, hslot⟩ | ⟨hseed, hkill⟩
  · exact (if_pos hram).trans (ramKey_absent hslot)
  · exact (if_neg hseed).trans (seedKey_killed hkill _)

/-- Settles O23: with no key the first epoch fails by the same reason as one whose tag does not verify, and no failed load writes a frame. -/
theorem absentKeysFailTheFirstEpoch : Obligations.AbsentKeysFailTheFirstEpoch := by
  unfold Obligations.AbsentKeysFailTheFirstEpoch
  refine ⟨fun s t w stored l hl hstage henc h0 hsome hno => ?_, fun s t w stored l k hl hstage henc h0 hsome hgiven hk hbad => ?_⟩
  · have hdue : EpochDue s w l := ⟨hl, hstage, henc, h0 ▸ hsome⟩
    have hkey : s.epochKey l = none := by
      rw [State.epochKey, if_pos h0, bodyKey_absent hno]
      rfl
    have hrun := hdue.keyless (t := t) hkey stored
    refine ⟨hrun, _, hrun, ?_⟩
    rw [failLoad_frames, logLoad_frames, at_fab]
  · have hdue : EpochDue s w l := ⟨hl, hstage, henc, h0 ▸ hsome⟩
    have hkey : s.epochKey l = some (l.nextKey k 0) := by
      rw [State.epochKey, if_pos h0, hk]
      rfl
    rw [hdue.keyed hkey, hgiven, h0, hbad]
    rfl

end Sys2Proof.Machine

/-! PROOFS. Isolation and release of a region, and the data areas at the end of start-up (13 R384-R388; 14 R400). -/

namespace Sys2Proof.Machine

section
variable {s : State} {t r : Nat} {l : Load}

@[simp] theorem at_vacated (s : State) (t slot i : Nat) : (s.at t).vacated slot i = s.vacated slot i := by simp [State.vacated]

@[simp] theorem at_evacuations (s : State) (t r : Nat) : (s.at t).evacuations r = s.evacuations r := by
  simp only [State.evacuations, at_til, at_graph, at_vacated]

@[simp] theorem at_fnsIn (s : State) (t r : Nat) : (s.at t).fnsIn r = s.fnsIn r := by simp only [State.fnsIn, State.graphs, at_til]

@[simp] theorem at_allItems (s : State) (t : Nat) : (s.at t).allItems = s.allItems := by
  simp only [State.allItems, State.items, State.dataArea, State.frame, at_fab]

/-! ### Isolation (13 R384-R386) -/

theorem pinsToConfig_frame {α : Type} (f : State → α) (hpin : ∀ (s : State) x, f { s with pin := x } = f s) (hctl : ∀ s x, f (State.withControls s x) = f s)
    (s : State) (p : PinMapE → Bool) (keep : Bool) : f (s.pinsToConfig p keep) = f s :=
  foldl_frame f (fun s _ => (syncTI_frame f hctl _ _).trans (hpin s _)) _ s

/-- A region as its isolation begins: what it gives out is latched, its mark set, its guarded cells, pins and buses still. -/
def State.isolateRegion (s : State) (r : Nat) : State :=
  let s1 := (s.latchSignals r).latchWires r
  let s2 := s1.setRegion r { s1.region r with isolated := true }
  let s3 := (s2.clearGuarded fun n => decide (n / 4096 = r)).pinsToConfig (mapsRegion r) true
  (List.range 64).foldl (fun s n => if n / 8 = r then s.setDac n { s.dac n with busHeld := true } else s) s3

theorem isolateRegion_isolated (s : State) (r : Nat) : ((s.isolateRegion r).region r).isolated = true := by
  have hset (u : State) : ((u.setRegion r { u.region r with isolated := true }).region r).isolated = true := by
    have hself : (u.setRegion r { u.region r with isolated := true }).region r = { u.region r with isolated := true } :=
      Tbl.get_set_ne fun h => Bool.noConfusion (congrArg Region.isolated h)
    rw [hself]
  have hdac (u : State) : (((List.range 64).foldl (fun s n => if n / 8 = r then s.setDac n { s.dac n with busHeld := true } else s) u).region r) = u.region r :=
    foldl_frame (State.region · r) (fun s n => by split <;> rfl) _ u
  have hclear (u : State) (p : Nat → Bool) : (u.clearGuarded p).region r = u.region r := rfl
  unfold State.isolateRegion
  dsimp only
  rw [hdac, pinsToConfig_frame (State.region · r) (fun _ _ => rfl) fun _ _ => rfl, hclear, hset]

theorem regionIsolation_eq (hr : r < 8) (hl : s.load r = some l) (hstage : l.stage = 2) (hevac : s.evacuations r = []) (hctrl : s.ctrlOk r = true) :
    exec (.regionIsolation t r) s = .next (((s.fnsIn r).foldl (fun s f => s.suspend f.1 f.2)
      ((((s.fnsIn r).map (·.1)).eraseDups).foldl (fun (u : State) gs => match u.graph gs with
        | none => u
        | some g => u.setGraph gs (some { g with held := g.held ++ heldNets g r (((s.fnsIn r).filter fun f => decide (f.1 = gs)).map (·.2)) }))
        ((s.at t).isolateRegion r))).setLoad r (some { l with
          stage := 3, begun := true, susp := s.fnsIn r, heldFns := ((s.fnsIn r).filter fun f => !l.taken.contains f.1).length })) := by
  refine (ifUnit_of hr _).trans (congrArg _ ?_)
  rw [at_load, hl]
  dsimp only
  rw [at_evacuations, at_ctrlOk, at_fnsIn, if_neg (by simp [hstage, hevac, hctrl])]
  rfl

/-! ### Release (13 R384, R387, R388) -/

theorem regionClockRelease_failed (hr : r < 8) (hl : s.load r = some l) (hctrl : s.ctrlOk r = true ∨ (s.region r).failed = true) (hstage : l.stage = 7)
    (meas : List (List Measured)) : exec (.regionClockRelease t r meas) s = .next ((((s.at t).placeSuspended l meas).endRegion r l).cellsFreed.resume) := by
  refine (ifUnit_of hr _).trans (congrArg _ ?_)
  rw [at_load, hl]
  dsimp only
  rw [at_ctrlOk, at_region, if_neg (by rcases hctrl with h | h <;> simp [h]), if_pos hstage]

end

/-- Settles O52: an isolated region stays so where nothing is suspended; a release and the last step of start-up by their guards. -/
theorem regionReleaseComplete : Obligations.RegionReleaseComplete := by
  unfold Obligations.RegionReleaseComplete
  refine ⟨fun s t r l hr hl hstage hevac hctrl => ⟨_, regionIsolation_eq hr hl hstage hevac hctrl, Tbl.get_set_ne nofun, fun hno => ?_⟩, ?_,
    fun s t r meas l hr hl hctrl hstage => regionClockRelease_failed hr hl hctrl hstage meas, fun s t meas hstep hdone hhalt hre hfail hready => ?_⟩
  · rw [hno]
    have hload (u : State) (v : Option Load) : (u.setLoad r v).region r = u.region r := rfl
    rw [hload, List.map_nil, List.eraseDups_nil, List.foldl_nil, List.foldl_nil]
    exact isolateRegion_isolated (s.at t) r
  · rintro s t r meas l u v w n hr hl hctrl hstage rfl rfl rfl rfl
    refine (ifUnit_of hr _).trans (congrArg _ ?_)
    rw [at_load, hl]
    dsimp only
    rw [at_ctrlOk, at_region, if_neg (by rcases hctrl with h | h <;> simp [h]), if_neg (by omega), if_neg (by omega)]
  · refine congrArg Host.Outcome.next ?_
    rw [at_allItems]
    refine if_neg ?_
    have hsettled : ((List.range 8).any fun r => !((s.at t).region r).ready && !((s.at t).region r).failed) = false := by
      refine List.any_eq_false.2 fun r hr => ?_
      rcases hready r (List.mem_range.1 hr) with h | h <;> simp [h]
    rw [hsettled]
    simp [hstep, hdone, hhalt, hre, hfail]

end Sys2Proof.Machine

/-! PROOFS. What the host does not see of the tile's own work, and the steps of start-up (13 R360, R379-R382; 14 R395-R397, R400-R402, R406;
18 R481, R489). -/

namespace Sys2Proof.Machine

/-! ### Work apart from the host

Spares, tests and the log leave the graphs, start-up's state and the handles alone, and the host interface too while the management event
ring is not enabled. -/

structure HostApart (s t : State) : Prop where
  graphs : t.til.graphs = s.til.graphs
  boot : t.boot = s.boot
  handles : t.chip.handles = s.chip.handles
  cause : t.chip.resetCause = s.chip.resetCause
  restarting : t.chip.restarting = s.chip.restarting
  host : s.host.me.enable = false → t.host = s.host

theorem HostApart.refl (s : State) : HostApart s s := ⟨rfl, rfl, rfl, rfl, rfl, fun _ => rfl⟩

theorem HostApart.trans {s t u : State} (h : HostApart s t) (k : HostApart t u) : HostApart s u where
  graphs := k.graphs.trans h.graphs
  boot := k.boot.trans h.boot
  handles := k.handles.trans h.handles
  cause := k.cause.trans h.cause
  restarting := k.restarting.trans h.restarting
  host hme := (k.host (by rw [h.host hme]; exact hme)).trans (h.host hme)

theorem HostApart.ite {s a b : State} {c : Prop} [Decidable c] (ha : HostApart s a) (hb : HostApart s b) : HostApart s (if c then a else b) := by
  split
  · exact ha
  · exact hb

theorem HostApart.foldl {α : Type} {f : State → α → State} (hf : ∀ s x, HostApart s (f s x)) (l : List α) (s : State) : HostApart s (l.foldl f s) := by
  induction l generalizing s with
  | nil => exact .refl s
  | cons x l ih => exact (hf s x).trans (ih _)

/-! The operations on a cell and on the tests that borrow it. -/

theorem setLed_hostApart (s : State) (n : Nat) (v : Led) : HostApart s (s.setLed n v) := ⟨rfl, rfl, rfl, rfl, rfl, fun _ => rfl⟩

theorem setCell_hostApart (s : State) (n : Nat) (v : Cell) : HostApart s (s.setCell n v) := ⟨rfl, rfl, rfl, rfl, rfl, fun _ => rfl⟩

theorem setRegion_hostApart (s : State) (r : Nat) (v : Region) : HostApart s (s.setRegion r v) := ⟨rfl, rfl, rfl, rfl, rfl, fun _ => rfl⟩

theorem setConv_hostApart (s : State) (c : Nat) (v : Conv) : HostApart s (s.setConv c v) := ⟨rfl, rfl, rfl, rfl, rfl, fun _ => rfl⟩

theorem setMoves_hostApart (s : State) (l : List Move) : HostApart s (s.setMoves l) := ⟨rfl, rfl, rfl, rfl, rfl, fun _ => rfl⟩

theorem updLeds_hostApart (s : State) (ns : List Nat) (f : Nat → Led → Led) : HostApart s (s.updLeds ns f) := .foldl (fun s _ => setLed_hostApart s _ _) ns s

theorem openSwitches_hostApart (s : State) (n : Nat) : HostApart s (s.openSwitches n) := updLeds_hostApart ..

theorem restandCaps_hostApart (s : State) (n lo key : Nat) (on : Bool) : HostApart s (s.restandCaps n lo key on) :=
  .ite (setLed_hostApart s _ _) ((setLed_hostApart s _ _).trans (setCell_hostApart _ _ _))

theorem restandSegs_hostApart (s : State) (n : Nat) (on : Bool) : HostApart s (s.restandSegs n on) := by
  refine .foldl (fun s e => ?_) _ s
  dsimp only
  split
  · exact setLed_hostApart ..
  · exact (setLed_hostApart ..).trans (setCell_hostApart ..)

theorem restandSwitches_hostApart (s : State) (n : Nat) (on : Bool) : HostApart s (s.restandSwitches n on) := by
  unfold State.restandSwitches
  dsimp only
  refine HostApart.trans (.foldl (fun s e => ?_) _ s) (updLeds_hostApart ..)
  split
  · exact setLed_hostApart ..
  · exact setLed_hostApart ..

theorem restand_hostApart (s : State) (n : Nat) (on : Bool) : HostApart s (s.restand n on) :=
  (((restandCaps_hostApart s n 4 40 on).trans (restandCaps_hostApart _ n 13 41 on)).trans (restandSegs_hostApart _ n on)).trans (restandSwitches_hostApart _ n on)

theorem spareCell_hostApart (s : State) (n : Nat) (owner : Option Nat) : HostApart s (s.spareCell n owner) := by
  have hmark : HostApart s (match owner with
      | none => s.markCell n 2 0 false
      | some g => s.markCell n 2 g true) := by
    split
    · exact updLeds_hostApart ..
    · exact updLeds_hostApart ..
  unfold State.spareCell
  exact ((hmark.trans (openSwitches_hostApart ..)).trans (restand_hostApart ..)).trans (setCell_hostApart ..)

theorem giveUp_hostApart (s : State) (t : Test) : HostApart s (s.giveUp t) := by
  have hcells : HostApart s (t.cells.foldl (fun s n => s.setCell n { s.cell n with borrowed := false, warm := false, bias := 0 }) s) :=
    .foldl (fun s _ => setCell_hostApart s _ _) _ s
  unfold State.giveUp
  split
  · exact hcells
  · exact hcells.trans (setConv_hostApart ..)

/-! The log and the counters. -/

theorem chip_hostApart {s : State} {x : Chip} (hh : x.handles = s.chip.handles) (hc : x.resetCause = s.chip.resetCause) (hr : x.restarting = s.chip.restarting) :
    HostApart s { s with chip := x } := ⟨rfl, rfl, hh, hc, hr, fun _ => rfl⟩

theorem bumpRaw_hostApart (s : State) (u k n : Nat) : HostApart s (s.bumpRaw u k n).1 := chip_hostApart rfl rfl rfl

theorem meRaise_hostApart (s : State) (e : LogEntry) : HostApart s (s.meRaise e) where
  graphs := congrArg (·.graphs) (meRaise_quiet s e).til
  boot := (meRaise_aside s e).boot
  handles := congrArg Chip.handles (meRaise_chip s e)
  cause := congrArg Chip.resetCause (meRaise_chip s e)
  restarting := congrArg Chip.restarting (meRaise_chip s e)
  host hme := congrArg State.host (if_pos (by rw [hme]; rfl))

theorem logPush_hostApart (s : State) (e : LogEntry) : HostApart s (s.logPush e) :=
  .ite (chip_hostApart rfl rfl rfl) (.ite ((bumpRaw_hostApart s 0 5 1).trans (chip_hostApart rfl rfl rfl)) (chip_hostApart rfl rfl rfl))

theorem logWrite_hostApart (s : State) (e : LogEntry) : HostApart s (s.logWrite e).1 := by
  have hcount := (logPush_hostApart s e).trans (bumpRaw_hostApart _ 0 2 1)
  unfold State.logWrite
  dsimp only
  split
  · exact (hcount.trans (meRaise_hostApart _ e)).trans (bumpRaw_hostApart _ 0 3 1)
  · exact hcount

theorem logAll_hostApart (n : Nat) (l : List LogEntry) (s : State) : HostApart s (State.logAll n l s) := by
  induction n generalizing l s with
  | zero => cases l <;> exact .refl s
  | succ n ih =>
    cases l with
    | nil => exact .refl s
    | cons e es => exact (logWrite_hostApart s e).trans (ih _ _)

theorem log_hostApart (s : State) (code level idx a0 a1 : Nat) : HostApart s (s.log code level idx a0 a1) :=
  .ite (.refl s) (.ite (.ite (chip_hostApart rfl rfl rfl) ((bumpRaw_hostApart s 0 5 1).trans (chip_hostApart rfl rfl rfl))) (logAll_hostApart ..))

theorem bump_hostApart (s : State) (u k : Nat) : HostApart s (s.bump u k) :=
  .ite ((bumpRaw_hostApart s u k 1).trans (log_hostApart ..)) (bumpRaw_hostApart s u k 1)

/-! The spare pool. -/

theorem yieldWhere_hostApart (s : State) (r why : Nat) (hit : Test → Bool) : HostApart s (s.yieldWhere r why hit) :=
  (setRegion_hostApart ..).trans (.foldl (fun s t => ((giveUp_hostApart s t).trans (bump_hostApart ..)).trans (log_hostApart ..)) _ _)

theorem yieldCell_hostApart (s : State) (n why : Nat) : HostApart s (s.yieldCell n why) := .ite (yieldWhere_hostApart ..) (.refl s)

theorem fillPool_hostApart (n r : Nat) (s : State) : HostApart s (State.fillPool n r s) := by
  induction n generalizing s with
  | zero => exact .refl s
  | succ n ih =>
    unfold State.fillPool
    dsimp only
    split
    · exact .ite (.refl s) (setRegion_hostApart ..)
    · split
      · exact .ite (setRegion_hostApart ..) ((setRegion_hostApart ..).trans (log_hostApart ..))
      · exact (HostApart.foldl (fun s n => (yieldCell_hostApart s n 1).trans (spareCell_hostApart ..)) _ s).trans (ih _)

theorem refill_hostApart (s : State) (r : Nat) : HostApart s (s.refill r) := .ite (fillPool_hostApart 40 r s) (.refl s)

@[simp] theorem at_step4 (s : State) (t : Nat) : (s.at t).time.step4 = s.time.step4 := by unfold State.at; split <;> rfl

/-! ### Steps 1 to 4 (14 R395-R397; 18 R481) -/

theorem loadKeep_boot (s : State) : s.loadKeep.boot = s.boot := by
  have hcell (s : State) (n : Nat) : (s.loadCell n).boot = s.boot := by
    unfold State.loadCell
    split
    · rfl
    · split
      · rfl
      · exact ((updLeds_hostApart _ _ _).trans (setCell_hostApart _ _ _)).boot.trans ((updLeds_hostApart _ _ _).boot)
  have hconv (s : State) (c : Nat) : (s.loadConv c).boot = s.boot := by
    unfold State.loadConv
    dsimp only
    generalize (if isWM c then 128 else 256) = len
    split
    · rfl
    · split <;> rfl
  have hdac (s : State) (n : Nat) : (s.loadDacCal n).boot = s.boot := by
    unfold State.loadDacCal
    split
    · rfl
    · split <;> rfl
  have hsys (s : State) : s.loadSys.boot = s.boot := by
    refine foldl_frame (·.boot) (fun s e => ?_) _ s
    split
    · rfl
    · split <;> rfl
  unfold State.loadKeep
  dsimp only
  rw [State.loadRecords, hsys, foldl_frame (·.boot) hdac, foldl_frame (·.boot) hconv, foldl_frame (·.boot) fun s (e : Nat × Option Bytes) => hcell s e.1,
    foldl_frame (·.boot) fun s (e : Nat × Nat × Bool) => (setLed_hostApart s e.1 _).boot]

/-- Step 4 ends with the wait for the host that HOST_FIRST asks for, or with the slots to be tried. -/
theorem enterStep4_ends (s : State) (vccio : List Nat) (policyOk keyLost : Bool) :
    (s.enterStep4 vccio policyOk keyLost).time.step = 5 ∧ (s.enterStep4 vccio policyOk keyLost).boot.trying = !s.boot.hostFirst ∧
    (s.enterStep4 vccio policyOk keyLost).boot.hostWaiting = s.boot.hostFirst ∧ (s.enterStep4 vccio policyOk keyLost).boot.tryNext = 0 := by
  have hscale (u : State) : u.storedScale.boot = u.boot :=
    (foldl_frame (·.boot) (fun _ _ => by rfl) _ _).trans (foldl_frame (·.boot) (fun _ _ => by rfl) _ u)
  have hbanks (u : State) : (u.measureBanks vccio).boot = u.boot := foldl_frame (·.boot) (fun _ _ => by rfl) _ u
  have hkey (u : State) : (if keyLost then u.loseKeyRam else u).boot = u.boot := by
    split
    · exact (log_aside ..).boot
    · rfl
  have hpolicy (u : State) : (u.loadPolicy policyOk).boot = u.boot := by
    unfold State.loadPolicy
    split
    · exact (log_aside ..).boot
    · split
      · rfl
      · exact (log_aside ..).boot
  have hpool (u : State) : ((List.range 8).foldl (fun s r => (s.setRegion r { s.region r with covStart := s.now }).refill r) u).boot = u.boot :=
    (HostApart.foldl (fun s r => (setRegion_hostApart s r _).trans (refill_hostApart _ r)) _ u).boot
  unfold State.enterStep4
  dsimp only
  rw [hpool, hpolicy, hkey, hbanks, hscale, loadKeep_boot]
  exact ⟨rfl, rfl, rfl, rfl⟩

/-- A failed self-test keeps the device at its step, debug locked. -/
theorem failSelfTest_stays (s : State) (arg : Nat) :
    (s.failSelfTest arg).time.step = s.time.step ∧ (s.failSelfTest arg).time.selftestFail = true ∧ (s.failSelfTest arg).husk.debugLocked = true :=
  ⟨congrArg (·.step) (log_quiet s 0x101 4 0 arg 0).time, rfl, rfl⟩

/-- The timebase starts at 0, its PLL locked; the DAC channels count on it. -/
theorem startTimebase_starts {s : State} {khz f : Nat} (h : listedRef khz = some f) : (s.startTimebase khz).time = { s.time with timebase := 0, running := true } ∧
    (s.startTimebase khz).clk = { s.clk with lock := 15, refFreq := f } ∧ (s.startTimebase khz).chip = s.chip := by
  unfold State.startTimebase
  dsimp only
  rw [h]
  dsimp only
  rw [foldl_frame (·.time) fun _ _ => by rfl, foldl_frame (·.clk) fun _ _ => by rfl, foldl_frame (·.chip) fun _ _ => by rfl]
  exact ⟨rfl, rfl, rfl⟩

/-- DAC channels whose supplies have come read their records (14 R396). -/
def State.recordsRead (s : State) : State :=
  (List.range 64).foldl (fun s n => let d := s.dac n; if d.upStep = 1 then s.setDac n { d with upStep := 2 } else s) s

theorem recordsRead_frame {α : Type} (f : State → α) (hf : ∀ s n v, f (State.setDac s n v) = f s) (s : State) : f s.recordsRead = f s := by
  unfold State.recordsRead
  refine foldl_frame f (fun s n => ?_) _ s
  dsimp only
  split
  · exact hf ..
  · rfl

theorem suppliesValid_eq {s : State} (h : s.time.step = 1) (t : Nat) :
    exec (.suppliesValid t) s = .next (State.recordsRead { s.at t with time := { (s.at t).time with powerCount := 0, step := 3 } }) :=
  congrArg (fun u : State => Host.Outcome.next u.recordsRead) (if_pos (by rwa [at_step]))

/-- Step 3 once its fuses are read: the timebase runs, and start-up stands at step 4. -/
def State.fusesRead (s : State) (khz : Nat) : State :=
  let s1 := s.setFuses fun f => if f.keyKillPending then { f with keyKill := 7, keyKillPending := false } else f
  let s2 := if s1.time.running then s1 else s1.startTimebase khz
  { s2 with time := { s2.time with step := 4 }, clk := { s2.clk with bootSync := false } }

theorem pllLock_eq {s : State} (h : s.time.step = 3) (t khz : Nat) (ok : Bool) :
    exec (.pllLock t khz ok) s = .next (if ok then (s.at t).fusesRead khz else ((s.at t).fusesRead khz).failSelfTest 1) :=
  congrArg Host.Outcome.next (if_neg (by rw [at_step]; simp [h]))

theorem selfTest_eq {s : State} (hstep : s.time.step = 4) (hok : s.time.selftestFail = false) (t f : Nat) (v : List Nat) (p k : Bool) :
    exec (.selfTest t f v p k) s = .next (if f = 0 then (s.at t).enterStep4 v p k else if f < 8 then (s.at t).failSelfTest f
      else ((s.at t).log 0x804 4 0 (f - 8) 0).fresh.2.failSelfTest ((s.at t).log 0x804 4 0 (f - 8) 0).fresh.1) :=
  congrArg Host.Outcome.next (if_neg (by rw [at_step, at_selftestFail]; simp [hstep, hok]))

/-! ### The host's GO, DONE and step 8 (13 R360, R381, R382; 14 R395, R400) -/

section
variable {s : State}

theorem writeGo_acts {v : Nat} (hgo : bit v 0 = true) (hre : s.chip.restarting = false) (h : Bytes) : s.writeGo v h = s.bootGo h :=
  (if_neg (by simp [hgo])).trans (if_neg (by simp [hre]))

theorem bootGo_acts (hstep : s.time.step = 5) (hwait : s.boot.hostWaiting = true) (hload : s.load 8 = none) (h : Bytes) : s.bootGo h =
    if s.boot.imgLen = 0 ∨ s.boot.imgAddr % 8 ≠ 0 ∨ !s.bufOk s.boot.imgAddr s.boot.imgLen then s.endHostWait
    else State.beginLoad { s with boot := { s.boot with hostWaiting := false } } 8 { mode := 1, source := 0, imgSlot := 0, len := s.boot.imgLen }
      (s.hostRead s.boot.imgAddr (min s.boot.imgLen 3520) h) := if_neg (by simp [hstep, hwait, hload])

theorem deassertTrees_frame {α : Type} (f : State → α) (hgck : ∀ s g v, f (State.setGck s g v) = f s)
    (hff : ∀ (s : State) x, f { s with fab := { s.fab with ff := x } } = f s) (hdac : ∀ s n v, f (State.setDac s n v) = f s) (s : State) : f s.deassertTrees = f s := by
  have hinit (u : State) (r : Nat) : f (u.initFFs r) = f u := (foldl_frame f (fun s n => by exact hff s _) _ _).trans (hff u _)
  unfold State.deassertTrees
  dsimp only
  rw [foldl_frame f fun s n => by split; exacts [hdac .., rfl], foldl_frame f hinit, foldl_frame f fun s g => by exact hgck ..]

/-- Step 8 taken, short of the command that it ends. -/
def State.released (s : State) : State := { s.deassertTrees with fab := { s.deassertTrees.fab with forcedLow := false }, time := { s.deassertTrees.time with step := 9 } }

theorem released_keeps (s : State) : s.released.convs = s.convs ∧ s.released.til = s.til ∧ s.released.chip = s.chip ∧ s.released.boot = s.boot := by
  unfold State.released
  refine ⟨?_, ?_, ?_, ?_⟩ <;> dsimp only
  · exact deassertTrees_frame (·.convs) (fun _ _ _ => rfl) (fun _ _ => rfl) (fun _ _ _ => rfl) s
  · exact deassertTrees_frame (·.til) (fun _ _ _ => rfl) (fun _ _ => rfl) (fun _ _ _ => rfl) s
  · exact deassertTrees_frame (·.chip) (fun _ _ _ => rfl) (fun _ _ => rfl) (fun _ _ _ => rfl) s
  · exact deassertTrees_frame (·.boot) (fun _ _ _ => rfl) (fun _ _ => rfl) (fun _ _ _ => rfl) s

theorem releaseReset_eq (s : State) : s.releaseReset = match s.boot.doneSlot with
    | none => s.released
    | some h => { s.released.final h stOK s.boot.doneFrames 0 with boot := { (s.released.final h stOK s.boot.doneFrames 0).boot with doneSlot := none } } := by
  have hboot : s.deassertTrees.boot = s.boot := deassertTrees_frame (·.boot) (fun _ _ _ => rfl) (fun _ _ => rfl) (fun _ _ _ => rfl) s
  unfold State.releaseReset
  dsimp only
  split
  · next hslot =>
    rw [← hboot, hslot]
    rfl
  · next h hslot =>
    rw [← hboot, hslot]
    rfl

theorem resetRelease_eq (hstep : s.time.step = 8) (hhalt : s.husk.halted = false) (t : Nat) : exec (.resetRelease t) s = .next (s.at t).releaseReset :=
  congrArg Host.Outcome.next (if_pos (by rw [at_step, at_husk]; simp [hstep, hhalt]))

/-- DONE stays low past the limit (13 R382). -/
theorem doneTimeout_eq {x : Nat} (hrel : s.boot.doneReleasedAt = some x) (hstep : s.time.step = 6) (hhalt : s.husk.halted = false) {t : Nat}
    (hlate : x + 250000 * s.boot.doneTimeout ≤ (s.at t).now) :
    let u := State.log { s.at t with boot := { s.boot with doneLate := true, doneReleasedAt := none } } 0x70F 4 0 s.boot.doneTimeout 0
    exec (.doneTimeout t) s = .next (if s.boot.doneAction then (u.log 0x710 4 0 s.boot.doneTimeout 0).startTrees else u) := by
  refine congrArg Host.Outcome.next ?_
  rw [at_boot, hrel]
  dsimp only
  rw [at_step, at_husk, if_neg (by simp [hstep, hhalt]; omega), (log_aside ..).boot]

end

/-- Settles O56: each row of start-up at its step, by what the operations between leave of the boot state, the time and the rest. -/
theorem startUpComplete : Obligations.StartUpComplete := by
  unfold Obligations.StartUpComplete
  refine ⟨fun s t hstep => ?_, fun s t khz f hstep hrun hkill href => ?_, fun s t khz hstep => ?_, fun s t khz ok hno => ?_, fun s t v p k hstep hok => ?_,
    fun s t f v p k hstep hok hf => ?_, fun s t hstep hwait hlate => ?_, fun s t v h hup hgo hre hstep hwait hload => ⟨fun hlen => ?_, ?_⟩,
    fun s t hdrv hstep hhalt => ?_, fun s t hdrv => ?_, fun s t x hrel hstep hhalt hlate => ?_, fun s t hstep hhalt hslot => ?_,
    fun s t h hstep hhalt hslot => ?_, fun s t hstep hhalt => ?_, fun s t hstraw hdone hhalt hre hfail hdue => ?_⟩
  · rw [suppliesValid_eq hstep]
    refine ⟨_, rfl, ?_⟩
    rw [recordsRead_frame (·.time) fun _ _ _ => rfl, recordsRead_frame (·.chip) fun _ _ _ => rfl, recordsRead_frame (·.til) fun _ _ _ => rfl]
    exact ⟨rfl, rfl, at_chip s t, at_til s t⟩
  · have hfused : ((s.at t).setFuses fun f => if f.keyKillPending then { f with keyKill := 7, keyKillPending := false } else f).time.running = false :=
      (congrArg (·.running) (rfl : _ = (s.at t).time)).trans ((at_running s t).trans hrun)
    obtain ⟨htime, hclk, hchip⟩ := startTimebase_starts
      (s := (s.at t).setFuses fun f => if f.keyKillPending then { f with keyKill := 7, keyKillPending := false } else f) href
    rw [pllLock_eq hstep, if_pos rfl, State.fusesRead, hfused]
    refine ⟨_, rfl, rfl, ?_⟩
    dsimp only
    rw [if_neg (by decide), htime, hclk, hchip]
    exact ⟨rfl, rfl, rfl, rfl, at_chip s t, at_selftestFail s t⟩
  · rw [pllLock_eq hstep]
    exact ⟨_, rfl, failSelfTest_stays _ 1⟩
  · exact congrArg Host.Outcome.next (if_pos (by rwa [at_step]))
  · rw [selfTest_eq hstep hok, if_pos rfl]
    have h := enterStep4_ends (s.at t) v p k
    rw [at_boot] at h
    exact ⟨_, rfl, h⟩
  · rw [selfTest_eq hstep hok, if_neg hf]
    by_cases h8 : f < 8
    · obtain ⟨h4, hfail, hlock⟩ := failSelfTest_stays (s.at t) f
      exact ⟨_, congrArg _ (if_pos h8), h4.trans ((at_step s t).trans hstep), hfail, hlock⟩
    · obtain ⟨h4, hfail, hlock⟩ := failSelfTest_stays ((s.at t).log 0x804 4 0 (f - 8) 0).fresh.2 ((s.at t).log 0x804 4 0 (f - 8) 0).fresh.1
      refine ⟨_, congrArg _ (if_neg h8), h4.trans ?_, hfail, hlock⟩
      exact (congrArg (·.step) (log_quiet (s.at t) 0x804 4 0 (f - 8) 0).time).trans ((at_step s t).trans hstep)
  · refine congrArg Host.Outcome.next ((if_pos ?_).trans ?_)
    · rw [at_step, at_boot]
      exact ⟨hstep, hwait, by rwa [at_step4]⟩
    · rw [State.endHostWait, at_boot]
  · refine congrArg Host.Outcome.next ((if_pos hup).trans ?_)
    rw [writeGo_acts hgo (by rwa [at_chip]), bootGo_acts (by rwa [at_step]) (by rwa [at_boot]) (by rwa [at_load]), at_boot, if_pos (.inl hlen), State.endHostWait, at_boot]
  · rintro b l hlen hal hbuf rfl h3520 hhead hid rfl
    refine congrArg Host.Outcome.next ((if_pos hup).trans ?_)
    rw [writeGo_acts hgo (by rwa [at_chip]), bootGo_acts (by rwa [at_step]) (by rwa [at_boot]) (by rwa [at_load]), at_boot, if_neg (by simp [hlen, hal, hbuf]),
      beginLoad_passes (if_neg (by decide)) h3520 hhead hid]
    rfl
  · refine congrArg Host.Outcome.next ?_
    rw [at_boot, if_neg (by simp [hdrv])]
    exact if_pos ⟨by rwa [at_step], by simp [hhalt]⟩
  · refine congrArg Host.Outcome.next ?_
    rw [at_boot]
    exact if_pos hdrv
  · have hlog (u : State) : (u.log 0x70F 4 0 s.boot.doneTimeout 0).boot = u.boot := (log_aside ..).boot
    rw [doneTimeout_eq hrel hstep hhalt hlate]
    refine ⟨_, rfl, ?_⟩
    by_cases hact : s.boot.doneAction = true
    · rw [if_pos hact, if_pos hact]
      refine ⟨?_, rfl, rfl⟩
      exact (congrArg (·.doneLate) (log_aside _ 0x710 4 0 s.boot.doneTimeout 0).boot).trans (congrArg (·.doneLate) (hlog _))
    · rw [if_neg hact, if_neg hact, hlog]
      rw [(log_quiet _ 0x70F 4 0 s.boot.doneTimeout 0).time]
      exact ⟨rfl, rfl, (at_step s t).trans hstep⟩
  · obtain ⟨hconvs, htil, -, -⟩ := released_keeps (s.at t)
    rw [resetRelease_eq hstep hhalt, releaseReset_eq, at_boot, hslot]
    exact ⟨_, rfl, rfl, rfl, hconvs.trans (at_convs s t), htil.trans (at_til s t)⟩
  · obtain ⟨-, htil, hchip, -⟩ := released_keeps (s.at t)
    rw [resetRelease_eq hstep hhalt, releaseReset_eq, at_boot, hslot]
    exact ⟨_, rfl, rfl, hchip.trans (at_chip s t), htil.trans (at_til s t)⟩
  · exact ⟨_, congrArg Host.Outcome.next (if_pos (by rw [at_step, at_husk]; simp [hstep, hhalt])), rfl⟩
  · refine congrArg Host.Outcome.next (if_pos ?_)
    rw [at_done, at_husk, at_chip, at_boot]
    exact ⟨hstraw, hdone, by simp [hhalt], by simp [hre], by simp [hfail], hdue⟩

end Sys2Proof.Machine

/-! PROOFS. Resets (14 R393-R395; 16 R449, R450; 18 R473, R475) and the link (18 R477). -/

namespace Sys2Proof.Machine

section
variable {s : State}

/-! ### Power-on resets (14 R393-R395) -/

theorem raiseLatched_none (h : s.husk.latched = []) : s.raiseLatched = { s with husk := { s.husk with latched := [] } } := by
  rw [State.raiseLatched, h]
  rfl

/-- The device after a power-on reset: what is not volatile is as it was, and all else has its reset value. -/
structure PoweredOn (cause : Nat) (a b c : Bool) (s u : State) : Prop where
  cause : u.chip.resetCause = 2 ^ cause
  time : u.time = { cfgPull := a, localMode := b, vrefSel := c }
  handles : u.chip.handles = []
  log : u.chip.log = []
  host : u.host = {}
  til : u.til = {}
  convs : u.convs = []
  dacs : u.dacs = []
  fab : u.fab = {}
  clk : u.clk = {}
  pin : u.pin = {}
  keep : u.keep = s.keep
  fuses : u.husk.fuses = s.husk.fuses
  flashKeys : u.husk.flashKeys = s.husk.flashKeys
  keyRam : u.husk.keyRam = s.husk.keyRam
  boot : u.boot = { fallback := s.boot.fallback }

theorem powerOn_starts (h : s.husk.latched = []) (cause : Nat) (a b c : Bool) : PoweredOn cause a b c s (s.powerOn cause a b c) := by
  unfold State.powerOn
  dsimp only
  rw [raiseLatched_none]
  · constructor <;> rfl
  · exact h

/-! ### Warm resets (14 R393, R394; 18 R475) -/

/-- With no handle an end finds no command: at most a data-area item's result is set. -/
theorem final_noHandles (h : s.chip.handles = []) (slot status r0 r1 : Nat) : (s.final slot status r0 r1).chip = s.chip := by
  have hnone : (s.hnd slot).st ≠ 1 := by
    rw [State.hnd, h]
    exact Nat.zero_ne_one
  unfold State.final State.finalObj
  split
  · rfl
  · rw [if_pos (.inl hnone)]

/-- What a warm reset has set of the chip, on the way into Fallow: with no handle it stays. -/
def WarmKept (s t : State) : Prop :=
  s.chip.handles = [] → t.chip.handles = [] ∧ t.chip.resetCause = s.chip.resetCause ∧ t.chip.restarting = s.chip.restarting

theorem WarmKept.of_chip {s t : State} (h : t.chip = s.chip) : WarmKept s t := fun hs => ⟨by rw [h, hs], by rw [h], by rw [h]⟩

theorem warmKeptSteady : FallowSteady WarmKept where
  refl _ := .of_chip rfl
  trans _ _ _ h k hs := by
    obtain ⟨ht, hcause, hre⟩ := h hs
    obtain ⟨hu, hcause', hre'⟩ := k ht
    exact ⟨hu, hcause'.trans hcause, hre'.trans hre⟩
  pin _ _ := .of_chip rfl
  controls _ _ := .of_chip rfl
  flipFlops _ _ := .of_chip rfl
  gate _ := .of_chip rfl
  dac _ _ _ := .of_chip rfl
  final s slot status r0 r1 hs := WarmKept.of_chip (final_noHandles hs slot status r0 r1) hs
  log s code level idx a0 a1 hs := by
    have h := log_hostApart s code level idx a0 a1
    exact ⟨h.handles.trans hs, h.cause, h.restarting⟩
  stop _ hs := ⟨hs, rfl, rfl⟩
  fallow _ := .of_chip rfl

theorem enterFallow_fallow (s : State) (image reason : Nat) : (s.enterFallow image reason).boot.fallow = true := by
  unfold State.enterFallow
  dsimp only
  split
  · rfl
  · rw [(log_aside _ 0x70C 4 0 image reason).boot]

theorem warmHost_clears (s : State) : s.warmHost.chip.handles = [] ∧ s.warmHost.chip.restarting = false ∧ s.warmHost.chip.resetCause = s.chip.resetCause := by
  unfold State.warmHost
  dsimp only
  have h := fun u : State => HostApart.foldl (fun s e => logAll_hostApart 8 [e] s) s.chip.heldLog u
  exact ⟨(h _).handles, (h _).restarting, (h _).cause⟩

/-- The registers that a warm reset sets one by one at its end. -/
def State.warmUnits (s : State) : State :=
  (List.range 64).foldl (fun s n => s.setDac n (s.dac n).unconfigured)
    ((List.range 12).foldl (fun s b => s.setBank b { s.bank b with out := 0 })
      ((List.range 8).foldl (fun s g => s.setGck g { s.gck g with asserted := true }) s))

theorem warmUnits_frame {α : Type} (f : State → α) (hgck : ∀ s g v, f (State.setGck s g v) = f s) (hbank : ∀ s b v, f (State.setBank s b v) = f s)
    (hdac : ∀ s n v, f (State.setDac s n v) = f s) (s : State) : f s.warmUnits = f s := by
  unfold State.warmUnits
  rw [foldl_frame f fun s n => by exact hdac .., foldl_frame f fun s b => by exact hbank .., foldl_frame f fun s g => by exact hgck ..]

theorem warmClear_clears (s : State) : s.warmClear.time.step = 3 ∧ s.warmClear.time.done = false ∧ s.warmClear.til = {} ∧ s.warmClear.convs = [] ∧
    s.warmClear.husk.halted = false ∧ s.warmClear.chip = s.chip ∧ s.warmClear.boot = s.boot := by
  have hunits : ∃ u : State, s.warmClear = u.warmUnits ∧ u.time.step = 3 ∧ u.time.done = false ∧ u.til = {} ∧ u.convs = [] ∧ u.husk.halted = false ∧
      u.chip = s.chip ∧ u.boot = s.boot := ⟨_, rfl, rfl, rfl, rfl, rfl, rfl, rfl, rfl⟩
  obtain ⟨u, hu, hstep, hdone, htil, hconvs, hhalt, hchip, hboot⟩ := hunits
  rw [hu, warmUnits_frame (·.time) (fun _ _ _ => rfl) (fun _ _ _ => rfl) fun _ _ _ => rfl, warmUnits_frame (·.til) (fun _ _ _ => rfl) (fun _ _ _ => rfl) fun _ _ _ => rfl,
    warmUnits_frame (·.convs) (fun _ _ _ => rfl) (fun _ _ _ => rfl) fun _ _ _ => rfl, warmUnits_frame (·.husk) (fun _ _ _ => rfl) (fun _ _ _ => rfl) fun _ _ _ => rfl,
    warmUnits_frame (·.chip) (fun _ _ _ => rfl) (fun _ _ _ => rfl) fun _ _ _ => rfl, warmUnits_frame (·.boot) (fun _ _ _ => rfl) (fun _ _ _ => rfl) fun _ _ _ => rfl]
  exact ⟨hstep, hdone, htil, hconvs, hhalt, hchip, hboot⟩

/-- The device after a warm reset of a running timebase: step 3 of start-up, in Fallow, empty. -/
structure WarmStarted (cause : Nat) (s u : State) : Prop where
  step : u.time.step = 3
  done : u.time.done = false
  handles : u.chip.handles = []
  til : u.til = {}
  convs : u.convs = []
  fallow : u.boot.fallow = true
  restarting : u.chip.restarting = false
  halted : u.husk.halted = false
  cause : u.chip.resetCause = withBit s.chip.resetCause cause

theorem warm_starts (hrun : s.time.running = true) (cause : Nat) : WarmStarted cause s (s.warm cause) := by
  obtain ⟨hhandles, hre, hcause⟩ := warmHost_clears (s.addCause cause)
  have hwarm : s.warm cause = ((s.addCause cause).warmHost.enterFallow
      ((s.addCause cause).boot.loaded.source * 256 + (s.addCause cause).boot.loaded.slot) 0).warmClear := if_neg (by simp [State.addCause, hrun])
  rw [hwarm]
  generalize (s.addCause cause).boot.loaded.source * 256 + (s.addCause cause).boot.loaded.slot = image
  obtain ⟨hhandles', hcause', hre'⟩ := warmKeptSteady.enterFallow (s.addCause cause).warmHost image 0 hhandles
  obtain ⟨hstep, hdone, htil, hconvs, hhalt, hchip, hboot⟩ := warmClear_clears ((s.addCause cause).warmHost.enterFallow image 0)
  exact
    { step := hstep, done := hdone, til := htil, convs := hconvs, halted := hhalt
      handles := by rw [hchip, hhandles']
      fallow := by rw [hboot, enterFallow_fallow]
      restarting := by rw [hchip, hre', hre]
      cause := by rw [hchip, hcause', hcause]; rfl }

theorem writeResetCtl_warm {v : Nat} (hbit : bit v 0 = true) (hkey : v / 65536 = 0xA5C3) : s.writeResetCtl v = s.warm 3 := if_pos ⟨hbit, hkey⟩

theorem writeResetCtl_otherKey {v : Nat} (hkey : v / 65536 ≠ 0xA5C3) : s.writeResetCtl v = s := if_neg fun h => hkey h.2

/-! ### The host interface's reset (14 R393, R394; 18 R473) -/

theorem inFlight_none (h : s.chip.handles = []) : s.inFlight = [] := by
  rw [State.inFlight, h]
  rfl

theorem resume_idle (h : s.chip.handles = []) : s.resume = s := by
  have htunes : s.endTunes = s := by
    rw [State.endTunes, inFlight_none h]
    rfl
  have hpins : s.endPins = s := by
    rw [State.endPins, inFlight_none h]
    rfl
  unfold State.resume
  dsimp only
  rw [htunes, hpins, inFlight_none h]
  exact (congrArg State.endPins htunes).trans hpins

theorem graph_none (h : s.til.graphs = []) (slot : Nat) : s.graph slot = none := by
  rw [State.graph, h]
  rfl

theorem graphs_none (h : s.til.graphs = []) : s.graphs = [] := by
  rw [State.graphs, h]
  rfl

theorem restock_hostApart (h : s.til.graphs = []) : HostApart s s.restock := by
  unfold State.restock
  dsimp only
  rw [graphs_none h]
  exact .foldl (fun s r => refill_hostApart s r) _ s

theorem retryStranded_idle (h : s.til.graphs = []) : s.retryStranded = s :=
  foldl_idle fun q _ => by rw [graph_none h]

theorem pinBack_idle (h : s.til.graphs = []) : s.pinBack = s := by
  rw [State.pinBack, graphs_none h]
  rfl

/-- With no graph a waiting move has nothing to move, and is dropped. -/
theorem pumpMoves_hostApart (h : s.til.graphs = []) : HostApart s s.pumpMoves := by
  unfold State.pumpMoves
  generalize sortBy (fun a b => decide (a.why.priority ≤ b.why.priority)) s.til.moves = l
  induction l generalizing s with
  | nil => exact .refl s
  | cons m l ih =>
    rw [List.foldl_cons]
    split
    · exact ih h
    · rw [graph_none h]
      exact (setMoves_hostApart s _).trans (ih h)

theorem cellsFreed_hostApart (h : s.til.graphs = []) : HostApart s s.cellsFreed := by
  have hstock := restock_hostApart h
  have hnone := hstock.graphs.trans h
  unfold State.cellsFreed
  rw [retryStranded_idle hnone, pinBack_idle hnone]
  exact hstock.trans (pumpMoves_hostApart hnone)

theorem resetHost_idle (h : s.chip.handles = []) : s.resetHost = (State.cellsFreed { s.addCause 4 with host := {} }).resume := by
  have hcause : (s.addCause 4).chip.handles = [] := h
  have hdiscard : (s.addCause 4).discardAll = s.addCause 4 := by
    rw [State.discardAll, inFlight_none hcause]
    rfl
  have hgraphs : State.hostGraphs { s.addCause 4 with host := {} } = [] := by
    unfold State.hostGraphs
    rw [show State.chip { s.addCause 4 with host := {} } = (s.addCause 4).chip from rfl, hcause]
    rfl
  unfold State.resetHost
  dsimp only
  rw [hdiscard, inFlight_none hcause, hcause, List.filter_nil, List.map_nil, List.foldl_nil, List.filter_nil, List.map_nil, List.foldl_nil, hgraphs, List.foldl_nil]

theorem resetHost_hostApart (h : s.chip.handles = []) (hgraphs : s.til.graphs = []) : HostApart { s.addCause 4 with host := {} } s.resetHost := by
  have hapart : HostApart { s.addCause 4 with host := {} } (State.cellsFreed { s.addCause 4 with host := {} }) := cellsFreed_hostApart hgraphs
  have hnone : (State.cellsFreed { s.addCause 4 with host := {} }).chip.handles = [] := hapart.handles.trans h
  rw [resetHost_idle h, resume_idle hnone]
  exact hapart

end

/-- Settles O55: a power-on reset by its fields, a warm one by `warm_starts`, PERST by what it leaves with no handle and no graph. -/
theorem resetsComplete : Obligations.ResetsComplete := by
  unfold Obligations.ResetsComplete
  refine ⟨fun s t a b c hlatched => ?_, fun s t a b c hlatched hstep => ?_, fun s t a b c hstep => ?_, fun s t ns hlow hrun => ?_, fun s t ns hshort => ?_,
    fun s t v hup hrun hbit hkey => ?_, fun s t v hkey => ?_, fun s t hidle hnone hgraphs => ?_, fun s t sp w hmode hstep hlo hhi hw => ?_, fun s t => ?_⟩
  · have h := powerOn_starts (s := s.at t) (by rwa [at_husk]) 0 a b c
    exact ⟨_, rfl, h.cause, h.time, h.handles, h.log, h.host, h.til, h.convs, h.dacs, h.fab, h.clk, h.pin, h.keep.trans (at_keep s t), by rw [h.fuses, at_husk],
      by rw [h.flashKeys, at_husk], by rw [h.keyRam, at_husk], by rw [h.boot, at_boot]⟩
  · have h := powerOn_starts (s := s.at t) (by rwa [at_husk]) 1 a b c
    exact ⟨_, congrArg Host.Outcome.next (if_neg (by rw [at_step]; omega)), h.cause, h.time, h.handles, h.host, h.til, h.convs, h.dacs, h.fab, h.keep.trans (at_keep s t)⟩
  · exact congrArg Host.Outcome.next (if_pos (by rwa [at_step]))
  · have h := warm_starts (s := s.at t) (by rwa [at_running]) 2
    refine ⟨_, congrArg Host.Outcome.next (if_neg (by omega)), h.step, h.done, h.handles, h.til, h.convs, h.fallow, h.restarting, h.halted, ?_⟩
    rw [h.cause, at_chip]
  · exact congrArg Host.Outcome.next (if_pos hshort)
  · have h := warm_starts (s := s.at t) (by rwa [at_running]) 3
    refine ⟨_, congrArg Host.Outcome.next ((if_pos hup).trans (writeResetCtl_warm hbit hkey)), h.step, h.done, h.handles, h.til, h.convs, h.fallow, ?_⟩
    rw [h.cause, at_chip]
  · refine congrArg Host.Outcome.next ?_
    rw [writeResetCtl_otherKey hkey, ite_self]
  · have hapart := resetHost_hostApart (s := s.at t) (by rw [at_chip, hnone]) (by rw [at_til, hgraphs])
    refine ⟨_, rfl, ?_⟩
    rw [hapart.host rfl, hapart.cause]
    refine ⟨rfl, rfl, rfl, rfl, rfl, ?_⟩
    rw [← at_chip s t]
    rfl
  · refine congrArg Host.Outcome.next ?_
    rw [at_host, at_localMode, at_step]
    refine if_neg ?_
    have hlanes : [1, 2, 4, 8].contains w = true := by rcases hw with rfl | rfl | rfl | rfl <;> rfl
    rw [hmode, hlanes]
    simp only [Bool.false_eq_true, Bool.not_true, or_false, false_or]
    omega
  · refine congrArg Host.Outcome.next ?_
    rw [at_host]

end Sys2Proof.Machine
